-- ==== Sys2Proof/Word.lean ====
section
/-! DEFINITION. The word types of the model and their plainest arithmetic. -/
namespace Sys2Proof

/-- One byte of memory. -/
abbrev Byte := BitVec 8

/-- A register of a page: 32 bits (R40). -/
abbrev Word := BitVec 32

/-- A scalar register or an instruction word: 64 bits (R222, R237). -/
abbrev Dword := BitVec 64

/-- A SHA-256 digest or the 256-bit configuration fingerprint. -/
abbrev Digest := BitVec 256

end Sys2Proof
end

