-- ==== Sys2Proof/Syntax.lean ====
section
/-! DEFINITION. The commands of the block: one constructor of `Instr` per row of spec/opcode_table.json, and the operand
types they carry. The table gives a row no operand fields; a command carries what the outside decides (who acts, which
instance, the phase or cycle, the words of an instruction, the message that arrives), and State holds the rest. -/
namespace Sys2Proof

/-- The block types of Table 2.1. -/
inductive PageType where
  | device | core | die | cellar | stack | solver | update | coll | link | heddle | host | field | pick | audit
  | mgmt | power | sec | book | part
deriving DecidableEq, Repr, Inhabited

/-- The agents of Table 2.4; a strand agent carries its core index, a virtual function serves partition `p` (R30). -/
inductive Agent where
  | block
  | pf
  | vf (p : Fin 8)
  | mgmt
  | strand (core : Fin 512)
  | remote
  | unit
deriving DecidableEq, Repr, Inhabited

/-- Errors that a storage code reports while a command uses the storage (R161, R219, R246, R275, R334). -/
structure Ecc where
  corr : Nat := 0
  uncorr : Nat := 0
deriving DecidableEq, Repr, Inhabited

/-- Errors that the code of a memory reports in one of its 64-byte blocks while a command reads it, by the address of the block (R281, R284,
R308): corrected errors, uncorrectable errors. -/
structure BlockEcc where
  addr : BitVec 48
  corr : Nat := 0
  uncorr : Nat := 0
deriving DecidableEq, Repr, Inhabited

/-- Errors of a unit's own storage, and of the memory that its step reads. -/
structure UnitEcc where
  own : Ecc := {}
  mem : List BlockEcc := []
deriving DecidableEq, Repr, Inhabited

/-- An instruction word's fields (R237) as one strand of one core issues it at core cycle `cyc` after the pick edge. -/
structure Issue where
  core : Fin 512
  strand : Fin 8
  cyc : Nat := 0
  d : Fin 32 := 0
  a : Fin 32 := 0
  b : Fin 32 := 0
  mod : Fin 512 := 0
  imm : Word := 0
  ecc : Ecc := {}       -- the instruction buffer and the scalar registers (R246)
  vecc : Ecc := {}      -- the vector registers and the accumulators (R219)
  spl : List BlockEcc := []  -- the spool blocks that the instruction reads (R281)
deriving DecidableEq, Repr, Inhabited

/-- An error that another event counts in the same cycle as a clear (R52). -/
structure ErrObs where
  code : BitVec 8
  addr : BitVec 48
  agent : Agent
deriving DecidableEq, Repr

/-- The contents of an ALIGN flit (R361) and what the receiving port measures with it: the phase difference in ns
(R82), the round trip of its time stamps in ns (R77). -/
structure AlignFlit where
  edge : Bool := false
  pick : BitVec 48
  tx : Dword := 0
  echo : Dword := 0
  phaseNs : Int := 0
  roundTripNs : Nat := 0
  vote : Option Bool := none
  confirm : Option Bool := none
  dissent : Bool := false
  cfgGen : Word := 0
  fprint : Digest := 0
deriving DecidableEq, Repr

/-- Where an arriving remote memory operation comes from: an operation this device itself issued (its place in the
list of issued operations), or a peer's heddle, or a peer's repair context. -/
inductive OpSource where
  | own (id : Nat)
  | fabric (dev : BitVec 16) (hid : Nat) (seq : Word) (pickTag : BitVec 8)
  | repair (dev : BitVec 16) (hid : Nat) (seq : Word)
deriving DecidableEq, Repr

/-- A message of a block repair for a slice, which crosses the fabric as one or more operations of a repair context (Table 11.9, R331): a
request, a replica's state (its time of arrival in ns since the repair began with it), a replica's refusal. -/
inductive RepairMsg where
  | request (slice : Fin 8) (block target : Word)
  | state (slice : Fin 8) (step origin : Word) (data scales digest : List Byte) (ns : Nat)
  | refusal (slice : Fin 8) (ns : Nat)
deriving DecidableEq, Repr

/-- Where a message of a block repair comes from (R331): the device, its heddle here, the sequence number of its first operation. -/
structure RepairSrc where
  dev : BitVec 16
  hid : Nat
  seq : Word
deriving DecidableEq, Repr

/-- An answer of a replica: where it comes from, and its time of arrival in ns since the repair began. -/
structure RepairReply where
  src : RepairSrc
  ns : Nat
deriving DecidableEq, Repr

/-- The tag of a tagged ACC (R297). -/
structure Tag where
  work : Word
  core : BitVec 16
  array : BitVec 8
  tile : BitVec 22
deriving DecidableEq, Repr

/-- An operation at its destination (Tables 12.3 and 12.4) with its data; `part` is the partition the flit carries. -/
structure Arrival where
  src : OpSource
  part : Fin 8 := 0
  addr : BitVec 48
  len : Nat := 8
  data : List Byte := []
  poison : List Nat := []
  ccb : BitVec 8 := 0
  aop : Fin 4 := 0
  frac : Fin 64 := 0
  unord : Bool := false
  sigWait : Bool := false
  priv : Bool := false
  op0 : Dword := 0
  op1 : Dword := 0
  tag : Option Tag := none
  rackStep : Word := 0
  coll : Bool := false  -- a collective slice issued it (R377)
  ecc : List BlockEcc := []  -- the storage that the operation reads (R281, R284, R308)
  retries : List (Fin 16) := [] -- loom dies whose bridge transfers of the operation failed their CRC (R306)
  repairMsg : Option RepairMsg := none -- an operation of a block repair (R331)
deriving DecidableEq, Repr

/-- What a response to a line read of the run-ahead engine brings (R233, R235, R236): data, poisoned 64-byte blocks and status of a read of
another device; the errors of the storage of this one (R281, R284, R308); loom dies whose bridge transfers were retried (R306). -/
structure LineResponse where
  data : List Byte := []
  poison : List Nat := []
  status : Fin 16 := 0
  ecc : List BlockEcc := []
  retries : List (Fin 16) := []
deriving DecidableEq, Repr

/-- Errors of a slice's redo store and done-map memory met by a group's step, and the blocks besides its own whose state an uncorrectable
one touches (R334). -/
structure UpdEcc where
  corr : Nat := 0
  uncorr : Nat := 0
  blocks : List Word := []
deriving DecidableEq, Repr, Inhabited

/-- A step of one group of a block (R322), with the errors that it meets. -/
structure GroupStep where
  group : Fin 256
  ecc : UpdEcc := {}
deriving DecidableEq, Repr

/-- A gradient chunk for an update slice (R320, R321). -/
structure Chunk where
  block : Word
  step : Word
  origin : BitVec 48
  fmt : BitVec 4
  data : List Byte
  poison : Bool := false
  agent : Agent := .unit
deriving DecidableEq, Repr

/-- A flit on a link (R359): the fields of its header and its payload; with it the device, the end-to-end sequence number and the pick tag
that the operation in it carries (R339, R347), and what the receiver's FEC reports of its codewords (R358). KIND is 0 IDLE, 1 OP, 2 DATA,
3 ACK, 4 CREDIT, 5 ALIGN, 6 MGMT, 7 NEG, 8 RETRY. -/
structure Flit where
  kind : Fin 16 := 1
  vc : Fin 5 := 0
  lseq : BitVec 12 := 0
  lack : BitVec 12 := 0
  crc : Word := 0
  payload : List Byte := []
  dest : BitVec 16
  seq : Word := 0
  tag : Option (BitVec 8) := none
  fecCorr : Nat := 0
  fecUncorr : Nat := 0
deriving DecidableEq, Repr

/-- A NEG flit (R362 to R364); versions are `16 * major + minor`, the role is laid out as LINK.ROLE (nothing compares it). -/
structure NegFlit where
  verLo : Nat
  verHi : Nat
  peerDev : BitVec 16
  peerLink : Fin 64
  role : BitVec 16 := 0
  cfgGen : Word
  fprint : Digest
deriving DecidableEq, Repr

/-- What a field port sees of a frame (R414): whether it uses an option outside Table 15.1. -/
structure FrameInfo where
  unsupported : Bool := false
  vlanTags : Nat := 0
  vid : BitVec 12 := 0
  ipv6 : Bool := false
  ipOptions : Bool := false
  fragment : Bool := false
  checksumOk : Bool := true
  dstOwn : Bool := true
  udp : Bool := true
  dstPort : Nat := 0
  bytes : Nat := 64
deriving DecidableEq, Repr

/-- The source of a datagram: port, address, UDP port (R424). -/
structure NetAddr where
  port : Fin 2
  ip : BitVec 128
  udp : BitVec 16
deriving DecidableEq, Repr

/-- A handshake record's header fields and one fragment of its body (Table 15.3, R420). -/
structure HsRecord where
  src : NetAddr
  fragIdx : Fin 16 := 0
  fragCnt : Fin 16 := 1
  session : Word := 0
  counter : Dword := 0
  body : List Byte := []
deriving DecidableEq, Repr

/-- A request's message header (Table 15.5) and its whole body, as the management cores judge it. -/
structure Request where
  session : Word
  sub : Fin 16
  seq : Word
  deadline : BitVec 48
  model : BitVec 16 := 0
  fallback : Fin 4 := 0
  reservedOk : Bool := true
  body : List Byte := []
deriving DecidableEq, Repr

/-- A stack request that a controller considers (R286 to R289). -/
structure DramReq where
  part : Fin 8
  cls : Fin 3          -- 0 ordinary, 1 sequencer class, 2 service class
  write : Bool := false
  sched : Bool := false -- a sequencer read of schedule entries (R289)
  bytes : Nat
deriving DecidableEq, Repr

/-- The commands. Each constructor is the row of spec/opcode_table.json that LAWS.json names for it. -/
inductive Instr where
  -- Register pages (chapter 2)
  | registerWrite (ag : Agent) (bar4 : Bool) (addr : BitVec 48) (size : Nat) (v : Dword)
  | srst (ag : Agent) (ty : PageType) (inst : Nat)
  | errClr (ag : Agent) (ty : PageType) (inst : Nat) (coin : Option ErrObs)
  | evtStatClear (ag : Agent) (ty : PageType) (inst : Nat) (mask hwSet : Word)
  | evtEnWrite (ag : Agent) (ty : PageType) (inst : Nat) (v : Word)
  | evtSet (ag : Agent) (ty : PageType) (inst : Nat) (v : Word)
  | cfgStageWrite (ag : Agent) (ty : PageType) (inst : Nat) (gen : Word)
  | arm (ag : Agent)
  | cancel (ag : Agent)
  -- The pick (chapter 3)
  | pickEdge
  | pickOutEnd
  | taskStart (idx : Nat) (ns : Nat)
  | taskFinish (idx : Nat) (ns : Nat)
  | beatUpStart
  | votePoint
  | confirmPoint
  | decisionPoint
  | schedEntryCheck
  | pickSetApply (ag : Agent) (hi : BitVec 16)
  | pickInEdge (ns : Nat)
  | sourceLoss
  | sourceReturn (offsetNs : Int)
  | align (link : Fin 36) (f : AlignFlit)
  -- Strand instructions (chapter 8)
  | nop (i : Issue) | add (i : Issue) | sub (i : Issue) | mul (i : Issue) | mulh (i : Issue) | div (i : Issue)
  | rem (i : Issue) | and (i : Issue) | or (i : Issue) | xor (i : Issue) | sll (i : Issue) | srl (i : Issue)
  | sra (i : Issue) | slt (i : Issue) | sltu (i : Issue) | li (i : Issue) | ld (i : Issue) | st (i : Issue)
  | ldv (i : Issue) | ldp (i : Issue) | stp (i : Issue) | beq (i : Issue) | bne (i : Issue) | blt (i : Issue)
  | bge (i : Issue) | bltu (i : Issue) | bgeu (i : Issue) | jal (i : Issue) | jalr (i : Issue)
  | sfadd (i : Issue) | sfsub (i : Issue) | sfmul (i : Issue) | sfma (i : Issue) | sfdiv (i : Issue)
  | sfsqrt (i : Issue) | sfcvt (i : Issue) | sfcmp (i : Issue)
  | spawn (i : Issue) | endStrand (i : Issue) | sync (i : Issue) | waits (i : Issue) | rels (i : Issue)
  | sigwait (i : Issue)
  | strandWaitRelease (core : Fin 512) (strand : Fin 8)
  | rdid (i : Issue) | rdcyc (i : Issue) | rdtemp (i : Issue) | fetch (i : Issue)
  | raLineIssue (core : Fin 512)
  | raLineLand (core : Fin 512) (slot part stall : Nat) (r : LineResponse)
  | instructionFetch (core : Fin 512) (strand : Fin 8) (ecc : UnitEcc)
  | rmo (i : Issue) | raccu (i : Issue)
  | wload (i : Issue)
  | edgeLoad (i : Issue)
  | wloadComplete (core : Fin 512) (arr : Fin 2) (cyc : Nat)
  | apass (i : Issue) | apassv (i : Issue)
  | beatRelease (core : Fin 512) (arr : Fin 2) (cyc : Nat) (reads : Nat) (ecc : UnitEcc)
  | rowClockStop (core : Fin 512) (arr : Fin 2) (cyc : Nat)
  | vatRowComplete (core : Fin 512) (arr : Fin 2) (cyc : Nat) (ecc : Ecc)
  | epilogueDrain (core : Fin 512) (arr : Fin 2) (cyc : Nat) (accept : Bool) (ecc : Ecc)
  | mv (i : Issue) | mvt (i : Issue) | resid (i : Issue) | csr (i : Issue)
  | mvpReservationEnd (engine : Fin 16) (cyc : Nat)
  -- Vector engine (chapter 7)
  | setvl (i : Issue) | vsrkey (i : Issue) | vbcast (i : Issue) | vsel (i : Issue) | vperm (i : Issue)
  | vslide (i : Issue) | vcompress (i : Issue) | vextr (i : Issue)
  | vadd (i : Issue) | vsub (i : Issue) | vmul (i : Issue) | vdiv (i : Issue) | vrem (i : Issue) | vand (i : Issue)
  | vor (i : Issue) | vxor (i : Issue) | vsll (i : Issue) | vsrl (i : Issue) | vsra (i : Issue)
  | vsadd (i : Issue) | vssub (i : Issue) | vsaddu (i : Issue) | vssubu (i : Issue) | vrshr (i : Issue)
  | vmulq (i : Issue) | vnsat (i : Issue) | vnwrap (i : Issue)
  | vfadd (i : Issue) | vfsub (i : Issue) | vfmul (i : Issue) | vfma (i : Issue) | vfmin (i : Issue)
  | vfmax (i : Issue) | vcmp (i : Issue) | vcvt (i : Issue) | vscvt (i : Issue) | vfdiv (i : Issue)
  | vfrcp (i : Issue) | vfsqrt (i : Issue) | vfrsqrt (i : Issue)
  | vexp (i : Issue) | vexp2 (i : Issue) | vlog (i : Issue) | vlog2 (i : Issue) | vtanh (i : Issue)
  | vsigm (i : Issue) | vsilu (i : Issue) | vgelu (i : Issue)
  | vscan (i : Issue) | vsegscan (i : Issue) | vredmax (i : Issue) | vredmin (i : Issue) | vredsumi (i : Issue)
  | vld (i : Issue) | vst (i : Issue) | vlds (i : Issue) | vsts (i : Issue) | vlseg (i : Issue) | vsseg (i : Issue)
  | vgather (i : Issue) | vscatter (i : Issue) | vscatadd (i : Issue) | vscataddi (i : Issue) | vldv (i : Issue)
  | ruclr (i : Issue) | ruacc (i : Issue) | ruget (i : Issue) | rusave (i : Issue) | rumerge (i : Issue)
  | vsoftmax (i : Issue) | vsmxacc (i : Issue) | vsmxout (i : Issue)
  | cntClr (ag : Agent) (inst : Fin 512)
  | epiCntClr (ag : Agent) (inst : Fin 512)
  | vecCntClr (ag : Agent) (inst : Fin 512) (coin : List (Fin 11))
  | strCntClr (ag : Agent) (inst : Fin 512)
  -- Solver engines (chapter 9)
  | qp (e : Fin 16) (ns : Nat) (ecc : Ecc) | qpAdj (e : Fin 16) (ns : Nat) (ecc : Ecc)
  | adj (e : Fin 16) (ns : Nat) (ecc : Ecc) | linSym (e : Fin 16) (ns : Nat) (ecc : Ecc)
  | linGen (e : Fin 16) (ns : Nat) (ecc : Ecc)
  | solveDeadline (e : Fin 16) (ns : Nat)
  | solvCntClr (ag : Agent) (inst : Fin 16)
  -- Memory system (chapter 10)
  | dramRequestIssue (stack : Fin 16) (ns : Nat) (r : DramReq) (tokensWaiting : Bool)
  | scrubRead (stack : Fin 16) (addr : BitVec 48) (ecc : Ecc) (pct : Nat)
  | dirtyEvict (die : Fin 8) (line : BitVec 48)
  | hostSnoop (die : Fin 8) (line : BitVec 48) (inv : Bool)
  | goWritePullDrop (die : Fin 8) (line : BitVec 48)
  | goWritePull (die : Fin 8) (line : BitVec 48)
  | bisnpResponse (die : Fin 8) (line : BitVec 48) (data : List Byte)
  | flush (ag : Agent) (die : Fin 8)
  | flushDone (die : Fin 8)
  | granuleFlushComplete (die : Fin 8) (gran : Fin 6)
  | dieCntClr (ag : Agent) (inst : Fin 16)
  | celCntClr (ag : Agent) (inst : Fin 8)
  | stkCntClr (ag : Agent) (inst : Fin 16)
  -- Update unit (chapter 11)
  | chunkArrival (slice : Fin 8) (c : Chunk)
  | heldChunkJudge (slice : Fin 8)
  | groupApply (slice : Fin 8) (block : Word) (step : GroupStep)
  | groupCommit (slice : Fin 8) (block : Word) (group : Fin 256) (ecc : UpdEcc)
  | groupDone (slice : Fin 8) (block : Word) (step : GroupStep)
  | repairReq (ag : Agent) (slice : Fin 8) (block : Word)
  | repairRequest (slice : Fin 8) (src : RepairSrc) (block target : Word)
  | repairAnswer (slice : Fin 8) (fromDev : BitVec 16) (block : Word)
  | repairState (slice : Fin 8) (reply : RepairReply) (step origin : Word) (state scales digest : List Byte)
  | repairWriteDone (slice : Fin 8) (ns : Nat)
  | repairTimeout (slice : Fin 8) (ns : Nat)
  | updCntClr (ag : Agent) (inst : Fin 8)
  -- Olnex fabric (chapter 12)
  | put (a : Arrival) | get (a : Arrival) | acc (a : Arrival) | sig (a : Arrival)
  | sigWaitRelease (idx : Nat)
  | fadd (a : Arrival) | cas (a : Arrival) | rack (a : Arrival)
  | acknowledgement (id : Nat) (status : Fin 16) (data : List Byte) (poison : List Nat)
  | resend (id : Nat)
  | flitForward (link : Fin 36) (f : Flit)
  | retry (link : Fin 36) (lseq : BitVec 12)
  | credit (hid : Nat) (rep : Bool) (n : Nat)
  | thread (dev : BitVec 16) (peerId : BitVec 10) (rep : Bool) (part : Fin 8)
  | threadAccept (hid : Nat) (peerId : BitVec 10)
  | threadRefuse (hid : Nat)
  | heddleThreadRetry (ns : Nat)
  | release (hid : Nat)
  | releaseAck (hid : Nat)
  | neg (link : Fin 36) (f : NegFlit)
  | linkTrained (link : Fin 36)
  | trainingTimeout (link : Fin 36)
  | linkLockLoss (link : Fin 36)
  | linkCntClr (ag : Agent) (inst : Fin 36)
  | hedCntClr (ag : Agent)
  -- Collectives (chapter 13)
  | allReduce (slice : Fin 9) | reduceScatter (slice : Fin 9) | allGather (slice : Fin 9) | broadcast (slice : Fin 9)
  | allToAll (slice : Fin 9) | barrier (slice : Fin 9) | rackScript (slice : Fin 9) | bundle (slice : Fin 9)
  | chunkStart (slice : Fin 9) (chunk : Nat)
  | transferLanded (slice : Fin 9) (chunk q : Nat) (mismatches : List Nat)
  | collCntClr (ag : Agent) (inst : Fin 9)
  -- Audit unit (chapter 14)
  | treeRehash
  | sealRequest
  | verifyStart (ag : Agent) (mode : Bool)
  | verifyDone
  | audCntClr (ag : Agent)
  -- Field ports and Trellis (chapter 15)
  | frameReceive (port : Fin 2) (f : FrameInfo)
  | arpRequest (port : Fin 2) (target : Word) (sender : BitVec 48)
  | neighborSolicitation (port : Fin 2) (target : BitVec 128) (sender : BitVec 48)
  | echoRequest (src : NetAddr) (v6 : Bool) (data : List Byte)
  | ptpSync (port : Fin 2) (twoStep : Bool) (t1 t2 : Nat)
  | ptpFollowUp (port : Fin 2) (t1 : Nat)
  | ptpDelayReq (port : Fin 2) (rx : Nat)
  | ptpDelayResp (port : Fin 2) (t3 t4 : Nat)
  | ptpAnnounce (port : Fin 2) (priority1 : BitVec 8) (clock : Dword)
  | ptpLockLost (port : Fin 2)
  | openSession (r : HsRecord)
  | openFragmentTimeout (src : NetAddr) (hs : Dword)
  | confirm (r : HsRecord)
  | confirmTimeout (session : Word)
  | data (r : HsRecord)
  | solve (r : Request) | eval (r : Request) | plan (r : Request)
  | keepalive (session : Word)
  | close (session : Word)
  | requestFragmentTimeout (session : Word) (sub : Fin 16) (seq : Word)
  | sessionIdleTimeout (session : Word)
  | portUp (port : Fin 2) | portDown (port : Fin 2)
  | portCntClr (ag : Agent) (port : Fin 2)
  | trCntClr (ag : Agent)
  -- Host interface (chapter 16)
  | bar2Access (fn : Fin 9) (write : Bool) (off : Nat) (len : Nat) (data : List Byte) (poisoned : Bool)
  | cxlMemRequest (write : Bool) (addr : BitVec 48) (data : List Byte) (own : Bool)
  | msixUnmask (vec : Fin 2048)
  | queueEnable (fn : Fin 9) (q : Fin 16) (cfg : Word)
  | sqDoorbell (fn : Fin 9) (q : Fin 16) (tail : Word) (hostWrites : List (Nat × List Byte))
  | cqDoorbell (fn : Fin 9) (q : Fin 16) (head : Word)
  | queueNop (fn : Fin 9) (q : Fin 16) | copyIn (fn : Fin 9) (q : Fin 16) (hostErr : Bool)
  | copyOut (fn : Fin 9) (q : Fin 16) (hostErr : Bool)
  | fill (fn : Fin 9) (q : Fin 16) | digest (fn : Fin 9) (q : Fin 16) (hostErr : Bool)
  | queueSig (fn : Fin 9) (q : Fin 16) | queueWait (fn : Fin 9) (q : Fin 16)
  | commandComplete (fn : Fin 9) (q : Fin 16)
  | hostLinkDown | hostLinkUp (speed : Fin 8) (width : Fin 32) (cxl cacheEn memEn : Bool)
  | flr (fn : Fin 9)
  | hostPerst (low : Bool)
  | hostCntClr (ag : Agent)
  -- Management, security, sideband, cellar book (chapter 17)
  | watchdogExpire | mgmtSramUncorr
  | kick (ag : Agent)
  | boot
  | bootDone (ag : Agent)
  | warmRst (ag : Agent)
  | partRst (ag : Agent) (mask : Byte)
  | partResetDone (p : Fin 8)
  | arbAdvance (ag : Agent) (target : BitVec 7)
  | arbFuseBlow
  | keyRevoke (ag : Agent) (mask : BitVec 2)
  | getVersion | getCapabilities (ver : Byte) | negotiateAlgorithms (offered : List Byte) | getDigests
  | getCertificate (slot : Fin 8) (off len : Nat)
  | challenge (slot : Fin 8) (nonce : BitVec 256) | getMeasurements (index : Byte) (signed : Bool) (nonce : BitVec 256)
  | spiNop (late : Bool) | spiRead (waddr : BitVec 28) (late : Bool)
  | spiWrite (waddr : BitVec 28) (v : Word) (late : Bool) | spiBook (waddr : BitVec 28) (late : Bool)
  | spiFrameDiscard (edges : Nat)
  | mctpControl (cmd : Byte)
  | readReg (addr : BitVec 48) | writeReg (addr : BitVec 48) (v : Word) | readBook (index : BitVec 17) (copy : Fin 4)
  | extest (data : List Bool) | samplePreload (data : List Bool) | idcode | highz | clamp | bypass
  | append (ag : Agent)
  | bookRecordWrite
  | bookScanDone
  | mgmtCntClr (ag : Agent) | secCntClr (ag : Agent) | bookCntClr (ag : Agent)
  -- Power, package, pins (chapter 18)
  | vstbyRise (vstby : Nat) | vinRise (vin : Nat) | pwrOkRise | pwrOkFall | resetNLow (us : Nat)
  | sagOnset (vin : Nat) (ns : Nat) | sagEnd (vin : Nat) (ns : Nat) | sagRecordRelease
  | rideThrough (vin : Nat) | lossSequence (writable : Nat)
  | limiterStep (watts : Nat) (windowEnd : Bool)
  | thermWarn (die : Fin 25) (temp : Int) | thermalClockStep (die : Fin 25) (temp : Int)
  | thermCrit (die : Fin 25) (temp : Int)
  | refclkLost (clk : Fin 3)
  | enter (ag : Agent) | dormantEntryComplete
  | wake (ag : Agent) | wakeN (ns : Nat) | wakeComplete
  | pwrCntClr (ag : Agent)
  -- Rows listed last in the table
  | softResetDone (ty : PageType) (inst : Nat)
  | solveWaitRelease (e : Fin 16) (ns : Nat)
  | repairRefusal (slice : Fin 8) (reply : RepairReply)
  | alignInterval (link : Fin 36)
  | ptpMessageInterval (port : Fin 2) (kind : Fin 3) (ts : Nat)
  | smbusPacketDiscard
  | heldWarmReset (die : Fin 25) (temp : Int)
deriving DecidableEq, Repr

end Sys2Proof
end

