-- ==== Sys2Proof/WellFormed.lean ====
section
/-! DEFINITION. Which commands are well formed: operands whose type is wider than what the spec lets them be. -/
namespace Sys2Proof

/-- How many instances a block type has (Table 2.1). -/
def PageType.instances : PageType → Nat
  | .device => 1
  | .core => 512
  | .die => 16
  | .cellar => 8
  | .stack => 16
  | .solver => 16
  | .update => 8
  | .coll => 9
  | .link => 36
  | .heddle => 1
  | .host => 1
  | .field => 2
  | .pick => 1
  | .audit => 1
  | .mgmt => 1
  | .power => 1
  | .sec => 1
  | .book => 1
  | .part => 8

/-- An arriving operation carries at least one byte's length and no more data than its length (R341). -/
def Arrival.wf (a : Arrival) : Bool := decide (1 ≤ a.len) && decide (a.data.length ≤ a.len)

/-- A command's operands are such as the spec lets them be. -/
def Instr.wf : Instr → Bool
  | .registerWrite _ _ _ size _ => decide (1 ≤ size) && decide (size ≤ 8)
  | .srst _ ty i => decide (i < ty.instances)
  | .errClr _ ty i _ => decide (i < ty.instances)
  | .evtStatClear _ ty i _ _ => decide (i < ty.instances)
  | .evtEnWrite _ ty i _ => decide (i < ty.instances)
  | .evtSet _ ty i _ => decide (i < ty.instances)
  | .cfgStageWrite _ ty i _ => decide (i < ty.instances)
  | .softResetDone ty i => decide (i < ty.instances)
  | .put a => a.wf
  | .get a => a.wf
  | .acc a => a.wf
  | .bisnpResponse _ _ d => d.length == 64
  | .cxlMemRequest w _ d _ => !w || d.length == 64
  | _ => true

end Sys2Proof
end

