-- ==== Sys2Proof/Decode.lean ====
section
/-! DEFINITION. The table gives no row bits, so no word spells a command (log entry 5). -/
namespace Sys2Proof

/-- The command that a word spells by the table's bits: no row of the table has any. -/
def decodeTableWord (_nbits _w : Nat) : Option Instr := none

end Sys2Proof
end

