-- ==== Sys2Proof/Machine/Bits.lean ====
section
/-! DEFINITION. Bit fields, sign extension, byte order and modular order over numbers (R14, R501). -/
namespace Sys2Proof.Machine

/-- Bits `[lo + w - 1 : lo]` of `x` (R14). -/
def bitsOf (x lo w : Nat) : Nat := x / 2 ^ lo % 2 ^ w

/-- Bit `b` of `x`. -/
def bitOf (x b : Nat) : Bool := x / 2 ^ b % 2 == 1

/-- `x` with bits `[lo + w - 1 : lo]` replaced by the low `w` bits of `v`. -/
def putBits (x lo w v : Nat) : Nat :=
  x / 2 ^ (lo + w) * 2 ^ (lo + w) + v % 2 ^ w * 2 ^ lo + x % 2 ^ lo

/-- The two's-complement value of the low `w` bits of `x`. -/
def signedOf (w x : Nat) : Int :=
  let y := x % 2 ^ w
  if 2 ^ w ≤ 2 * y then (y : Int) - (2 : Int) ^ w else y

/-- The low `w` bits of an integer, as a number. -/
def wrapInt (w : Nat) (i : Int) : Nat := (i % (2 : Int) ^ w).toNat

/-- 1 for true, 0 for false. -/
def bit (b : Bool) : Nat := if b then 1 else 0

/-- The number that little-endian bytes spell (R14). -/
def leNat : List Byte → Nat
  | [] => 0
  | b :: t => b.toNat + 256 * leNat t

/-- `n` little-endian bytes of a number (R14). -/
def toLe : Nat → Nat → List Byte
  | 0, _ => []
  | n + 1, x => BitVec.ofNat 8 x :: toLe n (x / 256)

/-- The number that big-endian bytes spell. -/
def beNat (l : List Byte) : Nat := leNat l.reverse

/-- `n` big-endian bytes of a number. -/
def toBe (n x : Nat) : List Byte := (toLe n x).reverse

/-- The first `n` bytes of a list, zeros where it is shorter. -/
def padTo (n : Nat) (l : List Byte) : List Byte := (l ++ List.replicate (n - l.length) 0).take n

/-- `a` follows `h` in 32-bit modular order (R501). -/
def follows32 (a h : Nat) : Bool :=
  let d := (a + 2 ^ 32 - h % 2 ^ 32) % 2 ^ 32
  decide (1 ≤ d) && decide (d ≤ 2 ^ 31 - 1)

/-- `a` precedes `h` in 32-bit modular order; a number exactly 2^31 away precedes (R501). -/
def precedes32 (a h : Nat) : Bool := a % 2 ^ 32 != h % 2 ^ 32 && !follows32 a h

/-- `n + k`, no further than `m`: a counter that saturates. -/
def satAdd (m n k : Nat) : Nat := min m (n + k)

/-- The list `[lo, lo + 1, …]` of `n` numbers. -/
def rangeFrom (lo n : Nat) : List Nat := (List.range n).map (· + lo)

/-- Every `n`-element block of a list, in order (the last may be short). -/
def chunksOf {α : Type} (n : Nat) : Nat → List α → List (List α)
  | 0, _ => []
  | fuel + 1, l => if l.isEmpty then [] else l.take n :: chunksOf n fuel (l.drop n)

/-- The 64-bit words that bytes spell. -/
def words64 (l : List Byte) : List Nat := (chunksOf 8 l.length l).map leNat

/-- The 32-bit words that bytes spell. -/
def words32 (l : List Byte) : List Nat := (chunksOf 4 l.length l).map leNat

end Sys2Proof.Machine
end

