-- ==== Sys2Proof/Machine/Integer.lean ====
section
/-! DEFINITION. Integer arithmetic on `n`-bit two's-complement elements (R198, Table 7.3): a result with what it has to report. -/
namespace Sys2Proof.Machine

/-- What an integer operation reports (Table 7.9). -/
inductive IntNote where
  | none | wrap | sat | div0
deriving DecidableEq, Repr, Inhabited

/-- A whole number wrapped to `n` bits. -/
def wrapTo (n : Nat) (x : Int) : Nat × IntNote :=
  let r := wrapInt n x
  (r, if signedOf n r = x then .none else .wrap)

/-- A whole number kept within the signed range of `n` bits. -/
def satTo (n : Nat) (x : Int) : Nat × IntNote :=
  let hi : Int := 2 ^ (n - 1) - 1
  let lo : Int := -2 ^ (n - 1)
  if hi < x then (wrapInt n hi, .sat) else if x < lo then (wrapInt n lo, .sat) else (wrapInt n x, .none)

/-- A whole number kept within the unsigned range of `n` bits. -/
def satUTo (n : Nat) (x : Int) : Nat × IntNote :=
  if (2 : Int) ^ n - 1 < x then (2 ^ n - 1, .sat) else if x < 0 then (0, .sat) else (x.toNat, .none)

def intAdd (n a b : Nat) : Nat × IntNote := wrapTo n (signedOf n a + signedOf n b)
def intSub (n a b : Nat) : Nat × IntNote := wrapTo n (signedOf n a - signedOf n b)
def intMul (n a b : Nat) : Nat × IntNote := wrapTo n (signedOf n a * signedOf n b)

/-- The high `n` bits of the signed product. -/
def intMulh (n a b : Nat) : Nat := wrapInt n ((signedOf n a * signedOf n b) / 2 ^ n)

/-- The quotient toward zero; by zero, 0 (R198). -/
def intDiv (n a b : Nat) : Nat × IntNote :=
  if b % 2 ^ n = 0 then (0, .div0) else wrapTo n ((signedOf n a).tdiv (signedOf n b))

/-- The remainder with the sign of the dividend; by zero, the dividend (R198). -/
def intRem (n a b : Nat) : Nat × IntNote :=
  if b % 2 ^ n = 0 then (a % 2 ^ n, .div0)
  else (wrapInt n ((signedOf n a).tmod (signedOf n b)),
    if signedOf n a = -2 ^ (n - 1) ∧ signedOf n b = -1 then .wrap else .none)

/-- Shifts; the amount is the whole second source, unsigned (R198). -/
def intSll (n a k : Nat) : Nat := if n ≤ k then 0 else a * 2 ^ k % 2 ^ n
def intSrl (n a k : Nat) : Nat := if n ≤ k then 0 else a % 2 ^ n / 2 ^ k
def intSra (n a k : Nat) : Nat := wrapInt n (signedOf n a / 2 ^ (min k n))

def intAnd (a b : Nat) : Nat := a &&& b
def intOr (a b : Nat) : Nat := a ||| b
def intXor (a b : Nat) : Nat := a ^^^ b

/-- Signed and unsigned less-than. -/
def intSlt (n a b : Nat) : Bool := decide (signedOf n a < signedOf n b)
def intSltu (a b : Nat) : Bool := decide (a < b)

end Sys2Proof.Machine
end

