-- ==== Sys2Proof/Machine/Tab.lean ====
section
/-! DEFINITION. Sparse tables: an association list in rising order of its keys, an unlisted key holding a given default. Registers,
cores, granules and every other numbered group of State are held so. -/
namespace Sys2Proof.Machine

/-- A sparse table from numbers. -/
abbrev Tab (α : Type) := List (Nat × α)

/-- What the table lists under `k`. -/
def Tab.get? {α : Type} : Tab α → Nat → Option α
  | [], _ => none
  | (k', v) :: t, k => if k' = k then some v else Tab.get? t k

/-- What the table holds under `k`, an unlisted key holding `d`. -/
def Tab.get {α : Type} (d : α) (t : Tab α) (k : Nat) : α := (Tab.get? t k).getD d

/-- The table with `v` under `k`. -/
def Tab.set {α : Type} : Tab α → Nat → α → Tab α
  | [], k, v => [(k, v)]
  | (k', v') :: t, k, v =>
    if k' = k then (k, v) :: t
    else if k < k' then (k, v) :: (k', v') :: t
    else (k', v') :: Tab.set t k v

/-- The table without `k`. -/
def Tab.del {α : Type} (t : Tab α) (k : Nat) : Tab α := t.filter fun e => e.1 != k

/-- The keys rise strictly. -/
def Tab.sorted {α : Type} : Tab α → Bool
  | [] => true
  | (k, _) :: t =>
    (match t with
     | [] => true
     | (k', _) :: _ => decide (k < k')) && Tab.sorted t

/-- Insertion of a number into a rising list without repeats. -/
def insertNat : List Nat → Nat → List Nat
  | [], k => [k]
  | x :: t, k => if x = k then x :: t else if k < x then k :: x :: t else x :: insertNat t k

end Sys2Proof.Machine
end

