-- ==== Sys2Proof/Machine/CoreParts.lean ====
section
/-! DEFINITION. The parts of State that belong to a core: strands, the run-ahead engine, owned units. -/
namespace Sys2Proof.Machine
open Sys2Proof

/-- A stochastic-rounding key (R197): seed, stream, and the count of elements drawn. -/
structure SrKey where
  seed : Nat := 0
  stream : Nat := 0
  count : Nat := 0
deriving DecidableEq, Repr, Inhabited

/-- The states of a strand (R222). -/
inductive StrandSt where
  | free | running | ended
deriving DecidableEq, Repr, Inhabited

/-- The waiting instructions of R229. -/
inductive WaitOp where
  | spawn | sync | waits | sigwait
deriving DecidableEq, Repr, Inhabited

/-- A strand context (R222). -/
structure Strand where
  st : StrandSt := .free
  pc : Nat := 0
  regs : Tab Nat := []
  key : SrKey := {}
  inst : Nat := 0                -- which of the task's strands it is: 0 is the first, and each SPAWN makes the next
  chain : List (Nat × Nat) := [] -- its spawners, nearest first: context, strand (R228)
  wait : Option (WaitOp × Issue) := none
  ir : Option Nat := none        -- the fetched instruction word
deriving DecidableEq, Repr

/-- A fetch descriptor in the run-ahead engine (Table 8.2). -/
structure FDesc where
  strand : Nat := 0
  src : Nat := 0
  dev : Nat := 0
  stride : Int := 0
  rowBytes : Nat := 0
  rows : Nat := 0
  dst : Nat := 0
  heddle : Nat := 0
  ring : Nat := 0
  priv : Bool := false
  first : Option Nat := none     -- the global line number of its line 0, once it has begun
  next : Nat := 0                -- lines issued
  landed : Nat := 0              -- lines landed
deriving DecidableEq, Repr, Inhabited

/-- A stream of the run-ahead engine (R233). -/
structure Stream where
  issued : Nat := 0
  landed : Nat := 0
  released : Nat := 0
  ahead : List Nat := []         -- lines landed beyond `landed`
  queue : List FDesc := []       -- descriptors not yet fully landed, oldest first
deriving DecidableEq, Repr, Inhabited

/-- A slot of the run-ahead engine (R235). -/
structure RaSlot where
  stream : Nat := 0
  strand : Nat := 0
  line : Nat := 0
  src : Nat := 0
  dev : Nat := 0
  dst : Nat := 0
  parts : List (Nat × Option (List Byte × List Nat)) := [] -- the issued operations of a remote line, with what each has brought
  mv : Option Nat := none        -- a matrix read of the matrix-vector path (R156): its bytes
deriving DecidableEq, Repr, Inhabited

/-! ### Exact accumulation -/

/-- The special classes of R167. -/
inductive Special where
  | none | nan | pinf | ninf
deriving DecidableEq, Repr, Inhabited

/-- A vat element (R168): the value counted in units of its LSB weight 2^(A - L), the anchor, lees, special class, poison. -/
structure VatEl where
  v : Int := 0
  a : Option Int := none
  lees : Bool := false
  sp : Special := .none
  poison : Bool := false
deriving DecidableEq, Repr, Inhabited

/-- The must of one beat in one column (R166): value in units of 2^(a - L), pass anchor, lees, special class, poison. -/
structure Must where
  m : Int := 0
  a : Option Int := none
  lees : Bool := false
  sp : Special := .none
  poison : Bool := false
deriving DecidableEq, Repr, Inhabited

/-- An accumulator of the reduction unit (R210). -/
structure RuAcc where
  s : VatEl := {}
  q : VatEl := {}
  n : Nat := 0
  c : Nat := 0
  empty : Bool := false
deriving DecidableEq, Repr, Inhabited

/-! ### Weave arrays -/

/-- A warp tile, by rows, with its format and the FRAC of each column (an edge column brings its own); `poison` lists its poisoned
elements by 64 * row + column. -/
structure Warp where
  fmt : Nat := 0
  fracs : List Nat := []
  rows : List (List Nat) := []
  poison : List Nat := []
deriving DecidableEq, Repr, Inhabited

/-- A loader command (R240, R144). -/
structure LoadJob where
  strand : Nat := 0
  order : Nat := 0
  issue : Nat := 0
  edge : Bool := false
  transpose : Bool := false
  fmt : Nat := 0
  frac : Nat := 0
  base : Nat := 0
  stride : Nat := 0
  start : Option Nat := none
  data : Warp := {}
deriving DecidableEq, Repr, Inhabited

/-- An epilogue descriptor (Table 6.7). -/
structure EpiDesc where
  ccb : Nat := 0
  frac : Nat := 0
  act : Nat := 0
  biasEn : Bool := false
  lmapEn : Bool := false
  tswEn : Bool := false
  dest : Nat := 0
  heddle : Nat := 0
  destDev : Nat := 0
  destAddr : Nat := 0
  rowStride : Nat := 0
  biasAddr : Nat := 0
  biasFmt : Nat := 0
  clampLo : Nat := 0
  clampHi : Nat := 0
  lmapAddr : Nat := 0
  tswAddr : Nat := 0
  tileSeq : Nat := 0
  srStream : Nat := 0
  srSeed : Nat := 0
deriving DecidableEq, Repr, Inhabited

/-- A pass (Table 8.6) in the command queue or in flight; a reserved one only has rows of zeros to write (R146). -/
structure PassJob where
  id : Nat := 0
  strand : Nat := 0
  order : Nat := 0
  weft : Nat := 0
  stride : Nat := 0
  m : Nat := 0
  fmt : Nat := 0
  frac : Nat := 0
  warpOp : Nat := 0
  bank : Nat := 0
  init : Bool := false
  rowScale : Nat := 0
  colScale : Nat := 0
  epi : Option EpiDesc := none
  wfmt : Nat := 0             -- the format of its active warp
  zero : Bool := false        -- a reserved pass
  read : Nat := 0             -- weft vectors that the front end has read
  vec : Nat := 0              -- the weft vector whose beats are being released
  beat : Nat := 0             -- its next beat
  done : Nat := 0             -- vat rows complete
deriving DecidableEq, Repr, Inhabited

/-- A weft vector in the bobbin queues (R137): vector `vec` of a pass, its 64 elements. -/
structure Weft where
  pass : Nat := 0
  vec : Nat := 0
  elems : List Nat := []
  poison : Bool := false
deriving DecidableEq, Repr, Inhabited

/-- A beat in flight: the vat row it belongs to and its musts. -/
structure Flight where
  pass : Nat := 0
  bank : Nat := 0
  row : Nat := 0
  init : Bool := false        -- the row is set to its initial state before this beat is added (R168)
  musts : List Must := []
  last : Bool := false
  rel : Nat := 0
deriving DecidableEq, Repr, Inhabited

/-- A completed bank in the drain queue (R182, R185): tile `n` of a pass, with the rows it addresses; or the rows of zeros of a reserved
pass, which need not end with a tile (R146). -/
structure Drain where
  pass : Nat := 0
  strand : Nat := 0
  epi : EpiDesc := {}
  bank : Nat := 0
  tile : Nat := 0
  rows : Nat := 0
  rowScale : Nat := 0
  colScale : Nat := 0
  row : Nat := 0              -- next row to drain
  last : Bool := false        -- the pass's last tile
  zero : Bool := false        -- a reserved pass
  lees : List Nat := []       -- elements drained with lees, by 64 * row + column
  nan : Nat := 0
  ovf : Nat := 0
  under : Nat := 0
  data : List Byte := []      -- rows kept for a COLL destination
  pz : List Nat := []         -- their poisoned elements
deriving DecidableEq, Repr, Inhabited

/-- A weave array. The order fields hold what the command queue has named so far, in command order. -/
structure ArrState where
  active : Option Warp := none
  shadow : Option (Warp × Nat) := none   -- the warp being loaded or loaded, and the cycle after its load's last row
  edge : Option Warp := none             -- one row of 64 elements
  loader : List LoadJob := []
  passes : List PassJob := []            -- oldest first; the first may be releasing
  queue : List Weft := []                -- the bobbin queues, oldest vector first (R137)
  flights : List Flight := []
  vat : Tab VatEl := []
  drains : List Drain := []
  live : List (Nat × Nat) := []          -- passes not yet complete: id, strand
  writes : List (Nat × Nat × List (Nat × Nat)) := [] -- spool ranges that live passes still write: pass, order, ranges (R230)
  nextId : Nat := 0
  order : Nat := 0
  ordActive : Option Nat := none         -- format of the active warp in command order
  ordShadow : Option Nat := none         -- of the shadow, where a load has been named since the previous swap
  ordEdge : Option Nat := none
  ordRows : List Nat := []               -- vat rows an INIT pass of this pick has named (64 * bank + row)
  loaderFree : Nat := 0                  -- the first cycle after the previous load
  swapRel : Option Nat := none           -- release of the swap beat that consumed the previous shadow
  shiftRel : Option Nat := none          -- release of the latest shift beat
  relFree : Nat := 0                     -- the first cycle after the latest release
deriving DecidableEq, Repr, Inhabited

/-- A matrix-vector command that runs: its strand, its block, the matrix lines (address, bytes) not yet read, how many are being read, and what
has come of the matrix. -/
structure MvJob where
  strand : Nat := 0
  block : List Byte := []
  offsets : Bool := false        -- the row offsets of CSR have been read
  reads : List (Nat × Nat) := []
  out : Nat := 0
  mem : List (Nat × Byte) := []
  poison : List Nat := []        -- poisoned 64-byte blocks, by address / 64
deriving DecidableEq, Repr, Inhabited

/-- A core. -/
structure CoreState where
  strands : Tab Strand := []
  owner : Tab Nat := []          -- owner strand of VEC (0), ARR0 (1), ARR1 (2), MVP (3)
  task : Option Nat := none      -- the task record it runs, by its index in the entry
  part : Nat := 0                -- the partition of that task
  lastIssue : Nat := 7           -- the strand that issued last (R229); the order of the commands says which issues next
  streams : Tab Stream := []
  slots : Tab RaSlot := []
  lastStream : Nat := 15
  v : Tab (List Byte) := []      -- v0 to v31
  vp : Tab (List Nat) := []      -- poisoned bytes of each register
  vl : Nat := 0
  acc : Tab RuAcc := []
  arr : Tab ArrState := []
  spawns : Nat := 0              -- strands that SPAWN has made in this task
  mvp : Option MvJob := none     -- the matrix-vector command that runs
  mvpQueue : List (Nat × Issue × Nat) := [] -- those that wait for the path: strand, command, block address
  mvpHolder : Option Nat := none        -- the solver engine that holds the path (R23)
  mvpWait : Option Nat := none          -- the cycle since which a command waits for that engine (R159)
deriving DecidableEq, Repr

end Sys2Proof.Machine
end

