-- ==== Sys2Proof/Machine/Formats.lean ====
section
/-! DEFINITION. The number formats of chapter 4: encodings (R109, R112 to R116), exact values, the rounding function (R124), overflow
(R125, R126) and the conversions (R131 to R134). Exact values are rationals; nothing is rounded before `roundTo`. -/
namespace Sys2Proof.Machine

/-- An exact value on its way to a format: NaN, an infinity, or a signed magnitude `num / den` (`den` is positive); zero keeps its sign. -/
inductive Val where
  | nan
  | inf (neg : Bool)
  | fin (neg : Bool) (num den : Nat)
deriving DecidableEq, Repr, Inhabited

/-- The parameters of a floating-point format (Table 4.2): width, fraction bits, emin, and the encodings of its largest finite
value, its infinity and its canonical NaN. -/
structure FloatFmt where
  width : Nat
  t : Nat
  emin : Int
  maxFin : Nat
  inf : Option Nat
  nan : Nat
deriving DecidableEq, Repr

/-- The floating-point formats of Table 4.1 (R109, R112, R113). -/
def floatFmt : Nat → Option FloatFmt
  | 0 => some ⟨8, 3, -6, 0x7E, none, 0x7F⟩
  | 1 => some ⟨8, 2, -14, 0x7B, some 0x7C, 0x7E⟩
  | 2 => some ⟨16, 10, -14, 0x7BFF, some 0x7C00, 0x7E00⟩
  | 3 => some ⟨16, 7, -126, 0x7F7F, some 0x7F80, 0x7FC0⟩
  | 4 => some ⟨32, 23, -126, 0x7F7FFFFF, some 0x7F800000, 0x7FC00000⟩
  | 5 => some ⟨64, 52, -1022, 0x7FEFFFFFFFFFFFFF, some 0x7FF0000000000000, 0x7FF8000000000000⟩
  | _ => none

/-- The width of an integer format (Table 4.1, R116). -/
def intWidth : Nat → Option Nat
  | 8 => some 8
  | 9 => some 16
  | 10 => some 32
  | 11 => some 64
  | _ => none

/-- The width in bits of a format code; 0 for a reserved code. -/
def fmtWidth (f : Nat) : Nat :=
  match floatFmt f with
  | some ff => ff.width
  | none => (intWidth f).getD 0

/-- The width in bytes of a format code. -/
def fmtBytes (f : Nat) : Nat := fmtWidth f / 8

/-- A format code that Table 4.1 names. -/
def fmtOk (f : Nat) : Bool := fmtWidth f != 0

/-- A floating-point format code. -/
def isFloat (f : Nat) : Bool := (floatFmt f).isSome

/-- An integer format code. -/
def isInt (f : Nat) : Bool := (intWidth f).isSome

/-- R117: a FRAC is in range for its format: below the width of an integer container, 0 otherwise. -/
def fracOk (f frac : Nat) : Bool :=
  match intWidth f with
  | some w => decide (frac < w)
  | none => frac == 0

/-- The fields of a conversion control byte (R110). -/
def ccbFmt (c : Nat) : Nat := bitsOf c 0 4
def ccbRm (c : Nat) : Nat := bitsOf c 4 3
def ccbSat (c : Nat) : Bool := bitOf c 7

/-- A conversion control byte with no reserved code (R111). -/
def ccbOk (c : Nat) : Bool := fmtOk (ccbFmt c) && decide (ccbRm c ≤ 5)

/-- The value `m * 2^k`. -/
def Val.scaled (neg : Bool) (m : Nat) (k : Int) : Val :=
  if 0 ≤ k then .fin neg (m * 2 ^ k.toNat) 1 else .fin neg m (2 ^ (-k).toNat)

/-- The exact value of an encoding of a floating-point format (R112 to R114). -/
def decodeFloat (f : FloatFmt) (x : Nat) : Val :=
  let neg := bitOf x (f.width - 1)
  let mag := x % 2 ^ (f.width - 1)
  if mag ≤ f.maxFin then
    let e := mag / 2 ^ f.t
    let tt := mag % 2 ^ f.t
    if e = 0 then Val.scaled neg tt (f.emin - f.t)
    else Val.scaled neg (2 ^ f.t + tt) ((e : Int) - 1 + f.emin - f.t)
  else if some mag = f.inf then .inf neg
  else .nan

/-- The exact value of an integer, with `frac` fraction bits (R117). -/
def Val.ofInt (i : Int) (frac : Nat := 0) : Val := .fin (decide (i < 0)) i.natAbs (2 ^ frac)

/-- The exact value of an encoding of any format code; a reserved code reads as zero. -/
def decodeVal (fmt frac x : Nat) : Val :=
  match floatFmt fmt with
  | some f => decodeFloat f x
  | none =>
    match intWidth fmt with
    | some w => Val.ofInt (signedOf w x) frac
    | none => .fin false 0 1

/-- ⌊log2(num / den)⌋ for positive `num` and `den`. -/
def log2Floor (num den : Nat) : Int :=
  let k : Int := (Nat.log2 num : Int) - (Nat.log2 den : Int)
  let ok := if 0 ≤ k then decide (den * 2 ^ k.toNat ≤ num) else decide (den ≤ num * 2 ^ (-k).toNat)
  if ok then k else k - 1

/-- The rounding decision of R124: whether the magnitude `(l + rem / d)` in units of the spacing goes up from `l`. -/
def roundsUp (rm : Nat) (neg : Bool) (l rem d u : Nat) : Bool :=
  if rem = 0 then false
  else match rm with
    | 0 => decide (d < 2 * rem) || (d == 2 * rem && l % 2 == 1)
    | 1 => false
    | 2 => !neg
    | 3 => neg
    | 4 => l % 2 == 0
    | 5 => decide (2 ^ 24 ≤ rem * 2 ^ 24 / d + u)
    | _ => false

/-- The sign bit of a format over a magnitude. -/
def FloatFmt.signed (f : FloatFmt) (neg : Bool) (mag : Nat) : Nat := bit neg * 2 ^ (f.width - 1) + mag

/-- The result of an overflow (R125, Table 4.4). -/
def overflowTo (f : FloatFmt) (neg : Bool) (rm : Nat) (sat : Bool) : Nat :=
  let big := f.signed neg f.maxFin
  if sat && f.width == 8 then big
  else
    let out := match f.inf with
      | some i => f.signed neg i
      | none => f.nan
    match rm with
    | 0 => out
    | 5 => out
    | 2 => if neg then big else out
    | 3 => if neg then out else big
    | _ => big

/-- R124: the encoding of a positive magnitude `num / den` with sign `neg` in a floating-point format. The magnitude's encoding is
`(e - emin) * 2^t + m`, where `m` counts spacings, so a carry out of the significand moves to the next exponent by itself. -/
def roundMag (f : FloatFmt) (neg : Bool) (num den rm : Nat) (sat : Bool) (u : Nat) : Nat :=
  let e := max (log2Floor num den) f.emin
  let k := e - f.t
  let n' := if 0 ≤ k then num else num * 2 ^ (-k).toNat
  let d' := if 0 ≤ k then den * 2 ^ k.toNat else den
  let l := n' / d'
  let m := if roundsUp rm neg l (n' % d') d' u then l + 1 else l
  let mag := (e - f.emin).toNat * 2 ^ f.t + m
  if f.maxFin < mag then overflowTo f neg rm sat else f.signed neg mag

/-- A value converted to a floating-point format (R114, R115, R124 to R126). -/
def toFloat (f : FloatFmt) (rm : Nat) (sat : Bool) (u : Nat) : Val → Nat
  | .nan => f.nan
  | .inf neg =>
    if sat && f.width == 8 then f.signed neg f.maxFin
    else match f.inf with
      | some i => f.signed neg i
      | none => f.nan
  | .fin neg num den => if num = 0 then f.signed neg 0 else roundMag f neg num den rm sat u

/-- What a conversion delivers: the bits, and whether it saturated an integer or met a NaN on its way to an integer (R132). -/
structure Conv where
  bits : Nat
  clip : Bool := false
deriving DecidableEq, Repr, Inhabited

/-- A value rounded to an integer of `w` bits with `frac` fraction bits (R132). -/
def toIntFmt (w frac rm u : Nat) : Val → Conv
  | .nan => ⟨0, true⟩
  | .inf neg => ⟨if neg then 2 ^ (w - 1) else 2 ^ (w - 1) - 1, true⟩
  | .fin neg num den =>
    let n' := num * 2 ^ frac
    let l := n' / den
    let m := if roundsUp rm neg l (n' % den) den u then l + 1 else l
    let lim := if neg then 2 ^ (w - 1) else 2 ^ (w - 1) - 1
    let mm := min m lim
    ⟨if neg then (2 ^ w - mm) % 2 ^ w else mm, decide (lim < m)⟩

/-- A value converted to a format code (Table 4.6); a reserved code gives zeros (R111). -/
def roundTo (fmt frac rm : Nat) (sat : Bool) (u : Nat) (v : Val) : Conv :=
  match floatFmt fmt with
  | some f => ⟨toFloat f rm sat u v, false⟩
  | none =>
    match intWidth fmt with
    | some w => toIntFmt w frac rm u v
    | none => ⟨0, false⟩

/-- A value converted as a conversion control byte says (R110). -/
def roundCcb (ccb frac u : Nat) (v : Val) : Conv := roundTo (ccbFmt ccb) frac (ccbRm ccb) (ccbSat ccb) u v

/-- An encoding is a NaN of its format (R114); integers have none. -/
def isNaN (fmt x : Nat) : Bool :=
  match floatFmt fmt with
  | some f => decodeFloat f x == .nan
  | none => false

/-! ### Exact arithmetic on values -/

/-- The negation. -/
def Val.neg : Val → Val
  | .nan => .nan
  | .inf n => .inf !n
  | .fin n a d => .fin (!n) a d

/-- The magnitude. -/
def Val.abs : Val → Val
  | .nan => .nan
  | .inf _ => .inf false
  | .fin _ a d => .fin false a d

/-- A zero of either sign. -/
def Val.isZero : Val → Bool
  | .fin _ 0 _ => true
  | _ => false

/-- The signed numerator over the denominator. -/
def signedNum (neg : Bool) (num : Nat) : Int := if neg then -(num : Int) else num

/-- The exact sum. A sum of opposite non-zero values that is zero, or of zeros of opposite signs, is +0, and -0 under RDN, as IEEE 754
gives. -/
def Val.add (rm : Nat) : Val → Val → Val
  | .nan, _ => .nan
  | _, .nan => .nan
  | .inf a, .inf b => if a = b then .inf a else .nan
  | .inf a, _ => .inf a
  | _, .inf b => .inf b
  | .fin s1 n1 d1, .fin s2 n2 d2 =>
    let i : Int := if d1 = d2 then signedNum s1 n1 + signedNum s2 n2 else signedNum s1 n1 * d2 + signedNum s2 n2 * d1
    let d := if d1 = d2 then d1 else d1 * d2
    if i = 0 then .fin (if n1 = 0 ∧ n2 = 0 ∧ s1 = s2 then s1 else rm == 3) 0 1
    else .fin (decide (i < 0)) i.natAbs d

/-- The exact difference. -/
def Val.sub (rm : Nat) (a b : Val) : Val := Val.add rm a b.neg

/-- The exact product; an infinite factor times a zero is NaN (R119). -/
def Val.mul : Val → Val → Val
  | .nan, _ => .nan
  | _, .nan => .nan
  | .inf a, .inf b => .inf (a != b)
  | .inf a, .fin b n _ => if n = 0 then .nan else .inf (a != b)
  | .fin a n _, .inf b => if n = 0 then .nan else .inf (a != b)
  | .fin s1 n1 d1, .fin s2 n2 d2 => .fin (s1 != s2) (n1 * n2) (d1 * d2)

/-- The exact quotient, with IEEE 754's special cases. -/
def Val.div : Val → Val → Val
  | .nan, _ => .nan
  | _, .nan => .nan
  | .inf _, .inf _ => .nan
  | .inf a, .fin b _ _ => .inf (a != b)
  | .fin a _ _, .inf b => .fin (a != b) 0 1
  | .fin s1 n1 d1, .fin s2 n2 d2 =>
    if n2 = 0 then (if n1 = 0 then .nan else .inf (s1 != s2))
    else .fin (s1 != s2) (n1 * d2) (d1 * n2)

/-- ⌊√n⌋ by bisection on the bits of the result. -/
def isqrtLoop (n : Nat) : Nat → Nat → Nat
  | 0, r => r
  | k + 1, r => isqrtLoop n k (if (r + 2 ^ k) * (r + 2 ^ k) ≤ n then r + 2 ^ k else r)

/-- ⌊√n⌋. -/
def isqrt (n : Nat) : Nat := isqrtLoop n (Nat.log2 n / 2 + 1) 0

/-- The square root of a magnitude: exact where it is rational with these parts, else cut after 160 significant bits with a
sticky bit below, which every rounding of R124 to a format of Table 4.1 takes as it takes the root itself. -/
def sqrtMag (num den : Nat) : Nat × Nat :=
  let k := 2 * (160 + Nat.log2 den)
  let x := num * 2 ^ k / den
  let r := isqrt x
  if r * r = x ∧ num * 2 ^ k % den = 0 then (r, 2 ^ (k / 2)) else (2 * r + 1, 2 ^ (k / 2 + 1))

/-- The square root; of a negative non-zero value, NaN; √−0 = −0. -/
def Val.sqrt : Val → Val
  | .nan => .nan
  | .inf n => if n then .nan else .inf false
  | .fin n a d => if a = 0 then .fin n 0 1 else if n then .nan else let r := sqrtMag a d; .fin false r.1 r.2

/-- The order of two values: `some` of less, equal, greater; none with a NaN. Zeros of either sign are equal. -/
def Val.cmp : Val → Val → Option Ordering
  | .nan, _ => none
  | _, .nan => none
  | .inf a, .inf b => some (if a = b then .eq else if a then .lt else .gt)
  | .inf a, _ => some (if a then .lt else .gt)
  | _, .inf b => some (if b then .gt else .lt)
  | .fin s1 n1 d1, .fin s2 n2 d2 => some (compare (signedNum s1 n1 * d2) (signedNum s2 n2 * d1))

/-- A binary32 constant's value. -/
def f32 (x : Nat) : Val := decodeVal 4 0 x

/-- The value 1. -/
def Val.one : Val := .fin false 1 1

/-- The value +0. -/
def Val.zero : Val := .fin false 0 1

end Sys2Proof.Machine
end

