-- ==== Sys2Proof/Machine/Exact.lean ====
section
/-! DEFINITION. The anchored exact format (R163 to R171): exponents, special classes, musts, the vat's addition. Values are counted
in units of their least weight: a must in units of 2^(a - L), a vat element in units of 2^(A - L). -/
namespace Sys2Proof.Machine

/-- The exponent of a finite non-zero value (R163). -/
def Val.exponent : Val → Option Int
  | .fin _ n d => if n = 0 then none else some (log2Floor n d)
  | _ => none

/-- The larger of two optional exponents. -/
def maxExp (a b : Option Int) : Option Int :=
  match a, b with
  | some x, some y => some (max x y)
  | some x, none => some x
  | none, y => y

/-- The largest exponent of a list of values (R164). -/
def largestExp (l : List Val) : Option Int := l.foldl (fun m v => maxExp m v.exponent) none

/-- The combination of special classes (R167). -/
def Special.combine : Special → Special → Special
  | .nan, _ => .nan
  | _, .nan => .nan
  | .none, x => x
  | x, .none => x
  | .pinf, .pinf => .pinf
  | .ninf, .ninf => .ninf
  | _, _ => .nan

/-- The special class of a value. -/
def Val.special : Val → Special
  | .nan => .nan
  | .inf n => if n then .ninf else .pinf
  | .fin .. => .none

/-- The special class of a product (R167). -/
def productSpecial (x w : Val) : Special := (Val.mul x w).special

/-- `n / d` times a power of two, cut toward zero to a whole number, and whether a bit was lost. -/
def scaledTrunc (neg : Bool) (n d : Nat) (k : Int) : Int × Bool :=
  let n' := if 0 ≤ k then n * 2 ^ k.toNat else n
  let d' := if 0 ≤ k then d else d * 2 ^ (-k).toNat
  (signedNum neg (n' / d'), n' % d' != 0)

/-- A value truncated toward zero to units of 2^lsb, and whether that lost a non-zero bit (R166). -/
def Val.units (lsb : Int) : Val → Int × Bool
  | .fin s n d => scaledTrunc s n d (-lsb)
  | _ => (0, false)

/-- A whole number of units shifted `k` places down, toward zero, and whether a non-zero bit was lost. -/
def shiftDown (m : Int) (k : Nat) : Int × Bool := (m.tdiv (2 ^ k), m.tmod (2 ^ k) != 0)

/-- A must that enters a vat element (R169). -/
def VatEl.add (el : VatEl) (m : Must) : VatEl :=
  let el := { el with sp := el.sp.combine m.sp, lees := el.lees || m.lees, poison := el.poison || m.poison }
  match m.a with
  | none => el
  | some a =>
    match el.a with
    | none => { el with a := some a, v := m.m }
    | some A =>
      if A < a then
        let t := shiftDown el.v (a - A).toNat
        { el with v := t.1 + m.m, a := some a, lees := el.lees || t.2 }
      else
        let t := shiftDown m.m (A - a).toNat
        { el with v := el.v + t.1, lees := el.lees || t.2 }

/-- The must of a list of exact terms with their special classes, anchor `a` and window `L` (R166, R167). -/
def mustOf (terms : List Val) (a : Option Int) (L : Nat) (poison : Bool := false) : Must :=
  let sp := terms.foldl (fun x v => x.combine v.special) Special.none
  match a with
  | none => { sp := sp, poison := poison }
  | some an =>
    let r := terms.foldl (fun (x : Int × Bool) v => let u := v.units (an - L); (x.1 + u.1, x.2 || u.2)) (0, false)
    { m := r.1, a := some an, lees := r.2, sp := sp, poison := poison }

/-- The value that a vat element with window `L` holds (R168, R171). -/
def VatEl.val (L : Nat) (el : VatEl) : Val :=
  match el.sp with
  | .nan => .nan
  | .pinf => .inf false
  | .ninf => .inf true
  | .none =>
    match el.a with
    | none => Val.zero
    | some a => if el.v = 0 then Val.zero else Val.scaled (decide (el.v < 0)) el.v.natAbs (a - L)

end Sys2Proof.Machine
end

