-- ==== Sys2Proof/Config.lean ====
section
/-! DEFINITION. What the spec leaves open: free values, as constants without a body. No proof can see what they are. -/
namespace Sys2Proof

/-- The payload bytes of a flit whose layout the spec does not give, by the link and its count of flits sent (R359; log entry 122). -/
opaque Config.flitPayload : Nat → Nat → List (BitVec 8)

/-- Stands for a rounding that the enclosures of Machine/Transcendental.lean do not settle; function code, argument (log entry 21). -/
opaque Config.unsettled : Nat → Nat → Nat

/-- Free values: the step supplies the number of the next one (State.free). -/
opaque Config.free : Nat → Nat

/-- The random bits of a stochastic rounding whose key the spec does not state: a code of the place, the rounding's number there (log
entry 28). -/
opaque Config.draw : Nat → Nat → Nat

/-- A result element that the spec does not state for some values of the operands of a deterministic instruction: opcode, element, the operands
that it depends on (R389; log entry 23). -/
opaque Config.openElem : Nat → Nat → List Nat → Nat

/-- Which form a solver engine takes where the spec gives a value by its formula but not the order of its operations, by a code of the place
(log entry 8). -/
opaque Config.solverForm : Nat → Nat

/-- What a solver engine's method leaves where the spec does not state it: the descriptor and the data it reads, a code of the quantity, the
index (log entry 8). -/
opaque Config.solver : List (BitVec 8) → Nat → Nat → Nat → Nat

/-- Cryptography of sessions and attestation, uninterpreted (log entry 9): the public service key of a partition and an epoch (R461). -/
opaque Config.serviceKey : Nat → Nat → List (BitVec 8)

/-- The public key that the leaf of a certificate chain certifies (R462). -/
opaque Config.leafKey : List (BitVec 8) → Option (List (BitVec 8))

/-- A certificate chain verifies against trust anchors, with or without its dates (R462). -/
opaque Config.chainOk : List (BitVec 8) → List (BitVec 8) → Bool → Bool

/-- The device's ephemeral point of a handshake, by the number of a free value. -/
opaque Config.ephemeral : Nat → List (BitVec 8)

/-- The keys and salts of both directions of a session (R421): ephemeral number, OPEN, ACCEPT. -/
opaque Config.sessionKeys : Nat → List (BitVec 8) → List (BitVec 8) → List (BitVec 8)

/-- An ECDSA P-384 signature: key code (0 to 7 the service keys, 8 the identity key, 9 the owner's), digest. -/
opaque Config.sign : Nat → List (BitVec 8) → List (BitVec 8)

/-- An ECDSA P-384 signature verifies: public key, digest, signature. -/
opaque Config.verifySig : List (BitVec 8) → List (BitVec 8) → List (BitVec 8) → Bool

/-- The plaintext of an AES-256-GCM record: key and salt, header, body (R418). -/
opaque Config.gcmOpen : List (BitVec 8) → List (BitVec 8) → List (BitVec 8) → Option (List (BitVec 8))

/-- The SHA-384 hash of a firmware signing key in the fuses, by key slot (Keys and attestation). -/
opaque Config.keyHash : Nat → List (BitVec 8)

/-- The SHA-384 digest of the boot ROM (Table 17.3). -/
opaque Config.romDigest : List (BitVec 8)

/-- The identity chain written at manufacture (Table 17.2). -/
opaque Config.identityChain : List (BitVec 8)

/-- The owner chain of the NOR boot configuration, whose layout the spec does not give: from the bytes of that area (Table 17.2). -/
opaque Config.ownerChain : List (Nat × BitVec 8) → List (BitVec 8)

/-- Whether VSLIDE by a positive amount moves elements toward higher numbers: the spec does not say (log entry 24). -/
opaque Config.slideUp : Bool

end Sys2Proof
end

