-- ==== Sys2Proof/Machine/Hash.lean ====
section
/-! DEFINITION. SHA-256, SHA-384 and CRC-32C over byte lists. The spec names them and leaves their definitions to their standards
(log entry 10). -/
namespace Sys2Proof.Machine

/-- The parameters of a SHA-2 function: word width, rotations of the schedule and of the rounds, round constants. -/
structure Sha where
  w : Nat
  s0 : Nat × Nat × Nat
  s1 : Nat × Nat × Nat
  b0 : Nat × Nat × Nat
  b1 : Nat × Nat × Nat
  ks : List Nat

/-- Rotation of a `w`-bit word to the right. -/
def rotr (w x k : Nat) : Nat := (x / 2 ^ k + x * 2 ^ (w - k)) % 2 ^ w

/-- A function of the schedule: two rotations and a shift. -/
def Sha.small (h : Sha) (p : Nat × Nat × Nat) (x : Nat) : Nat := rotr h.w x p.1 ^^^ rotr h.w x p.2.1 ^^^ (x / 2 ^ p.2.2)

/-- A function of the rounds: three rotations. -/
def Sha.big (h : Sha) (p : Nat × Nat × Nat) (x : Nat) : Nat := rotr h.w x p.1 ^^^ rotr h.w x p.2.1 ^^^ rotr h.w x p.2.2

/-- One round on the working variables a to h, with the schedule's window of 16 words. -/
def Sha.round (h : Sha) (x : List Nat × List Nat) (k : Nat) : List Nat × List Nat :=
  let m := 2 ^ h.w
  let v := fun i => x.1.getD i 0
  let wv := fun i => x.2.getD i 0
  let ch := (v 4 &&& v 5) ^^^ ((m - 1 - v 4) &&& v 6)
  let maj := (v 0 &&& v 1) ^^^ (v 0 &&& v 2) ^^^ (v 1 &&& v 2)
  let t1 := v 7 + h.big h.b1 (v 4) + ch + k + wv 0
  let t2 := h.big h.b0 (v 0) + maj
  let wn := (wv 0 + h.small h.s0 (wv 1) + wv 9 + h.small h.s1 (wv 14)) % m
  ([(t1 + t2) % m, v 0, v 1, v 2, (v 3 + t1) % m, v 4, v 5, v 6], x.2.drop 1 ++ [wn])

/-- One block. -/
def Sha.block (h : Sha) (st : List Nat) (ws : List Nat) : List Nat :=
  ((h.ks.foldl h.round (st, ws)).1.zip st).map fun p => (p.1 + p.2) % 2 ^ h.w

/-- The padded message: a one bit, zeros, the length in bits. -/
def Sha.pad (h : Sha) (l : List Byte) : List Byte :=
  let blk := 2 * h.w
  let n := l.length + 1 + h.w / 4
  l ++ [0x80] ++ List.replicate ((blk - n % blk) % blk) 0 ++ toBe (h.w / 4) (8 * l.length)

/-- The hash of a message from an initial value, as big-endian words. -/
def Sha.run (h : Sha) (iv : List Nat) (l : List Byte) : List Nat :=
  let p := h.pad l
  (chunksOf (2 * h.w) p.length p).foldl (fun st b => h.block st ((chunksOf (h.w / 8) b.length b).map beNat)) iv

def sha256K : List Nat :=
  [0x428A2F98, 0x71374491, 0xB5C0FBCF, 0xE9B5DBA5, 0x3956C25B, 0x59F111F1, 0x923F82A4, 0xAB1C5ED5,
   0xD807AA98, 0x12835B01, 0x243185BE, 0x550C7DC3, 0x72BE5D74, 0x80DEB1FE, 0x9BDC06A7, 0xC19BF174,
   0xE49B69C1, 0xEFBE4786, 0x0FC19DC6, 0x240CA1CC, 0x2DE92C6F, 0x4A7484AA, 0x5CB0A9DC, 0x76F988DA,
   0x983E5152, 0xA831C66D, 0xB00327C8, 0xBF597FC7, 0xC6E00BF3, 0xD5A79147, 0x06CA6351, 0x14292967,
   0x27B70A85, 0x2E1B2138, 0x4D2C6DFC, 0x53380D13, 0x650A7354, 0x766A0ABB, 0x81C2C92E, 0x92722C85,
   0xA2BFE8A1, 0xA81A664B, 0xC24B8B70, 0xC76C51A3, 0xD192E819, 0xD6990624, 0xF40E3585, 0x106AA070,
   0x19A4C116, 0x1E376C08, 0x2748774C, 0x34B0BCB5, 0x391C0CB3, 0x4ED8AA4A, 0x5B9CCA4F, 0x682E6FF3,
   0x748F82EE, 0x78A5636F, 0x84C87814, 0x8CC70208, 0x90BEFFFA, 0xA4506CEB, 0xBEF9A3F7, 0xC67178F2]

def sha512K : List Nat :=
  [0x428A2F98D728AE22, 0x7137449123EF65CD, 0xB5C0FBCFEC4D3B2F, 0xE9B5DBA58189DBBC,
   0x3956C25BF348B538, 0x59F111F1B605D019, 0x923F82A4AF194F9B, 0xAB1C5ED5DA6D8118,
   0xD807AA98A3030242, 0x12835B0145706FBE, 0x243185BE4EE4B28C, 0x550C7DC3D5FFB4E2,
   0x72BE5D74F27B896F, 0x80DEB1FE3B1696B1, 0x9BDC06A725C71235, 0xC19BF174CF692694,
   0xE49B69C19EF14AD2, 0xEFBE4786384F25E3, 0x0FC19DC68B8CD5B5, 0x240CA1CC77AC9C65,
   0x2DE92C6F592B0275, 0x4A7484AA6EA6E483, 0x5CB0A9DCBD41FBD4, 0x76F988DA831153B5,
   0x983E5152EE66DFAB, 0xA831C66D2DB43210, 0xB00327C898FB213F, 0xBF597FC7BEEF0EE4,
   0xC6E00BF33DA88FC2, 0xD5A79147930AA725, 0x06CA6351E003826F, 0x142929670A0E6E70,
   0x27B70A8546D22FFC, 0x2E1B21385C26C926, 0x4D2C6DFC5AC42AED, 0x53380D139D95B3DF,
   0x650A73548BAF63DE, 0x766A0ABB3C77B2A8, 0x81C2C92E47EDAEE6, 0x92722C851482353B,
   0xA2BFE8A14CF10364, 0xA81A664BBC423001, 0xC24B8B70D0F89791, 0xC76C51A30654BE30,
   0xD192E819D6EF5218, 0xD69906245565A910, 0xF40E35855771202A, 0x106AA07032BBD1B8,
   0x19A4C116B8D2D0C8, 0x1E376C085141AB53, 0x2748774CDF8EEB99, 0x34B0BCB5E19B48A8,
   0x391C0CB3C5C95A63, 0x4ED8AA4AE3418ACB, 0x5B9CCA4F7763E373, 0x682E6FF3D6B2B8A3,
   0x748F82EE5DEFB2FC, 0x78A5636F43172F60, 0x84C87814A1F0AB72, 0x8CC702081A6439EC,
   0x90BEFFFA23631E28, 0xA4506CEBDE82BDE9, 0xBEF9A3F7B2C67915, 0xC67178F2E372532B,
   0xCA273ECEEA26619C, 0xD186B8C721C0C207, 0xEADA7DD6CDE0EB1E, 0xF57D4F7FEE6ED178,
   0x06F067AA72176FBA, 0x0A637DC5A2C898A6, 0x113F9804BEF90DAE, 0x1B710B35131C471B,
   0x28DB77F523047D84, 0x32CAAB7B40C72493, 0x3C9EBE0A15C9BEBC, 0x431D67C49C100D4C,
   0x4CC5D4BECB3E42B6, 0x597F299CFC657E2A, 0x5FCB6FAB3AD6FAEC, 0x6C44198C4A475817]

def sha256P : Sha := ⟨32, (7, 18, 3), (17, 19, 10), (2, 13, 22), (6, 11, 25), sha256K⟩

def sha512P : Sha := ⟨64, (1, 8, 7), (19, 61, 6), (28, 34, 39), (14, 18, 41), sha512K⟩

/-- SHA-256: 32 bytes. -/
def sha256 (l : List Byte) : List Byte :=
  (sha256P.run [0x6A09E667, 0xBB67AE85, 0x3C6EF372, 0xA54FF53A, 0x510E527F, 0x9B05688C, 0x1F83D9AB, 0x5BE0CD19] l).flatMap (toBe 4)

/-- SHA-384: 48 bytes. -/
def sha384 (l : List Byte) : List Byte :=
  ((sha512P.run
    [0xCBBB9D5DC1059ED8, 0x629A292A367CD507, 0x9159015A3070DD17, 0x152FECD8F70E5939,
     0x67332667FFC00B31, 0x8EB44A8768581511, 0xDB0C2E0D64F98FA7, 0x47B5481DBEFA4FA4] l).take 6).flatMap (toBe 8)

/-- One bit of a reflected CRC. -/
def crcStep (poly x : Nat) : Nat := if x % 2 = 1 then x / 2 ^^^ poly else x / 2

/-- CRC-32C (Castagnoli), reflected, initial value and final inversion of all ones. -/
def crc32c (l : List Byte) : Nat :=
  l.foldl (fun c b => (List.range 8).foldl (fun x _ => crcStep 0x82F63B78 x) (c ^^^ b.toNat)) 0xFFFFFFFF ^^^ 0xFFFFFFFF

/-- A 256-bit number as its 32 bytes in the order of the words of a digest register file: byte 0 is bits [7:0]. -/
def digestNat (l : List Byte) : Nat := leNat l

end Sys2Proof.Machine
end

