-- ==== Sys2Proof/Machine/Parts.lean ====
section
/-! DEFINITION. The parts of State: plain data for each unit of the device, each with the contents it has after a cold reset. -/
namespace Sys2Proof.Machine
open Sys2Proof

/-! ### Remote memory operations -/

/-- The operation descriptor of Table 12.3 (R341). -/
structure OpDesc where
  op : Nat := 0
  rel : Bool := false
  unord : Bool := false
  tagged : Bool := false
  priv : Bool := false
  ccb : Nat := 0
  aop : Nat := 0
  frac : Nat := 0
  sigWait : Bool := false
  heddle : Nat := 0
  destDev : Nat := 0
  destAddr : Nat := 0
  length : Nat := 0
  localAddr : Nat := 0
  op0 : Nat := 0
  op1 : Nat := 0
  tagPick : Nat := 0
  tagCore : Nat := 0
  tagArray : Nat := 0
  tagTile : Nat := 0
  rackStep : Nat := 0
deriving DecidableEq, Repr, Inhabited

/-- The unit that issued a remote memory operation and takes its acknowledgement (R346). -/
inductive Issuer where
  | strand (core strand : Nat)
  | epilogue (core strand arr pass tile row : Nat)
  | runAhead (core slot : Nat)
  | solver (e : Nat)
  | update (slice : Nat)
  | group (slice : Nat) (block group : Nat)
  | repair (slice : Nat)
  | coll (slice : Nat) (chunk transfer : Nat)
  | tile (slice : Nat) (chunk : Nat)
  | audit
deriving DecidableEq, Repr, Inhabited

/-- The answer a destination gives: status of Table 12.5, returned data, poison. -/
structure OpAnswer where
  status : Nat := 0
  data : List Byte := []
  poison : List Nat := []         -- poisoned 64-byte blocks of the data, counted from its start
  addr : Nat := 0                 -- the lowest failing address (R29)
deriving DecidableEq, Repr, Inhabited

/-- What an operation of a repair context carries (Table 11.9, R331): a repair request, a part of a replica's state from an offset, a refusal. -/
inductive RepairOp where
  | request (block target : Nat)
  | state (block off : Nat)
  | refusal (block : Nat)
deriving DecidableEq, Repr, Inhabited

/-- An operation that has been issued and is not yet acknowledged (R346, R350). -/
structure IssuedOp where
  issuer : Issuer
  desc : OpDesc
  dest : Nat                      -- the destination device number
  seq : Nat := 0                  -- the heddle's send number, for an operation on a heddle
  sent : Bool := true             -- false while it waits for a credit or for the window of R349
  part : Option Nat := none       -- the issuer's partition; none for a unit that no partition bounds
  pickTag : Nat := 0
  data : List Byte := []
  poison : List Nat := []         -- the poisoned 64-byte blocks of the data, counted from its start
  repair : Option RepairOp := none -- on a repair context (R331)
  answer : Option OpAnswer := none -- what a destination on this device answered
deriving DecidableEq, Repr, Inhabited

/-! ### What leaves the device -/

/-- Why a THREAD is refused (R353). -/
inductive ThreadRefusal where
  | undeclared | quota | pool | id
deriving DecidableEq, Repr, Inhabited

/-- Threading messages (R353); a THREAD names the partition, and whether it is for a repair (R331). -/
inductive ThreadMsg where
  | thread (part : Nat) (repair : Bool)
  | accept
  | refuse (why : ThreadRefusal)
  | release | releaseAck
deriving DecidableEq, Repr, Inhabited

/-- What the device sends to the outside: the host, peers, clients, the board. -/
inductive Msg where
  | msix (vec : Nat)
  | mgmtIrq (ty inst bit : Nat)
  | op (id dest hid seq src : Nat) (part tag : Option Nat) (desc : OpDesc) (data : List Byte) (poison : List Nat) (rep : Option RepairOp)
  | ack (dev hid seq status : Nat) (tag : Option Nat) (data : List Byte) (poison : List Nat)
  | flit (link : Nat) (f : Flit)
  | retry (link lseq : Nat)
  | credit (hid n : Nat)
  | thread (m : ThreadMsg) (dev hid : Nat)
  | align (link pick tx : Nat) (edge : Bool) (vote confirm : Option Bool) (dissent : Bool) (echo gen fprint : Nat)
  | neg (link dev role gen fprint verLo verHi : Nat)
  | pickOut (high : Bool)
  | hostData (addr : Nat) (bogus : Bool) (data : List Byte)
  | snoopAnswer (addr : Nat) (code : Nat) (data : List Byte)
  | dirtyEvict (addr : Nat)
  | bisnp (addr : Nat) (inv : Bool)
  | cxlData (addr : Nat) (data : List Byte)
  | tlpData (fn : Nat) (data : List Byte) (poison : Bool)
  | unsupported (fn : Nat)
  | frame (port : Nat) (kind : Nat) (data : List Byte)
  | reply (session sub seq status : Nat) (runPick : Nat) (body : List Byte)
  | control (session kind : Nat)   -- a KEEPALIVE (3) or CLOSE (4) message
  | handshake (kind : Nat) (session : Nat) (data : List Byte)
  | spdm (code : Nat) (data : List Byte)
  | spi (status : Nat) (data : Nat)
  | mctp (cmd : Nat) (status : Nat) (data : List Byte)
  | jtag (data : List Bool)
deriving DecidableEq, Repr, Inhabited

/-! ### The pick sequencer -/

/-- A task record (Table 3.4). -/
structure TaskRec where
  unitType : Nat := 0
  unitInst : Nat := 0
  tflags : Nat := 0
  start : Nat := 0
  budget : Nat := 0
  entry : Nat := 0
  arg : Nat := 0
deriving DecidableEq, Repr, Inhabited

/-- Where a task of the current pick stands (R85, R93). -/
inductive TaskSt where
  | waiting | running | finished
deriving DecidableEq, Repr, Inhabited

/-- A task of the current pick. -/
structure Task where
  desc : TaskRec
  st : TaskSt := .waiting
  startNs : Nat := 0
  overrun : Bool := false
deriving DecidableEq, Repr, Inhabited

/-- A record of a heddle set (R354). -/
structure HedRec where
  peer : Nat := 0
  part : Nat := 0
  hid : Nat := 0
deriving DecidableEq, Repr, Inhabited

/-- A schedule entry as the sequencer holds it (Tables 3.3, 3.4, R354). -/
structure Entry where
  idx : Nat := 0
  next : Nat := 0
  flags : Nat := 0
  tasks : List TaskRec := []
  heds : List HedRec := []
deriving DecidableEq, Repr, Inhabited

/-- The instants of a pick that have passed (R92). -/
inductive Stage where
  | open | beatUp | voted | confirmed | decided
  | stopped                        -- every clock of the picks has stopped: a shutdown (R486)
deriving DecidableEq, Repr, Inhabited

/-- The pick sequencer and the timebase (chapter 3). -/
structure PickState where
  num : Nat := 0
  work : Nat := 0
  phase : Nat := 0
  stage : Stage := .open
  recovery : Bool := false            -- the current pick is a recovery pick (R99)
  noTask : Bool := true               -- the current pick runs no entry (IDLE, STALLED)
  entry : Entry := {}
  tasks : List Task := []
  nextEntry : Option Entry := none    -- the checked entry of the next work pick (R84)
  causes : Nat := 0                   -- reason bits 0 to 4 that have held in this pick (Table 3.7)
  firstOverrun : Option Nat := none
  voteOr : Bool := false
  votesFrom : List Nat := []
  confirmOr : Bool := false
  confirmsFrom : List Nat := []
  outcome : Option Bool := none       -- some true: LATE
  firstLink : Nat := 0x3F
  sendDissent : Bool := false
  pickSet : Option Nat := none        -- R108
  slewNs : Int := 0                   -- what is left to move after holdover (R80)
  lastPickInNs : Option Nat := none   -- the previous rising edge on PICK_IN (R79)
  fenced : Bool := false              -- R409
  fenceEdges : Nat := 0               -- picks with an uplink edge flit since the fence (R409)
  fenceHeard : Bool := false          -- an uplink edge flit has arrived in this pick
  adopt : Option Nat := none          -- the number that the pick of the next edge takes from its time source (R78, R409)
  exhausted : List Nat := []          -- heddle set records counted by R355 in this pick
deriving DecidableEq, Repr, Inhabited

/-- An armed commit: generation, commit pick, the pages it includes (R58, R59). -/
structure Armed where
  gen : Nat
  pick : Nat
  pages : List (Nat × Nat)
deriving DecidableEq, Repr, Inhabited

/-! ### Heddles -/

/-- One direction pair of sequence state (R348): a heddle, or a repair context. -/
structure SeqCtx where
  sendNext : Nat := 0
  recvNext : Nat := 0
  ahead : List (Nat × Arrival × Nat) := []   -- arrivals held ahead of order, with their operation code (the receive map)
  credits : Nat := 0
  acks : List (Nat × OpAnswer × Nat × Arrival) := [] -- the last 1,024 acknowledgements sent, with the operation they answer
  owed : Nat := 0                -- credits of applied operations not yet returned (R352)
deriving DecidableEq, Repr, Inhabited

/-- The states of HVIEW0.STATE (Table 12.9). -/
inductive HedSt where
  | free | threading | threaded | releasing
deriving DecidableEq, Repr, Inhabited

/-- A heddle (R348). -/
structure Heddle where
  st : HedSt := .free
  session : Bool := false
  repairUse : Bool := false      -- a shared heddle threaded for a repair (R331)
  part : Nat := 0
  peer : Nat := 0
  peerId : Nat := 0
  ctx : SeqCtx := {}
  repair : SeqCtx := {}          -- the repair context of a permanent heddle
  key : List Byte := []          -- a session heddle's keys and salts (R348)
deriving DecidableEq, Repr, Inhabited

/-- What the device records of a heddle at an edge (R357). -/
structure HedRecord where
  st : HedSt
  part : Nat
  peer : Nat
  peerId : Nat
  sendNext : Nat
  recvNext : Nat
  ahead : List (Nat × Arrival × Nat)
  credits : Nat
  owed : Nat := 0
deriving DecidableEq, Repr, Inhabited

/-- A SIG acknowledgement that SIG_WAIT holds (R342). -/
structure HeldSig where
  arrival : Arrival
  part : Option Nat
  tagged : Bool              -- the operation carries a pick tag
deriving DecidableEq, Repr

/-- The heddle table and the operations in flight. -/
structure FabState where
  heddles : Tab Heddle := []
  edge : Tab HedRecord := []
  issued : Tab IssuedOp := []
  nextOp : Nat := 0
  heldSigs : Tab HeldSig := []
  nextSig : Nat := 0
deriving DecidableEq, Repr, Inhabited

/-- A link (R359 to R364). -/
structure LinkState where
  expSeq : Nat := 0               -- the LSEQ expected next
  sendSeq : Nat := 0              -- the LSEQ of the next flit sent
  unacked : List (Nat × Flit) := []  -- the replay buffer
  retries : Nat := 0              -- consecutive retries without progress (R360)
  lastProgress : Nat := 0         -- the LSEQ that the last RETRY asked for
  peerFenced : Bool := false
  peerGen : Nat := 0
  peerPrint : Nat := 0
  lastTx : Nat := 0               -- the time stamp of the last ALIGN flit received (echoed in the next)
deriving DecidableEq, Repr, Inhabited

/-! ### Memory system -/

/-- A half of a cellar line in CXL.cache (R302). -/
inductive Mesi where
  | i | s | e | m
deriving DecidableEq, Repr, Inhabited

/-- A line that a cache-mode granule holds (R293, R302). -/
structure CacheLine where
  part : Nat := 0
  dirty : Bool := false
  lo : Mesi := .i
  hi : Mesi := .i
deriving DecidableEq, Repr, Inhabited

/-- An entry of an eviction buffer (R302, R303). -/
structure EvictEntry where
  half : Nat                       -- the 64-byte host line number
  data : List Byte
  forwarded : Bool := false
deriving DecidableEq, Repr, Inhabited

/-- A granule of the cellar (R292 to R299). -/
structure Granule where
  mode : Nat := 0                  -- the mode in effect
  bind : Nat := 0                  -- the bound range in effect, in 16 MiB units
  flushing : Bool := false
  flushed : Bool := false          -- the flush has completed; the new mode comes at the next edge
deriving DecidableEq, Repr, Inhabited

/-- The cellar, its tile ledgers and the coherence state toward the host. -/
structure CellarState where
  granules : Tab Granule := []
  ledger : Tab Tag := []           -- tile ledger entries by line number of the bound range's device address
  lines : Tab CacheLine := []      -- lines in cache-mode granules, by 8 * line number + partition
  evict : Tab (List EvictEntry) := []   -- eviction buffers of the dies
  filter : Tab (List (Nat × Bool)) := [] -- host-held 64-byte lines of each home die, oldest first; true: the host may hold it in M
  asked : List (Nat × Bool) := []  -- 64-byte lines with a BISnp on its way to the host; true: BISnpInv
  flushAll : List Nat := []        -- cellar dies with CACHE_CTL.FLUSH in progress
deriving DecidableEq, Repr, Inhabited

/-- A stack controller: the regulators' tokens in bytes (unlisted: the ceiling) and the privileged bucket in 1/25 bytes (R286, R289), the
time they are current at, the partitions whose first request has been counted as waiting, the bytes read and written. -/
structure StackState where
  tokens : Tab Int := []
  priv : Int := 1638400
  ns : Nat := 0
  waited : List Nat := []
  rd : Nat := 0
  wr : Nat := 0
deriving DecidableEq, Repr, Inhabited

/-! ### Host interface -/

/-- What a command has come to, before its completion is written (R450). -/
structure QDone where
  cid : Nat := 0
  status : Nat := 0
  info : Nat := 0
deriving DecidableEq, Repr, Inhabited

/-- A queue pair: the registers of its block (Table 16.3), the phase and the tail of the completion queue, and the command in flight. -/
structure QueueState where
  sqBase : Nat := 0
  cqBase : Nat := 0
  sqLog : Nat := 4
  cqLog : Nat := 4
  vector : Nat := 0
  irqEn : Bool := false
  enable : Bool := false
  sqTail : Nat := 0
  cqHead : Nat := 0
  sqHead : Nat := 0
  error : Bool := false
  phase : Bool := true
  cqTail : Nat := 0
  cqUsed : Nat := 0                -- completions written and not yet freed
  waiting : Bool := false          -- a WAIT command is executing
  done : Option QDone := none
deriving DecidableEq, Repr, Inhabited

/-- The identifiers of a function's configuration space (R438). -/
structure PciId where
  vendor : Nat
  device : Nat
  classCode : Nat
deriving DecidableEq, Repr, Inhabited

/-- What the configuration space of each function reports (R9, R438): the physical function, then the eight virtual ones. The spec gives a VF's
device identifier alone: its vendor and class are the PF's (log entry 125). No command of the table reads the configuration space. -/
def pciIds : List PciId := ⟨0x1F3C, 0xB225, 0x120000⟩ :: List.replicate 8 ⟨0x1F3C, 0xB226, 0x120000⟩

/-- The host port. -/
structure HostState where
  pci : List PciId := pciIds
  queues : Tab QueueState := []    -- by 16 * function + queue
  msix : Tab Nat := []             -- address and data words of the MSI-X tables, by 4 * vector + word
  unmasked : List Nat := []        -- MSI-X vectors that are not masked
  pba : List Nat := []             -- pending bits
  mem : List (Nat × Byte) := []    -- host physical memory as the port sees it
  poison : List Nat := []
deriving DecidableEq, Repr, Inhabited

/-! ### Cellar book, management, security, sideband -/

/-- A record before it takes its sequence number (Table 17.7). -/
structure QRec where
  ty : Nat := 0
  flags : Nat := 0
  pick : Nat := 0
  boot : Nat := 0
  work : Nat := 0
  page : Nat := 0xFF
  evt : Nat := 0xFF
  inst : Nat := 0
  phase : Nat := 0
  data : List Byte := []
  ready : Bool := true
  fatal : Bool := false
deriving DecidableEq, Repr, Inhabited

/-- The cellar book (R470 to R472): the two copies by index, the queue, and what survives in MRAM. -/
structure BookState where
  a : Tab (List Byte) := []
  b : Tab (List Byte) := []
  queue : List QRec := []
  nextSeq : Nat := 1
  bootNum : Nat := 0
  dropped : Bool := false
deriving DecidableEq, Repr, Inhabited

/-- Management cores and security: what the registers do not show. -/
structure MgmtState where
  bootAccepted : Bool := false      -- BOOT_DONE has been accepted since the last cold or warm reset (R458)
  arbCount : Nat := 0               -- blown bits (R457)
  arbTarget : Option Nat := none    -- an advance in progress
  revoked : List Nat := []          -- revoked key slots (R459)
  keySlot : Nat := 0                -- the slot that signed the running image
  imgHash : List Byte := []         -- IMG_HASH of the running image
  debugFuse : Bool := false
  spdmState : Nat := 0              -- 0 none; 1 versions; 2 capabilities; 3 algorithms
  kicks : Nat := 0                  -- restarts of the watchdog count since it was set
  partResets : List Nat := []       -- partition resets in progress
  softResets : List (Nat × Nat) := []  -- pages whose block has taken a soft reset and does not accept work yet (R464)
  resetKind : Option Nat := none    -- a reset whose record the following boot writes (R463)
deriving DecidableEq, Repr, Inhabited

/-- The sideband (R465 to R469). -/
structure SideState where
  status : Nat := 0                 -- the status byte of the previous frame
  result : Option Nat := none       -- its READ or BOOK result
  fcnt : Nat := 0
  jtag : Nat := 0x02
  boundary : List Bool := []
deriving DecidableEq, Repr, Inhabited

end Sys2Proof.Machine
end

