-- ==== Sys2Proof/Machine/RegTable.lean ====
section
/-! DEFINITION. The register fields of every page, written from the field tables of the spec's chapters: page type, offset, bits,
access type and reset value. Reserved bits have no entry: they read 0 (R49). -/
namespace Sys2Proof.Machine

/-- The access types of Table 2.2 (R44). -/
inductive Acc where
  | rw | ro | w1c | w1s | wo | rws | rwl
deriving DecidableEq, Repr

/-- One field of one register (or of each of `count` registers, `stride` bytes apart). -/
structure Fld where
  ty : Nat
  off : Nat
  lo : Nat
  w : Nat
  acc : Acc
  reset : Nat
  stride : Nat := 4
  count : Nat := 1
deriving DecidableEq, Repr

/-- The field in register `k` of an array of registers. -/
def Fld.nth (f : Fld) (k : Nat) : Fld := { f with off := f.off + k * f.stride, count := 1 }

/-- The key under which State holds the field on page instance `i` (R28: type, instance, offset; then the field's lowest bit). -/
def Fld.key (f : Fld) (i : Nat) : Nat := ((f.ty * 1024 + i) * 4096 + f.off) * 32 + f.lo

/-- BLK_ID.TYPE: Type code from Table 2.1 (Table 2.3). -/
def F.BLK_ID_TYPE (ty : Nat) : Fld := ⟨ty, 0x000, 0, 8, .ro, 0x0, 4, 1⟩
/-- BLK_ID.INSTANCE: Instance number (Table 2.3). -/
def F.BLK_ID_INSTANCE (ty : Nat) : Fld := ⟨ty, 0x000, 8, 10, .ro, 0x0, 4, 1⟩
/-- BLK_ID.DIE: Die index under R19 (Table 2.3). -/
def F.BLK_ID_DIE (ty : Nat) : Fld := ⟨ty, 0x000, 18, 5, .ro, 0x0, 4, 1⟩
/-- BLK_VER.MINOR: Minor version of the page layout (Table 2.3). -/
def F.BLK_VER_MINOR (ty : Nat) : Fld := ⟨ty, 0x004, 0, 8, .ro, 0x0, 4, 1⟩
/-- BLK_VER.MAJOR: Major version of the page layout (Table 2.3). -/
def F.BLK_VER_MAJOR (ty : Nat) : Fld := ⟨ty, 0x004, 8, 8, .ro, 0x1, 4, 1⟩
/-- BLK_VER.ARCH_GEN: Architecture generation (Table 2.3). -/
def F.BLK_VER_ARCH_GEN (ty : Nat) : Fld := ⟨ty, 0x004, 16, 4, .ro, 0x2, 4, 1⟩
/-- BLK_CAP0.CAP: Block-specific capabilities, defined in the block's chapter (Table 2.3). -/
def F.BLK_CAP0 (ty : Nat) : Fld := ⟨ty, 0x008, 0, 32, .ro, 0x0, 4, 1⟩
/-- BLK_CAP1.HAS_RWS: 1: the page has RWS fields and takes part in commits (Table 2.3). -/
def F.BLK_CAP1_HAS_RWS (ty : Nat) : Fld := ⟨ty, 0x00C, 0, 1, .ro, 0x0, 4, 1⟩
/-- BLK_CAP1.HAS_RWL: 1: the page has RWL fields (Table 2.3). -/
def F.BLK_CAP1_HAS_RWL (ty : Nat) : Fld := ⟨ty, 0x00C, 1, 1, .ro, 0x0, 4, 1⟩
/-- BLK_CAP1.PARTITIONED: 1: the page belongs to a partition under R43; 1 on CORE and SOLVER pages only (R498) (Table 2.3). -/
def F.BLK_CAP1_PARTITIONED (ty : Nat) : Fld := ⟨ty, 0x00C, 2, 1, .ro, 0x0, 4, 1⟩
/-- BLK_CAP1.SOFT_RESET: 1: the block supports block soft reset; 1 on CORE, SOLVER, UPDATE and COLL pages only (R498) (Table 2.3). -/
def F.BLK_CAP1_SOFT_RESET (ty : Nat) : Fld := ⟨ty, 0x00C, 3, 1, .ro, 0x0, 4, 1⟩
/-- BLK_CAP1.EVT_NUM: Number of the highest implemented EVT_STAT bit plus one (R498) (Table 2.3). -/
def F.BLK_CAP1_EVT_NUM (ty : Nat) : Fld := ⟨ty, 0x00C, 8, 8, .ro, 0x0, 4, 1⟩
/-- BLK_CTL.SRST: Write 1: block soft reset (Table 2.3). -/
def F.BLK_CTL_SRST (ty : Nat) : Fld := ⟨ty, 0x010, 0, 1, .wo, 0x0, 4, 1⟩
/-- BLK_CTL.ERR_CLR: Write 1: clear ERR_CNT, ERR_FIRST and ERR_INFO (Table 2.3). -/
def F.BLK_CTL_ERR_CLR (ty : Nat) : Fld := ⟨ty, 0x010, 1, 1, .wo, 0x0, 4, 1⟩
/-- BLK_CTL.SHADOW_VIEW: 1: reads of RWS fields return the staged value (Table 2.3). -/
def F.BLK_CTL_SHADOW_VIEW (ty : Nat) : Fld := ⟨ty, 0x010, 2, 1, .rw, 0x0, 4, 1⟩
/-- BLK_CTL.BLK: Block-specific control (Table 2.3). -/
def F.BLK_CTL_BLK (ty : Nat) : Fld := ⟨ty, 0x010, 8, 24, .ro, 0x0, 4, 1⟩
/-- BLK_STAT.READY: 1: block initialised and accepting work (Table 2.3). -/
def F.BLK_STAT_READY (ty : Nat) : Fld := ⟨ty, 0x014, 0, 1, .ro, 0x0, 4, 1⟩
/-- BLK_STAT.STAGE_OPEN: 1: CFG_STAGE is above CFG_GEN (Table 2.3). -/
def F.BLK_STAT_STAGE_OPEN (ty : Nat) : Fld := ⟨ty, 0x014, 1, 1, .ro, 0x0, 4, 1⟩
/-- BLK_STAT.STAGE_ARMED: 1: the staged generation is armed for commit (Table 2.3). -/
def F.BLK_STAT_STAGE_ARMED (ty : Nat) : Fld := ⟨ty, 0x014, 2, 1, .ro, 0x0, 4, 1⟩
/-- BLK_STAT.LOCKED: 1: RWL fields are locked (Table 2.3). -/
def F.BLK_STAT_LOCKED (ty : Nat) : Fld := ⟨ty, 0x014, 3, 1, .ro, 0x0, 4, 1⟩
/-- BLK_STAT.FENCED: 1: block is fenced and accepts management traffic only (Table 2.3). -/
def F.BLK_STAT_FENCED (ty : Nat) : Fld := ⟨ty, 0x014, 4, 1, .ro, 0x0, 4, 1⟩
/-- BLK_STAT.BLK: Block-specific status (Table 2.3). -/
def F.BLK_STAT_BLK (ty : Nat) : Fld := ⟨ty, 0x014, 8, 24, .ro, 0x0, 4, 1⟩
/-- EVT_STAT.EVT: Event bits; Table 2.5 and the block's chapter (Table 2.3). -/
def F.EVT_STAT (ty : Nat) : Fld := ⟨ty, 0x018, 0, 32, .w1c, 0x0, 4, 1⟩
/-- EVT_EN.EN: 1: the event bit is delivered (Table 2.3). -/
def F.EVT_EN (ty : Nat) : Fld := ⟨ty, 0x01C, 0, 32, .rw, 0x35, 4, 1⟩
/-- EVT_SET.SET: Write 1: set the event bit as if hardware raised it (Table 2.3). -/
def F.EVT_SET (ty : Nat) : Fld := ⟨ty, 0x020, 0, 32, .wo, 0x0, 4, 1⟩
/-- EVT_SEV.INFO_ROUTE: Destinations of INFO events (Table 2.3). -/
def F.EVT_SEV_INFO_ROUTE (ty : Nat) : Fld := ⟨ty, 0x024, 0, 4, .rw, 0x2, 4, 1⟩
/-- EVT_SEV.NOTICE_ROUTE: Destinations of NOTICE events (Table 2.3). -/
def F.EVT_SEV_NOTICE_ROUTE (ty : Nat) : Fld := ⟨ty, 0x024, 4, 4, .rw, 0x3, 4, 1⟩
/-- EVT_SEV.ERROR_ROUTE: Destinations of ERROR events (Table 2.3). -/
def F.EVT_SEV_ERROR_ROUTE (ty : Nat) : Fld := ⟨ty, 0x024, 8, 4, .rw, 0x7, 4, 1⟩
/-- EVT_SEV.FATAL_ROUTE: Host and management destinations of FATAL events (Table 2.3). -/
def F.EVT_SEV_FATAL_ROUTE (ty : Nat) : Fld := ⟨ty, 0x024, 12, 2, .rw, 0x3, 4, 1⟩
/-- EVT_SEV.FATAL_FIXED: FATAL events always go to the cellar book and FAULT_N (Table 2.3). -/
def F.EVT_SEV_FATAL_FIXED (ty : Nat) : Fld := ⟨ty, 0x024, 14, 2, .ro, 0x3, 4, 1⟩
/-- ERR_CNT.COUNT: Errors counted on this page; saturates at 0xFFFF_FFFF (Table 2.3). -/
def F.ERR_CNT (ty : Nat) : Fld := ⟨ty, 0x028, 0, 32, .ro, 0x0, 4, 1⟩
/-- ERR_FIRST.ADDR_LO: Address bits [31:0] of the first error, or a block-specific value (Table 2.3). -/
def F.ERR_FIRST (ty : Nat) : Fld := ⟨ty, 0x02C, 0, 32, .ro, 0x0, 4, 1⟩
/-- ERR_INFO.ADDR_HI: Address bits [47:32] of the first error (Table 2.3). -/
def F.ERR_INFO_ADDR_HI (ty : Nat) : Fld := ⟨ty, 0x030, 0, 16, .ro, 0x0, 4, 1⟩
/-- ERR_INFO.CODE: Error code of the first error, Table 2.4 (Table 2.3). -/
def F.ERR_INFO_CODE (ty : Nat) : Fld := ⟨ty, 0x030, 16, 8, .ro, 0x0, 4, 1⟩
/-- ERR_INFO.AGENT: Agent of the first error, Table 2.4 (Table 2.3). -/
def F.ERR_INFO_AGENT (ty : Nat) : Fld := ⟨ty, 0x030, 24, 8, .ro, 0x0, 4, 1⟩
/-- CFG_GEN.GEN: Generation of this page's last commit (Table 2.3). -/
def F.CFG_GEN (ty : Nat) : Fld := ⟨ty, 0x034, 0, 32, .ro, 0x0, 4, 1⟩
/-- CFG_STAGE.GEN: Generation that this page's staged values belong to (Table 2.3). -/
def F.CFG_STAGE (ty : Nat) : Fld := ⟨ty, 0x038, 0, 32, .rw, 0x0, 4, 1⟩
/-- CFG_CMD.PICK_LO: Bits [31:0] of the commit pick number (Table 2.3). -/
def F.CFG_CMD (ty : Nat) : Fld := ⟨ty, 0x03C, 0, 32, .rw, 0x0, 4, 1⟩
/-- PICK_LOCAL.PICK: Bits [31:0] of the current pick number (Table 2.3). -/
def F.PICK_LOCAL (ty : Nat) : Fld := ⟨ty, 0x040, 0, 32, .ro, 0x0, 4, 1⟩

/-! ### DEVICE page -/
/-- DEV_INFO.STEP_NUM: Stepping number: 1 for A1 (Table 2.8). -/
def F.DEVICE_DEV_INFO_STEP_NUM : Fld := ⟨0, 0x080, 0, 4, .ro, 0x1, 4, 1⟩
/-- DEV_INFO.STEP_LETTER: Stepping letter: 1 = A (Table 2.8). -/
def F.DEVICE_DEV_INFO_STEP_LETTER : Fld := ⟨0, 0x080, 4, 4, .ro, 0x1, 4, 1⟩
/-- DEV_INFO.GRADE: 0: YTB2564-D; 1: YTB2564-F; 2–3 reserved (Table 2.8). -/
def F.DEVICE_DEV_INFO_GRADE : Fld := ⟨0, 0x080, 8, 2, .ro, 0x0, 4, 1⟩
/-- DEV_INFO.STACKS: Stacked-DRAM sites populated (Table 2.8). -/
def F.DEVICE_DEV_INFO_STACKS : Fld := ⟨0, 0x080, 16, 8, .ro, 0x10, 4, 1⟩
/-- DEV_NUM.NUMBER: Device number V·W·E·S (Table 2.8). -/
def F.DEVICE_DEV_NUM : Fld := ⟨0, 0x084, 0, 16, .rwl, 0x0, 4, 1⟩
/-- COMMIT_GEN.GEN: Generation to arm (Table 2.8). -/
def F.DEVICE_COMMIT_GEN : Fld := ⟨0, 0x088, 0, 32, .rw, 0x0, 4, 1⟩
/-- COMMIT_PICK_HI.PICK_HI: Bits [47:32] of the commit pick (Table 2.8). -/
def F.DEVICE_COMMIT_PICK_HI : Fld := ⟨0, 0x08C, 0, 16, .rw, 0x0, 4, 1⟩
/-- COMMIT_CTL.ARM: Write 1: arm the commit (Table 2.8). -/
def F.DEVICE_COMMIT_CTL_ARM : Fld := ⟨0, 0x090, 0, 1, .wo, 0x0, 4, 1⟩
/-- COMMIT_CTL.CANCEL: Write 1: cancel the armed commit (Table 2.8). -/
def F.DEVICE_COMMIT_CTL_CANCEL : Fld := ⟨0, 0x090, 1, 1, .wo, 0x0, 4, 1⟩
/-- COMMIT_CTL.STATE: 0 IDLE; 1 ARMED; 2 DONE; 3 CONFIG_REJECTED; 4 LATE; 5 CANCELLED; 6–7 reserved (Table 2.8). -/
def F.DEVICE_COMMIT_CTL_STATE : Fld := ⟨0, 0x090, 4, 3, .ro, 0x0, 4, 1⟩
/-- COMMIT_CTL.REASON: 0x00 none; 0x01 GEN_ORDER; 0x02 NO_PAGES; 0x03 RULE; 0x04 SOLO; 0x05 QUOTA_IN_USE (Table 2.8). -/
def F.DEVICE_COMMIT_CTL_REASON : Fld := ⟨0, 0x090, 8, 8, .ro, 0x0, 4, 1⟩
/-- COMMIT_PAGE.TYPE: Type of the first page that failed the check (Table 2.8). -/
def F.DEVICE_COMMIT_PAGE_TYPE : Fld := ⟨0, 0x094, 0, 8, .ro, 0x0, 4, 1⟩
/-- COMMIT_PAGE.INSTANCE: Instance of that page (Table 2.8). -/
def F.DEVICE_COMMIT_PAGE_INSTANCE : Fld := ⟨0, 0x094, 8, 10, .ro, 0x0, 4, 1⟩
/-- EVT_SUMMARY.TYPE_PEND: Bit t = 1: some page of type t holds an enabled, set EVT_STAT bit (Table 2.8). -/
def F.DEVICE_EVT_SUMMARY : Fld := ⟨0, 0x098, 0, 19, .ro, 0x0, 4, 1⟩
/-- CFG_FPRINT0–7.FPRINT: Configuration fingerprint, 256 bits; CFG_FPRINT0 holds bits [31:0] (Table 2.8). -/
def F.DEVICE_CFG_FPRINT : Fld := ⟨0, 0x0A0, 0, 32, .ro, 0x0, 4, 8⟩

/-! ### CORE page -/
/-- ARR_CTL.GATE_MODE: 0 ZERO_DETECT (R153); 1 RAMP (R154) (Table 5.9). -/
def F.CORE_ARR_CTL_GATE_MODE : Fld := ⟨1, 0x080, 0, 1, .rws, 0x0, 4, 1⟩
/-- ARR_CTL.MUST_MODE: 0 full must; 1 short must, as "Exact Accumulation: Must, Vat, Lees and the Epilogue" defines (Table 5.9). -/
def F.CORE_ARR_CTL_MUST_MODE : Fld := ⟨1, 0x080, 1, 1, .rws, 0x0, 4, 1⟩
/-- ARR_CTL.IDLE_THRESH: Ramp mode: cycles without a release before the rows stop, 16–255 (Table 5.9). -/
def F.CORE_ARR_CTL_IDLE_THRESH : Fld := ⟨1, 0x080, 8, 8, .rws, 0x40, 4, 1⟩
/-- ARR_STAT.A0_BUSY: 1: array 0 has a pass in flight (Table 5.9). -/
def F.CORE_ARR_STAT_A0_BUSY : Fld := ⟨1, 0x084, 0, 1, .ro, 0x0, 4, 1⟩
/-- ARR_STAT.A1_BUSY: 1: array 1 has a pass in flight (Table 5.9). -/
def F.CORE_ARR_STAT_A1_BUSY : Fld := ⟨1, 0x084, 1, 1, .ro, 0x0, 4, 1⟩
/-- ARR_STAT.MVP_BUSY: 1: the matrix-vector path runs a command (Table 5.9). -/
def F.CORE_ARR_STAT_MVP_BUSY : Fld := ⟨1, 0x084, 2, 1, .ro, 0x0, 4, 1⟩
/-- ARR_STAT.MVP_RSVD: 1: a solver engine holds the path (R159) (Table 5.9). -/
def F.CORE_ARR_STAT_MVP_RSVD : Fld := ⟨1, 0x084, 3, 1, .ro, 0x0, 4, 1⟩
/-- ARR_STAT.MVP_SOLVER: Solver engine that holds the path (Table 5.9). -/
def F.CORE_ARR_STAT_MVP_SOLVER : Fld := ⟨1, 0x084, 4, 4, .ro, 0x0, 4, 1⟩
/-- ARR_STAT.A0_ROWS_ON: Ramp mode: 1 while array 0's row clocks run (Table 5.9). -/
def F.CORE_ARR_STAT_A0_ROWS_ON : Fld := ⟨1, 0x084, 8, 1, .ro, 0x1, 4, 1⟩
/-- ARR_STAT.A1_ROWS_ON: Ramp mode: 1 while array 1's row clocks run (Table 5.9). -/
def F.CORE_ARR_STAT_A1_ROWS_ON : Fld := ⟨1, 0x084, 9, 1, .ro, 0x1, 4, 1⟩
/-- A0_BEATS.COUNT: Beats released by array 0; wraps (Table 5.9). -/
def F.CORE_A0_BEATS : Fld := ⟨1, 0x088, 0, 32, .ro, 0x0, 4, 1⟩
/-- A1_BEATS.COUNT: Beats released by array 1; wraps (Table 5.9). -/
def F.CORE_A1_BEATS : Fld := ⟨1, 0x08C, 0, 32, .ro, 0x0, 4, 1⟩
/-- A0_BUBBLES.COUNT: Bubbles of array 0 (R138); saturates (Table 5.9). -/
def F.CORE_A0_BUBBLES : Fld := ⟨1, 0x090, 0, 32, .ro, 0x0, 4, 1⟩
/-- A1_BUBBLES.COUNT: Bubbles of array 1; saturates (Table 5.9). -/
def F.CORE_A1_BUBBLES : Fld := ⟨1, 0x094, 0, 32, .ro, 0x0, 4, 1⟩
/-- A0_HOLD.COUNT: Held cycles of array 0 (R139); saturates (Table 5.9). -/
def F.CORE_A0_HOLD : Fld := ⟨1, 0x098, 0, 32, .ro, 0x0, 4, 1⟩
/-- A1_HOLD.COUNT: Held cycles of array 1; saturates (Table 5.9). -/
def F.CORE_A1_HOLD : Fld := ⟨1, 0x09C, 0, 32, .ro, 0x0, 4, 1⟩
/-- ARR_ECC.CORR: Corrected errors in vat or bobbin queue storage; saturates (Table 5.9). -/
def F.CORE_ARR_ECC_CORR : Fld := ⟨1, 0x0A0, 0, 16, .ro, 0x0, 4, 1⟩
/-- ARR_ECC.UNCORR: Uncorrectable errors, including every parity error in warp, shadow or edge storage (R161); saturates (Table 5.9). -/
def F.CORE_ARR_ECC_UNCORR : Fld := ⟨1, 0x0A0, 16, 16, .ro, 0x0, 4, 1⟩
/-- MVP_ELEMS.COUNT: Matrix elements consumed; wraps (Table 5.9). -/
def F.CORE_MVP_ELEMS : Fld := ⟨1, 0x0A4, 0, 32, .ro, 0x0, 4, 1⟩
/-- MVP_STALL.COUNT: Cycles without matrix data (R158); saturates (Table 5.9). -/
def F.CORE_MVP_STALL : Fld := ⟨1, 0x0A8, 0, 32, .ro, 0x0, 4, 1⟩
/-- MVP_WAIT.COUNT: Cycles waited for a solver reservation (R159); saturates (Table 5.9). -/
def F.CORE_MVP_WAIT : Fld := ⟨1, 0x0AC, 0, 32, .ro, 0x0, 4, 1⟩
/-- ARR_RSVD_CNT.COUNT: Reserved encodings on the arrays and the path; saturates (Table 5.9). -/
def F.CORE_ARR_RSVD_CNT : Fld := ⟨1, 0x0B0, 0, 32, .ro, 0x0, 4, 1⟩
/-- CNT_CLR.CLEAR: Write 1: clear the counters at 0x088 to 0x0B0 (Table 5.9). -/
def F.CORE_CNT_CLR : Fld := ⟨1, 0x0B4, 0, 1, .wo, 0x0, 4, 1⟩
/-- A0_LEES_TILES.COUNT: Tiles of array 0 drained with LEES_N > 0; saturates (Table 6.10). -/
def F.CORE_A0_LEES_TILES : Fld := ⟨1, 0x100, 0, 32, .ro, 0x0, 4, 1⟩
/-- A1_LEES_TILES.COUNT: Tiles of array 1 drained with LEES_N > 0; saturates (Table 6.10). -/
def F.CORE_A1_LEES_TILES : Fld := ⟨1, 0x104, 0, 32, .ro, 0x0, 4, 1⟩
/-- A0_LEES_ELEMS.COUNT: Elements of array 0 drained with lees; saturates (Table 6.10). -/
def F.CORE_A0_LEES_ELEMS : Fld := ⟨1, 0x108, 0, 32, .ro, 0x0, 4, 1⟩
/-- A1_LEES_ELEMS.COUNT: Elements of array 1 drained with lees; saturates (Table 6.10). -/
def F.CORE_A1_LEES_ELEMS : Fld := ⟨1, 0x10C, 0, 32, .ro, 0x0, 4, 1⟩
/-- EPI_NAN.COUNT: NaN outputs of both epilogues and the path; saturates (Table 6.10). -/
def F.CORE_EPI_NAN : Fld := ⟨1, 0x110, 0, 32, .ro, 0x0, 4, 1⟩
/-- EPI_OVF.COUNT: Outputs counted in OVF_N; saturates (Table 6.10). -/
def F.CORE_EPI_OVF : Fld := ⟨1, 0x114, 0, 32, .ro, 0x0, 4, 1⟩
/-- EPI_UNDER.COUNT: Outputs counted in UNDER_N; saturates (Table 6.10). -/
def F.CORE_EPI_UNDER : Fld := ⟨1, 0x118, 0, 32, .ro, 0x0, 4, 1⟩
/-- EPI_STALL.COUNT: Drain cycles stopped by the destination (R185); saturates (Table 6.10). -/
def F.CORE_EPI_STALL : Fld := ⟨1, 0x11C, 0, 32, .ro, 0x0, 4, 1⟩
/-- LEES_LAST.BANK: Bank of the last tile drained with lees (Table 6.10). -/
def F.CORE_LEES_LAST_BANK : Fld := ⟨1, 0x120, 0, 2, .ro, 0x0, 4, 1⟩
/-- LEES_LAST.ARRAY: Array of that tile (Table 6.10). -/
def F.CORE_LEES_LAST_ARRAY : Fld := ⟨1, 0x120, 2, 1, .ro, 0x0, 4, 1⟩
/-- LEES_LAST.TASK: Task record index of that tile (Table 6.10). -/
def F.CORE_LEES_LAST_TASK : Fld := ⟨1, 0x120, 7, 12, .ro, 0x0, 4, 1⟩
/-- LEES_LAST.LEES_N: LEES_N of that tile (Table 6.10). -/
def F.CORE_LEES_LAST_LEES_N : Fld := ⟨1, 0x120, 19, 13, .ro, 0x0, 4, 1⟩
/-- EPI_CNT_CLR.CLEAR: Write 1: clear the counters at 0x100 to 0x11C (Table 6.10). -/
def F.CORE_EPI_CNT_CLR : Fld := ⟨1, 0x124, 0, 1, .wo, 0x0, 4, 1⟩
/-- VEC_NAN.COUNT: NaN results from invalid operations, including softmax case 1 (Table 7.10). -/
def F.CORE_VEC_NAN : Fld := ⟨1, 0x140, 0, 32, .ro, 0x0, 4, 1⟩
/-- VEC_SAT.COUNT: Saturated elements and NaN-to-integer conversions (Table 7.10). -/
def F.CORE_VEC_SAT : Fld := ⟨1, 0x144, 0, 32, .ro, 0x0, 4, 1⟩
/-- VEC_WRAP.COUNT: Wrapped integer overflows (Table 7.10). -/
def F.CORE_VEC_WRAP : Fld := ⟨1, 0x148, 0, 32, .ro, 0x0, 4, 1⟩
/-- VEC_DIV0.COUNT: Integer divisions by zero, floating divisions of non-zero values by zero, logs of zero (Table 7.10). -/
def F.CORE_VEC_DIV0 : Fld := ⟨1, 0x14C, 0, 32, .ro, 0x0, 4, 1⟩
/-- VEC_OOW.COUNT: Out-of-window element accesses (R202) (Table 7.10). -/
def F.CORE_VEC_OOW : Fld := ⟨1, 0x150, 0, 32, .ro, 0x0, 4, 1⟩
/-- VEC_LEES.COUNT: Scan elements and accumulations that set lees (Table 7.10). -/
def F.CORE_VEC_LEES : Fld := ⟨1, 0x154, 0, 32, .ro, 0x0, 4, 1⟩
/-- VEC_RSVD.COUNT: Reserved encodings of the vector engine and the reduction unit (Table 7.10). -/
def F.CORE_VEC_RSVD : Fld := ⟨1, 0x158, 0, 32, .ro, 0x0, 4, 1⟩
/-- VEC_CLIP.COUNT: Instructions that processed fewer than vl elements (R193) (Table 7.10). -/
def F.CORE_VEC_CLIP : Fld := ⟨1, 0x15C, 0, 32, .ro, 0x0, 4, 1⟩
/-- VEC_EMPTY.COUNT: Empty softmax rows counted by VSOFTMAX (R214) (Table 7.10). -/
def F.CORE_VEC_EMPTY : Fld := ⟨1, 0x160, 0, 32, .ro, 0x0, 4, 1⟩
/-- VEC_ECC.CORR: Corrected errors in vector registers and accumulators (Table 7.10). -/
def F.CORE_VEC_ECC_CORR : Fld := ⟨1, 0x164, 0, 16, .ro, 0x0, 4, 1⟩
/-- VEC_ECC.UNCORR: Uncorrectable errors (R219) (Table 7.10). -/
def F.CORE_VEC_ECC_UNCORR : Fld := ⟨1, 0x164, 16, 16, .ro, 0x0, 4, 1⟩
/-- VEC_CNT_CLR.CLEAR: Write 1: clear the registers at 0x140 to 0x164 (Table 7.10). -/
def F.CORE_VEC_CNT_CLR : Fld := ⟨1, 0x168, 0, 1, .wo, 0x0, 4, 1⟩
/-- IMG_BASE_LO.ADDR: Image address [31:3] (Table 8.9). -/
def F.CORE_IMG_BASE_LO : Fld := ⟨1, 0x180, 3, 29, .rws, 0x0, 4, 1⟩
/-- IMG_BASE_HI.ADDR: Image address [47:32] (Table 8.9). -/
def F.CORE_IMG_BASE_HI : Fld := ⟨1, 0x184, 0, 16, .rws, 0x0, 4, 1⟩
/-- STR_STAT.RUNNING: Bit t = 1: strand t is RUNNING (Table 8.9). -/
def F.CORE_STR_STAT_RUNNING : Fld := ⟨1, 0x188, 0, 8, .ro, 0x0, 4, 1⟩
/-- STR_STAT.WAITING: Bit t = 1: strand t waits under R229 (Table 8.9). -/
def F.CORE_STR_STAT_WAITING : Fld := ⟨1, 0x188, 8, 8, .ro, 0x0, 4, 1⟩
/-- STR_STAT.RA_SLOTS: Run-ahead slots in use, 0–256 (Table 8.9). -/
def F.CORE_STR_STAT_RA_SLOTS : Fld := ⟨1, 0x188, 16, 9, .ro, 0x0, 4, 1⟩
/-- STR_ISSUED.COUNT: Instructions issued; wraps (Table 8.9). -/
def F.CORE_STR_ISSUED : Fld := ⟨1, 0x18C, 0, 32, .ro, 0x0, 4, 1⟩
/-- STR_RSVD.COUNT: Reserved encodings and unowned-unit issues (R226, R239); saturates (Table 8.9). -/
def F.CORE_STR_RSVD : Fld := ⟨1, 0x190, 0, 32, .ro, 0x0, 4, 1⟩
/-- STR_FETCH_ERR.COUNT: Strands ended by fetch errors (R245); saturates (Table 8.9). -/
def F.CORE_STR_FETCH_ERR : Fld := ⟨1, 0x194, 0, 32, .ro, 0x0, 4, 1⟩
/-- STR_OOW.COUNT: Scalar accesses out of window; saturates (Table 8.9). -/
def F.CORE_STR_OOW : Fld := ⟨1, 0x198, 0, 32, .ro, 0x0, 4, 1⟩
/-- STR_DIV0.COUNT: Scalar integer divisions by zero; saturates (Table 8.9). -/
def F.CORE_STR_DIV0 : Fld := ⟨1, 0x19C, 0, 32, .ro, 0x0, 4, 1⟩
/-- RA_LINES.COUNT: Lines landed by the run-ahead engine; wraps (Table 8.9). -/
def F.CORE_RA_LINES : Fld := ⟨1, 0x1A0, 0, 32, .ro, 0x0, 4, 1⟩
/-- RA_FULL.COUNT: Cycles with all 256 slots in use and a line issuable; saturates (Table 8.9). -/
def F.CORE_RA_FULL : Fld := ⟨1, 0x1A4, 0, 32, .ro, 0x0, 4, 1⟩
/-- STR_ECC.CORR: Corrected errors (R246); saturates (Table 8.9). -/
def F.CORE_STR_ECC_CORR : Fld := ⟨1, 0x1A8, 0, 16, .ro, 0x0, 4, 1⟩
/-- STR_ECC.UNCORR: Uncorrectable errors; saturates (Table 8.9). -/
def F.CORE_STR_ECC_UNCORR : Fld := ⟨1, 0x1A8, 16, 16, .ro, 0x0, 4, 1⟩
/-- STR_CNT_CLR.CLEAR: Write 1: clear the counters at 0x18C to 0x1A8 (Table 8.9). -/
def F.CORE_STR_CNT_CLR : Fld := ⟨1, 0x1AC, 0, 1, .wo, 0x0, 4, 1⟩

/-! ### DIE page -/
/-- DIE_STAT.TEMP: Junction temperature of the loom die, 1/16 °C, signed (Table 10.7). -/
def F.DIE_DIE_STAT : Fld := ⟨2, 0x080, 0, 16, .ro, 0x0, 4, 1⟩
/-- SPL_CE.COUNT: Corrected spool errors on the die (R281); saturates (Table 10.7). -/
def F.DIE_SPL_CE : Fld := ⟨2, 0x084, 0, 32, .ro, 0x0, 4, 1⟩
/-- SPL_UE.COUNT: Uncorrectable spool errors; saturates (Table 10.7). -/
def F.DIE_SPL_UE : Fld := ⟨2, 0x088, 0, 32, .ro, 0x0, 4, 1⟩
/-- SPL_UE_LOC.OFFSET: Spool offset of the first uncorrectable error since the last clear (Table 10.7). -/
def F.DIE_SPL_UE_LOC_OFFSET : Fld := ⟨2, 0x08C, 0, 26, .ro, 0x0, 4, 1⟩
/-- SPL_UE_LOC.CORE: Core k of that error (Table 10.7). -/
def F.DIE_SPL_UE_LOC_CORE : Fld := ⟨2, 0x08C, 26, 5, .ro, 0x0, 4, 1⟩
/-- SPL_UE_LOC.VALID: 1: OFFSET and CORE are valid (Table 10.7). -/
def F.DIE_SPL_UE_LOC_VALID : Fld := ⟨2, 0x08C, 31, 1, .ro, 0x0, 4, 1⟩
/-- NOC_RETRY.COUNT: Bridge transfers retried; saturates (Table 10.7). -/
def F.DIE_NOC_RETRY : Fld := ⟨2, 0x090, 0, 32, .ro, 0x0, 4, 1⟩
/-- DIE_CNT_CLR.CLEAR: Write 1: clear the registers at 0x084 to 0x090 (Table 10.7). -/
def F.DIE_DIE_CNT_CLR : Fld := ⟨2, 0x094, 0, 1, .wo, 0x0, 4, 1⟩

/-! ### CELLAR page -/
/-- GRAN_MODE.MODE: Bits [2i + 1:2i]: mode of granule i of the die, Table 10.3 (Table 10.9). -/
def F.CELLAR_GRAN_MODE : Fld := ⟨3, 0x080, 0, 12, .rws, 0x0, 4, 1⟩
/-- GRAN_STAT.MODE: Mode in effect for each granule (Table 10.9). -/
def F.CELLAR_GRAN_STAT_MODE : Fld := ⟨3, 0x084, 0, 12, .ro, 0x0, 4, 1⟩
/-- GRAN_STAT.FLUSHING: Bit 12 + i = 1: granule i is flushing (R299) (Table 10.9). -/
def F.CELLAR_GRAN_STAT_FLUSHING : Fld := ⟨3, 0x084, 12, 6, .ro, 0x0, 4, 1⟩
/-- ACC_BIND0–5.BASE: Start of the bound range in 16 MiB units (R295) (Table 10.9). -/
def F.CELLAR_ACC_BIND_BASE : Fld := ⟨3, 0x088, 0, 17, .rws, 0x0, 4, 6⟩
/-- ACC_BIND0–5.VALID: 1: binding in use (Table 10.9). -/
def F.CELLAR_ACC_BIND_VALID : Fld := ⟨3, 0x088, 31, 1, .rws, 0x0, 4, 6⟩
/-- CACHE_CTL.FLUSH: Write 1: write back all dirty lines (R300) (Table 10.9). -/
def F.CELLAR_CACHE_CTL : Fld := ⟨3, 0x0A0, 0, 1, .w1s, 0x0, 4, 1⟩
/-- HIT_CNT.COUNT: Cache hits; wraps (Table 10.9). -/
def F.CELLAR_HIT_CNT : Fld := ⟨3, 0x0A4, 0, 32, .ro, 0x0, 4, 1⟩
/-- MISS_CNT.COUNT: Cache misses; wraps (Table 10.9). -/
def F.CELLAR_MISS_CNT : Fld := ⟨3, 0x0A8, 0, 32, .ro, 0x0, 4, 1⟩
/-- WB_CNT.COUNT: Lines written back; wraps (Table 10.9). -/
def F.CELLAR_WB_CNT : Fld := ⟨3, 0x0AC, 0, 32, .ro, 0x0, 4, 1⟩
/-- ACC_DUP.COUNT: Duplicate ACC lines (R297); saturates (Table 10.9). -/
def F.CELLAR_ACC_DUP : Fld := ⟨3, 0x0B0, 0, 32, .ro, 0x0, 4, 1⟩
/-- ACC_COLLIDE.COUNT: Colliding ACC lines; saturates (Table 10.9). -/
def F.CELLAR_ACC_COLLIDE : Fld := ⟨3, 0x0B4, 0, 32, .ro, 0x0, 4, 1⟩
/-- ACC_STALE.COUNT: Stale and dropped ACC lines (R296, R297); saturates (Table 10.9). -/
def F.CELLAR_ACC_STALE : Fld := ⟨3, 0x0B8, 0, 32, .ro, 0x0, 4, 1⟩
/-- CEL_ECC.CORR: Corrected errors; saturates (Table 10.9). -/
def F.CELLAR_CEL_ECC_CORR : Fld := ⟨3, 0x0BC, 0, 16, .ro, 0x0, 4, 1⟩
/-- CEL_ECC.UNCORR: Uncorrectable errors; saturates (Table 10.9). -/
def F.CELLAR_CEL_ECC_UNCORR : Fld := ⟨3, 0x0BC, 16, 16, .ro, 0x0, 4, 1⟩
/-- HSNP_CNT.COUNT: Host snoops received; wraps (Table 10.9). -/
def F.CELLAR_HSNP_CNT : Fld := ⟨3, 0x0C0, 0, 32, .ro, 0x0, 4, 1⟩
/-- EVB_FWD.COUNT: Snoops answered from the eviction buffer (R303); saturates (Table 10.9). -/
def F.CELLAR_EVB_FWD : Fld := ⟨3, 0x0C4, 0, 32, .ro, 0x0, 4, 1⟩
/-- BISNP_CNT.COUNT: Back-invalidations issued (R304); wraps (Table 10.9). -/
def F.CELLAR_BISNP_CNT : Fld := ⟨3, 0x0C8, 0, 32, .ro, 0x0, 4, 1⟩
/-- CEL_CNT_CLR.CLEAR: Write 1: clear the registers at 0x0A4 to 0x0C8 (Table 10.9). -/
def F.CELLAR_CEL_CNT_CLR : Fld := ⟨3, 0x0CC, 0, 1, .wo, 0x0, 4, 1⟩

/-! ### STACK page -/
/-- STK_CTL.SCRUB_EN: 1: patrol scrub on (R285) (Table 10.11). -/
def F.STACK_STK_CTL_SCRUB_EN : Fld := ⟨4, 0x080, 0, 1, .rw, 0x1, 4, 1⟩
/-- STK_CTL.WORK_CONSERVE: 1: idle bandwidth goes to partitions without tokens (R287) (Table 10.11). -/
def F.STACK_STK_CTL_WORK_CONSERVE : Fld := ⟨4, 0x080, 1, 1, .rws, 0x1, 4, 1⟩
/-- STK_CTL.SCRUB_HOURS: Scrub period in hours, 1–255 (Table 10.11). -/
def F.STACK_STK_CTL_SCRUB_HOURS : Fld := ⟨4, 0x080, 8, 8, .rw, 0x18, 4, 1⟩
/-- PRIV_CAP.PCT: Privileged-class share in percent, 0–10 (R289) (Table 10.11). -/
def F.STACK_PRIV_CAP : Fld := ⟨4, 0x084, 0, 4, .rws, 0xA, 4, 1⟩
/-- STK_STAT.SCRUB_POS: Progress of the current scrub period, percent (Table 10.11). -/
def F.STACK_STK_STAT_SCRUB_POS : Fld := ⟨4, 0x088, 0, 8, .ro, 0x0, 4, 1⟩
/-- STK_STAT.PRIV_EMPTY: 1: the privileged bucket is empty (Table 10.11). -/
def F.STACK_STK_STAT_PRIV_EMPTY : Fld := ⟨4, 0x088, 8, 1, .ro, 0x0, 4, 1⟩
/-- CE_CNT.COUNT: Corrected DRAM errors, including scrub; saturates (Table 10.11). -/
def F.STACK_CE_CNT : Fld := ⟨4, 0x08C, 0, 32, .ro, 0x0, 4, 1⟩
/-- UE_CNT.COUNT: Uncorrectable DRAM errors; saturates (Table 10.11). -/
def F.STACK_UE_CNT : Fld := ⟨4, 0x090, 0, 32, .ro, 0x0, 4, 1⟩
/-- UE_ADDR_LO.ADDR: Device address [31:0] of the first uncorrectable error since the last clear (Table 10.11). -/
def F.STACK_UE_ADDR_LO : Fld := ⟨4, 0x094, 0, 32, .ro, 0x0, 4, 1⟩
/-- UE_ADDR_HI.ADDR: Device address [47:32] of that error (Table 10.11). -/
def F.STACK_UE_ADDR_HI_ADDR : Fld := ⟨4, 0x098, 0, 16, .ro, 0x0, 4, 1⟩
/-- UE_ADDR_HI.VALID: 1: the address is valid (Table 10.11). -/
def F.STACK_UE_ADDR_HI_VALID : Fld := ⟨4, 0x098, 31, 1, .ro, 0x0, 4, 1⟩
/-- SCRUB_PASSES.COUNT: Completed scrub periods; wraps (Table 10.11). -/
def F.STACK_SCRUB_PASSES : Fld := ⟨4, 0x09C, 0, 32, .ro, 0x0, 4, 1⟩
/-- PRIV_CAPPED.COUNT: Privileged reads issued as ordinary reads; saturates (Table 10.11). -/
def F.STACK_PRIV_CAPPED : Fld := ⟨4, 0x0A0, 0, 32, .ro, 0x0, 4, 1⟩
/-- RD_BYTES.COUNT: Bytes read, in 256-byte units; wraps (Table 10.11). -/
def F.STACK_RD_BYTES : Fld := ⟨4, 0x0A4, 0, 32, .ro, 0x0, 4, 1⟩
/-- WR_BYTES.COUNT: Bytes written, in 256-byte units; wraps (Table 10.11). -/
def F.STACK_WR_BYTES : Fld := ⟨4, 0x0A8, 0, 32, .ro, 0x0, 4, 1⟩
/-- STK_CNT_CLR.CLEAR: Write 1: clear the registers at 0x08C to 0x0A8 and 0x0E0 to 0x0FC (Table 10.11). -/
def F.STACK_STK_CNT_CLR : Fld := ⟨4, 0x0AC, 0, 1, .wo, 0x0, 4, 1⟩
/-- REG0–7.RATE: Regulator rate of partition p in 1/1,024 of 2.048 TB/s (R286) (Table 10.11). -/
def F.STACK_REG_RATE : Fld := ⟨4, 0x0C0, 0, 11, .rws, 0x400, 4, 8⟩
/-- REG0–7.BURST: Bucket ceiling in 4 KiB units, 1–4,095 (Table 10.11). -/
def F.STACK_REG_BURST : Fld := ⟨4, 0x0C0, 16, 12, .rws, 0x100, 4, 8⟩
/-- REG_WAIT0–7.COUNT: Requests of partition p that waited for tokens (R287); saturates (Table 10.11). -/
def F.STACK_REG_WAIT : Fld := ⟨4, 0x0E0, 0, 32, .ro, 0x0, 4, 8⟩

/-! ### SOLVER page -/
/-- SOLV_CTL.PART: Partition that owns the engine (R252) (Table 9.12). -/
def F.SOLVER_SOLV_CTL : Fld := ⟨5, 0x080, 0, 3, .rws, 0x0, 4, 1⟩
/-- DESC_BASE_LO.ADDR: Descriptor table address [31:8] (Table 9.12). -/
def F.SOLVER_DESC_BASE_LO : Fld := ⟨5, 0x084, 8, 24, .rws, 0x0, 4, 1⟩
/-- DESC_BASE_HI.ADDR: Descriptor table address [47:32] (Table 9.12). -/
def F.SOLVER_DESC_BASE_HI : Fld := ⟨5, 0x088, 0, 16, .rws, 0x0, 4, 1⟩
/-- SOLV_STAT.BUSY: 1: a descriptor is running (Table 9.12). -/
def F.SOLVER_SOLV_STAT_BUSY : Fld := ⟨5, 0x08C, 0, 1, .ro, 0x0, 4, 1⟩
/-- SOLV_STAT.WAITING: 1: waiting on WAIT_ADDR (R253) (Table 9.12). -/
def F.SOLVER_SOLV_STAT_WAITING : Fld := ⟨5, 0x08C, 1, 1, .ro, 0x0, 4, 1⟩
/-- SOLV_STAT.MVP_HELD: 1: the engine holds a path (R254) (Table 9.12). -/
def F.SOLVER_SOLV_STAT_MVP_HELD : Fld := ⟨5, 0x08C, 2, 1, .ro, 0x0, 4, 1⟩
/-- SOLV_STAT.MVP_CORE: Core k of the held path (Table 9.12). -/
def F.SOLVER_SOLV_STAT_MVP_CORE : Fld := ⟨5, 0x08C, 3, 5, .ro, 0x0, 4, 1⟩
/-- SOLV_STAT.DESC: Index of the running descriptor (Table 9.12). -/
def F.SOLVER_SOLV_STAT_DESC : Fld := ⟨5, 0x08C, 8, 12, .ro, 0x0, 4, 1⟩
/-- DONE_CNT.COUNT: Descriptors completed; wraps (Table 9.12). -/
def F.SOLVER_DONE_CNT : Fld := ⟨5, 0x090, 0, 32, .ro, 0x0, 4, 1⟩
/-- CONV_CNT.COUNT: CONVERGED; saturates (Table 9.12). -/
def F.SOLVER_CONV_CNT : Fld := ⟨5, 0x094, 0, 32, .ro, 0x0, 4, 1⟩
/-- ITERLIM_CNT.COUNT: ITER_LIMIT; saturates (Table 9.12). -/
def F.SOLVER_ITERLIM_CNT : Fld := ⟨5, 0x098, 0, 32, .ro, 0x0, 4, 1⟩
/-- DEADLINE_CNT.COUNT: DEADLINE; saturates (Table 9.12). -/
def F.SOLVER_DEADLINE_CNT : Fld := ⟨5, 0x09C, 0, 32, .ro, 0x0, 4, 1⟩
/-- FAIL_CNT.COUNT: Codes 0x03–0x08; saturates (Table 9.12). -/
def F.SOLVER_FAIL_CNT : Fld := ⟨5, 0x0A0, 0, 32, .ro, 0x0, 4, 1⟩
/-- REG_CNT.COUNT: Descriptors with PIVOT_REG = 1; saturates (Table 9.12). -/
def F.SOLVER_REG_CNT : Fld := ⟨5, 0x0A4, 0, 32, .ro, 0x0, 4, 1⟩
/-- ITER_SUM.COUNT: Iterations run; wraps (Table 9.12). -/
def F.SOLVER_ITER_SUM : Fld := ⟨5, 0x0A8, 0, 32, .ro, 0x0, 4, 1⟩
/-- LAST_NS.NS: Time from the start of the last descriptor to its record, ns (Table 9.12). -/
def F.SOLVER_LAST_NS : Fld := ⟨5, 0x0AC, 0, 32, .ro, 0x0, 4, 1⟩
/-- SOLV_ECC.CORR: Corrected engine store errors; saturates (Table 9.12). -/
def F.SOLVER_SOLV_ECC_CORR : Fld := ⟨5, 0x0B0, 0, 16, .ro, 0x0, 4, 1⟩
/-- SOLV_ECC.UNCORR: Uncorrectable errors (R275); saturates (Table 9.12). -/
def F.SOLVER_SOLV_ECC_UNCORR : Fld := ⟨5, 0x0B0, 16, 16, .ro, 0x0, 4, 1⟩
/-- SOLV_CNT_CLR.CLEAR: Write 1: clear the registers at 0x090 to 0x0B0 (Table 9.12). -/
def F.SOLVER_SOLV_CNT_CLR : Fld := ⟨5, 0x0B4, 0, 1, .wo, 0x0, 4, 1⟩

/-! ### UPDATE page -/
/-- UPD_CTL.ENABLE: 1: the slice accepts chunks and tasks; 0: chunks are rejected with code BAD_BLOCK (Table 11.11). -/
def F.UPDATE_UPD_CTL_ENABLE : Fld := ⟨6, 0x080, 0, 1, .rws, 0x0, 4, 1⟩
/-- UPD_CTL.OPEN_MAX: Open blocks, 1–64 (R320) (Table 11.11). -/
def F.UPDATE_UPD_CTL_OPEN_MAX : Fld := ⟨6, 0x080, 8, 7, .rws, 0x40, 4, 1⟩
/-- UPD_CTL.REPAIR_TMO: Replica answer timeout, µs (R330) (Table 11.11). -/
def F.UPDATE_UPD_CTL_REPAIR_TMO : Fld := ⟨6, 0x080, 16, 16, .rw, 0x28, 4, 1⟩
/-- BT_BASE_LO.ADDR: Block table [31:6] (Table 11.11). -/
def F.UPDATE_BT_BASE_LO : Fld := ⟨6, 0x084, 6, 26, .rws, 0x0, 4, 1⟩
/-- BT_BASE_HI.ADDR: Block table [47:32] (Table 11.11). -/
def F.UPDATE_BT_BASE_HI : Fld := ⟨6, 0x088, 0, 16, .rws, 0x0, 4, 1⟩
/-- LEDGER_BASE_LO.ADDR: Ledger [31:4] (Table 11.11). -/
def F.UPDATE_LEDGER_BASE_LO : Fld := ⟨6, 0x08C, 4, 28, .rws, 0x0, 4, 1⟩
/-- LEDGER_BASE_HI.ADDR: Ledger [47:32] (Table 11.11). -/
def F.UPDATE_LEDGER_BASE_HI : Fld := ⟨6, 0x090, 0, 16, .rws, 0x0, 4, 1⟩
/-- DIG_BASE_LO.ADDR: Digest area [31:5] (Table 11.11). -/
def F.UPDATE_DIG_BASE_LO : Fld := ⟨6, 0x094, 5, 27, .rws, 0x0, 4, 1⟩
/-- DIG_BASE_HI.ADDR: Digest area [47:32] (Table 11.11). -/
def F.UPDATE_DIG_BASE_HI : Fld := ⟨6, 0x098, 0, 16, .rws, 0x0, 4, 1⟩
/-- STEP_BASE_LO.ADDR: Step descriptors [31:6] (Table 11.11). -/
def F.UPDATE_STEP_BASE_LO : Fld := ⟨6, 0x09C, 6, 26, .rws, 0x0, 4, 1⟩
/-- STEP_BASE_HI.ADDR: Step descriptors [47:32] (Table 11.11). -/
def F.UPDATE_STEP_BASE_HI : Fld := ⟨6, 0x0A0, 0, 16, .rws, 0x0, 4, 1⟩
/-- PROG_BASE_LO.ADDR: Programs [31:8] (Table 11.11). -/
def F.UPDATE_PROG_BASE_LO : Fld := ⟨6, 0x0A4, 8, 24, .rws, 0x0, 4, 1⟩
/-- PROG_BASE_HI.ADDR: Programs [47:32] (Table 11.11). -/
def F.UPDATE_PROG_BASE_HI : Fld := ⟨6, 0x0A8, 0, 16, .rws, 0x0, 4, 1⟩
/-- APPLY_BASE_LO.ADDR: Apply descriptors [31:6] (Table 11.11). -/
def F.UPDATE_APPLY_BASE_LO : Fld := ⟨6, 0x0AC, 6, 26, .rws, 0x0, 4, 1⟩
/-- APPLY_BASE_HI.ADDR: Apply descriptors [47:32] (Table 11.11). -/
def F.UPDATE_APPLY_BASE_HI : Fld := ⟨6, 0x0B0, 0, 16, .rws, 0x0, 4, 1⟩
/-- BLOCKS.COUNT: Blocks in the table (Table 11.11). -/
def F.UPDATE_BLOCKS : Fld := ⟨6, 0x0B4, 0, 32, .rws, 0x0, 4, 1⟩
/-- REPAIR_REQ.BLOCK: Write: request repair of the block (R329) (Table 11.11). -/
def F.UPDATE_REPAIR_REQ : Fld := ⟨6, 0x0B8, 0, 32, .wo, 0x0, 4, 1⟩
/-- REPAIR_STAT.BUSY: 1: a repair is running (Table 11.11). -/
def F.UPDATE_REPAIR_STAT_BUSY : Fld := ⟨6, 0x0BC, 0, 1, .ro, 0x0, 4, 1⟩
/-- REPAIR_STAT.RESULT: Last repair: 0 none; 1 OK; 2 UNAVAILABLE; 3 reserved (Table 11.11). -/
def F.UPDATE_REPAIR_STAT_RESULT : Fld := ⟨6, 0x0BC, 1, 2, .ro, 0x0, 4, 1⟩
/-- REPAIR_STAT.REPLICA: Replica index that served the last repair (Table 11.11). -/
def F.UPDATE_REPAIR_STAT_REPLICA : Fld := ⟨6, 0x0BC, 3, 2, .ro, 0x0, 4, 1⟩
/-- REPAIR_STAT.QUEUED: Requests queued, 0–16 (Table 11.11). -/
def F.UPDATE_REPAIR_STAT_QUEUED : Fld := ⟨6, 0x0BC, 5, 5, .ro, 0x0, 4, 1⟩
/-- REPAIR_BLOCK.BLOCK: Block of the last repair (Table 11.11). -/
def F.UPDATE_REPAIR_BLOCK : Fld := ⟨6, 0x0C0, 0, 32, .ro, 0x0, 4, 1⟩
/-- REPAIR_NS.NS: Duration of the last repair, ns (Table 11.11). -/
def F.UPDATE_REPAIR_NS : Fld := ⟨6, 0x0C4, 0, 32, .ro, 0x0, 4, 1⟩
/-- OPEN_STAT.OPEN: Open blocks, 0–64 (Table 11.11). -/
def F.UPDATE_OPEN_STAT_OPEN : Fld := ⟨6, 0x0C8, 0, 7, .ro, 0x0, 4, 1⟩
/-- OPEN_STAT.REDO_USED: Redo entries in use, 0–512 (Table 11.11). -/
def F.UPDATE_OPEN_STAT_REDO_USED : Fld := ⟨6, 0x0C8, 8, 10, .ro, 0x0, 4, 1⟩
/-- UPD_GROUPS.COUNT: Groups committed; wraps (Table 11.11). -/
def F.UPDATE_UPD_GROUPS : Fld := ⟨6, 0x0CC, 0, 32, .ro, 0x0, 4, 1⟩
/-- UPD_CLOSED.COUNT: Blocks closed; wraps (Table 11.11). -/
def F.UPDATE_UPD_CLOSED : Fld := ⟨6, 0x0D0, 0, 32, .ro, 0x0, 4, 1⟩
/-- UPD_DUP.COUNT: Duplicate chunks (Table 11.6); saturates (Table 11.11). -/
def F.UPDATE_UPD_DUP : Fld := ⟨6, 0x0D4, 0, 32, .ro, 0x0, 4, 1⟩
/-- UPD_GAP.COUNT: Chunks that skipped steps; saturates (Table 11.11). -/
def F.UPDATE_UPD_GAP : Fld := ⟨6, 0x0D8, 0, 32, .ro, 0x0, 4, 1⟩
/-- UPD_NONFIN.COUNT: Elements with non-finite outputs (R326); saturates (Table 11.11). -/
def F.UPDATE_UPD_NONFIN : Fld := ⟨6, 0x0DC, 0, 32, .ro, 0x0, 4, 1⟩
/-- REPAIR_OK.COUNT: Successful repairs; saturates (Table 11.11). -/
def F.UPDATE_REPAIR_OK : Fld := ⟨6, 0x0E0, 0, 32, .ro, 0x0, 4, 1⟩
/-- UNAVAIL_CNT.COUNT: Blocks made unavailable (R332); saturates (Table 11.11). -/
def F.UPDATE_UNAVAIL_CNT : Fld := ⟨6, 0x0E4, 0, 32, .ro, 0x0, 4, 1⟩
/-- UPD_REJECT.COUNT: Chunks rejected, codes 0x80, 0x81, 0x83; saturates (Table 11.11). -/
def F.UPDATE_UPD_REJECT : Fld := ⟨6, 0x0E8, 0, 32, .ro, 0x0, 4, 1⟩
/-- UPD_ECC.CORR: Corrected errors; saturates (Table 11.11). -/
def F.UPDATE_UPD_ECC_CORR : Fld := ⟨6, 0x0EC, 0, 16, .ro, 0x0, 4, 1⟩
/-- UPD_ECC.UNCORR: Uncorrectable errors (R334); saturates (Table 11.11). -/
def F.UPDATE_UPD_ECC_UNCORR : Fld := ⟨6, 0x0EC, 16, 16, .ro, 0x0, 4, 1⟩
/-- UPD_CNT_CLR.CLEAR: Write 1: clear the registers at 0x0CC to 0x0EC (Table 11.11). -/
def F.UPDATE_UPD_CNT_CLR : Fld := ⟨6, 0x0F0, 0, 1, .wo, 0x0, 4, 1⟩

/-! ### COLL page -/
/-- COLL_CTL.ENABLE: 1: the slice accepts tasks, tiles and landings (Table 13.7). -/
def F.COLL_COLL_CTL_ENABLE : Fld := ⟨7, 0x080, 0, 1, .rws, 0x1, 4, 1⟩
/-- COLL_CTL.RES_RETRY: Recomputations after a residue mismatch, 0–7 (R376) (Table 13.7). -/
def F.COLL_COLL_CTL_RES_RETRY : Fld := ⟨7, 0x080, 1, 3, .rw, 0x2, 4, 1⟩
/-- SCRIPT_BASE_LO.ADDR: Script table [31:6] (Table 13.7). -/
def F.COLL_SCRIPT_BASE_LO : Fld := ⟨7, 0x084, 6, 26, .rws, 0x0, 4, 1⟩
/-- SCRIPT_BASE_HI.ADDR: Script table [47:32] (Table 13.7). -/
def F.COLL_SCRIPT_BASE_HI : Fld := ⟨7, 0x088, 0, 16, .rws, 0x0, 4, 1⟩
/-- LAND_BASE_LO.ADDR: Landing area [31:25] (Table 13.7). -/
def F.COLL_LAND_BASE_LO : Fld := ⟨7, 0x08C, 25, 7, .rws, 0x0, 4, 1⟩
/-- LAND_BASE_HI.ADDR: Landing area [47:32] (Table 13.7). -/
def F.COLL_LAND_BASE_HI : Fld := ⟨7, 0x090, 0, 16, .rws, 0x0, 4, 1⟩
/-- COLL_STAT.BUSY: 1: a task is running (Table 13.7). -/
def F.COLL_COLL_STAT_BUSY : Fld := ⟨7, 0x094, 0, 1, .ro, 0x0, 4, 1⟩
/-- COLL_STAT.CHUNKS_OPEN: Chunks holding slots, 0–32 (Table 13.7). -/
def F.COLL_COLL_STAT_CHUNKS_OPEN : Fld := ⟨7, 0x094, 1, 6, .ro, 0x0, 4, 1⟩
/-- COLL_STAT.SCRIPT: Script of the running task (Table 13.7). -/
def F.COLL_COLL_STAT_SCRIPT : Fld := ⟨7, 0x094, 8, 16, .ro, 0x0, 4, 1⟩
/-- CHUNK_CNT.COUNT: Chunks completed; wraps (Table 13.7). -/
def F.COLL_CHUNK_CNT : Fld := ⟨7, 0x098, 0, 32, .ro, 0x0, 4, 1⟩
/-- BLOCK_CNT.COUNT: Blocks delivered to the update unit; wraps (Table 13.7). -/
def F.COLL_BLOCK_CNT : Fld := ⟨7, 0x09C, 0, 32, .ro, 0x0, 4, 1⟩
/-- RES_MISMATCH.COUNT: Residue mismatches (R376); saturates (Table 13.7). -/
def F.COLL_RES_MISMATCH : Fld := ⟨7, 0x0A0, 0, 32, .ro, 0x0, 4, 1⟩
/-- RES_FAIL.COUNT: Chunks abandoned; saturates (Table 13.7). -/
def F.COLL_RES_FAIL : Fld := ⟨7, 0x0A4, 0, 32, .ro, 0x0, 4, 1⟩
/-- TILE_WAIT.COUNT: Cycles that tiles waited for slots (R378); saturates (Table 13.7). -/
def F.COLL_TILE_WAIT : Fld := ⟨7, 0x0A8, 0, 32, .ro, 0x0, 4, 1⟩
/-- SCRIPT_ERR.COUNT: Errors with codes 0x80–0x83; saturates (Table 13.7). -/
def F.COLL_SCRIPT_ERR : Fld := ⟨7, 0x0AC, 0, 32, .ro, 0x0, 4, 1⟩
/-- RACK_ARRIVE.COUNT: RACK operations landed; slice 8 only; wraps (Table 13.7). -/
def F.COLL_RACK_ARRIVE : Fld := ⟨7, 0x0B0, 0, 32, .ro, 0x0, 4, 1⟩
/-- RACK_STRAY.COUNT: Stray RACK operations (R385); saturates (Table 13.7). -/
def F.COLL_RACK_STRAY : Fld := ⟨7, 0x0B4, 0, 32, .ro, 0x0, 4, 1⟩
/-- COLL_CNT_CLR.CLEAR: Write 1: clear the registers at 0x098 to 0x0B4 (Table 13.7). -/
def F.COLL_COLL_CNT_CLR : Fld := ⟨7, 0x0B8, 0, 1, .wo, 0x0, 4, 1⟩

/-! ### LINK page -/
/-- LINK_CTL.ENABLE: 1: the link may train (Table 12.7). -/
def F.LINK_LINK_CTL_ENABLE : Fld := ⟨8, 0x080, 0, 1, .rws, 0x1, 4, 1⟩
/-- LINK_CTL.RETRY_LIMIT: Consecutive retries before FAILED (R360), 1–255 (Table 12.7). -/
def F.LINK_LINK_CTL_RETRY_LIMIT : Fld := ⟨8, 0x080, 8, 8, .rw, 0x10, 4, 1⟩
/-- ROLE.AXIS: 0 S; 1 E; 2 W; 3 V (Table 12.7). -/
def F.LINK_ROLE_AXIS : Fld := ⟨8, 0x084, 0, 2, .rws, 0x0, 4, 1⟩
/-- ROLE.OFFSET: S, E: 1–7; W, V: 0 +1, 1 −1, 2 +4, 3 −4 (Table 12.7). -/
def F.LINK_ROLE_OFFSET : Fld := ⟨8, 0x084, 2, 3, .rws, 0x0, 4, 1⟩
/-- ROLE.MEMBER: Member number (Table 12.7). -/
def F.LINK_ROLE_MEMBER : Fld := ⟨8, 0x084, 5, 1, .rws, 0x0, 4, 1⟩
/-- ROLE.VALID: 1: role in use (Table 12.7). -/
def F.LINK_ROLE_VALID : Fld := ⟨8, 0x084, 15, 1, .rws, 0x0, 4, 1⟩
/-- LINK_STAT.STATE: Table 12.6 (Table 12.7). -/
def F.LINK_LINK_STAT_STATE : Fld := ⟨8, 0x088, 0, 3, .ro, 0x0, 4, 1⟩
/-- LINK_STAT.LIVE: 1: live (Table 12.7). -/
def F.LINK_LINK_STAT_LIVE : Fld := ⟨8, 0x088, 3, 1, .ro, 0x0, 4, 1⟩
/-- LINK_STAT.VER_MAJOR: Version in use, major (Table 12.7). -/
def F.LINK_LINK_STAT_VER_MAJOR : Fld := ⟨8, 0x088, 4, 4, .ro, 0x0, 4, 1⟩
/-- LINK_STAT.VER_MINOR: Version in use, minor (Table 12.7). -/
def F.LINK_LINK_STAT_VER_MINOR : Fld := ⟨8, 0x088, 8, 4, .ro, 0x0, 4, 1⟩
/-- LINK_STAT.PEER_LINK: The peer's link number (Table 12.7). -/
def F.LINK_LINK_STAT_PEER_LINK : Fld := ⟨8, 0x088, 12, 6, .ro, 0x0, 4, 1⟩
/-- LINK_STAT.FPRINT_MISMATCH: R364 (Table 12.7). -/
def F.LINK_LINK_STAT_FPRINT_MISMATCH : Fld := ⟨8, 0x088, 18, 1, .ro, 0x0, 4, 1⟩
/-- LINK_STAT.VERSION_FAIL: R363 (Table 12.7). -/
def F.LINK_LINK_STAT_VERSION_FAIL : Fld := ⟨8, 0x088, 19, 1, .ro, 0x0, 4, 1⟩
/-- PEER_DEV.NUMBER: Peer device number learned in NEGOTIATE (Table 12.7). -/
def F.LINK_PEER_DEV : Fld := ⟨8, 0x08C, 0, 16, .ro, 0x0, 4, 1⟩
/-- DELAY.NS: Measured one-way delay, ns (R77) (Table 12.7). -/
def F.LINK_DELAY : Fld := ⟨8, 0x090, 0, 16, .ro, 0x0, 4, 1⟩
/-- FEC_CORR.COUNT: FEC symbols corrected; saturates (Table 12.7). -/
def F.LINK_FEC_CORR : Fld := ⟨8, 0x094, 0, 32, .ro, 0x0, 4, 1⟩
/-- FEC_UNCORR.COUNT: Uncorrectable codewords; saturates (Table 12.7). -/
def F.LINK_FEC_UNCORR : Fld := ⟨8, 0x098, 0, 32, .ro, 0x0, 4, 1⟩
/-- RETRY_CNT.COUNT: Link retries (R360); saturates (Table 12.7). -/
def F.LINK_RETRY_CNT : Fld := ⟨8, 0x09C, 0, 32, .ro, 0x0, 4, 1⟩
/-- TX_FLITS.COUNT: Flits sent, IDLE excluded; wraps (Table 12.7). -/
def F.LINK_TX_FLITS : Fld := ⟨8, 0x0A0, 0, 32, .ro, 0x0, 4, 1⟩
/-- RX_FLITS.COUNT: Flits received, IDLE excluded; wraps (Table 12.7). -/
def F.LINK_RX_FLITS : Fld := ⟨8, 0x0A4, 0, 32, .ro, 0x0, 4, 1⟩
/-- DOWN_CNT.COUNT: Departures from UP; saturates (Table 12.7). -/
def F.LINK_DOWN_CNT : Fld := ⟨8, 0x0A8, 0, 32, .ro, 0x0, 4, 1⟩
/-- LINK_CNT_CLR.CLEAR: Write 1: clear the registers at 0x094 to 0x0A8 (Table 12.7). -/
def F.LINK_LINK_CNT_CLR : Fld := ⟨8, 0x0AC, 0, 1, .wo, 0x0, 4, 1⟩

/-! ### HEDDLE page -/
/-- AXIS_CFG.N_S: n_S, 1–8 (Table 12.9). -/
def F.HEDDLE_AXIS_CFG_N_S : Fld := ⟨9, 0x080, 0, 4, .rws, 0x1, 4, 1⟩
/-- AXIS_CFG.N_E: n_E, 1–8 (Table 12.9). -/
def F.HEDDLE_AXIS_CFG_N_E : Fld := ⟨9, 0x080, 4, 4, .rws, 0x1, 4, 1⟩
/-- AXIS_CFG.N_W: n_W, 1–32 (Table 12.9). -/
def F.HEDDLE_AXIS_CFG_N_W : Fld := ⟨9, 0x080, 8, 6, .rws, 0x1, 4, 1⟩
/-- AXIS_CFG.N_V: n_V, 1–32 (Table 12.9). -/
def F.HEDDLE_AXIS_CFG_N_V : Fld := ⟨9, 0x080, 16, 6, .rws, 0x1, 4, 1⟩
/-- HEDDLE_CFG.RETX_US: End-to-end resend timeout, µs (R350) (Table 12.9). -/
def F.HEDDLE_HEDDLE_CFG_RETX_US : Fld := ⟨9, 0x084, 0, 8, .rws, 0x14, 4, 1⟩
/-- HEDDLE_CFG.CRED_PERM: Flits per permanent heddle (R352) (Table 12.9). -/
def F.HEDDLE_HEDDLE_CFG_CRED_PERM : Fld := ⟨9, 0x084, 8, 12, .rws, 0x400, 4, 1⟩
/-- HEDDLE_CFG.CRED_SHARED: Flits per shared heddle (Table 12.9). -/
def F.HEDDLE_HEDDLE_CFG_CRED_SHARED : Fld := ⟨9, 0x084, 20, 12, .rws, 0x100, 4, 1⟩
/-- POOL_STAT.FREE: Shared heddles free (Table 12.9). -/
def F.HEDDLE_POOL_STAT_FREE : Fld := ⟨9, 0x088, 0, 9, .ro, 0x1EA, 4, 1⟩
/-- POOL_STAT.SESSIONS: Shared heddles held by Trellis sessions (Table 12.9). -/
def F.HEDDLE_POOL_STAT_SESSIONS : Fld := ⟨9, 0x088, 16, 9, .ro, 0x0, 4, 1⟩
/-- HEDDLE_SEL.ID: Heddle shown in HVIEW0–3 (Table 12.9). -/
def F.HEDDLE_HEDDLE_SEL : Fld := ⟨9, 0x08C, 0, 10, .rw, 0x0, 4, 1⟩
/-- HVIEW0.STATE: 0 FREE; 1 THREADING; 2 THREADED; 3 RELEASING (Table 12.9). -/
def F.HEDDLE_HVIEW0_STATE : Fld := ⟨9, 0x090, 0, 2, .ro, 0x0, 4, 1⟩
/-- HVIEW0.SESSION: 1: Trellis session heddle (Table 12.9). -/
def F.HEDDLE_HVIEW0_SESSION : Fld := ⟨9, 0x090, 2, 1, .ro, 0x0, 4, 1⟩
/-- HVIEW0.PART: Partition charged (Table 12.9). -/
def F.HEDDLE_HVIEW0_PART : Fld := ⟨9, 0x090, 3, 3, .ro, 0x0, 4, 1⟩
/-- HVIEW0.PEER_ID: The peer's id for the heddle (Table 12.9). -/
def F.HEDDLE_HVIEW0_PEER_ID : Fld := ⟨9, 0x090, 6, 10, .ro, 0x0, 4, 1⟩
/-- HVIEW0.PEER_DEV: Peer device number (Table 12.9). -/
def F.HEDDLE_HVIEW0_PEER_DEV : Fld := ⟨9, 0x090, 16, 16, .ro, 0x0, 4, 1⟩
/-- HVIEW1.SEND_NEXT: Next sequence number to send (Table 12.9). -/
def F.HEDDLE_HVIEW1 : Fld := ⟨9, 0x094, 0, 32, .ro, 0x0, 4, 1⟩
/-- HVIEW2.RECV_NEXT: Next sequence number to receive (Table 12.9). -/
def F.HEDDLE_HVIEW2 : Fld := ⟨9, 0x098, 0, 32, .ro, 0x0, 4, 1⟩
/-- HVIEW3.CREDITS: Credits held (Table 12.9). -/
def F.HEDDLE_HVIEW3_CREDITS : Fld := ⟨9, 0x09C, 0, 12, .ro, 0x0, 4, 1⟩
/-- HVIEW3.UNACKED: Unacknowledged operations, 0–1,024 (Table 12.9). -/
def F.HEDDLE_HVIEW3_UNACKED : Fld := ⟨9, 0x09C, 12, 11, .ro, 0x0, 4, 1⟩
/-- THREAD_CNT.COUNT: Heddles threaded; wraps (Table 12.9). -/
def F.HEDDLE_THREAD_CNT : Fld := ⟨9, 0x0A0, 0, 32, .ro, 0x0, 4, 1⟩
/-- EXHAUST_CNT.COUNT: Records not threaded in a pick (R355); saturates (Table 12.9). -/
def F.HEDDLE_EXHAUST_CNT : Fld := ⟨9, 0x0A4, 0, 32, .ro, 0x0, 4, 1⟩
/-- REFUSE_CNT.COUNT: REFUSE answers received; saturates (Table 12.9). -/
def F.HEDDLE_REFUSE_CNT : Fld := ⟨9, 0x0A8, 0, 32, .ro, 0x0, 4, 1⟩
/-- DUP_CNT.COUNT: Duplicates answered from the ack store (R349); saturates (Table 12.9). -/
def F.HEDDLE_DUP_CNT : Fld := ⟨9, 0x0AC, 0, 32, .ro, 0x0, 4, 1⟩
/-- SEQ_ERR.COUNT: Arrivals discarded outside the window, or for a heddle not threaded to the sender (R349); saturates (Table 12.9). -/
def F.HEDDLE_SEQ_ERR : Fld := ⟨9, 0x0B0, 0, 32, .ro, 0x0, 4, 1⟩
/-- RETX_CNT.COUNT: End-to-end resends (R350); saturates (Table 12.9). -/
def F.HEDDLE_RETX_CNT : Fld := ⟨9, 0x0B4, 0, 32, .ro, 0x0, 4, 1⟩
/-- LATE_DROP.COUNT: Operations discarded by pick tag (R347); saturates (Table 12.9). -/
def F.HEDDLE_LATE_DROP : Fld := ⟨9, 0x0B8, 0, 32, .ro, 0x0, 4, 1⟩
/-- NO_ROUTE.COUNT: Flits discarded without a live route (R340); saturates (Table 12.9). -/
def F.HEDDLE_NO_ROUTE : Fld := ⟨9, 0x0BC, 0, 32, .ro, 0x0, 4, 1⟩
/-- SESS_MAX0–7.MAX: Heddles that Trellis sessions of partition p may hold (R356) (Table 12.9). -/
def F.HEDDLE_SESS_MAX : Fld := ⟨9, 0x0C0, 0, 9, .rws, 0x0, 4, 8⟩
/-- HED_CNT_CLR.CLEAR: Write 1: clear the registers at 0x0A0 to 0x0BC (Table 12.9). -/
def F.HEDDLE_HED_CNT_CLR : Fld := ⟨9, 0x0E0, 0, 1, .wo, 0x0, 4, 1⟩

/-! ### HOST page -/
/-- LINK_STAT.SPEED: 1–6: 2.5, 5, 8, 16, 32, 64 GT/s (Table 16.6). -/
def F.HOST_LINK_STAT_SPEED : Fld := ⟨10, 0x080, 0, 3, .ro, 0x0, 4, 1⟩
/-- LINK_STAT.WIDTH: Lanes (Table 16.6). -/
def F.HOST_LINK_STAT_WIDTH : Fld := ⟨10, 0x080, 3, 5, .ro, 0x0, 4, 1⟩
/-- LINK_STAT.LINK_UP: 1: link up (Table 16.6). -/
def F.HOST_LINK_STAT_LINK_UP : Fld := ⟨10, 0x080, 8, 1, .ro, 0x0, 4, 1⟩
/-- LINK_STAT.CXL: 1: CXL negotiated (Table 16.6). -/
def F.HOST_LINK_STAT_CXL : Fld := ⟨10, 0x080, 9, 1, .ro, 0x0, 4, 1⟩
/-- LINK_STAT.CACHE_EN: 1: CXL.cache enabled by the host (Table 16.6). -/
def F.HOST_LINK_STAT_CACHE_EN : Fld := ⟨10, 0x080, 10, 1, .ro, 0x0, 4, 1⟩
/-- LINK_STAT.MEM_EN: 1: CXL.mem enabled by the host (Table 16.6). -/
def F.HOST_LINK_STAT_MEM_EN : Fld := ⟨10, 0x080, 11, 1, .ro, 0x0, 4, 1⟩
/-- HOST_CTL.HWIN_EN: 1: host window usable (R444) (Table 16.6). -/
def F.HOST_HOST_CTL : Fld := ⟨10, 0x084, 0, 1, .rws, 0x0, 4, 1⟩
/-- CMD_CNT.COUNT: Commands completed; wraps (Table 16.6). -/
def F.HOST_CMD_CNT : Fld := ⟨10, 0x088, 0, 32, .ro, 0x0, 4, 1⟩
/-- CMD_ERR.COUNT: Failed commands and doorbell errors; saturates (Table 16.6). -/
def F.HOST_CMD_ERR : Fld := ⟨10, 0x08C, 0, 32, .ro, 0x0, 4, 1⟩
/-- HWIN_ERR.COUNT: Host-window accesses refused or failed; saturates (Table 16.6). -/
def F.HOST_HWIN_ERR : Fld := ⟨10, 0x090, 0, 32, .ro, 0x0, 4, 1⟩
/-- EP_RX.COUNT: Poisoned TLPs received (R451); saturates (Table 16.6). -/
def F.HOST_EP_RX : Fld := ⟨10, 0x094, 0, 32, .ro, 0x0, 4, 1⟩
/-- HOST_CNT_CLR.CLEAR: Write 1: clear 0x088 to 0x094 (Table 16.6). -/
def F.HOST_HOST_CNT_CLR : Fld := ⟨10, 0x098, 0, 1, .wo, 0x0, 4, 1⟩
/-- HWIN*r*_BASE_LO, *r* = 0–7.ADDR: Host address [31:12] (Table 16.6). -/
def F.HOST_HWIN_BASE_LO : Fld := ⟨10, 0x0C0, 12, 20, .rws, 0x0, 16, 8⟩
/-- HWIN*r*_BASE_HI.ADDR: Host address [43:32] (Table 16.6). -/
def F.HOST_HWIN_BASE_HI : Fld := ⟨10, 0x0C4, 0, 12, .rws, 0x0, 16, 8⟩
/-- HWIN*r*_LEN.PAGES: Length in 4 KiB units (Table 16.6). -/
def F.HOST_HWIN_LEN : Fld := ⟨10, 0x0C8, 0, 32, .rws, 0x0, 16, 8⟩
/-- HWIN*r*_CTL.VALID: 1: range in use (Table 16.6). -/
def F.HOST_HWIN_CTL_VALID : Fld := ⟨10, 0x0CC, 0, 1, .rws, 0x0, 16, 8⟩
/-- HWIN*r*_CTL.CACHEABLE: 1: cached through CXL.cache (Table 16.6). -/
def F.HOST_HWIN_CTL_CACHEABLE : Fld := ⟨10, 0x0CC, 1, 1, .rws, 0x0, 16, 8⟩
/-- HWIN*r*_CTL.SHARED: 1: every partition may use it (Table 16.6). -/
def F.HOST_HWIN_CTL_SHARED : Fld := ⟨10, 0x0CC, 2, 1, .rws, 0x0, 16, 8⟩
/-- HWIN*r*_CTL.PART: Owning partition (Table 16.6). -/
def F.HOST_HWIN_CTL_PART : Fld := ⟨10, 0x0CC, 3, 3, .rws, 0x0, 16, 8⟩
/-- HCACHE0–3.BASE: First GiB of DRAM the host may cache (Table 16.6). -/
def F.HOST_HCACHE_BASE : Fld := ⟨10, 0x140, 0, 11, .rws, 0x0, 4, 4⟩
/-- HCACHE0–3.COUNT: Length in GiB (Table 16.6). -/
def F.HOST_HCACHE_COUNT : Fld := ⟨10, 0x140, 11, 11, .rws, 0x0, 4, 4⟩
/-- HCACHE0–3.VALID: 1: range in use (R443) (Table 16.6). -/
def F.HOST_HCACHE_VALID : Fld := ⟨10, 0x140, 31, 1, .rws, 0x0, 4, 4⟩
/-- BAR2_MAP*f*_LO, *f* = 0–8.ADDR: Device address [31:30] (Table 16.6). -/
def F.HOST_BAR2_MAP_LO : Fld := ⟨10, 0x150, 30, 2, .rw, 0x0, 8, 9⟩
/-- BAR2_MAP*f*_HI.ADDR: Device address [47:32] (Table 16.6). -/
def F.HOST_BAR2_MAP_HI : Fld := ⟨10, 0x154, 0, 16, .rw, 0x0, 8, 9⟩
/-- EVT_VEC*t*, *t* = 0–18.VECTOR: PF vector for events of page type t (R445) (Table 16.6). -/
def F.HOST_EVT_VEC : Fld := ⟨10, 0x198, 0, 10, .rw, 0x0, 4, 19⟩

/-! ### FIELD page -/
/-- PORT_CTL.ENABLE: 1: port enabled (Table 15.10). -/
def F.FIELD_PORT_CTL_ENABLE : Fld := ⟨11, 0x080, 0, 1, .rw, 0x0, 4, 1⟩
/-- PORT_CTL.MEDIA: 0 KR2; 1 CR2 (Table 15.10). -/
def F.FIELD_PORT_CTL_MEDIA : Fld := ⟨11, 0x080, 1, 1, .rw, 0x0, 4, 1⟩
/-- PORT_CTL.AN_EN: 1: Clause 73 auto-negotiation (Table 15.10). -/
def F.FIELD_PORT_CTL_AN_EN : Fld := ⟨11, 0x080, 2, 1, .rw, 0x1, 4, 1⟩
/-- PORT_CTL.VLAN_EN: 1: send and accept one 802.1Q tag (Table 15.10). -/
def F.FIELD_PORT_CTL_VLAN_EN : Fld := ⟨11, 0x080, 3, 1, .rw, 0x0, 4, 1⟩
/-- PORT_CTL.PCP: Priority code point sent (Table 15.10). -/
def F.FIELD_PORT_CTL_PCP : Fld := ⟨11, 0x080, 4, 3, .rw, 0x0, 4, 1⟩
/-- PORT_CTL.VID: VLAN identifier (Table 15.10). -/
def F.FIELD_PORT_CTL_VID : Fld := ⟨11, 0x080, 8, 12, .rw, 0x0, 4, 1⟩
/-- PORT_STAT.LINK_UP: 1: link up (Table 15.10). -/
def F.FIELD_PORT_STAT_LINK_UP : Fld := ⟨11, 0x084, 0, 1, .ro, 0x0, 4, 1⟩
/-- PORT_STAT.FEC_LOCK: 1: FEC locked (Table 15.10). -/
def F.FIELD_PORT_STAT_FEC_LOCK : Fld := ⟨11, 0x084, 1, 1, .ro, 0x0, 4, 1⟩
/-- PORT_STAT.PTP_STATE: 0 off; 1 unlocked; 2 locked time receiver; 3 grandmaster (Table 15.10). -/
def F.FIELD_PORT_STAT_PTP_STATE : Fld := ⟨11, 0x084, 2, 2, .ro, 0x0, 4, 1⟩
/-- MTU.BYTES: IP MTU, 1,500–9,000 (Table 15.10). -/
def F.FIELD_MTU : Fld := ⟨11, 0x088, 0, 14, .rw, 0x2328, 4, 1⟩
/-- MAC_LO.ADDR: MAC address [31:0] (Table 15.10). -/
def F.FIELD_MAC_LO : Fld := ⟨11, 0x08C, 0, 32, .ro, 0x0, 4, 1⟩
/-- MAC_HI.ADDR: MAC address [47:32] (Table 15.10). -/
def F.FIELD_MAC_HI : Fld := ⟨11, 0x090, 0, 16, .ro, 0x0, 4, 1⟩
/-- IP4_ADDR.ADDR: IPv4 address (Table 15.10). -/
def F.FIELD_IP4_ADDR : Fld := ⟨11, 0x094, 0, 32, .rw, 0x0, 4, 1⟩
/-- IP4_CFG.PREFIX: Prefix length, 0–32 (Table 15.10). -/
def F.FIELD_IP4_CFG_PREFIX : Fld := ⟨11, 0x098, 0, 6, .rw, 0x0, 4, 1⟩
/-- IP4_CFG.V4_EN: 1: IPv4 enabled (Table 15.10). -/
def F.FIELD_IP4_CFG_V4_EN : Fld := ⟨11, 0x098, 6, 1, .rw, 0x0, 4, 1⟩
/-- IP4_GW.ADDR: IPv4 gateway (Table 15.10). -/
def F.FIELD_IP4_GW : Fld := ⟨11, 0x09C, 0, 32, .rw, 0x0, 4, 1⟩
/-- IP6_ADDR0–3.ADDR: IPv6 address; IP6_ADDR0 holds bits [31:0] (Table 15.10). -/
def F.FIELD_IP6_ADDR : Fld := ⟨11, 0x0A0, 0, 32, .rw, 0x0, 4, 4⟩
/-- IP6_CFG.PREFIX: Prefix length, 0–128 (Table 15.10). -/
def F.FIELD_IP6_CFG_PREFIX : Fld := ⟨11, 0x0B0, 0, 8, .rw, 0x0, 4, 1⟩
/-- IP6_CFG.V6_EN: 1: IPv6 enabled (Table 15.10). -/
def F.FIELD_IP6_CFG_V6_EN : Fld := ⟨11, 0x0B0, 8, 1, .rw, 0x0, 4, 1⟩
/-- PTP_CTL.ROLE: 0 off; 1 time receiver; 2 grandmaster; 3 reserved (Table 15.10). -/
def F.FIELD_PTP_CTL_ROLE : Fld := ⟨11, 0x0B4, 0, 2, .rw, 0x0, 4, 1⟩
/-- PTP_CTL.TRANSPORT: 0 UDP/IPv4; 1 UDP/IPv6; 2 Ethernet; 3 reserved (Table 15.10). -/
def F.FIELD_PTP_CTL_TRANSPORT : Fld := ⟨11, 0x0B4, 2, 2, .rw, 0x0, 4, 1⟩
/-- PTP_CTL.DOMAIN: Domain, 0–127 (Table 15.10). -/
def F.FIELD_PTP_CTL_DOMAIN : Fld := ⟨11, 0x0B4, 4, 8, .rw, 0x0, 4, 1⟩
/-- PTP_CTL.LOG_SYNC: logSyncInterval, signed (Table 15.10). -/
def F.FIELD_PTP_CTL_LOG_SYNC : Fld := ⟨11, 0x0B4, 12, 4, .rw, 0x0, 4, 1⟩
/-- PTP_CTL.LOG_ANNOUNCE: logAnnounceInterval (Table 15.10). -/
def F.FIELD_PTP_CTL_LOG_ANNOUNCE : Fld := ⟨11, 0x0B4, 16, 4, .rw, 0x1, 4, 1⟩
/-- PTP_CTL.LOG_DELAY_REQ: logMinDelayReqInterval (Table 15.10). -/
def F.FIELD_PTP_CTL_LOG_DELAY_REQ : Fld := ⟨11, 0x0B4, 20, 4, .rw, 0x0, 4, 1⟩
/-- PTP_CTL.PRIORITY1: priority1 (Table 15.10). -/
def F.FIELD_PTP_CTL_PRIORITY1 : Fld := ⟨11, 0x0B4, 24, 8, .rw, 0x80, 4, 1⟩
/-- PTP_OFFSET.NS: Last offset from the time transmitter, ns, signed; saturates (Table 15.10). -/
def F.FIELD_PTP_OFFSET : Fld := ⟨11, 0x0B8, 0, 32, .ro, 0x0, 4, 1⟩
/-- PTP_PATH.NS: Mean path delay, ns (Table 15.10). -/
def F.FIELD_PTP_PATH : Fld := ⟨11, 0x0BC, 0, 32, .ro, 0x0, 4, 1⟩
/-- RX_FRAMES.COUNT: Frames received; wraps (Table 15.10). -/
def F.FIELD_RX_FRAMES : Fld := ⟨11, 0x0C0, 0, 32, .ro, 0x0, 4, 1⟩
/-- TX_FRAMES.COUNT: Frames sent; wraps (Table 15.10). -/
def F.FIELD_TX_FRAMES : Fld := ⟨11, 0x0C4, 0, 32, .ro, 0x0, 4, 1⟩
/-- RX_DROP.COUNT: Frames discarded (R414); saturates (Table 15.10). -/
def F.FIELD_RX_DROP : Fld := ⟨11, 0x0C8, 0, 32, .ro, 0x0, 4, 1⟩
/-- AUTH_FAIL.COUNT: Records discarded under R418; saturates (Table 15.10). -/
def F.FIELD_AUTH_FAIL : Fld := ⟨11, 0x0CC, 0, 32, .ro, 0x0, 4, 1⟩
/-- REPLAY_DROP.COUNT: Records discarded under R419; saturates (Table 15.10). -/
def F.FIELD_REPLAY_DROP : Fld := ⟨11, 0x0D0, 0, 32, .ro, 0x0, 4, 1⟩
/-- PORT_CNT_CLR.CLEAR: Write 1: clear the registers at 0x0C0 to 0x0D0 (Table 15.10). -/
def F.FIELD_PORT_CNT_CLR : Fld := ⟨11, 0x0D4, 0, 1, .wo, 0x0, 4, 1⟩
/-- TR_CTL.ENABLE: 1: Trellis served (Table 15.10). -/
def F.FIELD_TR_CTL_ENABLE : Fld := ⟨11, 0x100, 0, 1, .rws, 0x0, 4, 1⟩
/-- TR_CTL.IDLE_S: Session idle limit, s, 1–255 (R423) (Table 15.10). -/
def F.FIELD_TR_CTL_IDLE_S : Fld := ⟨11, 0x100, 8, 8, .rw, 0xA, 4, 1⟩
/-- TR_CTL.UDP_PORT: Trellis UDP port (Table 15.10). -/
def F.FIELD_TR_CTL_UDP_PORT : Fld := ⟨11, 0x100, 16, 16, .rws, 0x1CF2, 4, 1⟩
/-- SVC0–7.ENABLE: 1: partition p serves Trellis (Table 15.10). -/
def F.FIELD_SVC_ENABLE : Fld := ⟨11, 0x104, 0, 1, .rws, 0x0, 4, 8⟩
/-- SVC0–7.FALLBACK: Default: 0 NONE; 1 HOLD; 2 NO_SURR (Table 15.10). -/
def F.FIELD_SVC_FALLBACK : Fld := ⟨11, 0x104, 1, 2, .rws, 0x0, 4, 8⟩
/-- SVC0–7.AREA_GIB: Service area, in GiB (Table 15.8) (Table 15.10). -/
def F.FIELD_SVC_AREA_GIB : Fld := ⟨11, 0x104, 4, 11, .rws, 0x0, 4, 8⟩
/-- SESS_OPEN.COUNT: Sessions open (Table 15.10). -/
def F.FIELD_SESS_OPEN : Fld := ⟨11, 0x124, 0, 9, .ro, 0x0, 4, 1⟩
/-- REQ_CNT.COUNT: Requests accepted as new; wraps (Table 15.10). -/
def F.FIELD_REQ_CNT : Fld := ⟨11, 0x128, 0, 32, .ro, 0x0, 4, 1⟩
/-- DUP_REPLY.COUNT: Cached replies resent (R426); saturates (Table 15.10). -/
def F.FIELD_DUP_REPLY : Fld := ⟨11, 0x12C, 0, 32, .ro, 0x0, 4, 1⟩
/-- DUP_PENDING.COUNT: Duplicates of pending requests; saturates (Table 15.10). -/
def F.FIELD_DUP_PENDING : Fld := ⟨11, 0x130, 0, 32, .ro, 0x0, 4, 1⟩
/-- DEADLINE_CNT.COUNT: Replies with DEADLINE (R429, R430); saturates (Table 15.10). -/
def F.FIELD_DEADLINE_CNT : Fld := ⟨11, 0x134, 0, 32, .ro, 0x0, 4, 1⟩
/-- BUSY_CNT.COUNT: BUSY replies; saturates (Table 15.10). -/
def F.FIELD_BUSY_CNT : Fld := ⟨11, 0x138, 0, 32, .ro, 0x0, 4, 1⟩
/-- FALLBACK_CNT.COUNT: Fallback replies (R433); saturates (Table 15.10). -/
def F.FIELD_FALLBACK_CNT : Fld := ⟨11, 0x13C, 0, 32, .ro, 0x0, 4, 1⟩
/-- REFUSE_CNT.COUNT: REFUSE records sent; saturates (Table 15.10). -/
def F.FIELD_REFUSE_CNT : Fld := ⟨11, 0x140, 0, 32, .ro, 0x0, 4, 1⟩
/-- TR_CNT_CLR.CLEAR: Write 1: clear the registers at 0x128 to 0x140 (Table 15.10). -/
def F.FIELD_TR_CNT_CLR : Fld := ⟨11, 0x144, 0, 1, .wo, 0x0, 4, 1⟩

/-! ### PICK page -/
/-- PICK_CFG.PERIOD: P in µs, 100–100,000 (R69) (Table 3.9). -/
def F.PICK_PICK_CFG_PERIOD : Fld := ⟨12, 0x080, 0, 17, .rws, 0x3E8, 4, 1⟩
/-- PICK_CFG.SIZE_CLASS: Size class, Table 3.1 (Table 3.9). -/
def F.PICK_PICK_CFG_SIZE_CLASS : Fld := ⟨12, 0x080, 24, 2, .rws, 0x0, 4, 1⟩
/-- PICK_GUARD.GUARD: Guard in µs; 0: default (R74) (Table 3.9). -/
def F.PICK_PICK_GUARD : Fld := ⟨12, 0x084, 0, 17, .rws, 0x0, 4, 1⟩
/-- PICK_SRC.SOURCE: Time source, Table 3.2 (Table 3.9). -/
def F.PICK_PICK_SRC_SOURCE : Fld := ⟨12, 0x088, 0, 3, .rws, 0x1, 4, 1⟩
/-- PICK_SRC.UPLINK: Uplink for FABRIC, 0–35 (Table 3.9). -/
def F.PICK_PICK_SRC_UPLINK : Fld := ⟨12, 0x088, 8, 6, .rws, 0x0, 4, 1⟩
/-- PICK_SRC.UPLINK_ALT: Alternative uplink (Table 3.9). -/
def F.PICK_PICK_SRC_UPLINK_ALT : Fld := ⟨12, 0x088, 16, 6, .rws, 0x0, 4, 1⟩
/-- PICK_SRC.ALT_EN: 1: switch to UPLINK_ALT on loss (Table 3.9). -/
def F.PICK_PICK_SRC_ALT_EN : Fld := ⟨12, 0x088, 22, 1, .rws, 0x0, 4, 1⟩
/-- PICK_SRC.PICKOUT_EN: 1: drive PICK_OUT (R81) (Table 3.9). -/
def F.PICK_PICK_SRC_PICKOUT_EN : Fld := ⟨12, 0x088, 23, 1, .rw, 0x0, 4, 1⟩
/-- PHASE_TOL.TOL: Phase tolerance per link, ns (R82) (Table 3.9). -/
def F.PICK_PHASE_TOL : Fld := ⟨12, 0x08C, 0, 12, .rw, 0x1F4, 4, 1⟩
/-- PICK_NUM_LO.NUM: Pick number [31:0] (Table 3.9). -/
def F.PICK_PICK_NUM_LO : Fld := ⟨12, 0x090, 0, 32, .ro, 0x0, 4, 1⟩
/-- PICK_NUM_HI.NUM: Pick number [47:32] (Table 3.9). -/
def F.PICK_PICK_NUM_HI : Fld := ⟨12, 0x094, 0, 16, .ro, 0x0, 4, 1⟩
/-- WORK_LO.NUM: Work pick number [31:0] (Table 3.9). -/
def F.PICK_WORK_LO : Fld := ⟨12, 0x098, 0, 32, .ro, 0x0, 4, 1⟩
/-- WORK_HI.NUM: Work pick number [47:32] (Table 3.9). -/
def F.PICK_WORK_HI : Fld := ⟨12, 0x09C, 0, 16, .ro, 0x0, 4, 1⟩
/-- PHASE.NS: Time since the current edge, ns (Table 3.9). -/
def F.PICK_PHASE : Fld := ⟨12, 0x0A0, 0, 27, .ro, 0x0, 4, 1⟩
/-- PICK_SET_LO.NUM: Pick number to set, [31:0] (Table 3.9). -/
def F.PICK_PICK_SET_LO : Fld := ⟨12, 0x0A4, 0, 32, .rw, 0x0, 4, 1⟩
/-- PICK_SET_HI.NUM: Pick number to set, [47:32] (Table 3.9). -/
def F.PICK_PICK_SET_HI_NUM : Fld := ⟨12, 0x0A8, 0, 16, .rw, 0x0, 4, 1⟩
/-- PICK_SET_HI.APPLY: Write 1: set at the next edge (R108) (Table 3.9). -/
def F.PICK_PICK_SET_HI_APPLY : Fld := ⟨12, 0x0A8, 31, 1, .wo, 0x0, 4, 1⟩
/-- PTP_EPOCH_LO.NS: EPOCH [31:0], TAI ns (R78) (Table 3.9). -/
def F.PICK_PTP_EPOCH_LO : Fld := ⟨12, 0x0AC, 0, 32, .rws, 0x0, 4, 1⟩
/-- PTP_EPOCH_HI.NS: EPOCH [63:32] (Table 3.9). -/
def F.PICK_PTP_EPOCH_HI : Fld := ⟨12, 0x0B0, 0, 32, .rws, 0x0, 4, 1⟩
/-- SCHED_BASE_LO.ADDR: Schedule ring address [31:6] (Table 3.9). -/
def F.PICK_SCHED_BASE_LO : Fld := ⟨12, 0x0B4, 6, 26, .rws, 0x0, 4, 1⟩
/-- SCHED_BASE_HI.ADDR: Schedule ring address [47:32] (Table 3.9). -/
def F.PICK_SCHED_BASE_HI : Fld := ⟨12, 0x0B8, 0, 16, .rws, 0x0, 4, 1⟩
/-- SCHED_CTL.ENTRY: Entry run by the first work pick after a commit that sets RUN (Table 3.9). -/
def F.PICK_SCHED_CTL_ENTRY : Fld := ⟨12, 0x0BC, 0, 16, .rws, 0x0, 4, 1⟩
/-- SCHED_CTL.RUN: 1: run the schedule; 0: IDLE after the commit (Table 3.9). -/
def F.PICK_SCHED_CTL_RUN : Fld := ⟨12, 0x0BC, 16, 1, .rws, 0x0, 4, 1⟩
/-- SCHED_CTL.RECOVERY_LIMIT: Consecutive recovery picks allowed, 1–15; 0 is rejected with reason RULE (Table 3.9). -/
def F.PICK_SCHED_CTL_RECOVERY_LIMIT : Fld := ⟨12, 0x0BC, 20, 4, .rws, 0x3, 4, 1⟩
/-- SCHED_STAT.CUR_ENTRY: Entry of the current pick (Table 3.9). -/
def F.PICK_SCHED_STAT_CUR_ENTRY : Fld := ⟨12, 0x0C0, 0, 16, .ro, 0x0, 4, 1⟩
/-- SCHED_STAT.STATE: 0 IDLE; 1 RUN; 2 RECOVERY; 3 STALLED (Table 3.9). -/
def F.PICK_SCHED_STAT_STATE : Fld := ⟨12, 0x0C0, 16, 2, .ro, 0x0, 4, 1⟩
/-- SCHED_STAT.RECOV_RUN: Consecutive recovery picks (R103) (Table 3.9). -/
def F.PICK_SCHED_STAT_RECOV_RUN : Fld := ⟨12, 0x0C0, 20, 4, .ro, 0x0, 4, 1⟩
/-- VOTE_STAT.OUTCOME: Outcome of the last pick: 0 COMMIT; 1 LATE (Table 3.9). -/
def F.PICK_VOTE_STAT_OUTCOME : Fld := ⟨12, 0x0C4, 0, 1, .ro, 0x0, 4, 1⟩
/-- VOTE_STAT.LOCAL_LATE: 1: this device voted LATE (Table 3.9). -/
def F.PICK_VOTE_STAT_LOCAL_LATE : Fld := ⟨12, 0x0C4, 1, 1, .ro, 0x0, 4, 1⟩
/-- VOTE_STAT.CONFIRM_LATE: 1: this device confirmed LATE (Table 3.9). -/
def F.PICK_VOTE_STAT_CONFIRM_LATE : Fld := ⟨12, 0x0C4, 2, 1, .ro, 0x0, 4, 1⟩
/-- VOTE_STAT.LOCAL_REASON: Reason bits 0–4 of Table 3.7 (Table 3.9). -/
def F.PICK_VOTE_STAT_LOCAL_REASON : Fld := ⟨12, 0x0C4, 3, 5, .ro, 0x0, 4, 1⟩
/-- VOTE_STAT.FIRST_LINK: First link that delivered LATE; 0x3F: none (Table 3.9). -/
def F.PICK_VOTE_STAT_FIRST_LINK : Fld := ⟨12, 0x0C4, 8, 6, .ro, 0x3F, 4, 1⟩
/-- ABORT_TASK.TASK: Record index of the first overrun task of the last LATE pick (Table 3.9). -/
def F.PICK_ABORT_TASK : Fld := ⟨12, 0x0C8, 0, 12, .ro, 0x0, 4, 1⟩
/-- RECOV_CNT.COUNT: Recovery picks since reset; saturates (Table 3.9). -/
def F.PICK_RECOV_CNT : Fld := ⟨12, 0x0CC, 0, 32, .ro, 0x0, 4, 1⟩
/-- OVERRUN_CNT.COUNT: Overrun tasks since reset; saturates (Table 3.9). -/
def F.PICK_OVERRUN_CNT : Fld := ⟨12, 0x0D0, 0, 32, .ro, 0x0, 4, 1⟩
/-- BUDGET_CNT.COUNT: Tasks past their budget (R85); saturates (Table 3.9). -/
def F.PICK_BUDGET_CNT : Fld := ⟨12, 0x0D4, 0, 32, .ro, 0x0, 4, 1⟩
/-- SRC_STAT.LOCKED: 1: time source locked (Table 3.9). -/
def F.PICK_SRC_STAT_LOCKED : Fld := ⟨12, 0x0D8, 0, 1, .ro, 0x0, 4, 1⟩
/-- SRC_STAT.HOLDOVER: 1: in holdover (R80) (Table 3.9). -/
def F.PICK_SRC_STAT_HOLDOVER : Fld := ⟨12, 0x0D8, 1, 1, .ro, 0x0, 4, 1⟩
/-- SRC_STAT.ACTIVE_LINK: Uplink in use; 0x3F: none (Table 3.9). -/
def F.PICK_SRC_STAT_ACTIVE_LINK : Fld := ⟨12, 0x0D8, 8, 6, .ro, 0x3F, 4, 1⟩
/-- SRC_STAT.ERR_LINK: Last link with a phase error (R82) (Table 3.9). -/
def F.PICK_SRC_STAT_ERR_LINK : Fld := ⟨12, 0x0D8, 16, 6, .ro, 0x3F, 4, 1⟩

/-! ### AUDIT page -/
/-- AUD_CTL.REPL_AXES: Bit 0 S, 1 E, 2 W, 3 V: axes of the replica group (R396) (Table 14.11). -/
def F.AUDIT_AUD_CTL_REPL_AXES : Fld := ⟨13, 0x080, 0, 4, .rws, 0x0, 4, 1⟩
/-- AUD_CTL.CMP_EN: 1: run the step-end comparison (Table 14.11). -/
def F.AUDIT_AUD_CTL_CMP_EN : Fld := ⟨13, 0x080, 4, 1, .rws, 0x0, 4, 1⟩
/-- AUD_CTL.RESUME_CHK: 1: check the resume pick (R407) (Table 14.11). -/
def F.AUDIT_AUD_CTL_RESUME_CHK : Fld := ⟨13, 0x080, 5, 1, .rw, 0x0, 4, 1⟩
/-- AUD_CTL.SEAL_LOG2: log2 of the seal ring entries, 4–16 (Table 14.11). -/
def F.AUDIT_AUD_CTL_SEAL_LOG2 : Fld := ⟨13, 0x080, 8, 5, .rws, 0x6, 4, 1⟩
/-- AUD_STAT.CMP_RESULT: 0 NONE; 1 EQUAL; 2 DIVERGED; 3 OPEN (R397) (Table 14.11). -/
def F.AUDIT_AUD_STAT_CMP_RESULT : Fld := ⟨13, 0x084, 0, 2, .ro, 0x0, 4, 1⟩
/-- AUD_STAT.CMP_BUSY: 1: a compare pick is running (Table 14.11). -/
def F.AUDIT_AUD_STAT_CMP_BUSY : Fld := ⟨13, 0x084, 2, 1, .ro, 0x0, 4, 1⟩
/-- AUD_STAT.VERIFY_BUSY: 1: verification running (Table 14.11). -/
def F.AUDIT_AUD_STAT_VERIFY_BUSY : Fld := ⟨13, 0x084, 3, 1, .ro, 0x0, 4, 1⟩
/-- AUD_STAT.VERIFY_RESULT: 0 none; 1 MATCH; 2 MISMATCH; 3 reserved (Table 14.11). -/
def F.AUDIT_AUD_STAT_VERIFY_RESULT : Fld := ⟨13, 0x084, 4, 2, .ro, 0x0, 4, 1⟩
/-- AUD_STAT.SEAL_BUSY: 1: a seal request is in progress (Table 14.11). -/
def F.AUDIT_AUD_STAT_SEAL_BUSY : Fld := ⟨13, 0x084, 6, 1, .ro, 0x0, 4, 1⟩
/-- STEP_NUM.STEP: Step-end index; incremented under R397 (Table 14.11). -/
def F.AUDIT_STEP_NUM : Fld := ⟨13, 0x088, 0, 32, .rw, 0x0, 4, 1⟩
/-- TREE_BASE_LO.ADDR: Tree area [31:12] (Table 14.11). -/
def F.AUDIT_TREE_BASE_LO : Fld := ⟨13, 0x08C, 12, 20, .rws, 0x0, 4, 1⟩
/-- TREE_BASE_HI.ADDR: Tree area [47:32] (Table 14.11). -/
def F.AUDIT_TREE_BASE_HI : Fld := ⟨13, 0x090, 0, 16, .rws, 0x0, 4, 1⟩
/-- SEAL_BASE_LO.ADDR: Seal ring [31:6] (Table 14.11). -/
def F.AUDIT_SEAL_BASE_LO : Fld := ⟨13, 0x094, 6, 26, .rws, 0x0, 4, 1⟩
/-- SEAL_BASE_HI.ADDR: Seal ring [47:32] (Table 14.11). -/
def F.AUDIT_SEAL_BASE_HI : Fld := ⟨13, 0x098, 0, 16, .rws, 0x0, 4, 1⟩
/-- VERIFY_CTL.START: Write 1: verify; cleared on completion (Table 14.11). -/
def F.AUDIT_VERIFY_CTL_START : Fld := ⟨13, 0x09C, 0, 1, .w1s, 0x0, 4, 1⟩
/-- VERIFY_CTL.MODE: 0: rebuild the tree from stored block digests; 1: rehash every valid block, rewrite its digest, then rebuild (Table 14.11). -/
def F.AUDIT_VERIFY_CTL_MODE : Fld := ⟨13, 0x09C, 1, 1, .rw, 0x0, 4, 1⟩
/-- IMAGE_DIGEST0–7.DIGEST: Program image digest; IMAGE_DIGEST0 holds bits [31:0] (Table 14.11). -/
def F.AUDIT_IMAGE_DIGEST : Fld := ⟨13, 0x0A0, 0, 32, .rws, 0x0, 4, 8⟩
/-- WD_START0–7.DIGEST: Weights digest at the start of step STEP_NUM (Table 14.11). -/
def F.AUDIT_WD_START : Fld := ⟨13, 0x0C0, 0, 32, .ro, 0x0, 4, 8⟩
/-- VERIFY_REF0–7.DIGEST: Expected root; loaded into WD_START on MATCH (Table 14.11). -/
def F.AUDIT_VERIFY_REF : Fld := ⟨13, 0x0E0, 0, 32, .rw, 0x0, 4, 8⟩
/-- WD_PREV0–7.DIGEST: Weights digest at the start of step STEP_NUM − 1 (Table 14.11). -/
def F.AUDIT_WD_PREV : Fld := ⟨13, 0x100, 0, 32, .ro, 0x0, 4, 8⟩
/-- RESUME_WORK_LO.NUM: Resume work pick [31:0] (Table 14.11). -/
def F.AUDIT_RESUME_WORK_LO : Fld := ⟨13, 0x120, 0, 32, .rw, 0x0, 4, 1⟩
/-- RESUME_WORK_HI.NUM: Resume work pick [47:32] (Table 14.11). -/
def F.AUDIT_RESUME_WORK_HI : Fld := ⟨13, 0x124, 0, 16, .rw, 0x0, 4, 1⟩
/-- SEAL_CNT.COUNT: Seal records written; wraps (Table 14.11). -/
def F.AUDIT_SEAL_CNT : Fld := ⟨13, 0x128, 0, 32, .ro, 0x0, 4, 1⟩
/-- SEAL_ERR.COUNT: Records with CODE ≠ 0; saturates (Table 14.11). -/
def F.AUDIT_SEAL_ERR : Fld := ⟨13, 0x12C, 0, 32, .ro, 0x0, 4, 1⟩
/-- CMP_CNT.COUNT: Compare picks committed; wraps (Table 14.11). -/
def F.AUDIT_CMP_CNT : Fld := ⟨13, 0x130, 0, 32, .ro, 0x0, 4, 1⟩
/-- DIVERGE_CNT.COUNT: Comparisons ending DIVERGED or OPEN; saturates (Table 14.11). -/
def F.AUDIT_DIVERGE_CNT : Fld := ⟨13, 0x134, 0, 32, .ro, 0x0, 4, 1⟩
/-- HASH_BYTES.COUNT: Bytes hashed by the audit unit, in 4 KiB units; wraps (Table 14.11). -/
def F.AUDIT_HASH_BYTES : Fld := ⟨13, 0x138, 0, 32, .ro, 0x0, 4, 1⟩
/-- AUD_CNT_CLR.CLEAR: Write 1: clear the registers at 0x128 to 0x138 (Table 14.11). -/
def F.AUDIT_AUD_CNT_CLR : Fld := ⟨13, 0x13C, 0, 1, .wo, 0x0, 4, 1⟩

/-! ### MGMT page -/
/-- MGMT_STAT.BOOT_STATE: 0 ROM; 1 FIRMWARE; 2 DONE; 3 RECOVERY (Table 17.10). -/
def F.MGMT_MGMT_STAT_BOOT_STATE : Fld := ⟨14, 0x080, 0, 3, .ro, 0x0, 4, 1⟩
/-- MGMT_STAT.SLOT: 0 A; 1 B (Table 17.10). -/
def F.MGMT_MGMT_STAT_SLOT : Fld := ⟨14, 0x080, 3, 1, .ro, 0x0, 4, 1⟩
/-- MGMT_STAT.SVN: SVN of the running image (Table 17.10). -/
def F.MGMT_MGMT_STAT_SVN : Fld := ⟨14, 0x080, 4, 7, .ro, 0x0, 4, 1⟩
/-- MGMT_STAT.CORES_UP: Bit i: core i runs (Table 17.10). -/
def F.MGMT_MGMT_STAT_CORES_UP : Fld := ⟨14, 0x080, 11, 4, .ro, 0x0, 4, 1⟩
/-- BOOT_CTL.BOOT_DONE: R458 (Table 17.10). -/
def F.MGMT_BOOT_CTL_BOOT_DONE : Fld := ⟨14, 0x084, 0, 1, .w1s, 0x0, 4, 1⟩
/-- BOOT_CTL.WARM_RST: Write 1: warm reset (Table 17.10). -/
def F.MGMT_BOOT_CTL_WARM_RST : Fld := ⟨14, 0x084, 1, 1, .wo, 0x0, 4, 1⟩
/-- FW_VER.VERSION: FW_VERSION of the running image (Table 17.10). -/
def F.MGMT_FW_VER : Fld := ⟨14, 0x088, 0, 32, .ro, 0x0, 4, 1⟩
/-- PART_RST.PART: Partition reset (R464) (Table 17.10). -/
def F.MGMT_PART_RST : Fld := ⟨14, 0x08C, 0, 8, .w1s, 0x0, 4, 1⟩
/-- SB_CTL.WR_EN: 1: sideband writes allowed (R467) (Table 17.10). -/
def F.MGMT_SB_CTL : Fld := ⟨14, 0x090, 0, 1, .rwl, 0x0, 4, 1⟩
/-- WDOG.TIMEOUT_MS: 0: off (R455) (Table 17.10). -/
def F.MGMT_WDOG_TIMEOUT_MS : Fld := ⟨14, 0x094, 0, 16, .rwl, 0x0, 4, 1⟩
/-- WDOG.KICK: Write 1: restart the count (Table 17.10). -/
def F.MGMT_WDOG_KICK : Fld := ⟨14, 0x094, 16, 1, .wo, 0x0, 4, 1⟩
/-- WDOG_CNT.COUNT: Expiries; saturates (Table 17.10). -/
def F.MGMT_WDOG_CNT : Fld := ⟨14, 0x098, 0, 32, .ro, 0x0, 4, 1⟩
/-- MGMT_ECC.CORR: Corrected SRAM errors; saturates (Table 17.10). -/
def F.MGMT_MGMT_ECC_CORR : Fld := ⟨14, 0x09C, 0, 16, .ro, 0x0, 4, 1⟩
/-- MGMT_ECC.UNCORR: Uncorrectable errors; saturates (Table 17.10). -/
def F.MGMT_MGMT_ECC_UNCORR : Fld := ⟨14, 0x09C, 16, 16, .ro, 0x0, 4, 1⟩
/-- MGMT_CNT_CLR.CLEAR: Write 1: clear 0x098 to 0x09C (Table 17.10). -/
def F.MGMT_MGMT_CNT_CLR : Fld := ⟨14, 0x0A0, 0, 1, .wo, 0x0, 4, 1⟩

/-! ### POWER page -/
/-- ENV_CTL.ENVELOPE: 0 A; 1 B; 2 C (R478) (Table 18.16). -/
def F.POWER_ENV_CTL : Fld := ⟨15, 0x080, 0, 2, .rws, 0x0, 4, 1⟩
/-- PWR_STAT.ENV_ACTIVE: Envelope in effect (Table 18.16). -/
def F.POWER_PWR_STAT_ENV_ACTIVE : Fld := ⟨15, 0x084, 0, 2, .ro, 0x0, 4, 1⟩
/-- PWR_STAT.STATE: 0 ACTIVE; 1 ENTERING; 2 DORMANT; 3 WAKING; 4 SHUTDOWN (Table 18.16). -/
def F.POWER_PWR_STAT_STATE : Fld := ⟨15, 0x084, 2, 3, .ro, 0x0, 4, 1⟩
/-- PWR_STAT.SAG: 1: sag clock active (R481) (Table 18.16). -/
def F.POWER_PWR_STAT_SAG : Fld := ⟨15, 0x084, 5, 1, .ro, 0x0, 4, 1⟩
/-- PWR_STAT.THROTTLE: 1: thermal clock active (R485) (Table 18.16). -/
def F.POWER_PWR_STAT_THROTTLE : Fld := ⟨15, 0x084, 6, 1, .ro, 0x0, 4, 1⟩
/-- PWR_STAT.LIMIT: 1: limiter active (R479) (Table 18.16). -/
def F.POWER_PWR_STAT_LIMIT : Fld := ⟨15, 0x084, 7, 1, .ro, 0x0, 4, 1⟩
/-- PWR_STAT.HOLDUP: 1: ride-through (R482) (Table 18.16). -/
def F.POWER_PWR_STAT_HOLDUP : Fld := ⟨15, 0x084, 8, 1, .ro, 0x0, 4, 1⟩
/-- CLK_STAT.MHZ: Core clock (R480) (Table 18.16). -/
def F.POWER_CLK_STAT : Fld := ⟨15, 0x088, 0, 12, .ro, 0x5DC, 4, 1⟩
/-- VIN_STAT.VIN: VIN, 10 mV units (Table 18.16). -/
def F.POWER_VIN_STAT_VIN : Fld := ⟨15, 0x08C, 0, 13, .ro, 0x0, 4, 1⟩
/-- VIN_STAT.VSTBY: VSTBY, 10 mV units (Table 18.16). -/
def F.POWER_VIN_STAT_VSTBY : Fld := ⟨15, 0x08C, 16, 9, .ro, 0x0, 4, 1⟩
/-- PWR_IN.W: Input power, 1 ms average, W (Table 18.16). -/
def F.POWER_PWR_IN : Fld := ⟨15, 0x090, 0, 16, .ro, 0x0, 4, 1⟩
/-- PWR_PEAK.W: Largest 1 ms average since the last clear, W (Table 18.16). -/
def F.POWER_PWR_PEAK : Fld := ⟨15, 0x094, 0, 16, .ro, 0x0, 4, 1⟩
/-- THERM_CFG.WARN: °C, 70–105 (R484) (Table 18.16). -/
def F.POWER_THERM_CFG_WARN : Fld := ⟨15, 0x098, 0, 8, .rw, 0x5F, 4, 1⟩
/-- THERM_CFG.THROTTLE: °C, 85–105 (Table 18.16). -/
def F.POWER_THERM_CFG_THROTTLE : Fld := ⟨15, 0x098, 8, 8, .rw, 0x67, 4, 1⟩
/-- TEMP_MAX.TEMP: Hottest die, 1/16 °C, signed (Table 18.16). -/
def F.POWER_TEMP_MAX_TEMP : Fld := ⟨15, 0x09C, 0, 16, .ro, 0x0, 4, 1⟩
/-- TEMP_MAX.DIE: Its die index (Table 18.16). -/
def F.POWER_TEMP_MAX_DIE : Fld := ⟨15, 0x09C, 16, 5, .ro, 0x0, 4, 1⟩
/-- DORM_CTL.ENTER: Write 1: enter Dormant (R488) (Table 18.16). -/
def F.POWER_DORM_CTL_ENTER : Fld := ⟨15, 0x0A0, 0, 1, .w1s, 0x0, 4, 1⟩
/-- DORM_CTL.WAKE: Write 1: wake (R490) (Table 18.16). -/
def F.POWER_DORM_CTL_WAKE : Fld := ⟨15, 0x0A0, 1, 1, .w1s, 0x0, 4, 1⟩
/-- DORM_CTL.WAKE_ON_PIN: 1: WAKE_N wakes (Table 18.16). -/
def F.POWER_DORM_CTL_WAKE_ON_PIN : Fld := ⟨15, 0x0A0, 2, 1, .rw, 0x1, 4, 1⟩
/-- DORM_CTL.WAKE_ON_REQ: 1: a Trellis REQUEST wakes (Table 18.16). -/
def F.POWER_DORM_CTL_WAKE_ON_REQ : Fld := ⟨15, 0x0A0, 3, 1, .rw, 0x0, 4, 1⟩
/-- SAG_CNT.COUNT: Sags; saturates (Table 18.16). -/
def F.POWER_SAG_CNT : Fld := ⟨15, 0x0A4, 0, 32, .ro, 0x0, 4, 1⟩
/-- SAG_MAX_NS.NS: Longest sag since the last clear, ns; saturates (Table 18.16). -/
def F.POWER_SAG_MAX_NS : Fld := ⟨15, 0x0A8, 0, 32, .ro, 0x0, 4, 1⟩
/-- LIMIT_MS.COUNT: Windows with the limiter active (R479); saturates (Table 18.16). -/
def F.POWER_LIMIT_MS : Fld := ⟨15, 0x0AC, 0, 32, .ro, 0x0, 4, 1⟩
/-- THROTTLE_CNT.COUNT: Throttling starts; saturates (Table 18.16). -/
def F.POWER_THROTTLE_CNT : Fld := ⟨15, 0x0B0, 0, 32, .ro, 0x0, 4, 1⟩
/-- DORM_CNT.COUNT: Dormant entries; wraps (Table 18.16). -/
def F.POWER_DORM_CNT : Fld := ⟨15, 0x0B4, 0, 32, .ro, 0x0, 4, 1⟩
/-- PWR_CNT_CLR.CLEAR: Write 1: clear 0x094 and 0x0A4 to 0x0B4 (Table 18.16). -/
def F.POWER_PWR_CNT_CLR : Fld := ⟨15, 0x0B8, 0, 1, .wo, 0x0, 4, 1⟩

/-! ### SEC page -/
/-- FUSE_STAT.ARB_COUNT: 0–64 (Table 17.11). -/
def F.SEC_FUSE_STAT_ARB_COUNT : Fld := ⟨16, 0x080, 0, 7, .ro, 0x0, 4, 1⟩
/-- FUSE_STAT.KEY0_REVOKED: Revocations (Table 17.11). -/
def F.SEC_FUSE_STAT_KEY0_REVOKED : Fld := ⟨16, 0x080, 7, 1, .ro, 0x0, 4, 1⟩
/-- FUSE_STAT.KEY1_REVOKED: Revocations (Table 17.11). -/
def F.SEC_FUSE_STAT_KEY1_REVOKED : Fld := ⟨16, 0x080, 8, 1, .ro, 0x0, 4, 1⟩
/-- FUSE_STAT.DEBUG_FUSE: R469 (Table 17.11). -/
def F.SEC_FUSE_STAT_DEBUG_FUSE : Fld := ⟨16, 0x080, 9, 1, .ro, 0x0, 4, 1⟩
/-- FUSE_STAT.ID_KEY: 1: identity key present (Table 17.11). -/
def F.SEC_FUSE_STAT_ID_KEY : Fld := ⟨16, 0x080, 10, 1, .ro, 0x0, 4, 1⟩
/-- ARB_ADVANCE.TARGET: R457 (Table 17.11). -/
def F.SEC_ARB_ADVANCE : Fld := ⟨16, 0x084, 0, 7, .wo, 0x0, 4, 1⟩
/-- KEY_REVOKE.SLOT: R459 (Table 17.11). -/
def F.SEC_KEY_REVOKE : Fld := ⟨16, 0x088, 0, 2, .wo, 0x0, 4, 1⟩
/-- SVC_EPOCH0–7.EPOCH: Service key epoch of p (R461) (Table 17.11). -/
def F.SEC_SVC_EPOCH : Fld := ⟨16, 0x090, 0, 16, .rwl, 0x0, 4, 8⟩
/-- SVC_SEL.PART: Partition shown in SVC_PUB (Table 17.11). -/
def F.SEC_SVC_SEL : Fld := ⟨16, 0x0B0, 0, 3, .rw, 0x0, 4, 1⟩
/-- TRUST_BASE_LO.ADDR: Trust area [31:16] (R462) (Table 17.11). -/
def F.SEC_TRUST_BASE_LO : Fld := ⟨16, 0x0B4, 16, 16, .rws, 0x0, 4, 1⟩
/-- TRUST_BASE_HI.ADDR: Trust area [47:32] (Table 17.11). -/
def F.SEC_TRUST_BASE_HI : Fld := ⟨16, 0x0B8, 0, 16, .rws, 0x0, 4, 1⟩
/-- SPDM_ERR.COUNT: SPDM errors sent; saturates (Table 17.11). -/
def F.SEC_SPDM_ERR : Fld := ⟨16, 0x0BC, 0, 32, .ro, 0x0, 4, 1⟩
/-- SVC_PUB0–23.KEY: Bytes 4j to 4j + 3 of x ‖ y, byte 4j in bits [7:0] (Table 17.11). -/
def F.SEC_SVC_PUB : Fld := ⟨16, 0x0C0, 0, 32, .ro, 0x0, 4, 24⟩
/-- CERT_FAIL.COUNT: Chains that failed verification; saturates (Table 17.11). -/
def F.SEC_CERT_FAIL : Fld := ⟨16, 0x120, 0, 32, .ro, 0x0, 4, 1⟩
/-- CERT_NOTIME.COUNT: Chains accepted without a date check; saturates (Table 17.11). -/
def F.SEC_CERT_NOTIME : Fld := ⟨16, 0x124, 0, 32, .ro, 0x0, 4, 1⟩
/-- SEC_CNT_CLR.CLEAR: Write 1: clear 0x0BC, 0x120 and 0x124 (Table 17.11). -/
def F.SEC_SEC_CNT_CLR : Fld := ⟨16, 0x128, 0, 1, .wo, 0x0, 4, 1⟩

/-! ### BOOK page -/
/-- BOOK_STAT.READY: 1: scan done (R472) (Table 17.12). -/
def F.BOOK_BOOK_STAT_READY : Fld := ⟨17, 0x080, 0, 1, .ro, 0x0, 4, 1⟩
/-- BOOK_STAT.STANDBY: 1: main power absent (Table 17.12). -/
def F.BOOK_BOOK_STAT_STANDBY : Fld := ⟨17, 0x080, 1, 1, .ro, 0x0, 4, 1⟩
/-- BOOK_STAT.QUEUED: Records queued, 0–256 (Table 17.12). -/
def F.BOOK_BOOK_STAT_QUEUED : Fld := ⟨17, 0x080, 2, 9, .ro, 0x0, 4, 1⟩
/-- NEXT_SEQ_LO.SEQ: SEQ that the next record written takes, [31:0] (R472) (Table 17.12). -/
def F.BOOK_NEXT_SEQ_LO : Fld := ⟨17, 0x084, 0, 32, .ro, 0x0, 4, 1⟩
/-- NEXT_SEQ_HI.SEQ: SEQ that the next record written takes, [47:32] (Table 17.12). -/
def F.BOOK_NEXT_SEQ_HI : Fld := ⟨17, 0x088, 0, 16, .ro, 0x0, 4, 1⟩
/-- RD_SEL.INDEX: Record shown in RD_DATA (Table 17.12). -/
def F.BOOK_RD_SEL_INDEX : Fld := ⟨17, 0x08C, 0, 17, .rw, 0x0, 4, 1⟩
/-- RD_SEL.COPY: 0 by R470; 1 A; 2 B; 3 reserved (Table 17.12). -/
def F.BOOK_RD_SEL_COPY : Fld := ⟨17, 0x08C, 17, 2, .rw, 0x0, 4, 1⟩
/-- RD_STAT.A_VALID: CRC of each copy matches (Table 17.12). -/
def F.BOOK_RD_STAT_A_VALID : Fld := ⟨17, 0x090, 0, 1, .ro, 0x0, 4, 1⟩
/-- RD_STAT.B_VALID: CRC of each copy matches (Table 17.12). -/
def F.BOOK_RD_STAT_B_VALID : Fld := ⟨17, 0x090, 1, 1, .ro, 0x0, 4, 1⟩
/-- RD_STAT.USED: 0 A; 1 B (Table 17.12). -/
def F.BOOK_RD_STAT_USED : Fld := ⟨17, 0x090, 2, 1, .ro, 0x0, 4, 1⟩
/-- RD_STAT.EMPTY: 1: no valid copy (Table 17.12). -/
def F.BOOK_RD_STAT_EMPTY : Fld := ⟨17, 0x090, 3, 1, .ro, 0x0, 4, 1⟩
/-- FW_CMD.APPEND: Write 1: queue FW_DATA as a FIRMWARE record (Table 17.12). -/
def F.BOOK_FW_CMD : Fld := ⟨17, 0x094, 0, 1, .wo, 0x0, 4, 1⟩
/-- SB_CFG.SMB_ADDR: SMBus address (R468) (Table 17.12). -/
def F.BOOK_SB_CFG : Fld := ⟨17, 0x098, 0, 7, .rw, 0x4C, 4, 1⟩
/-- DROP_CNT.COUNT: Records dropped; saturates (Table 17.12). -/
def F.BOOK_DROP_CNT : Fld := ⟨17, 0x09C, 0, 32, .ro, 0x0, 4, 1⟩
/-- CRC_ERR.COUNT: Copy mismatches (R470); saturates (Table 17.12). -/
def F.BOOK_CRC_ERR : Fld := ⟨17, 0x0A0, 0, 32, .ro, 0x0, 4, 1⟩
/-- SPI_FRAMES.COUNT: Frames accepted; wraps (Table 17.12). -/
def F.BOOK_SPI_FRAMES : Fld := ⟨17, 0x0A4, 0, 32, .ro, 0x0, 4, 1⟩
/-- SPI_ABORT.COUNT: R465; saturates (Table 17.12). -/
def F.BOOK_SPI_ABORT : Fld := ⟨17, 0x0A8, 0, 32, .ro, 0x0, 4, 1⟩
/-- SPI_CLKERR.COUNT: R465; saturates (Table 17.12). -/
def F.BOOK_SPI_CLKERR : Fld := ⟨17, 0x0AC, 0, 32, .ro, 0x0, 4, 1⟩
/-- SMB_ERR.COUNT: R468; saturates (Table 17.12). -/
def F.BOOK_SMB_ERR : Fld := ⟨17, 0x0B0, 0, 32, .ro, 0x0, 4, 1⟩
/-- BOOK_CNT_CLR.CLEAR: Write 1: clear 0x09C to 0x0B0 (Table 17.12). -/
def F.BOOK_BOOK_CNT_CLR : Fld := ⟨17, 0x0B4, 0, 1, .wo, 0x0, 4, 1⟩
/-- RD_DATA0–15.DATA: Bytes 4j to 4j + 3 of the selected record (Table 17.12). -/
def F.BOOK_RD_DATA : Fld := ⟨17, 0x0C0, 0, 32, .ro, 0x0, 4, 16⟩
/-- FW_DATA0–6.DATA: DATA of the next FIRMWARE record (Table 17.12). -/
def F.BOOK_FW_DATA : Fld := ⟨17, 0x100, 0, 32, .rw, 0x0, 4, 7⟩

/-! ### PART page -/
/-- PART_CTL.ENABLE: 1: partition exists; virtual function p + 1 is presented (Table 2.10). -/
def F.PART_PART_CTL_ENABLE : Fld := ⟨18, 0x080, 0, 1, .rws, 0x0, 4, 1⟩
/-- PART_CTL.SERVICE: 1: the partition may use the latency-critical privileged read class (Table 2.10). -/
def F.PART_PART_CTL_SERVICE : Fld := ⟨18, 0x080, 1, 1, .rws, 0x0, 4, 1⟩
/-- HEDDLE_QUOTA.QUOTA: Shared heddles that the partition may hold (Table 2.10). -/
def F.PART_HEDDLE_QUOTA_QUOTA : Fld := ⟨18, 0x084, 0, 9, .rws, 0x0, 4, 1⟩
/-- HEDDLE_QUOTA.IN_USE: Shared heddles threaded now (Table 2.10). -/
def F.PART_HEDDLE_QUOTA_IN_USE : Fld := ⟨18, 0x084, 16, 9, .ro, 0x0, 4, 1⟩
/-- BLOCKED_CNT.COUNT: Accesses of the partition blocked under R33; saturates (Table 2.10). -/
def F.PART_BLOCKED_CNT : Fld := ⟨18, 0x088, 0, 32, .ro, 0x0, 4, 1⟩
/-- CORE_MAP0–15.CORES: Bit b of CORE_MAPj: core 32j + b belongs to the partition (Table 2.10). -/
def F.PART_CORE_MAP : Fld := ⟨18, 0x100, 0, 32, .rws, 0x0, 4, 16⟩
/-- DRAM_RNG0–7.BASE: First GiB of the range, 0–1,535 (Table 2.10). -/
def F.PART_DRAM_RNG_BASE : Fld := ⟨18, 0x140, 0, 11, .rws, 0x0, 4, 8⟩
/-- DRAM_RNG0–7.COUNT: Length in GiB, 1–1,536 (Table 2.10). -/
def F.PART_DRAM_RNG_COUNT : Fld := ⟨18, 0x140, 11, 11, .rws, 0x0, 4, 8⟩
/-- DRAM_RNG0–7.SHARED_RO: 1: the range is shared read-only under R32 (Table 2.10). -/
def F.PART_DRAM_RNG_SHARED_RO : Fld := ⟨18, 0x140, 30, 1, .rws, 0x0, 4, 8⟩
/-- DRAM_RNG0–7.VALID: 1: the range is in use (Table 2.10). -/
def F.PART_DRAM_RNG_VALID : Fld := ⟨18, 0x140, 31, 1, .rws, 0x0, 4, 8⟩
/-- GRAN_OWN0.GRAN: Bit b: cellar granule b belongs to the partition (Table 2.10). -/
def F.PART_GRAN_OWN0 : Fld := ⟨18, 0x160, 0, 32, .rws, 0x0, 4, 1⟩
/-- GRAN_OWN1.GRAN: Bit b: granule 32 + b belongs to the partition (Table 2.10). -/
def F.PART_GRAN_OWN1 : Fld := ⟨18, 0x164, 0, 16, .rws, 0x0, 4, 1⟩
/-- GRAN_SHRO0.GRAN: Bit b: owned granule b is shared read-only (Table 2.10). -/
def F.PART_GRAN_SHRO0 : Fld := ⟨18, 0x168, 0, 32, .rws, 0x0, 4, 1⟩
/-- GRAN_SHRO1.GRAN: Bit b: owned granule 32 + b is shared read-only (Table 2.10). -/
def F.PART_GRAN_SHRO1 : Fld := ⟨18, 0x16C, 0, 16, .rws, 0x0, 4, 1⟩

/-! ### QUEUE page -/
/-- SQ_BASE_LO.ADDR: SQ host address [31:6] (Table 16.3). -/
def F.QUEUE_SQ_BASE_LO : Fld := ⟨32, 0x000, 6, 26, .rw, 0x0, 4, 1⟩
/-- SQ_BASE_HI.ADDR: SQ host address [63:32] (Table 16.3). -/
def F.QUEUE_SQ_BASE_HI : Fld := ⟨32, 0x004, 0, 32, .rw, 0x0, 4, 1⟩
/-- CQ_BASE_LO.ADDR: CQ host address [31:4] (Table 16.3). -/
def F.QUEUE_CQ_BASE_LO : Fld := ⟨32, 0x008, 4, 28, .rw, 0x0, 4, 1⟩
/-- CQ_BASE_HI.ADDR: CQ host address [63:32] (Table 16.3). -/
def F.QUEUE_CQ_BASE_HI : Fld := ⟨32, 0x00C, 0, 32, .rw, 0x0, 4, 1⟩
/-- Q_CFG.SQ_LOG2: SQ entries 2^SQ_LOG2, 4–12 (Table 16.3). -/
def F.QUEUE_Q_CFG_SQ_LOG2 : Fld := ⟨32, 0x010, 0, 4, .rw, 0x4, 4, 1⟩
/-- Q_CFG.CQ_LOG2: CQ entries 2^CQ_LOG2, 4–12 (Table 16.3). -/
def F.QUEUE_Q_CFG_CQ_LOG2 : Fld := ⟨32, 0x010, 4, 4, .rw, 0x4, 4, 1⟩
/-- Q_CFG.VECTOR: Completion vector of the function (Table 16.3). -/
def F.QUEUE_Q_CFG_VECTOR : Fld := ⟨32, 0x010, 8, 10, .rw, 0x0, 4, 1⟩
/-- Q_CFG.IRQ_EN: 1: send the vector after each completion (Table 16.3). -/
def F.QUEUE_Q_CFG_IRQ_EN : Fld := ⟨32, 0x010, 18, 1, .rw, 0x0, 4, 1⟩
/-- Q_CFG.ENABLE: 1: queue runs (Table 16.3). -/
def F.QUEUE_Q_CFG_ENABLE : Fld := ⟨32, 0x010, 31, 1, .rw, 0x0, 4, 1⟩
/-- SQ_TAIL.TAIL: Doorbell: index after the last submitted command (Table 16.3). -/
def F.QUEUE_SQ_TAIL : Fld := ⟨32, 0x014, 0, 12, .rw, 0x0, 4, 1⟩
/-- CQ_HEAD.HEAD: Doorbell: index of the next entry the host will read (Table 16.3). -/
def F.QUEUE_CQ_HEAD : Fld := ⟨32, 0x018, 0, 12, .rw, 0x0, 4, 1⟩
/-- Q_STAT.SQ_HEAD: Next command to execute (Table 16.3). -/
def F.QUEUE_Q_STAT_SQ_HEAD : Fld := ⟨32, 0x01C, 0, 12, .ro, 0x0, 4, 1⟩
/-- Q_STAT.ERROR: 1: queue stopped by a doorbell error (Table 16.3). -/
def F.QUEUE_Q_STAT_ERROR : Fld := ⟨32, 0x01C, 12, 1, .ro, 0x0, 4, 1⟩
/-- Q_STAT.BUSY: 1: a command is executing (Table 16.3). -/
def F.QUEUE_Q_STAT_BUSY : Fld := ⟨32, 0x01C, 13, 1, .ro, 0x0, 4, 1⟩

/-! ### The tables -/
/-- The fields of the common header on a page of type `ty` (R47); CFG_CMD is RW on DEVICE only. -/
def commonFlds (ty : Nat) : List Fld :=
  [F.BLK_ID_TYPE ty, F.BLK_ID_INSTANCE ty, F.BLK_ID_DIE ty, F.BLK_VER_MINOR ty, F.BLK_VER_MAJOR ty, F.BLK_VER_ARCH_GEN ty, F.BLK_CAP0 ty, F.BLK_CAP1_HAS_RWS ty, F.BLK_CAP1_HAS_RWL ty, F.BLK_CAP1_PARTITIONED ty, F.BLK_CAP1_SOFT_RESET ty, F.BLK_CAP1_EVT_NUM ty, F.BLK_CTL_SRST ty, F.BLK_CTL_ERR_CLR ty, F.BLK_CTL_SHADOW_VIEW ty, F.BLK_CTL_BLK ty, F.BLK_STAT_READY ty, F.BLK_STAT_STAGE_OPEN ty, F.BLK_STAT_STAGE_ARMED ty, F.BLK_STAT_LOCKED ty, F.BLK_STAT_FENCED ty, F.BLK_STAT_BLK ty, F.EVT_STAT ty, F.EVT_EN ty, F.EVT_SET ty, F.EVT_SEV_INFO_ROUTE ty, F.EVT_SEV_NOTICE_ROUTE ty, F.EVT_SEV_ERROR_ROUTE ty, F.EVT_SEV_FATAL_ROUTE ty, F.EVT_SEV_FATAL_FIXED ty, F.ERR_CNT ty, F.ERR_FIRST ty, F.ERR_INFO_ADDR_HI ty, F.ERR_INFO_CODE ty, F.ERR_INFO_AGENT ty, F.CFG_GEN ty, F.CFG_STAGE ty, F.PICK_LOCAL ty]
  ++ [if ty = 0 then F.CFG_CMD ty else { F.CFG_CMD ty with acc := .ro }]
/-- The block-specific fields of a DEVICE page. -/
def fldsDEVICE : List Fld :=
  [F.DEVICE_DEV_INFO_STEP_NUM, F.DEVICE_DEV_INFO_STEP_LETTER, F.DEVICE_DEV_INFO_GRADE, F.DEVICE_DEV_INFO_STACKS, F.DEVICE_DEV_NUM, F.DEVICE_COMMIT_GEN, F.DEVICE_COMMIT_PICK_HI, F.DEVICE_COMMIT_CTL_ARM, F.DEVICE_COMMIT_CTL_CANCEL, F.DEVICE_COMMIT_CTL_STATE, F.DEVICE_COMMIT_CTL_REASON, F.DEVICE_COMMIT_PAGE_TYPE, F.DEVICE_COMMIT_PAGE_INSTANCE, F.DEVICE_EVT_SUMMARY, F.DEVICE_CFG_FPRINT]
/-- The block-specific fields of a CORE page. -/
def fldsCORE : List Fld :=
  [F.CORE_ARR_CTL_GATE_MODE, F.CORE_ARR_CTL_MUST_MODE, F.CORE_ARR_CTL_IDLE_THRESH, F.CORE_ARR_STAT_A0_BUSY, F.CORE_ARR_STAT_A1_BUSY, F.CORE_ARR_STAT_MVP_BUSY, F.CORE_ARR_STAT_MVP_RSVD, F.CORE_ARR_STAT_MVP_SOLVER, F.CORE_ARR_STAT_A0_ROWS_ON, F.CORE_ARR_STAT_A1_ROWS_ON, F.CORE_A0_BEATS, F.CORE_A1_BEATS, F.CORE_A0_BUBBLES, F.CORE_A1_BUBBLES, F.CORE_A0_HOLD, F.CORE_A1_HOLD, F.CORE_ARR_ECC_CORR, F.CORE_ARR_ECC_UNCORR, F.CORE_MVP_ELEMS, F.CORE_MVP_STALL, F.CORE_MVP_WAIT, F.CORE_ARR_RSVD_CNT, F.CORE_CNT_CLR, F.CORE_A0_LEES_TILES]
  ++ [F.CORE_A1_LEES_TILES, F.CORE_A0_LEES_ELEMS, F.CORE_A1_LEES_ELEMS, F.CORE_EPI_NAN, F.CORE_EPI_OVF, F.CORE_EPI_UNDER, F.CORE_EPI_STALL, F.CORE_LEES_LAST_BANK, F.CORE_LEES_LAST_ARRAY, F.CORE_LEES_LAST_TASK, F.CORE_LEES_LAST_LEES_N, F.CORE_EPI_CNT_CLR, F.CORE_VEC_NAN, F.CORE_VEC_SAT, F.CORE_VEC_WRAP, F.CORE_VEC_DIV0, F.CORE_VEC_OOW, F.CORE_VEC_LEES, F.CORE_VEC_RSVD, F.CORE_VEC_CLIP, F.CORE_VEC_EMPTY, F.CORE_VEC_ECC_CORR, F.CORE_VEC_ECC_UNCORR, F.CORE_VEC_CNT_CLR]
  ++ [F.CORE_IMG_BASE_LO, F.CORE_IMG_BASE_HI, F.CORE_STR_STAT_RUNNING, F.CORE_STR_STAT_WAITING, F.CORE_STR_STAT_RA_SLOTS, F.CORE_STR_ISSUED, F.CORE_STR_RSVD, F.CORE_STR_FETCH_ERR, F.CORE_STR_OOW, F.CORE_STR_DIV0, F.CORE_RA_LINES, F.CORE_RA_FULL, F.CORE_STR_ECC_CORR, F.CORE_STR_ECC_UNCORR, F.CORE_STR_CNT_CLR]
/-- The block-specific fields of a DIE page. -/
def fldsDIE : List Fld :=
  [F.DIE_DIE_STAT, F.DIE_SPL_CE, F.DIE_SPL_UE, F.DIE_SPL_UE_LOC_OFFSET, F.DIE_SPL_UE_LOC_CORE, F.DIE_SPL_UE_LOC_VALID, F.DIE_NOC_RETRY, F.DIE_DIE_CNT_CLR]
/-- The block-specific fields of a CELLAR page. -/
def fldsCELLAR : List Fld :=
  [F.CELLAR_GRAN_MODE, F.CELLAR_GRAN_STAT_MODE, F.CELLAR_GRAN_STAT_FLUSHING, F.CELLAR_ACC_BIND_BASE, F.CELLAR_ACC_BIND_VALID, F.CELLAR_CACHE_CTL, F.CELLAR_HIT_CNT, F.CELLAR_MISS_CNT, F.CELLAR_WB_CNT, F.CELLAR_ACC_DUP, F.CELLAR_ACC_COLLIDE, F.CELLAR_ACC_STALE, F.CELLAR_CEL_ECC_CORR, F.CELLAR_CEL_ECC_UNCORR, F.CELLAR_HSNP_CNT, F.CELLAR_EVB_FWD, F.CELLAR_BISNP_CNT, F.CELLAR_CEL_CNT_CLR]
/-- The block-specific fields of a STACK page. -/
def fldsSTACK : List Fld :=
  [F.STACK_STK_CTL_SCRUB_EN, F.STACK_STK_CTL_WORK_CONSERVE, F.STACK_STK_CTL_SCRUB_HOURS, F.STACK_PRIV_CAP, F.STACK_STK_STAT_SCRUB_POS, F.STACK_STK_STAT_PRIV_EMPTY, F.STACK_CE_CNT, F.STACK_UE_CNT, F.STACK_UE_ADDR_LO, F.STACK_UE_ADDR_HI_ADDR, F.STACK_UE_ADDR_HI_VALID, F.STACK_SCRUB_PASSES, F.STACK_PRIV_CAPPED, F.STACK_RD_BYTES, F.STACK_WR_BYTES, F.STACK_STK_CNT_CLR, F.STACK_REG_RATE, F.STACK_REG_BURST, F.STACK_REG_WAIT]
/-- The block-specific fields of a SOLVER page. -/
def fldsSOLVER : List Fld :=
  [F.SOLVER_SOLV_CTL, F.SOLVER_DESC_BASE_LO, F.SOLVER_DESC_BASE_HI, F.SOLVER_SOLV_STAT_BUSY, F.SOLVER_SOLV_STAT_WAITING, F.SOLVER_SOLV_STAT_MVP_HELD, F.SOLVER_SOLV_STAT_MVP_CORE, F.SOLVER_SOLV_STAT_DESC, F.SOLVER_DONE_CNT, F.SOLVER_CONV_CNT, F.SOLVER_ITERLIM_CNT, F.SOLVER_DEADLINE_CNT, F.SOLVER_FAIL_CNT, F.SOLVER_REG_CNT, F.SOLVER_ITER_SUM, F.SOLVER_LAST_NS, F.SOLVER_SOLV_ECC_CORR, F.SOLVER_SOLV_ECC_UNCORR, F.SOLVER_SOLV_CNT_CLR]
/-- The block-specific fields of a UPDATE page. -/
def fldsUPDATE : List Fld :=
  [F.UPDATE_UPD_CTL_ENABLE, F.UPDATE_UPD_CTL_OPEN_MAX, F.UPDATE_UPD_CTL_REPAIR_TMO, F.UPDATE_BT_BASE_LO, F.UPDATE_BT_BASE_HI, F.UPDATE_LEDGER_BASE_LO, F.UPDATE_LEDGER_BASE_HI, F.UPDATE_DIG_BASE_LO, F.UPDATE_DIG_BASE_HI, F.UPDATE_STEP_BASE_LO, F.UPDATE_STEP_BASE_HI, F.UPDATE_PROG_BASE_LO, F.UPDATE_PROG_BASE_HI, F.UPDATE_APPLY_BASE_LO, F.UPDATE_APPLY_BASE_HI, F.UPDATE_BLOCKS, F.UPDATE_REPAIR_REQ, F.UPDATE_REPAIR_STAT_BUSY, F.UPDATE_REPAIR_STAT_RESULT, F.UPDATE_REPAIR_STAT_REPLICA, F.UPDATE_REPAIR_STAT_QUEUED, F.UPDATE_REPAIR_BLOCK, F.UPDATE_REPAIR_NS, F.UPDATE_OPEN_STAT_OPEN]
  ++ [F.UPDATE_OPEN_STAT_REDO_USED, F.UPDATE_UPD_GROUPS, F.UPDATE_UPD_CLOSED, F.UPDATE_UPD_DUP, F.UPDATE_UPD_GAP, F.UPDATE_UPD_NONFIN, F.UPDATE_REPAIR_OK, F.UPDATE_UNAVAIL_CNT, F.UPDATE_UPD_REJECT, F.UPDATE_UPD_ECC_CORR, F.UPDATE_UPD_ECC_UNCORR, F.UPDATE_UPD_CNT_CLR]
/-- The block-specific fields of a COLL page. -/
def fldsCOLL : List Fld :=
  [F.COLL_COLL_CTL_ENABLE, F.COLL_COLL_CTL_RES_RETRY, F.COLL_SCRIPT_BASE_LO, F.COLL_SCRIPT_BASE_HI, F.COLL_LAND_BASE_LO, F.COLL_LAND_BASE_HI, F.COLL_COLL_STAT_BUSY, F.COLL_COLL_STAT_CHUNKS_OPEN, F.COLL_COLL_STAT_SCRIPT, F.COLL_CHUNK_CNT, F.COLL_BLOCK_CNT, F.COLL_RES_MISMATCH, F.COLL_RES_FAIL, F.COLL_TILE_WAIT, F.COLL_SCRIPT_ERR, F.COLL_RACK_ARRIVE, F.COLL_RACK_STRAY, F.COLL_COLL_CNT_CLR]
/-- The block-specific fields of a LINK page. -/
def fldsLINK : List Fld :=
  [F.LINK_LINK_CTL_ENABLE, F.LINK_LINK_CTL_RETRY_LIMIT, F.LINK_ROLE_AXIS, F.LINK_ROLE_OFFSET, F.LINK_ROLE_MEMBER, F.LINK_ROLE_VALID, F.LINK_LINK_STAT_STATE, F.LINK_LINK_STAT_LIVE, F.LINK_LINK_STAT_VER_MAJOR, F.LINK_LINK_STAT_VER_MINOR, F.LINK_LINK_STAT_PEER_LINK, F.LINK_LINK_STAT_FPRINT_MISMATCH, F.LINK_LINK_STAT_VERSION_FAIL, F.LINK_PEER_DEV, F.LINK_DELAY, F.LINK_FEC_CORR, F.LINK_FEC_UNCORR, F.LINK_RETRY_CNT, F.LINK_TX_FLITS, F.LINK_RX_FLITS, F.LINK_DOWN_CNT, F.LINK_LINK_CNT_CLR]
/-- The block-specific fields of a HEDDLE page. -/
def fldsHEDDLE : List Fld :=
  [F.HEDDLE_AXIS_CFG_N_S, F.HEDDLE_AXIS_CFG_N_E, F.HEDDLE_AXIS_CFG_N_W, F.HEDDLE_AXIS_CFG_N_V, F.HEDDLE_HEDDLE_CFG_RETX_US, F.HEDDLE_HEDDLE_CFG_CRED_PERM, F.HEDDLE_HEDDLE_CFG_CRED_SHARED, F.HEDDLE_POOL_STAT_FREE, F.HEDDLE_POOL_STAT_SESSIONS, F.HEDDLE_HEDDLE_SEL, F.HEDDLE_HVIEW0_STATE, F.HEDDLE_HVIEW0_SESSION, F.HEDDLE_HVIEW0_PART, F.HEDDLE_HVIEW0_PEER_ID, F.HEDDLE_HVIEW0_PEER_DEV, F.HEDDLE_HVIEW1, F.HEDDLE_HVIEW2, F.HEDDLE_HVIEW3_CREDITS, F.HEDDLE_HVIEW3_UNACKED, F.HEDDLE_THREAD_CNT, F.HEDDLE_EXHAUST_CNT, F.HEDDLE_REFUSE_CNT, F.HEDDLE_DUP_CNT, F.HEDDLE_SEQ_ERR]
  ++ [F.HEDDLE_RETX_CNT, F.HEDDLE_LATE_DROP, F.HEDDLE_NO_ROUTE, F.HEDDLE_SESS_MAX, F.HEDDLE_HED_CNT_CLR]
/-- The block-specific fields of a HOST page. -/
def fldsHOST : List Fld :=
  [F.HOST_LINK_STAT_SPEED, F.HOST_LINK_STAT_WIDTH, F.HOST_LINK_STAT_LINK_UP, F.HOST_LINK_STAT_CXL, F.HOST_LINK_STAT_CACHE_EN, F.HOST_LINK_STAT_MEM_EN, F.HOST_HOST_CTL, F.HOST_CMD_CNT, F.HOST_CMD_ERR, F.HOST_HWIN_ERR, F.HOST_EP_RX, F.HOST_HOST_CNT_CLR, F.HOST_HWIN_BASE_LO, F.HOST_HWIN_BASE_HI, F.HOST_HWIN_LEN, F.HOST_HWIN_CTL_VALID, F.HOST_HWIN_CTL_CACHEABLE, F.HOST_HWIN_CTL_SHARED, F.HOST_HWIN_CTL_PART, F.HOST_HCACHE_BASE, F.HOST_HCACHE_COUNT, F.HOST_HCACHE_VALID, F.HOST_BAR2_MAP_LO, F.HOST_BAR2_MAP_HI]
  ++ [F.HOST_EVT_VEC]
/-- The block-specific fields of a FIELD page. -/
def fldsFIELD : List Fld :=
  [F.FIELD_PORT_CTL_ENABLE, F.FIELD_PORT_CTL_MEDIA, F.FIELD_PORT_CTL_AN_EN, F.FIELD_PORT_CTL_VLAN_EN, F.FIELD_PORT_CTL_PCP, F.FIELD_PORT_CTL_VID, F.FIELD_PORT_STAT_LINK_UP, F.FIELD_PORT_STAT_FEC_LOCK, F.FIELD_PORT_STAT_PTP_STATE, F.FIELD_MTU, F.FIELD_MAC_LO, F.FIELD_MAC_HI, F.FIELD_IP4_ADDR, F.FIELD_IP4_CFG_PREFIX, F.FIELD_IP4_CFG_V4_EN, F.FIELD_IP4_GW, F.FIELD_IP6_ADDR, F.FIELD_IP6_CFG_PREFIX, F.FIELD_IP6_CFG_V6_EN, F.FIELD_PTP_CTL_ROLE, F.FIELD_PTP_CTL_TRANSPORT, F.FIELD_PTP_CTL_DOMAIN, F.FIELD_PTP_CTL_LOG_SYNC, F.FIELD_PTP_CTL_LOG_ANNOUNCE]
  ++ [F.FIELD_PTP_CTL_LOG_DELAY_REQ, F.FIELD_PTP_CTL_PRIORITY1, F.FIELD_PTP_OFFSET, F.FIELD_PTP_PATH, F.FIELD_RX_FRAMES, F.FIELD_TX_FRAMES, F.FIELD_RX_DROP, F.FIELD_AUTH_FAIL, F.FIELD_REPLAY_DROP, F.FIELD_PORT_CNT_CLR, F.FIELD_TR_CTL_ENABLE, F.FIELD_TR_CTL_IDLE_S, F.FIELD_TR_CTL_UDP_PORT, F.FIELD_SVC_ENABLE, F.FIELD_SVC_FALLBACK, F.FIELD_SVC_AREA_GIB, F.FIELD_SESS_OPEN, F.FIELD_REQ_CNT, F.FIELD_DUP_REPLY, F.FIELD_DUP_PENDING, F.FIELD_DEADLINE_CNT, F.FIELD_BUSY_CNT, F.FIELD_FALLBACK_CNT, F.FIELD_REFUSE_CNT]
  ++ [F.FIELD_TR_CNT_CLR]
/-- The block-specific fields of a PICK page. -/
def fldsPICK : List Fld :=
  [F.PICK_PICK_CFG_PERIOD, F.PICK_PICK_CFG_SIZE_CLASS, F.PICK_PICK_GUARD, F.PICK_PICK_SRC_SOURCE, F.PICK_PICK_SRC_UPLINK, F.PICK_PICK_SRC_UPLINK_ALT, F.PICK_PICK_SRC_ALT_EN, F.PICK_PICK_SRC_PICKOUT_EN, F.PICK_PHASE_TOL, F.PICK_PICK_NUM_LO, F.PICK_PICK_NUM_HI, F.PICK_WORK_LO, F.PICK_WORK_HI, F.PICK_PHASE, F.PICK_PICK_SET_LO, F.PICK_PICK_SET_HI_NUM, F.PICK_PICK_SET_HI_APPLY, F.PICK_PTP_EPOCH_LO, F.PICK_PTP_EPOCH_HI, F.PICK_SCHED_BASE_LO, F.PICK_SCHED_BASE_HI, F.PICK_SCHED_CTL_ENTRY, F.PICK_SCHED_CTL_RUN, F.PICK_SCHED_CTL_RECOVERY_LIMIT]
  ++ [F.PICK_SCHED_STAT_CUR_ENTRY, F.PICK_SCHED_STAT_STATE, F.PICK_SCHED_STAT_RECOV_RUN, F.PICK_VOTE_STAT_OUTCOME, F.PICK_VOTE_STAT_LOCAL_LATE, F.PICK_VOTE_STAT_CONFIRM_LATE, F.PICK_VOTE_STAT_LOCAL_REASON, F.PICK_VOTE_STAT_FIRST_LINK, F.PICK_ABORT_TASK, F.PICK_RECOV_CNT, F.PICK_OVERRUN_CNT, F.PICK_BUDGET_CNT, F.PICK_SRC_STAT_LOCKED, F.PICK_SRC_STAT_HOLDOVER, F.PICK_SRC_STAT_ACTIVE_LINK, F.PICK_SRC_STAT_ERR_LINK]
/-- The block-specific fields of a AUDIT page. -/
def fldsAUDIT : List Fld :=
  [F.AUDIT_AUD_CTL_REPL_AXES, F.AUDIT_AUD_CTL_CMP_EN, F.AUDIT_AUD_CTL_RESUME_CHK, F.AUDIT_AUD_CTL_SEAL_LOG2, F.AUDIT_AUD_STAT_CMP_RESULT, F.AUDIT_AUD_STAT_CMP_BUSY, F.AUDIT_AUD_STAT_VERIFY_BUSY, F.AUDIT_AUD_STAT_VERIFY_RESULT, F.AUDIT_AUD_STAT_SEAL_BUSY, F.AUDIT_STEP_NUM, F.AUDIT_TREE_BASE_LO, F.AUDIT_TREE_BASE_HI, F.AUDIT_SEAL_BASE_LO, F.AUDIT_SEAL_BASE_HI, F.AUDIT_VERIFY_CTL_START, F.AUDIT_VERIFY_CTL_MODE, F.AUDIT_IMAGE_DIGEST, F.AUDIT_WD_START, F.AUDIT_VERIFY_REF, F.AUDIT_WD_PREV, F.AUDIT_RESUME_WORK_LO, F.AUDIT_RESUME_WORK_HI, F.AUDIT_SEAL_CNT, F.AUDIT_SEAL_ERR]
  ++ [F.AUDIT_CMP_CNT, F.AUDIT_DIVERGE_CNT, F.AUDIT_HASH_BYTES, F.AUDIT_AUD_CNT_CLR]
/-- The block-specific fields of a MGMT page. -/
def fldsMGMT : List Fld :=
  [F.MGMT_MGMT_STAT_BOOT_STATE, F.MGMT_MGMT_STAT_SLOT, F.MGMT_MGMT_STAT_SVN, F.MGMT_MGMT_STAT_CORES_UP, F.MGMT_BOOT_CTL_BOOT_DONE, F.MGMT_BOOT_CTL_WARM_RST, F.MGMT_FW_VER, F.MGMT_PART_RST, F.MGMT_SB_CTL, F.MGMT_WDOG_TIMEOUT_MS, F.MGMT_WDOG_KICK, F.MGMT_WDOG_CNT, F.MGMT_MGMT_ECC_CORR, F.MGMT_MGMT_ECC_UNCORR, F.MGMT_MGMT_CNT_CLR]
/-- The block-specific fields of a POWER page. -/
def fldsPOWER : List Fld :=
  [F.POWER_ENV_CTL, F.POWER_PWR_STAT_ENV_ACTIVE, F.POWER_PWR_STAT_STATE, F.POWER_PWR_STAT_SAG, F.POWER_PWR_STAT_THROTTLE, F.POWER_PWR_STAT_LIMIT, F.POWER_PWR_STAT_HOLDUP, F.POWER_CLK_STAT, F.POWER_VIN_STAT_VIN, F.POWER_VIN_STAT_VSTBY, F.POWER_PWR_IN, F.POWER_PWR_PEAK, F.POWER_THERM_CFG_WARN, F.POWER_THERM_CFG_THROTTLE, F.POWER_TEMP_MAX_TEMP, F.POWER_TEMP_MAX_DIE, F.POWER_DORM_CTL_ENTER, F.POWER_DORM_CTL_WAKE, F.POWER_DORM_CTL_WAKE_ON_PIN, F.POWER_DORM_CTL_WAKE_ON_REQ, F.POWER_SAG_CNT, F.POWER_SAG_MAX_NS, F.POWER_LIMIT_MS, F.POWER_THROTTLE_CNT]
  ++ [F.POWER_DORM_CNT, F.POWER_PWR_CNT_CLR]
/-- The block-specific fields of a SEC page. -/
def fldsSEC : List Fld :=
  [F.SEC_FUSE_STAT_ARB_COUNT, F.SEC_FUSE_STAT_KEY0_REVOKED, F.SEC_FUSE_STAT_KEY1_REVOKED, F.SEC_FUSE_STAT_DEBUG_FUSE, F.SEC_FUSE_STAT_ID_KEY, F.SEC_ARB_ADVANCE, F.SEC_KEY_REVOKE, F.SEC_SVC_EPOCH, F.SEC_SVC_SEL, F.SEC_TRUST_BASE_LO, F.SEC_TRUST_BASE_HI, F.SEC_SPDM_ERR, F.SEC_SVC_PUB, F.SEC_CERT_FAIL, F.SEC_CERT_NOTIME, F.SEC_SEC_CNT_CLR]
/-- The block-specific fields of a BOOK page. -/
def fldsBOOK : List Fld :=
  [F.BOOK_BOOK_STAT_READY, F.BOOK_BOOK_STAT_STANDBY, F.BOOK_BOOK_STAT_QUEUED, F.BOOK_NEXT_SEQ_LO, F.BOOK_NEXT_SEQ_HI, F.BOOK_RD_SEL_INDEX, F.BOOK_RD_SEL_COPY, F.BOOK_RD_STAT_A_VALID, F.BOOK_RD_STAT_B_VALID, F.BOOK_RD_STAT_USED, F.BOOK_RD_STAT_EMPTY, F.BOOK_FW_CMD, F.BOOK_SB_CFG, F.BOOK_DROP_CNT, F.BOOK_CRC_ERR, F.BOOK_SPI_FRAMES, F.BOOK_SPI_ABORT, F.BOOK_SPI_CLKERR, F.BOOK_SMB_ERR, F.BOOK_BOOK_CNT_CLR, F.BOOK_RD_DATA, F.BOOK_FW_DATA]
/-- The block-specific fields of a PART page. -/
def fldsPART : List Fld :=
  [F.PART_PART_CTL_ENABLE, F.PART_PART_CTL_SERVICE, F.PART_HEDDLE_QUOTA_QUOTA, F.PART_HEDDLE_QUOTA_IN_USE, F.PART_BLOCKED_CNT, F.PART_CORE_MAP, F.PART_DRAM_RNG_BASE, F.PART_DRAM_RNG_COUNT, F.PART_DRAM_RNG_SHARED_RO, F.PART_DRAM_RNG_VALID, F.PART_GRAN_OWN0, F.PART_GRAN_OWN1, F.PART_GRAN_SHRO0, F.PART_GRAN_SHRO1]
/-- The block-specific fields of a QUEUE page. -/
def fldsQUEUE : List Fld :=
  [F.QUEUE_SQ_BASE_LO, F.QUEUE_SQ_BASE_HI, F.QUEUE_CQ_BASE_LO, F.QUEUE_CQ_BASE_HI, F.QUEUE_Q_CFG_SQ_LOG2, F.QUEUE_Q_CFG_CQ_LOG2, F.QUEUE_Q_CFG_VECTOR, F.QUEUE_Q_CFG_IRQ_EN, F.QUEUE_Q_CFG_ENABLE, F.QUEUE_SQ_TAIL, F.QUEUE_CQ_HEAD, F.QUEUE_Q_STAT_SQ_HEAD, F.QUEUE_Q_STAT_ERROR, F.QUEUE_Q_STAT_BUSY]

/-- The block-specific fields of a page type (R39). -/
def blockFlds : Nat → List Fld
  | 0 => fldsDEVICE
  | 1 => fldsCORE
  | 2 => fldsDIE
  | 3 => fldsCELLAR
  | 4 => fldsSTACK
  | 5 => fldsSOLVER
  | 6 => fldsUPDATE
  | 7 => fldsCOLL
  | 8 => fldsLINK
  | 9 => fldsHEDDLE
  | 10 => fldsHOST
  | 11 => fldsFIELD
  | 12 => fldsPICK
  | 13 => fldsAUDIT
  | 14 => fldsMGMT
  | 15 => fldsPOWER
  | 16 => fldsSEC
  | 17 => fldsBOOK
  | 18 => fldsPART
  | 32 => fldsQUEUE
  | _ => []

/-- Every field of a page type. -/
def pageFlds (ty : Nat) : List Fld := if ty = 32 then blockFlds ty else commonFlds ty ++ blockFlds ty

/-- The fields at an offset of a page type, each as the field of that one register; none at a reserved offset (R41). -/
def fldsAt (ty off : Nat) : List Fld :=
  (pageFlds ty).filterMap fun f =>
    if f.off ≤ off ∧ (off - f.off) % f.stride = 0 ∧ (off - f.off) / f.stride < f.count then
      some (f.nth ((off - f.off) / f.stride))
    else none

/-- The instances of each page type (Table 2.1, R39); a type that no table names has none. -/
def instances : Nat → Nat
  | 0 => 1 | 1 => 512 | 2 => 16 | 3 => 8 | 4 => 16 | 5 => 16 | 6 => 8 | 7 => 9 | 8 => 36 | 9 => 1 | 10 => 1 | 11 => 2
  | 12 => 1 | 13 => 1 | 14 => 1 | 15 => 1 | 16 => 1 | 17 => 1 | 18 => 8 | _ => 0

/-- The die of an instance (Table 2.1, R19). -/
def dieOf (ty i : Nat) : Nat :=
  match ty with
  | 1 => i / 32
  | 2 => i
  | 3 => 16 + i
  | 4 => i
  | 5 => i
  | 6 => 16 + i
  | 7 => if i < 8 then 16 + i else 24
  | 8 => if i < 32 then 16 + i / 4 else 24
  | _ => 24

/-- The severities of Table 2.5. -/
inductive Sev where
  | info | notice | error | fatal
deriving DecidableEq, Repr

/-! ### Block-specific events -/
/-- Event bit of the DEVICE page. -/
def Ev.DEVICE_COMMIT_LATE : Nat := 8
/-- Event bit of the DEVICE page. -/
def Ev.DEVICE_COMMIT_CANCEL : Nat := 9
/-- Event bit of the PICK page. -/
def Ev.PICK_VOTE_LATE : Nat := 8
/-- Event bit of the PICK page. -/
def Ev.PICK_RECOVERY_EXHAUSTED : Nat := 9
/-- Event bit of the PICK page. -/
def Ev.PICK_SOURCE_LOST : Nat := 10
/-- Event bit of the PICK page. -/
def Ev.PICK_PHASE_ERR : Nat := 11
/-- Event bit of the PICK page. -/
def Ev.PICK_DISSENT : Nat := 12
/-- Event bit of the PICK page. -/
def Ev.PICK_SCHED_BAD : Nat := 13
/-- Event bit of the CORE page. -/
def Ev.CORE_ARR_RSVD : Nat := 8
/-- Event bit of the CORE page. -/
def Ev.CORE_ARR_CORR : Nat := 9
/-- Event bit of the CORE page. -/
def Ev.CORE_ARR_UNCORR : Nat := 10
/-- Event bit of the CORE page. -/
def Ev.CORE_LEES : Nat := 16
/-- Event bit of the CORE page. -/
def Ev.CORE_EPI_NAN : Nat := 17
/-- Event bit of the CORE page. -/
def Ev.CORE_VEC_RSVD : Nat := 20
/-- Event bit of the CORE page. -/
def Ev.CORE_VEC_OOW : Nat := 21
/-- Event bit of the CORE page. -/
def Ev.CORE_VEC_NAN : Nat := 22
/-- Event bit of the CORE page. -/
def Ev.CORE_VEC_CORR : Nat := 23
/-- Event bit of the CORE page. -/
def Ev.CORE_VEC_UNCORR : Nat := 24
/-- Event bit of the CORE page. -/
def Ev.CORE_STR_RSVD : Nat := 26
/-- Event bit of the CORE page. -/
def Ev.CORE_STR_FETCH : Nat := 27
/-- Event bit of the CORE page. -/
def Ev.CORE_STR_CORR : Nat := 28
/-- Event bit of the CORE page. -/
def Ev.CORE_STR_UNCORR : Nat := 29
/-- Event bit of the SOLVER page. -/
def Ev.SOLVER_DEADLINE : Nat := 8
/-- Event bit of the SOLVER page. -/
def Ev.SOLVER_SOLV_FAIL : Nat := 9
/-- Event bit of the SOLVER page. -/
def Ev.SOLVER_PIVOT_REG : Nat := 10
/-- Event bit of the SOLVER page. -/
def Ev.SOLVER_SOLV_CORR : Nat := 11
/-- Event bit of the SOLVER page. -/
def Ev.SOLVER_SOLV_UNCORR : Nat := 12
/-- Event bit of the DIE page. -/
def Ev.DIE_SPL_CORR : Nat := 8
/-- Event bit of the DIE page. -/
def Ev.DIE_SPL_UNCORR : Nat := 9
/-- Event bit of the DIE page. -/
def Ev.DIE_BRIDGE_RETRY : Nat := 10
/-- Event bit of the CELLAR page. -/
def Ev.CELLAR_FLUSH_DONE : Nat := 8
/-- Event bit of the CELLAR page. -/
def Ev.CELLAR_ACC_COLLIDE : Nat := 9
/-- Event bit of the CELLAR page. -/
def Ev.CELLAR_ACC_STALE : Nat := 10
/-- Event bit of the CELLAR page. -/
def Ev.CELLAR_CEL_CORR : Nat := 11
/-- Event bit of the CELLAR page. -/
def Ev.CELLAR_CEL_UNCORR : Nat := 12
/-- Event bit of the CELLAR page. -/
def Ev.CELLAR_MODE_FLUSH_LATE : Nat := 13
/-- Event bit of the STACK page. -/
def Ev.STACK_DRAM_CORR : Nat := 8
/-- Event bit of the STACK page. -/
def Ev.STACK_DRAM_UNCORR : Nat := 9
/-- Event bit of the STACK page. -/
def Ev.STACK_SCRUB_UNCORR : Nat := 10
/-- Event bit of the STACK page. -/
def Ev.STACK_PRIV_CAPPED : Nat := 11
/-- Event bit of the UPDATE page. -/
def Ev.UPDATE_UPD_GAP : Nat := 8
/-- Event bit of the UPDATE page. -/
def Ev.UPDATE_UPD_NONFIN : Nat := 9
/-- Event bit of the UPDATE page. -/
def Ev.UPDATE_REPAIR_DONE : Nat := 10
/-- Event bit of the UPDATE page. -/
def Ev.UPDATE_WEIGHTS_UNAVAILABLE : Nat := 11
/-- Event bit of the UPDATE page. -/
def Ev.UPDATE_CHUNK_REJECT : Nat := 12
/-- Event bit of the UPDATE page. -/
def Ev.UPDATE_UPD_CORR : Nat := 13
/-- Event bit of the UPDATE page. -/
def Ev.UPDATE_UPD_UNCORR : Nat := 14
/-- Event bit of the LINK page. -/
def Ev.LINK_LINK_UP : Nat := 8
/-- Event bit of the LINK page. -/
def Ev.LINK_LINK_DOWN : Nat := 9
/-- Event bit of the LINK page. -/
def Ev.LINK_QUARANTINE : Nat := 10
/-- Event bit of the LINK page. -/
def Ev.LINK_VERSION_FAIL : Nat := 11
/-- Event bit of the LINK page. -/
def Ev.LINK_LINK_RETRY : Nat := 12
/-- Event bit of the LINK page. -/
def Ev.LINK_LINK_FAILED : Nat := 13
/-- Event bit of the HEDDLE page. -/
def Ev.HEDDLE_HEDDLE_EXHAUSTED : Nat := 8
/-- Event bit of the HEDDLE page. -/
def Ev.HEDDLE_THREAD_REFUSED : Nat := 9
/-- Event bit of the HEDDLE page. -/
def Ev.HEDDLE_LATE_DROP : Nat := 10
/-- Event bit of the HEDDLE page. -/
def Ev.HEDDLE_SEQ_ERR : Nat := 11
/-- Event bit of the HEDDLE page. -/
def Ev.HEDDLE_NO_ROUTE : Nat := 12
/-- Event bit of the COLL page. -/
def Ev.COLL_RES_MISMATCH : Nat := 8
/-- Event bit of the COLL page. -/
def Ev.COLL_RES_FAIL : Nat := 9
/-- Event bit of the COLL page. -/
def Ev.COLL_SCRIPT_ERR : Nat := 10
/-- Event bit of the COLL page. -/
def Ev.COLL_RACK_STRAY : Nat := 11
/-- Event bit of the AUDIT page. -/
def Ev.AUDIT_DIVERGED : Nat := 8
/-- Event bit of the AUDIT page. -/
def Ev.AUDIT_DIGEST_OPEN : Nat := 9
/-- Event bit of the AUDIT page. -/
def Ev.AUDIT_SEAL_ERR : Nat := 10
/-- Event bit of the AUDIT page. -/
def Ev.AUDIT_VERIFY_DONE : Nat := 11
/-- Event bit of the FIELD page. -/
def Ev.FIELD_PORT_UP : Nat := 8
/-- Event bit of the FIELD page. -/
def Ev.FIELD_PORT_DOWN : Nat := 9
/-- Event bit of the FIELD page. -/
def Ev.FIELD_PTP_LOCK_LOST : Nat := 10
/-- Event bit of the FIELD page. -/
def Ev.FIELD_AUTH_FAIL : Nat := 11
/-- Event bit of the FIELD page. -/
def Ev.FIELD_DEADLINE : Nat := 12
/-- Event bit of the FIELD page. -/
def Ev.FIELD_FALLBACK : Nat := 13
/-- Event bit of the FIELD page. -/
def Ev.FIELD_SESSION_REFUSED : Nat := 14
/-- Event bit of the HOST page. -/
def Ev.HOST_LINK_DOWN : Nat := 8
/-- Event bit of the HOST page. -/
def Ev.HOST_CMD_ERR : Nat := 9
/-- Event bit of the HOST page. -/
def Ev.HOST_HWIN_ERR : Nat := 10
/-- Event bit of the HOST page. -/
def Ev.HOST_EP_RX : Nat := 11
/-- Event bit of the MGMT page. -/
def Ev.MGMT_WDOG_EXPIRE : Nat := 8
/-- Event bit of the MGMT page. -/
def Ev.MGMT_MGMT_UNCORR : Nat := 9
/-- Event bit of the MGMT page. -/
def Ev.MGMT_MGMT_CORR : Nat := 10
/-- Event bit of the SEC page. -/
def Ev.SEC_BOOT_FALLBACK : Nat := 8
/-- Event bit of the SEC page. -/
def Ev.SEC_ARB_ADVANCED : Nat := 9
/-- Event bit of the SEC page. -/
def Ev.SEC_KEY_REVOKED : Nat := 10
/-- Event bit of the SEC page. -/
def Ev.SEC_SPDM_ERR : Nat := 11
/-- Event bit of the SEC page. -/
def Ev.SEC_CERT_FAIL : Nat := 12
/-- Event bit of the BOOK page. -/
def Ev.BOOK_BOOK_DROP : Nat := 8
/-- Event bit of the BOOK page. -/
def Ev.BOOK_BOOK_CRC : Nat := 9
/-- Event bit of the BOOK page. -/
def Ev.BOOK_SB_FRAME_ERR : Nat := 10
/-- Event bit of the POWER page. -/
def Ev.POWER_SAG : Nat := 8
/-- Event bit of the POWER page. -/
def Ev.POWER_THERM_WARN : Nat := 9
/-- Event bit of the POWER page. -/
def Ev.POWER_THROTTLE : Nat := 10
/-- Event bit of the POWER page. -/
def Ev.POWER_POWER_LIMIT : Nat := 11
/-- Event bit of the POWER page. -/
def Ev.POWER_DORMANT : Nat := 12
/-- Event bit of the POWER page. -/
def Ev.POWER_WAKE : Nat := 13
/-- Event bit of the POWER page. -/
def Ev.POWER_REFCLK_LOST : Nat := 14
/-- Event bit of the POWER page. -/
def Ev.POWER_THERM_CRIT : Nat := 15
/-- Event bit of the PART page. -/
def Ev.PART_BLOCKED : Nat := 8
/-- Part 1 of the block-specific events. -/
def blockEvents1 : List (Nat × Nat × Sev) :=
  [(0, 8, .notice), (0, 9, .info), (12, 8, .notice), (12, 9, .error), (12, 10, .error), (12, 11, .notice), (12, 12, .error), (12, 13, .error), (1, 8, .notice), (1, 9, .info), (1, 10, .error), (1, 16, .info), (1, 17, .info), (1, 20, .notice), (1, 21, .notice), (1, 22, .info)]
/-- Part 2 of the block-specific events. -/
def blockEvents2 : List (Nat × Nat × Sev) :=
  [(1, 23, .info), (1, 24, .error), (1, 26, .notice), (1, 27, .error), (1, 28, .info), (1, 29, .error), (5, 8, .notice), (5, 9, .notice), (5, 10, .info), (5, 11, .info), (5, 12, .error), (2, 8, .info), (2, 9, .error), (2, 10, .notice), (3, 8, .info), (3, 9, .notice)]
/-- Part 3 of the block-specific events. -/
def blockEvents3 : List (Nat × Nat × Sev) :=
  [(3, 10, .notice), (3, 11, .info), (3, 12, .error), (3, 13, .error), (4, 8, .info), (4, 9, .error), (4, 10, .error), (4, 11, .notice), (6, 8, .notice), (6, 9, .notice), (6, 10, .info), (6, 11, .error), (6, 12, .error), (6, 13, .info), (6, 14, .error), (8, 8, .info)]
/-- Part 4 of the block-specific events. -/
def blockEvents4 : List (Nat × Nat × Sev) :=
  [(8, 9, .notice), (8, 10, .error), (8, 11, .error), (8, 12, .info), (8, 13, .error), (9, 8, .error), (9, 9, .notice), (9, 10, .notice), (9, 11, .notice), (9, 12, .error), (7, 8, .notice), (7, 9, .error), (7, 10, .error), (7, 11, .notice), (13, 8, .error), (13, 9, .error)]
/-- Part 5 of the block-specific events. -/
def blockEvents5 : List (Nat × Nat × Sev) :=
  [(13, 10, .notice), (13, 11, .info), (11, 8, .info), (11, 9, .notice), (11, 10, .notice), (11, 11, .notice), (11, 12, .notice), (11, 13, .error), (11, 14, .notice), (10, 8, .error), (10, 9, .notice), (10, 10, .notice), (10, 11, .error), (14, 8, .error), (14, 9, .error), (14, 10, .info)]
/-- Part 6 of the block-specific events. -/
def blockEvents6 : List (Nat × Nat × Sev) :=
  [(16, 8, .notice), (16, 9, .info), (16, 10, .notice), (16, 11, .notice), (16, 12, .notice), (17, 8, .error), (17, 9, .notice), (17, 10, .notice), (15, 8, .notice), (15, 9, .notice), (15, 10, .notice), (15, 11, .info), (15, 12, .info), (15, 13, .info), (15, 14, .fatal), (15, 15, .fatal)]
/-- Part 7 of the block-specific events. -/
def blockEvents7 : List (Nat × Nat × Sev) :=
  [(18, 8, .notice)]
/-- The block-specific events: page type, bit, severity (the event tables of the chapters). -/
def blockEvents : List (Nat × Nat × Sev) :=
  blockEvents1 ++ blockEvents2 ++ blockEvents3 ++ blockEvents4 ++ blockEvents5 ++ blockEvents6 ++ blockEvents7

/-- The common event bits that a page type implements (R53, and the chapter of each page). -/
def commonBits : Nat → List Nat
  | 1 | 6 | 7 => [0, 1, 2, 3, 4, 5]
  | 2 => [0, 4, 5]
  | 3 | 4 | 5 | 13 => [0, 1, 2, 4, 5]
  | 12 => [0, 1, 2, 3, 5]
  | 14 | 17 => [0, 5]
  | _ => [0, 1, 2, 5]

/-- The severity of an event bit of a page type; none for a bit that the page does not implement (R53, Table 2.5). -/
def sevOf (ty b : Nat) : Option Sev :=
  if b < 8 then
    if (commonBits ty).contains b then
      some (match b with
        | 1 => .info
        | 2 | 4 => .error
        | _ => .notice)
    else none
  else (blockEvents.find? fun e => e.1 == ty && e.2.1 == b).map fun e => e.2.2

/-- Number of the highest implemented event bit plus one (R498). -/
def evtNum (ty : Nat) : Nat :=
  blockEvents.foldl (fun m e => if e.1 = ty then max m (e.2.1 + 1) else m) ((commonBits ty).foldl (fun m b => max m (b + 1)) 0)

/-- The role of link `i` after reset: axis, offset, member, valid (Table 12.1). -/
def resetRole (i : Nat) : Nat × Nat × Nat × Nat :=
  if i < 14 then (0, i / 2 + 1, i % 2, 1)
  else if i < 21 then (1, i - 13, 0, 1)
  else if i < 33 then
    let j := (i - 21) % 6
    let ax := if i < 27 then 2 else 3
    if j < 4 then (ax, j / 2, j % 2, 1) else (ax, j - 2, 0, 1)
  else (0, 0, 0, 0)

/-- Offsets 0x100 to 0x17F of the FIELD pages exist on FIELD 0 only (R435). -/
def pageHas (ty i off : Nat) : Bool := !(ty == 11 && i == 1 && decide (0x100 ≤ off) && decide (off < 0x180))

/-- An event bit that a page instance implements (R53); bits 12 to 14 of FIELD exist on FIELD 0 only (R436). -/
def evtImpl (ty i b : Nat) : Bool := (sevOf ty b).isSome && !(ty == 11 && i == 1 && decide (12 ≤ b))

/-- The fields of a page instance at an offset; none at a reserved offset (R41). -/
def regFlds (ty i off : Nat) : List Fld := if pageHas ty i off then fldsAt ty off else []

/-- The cold-reset value of a field on page instance `i` (the Reset columns; Tables 2.10 and 12.1 for PART and LINK.ROLE). The
values that the tables do not state are log entry 2's. -/
def Fld.resetOf (f : Fld) (i : Nat) : Nat :=
  if f.ty = 18 ∧ i = 0 then
    if f.off = 0x080 then (if f.lo = 0 then 1 else 0)
    else if f.off = 0x084 then (if f.lo = 0 then 490 else 0)
    else if 0x100 ≤ f.off ∧ f.off ≤ 0x13C then 0xFFFFFFFF
    else if f.off = 0x140 then (if f.lo = 11 then 1536 else if f.lo = 31 then 1 else 0)
    else if f.off = 0x160 then 0xFFFFFFFF
    else if f.off = 0x164 then 0xFFFF
    else f.reset
  else if f.ty = 8 ∧ f.off = 0x084 then
    let r := resetRole i
    if f.lo = 0 then r.1 else if f.lo = 2 then r.2.1 else if f.lo = 5 then r.2.2.1 else r.2.2.2
  else if f.ty = 10 ∧ 0x198 ≤ f.off ∧ f.off ≤ 0x1E0 then (f.off - 0x198) / 4
  else if f.ty = 16 ∧ f.off = 0x080 ∧ f.lo = 10 then 1
  else if f.ty = 17 ∧ f.off = 0x084 then 1
  else if f.off = 0x000 ∧ f.ty < 32 then
    (if f.lo = 0 then f.ty else if f.lo = 8 then i else dieOf f.ty i)
  else if f.off = 0x00C ∧ f.ty < 32 then
    if f.lo = 0 then (if (pageFlds f.ty).any (fun g => g.acc == .rws && pageHas f.ty i g.off) then 1 else 0)
    else if f.lo = 1 then (if (pageFlds f.ty).any (fun g => g.acc == .rwl) then 1 else 0)
    else if f.lo = 2 then (if f.ty = 1 ∨ f.ty = 5 then 1 else 0)
    else if f.lo = 3 then (if f.ty = 1 ∨ f.ty = 5 ∨ f.ty = 6 ∨ f.ty = 7 then 1 else 0)
    else if f.ty = 11 ∧ i = 1 then 12 else evtNum f.ty
  else f.reset

end Sys2Proof.Machine
end

