-- ==== Sys2Proof/Machine/UnitParts.lean ====
section
/-! DEFINITION. The parts of State that belong to the units outside the cores: solver engines, update slices, collective slices, the
audit unit, the field ports and the service host, power and pins. -/
namespace Sys2Proof.Machine
open Sys2Proof

/-! ### Solver engines -/

/-- A solver engine (R251 to R254): the task it runs, the next and the last descriptor, and whether it waits on WAIT_ADDR. -/
structure SolverState where
  task : Option Nat := none
  next : Nat := 0
  last : Nat := 0                 -- one past the last descriptor index
  startNs : Nat := 0              -- when the running descriptor started
  waiting : Bool := false         -- the next descriptor waits on WAIT_ADDR (R253)
  store : List Nat := []          -- the engine store: the binary32 words of the factor last built (R249)
deriving DecidableEq, Repr, Inhabited

/-! ### Update slices -/

/-- A chunk a slice holds or applies, with the task it belongs to, for an UPDATE task (R327). -/
structure HeldChunk where
  chunk : Chunk
  task : Bool := false
deriving DecidableEq, Repr

/-- A group that has run (R322): its outputs, as they go to their home addresses. -/
structure GroupRun where
  group : Nat
  committed : Bool := false       -- its redo entry is written
  writes : List (Nat × List Byte) := []   -- home address, bytes
  maxima : List (Nat × Nat) := []         -- row, largest |r1| as binary32 bits
  nonfin : Nat := 0
deriving DecidableEq, Repr

/-- An open block (R320). -/
structure OpenBlock where
  step : Nat
  origin : Nat
  chunk : Chunk
  done : List Nat := []           -- the done map
  rho : Tab Nat := []             -- row maxima, binary32 bits
  runs : List GroupRun := []      -- groups running or in the redo store
deriving DecidableEq, Repr

/-- A repair in progress (R330). -/
structure Repair where
  block : Nat
  target : Nat
  replica : Nat := 0              -- index of the replica asked
  sent : Bool := false            -- the request is on its way
  heddle : Option Nat := none     -- a shared heddle threaded for the repair
  verified : Bool := false        -- the received state matched its digest and is being written
  step : Nat := 0
  origin : Nat := 0
  digest : List Byte := []
  agent : Nat := 0
deriving DecidableEq, Repr

/-- One update slice. -/
structure SliceState where
  held : List HeldChunk := []
  blocks : Tab OpenBlock := []
  queue : List (Nat × Nat) := []  -- queued repair requests: block, agent
  repair : Option Repair := none
  answering : List (Nat × Nat × Nat × Nat) := []  -- repair requests of peers not yet answered: device, block, target, heddle
  task : Option Nat := none       -- the UPDATE task it runs
  taskBlocks : List Nat := []     -- its blocks not yet closed or judged duplicate
deriving DecidableEq, Repr

/-- The update unit: slices, and the fences on the ranges of blocks (R330, R332) by block number, each with whether it is an
unavailable fence and its ranges as address and length. -/
structure UpdState where
  slices : Tab SliceState := []
  fences : Tab (Bool × List (Nat × Nat)) := []
deriving DecidableEq, Repr

/-! ### Collective slices -/

/-- A script descriptor (Table 13.1). -/
structure Script where
  idx : Nat := 0
  kind : Nat := 0
  axes : Nat := 0
  ccb : Nat := 0
  aop : Nat := 0
  frac : Nat := 0
  source : Nat := 0
  deliver : Nat := 0
  slice : Nat := 0
  part : Nat := 0
  root : Nat := 0
  src : Nat := 0
  dst : Nat := 0
  firstChunk : Nat := 0
  elems : Nat := 0
  step : Nat := 0
  firstBlock : Nat := 0
  blockChunks : Nat := 0
  waveFirst : Nat := 0
  waveCount : Nat := 0
  listAddr : Nat := 0
  listCount : Nat := 0
deriving DecidableEq, Repr, Inhabited

/-- One transfer of a chunk's fixed sequence: its number, whether the member sends or receives it, whether what is received is
combined with the member's own elements, the peer and the element ranges it carries. -/
structure Xfer where
  q : Nat := 0
  send : Bool := false
  reduce : Bool := false
  exch : Bool := false            -- of an exchange (R382): what is received is kept apart
  peer : Nat := 0                 -- the peer's device number
  ranges : List (Nat × Nat) := [] -- element ranges of the chunk, in ascending root order
deriving DecidableEq, Repr, Inhabited

/-- A chunk in flight on a slice (R377 to R379). -/
structure CChunk where
  data : List Nat := []           -- element encodings
  poison : List Nat := []         -- poisoned elements
  xfers : List Xfer := []         -- its transfers not yet done, in order
  blocks : Tab (List Nat × List Nat) := []  -- received blocks of an exchange, by their first element
  accum : Bool := false           -- its tile is on its way to the accumulation range (R380)
  dead : Bool := false            -- abandoned: it does not complete (R373, R376)
  complete : Bool := false
deriving DecidableEq, Repr, Inhabited

/-- A tile that an epilogue has handed over, waiting for its chunk (R378, R380). -/
structure Tile where
  script : Nat := 0
  seq : Nat := 0
  part : Nat := 0
  tag : Option Tag := none
  ccb : Nat := 0
  data : List Byte := []
  poison : List Nat := []         -- poisoned elements
deriving DecidableEq, Repr

/-- One collective slice. -/
structure CollState where
  task : Option Nat := none
  script : Option Script := none
  rackStep : Nat := 0
  begun : Bool := false           -- the script's own command has begun it
  src : Tab (List Nat × List Nat) := []   -- MEMORY source: the chunks as read when the task started, with their poisoned elements
  chunks : Tab CChunk := []       -- chunks open or complete in this pick
  landed : List (Nat × Nat × List Nat) := [] -- transfers landed and not yet taken: chunk, number, of each add that met residue mismatches how many
  tiles : List Tile := []         -- handed over and not yet started
  delivered : List Nat := []      -- blocks delivered
  compare : Bool := false         -- it runs the comparison of a compare pick (R396, slice 8)
  rackCounts : Tab Nat := []      -- RACK operations landed since the edge, by RACK_STEP (slice 8)
  rackDone : Bool := false
deriving DecidableEq, Repr

/-! ### Audit unit -/

/-- The audit unit (chapter 14): the tree, the compare pick, the seal ring's PRODUCER, VERIFY. -/
structure AuditState where
  root : Nat := 0                 -- the weights digest, 256 bits
  dirty : List Nat := []          -- blocks whose leaves have changed since the last rehash
  comparing : Bool := false       -- the current pick is a compare pick
  openBlock : Bool := false       -- some valid block was not CLOSED at its start (R396)
  flag : Option Bool := none      -- the reduced flag; true: some replica differs
  producerAtEdge : Nat := 0       -- PRODUCER as recorded at the last edge (R401)
  verify : Bool := false          -- a verification runs
  hashed : Nat := 0               -- bytes hashed since HASH_BYTES was cleared
deriving DecidableEq, Repr, Inhabited

/-! ### Field ports and the Trellis service -/

/-- The PTP state of a port (R416, R417). -/
structure PtpState where
  t1 : Nat := 0
  t2 : Nat := 0
  t3 : Nat := 0
  waitFollowUp : Bool := false
  good : Nat := 0                 -- consecutive Syncs within 100 ns
  locked : Bool := false
  delay : Int := 0
  offset : Int := 0
  best : Option (Nat × Nat) := none   -- priority1 and clock identity of the best grandmaster heard
deriving DecidableEq, Repr, Inhabited

/-- The fragments of an OPEN that the device holds (R420). -/
structure Handshake where
  src : NetAddr
  hs : Nat := 0
  frags : Tab (List Byte) := []
  count : Nat := 1
deriving DecidableEq, Repr

/-- What the device keeps of a sub-client (R426, R433). -/
structure SubClient where
  high : Option Nat := none       -- H, the highest accepted sequence number
  window : List Nat := []         -- the accepted ones of H − 3 to H
  cache : Tab (Nat × Nat × List Byte) := []  -- cached replies by sequence number: status, RUN_PICK, body
  lastPlan : Option (Nat × List Byte) := none -- the last OK PLAN reply, with its model
deriving DecidableEq, Repr, Inhabited

/-- A Trellis session (R418 to R424); its keys are in its heddle. -/
structure Session where
  part : Nat := 0
  slot : Nat := 0
  heddle : Nat := 0
  nonce : Nat := 0                -- the device's ephemeral key of the handshake
  opened : List Byte := []        -- the OPEN and ACCEPT bodies, which the client signs
  clientKey : List Byte := []
  confirmed : Bool := false
  addr : Option NetAddr := none   -- the source of the last authenticated record
  recvMax : Nat := 0
  replay : List Nat := []         -- counters accepted within the window of R419
  sendCtr : Nat := 0
  frags : Tab (Tab (List Byte)) := []  -- request fragments held, by 2^32 * sub-client + sequence number
  subs : Tab SubClient := []
deriving DecidableEq, Repr, Inhabited

/-- A request in a batch (R428, R431), with the places that the management cores give it. -/
structure PendReq where
  session : Nat := 0
  slot : Nat := 0
  sub : Nat := 0
  seq : Nat := 0
  op : Nat := 0                   -- 1 SOLVE; 2 EVAL; 3 PLAN
  deadline : Nat := 0
  model : Nat := 0
  fallback : Nat := 0             -- as resolved: 0 NONE; 1 HOLD; 2 NO_SURR
  body : List Byte := []
  bodyAddr : Nat := 0
  dataAddr : Nat := 0             -- SOLVE: the unpacked matrices
  outAddr : Nat := 0              -- SOLVE: x and y in the reply copy
  engine : Nat := 0               -- SOLVE: engine record
  place : Nat := 0                -- SOLVE: its problem within the engine's batch
deriving DecidableEq, Repr, Inhabited

/-- The field ports and the service host. -/
structure FieldState where
  ptp : Tab PtpState := []
  handshakes : List Handshake := []
  opens : Nat := 0                -- sessions opened so far, for the open count of R422
  sessions : Tab Session := []
  queued : Tab (List PendReq) := []    -- by partition: requests of the next work pick's batch
  held : Tab (List PendReq) := []      -- requests accepted after beat-up start, for the batch after it
  batch : Tab (List PendReq) := []     -- the batch of the work pick that runs
deriving DecidableEq, Repr

/-! ### Power, package and pins -/

/-- Power and clocks (chapter 18) and the pins of Table 18.14. -/
structure PowerState where
  vstby : Nat := 0                -- mV
  vin : Nat := 0                  -- mV
  pwrPin : Bool := false          -- the level of PWR_OK
  pwrOk : Bool := false           -- PWR_OK as the device takes it: ignored until VSTBY is in range (R476)
  resetN : Bool := false
  envMhz : Nat := 1500            -- the clock the envelope allows
  limitMhz : Nat := 1500          -- the clock the limiter allows
  thermMhz : Nat := 1500          -- the clock the thermal steps allow
  throttling : Bool := false      -- the thermal clock is active (R485)
  limFalling : Bool := false      -- the limiter lowers the clock, until 97 % (R479)
  limHeld : Bool := false         -- it has held the clock below the envelope's in this 1 ms window
  sagOn : Bool := false           -- VIN has fallen below 42 V and not risen above 43 V since
  sagging : Bool := false         -- the sag clock is active (R481)
  sagOnsetNs : Nat := 0
  sagMin : Nat := 0
  rideThrough : Bool := false
  dies : Tab Int := []            -- junction temperatures, 1/16 °C
  critHeld : Bool := false        -- a warm reset is held in SHUTDOWN (R486)
  faultHeld : Bool := false       -- FAULT_N is low for a shutdown or a loss (R486, Table 18.5)
  wakeHeld : Bool := false        -- a wake trigger came during ENTERING (R490)
  pickOut : Bool := false
  readyPin : Bool := false
  thermN : Bool := true
  alertN : Bool := true
  perstN : Bool := false
deriving DecidableEq, Repr, Inhabited

end Sys2Proof.Machine
end

