-- ==== Sys2Proof/Machine/State.lean ====
section
/-! DEFINITION. The state of one device, the reasons a step can stop, and the state after a cold reset. -/
namespace Sys2Proof.Machine
open Sys2Proof

/-- Why a step could stop with a fault. The device never traps (R29, R217): no meaning raises one, and nothing is lost by it: safe. -/
inductive Fault where
  /-- Raised by no meaning; it keeps the type inhabited. Safe. -/
  | none
deriving DecidableEq, Repr

/-- Why a step could be refused. -/
inductive Refusal where
  /-- The command has no meaning in the model; raised only by an arm of `exec` that is not written yet. Safe. -/
  | notModelled (mnemonic : String)
deriving DecidableEq, Repr

/-- The state of one device: the queue of waiting commands, what it has sent outside, its registers, memories and units. -/
structure State where
  pending : List Instr := []          -- commands that wait, first in first out
  sent : List Msg := []               -- what the device has sent outside, newest first
  free : Nat := 0                     -- the model's own counter of free values
  regs : Tab Nat := []                -- register fields by Fld.key; an unlisted one holds its reset value
  shadow : Tab Nat := []              -- staged values of RWS fields; an unlisted one equals the committed value
  mem : List (Nat × Byte) := []       -- DRAM, cellar and spools by address; an unlisted byte reads 0
  poison : List Nat := []             -- poisoned 64-byte blocks of `mem`, by address / 64
  nor : List (Nat × Byte) := []       -- the SPI NOR flash
  pick : PickState := {}
  armed : Option Armed := none
  locked : Bool := false              -- RWL fields are locked (R46)
  cores : Tab CoreState := []
  solvers : Tab SolverState := []
  cellar : CellarState := {}
  stackCtls : Tab StackState := []
  upd : UpdState := {}
  fab : FabState := {}
  links : Tab LinkState := []
  colls : Tab CollState := []
  audit : AuditState := {}
  field : FieldState := {}
  host : HostState := {}
  mgmt : MgmtState := {}
  book : BookState := {}
  side : SideState := {}
  power : PowerState := {}
deriving DecidableEq, Repr

/-- The device right after a cold reset (R463, the Reset columns of the register tables, R34). Values that the spec does not state
are those of log entries 1 and 2. -/
def State.reset : State := {}

end Sys2Proof.Machine
end

