-- ==== Sys2Proof/Machine/Ops.lean ====
section
/-! DEFINITION. The shared operations on State: register fields (R44, R47), errors (R51, R52), events and their delivery (R53 to R56,
R445), the queue of the cellar book (R472), outputs, and free values. -/
namespace Sys2Proof.Machine
open Sys2Proof

/-! ### Fields -/

/-- What a register field holds (an unlisted field holds its reset value). -/
def State.fld (s : State) (f : Fld) (i : Nat) : Nat := Tab.get (f.resetOf i) s.regs (f.key i)

/-- The state with a register field at `v`, cut to the field's width. -/
def State.setFld (s : State) (f : Fld) (i v : Nat) : State := { s with regs := Tab.set s.regs (f.key i) (v % 2 ^ f.w) }

/-- A one-bit field as a Bool. -/
def State.flag (s : State) (f : Fld) (i : Nat) : Bool := s.fld f i == 1

/-- A counter that saturates, `n` up. -/
def State.addSat (s : State) (f : Fld) (i n : Nat) : State := s.setFld f i (satAdd (2 ^ f.w - 1) (s.fld f i) n)

/-- A counter that wraps, `n` up. -/
def State.addWrap (s : State) (f : Fld) (i n : Nat) : State := s.setFld f i (s.fld f i + n)

/-- A field of a low register and the high part in a second one, as one number (`lo` counts from bit `f.lo`). -/
def State.fldPair (s : State) (lo hi : Fld) (i : Nat) : Nat := s.fld lo i * 2 ^ lo.lo + s.fld hi i * 2 ^ 32

/-- The staged value of an RWS field (R57: unlisted means equal to the committed value). -/
def State.staged (s : State) (f : Fld) (i : Nat) : Nat := Tab.get (s.fld f i) s.shadow (f.key i)

/-- The state with a staged value. -/
def State.setStaged (s : State) (f : Fld) (i v : Nat) : State :=
  { s with shadow := Tab.set s.shadow (f.key i) (v % 2 ^ f.w) }

/-- The state with an output sent. -/
def State.emit (s : State) (m : Msg) : State := { s with sent := m :: s.sent }

/-- Every listed field zeroed that lies on a page between two offsets (the clear registers). -/
def State.clearRange (s : State) (ty i lo hi : Nat) : State :=
  (pageFlds ty).foldl (fun t f =>
    (List.range f.count).foldl (fun t k =>
      let g := f.nth k
      if lo ≤ g.off ∧ g.off ≤ hi ∧ g.acc = .ro then t.setFld g i 0 else t) t) s

/-! ### Agents (Table 2.4) -/

/-- ERR_INFO.AGENT of an agent. -/
def agentCode : Agent → Nat
  | .block => 0x00
  | .pf => 0x01
  | .vf p => 0x02 + p.val
  | .mgmt => 0x0A
  | .strand _ => 0x0B
  | .remote => 0x0C
  | .unit => 0x0D

/-! ### The queue of the cellar book (R472) -/

/-- A record as it is queued: pick, work pick, boot number and phase as they stand. -/
def State.bookRec (s : State) (ty : Nat) (data : List Byte) : QRec :=
  { ty := ty, pick := s.pick.num, boot := s.book.bootNum, work := s.pick.work, phase := s.pick.phase, data := padTo 28 data }

/-- A record put in the queue, or dropped where no usable entry is free: 256 entries, 16 of them for FATAL EVENT records and POWER_LOSS. -/
def State.bookQueue (s : State) (r : QRec) : State × Bool :=
  if s.book.queue.length < (if r.fatal then 256 else 240) then
    ({ s with book := { s.book with queue := s.book.queue ++ [r] } }, true)
  else
    (({ s with book := { s.book with dropped := true } }).addSat F.BOOK_DROP_CNT 0 1, false)

/-! ### Events -/

/-- The partition that a core belongs to (R31): the first PART page whose committed CORE_MAP names it. -/
def State.corePart (s : State) (core : Nat) : Option Nat :=
  (List.range 8).find? fun p => bitOf (s.fld (F.PART_CORE_MAP.nth (core / 32)) p) (core % 32)

/-- The partition of a partitioned page (R43). -/
def State.pagePart (s : State) (ty i : Nat) : Option Nat :=
  if ty = 1 then s.corePart i else if ty = 5 then some (s.fld F.SOLVER_SOLV_CTL i) else none

/-- The number of vector `n` of a function among all 2,048 (R445). -/
def vectorOf (fn n : Nat) : Nat := if fn = 0 then n % 1024 else 1024 + (fn - 1) * 128 + n % 128

/-- An MSI-X message: sent, or pending while the vector is masked (R445). -/
def State.msix (s : State) (vec : Nat) : State :=
  if s.host.unmasked.contains vec then s.emit (.msix vec)
  else { s with host := { s.host with pba := insertNat s.host.pba vec } }

/-- The route bits of an event's severity on a page (Table 2.6); FATAL always goes to the book and to FAULT_N (R56). -/
def State.routeOf (s : State) (ty i : Nat) : Sev → Nat
  | .info => s.fld (F.EVT_SEV_INFO_ROUTE ty) i
  | .notice => s.fld (F.EVT_SEV_NOTICE_ROUTE ty) i
  | .error => s.fld (F.EVT_SEV_ERROR_ROUTE ty) i
  | .fatal => s.fld (F.EVT_SEV_FATAL_ROUTE ty) i + 12

/-- The severity code of an EVENT record (Table 17.8). -/
def sevCode : Sev → Nat
  | .info => 0
  | .notice => 1
  | .error => 2
  | .fatal => 3

/-- The EVENT record of an event (R54, Table 17.8). -/
def State.eventRec (s : State) (ty i b : Nat) (sev : Sev) : QRec :=
  { s.bookRec 1 (toLe 4 (s.fld (F.ERR_INFO_ADDR_HI ty) i + s.fld (F.ERR_INFO_CODE ty) i * 2 ^ 16 + s.fld (F.ERR_INFO_AGENT ty) i * 2 ^ 24)
      ++ toLe 4 (s.fld (F.ERR_FIRST ty) i) ++ toLe 4 (s.fld (F.ERR_CNT ty) i) ++ [BitVec.ofNat 8 (sevCode sev)]) with
    page := ty, evt := b, inst := i, fatal := sev == .fatal }

/-- The host's and the management cores' share of an event's delivery (Table 2.6, R445). -/
def State.deliverIrq (s : State) (ty i b route : Nat) : State :=
  let s1 := if bitOf route 0 then
      let s0 := s.msix (vectorOf 0 (s.fld (F.HOST_EVT_VEC.nth ty) 0))
      match s.pagePart ty i with
      | some p => s0.msix (vectorOf (p + 1) 0)
      | none => s0
    else s
  if bitOf route 1 then s1.emit (.mgmtIrq ty i b) else s1

/-- An event bit set and delivered, its book record queued; says whether a record was dropped (R54, R472). -/
def State.raiseCore (s : State) (ty i b : Nat) : State × Bool :=
  match sevOf ty b with
  | none => (s, false)
  | some sev =>
    let stat := s.fld (F.EVT_STAT ty) i
    if bitOf stat b then (s, false)
    else
      let s1 := s.setFld (F.EVT_STAT ty) i (stat + 2 ^ b)
      if bitOf (s.fld (F.EVT_EN ty) i) b then
        let route := s.routeOf ty i sev
        let s2 := s1.deliverIrq ty i b route
        if bitOf route 2 then
          let r := s2.bookQueue (s2.eventRec ty i b sev)
          (r.1, !r.2)
        else (s2, false)
      else (s1, false)

/-- An event raised (R53, R54). Where its record is dropped, BOOK_DROP is raised too (Table 17.13). -/
def State.raise (s : State) (ty i b : Nat) : State :=
  let r := s.raiseCore ty i b
  if r.2 then (r.1.raiseCore 17 0 Ev.BOOK_BOOK_DROP).1 else r.1

/-- A record queued for the cellar book; a dropped one raises BOOK_DROP (R472). -/
def State.bookPush (s : State) (r : QRec) : State :=
  let q := s.bookQueue r
  if q.2 then q.1 else q.1.raise 17 0 Ev.BOOK_BOOK_DROP

/-- An event raised when a condition holds. -/
def State.raiseIf (s : State) (c : Bool) (ty i b : Nat) : State := if c then s.raise ty i b else s

/-- An event bit delivered again, or for the first time, when its enable goes from 0 to 1 or a clear loses to hardware (R45, R54). -/
def State.redeliver (s : State) (ty i b : Nat) : State :=
  if bitOf (s.fld (F.EVT_STAT ty) i) b then
    ({ s with regs := Tab.set s.regs ((F.EVT_STAT ty).key i) (s.fld (F.EVT_STAT ty) i - 2 ^ b) }).raise ty i b
  else s

/-- FAULT_N is driven low while some page holds an enabled, set event that is routed to it, while the boot has failed, in SHUTDOWN and
after a loss (R55, R56, R456, R486, Table 18.5). -/
def State.faultLow (s : State) : Bool :=
  s.power.faultHeld || (s.fld F.MGMT_MGMT_STAT_BOOT_STATE 0 == 3) ||
  s.regs.any fun e =>
    let ty := e.1 / 32 / 4096 / 1024
    let i := e.1 / 32 / 4096 % 1024
    (e.1 % 32 == 0 && e.1 / 32 % 4096 == 0x018) &&
      (List.range 32).any fun b =>
        bitOf e.2 b && bitOf (s.fld (F.EVT_EN ty) i) b &&
          (match sevOf ty b with
           | some sev => bitOf (s.routeOf ty i sev) 3
           | none => false)

/-- Some page of type `ty` holds an enabled, set event (DEVICE.EVT_SUMMARY). -/
def State.typePending (s : State) (ty : Nat) : Bool :=
  s.regs.any fun e =>
    (e.1 % 32 == 0 && e.1 / 32 % 4096 == 0x018 && e.1 / 32 / 4096 / 1024 == ty) &&
      (List.range 32).any fun b => bitOf e.2 b && bitOf (s.fld (F.EVT_EN ty) (e.1 / 32 / 4096 % 1024)) b

/-! ### Errors -/

/-- A page counts an error (R51): code, 48-bit value for ERR_FIRST and ADDR_HI, agent. -/
def State.countErr (s : State) (ty i code value agent : Nat) : State :=
  let n := s.fld (F.ERR_CNT ty) i
  if n = 0xFFFFFFFF then s
  else
    let s1 := s.setFld (F.ERR_CNT ty) i (n + 1)
    let s2 := if n = 0 then
        (((s1.setFld (F.ERR_FIRST ty) i value).setFld (F.ERR_INFO_ADDR_HI ty) i (value / 2 ^ 32)).setFld
          (F.ERR_INFO_CODE ty) i code).setFld (F.ERR_INFO_AGENT ty) i agent
      else s1
    (s2.raise ty i 0).raiseIf (n + 1 == 0xFFFFFFFF) ty i 5

/-- The codes of Table 2.4. -/
def errUnmapped : Nat := 0x01
def errBlocked : Nat := 0x02
def errLocked : Nat := 0x03
def errStageBusy : Nat := 0x04
def errStageOrder : Nat := 0x05
def errAccessSize : Nat := 0x06
def errPriv : Nat := 0x07

/-- A counter that saturates, with the event that its increment sets; a saturated counter no longer increments. -/
def State.countEv (s : State) (f : Fld) (i n b : Nat) : State :=
  if n = 0 ∨ 2 ^ f.w - 1 ≤ s.fld f i then s else (s.addSat f i n).raise f.ty i b

/-- A partition counts an access of its own that was blocked (R33, PART.BLOCKED_CNT). -/
def State.countBlocked (s : State) (p : Nat) : State :=
  s.countEv F.PART_BLOCKED_CNT p 1 Ev.PART_BLOCKED

/-- WEIGHTS_UNAVAILABLE counts with code 0x82 of an UPDATE or a COLL page, as UNMAPPED on the others, which have no such code (Table 12.5). -/
def State.countUnavail (s : State) (page : Nat × Nat) (addr agent : Nat) : State :=
  if page.1 = 6 then s.countErr 6 page.2 0x82 addr agent
  else if page.1 = 7 then (s.countEv F.COLL_SCRIPT_ERR page.2 1 Ev.COLL_SCRIPT_ERR).countErr 7 page.2 0x82 addr agent
  else s.countErr page.1 page.2 errUnmapped addr agent

/-- An access that failed under R29, R33 or R332 (Table 12.5) counted on the issuer's page, and on its partition's where it was blocked. -/
def State.countAccess (s : State) (page : Nat × Nat) (status addr agent : Nat) (part : Option Nat) : State :=
  if status = 1 then s.countErr page.1 page.2 errUnmapped addr agent
  else if status = 2 then
    let s1 := s.countErr page.1 page.2 errBlocked addr agent
    match part with
    | some p => s1.countBlocked p
    | none => s1
  else if status = 3 then s.countUnavail page addr agent
  else s

/-- ERR_CLR (R51, Table 2.3). -/
def State.errClear (s : State) (ty i : Nat) : State :=
  ((((s.setFld (F.ERR_CNT ty) i 0).setFld (F.ERR_FIRST ty) i 0).setFld (F.ERR_INFO_ADDR_HI ty) i 0).setFld
    (F.ERR_INFO_CODE ty) i 0).setFld (F.ERR_INFO_AGENT ty) i 0


/-- The pick sequencer changed. -/
def State.modPick (s : State) (f : PickState → PickState) : State := { s with pick := f s.pick }

/-- Cause `b` of Table 3.7 holds in this pick (R94). -/
def State.cause (s : State) (b : Nat) : State :=
  if bitOf s.pick.causes b then s else { s with pick := { s.pick with causes := s.pick.causes + 2 ^ b } }

/-- The device votes LATE with reason FAULT (R94). -/
def State.fault (s : State) : State := s.cause 2

/-- A unit consumes poisoned data (Table 2.5, R186, R218, R236, R275). -/
def State.poisoned (s : State) (ty i : Nat) : State := (s.raise ty i 4).fault

/-! ### Parts -/

/-- The contents of a core. -/
def State.core (s : State) (c : Nat) : CoreState := Tab.get {} s.cores c
def State.setCore (s : State) (c : Nat) (x : CoreState) : State := { s with cores := Tab.set s.cores c x }

/-- A link. -/
def State.link (s : State) (l : Nat) : LinkState := Tab.get {} s.links l
def State.setLink (s : State) (l : Nat) (x : LinkState) : State := { s with links := Tab.set s.links l x }

/-- A heddle. -/
def State.heddle (s : State) (h : Nat) : Heddle := Tab.get {} s.fab.heddles h
def State.setHeddle (s : State) (h : Nat) (x : Heddle) : State :=
  { s with fab := { s.fab with heddles := Tab.set s.fab.heddles h x } }

/-- A solver engine. -/
def State.solver (s : State) (e : Nat) : SolverState := Tab.get {} s.solvers e
def State.setSolver (s : State) (e : Nat) (x : SolverState) : State := { s with solvers := Tab.set s.solvers e x }

/-- The engine holds no path from its record on, or where a reset drops its descriptor (R23, R254, R464); the commands that waited for one run
at MVP_RESERVATION_END. -/
def State.releasePath (s : State) (e : Nat) : State :=
  s.cores.foldl (fun t k => if k.2.mvpHolder = some e then t.setCore k.1 { t.core k.1 with mvpHolder := none } else t) s

/-- An update slice. -/
def State.slice (s : State) (c : Nat) : SliceState := Tab.get {} s.upd.slices c
def State.setSlice (s : State) (c : Nat) (x : SliceState) : State :=
  { s with upd := { s.upd with slices := Tab.set s.upd.slices c x } }

/-- A collective slice. -/
def State.coll (s : State) (c : Nat) : CollState := Tab.get {} s.colls c
def State.setColl (s : State) (c : Nat) (x : CollState) : State := { s with colls := Tab.set s.colls c x }

/-- A granule of the cellar. -/
def State.granule (s : State) (g : Nat) : Granule := Tab.get {} s.cellar.granules g
def State.setGranule (s : State) (g : Nat) (x : Granule) : State :=
  { s with cellar := { s.cellar with granules := Tab.set s.cellar.granules g x } }

/-- The next free value's number, and the state that has drawn it. -/
def State.draw (s : State) : Nat × State := (s.free, { s with free := s.free + 1 })

/-! ### Time (R69, R72 to R74) -/

/-- The pick period in ns (R69). -/
def State.periodNs (s : State) : Nat := s.fld F.PICK_PICK_CFG_PERIOD 0 * 1000

/-- The flood interval in ns and the limits of a size class (Table 3.1): F, minimum guard, minimum P, in µs. -/
def sizeClass : Nat → Nat × Nat × Nat
  | 0 => (2, 20, 100)
  | 1 => (10, 50, 250)
  | _ => (20, 100, 500)

/-- The guard in µs for a period, a GUARD field and a size class (R74). -/
def guardUs (p g cls : Nat) : Nat := if g = 0 then max ((p * 4 + 99) / 100) (sizeClass cls).2.1 else g

/-- The guard of the committed configuration in ns. -/
def State.guardNs (s : State) : Nat :=
  guardUs (s.fld F.PICK_PICK_CFG_PERIOD 0) (s.fld F.PICK_PICK_GUARD 0) (s.fld F.PICK_PICK_CFG_SIZE_CLASS 0) * 1000

/-- Beat-up start, ns after the edge (R92). -/
def State.beatUpNs (s : State) : Nat := s.periodNs - s.guardNs

/-- The device's own number (DEVICE.DEV_NUM). -/
def State.ownDev (s : State) : Nat := s.fld F.DEVICE_DEV_NUM 0

end Sys2Proof.Machine
end

