-- ==== Sys2Proof/Machine/Memory.lean ====
section
/-! DEFINITION. The device's memories: the address map (R24 to R29), partition checks (R32, R33), reads and writes with poison
(R282), storage errors (R281, R284, R308), accumulation-mode granules in front of DRAM (R295) and the cellar as a cache (R290,
R291, R293). Bytes are held in canonical lists of (address, byte) pairs: rising addresses, no zero byte. -/
namespace Sys2Proof.Machine
open Sys2Proof

/-! ### Byte lists -/

/-- A byte of a memory; an unlisted address reads 0 (log entry 1). -/
def memGet (m : List (Nat × Byte)) (a : Nat) : Byte := Tab.get 0 m a

/-- The memory with byte `b` at `a`; a zero byte is not listed. -/
def memPut : List (Nat × Byte) → Nat → Byte → List (Nat × Byte)
  | [], a, b => if b = 0 then [] else [(a, b)]
  | (a', b') :: t, a, b =>
    if a' = a then (if b = 0 then t else (a, b) :: t)
    else if a < a' then (if b = 0 then (a', b') :: t else (a, b) :: (a', b') :: t)
    else (a', b') :: memPut t a b

/-- The memory with bytes from `a` on. -/
def memWrite : List (Nat × Byte) → Nat → List Byte → List (Nat × Byte)
  | m, _, [] => m
  | m, a, b :: t => memWrite (memPut m a b) (a + 1) t

/-- `n` bytes from `a`. -/
def memRead (m : List (Nat × Byte)) (a n : Nat) : List Byte := (rangeFrom a n).map (memGet m)

/-- The canonical form: addresses rise strictly and no listed byte is 0. -/
def memWf (m : List (Nat × Byte)) : Bool := Tab.sorted m && m.all fun e => e.2 != 0

/-! ### The address map -/

/-- What an address names (Table 1.5). -/
inductive Region where
  | dram (stack : Nat)
  | window (gran : Nat)
  | spool (core : Nat)
  | page
  | host
  | reserved
deriving DecidableEq, Repr

def dramEnd : Nat := 0x018000000000
def stackBytes : Nat := 0x1800000000
def windowBase : Nat := 0x080000000000
def spoolBase : Nat := 0x100000000000
def pageBase : Nat := 0x200000000000
def hostBase : Nat := 0x300000000000
def spoolBytes : Nat := 0x2400000
def granBytes : Nat := 0x10000000
def accBytes : Nat := 0xF000000

/-- R24 to R28. -/
def regionOf (a : Nat) : Region :=
  if a < dramEnd then .dram (a / stackBytes)
  else if windowBase ≤ a ∧ a < windowBase + 48 * granBytes then .window ((a - windowBase) / granBytes)
  else if spoolBase ≤ a ∧ a < spoolBase + 512 * 0x4000000 then
    (if (a - spoolBase) % 0x4000000 < spoolBytes then .spool ((a - spoolBase) / 0x4000000) else .reserved)
  else if pageBase ≤ a ∧ a < pageBase + 0x40000000 then .page
  else if hostBase ≤ a ∧ a < 0x400000000000 then .host
  else .reserved

/-- A page address names a page that exists (R28, R39). -/
def pageExists (a : Nat) : Bool := decide ((a - pageBase) / 4096 % 1024 < instances ((a - pageBase) / 2 ^ 22))

/-- The address of an offset in the spool of a core (R26). -/
def spoolAddr (core off : Nat) : Nat := spoolBase + core * 0x4000000 + off

/-- The home cellar die of a line (R290). -/
def homeDie (a : Nat) : Nat :=
  bitsOf a 7 3 ^^^ bitsOf a 10 3 ^^^ bitsOf a 13 3 ^^^ bitsOf a 16 3 ^^^ bitsOf a 19 3 ^^^ bitsOf a 22 3

/-! ### Ownership -/

/-- Range `k` of partition `p` covers the GiB of a DRAM address. -/
def State.rangeHas (s : State) (p k a : Nat) : Bool :=
  s.flag (F.PART_DRAM_RNG_VALID.nth k) p && decide (s.fld (F.PART_DRAM_RNG_BASE.nth k) p ≤ a / 2 ^ 30) &&
    decide (a / 2 ^ 30 < s.fld (F.PART_DRAM_RNG_BASE.nth k) p + s.fld (F.PART_DRAM_RNG_COUNT.nth k) p)

/-- Partition `p` owns a DRAM address through a range that is shared read-only or not, as asked. -/
def State.dramRange (s : State) (p a : Nat) (shared : Bool) : Bool :=
  (List.range 8).any fun k => s.rangeHas p k a && s.flag (F.PART_DRAM_RNG_SHARED_RO.nth k) p == shared

/-- Some partition marks the GiB of a DRAM address shared read-only (R32). -/
def State.dramShared (s : State) (a : Nat) : Bool := (List.range 8).any fun q => s.dramRange q a true

/-- The partition that owns a DRAM address. -/
def State.dramOwner (s : State) (a : Nat) : Option Nat :=
  (List.range 8).find? fun p => (List.range 8).any fun k => s.rangeHas p k a

/-- Partition `p` owns a granule. -/
def State.granOwned (s : State) (p g : Nat) : Bool :=
  if g < 32 then bitOf (s.fld F.PART_GRAN_OWN0 p) g else bitOf (s.fld F.PART_GRAN_OWN1 p) (g - 32)

/-- Partition `p` marks a granule that it owns shared read-only. -/
def State.granShared (s : State) (p g : Nat) : Bool :=
  s.granOwned p g && (if g < 32 then bitOf (s.fld F.PART_GRAN_SHRO0 p) g else bitOf (s.fld F.PART_GRAN_SHRO1 p) (g - 32))

/-- Some partition marks a granule shared read-only (R32). -/
def State.granSharedAny (s : State) (g : Nat) : Bool := (List.range 8).any fun q => s.granShared q g

/-- The host-window range that holds host address `h` and that an issuer may use (R444). -/
def State.hwinOf (s : State) (who : Option Nat) (h : Nat) : Option Nat :=
  if s.flag F.HOST_HOST_CTL 0 && s.flag F.HOST_LINK_STAT_LINK_UP 0 then
    (List.range 8).find? fun k =>
      let base := s.fld (F.HOST_HWIN_BASE_LO.nth k) 0 * 2 ^ 12 + s.fld (F.HOST_HWIN_BASE_HI.nth k) 0 * 2 ^ 32
      s.flag (F.HOST_HWIN_CTL_VALID.nth k) 0 && decide (base ≤ h) && decide (h < base + s.fld (F.HOST_HWIN_LEN.nth k) 0 * 4096) &&
        (match who with
         | none => true
         | some p => s.flag (F.HOST_HWIN_CTL_SHARED.nth k) 0 || s.fld (F.HOST_HWIN_CTL_PART.nth k) 0 == p)
  else none

/-- Whether partition `who` (none: the physical function and the management cores, which no partition bounds) may reach an
address: 0 it may, 1 unmapped (R29), 2 blocked (R33); what is shared read-only every partition reads and none writes (R32). A register page that exists is mapped; what an access does there is the registers' own. -/
def State.checkMap (s : State) (who : Option Nat) (write : Bool) (a : Nat) : Nat :=
  match regionOf a with
  | .dram _ =>
    match who with
    | none => 0
    | some p =>
      if s.dramShared a then (if write then 2 else 0) else if s.dramRange p a false then 0 else 2
  | .window g =>
    let x := s.granule g
    if x.mode ≠ 1 ∨ x.flushing then 1
    else match who with
      | none => 0
      | some p =>
        if s.granSharedAny g then (if write then 2 else 0) else if s.granOwned p g then 0 else 2
  | .spool c =>
    match who with
    | none => 0
    | some p => if s.corePart c = some p then 0 else 2
  | .host => if (s.hwinOf who (a - hostBase)).isSome then 0 else 1
  | .page => if pageExists a then 0 else 1
  | .reserved => 1

/-! ### Storage -/

/-- An access that overlaps a repair fence waits (R330). -/
def State.fenceWaits (s : State) (a n : Nat) : Bool :=
  s.upd.fences.any fun e => !e.2.1 && e.2.2.any fun r => decide (r.1 < a + n) && decide (a < r.1 + r.2)

/-- The granule in accumulation mode whose bound range holds an address (R295). -/
def State.boundGran (s : State) (a : Nat) : Option (Nat × Granule) :=
  if a < dramEnd then
    s.cellar.granules.find? fun e => e.2.mode == 2 && decide (e.2.bind * 2 ^ 24 ≤ a) && decide (a < e.2.bind * 2 ^ 24 + accBytes)
  else none

/-- Where the bytes of an address are held: those of a bound range in its granule, all others under their own address. -/
def State.place (s : State) (a : Nat) : Nat :=
  match s.boundGran a with
  | some e => windowBase + e.1 * granBytes + (a - e.2.bind * 2 ^ 24)
  | none => a

/-- The ledger of a block holds UNAVAILABLE (R320). -/
def State.ledgerUnavail (s : State) (b : Nat) : Bool :=
  memGet s.mem (s.place (s.fldPair F.UPDATE_LEDGER_BASE_LO F.UPDATE_LEDGER_BASE_HI (b % 8) + 16 * b + 4)) == 4

/-- An address lies behind an unavailable fence (R332); a vintage rollback, which writes the ledger entry back, leaves it (R406, log
entry 116). -/
def State.unavailAt (s : State) (a : Nat) : Bool :=
  s.upd.fences.any fun e => e.2.1 && (e.2.2.any fun r => decide (r.1 ≤ a) && decide (a < r.1 + r.2)) && s.ledgerUnavail e.1

/-- The slice whose landing area, 32 MiB of cellar scratchpad, an access touches (R377). -/
def State.landingSlice (s : State) (a n : Nat) : Option Nat :=
  if decide (a < windowBase) || decide (windowBase + 48 * granBytes ≤ a) then none
  else (List.range 9).find? fun c =>
    let b := s.fldPair F.COLL_LAND_BASE_LO F.COLL_LAND_BASE_HI c
    decide (b < a + n) && decide (a < b + 2 ^ 25)

/-- `State.checkMap`, and besides: 3 for a read of an unavailable block (R332), 2 for a write into a landing area by an agent other than a
collective slice (R377). -/
def State.check (s : State) (who : Option Nat) (write : Bool) (a : Nat) (coll : Bool := false) : Nat :=
  let x := s.checkMap who write a
  if x ≠ 0 then x
  else if write then (if !coll && (s.landingSlice a 1).isSome then 2 else 0)
  else if s.unavailAt a && (s.boundGran a).isNone then 3 else 0

/-- `n` stored bytes within one 64-byte block. -/
def State.blockBytes (s : State) (a n : Nat) : List Byte :=
  if regionOf a = .host then memRead s.host.mem (a - hostBase) n else memRead s.mem (s.place a) n

/-- The 64-byte block at an address is poisoned in storage (R282). -/
def State.blockPoison (s : State) (a : Nat) : Bool :=
  if regionOf a = .host then s.host.poison.contains ((a - hostBase) / 64) else s.poison.contains (s.place a / 64)

/-- A poison list after a write of `n` bytes at block offset `o` of block `b` (R282). -/
def poisonAfter (l : List Nat) (b n : Nat) (pz : Bool) : List Nat :=
  if pz then insertNat l b else if n = 64 then l.filter (· != b) else l

/-- Bytes stored within one 64-byte block, poisoned or not (R282). -/
def State.storeBlock (s : State) (a : Nat) (bytes : List Byte) (pz : Bool) : State :=
  if regionOf a = .page then s
  else if regionOf a = .host then
    { s with host := { s.host with
        mem := memWrite s.host.mem (a - hostBase) bytes
        poison := poisonAfter s.host.poison ((a - hostBase) / 64) bytes.length pz } }
  else
    { s with
      mem := memWrite s.mem (s.place a) bytes
      poison := poisonAfter s.poison (s.place a / 64) bytes.length pz }

/-- The parts of `n` bytes at `a` that lie in one 64-byte block each: offset from `a`, length. -/
def pieces (a n : Nat) : List (Nat × Nat) :=
  if n = 0 then []
  else (List.range ((a % 64 + n + 63) / 64)).map fun j =>
    let lo := max a ((a / 64 + j) * 64)
    (lo - a, min (a + n) ((a / 64 + j + 1) * 64) - lo)

/-- The 64-byte blocks of data (from its start) that a part of it touches. -/
def dataBlocks (o n : Nat) : List Nat := if n = 0 then [] else rangeFrom (o / 64) ((o + n - 1) / 64 - o / 64 + 1)

/-- What an access comes to: 0 to 3 as `State.check`, and the lowest failing address. -/
structure Acs where
  st : Nat := 0
  addr : Nat := 0
deriving DecidableEq, Repr, Inhabited

/-- The outcome of an access: blocked if some part of it is, else unmapped if some part is, with the lowest failing address (R29,
R33). -/
def State.checkAll (s : State) (who : Option Nat) (write : Bool) (a n : Nat) (coll : Bool := false) : Acs :=
  let bad := (pieces a n).filter fun x => s.check who write (a + x.1) coll != 0
  match bad with
  | [] => ⟨0, a⟩
  | x :: _ =>
    let has := fun (k : Nat) => bad.any fun y => s.check who write (a + y.1) coll == k
    ⟨if has 2 then 2 else if has 1 then 1 else 3, a + x.1⟩

/-- The outcome of an access in several parts, each with its own (R29, R33). -/
def acsOf (l : List Acs) : Acs :=
  match l.filter fun x => x.st != 0 with
  | [] => {}
  | x :: t =>
    ⟨if (x :: t).any fun y => y.st == 2 then 2 else if (x :: t).any fun y => y.st == 1 then 1 else 3, t.foldl (fun m y => min m y.addr) x.addr⟩

/-- Bytes that are read, the poisoned 64-byte blocks of them counted from their start, and the outcome. -/
structure Rd where
  data : List Byte := []
  poison : List Nat := []
  acs : Acs := {}
deriving DecidableEq, Repr, Inhabited

/-- A read (R29: a part that may not be reached reads zeros; R282; R332: an unavailable one reads zeros with poison). -/
def State.readMem (s : State) (who : Option Nat) (a n : Nat) : Rd :=
  let ps := pieces a n
  let ok := fun (x : Nat × Nat) => s.check who false (a + x.1) == 0
  { data := ps.flatMap fun x => if ok x then s.blockBytes (a + x.1) x.2 else List.replicate x.2 0
    poison := (ps.flatMap fun x =>
      if (ok x && s.blockPoison (a + x.1)) || s.check who false (a + x.1) == 3 then dataBlocks x.1 x.2 else []).foldl insertNat []
    acs := s.checkAll who false a n }

/-- A write, 64-byte block by block (R29: a part that may not be reached is dropped; R282): `pz o n` says whether the `n` bytes of the
data from offset `o` carry poison. -/
def State.writeBy (s : State) (who : Option Nat) (a : Nat) (bytes : List Byte) (pz : Nat → Nat → Bool) (coll : Bool := false) : State :=
  (pieces a bytes.length).foldl (fun t x =>
    if s.check who true (a + x.1) coll = 0 then t.storeBlock (a + x.1) ((bytes.drop x.1).take x.2) (pz x.1 x.2) else t) s

/-- A write of data whose poisoned 64-byte blocks `pz` lists. -/
def State.writeMem (s : State) (who : Option Nat) (a : Nat) (bytes : List Byte) (pz : List Nat := []) (coll : Bool := false) : State :=
  s.writeBy who a bytes (fun o n => (dataBlocks o n).any pz.contains) coll

/-! ### DRAM lines that the host holds (R304) -/

/-- The snoop filter of a home die: 64-byte lines, oldest first; true: the host may hold the line in M. -/
def State.filterOf (s : State) (die : Nat) : List (Nat × Bool) := Tab.get [] s.cellar.filter die
def State.setFilter (s : State) (die : Nat) (l : List (Nat × Bool)) : State :=
  { s with cellar := { s.cellar with filter := Tab.set s.cellar.filter die l } }

/-- The 64-byte lines of `n` bytes at `a` for which an access waits: those that the host may hold, for a read only those in M. -/
def State.hostHeld (s : State) (write : Bool) (a n : Nat) : List Nat :=
  s.cellar.filter.flatMap fun e =>
    (e.2.filter fun x => (write || x.2) && decide (0 < n) && decide (a / 64 ≤ x.1) && decide (x.1 * 64 < a + n)).map (·.1)

/-- A BISnp leaves for a line, unless one that serves is on its way. -/
def State.backSnoop (s : State) (h : Nat) (inv : Bool) : State :=
  if s.cellar.asked.contains (h, true) || s.cellar.asked.contains (h, inv) then s
  else (({ s with cellar := { s.cellar with asked := (h, inv) :: s.cellar.asked } }).addWrap F.CELLAR_BISNP_CNT (homeDie (h * 64)) 1).emit
    (.bisnp (h * 64) inv)

/-- The BISnp messages that an access needs. -/
def State.askHost (s : State) (write : Bool) (a n : Nat) : State := (s.hostHeld write a n).foldl (fun t h => t.backSnoop h write) s

/-- A write reaches a host line that is in an eviction buffer (R303). -/
def State.evictHeld (s : State) (a n : Nat) : Bool :=
  s.cellar.evict.any fun e => e.2.any fun x => decide (0 < n) && decide (a / 64 ≤ x.half) && decide (x.half * 64 < a + n)

/-- An access waits: a read for a repair fence (R330), a write for an eviction buffer (R303), any access for the host's answer (R304). -/
def State.accWaits (s : State) (write : Bool) (a n : Nat) : Bool :=
  (if write then s.evictHeld a n else s.fenceWaits a n) || !(s.hostHeld write a n).isEmpty

/-- A unit's reads of several ranges: where one of them waits, the host is asked and the unit waits; else it goes on as `f` says. -/
def State.whenReadable (s : State) (l : List (Nat × Nat)) (f : State → State) : State :=
  if l.any fun r => s.accWaits false r.1 r.2 then l.foldl (fun t r => t.askHost false r.1 r.2) s else f s

/-- A unit's writes of several ranges, likewise. -/
def State.whenWritable (s : State) (l : List (Nat × Nat)) (f : State → State) : State :=
  if l.any fun r => s.accWaits true r.1 r.2 then l.foldl (fun t r => t.askHost true r.1 r.2) s else f s

/-! ### Storage errors -/

/-- Poison set in storage on the 64-byte block at an address (R282). -/
def State.poisonBlock (s : State) (a : Nat) : State :=
  if regionOf a = .host then { s with host := { s.host with poison := insertNat s.host.poison ((a - hostBase) / 64) } }
  else { s with poison := insertNat s.poison (s.place a / 64) }

/-- A read meets errors of a spool's code in the block at `a` (R281). -/
def State.spoolEcc (s : State) (a : Nat) (e : Ecc) : State :=
  let core := (a - spoolBase) / 0x4000000
  let d := core / 32
  let s1 := s.countEv F.DIE_SPL_CE d e.corr Ev.DIE_SPL_CORR
  if e.uncorr = 0 then s1
  else
    let s2 := if s1.flag F.DIE_SPL_UE_LOC_VALID d then s1
      else ((s1.setFld F.DIE_SPL_UE_LOC_OFFSET d ((a - spoolBase) % 0x4000000 / 64 * 64)).setFld F.DIE_SPL_UE_LOC_CORE d (core % 32)).setFld
        F.DIE_SPL_UE_LOC_VALID d 1
    (s2.countEv F.DIE_SPL_UE d e.uncorr Ev.DIE_SPL_UNCORR).poisonBlock a

/-- The first uncorrectable address recorded on a STACK page (R284). -/
def State.stackAddr (s : State) (k a : Nat) : State :=
  if s.flag F.STACK_UE_ADDR_HI_VALID k then s
  else ((s.setFld F.STACK_UE_ADDR_LO k (a / 64 * 64 % 2 ^ 32)).setFld F.STACK_UE_ADDR_HI_ADDR k (a / 2 ^ 32)).setFld F.STACK_UE_ADDR_HI_VALID k 1

/-- A read meets errors of a stack's code in the block at `a` (R284); `b` is the event that an uncorrectable block raises. -/
def State.stackEcc (s : State) (a : Nat) (e : Ecc) (b : Nat) : State :=
  let k := a / stackBytes
  let s1 := s.countEv F.STACK_CE_CNT k e.corr Ev.STACK_DRAM_CORR
  if e.uncorr = 0 then s1
  else ((s1.stackAddr k a).countEv F.STACK_UE_CNT k e.uncorr b).poisonBlock a

/-- A read meets errors of the cellar's code on die `d` in the block at `a`; a clean line of the cache takes no lasting poison (R308). -/
def State.cellarEcc (s : State) (d a : Nat) (e : Ecc) (clean : Bool) : State :=
  let s1 := (s.countEv F.CELLAR_CEL_ECC_CORR d e.corr Ev.CELLAR_CEL_CORR).countEv F.CELLAR_CEL_ECC_UNCORR d e.uncorr Ev.CELLAR_CEL_UNCORR
  if clean ∨ e.uncorr = 0 then s1 else s1.poisonBlock a

/-! ### The cellar as a cache -/

/-- Partition `p` has a granule in cache mode on a cellar die (R291). -/
def State.hasCache (s : State) (p die : Nat) : Bool :=
  (List.range 6).any fun i => s.granOwned p (6 * die + i) && (s.granule (6 * die + i)).mode == 0

/-- A host-window address that is cacheable for a partition (R302, R444). -/
def State.hostCacheable (s : State) (p a : Nat) : Bool :=
  match s.hwinOf (some p) (a - hostBase) with
  | some k => s.flag (F.HOST_HWIN_CTL_CACHEABLE.nth k) 0
  | none => false

/-- An access by a partition to an address goes through the cache of the line's home die (R291). -/
def State.cached (s : State) (p a : Nat) : Bool :=
  match regionOf a with
  | .dram _ => (s.boundGran a).isNone && s.hasCache p (homeDie a)
  | .host => s.hostCacheable p a && s.hasCache p (homeDie a)
  | _ => false

/-- The key of a cached line: its line number and partition. -/
def lineKey (p a : Nat) : Nat := a / 128 * 8 + p

/-- The coherence state of a host half-line after an access (R302); a read takes S (log entry 12). -/
def mesiAfter (write : Bool) (x : Mesi) : Mesi := if write then .m else if x = .i then .s else x

/-- A cached line after an access to `n` bytes at `a` that lie in it. -/
def CacheLine.touch (l : CacheLine) (p a n : Nat) (write host : Bool) : CacheLine :=
  { part := p
    dirty := l.dirty || write
    lo := if host && decide (a % 128 < 64) then mesiAfter write l.lo else l.lo
    hi := if host && decide (64 < a % 128 + n) then mesiAfter write l.hi else l.hi }

/-- One line of an access: a hit or a miss is counted, and the line is allocated on a miss (R293). A write leaves no other
partition's copy. -/
def State.touchLine (s : State) (p a n : Nat) (write : Bool) : State :=
  if s.cached p a then
    let k := lineKey p a
    let d := homeDie a
    let l := Tab.get {} s.cellar.lines k
    let s1 := if (Tab.get? s.cellar.lines k).isSome then s.addWrap F.CELLAR_HIT_CNT d 1 else s.addWrap F.CELLAR_MISS_CNT d 1
    let rest := if write then s1.cellar.lines.filter (fun e => e.1 / 8 != a / 128 || e.1 == k) else s1.cellar.lines
    { s1 with cellar := { s1.cellar with lines := Tab.set rest k (l.touch p a n write (regionOf a == .host)) } }
  else s

/-- The parts of `n` bytes at `a` that lie in one 128-byte line each. -/
def linePieces (a n : Nat) : List (Nat × Nat) :=
  if n = 0 then []
  else (List.range ((a % 128 + n + 127) / 128)).map fun j =>
    let lo := max a ((a / 128 + j) * 128)
    (lo, min (a + n) ((a / 128 + j + 1) * 128) - lo)

/-- An access seen by the caches of the home dies (R291, R293); the physical function and the management cores have none. -/
def State.touch (s : State) (who : Option Nat) (write : Bool) (a n : Nat) : State :=
  match who with
  | none => s
  | some p => (linePieces a n).foldl (fun t x => t.touchLine p x.1 x.2 write) s

/-- A partition's cache holds the line of an address. -/
def State.cacheHit (s : State) (p a : Nat) : Bool := s.cached p a && (Tab.get? s.cellar.lines (lineKey p a)).isSome

/-- A read meets the errors of one 64-byte block in the storage that serves it (R281, R284, R308): on a hit that is the cache, on a miss
what backs it. Says whether a clean line's error poisons the data read now. -/
def State.eccBlock (s : State) (who : Option Nat) (x : BlockEcc) : State × Bool :=
  let a := x.addr.toNat / 64 * 64
  let e : Ecc := ⟨x.corr, x.uncorr⟩
  match who.filter fun p => s.cacheHit p a with
  | some p =>
    let clean := !(Tab.get {} s.cellar.lines (lineKey p a)).dirty
    (s.cellarEcc (homeDie a) a e clean, clean && e.uncorr != 0)
  | none =>
    match regionOf a with
    | .spool _ => (s.spoolEcc a e, false)
    | .window g => (s.cellarEcc (g / 6) a e false, false)
    | .dram _ =>
      match s.boundGran a with
      | some g => (s.cellarEcc (g.1 / 6) a e false, false)
      | none => (s.stackEcc a e Ev.STACK_DRAM_UNCORR, false)
    | _ => (s, false)

/-- A read of `n` bytes at `a` meets the storage errors that its command reports in them; with them come the 64-byte blocks of the data,
counted from its start, that only this read finds poisoned. -/
def State.eccAt (s : State) (who : Option Nat) (a n : Nat) (l : List BlockEcc) : State × List Nat :=
  (l.filter fun x => decide (0 < n) && decide (a / 64 ≤ x.addr.toNat / 64) && decide (x.addr.toNat / 64 * 64 < a + n)).foldl (fun r x =>
    let y := r.1.eccBlock who x
    let b := x.addr.toNat / 64 * 64
    (y.1, if y.2 then (dataBlocks (max a b - a) (min (a + n) (b + 64) - max a b)).foldl insertNat r.2 else r.2)) (s, [])

/-- Bridge transfers of loom dies retried (R306). -/
def State.nocRetry (s : State) (l : List (Fin 16)) : State :=
  l.foldl (fun t d => t.countEv F.DIE_NOC_RETRY d.val 1 Ev.DIE_BRIDGE_RETRY) s

/-- An access to the host window that failed counts on the HOST page (R444). -/
def State.hwinErr (s : State) (x : Acs) : State :=
  if x.st ≠ 0 ∧ regionOf x.addr = .host then s.countEv F.HOST_HWIN_ERR 0 1 Ev.HOST_HWIN_ERR else s

/-- An access that a unit of this device made, counted where it failed (R29, R33). -/
def State.accessDone (s : State) (page : Nat × Nat) (agent : Nat) (part : Option Nat) (x : Acs) : State :=
  (s.hwinErr x).countAccess page x.st x.addr agent part

end Sys2Proof.Machine
end

