-- ==== Sys2Proof/Machine/Route.lean ====
section
/-! DEFINITION. The fabric's coordinates (R335), the roles of links (R336, R337), the routing rule (R339), virtual channels (R340), and what
leaves on a link: its sequence number and the replay buffer (R359, R360). -/
namespace Sys2Proof.Machine
open Sys2Proof

/-- The coordinates that a device number holds: S, E, W, V (R335). -/
def coordsOf (dev : Nat) : List Nat := [bitsOf dev 0 3, bitsOf dev 3 3, bitsOf dev 6 5, bitsOf dev 11 5]

/-- The device number of coordinates S, E, W, V. -/
def devOf (c : List Nat) : Nat := c.getD 0 0 + c.getD 1 0 * 8 + c.getD 2 0 * 64 + c.getD 3 0 * 2048

/-- The size of axis 0 S, 1 E, 2 W, 3 V. -/
def State.axisN (s : State) (ax : Nat) : Nat :=
  match ax with
  | 0 => s.fld F.HEDDLE_AXIS_CFG_N_S 0
  | 1 => s.fld F.HEDDLE_AXIS_CFG_N_E 0
  | 2 => s.fld F.HEDDLE_AXIS_CFG_N_W 0
  | _ => s.fld F.HEDDLE_AXIS_CFG_N_V 0

/-! ### Roles -/

/-- The coordinate change, modulo `n`, of an offset code on an axis: S and E offsets are counts; on W and V 0 is +1, 1 is −1, 2 is +4,
3 is −4 (Table 12.7). -/
def roleStep (ax code n : Nat) : Nat :=
  if ax < 2 then code % n
  else match code with
    | 0 => 1 % n
    | 1 => (n - 1) % n
    | 2 => 4 % n
    | _ => (n - 4 % n) % n

/-- The device that a role reaches (R336). -/
def State.rolePeer (s : State) (ax code : Nat) : Nat :=
  let n := max 1 (s.axisN ax)
  let c := coordsOf s.ownDev
  devOf ((List.range 4).map fun x => if x = ax then (c.getD x 0 + roleStep ax code n) % n else c.getD x 0)

/-- A role that is used in this system (R337): on S and E an offset below the axis size; on W and V a second device; express links from
nine devices on. -/
def State.roleUsed (s : State) (ax code : Nat) : Bool :=
  let n := s.axisN ax
  (List.range 4).all (fun x => decide ((coordsOf s.ownDev).getD x 0 < s.axisN x)) &&
    (if ax < 2 then decide (1 ≤ code) && decide (code < n)
     else if code < 2 then decide (2 ≤ n) else decide (code < 4) && decide (9 ≤ n))

/-- The axis and the offset code of a link's committed role. -/
def State.linkRole (s : State) (l : Nat) : Nat × Nat := (s.fld F.LINK_ROLE_AXIS l, s.fld F.LINK_ROLE_OFFSET l)

/-- A link may train: it is enabled and its role is valid and used (Table 12.6, R337). -/
def State.linkUsable (s : State) (l : Nat) : Bool :=
  s.flag F.LINK_LINK_CTL_ENABLE l && s.flag F.LINK_ROLE_VALID l && s.roleUsed (s.linkRole l).1 (s.linkRole l).2

/-- The device that a link's role names. -/
def State.linkPeer (s : State) (l : Nat) : Nat := s.rolePeer (s.linkRole l).1 (s.linkRole l).2

/-- A link's state (Table 12.6). -/
def State.linkState (s : State) (l : Nat) : Nat := s.fld F.LINK_LINK_STAT_STATE l

/-- A live link: up, not quarantined, its peer not fenced (R82, R362). -/
def State.linkLive (s : State) (l : Nat) : Bool := s.linkState l == 4 && !(s.link l).peerFenced

/-- The live links. -/
def State.liveLinks (s : State) : List Nat := (List.range 36).filter s.linkLive

/-- The links that hold a role, by member number. -/
def State.roleLinks (s : State) (ax code : Nat) : List Nat :=
  (List.range 2).flatMap fun m => (List.range 36).filter fun l =>
    s.flag F.LINK_ROLE_VALID l && s.linkRole l == (ax, code) && s.fld F.LINK_ROLE_MEMBER l == m

/-- The members 0 and 1 of a role: the link that holds each, where one does. -/
def State.roleMembers (s : State) (ax code : Nat) : List (Option Nat) :=
  (List.range 2).map fun m => (List.range 36).find? fun l =>
    s.flag F.LINK_ROLE_VALID l && s.linkRole l == (ax, code) && s.fld F.LINK_ROLE_MEMBER l == m

/-! ### Routing -/

/-- A hop: the axis, the links of its role by member, and whether it crosses the axis's dateline. -/
structure Hop where
  axis : Nat := 0
  links : List (Option Nat) := []
  wrap : Bool := false
deriving DecidableEq, Repr, Inhabited

/-- The hop on axis `ax` from coordinate `own` to coordinate `dst` (R339). -/
def State.axisHop (s : State) (ax own dst : Nat) : Hop :=
  let n := max 1 (s.axisN ax)
  let d := (dst + n - own % n) % n
  if ax < 2 then { axis := ax, links := s.roleMembers ax d }
  else
    let plus := decide (d ≤ n / 2)
    let k := if plus then d else n - d
    let express := decide (9 ≤ n) && decide (1 ≤ (k + 1) / 4)
    let step := if express then 4 else 1
    let wrap := if plus then decide (n ≤ own + step) else decide (own < step)
    let links := if n = 2 then s.roleMembers ax 0 ++ s.roleMembers ax 1
      else s.roleMembers ax ((if express then 2 else 0) + (if plus then 0 else 1))
    { axis := ax, links := links, wrap := wrap }

/-- The next hop toward a device: the first axis that differs, in the order V, W, E, S. -/
def State.nextHop (s : State) (dest : Nat) : Option Hop :=
  let own := coordsOf s.ownDev
  let dst := coordsOf dest
  (([3, 2, 1, 0] : List Nat).find? fun ax => own.getD ax 0 != dst.getD ax 0).map fun ax => s.axisHop ax (own.getD ax 0) (dst.getD ax 0)

/-- The member that the low bits of a sequence number choose, or the next live one in order, wrapping round (R339). -/
def State.chooseLink (s : State) (links : List (Option Nat)) (seq : Nat) : Option Nat :=
  let k := seq % max 1 links.length
  (links.drop k ++ links.take k).findSome? fun m => m.filter s.linkLive

/-- The virtual channel of a flit that came on `vc` along axis `from_` and leaves by a hop (R340). -/
def vcAfter (vc : Nat) (from_ : Option Nat) (h : Hop) : Nat :=
  if 4 ≤ vc then vc
  else
    let base := vc / 2 * 2
    base + bit (h.wrap || (from_ == some h.axis && vc % 2 == 1))

/-! ### Flits (R359) -/

/-- Header bits [30:0]: KIND, VC, LSEQ, LACK. -/
def flitHeader (f : Flit) : Nat := f.kind.val + f.vc.val * 2 ^ 4 + f.lseq.toNat * 2 ^ 7 + f.lack.toNat * 2 ^ 19

/-- The CRC-32C of a flit: over header bits [30:0] and the 128-byte payload, least significant bit first (log entry 122). -/
def flitCrc (f : Flit) : Nat :=
  let step := crcStep 0x82F63B78
  let head := (List.range 31).foldl (fun c k => step (c ^^^ bit ((flitHeader f).testBit k))) 0xFFFFFFFF
  (padTo 128 f.payload).foldl (fun c b => (List.range 8).foldl (fun x _ => step x) (c ^^^ b.toNat)) head ^^^ 0xFFFFFFFF

/-- A flit as it is received passes its CRC (R360). -/
def flitOk (f : Flit) : Bool := f.crc.toNat == flitCrc f

/-! ### Sending -/

/-- A flit as it leaves on a link: the next LSEQ, the last LSEQ received in order, its CRC. -/
def State.outFlit (s : State) (l : Nat) (f : Flit) : Flit :=
  let x := s.link l
  let g : Flit := { f with lseq := BitVec.ofNat 12 x.sendSeq, lack := BitVec.ofNat 12 (x.expSeq + 4095) }
  { g with crc := BitVec.ofNat 32 (flitCrc g) }

/-- A flit leaves on a link: it takes the next LSEQ and stays in the replay buffer of 4,096 (R360). -/
def State.linkSend (s : State) (l : Nat) (f : Flit) : State :=
  let x := s.link l
  (s.setLink l { x with sendSeq := (x.sendSeq + 1) % 4096
                        unacked := (x.unacked ++ [(x.sendSeq, s.outFlit l f)]).drop (x.unacked.length + 1 - 4096) }).addWrap F.LINK_TX_FLITS l 1

/-- What the flits of one message carry: the kind of the first, the pick tag, the data. -/
structure FlitLoad where
  kind : Fin 16
  tag : Option Nat := none
  data : List Byte := []

/-- Flit `k` of a message: the first carries up to 64 bytes of data, those after it are DATA flits of 128 bytes. -/
def FlitLoad.nth (x : FlitLoad) (k : Nat) (open_ : List Byte) : Fin 16 × List Byte :=
  if k = 0 then (x.kind, open_) else (2, padTo 128 ((x.data.drop (64 + 128 * (k - 1))).take 128))

/-- `n` flits of one operation leave toward a device on virtual channel `vc`, as one message; without a live route they are discarded
(R340). A message to this device itself crosses the package only. -/
def State.sendFlits (s : State) (dest seq vc n : Nat) (x : FlitLoad) (m : Msg) : State :=
  match s.nextHop dest with
  | none => s.emit m
  | some h =>
    match s.chooseLink h.links seq with
    | none => s.countEv F.HEDDLE_NO_ROUTE 0 n Ev.HEDDLE_NO_ROUTE
    | some l =>
      ((List.range n).foldl (fun (t : State) k =>
        let y := x.nth k (Config.flitPayload l (t.fld F.LINK_TX_FLITS l))
        t.linkSend l { kind := y.1, vc := Fin.ofNat 5 (vcAfter vc none h), payload := y.2, dest := BitVec.ofNat 16 dest
                       seq := BitVec.ofNat 32 seq, tag := x.tag.map (BitVec.ofNat 8) }) s).emit m

/-- A management message leaves on VC4. -/
def State.sendMsg (s : State) (dest : Nat) (m : Msg) : State := s.sendFlits dest 0 4 1 { kind := 6 } m

end Sys2Proof.Machine
end

