-- ==== Sys2Proof/Machine/Fabric.lean ====
section
/-! DEFINITION. Remote memory operations as their issuer handles them (chapter 12): descriptors (Table 12.3), destinations (R335,
R343), reserved encodings (R344), issue with sequence numbers and credits (R349, R352), acknowledgement accounting (R346). -/
namespace Sys2Proof.Machine
open Sys2Proof

/-! ### Descriptors -/

/-- The operation descriptor that 64 bytes spell (Table 12.3); reserved bits are ignored. -/
def opDescOf (b : List Byte) : OpDesc :=
  let f := fun (o n : Nat) => leNat ((b.drop o).take n)
  { op := bitsOf (f 0 1) 0 4
    rel := bitOf (f 0 1) 4
    tagged := bitOf (f 0 1) 6
    priv := bitOf (f 0 1) 7
    ccb := f 1 1
    aop := bitsOf (f 2 1) 0 2
    frac := bitsOf (f 2 1) 2 6
    sigWait := bitOf (f 3 1) 0
    heddle := f 4 2
    destDev := f 6 2
    destAddr := f 8 6
    length := f 20 4
    localAddr := f 24 6
    op0 := f 32 8
    op1 := f 40 8
    tagPick := f 48 4
    tagCore := f 52 2
    tagArray := f 54 1
    tagTile := bitsOf (f 55 3) 0 22
    rackStep := f 60 4 }

/-- A device number formed from offsets (R343): each coordinate plus the offset in the same bits, modulo the axis size. -/
def State.relDev (s : State) (off : Nat) : Nat :=
  devOf ((List.range 4).map fun ax => ((coordsOf s.ownDev).getD ax 0 + (coordsOf off).getD ax 0) % max 1 (s.axisN ax))

/-- The destination device of a descriptor (R343). -/
def State.destOf (s : State) (d : OpDesc) : Nat := if d.rel then s.relDev d.destDev else d.destDev

/-- The bytes that an operation carries: those of a PUT, ACC or RACK. -/
def OpDesc.carries (d : OpDesc) : Bool := d.op == 0 || d.op == 2 || d.op == 6

/-- The flits of an operation: one OP flit with 64 bytes of data, DATA flits of 128 bytes (R359). -/
def flitsOf (carries : Bool) (n : Nat) : Nat := 1 + (if carries then (n - 64 + 127) / 128 else 0)

/-! ### Heddles -/

/-- A permanent heddle id (R348). -/
def permanent (h : Nat) : Bool := decide (1 ≤ h) && decide (h ≤ 22)

/-- The axis of a permanent heddle and its offset on that axis for `n` devices (R348). -/
def permOffset (s : State) (h : Nat) : Nat × Nat :=
  if h ≤ 7 then (0, h)
  else if h ≤ 14 then (1, h - 7)
  else
    let ax := if h ≤ 18 then 2 else 3
    let n := max 1 (s.axisN ax)
    let k := if h ≤ 18 then h - 15 else h - 19
    (ax, match k with
      | 0 => (n - 4 % n) % n
      | 1 => (n - 1) % n
      | 2 => 1 % n
      | _ => 4 % n)

/-- The id that the peer of a permanent heddle has for it: the heddle of the opposite offset. -/
def permPair (s : State) (h : Nat) : Nat :=
  if h ≤ 7 then s.axisN 0 - h else if h ≤ 14 then 7 + (s.axisN 1 - (h - 7)) else if h ≤ 18 then 33 - h else 41 - h

/-- The device number at an offset on an axis. -/
def State.peerAt (s : State) (ax off : Nat) : Nat :=
  let c := coordsOf s.ownDev
  devOf ((List.range 4).map fun x => if x = ax then (c.getD x 0 + off) % max 1 (s.axisN ax) else c.getD x 0)

/-- A permanent heddle that exists on this system's axes (R337, R348). -/
def State.permUsed (s : State) (h : Nat) : Bool :=
  if h ≤ 7 then decide (h < s.axisN 0)
  else if h ≤ 14 then decide (h - 7 < s.axisN 1)
  else
    let ax := if h ≤ 18 then 2 else 3
    let k := if h ≤ 18 then h - 15 else h - 19
    if k = 0 ∨ k = 3 then decide (9 ≤ s.axisN ax) else decide (2 ≤ s.axisN ax)

/-- A device that a permanent heddle serves (R348). -/
def State.permPeer (s : State) (dev : Nat) : Option Nat :=
  (rangeFrom 1 22).find? fun h => s.permUsed h && (let o := permOffset s h; s.peerAt o.1 o.2 == dev && dev != s.ownDev)

/-- A shared heddle id (R348). -/
def sharedId (h : Nat) : Bool := decide (23 ≤ h) && decide (h ≤ 512)

/-- The lowest id of the session id range: 513 less the sum of SESS_MAX (R356). -/
def State.sessBase (s : State) : Nat := 513 - ((List.range 8).map fun p => s.fld (F.HEDDLE_SESS_MAX.nth p) 0).sum

/-- Shared heddles that a partition holds: all that are not free (HEDDLE_QUOTA.IN_USE). -/
def State.inUse (s : State) (p : Nat) : Nat :=
  (s.fab.heddles.filter fun e => sharedId e.1 && e.2.st != .free && e.2.part == p).length

/-- Shared heddles free (POOL_STAT.FREE). -/
def State.poolFree (s : State) : Nat := 490 - (s.fab.heddles.filter fun e => sharedId e.1 && e.2.st != .free).length

/-- The flits granted to a heddle of this device (R352). -/
def State.credGrant (s : State) (h : Nat) : Nat :=
  if permanent h then s.fld F.HEDDLE_HEDDLE_CFG_CRED_PERM 0 else s.fld F.HEDDLE_HEDDLE_CFG_CRED_SHARED 0

/-- A fresh direction pair: every number 0, the peer's credits as this device grants them (both ends hold one configuration). -/
def State.freshCtx (s : State) (h : Nat) : SeqCtx := { credits := s.credGrant h }

/-- A heddle threaded to a peer, every sequence number at 0 (R353), THREAD_CNT counted. -/
def State.threadTo (s : State) (h peer peerId part : Nat) (repairUse session : Bool) : State :=
  (s.setHeddle h { st := .threaded, session := session, repairUse := repairUse, part := part, peer := peer, peerId := peerId,
                   ctx := s.freshCtx h, repair := { credits := s.fld F.HEDDLE_HEDDLE_CFG_CRED_SHARED 0 } }).addWrap F.HEDDLE_THREAD_CNT 0 1

/-- A heddle threaded to a device, for fabric operations (R344). -/
def State.threadedTo (s : State) (h dev : Nat) : Bool :=
  let x := s.heddle h
  x.st == .threaded && !x.session && !x.repairUse && x.peer == dev

/-- The context that an operation uses: a permanent heddle's repair context, or the heddle's own. -/
def Heddle.ctxOf (x : Heddle) (h : Nat) (repair : Bool) : SeqCtx := if repair && permanent h then x.repair else x.ctx

/-- The heddle with that context replaced. -/
def Heddle.setCtx (x : Heddle) (h : Nat) (repair : Bool) (c : SeqCtx) : Heddle :=
  if repair && permanent h then { x with repair := c } else { x with ctx := c }

/-- Issued operations on a context that are sent and not acknowledged. -/
def State.unacked (s : State) (h : Nat) (repair : Bool) : Nat :=
  (s.fab.issued.filter fun e => e.2.desc.heddle == h && e.2.sent && (e.2.repair.isSome == repair || !permanent h) && h != 0).length

/-- A partition has a shared heddle to take: its quota and the pool leave one free (R353). -/
def State.heddleFree (s : State) (p : Nat) : Bool :=
  decide (s.inUse p < s.fld F.PART_HEDDLE_QUOTA_QUOTA p) && decide (0 < s.poolFree)

/-- Threading of a shared heddle begun (R353): the end with the lower device number sends THREAD; for a repair, the end that repairs,
which alone knows of it. -/
def State.beginThread (s : State) (h peer part : Nat) (repairUse : Bool) : State :=
  let s1 := s.setHeddle h { st := .threading, part := part, peer := peer, repairUse := repairUse }
  if s.ownDev < peer ∨ repairUse = true then s1.sendMsg peer (.thread (.thread part repairUse) peer h) else s1

/-- The release of a shared heddle begun (R353). -/
def State.beginRelease (s : State) (h : Nat) : State :=
  let x := s.heddle h
  if x.st = .threaded ∨ x.st = .threading then
    (s.setHeddle h { x with st := .releasing }).sendMsg x.peer (.thread .release x.peer h)
  else s

/-! ### Issue -/

/-- A descriptor that is a reserved encoding (R344). R117 and R344 name the FRAC of an ACC alone: a FRAC of any other operation is not looked at
(log entry 127). -/
def State.opBad (s : State) (d : OpDesc) : Bool :=
  let lenOk := if d.op = 3 ∨ d.op = 4 ∨ d.op = 5 then d.length == 8 else decide (1 ≤ d.length) && decide (d.length ≤ 16384)
  let hedOk := if d.heddle = 0 then s.destOf d == s.ownDev
    else decide (d.heddle ≤ 512) && s.threadedTo d.heddle (s.destOf d)
  let accOk := d.op != 2 || (decide (d.aop < 3) && fmtOk (ccbFmt d.ccb) && decide (ccbRm d.ccb < 5) && fracOk (ccbFmt d.ccb) d.frac)
  let intOk := !(d.op == 4 || d.op == 5) || ((ccbFmt d.ccb == 0xA || ccbFmt d.ccb == 0xB) && decide (d.ccb < 16))
  !(decide (d.op < 7) && lenOk && hedOk && accOk && intOk)

/-- The state with an issued operation replaced. -/
def State.setIssued (s : State) (id : Nat) (o : IssuedOp) : State :=
  { s with fab := { s.fab with issued := Tab.set s.fab.issued id o } }

/-- The pick tag that an issued operation carries; those of repair contexts carry none (R347). -/
def IssuedOp.tag (o : IssuedOp) : Option Nat := if o.repair.isSome then none else some o.pickTag

/-- The flits of an issued operation leave for its destination, with the source device, the partition and the pick tag (R339, R359). -/
def State.sendOp (s : State) (id : Nat) (o : IssuedOp) (seq : Nat) : State :=
  s.sendFlits o.dest seq 0 (flitsOf o.desc.carries o.desc.length) { kind := 1, tag := o.tag, data := o.data }
    (.op id o.dest (s.heddle o.desc.heddle).peerId seq s.ownDev o.part o.tag o.desc o.data o.poison o.repair)

/-- An issued operation sent on its heddle, where the window of 1,024 and the credits let it go (R349, R352); it waits otherwise. -/
def State.trySend (s : State) (id : Nat) : State :=
  match Tab.get? s.fab.issued id with
  | none => s
  | some o =>
    if o.sent then s
    else
      let h := o.desc.heddle
      let x := s.heddle h
      let c := x.ctxOf h o.repair.isSome
      let n := flitsOf o.desc.carries o.desc.length
      if s.unacked h o.repair.isSome < 1024 ∧ n ≤ c.credits then
        let o' := { o with sent := true, seq := c.sendNext }
        ((s.setIssued id o').setHeddle h (x.setCtx h o.repair.isSome { c with sendNext := (c.sendNext + 1) % 2 ^ 32, credits := c.credits - n })).sendOp id o' c.sendNext
      else s

/-- Every operation that waits on a context, tried in the order of issue. -/
def State.sendWaiting (s : State) (h : Nat) : State :=
  (s.fab.issued.filter fun e => !e.2.sent && e.2.desc.heddle == h).foldl (fun t e => t.trySend e.1) s

/-- An operation issued: local ones cross the package, others go on their heddle in issue order. Answers its number. -/
def State.issueOp (s : State) (who : Issuer) (d : OpDesc) (part : Option Nat) (data : List Byte) (pz : List Nat)
    (repair : Option RepairOp := none) : State × Nat :=
  let id := s.fab.nextOp
  let o : IssuedOp := { issuer := who, desc := d, dest := s.destOf d, part := part, pickTag := s.pick.num % 256, data := data,
                        poison := pz, repair := repair, sent := d.heddle == 0 }
  let s1 := { s with fab := { s.fab with issued := Tab.set s.fab.issued id o, nextOp := id + 1 } }
  let early := s.fab.issued.any fun e => !e.2.sent && e.2.desc.heddle == d.heddle && e.2.repair.isSome == repair.isSome
  (if d.heddle = 0 ∨ early then s1 else s1.trySend id, id)

/-- A local operation (HEDDLE = 0) of a unit: PUT, SIG and the like on this device. -/
def localOp (op addr len : Nat) : OpDesc := { op := op, destAddr := addr, length := len }

/-! ### Acknowledgement -/

/-- The page that counts an issuer's errors, and the agent code (R29, Table 2.4). -/
def Issuer.page : Issuer → (Nat × Nat) × Nat
  | .strand c _ => ((1, c), 0x0B)
  | .epilogue c _ _ _ _ _ => ((1, c), 0)
  | .runAhead c _ => ((1, c), 0)
  | .solver e => ((5, e), 0)
  | .update c => ((6, c), 0)
  | .group c _ _ => ((6, c), 0)
  | .repair c => ((6, c), 0)
  | .coll c _ _ => ((7, c), 0)
  | .tile c _ => ((7, c), 0)
  | .audit => ((13, 0), 0)

/-- A status other than OK counted on the issuing unit's page (Table 12.5); a blocked one counts on its partition's page too. -/
def State.countStatus (s : State) (o : IssuedOp) (status addr : Nat) : State :=
  let pg := o.issuer.page
  match status with
  | 0 => s
  | 2 => s.countAccess pg.1 2 addr pg.2 o.part
  | 3 => s.countUnavail pg.1 addr pg.2
  | _ => s.countErr pg.1.1 pg.1.2 errUnmapped addr pg.2

/-- The operation leaves the list of issued ones; what waited on its heddle may go. -/
def State.retire (s : State) (id : Nat) : State :=
  match Tab.get? s.fab.issued id with
  | none => s
  | some o =>
    let s1 := { s with fab := { s.fab with issued := Tab.del s.fab.issued id } }
    if o.desc.heddle = 0 then s1 else s1.sendWaiting o.desc.heddle

/-- Operations of repairs on a shared heddle are dropped with it. -/
def State.dropRepairOps (s : State) (h : Nat) : State :=
  { s with fab := { s.fab with issued := s.fab.issued.filter fun e => !(e.2.desc.heddle == h && e.2.repair.isSome) } }

/-- Operations of an issuer that are not acknowledged. -/
def State.hasOps (s : State) (f : Issuer → Bool) : Bool := s.fab.issued.any fun e => f e.2.issuer

end Sys2Proof.Machine
end

