-- ==== Sys2Proof/Machine/Random.lean ====
section
/-! DEFINITION. The counter-based generator (R392) and the 24 bits that stochastic rounding draws from it (R129, R393). -/
namespace Sys2Proof.Machine

/-- Rotation of a 64-bit word to the left. -/
def rotl64 (x r : Nat) : Nat := (x * 2 ^ r + x / 2 ^ (64 - r)) % 2 ^ 64

/-- The rotation of round `r` (R392). -/
def genRot (r : Nat) : Nat :=
  match r % 5 with
  | 0 => 23
  | 1 => 9
  | 2 => 41
  | 3 => 17
  | _ => 56

/-- One round (R392). -/
def genRound (k0 k1 : Nat) (x : Nat × Nat) (r : Nat) : Nat × Nat :=
  let x0 := (x.1 + (if r % 2 = 0 then k0 else k1) + r) % 2 ^ 64
  let x1 := x.2 ^^^ rotl64 x0 (genRot r)
  let x0 := x0 * 0x8F3A6C1D94E725B3 % 2 ^ 64
  let x1 := x1 * 0xE19D4B720C6F38A5 % 2 ^ 64
  let x0 := x0 ^^^ (x1 / 2 ^ 29)
  let x1 := x1 ^^^ (x0 / 2 ^ 31)
  (x0, x1)

/-- The generator: seed, work pick, stream, index (R392). -/
def gen (seed w t i : Nat) : Nat × Nat :=
  let k0 := seed % 2 ^ 64
  let k1 := rotl64 k0 29 ^^^ 0x6D2CF917A4B853E1
  (List.range 10).foldl (genRound k0 k1) (i % 2 ^ 48 + t % 2 ^ 16 * 2 ^ 48, w % 2 ^ 48 + t / 2 ^ 16 % 2 ^ 16 * 2 ^ 48)

/-- The 24-bit value of stochastic rounding (R129). -/
def srDraw (seed w t i : Nat) : Nat := (gen seed w t i).1 % 2 ^ 24

end Sys2Proof.Machine
end

