-- ==== Sys2Proof/Machine/Operands.lean ====
section
/-! DEFINITION. What an instruction reads and writes on its strand: scalar registers (R222), fields of the word (R237), the own spool
window (R202, R341), issue (R229), reserved encodings (R239), owners (R226), stochastic-rounding keys (R197). -/
namespace Sys2Proof.Machine
open Sys2Proof

/-! ### Strands and scalar registers -/

/-- A strand context. -/
def State.strand (s : State) (c t : Nat) : Strand := Tab.get {} (s.core c).strands t

/-- The state with a strand context replaced. -/
def State.setStrand (s : State) (c t : Nat) (x : Strand) : State :=
  s.setCore c { s.core c with strands := Tab.set (s.core c).strands t x }

/-- A scalar register: 64 bits; s0 reads 0 (R222). -/
def Strand.reg (x : Strand) (n : Nat) : Nat := if n = 0 then 0 else Tab.get 0 x.regs n % 2 ^ 64

/-- A strand with a scalar register written; a write to s0 is discarded (R222). -/
def Strand.setReg (x : Strand) (n v : Nat) : Strand := if n = 0 then x else { x with regs := Tab.set x.regs n (v % 2 ^ 64) }

def State.sreg (s : State) (c t n : Nat) : Nat := (s.strand c t).reg n

def State.setSreg (s : State) (c t n v : Nat) : State := s.setStrand c t ((s.strand c t).setReg n v)

/-- The value of the scalar register that field A names. -/
def State.ra (s : State) (i : Issue) : Nat := s.sreg i.core.val i.strand.val i.a.val

/-- The value of the scalar register that field B names. -/
def State.rb (s : State) (i : Issue) : Nat := s.sreg i.core.val i.strand.val i.b.val

/-- The scalar register that field D names, written. -/
def State.wd (s : State) (i : Issue) (v : Nat) : State := s.setSreg i.core.val i.strand.val i.d.val v

/-- IMM, sign-extended. -/
def immS (i : Issue) : Int := signedOf 32 i.imm.toNat

/-- IMM, sign-extended to 64 bits. -/
def imm64 (i : Issue) : Nat := wrapInt 64 (immS i)

/-- Bits of MOD. -/
def modBits (i : Issue) (lo w : Nat) : Nat := bitsOf i.mod.val lo w

/-- Bits of IMM. -/
def immBits (i : Issue) (lo w : Nat) : Nat := bitsOf i.imm.toNat lo w

/-- The fields that an instruction does not use are 0 (R237, R239): D, A and B where they are not used, the bits of MOD from
`modW` on, and IMM from bit `immW` on. -/
def unusedZero (i : Issue) (d a b : Bool) (modW immW : Nat) : Bool :=
  (d || i.d.val == 0) && (a || i.a.val == 0) && (b || i.b.val == 0) && decide (i.mod.val < 2 ^ modW) && decide (i.imm.toNat < 2 ^ immW)

/-! ### Issue -/

/-- The instruction word of an opcode with the fields of a command (Table 8.3). -/
def wordOf (op : Nat) (i : Issue) : Nat :=
  op * 2 ^ 56 + i.d.val * 2 ^ 51 + i.a.val * 2 ^ 46 + i.b.val * 2 ^ 41 + i.mod.val * 2 ^ 32 + i.imm.toNat

/-- A strand that may issue an instruction (R229): RUNNING, not waiting, and the word that it has fetched is the instruction's. -/
def State.canIssue (s : State) (op : Nat) (i : Issue) : Bool :=
  let x := s.strand i.core.val i.strand.val
  x.st == .running && x.wait.isNone && x.ir == some (wordOf op i)

/-- An instruction issued: the program counter moves past it and STR_ISSUED counts it. -/
def State.advance (s : State) (c t : Nat) : State :=
  let x := s.strand c t
  let s1 := s.setStrand c t { x with pc := (x.pc + 8) % 2 ^ 64, wait := none, ir := none }
  (s1.setCore c { s1.core c with lastIssue := t }).addWrap F.CORE_STR_ISSUED c 1

/-- Errors of the instruction buffer and the scalar registers (R246). -/
def State.strEcc (s : State) (c : Nat) (e : Ecc) : State :=
  let s1 := (s.countEv F.CORE_STR_ECC_CORR c e.corr Ev.CORE_STR_CORR).countEv F.CORE_STR_ECC_UNCORR c e.uncorr Ev.CORE_STR_UNCORR
  if e.uncorr = 0 then s1 else s1.fault

/-- Errors of the vector registers and the accumulators (R219). -/
def State.vecEcc (s : State) (c : Nat) (e : Ecc) : State :=
  let s1 := (s.countEv F.CORE_VEC_ECC_CORR c e.corr Ev.CORE_VEC_CORR).countEv F.CORE_VEC_ECC_UNCORR c e.uncorr Ev.CORE_VEC_UNCORR
  if e.uncorr = 0 then s1 else s1.fault

/-- A reserved encoding of the strand engine (R239). -/
def State.strRsvd (s : State) (c : Nat) : State := s.countEv F.CORE_STR_RSVD c 1 Ev.CORE_STR_RSVD

/-- A reserved encoding of the vector engine (R111, R217). -/
def State.vecRsvd (s : State) (c : Nat) : State := s.countEv F.CORE_VEC_RSVD c 1 Ev.CORE_VEC_RSVD

/-- A reserved encoding of an array or of the matrix-vector path (R146, R111). -/
def State.arrRsvd (s : State) (c : Nat) : State := s.countEv F.CORE_ARR_RSVD_CNT c 1 Ev.CORE_ARR_RSVD

/-- An instruction of the strand engine, opcode `op`, where its strand may issue: the strand advances, and the instruction has its effect,
or, where its encoding is reserved, none (R239). -/
def State.issue (s : State) (op : Nat) (i : Issue) (ok : Bool) (body : State → State) : State :=
  let c := i.core.val
  let t := i.strand.val
  if s.canIssue op i then
    let s1 := (s.advance c t).strEcc c i.ecc
    if ok then body s1 else s1.strRsvd c
  else s

/-! ### Owned units (R226) -/

/-- Strand `t` owns unit `u` of core `c`: 0 VEC, 1 ARR0, 2 ARR1, 3 MVP. -/
def State.owns (s : State) (c t u : Nat) : Bool := Tab.get? (s.core c).owner u == some t

/-! ### The spool window -/

/-- All of `n` bytes at `a` lie in the window of core `c`'s own spool (R202). -/
def inWindow (c a n : Nat) : Bool := decide (spoolAddr c 0 ≤ a) && decide (a + n ≤ spoolAddr c 0 + spoolBytes)

/-- Bytes of a core's own spool; those outside its window read zeros (R341). -/
def State.windowRead (s : State) (c a n : Nat) : List Byte × List Nat :=
  if inWindow c a n then let r := s.readMem none a n; (r.data, r.poison)
  else
    let lo := max a (spoolAddr c 0)
    let hi := min (a + n) (spoolAddr c 0 + spoolBytes)
    if lo < hi then
      let r := s.readMem none lo (hi - lo)
      (List.replicate (lo - a) 0 ++ r.data ++ List.replicate (a + n - hi) 0,
        ((pieces lo (hi - lo)).flatMap fun x => if s.blockPoison (lo + x.1) then dataBlocks (lo - a + x.1) x.2 else []).foldl insertNat [])
    else (List.replicate n 0, [])

/-- Bytes written to a core's own spool; those outside its window are dropped (R341). `pz o m` says whether the `m` bytes of the data from
offset `o` carry poison. -/
def State.windowWriteBy (s : State) (c a : Nat) (bytes : List Byte) (pz : Nat → Nat → Bool) : State :=
  let n := bytes.length
  let lo := max a (spoolAddr c 0)
  let hi := min (a + n) (spoolAddr c 0 + spoolBytes)
  if lo < hi then s.writeBy none lo ((bytes.drop (lo - a)).take (hi - lo)) fun o m => pz (lo - a + o) m
  else s

/-- Bytes written to a core's own spool, where `pz` lists the poisoned 64-byte blocks of the data. -/
def State.windowWrite (s : State) (c a : Nat) (bytes : List Byte) (pz : List Nat) : State :=
  s.windowWriteBy c a bytes fun o m => (dataBlocks o m).any pz.contains

/-- An access of a core outside its window counts in STR_OOW. -/
def State.strOow (s : State) (c n : Nat) : State := s.addSat F.CORE_STR_OOW c n

/-- An out-of-window address that falls under R29 or R33 is counted there as well (R202); agent 0x0B. -/
def State.oowAccess (s : State) (c a n : Nat) (write : Bool) : State :=
  let x := s.checkAll (s.corePart c) write a n
  if regionOf a = .page then s.countAccess (1, c) x.st x.addr 0x0B (s.corePart c)
  else s.accessDone (1, c) 0x0B (s.corePart c) x

/-- The core consumes poisoned data where a flag says so (R218). -/
def State.corePoison (s : State) (c : Nat) (p : Bool) : State := if p then s.poisoned 1 c else s

/-- Storage errors in the blocks of its own spool that an instruction of core `c` reads (R281). -/
def State.splEcc (s : State) (c : Nat) (l : List BlockEcc) : State :=
  (l.filter fun x => inWindow c x.addr.toNat 1).foldl (fun t x => (t.eccBlock none x).1) s

/-! ### Stochastic rounding (R197) -/

/-- The 24 bits drawn for element `k` of an instruction of the strand. -/
def State.srU (s : State) (c t k : Nat) : Nat :=
  let x := (s.strand c t).key
  srDraw x.seed s.pick.work x.stream (x.count * 2048 + k)

/-- The key's count after an instruction that rounds under SR. -/
def State.srDone (s : State) (c t rm : Nat) : State :=
  if rm = 5 then
    let x := s.strand c t
    s.setStrand c t { x with key := { x.key with count := x.key.count + 1 } }
  else s

end Sys2Proof.Machine
end

