-- ==== Sys2Proof/Machine/Strand.lean ====
section
/-! DEFINITION. The instructions that the strand engine executes itself (Table 8.8, opcodes 0x00 to 0x30, but those that reach memory or
pages): integer and scalar floating-point arithmetic, branches, strand control, waits, and reads of its own state. -/
namespace Sys2Proof.Machine
open Sys2Proof

/-! ### Integer arithmetic -/

/-- Second source of an integer instruction: IMM sign-extended where MOD bit 0 is 1, else sb (R238). -/
def State.aluB (s : State) (i : Issue) : Nat := if bitOf i.mod.val 0 then imm64 i else s.rb i

/-- An integer instruction with no unused field set (R239). -/
def aluOk (i : Issue) : Bool :=
  if bitOf i.mod.val 0 then unusedZero i true true false 1 32 else unusedZero i true true true 1 0

/-- An integer instruction whose result `f` of sa and the second source goes to sd. -/
def State.alu (s : State) (op : Nat) (i : Issue) (f : Nat → Nat → Nat) : State :=
  s.issue op i (aluOk i) fun t => t.wd i (f (t.ra i) (t.aluB i))

/-- A division or remainder: a divisor of 0 counts in STR_DIV0 (Table 8.8). -/
def State.aluDiv (s : State) (op : Nat) (i : Issue) (f : Nat → Nat → Nat) : State :=
  s.issue op i (aluOk i) fun t =>
    let u := t.wd i (f (t.ra i) (t.aluB i))
    if t.aluB i = 0 then u.addSat F.CORE_STR_DIV0 i.core.val 1 else u

def execNop (i : Issue) (s : State) : Host.Outcome State Fault Refusal := .next (s.issue 0x00 i (unusedZero i false false false 0 0) id)
def execAdd (i : Issue) (s : State) : Host.Outcome State Fault Refusal := .next (s.alu 0x01 i fun a b => (intAdd 64 a b).1)
def execSub (i : Issue) (s : State) : Host.Outcome State Fault Refusal := .next (s.alu 0x02 i fun a b => (intSub 64 a b).1)
def execMul (i : Issue) (s : State) : Host.Outcome State Fault Refusal := .next (s.alu 0x03 i fun a b => (intMul 64 a b).1)
/-- The high half of the signed product (log entry 20). -/
def execMulh (i : Issue) (s : State) : Host.Outcome State Fault Refusal := .next (s.alu 0x04 i (intMulh 64))
def execDiv (i : Issue) (s : State) : Host.Outcome State Fault Refusal := .next (s.aluDiv 0x05 i fun a b => (intDiv 64 a b).1)
def execRem (i : Issue) (s : State) : Host.Outcome State Fault Refusal := .next (s.aluDiv 0x06 i fun a b => (intRem 64 a b).1)
def execAnd (i : Issue) (s : State) : Host.Outcome State Fault Refusal := .next (s.alu 0x07 i intAnd)
def execOr (i : Issue) (s : State) : Host.Outcome State Fault Refusal := .next (s.alu 0x08 i intOr)
def execXor (i : Issue) (s : State) : Host.Outcome State Fault Refusal := .next (s.alu 0x09 i intXor)
def execSll (i : Issue) (s : State) : Host.Outcome State Fault Refusal := .next (s.alu 0x0A i (intSll 64))
def execSrl (i : Issue) (s : State) : Host.Outcome State Fault Refusal := .next (s.alu 0x0B i (intSrl 64))
def execSra (i : Issue) (s : State) : Host.Outcome State Fault Refusal := .next (s.alu 0x0C i (intSra 64))
def execSlt (i : Issue) (s : State) : Host.Outcome State Fault Refusal := .next (s.alu 0x0D i fun a b => bit (intSlt 64 a b))
def execSltu (i : Issue) (s : State) : Host.Outcome State Fault Refusal := .next (s.alu 0x0E i fun a b => bit (intSltu a b))

/-- LI: IMM sign-extended, or IMM over the low half of sa (Table 8.8). -/
def execLi (i : Issue) (s : State) : Host.Outcome State Fault Refusal :=
  .next (s.issue 0x0F i (unusedZero i true (bitOf i.mod.val 0) false 1 32) fun t =>
    t.wd i (if bitOf i.mod.val 0 then t.ra i % 2 ^ 32 + i.imm.toNat * 2 ^ 32 else imm64 i))

/-! ### Branches -/

/-- The strand's program counter moved to `base + 8 × IMM`. -/
def State.jumpTo (s : State) (i : Issue) (base : Nat) : State :=
  let x := s.strand i.core.val i.strand.val
  s.setStrand i.core.val i.strand.val { x with pc := wrapInt 64 (base + 8 * immS i) }

/-- A conditional branch relative to its own address `pc` (Table 8.8). -/
def State.branch (s : State) (op : Nat) (i : Issue) (cond : Nat → Nat → Bool) : State :=
  let pc := (s.strand i.core.val i.strand.val).pc
  s.issue op i (unusedZero i false true true 0 32) fun t => if cond (t.ra i) (t.rb i) then t.jumpTo i pc else t

def execBeq (i : Issue) (s : State) : Host.Outcome State Fault Refusal := .next (s.branch 0x15 i fun a b => a == b)
def execBne (i : Issue) (s : State) : Host.Outcome State Fault Refusal := .next (s.branch 0x16 i fun a b => a != b)
def execBlt (i : Issue) (s : State) : Host.Outcome State Fault Refusal := .next (s.branch 0x17 i (intSlt 64))
def execBge (i : Issue) (s : State) : Host.Outcome State Fault Refusal := .next (s.branch 0x18 i fun a b => !intSlt 64 a b)
def execBltu (i : Issue) (s : State) : Host.Outcome State Fault Refusal := .next (s.branch 0x19 i intSltu)
def execBgeu (i : Issue) (s : State) : Host.Outcome State Fault Refusal := .next (s.branch 0x1A i fun a b => !intSltu a b)

/-- JAL: sd = pc + 8, target pc + 8 × IMM. -/
def execJal (i : Issue) (s : State) : Host.Outcome State Fault Refusal :=
  let pc := (s.strand i.core.val i.strand.val).pc
  .next (s.issue 0x1B i (unusedZero i true false false 0 32) fun t => (t.wd i (pc + 8)).jumpTo i pc)

/-- JALR: sd = pc + 8, target sa + 8 × IMM with sa as it stood before. -/
def execJalr (i : Issue) (s : State) : Host.Outcome State Fault Refusal :=
  let pc := (s.strand i.core.val i.strand.val).pc
  .next (s.issue 0x1C i (unusedZero i true true false 0 32) fun t => (t.wd i (pc + 8)).jumpTo i (t.ra i))

/-! ### Scalar floating point (R196, R238) -/

/-- The fields of the value form (Table 8.4). -/
def vCcb (i : Issue) : Nat := modBits i 0 8
def vSb (i : Issue) : Bool := bitOf i.mod.val 8
def vFa (i : Issue) : Nat := immBits i 0 4
def vFb (i : Issue) : Nat := immBits i 4 4
def vFracA (i : Issue) : Nat := immBits i 8 6
def vFracD (i : Issue) : Nat := immBits i 14 6
def vK (i : Issue) : Nat := immBits i 20 7
def vSub (i : Issue) : Nat := immBits i 27 5

/-- FRAC_A serves every integer source; it is 0 where no source is an integer (R117, R238). -/
def fracAOk (srcs : List Nat) (frac : Nat) : Bool :=
  let ints := srcs.filterMap intWidth
  if ints.isEmpty then frac == 0 else ints.all fun w => decide (frac < w)

/-- SB, K and the fields that a scalar floating-point instruction does not use are 0 (R238, R239). -/
def sfUnused (i : Issue) (two cmp : Bool) : Bool :=
  !vSb i && vK i == 0 && (cmp || vSub i == 0) && (two || (i.b.val == 0 && vFb i == 0))

/-- No reserved code or out-of-range value (R111, R117, R239). -/
def sfOk (i : Issue) (two cmp : Bool) : Bool :=
  let srcs := if two then [vFa i, vFb i] else [vFa i]
  ccbOk (vCcb i) && srcs.all fmtOk && fracAOk srcs (vFracA i) && fracOk (ccbFmt (vCcb i)) (vFracD i) && (!cmp || decide (vSub i ≤ 5))

/-- A scalar floating-point instruction: the exact value `f` of its sources rounded once to sd; a reserved code writes 0 (R239). -/
def State.sfOp (s : State) (op : Nat) (i : Issue) (two : Bool) (f : State → Val → Val → Val) : State :=
  s.issue op i (sfUnused i two false) fun t =>
    if sfOk i two false then
      let v := f t (decodeVal (vFa i) (vFracA i) (t.ra i)) (decodeVal (vFb i) (vFracA i) (t.rb i))
      (t.wd i (roundCcb (vCcb i) (vFracD i) (t.srU i.core.val i.strand.val 0) v).bits).srDone i.core.val i.strand.val (ccbRm (vCcb i))
    else (t.wd i 0).strRsvd i.core.val

/-- The conditions of VCMP and SFCMP (R199): SUB 0 EQ, 1 NE, 2 LT, 3 LE, 4 GT, 5 GE; with a NaN only NE holds. -/
def condHolds (sub : Nat) (o : Option Ordering) : Bool :=
  match o with
  | none => sub == 1
  | some o =>
    match sub with
    | 0 => o == .eq
    | 1 => o != .eq
    | 2 => o == .lt
    | 3 => o != .gt
    | 4 => o == .gt
    | _ => o != .lt

def execSfadd (i : Issue) (s : State) : Host.Outcome State Fault Refusal := .next (s.sfOp 0x20 i true fun _ x y => Val.add 0 x y)
def execSfsub (i : Issue) (s : State) : Host.Outcome State Fault Refusal := .next (s.sfOp 0x21 i true fun _ x y => Val.sub 0 x y)
def execSfmul (i : Issue) (s : State) : Host.Outcome State Fault Refusal := .next (s.sfOp 0x22 i true fun _ x y => Val.mul x y)
/-- SFMA: sd = sa × sb + sd, rounded once; the addend is in the CCB format (Table 8.4). -/
def execSfma (i : Issue) (s : State) : Host.Outcome State Fault Refusal :=
  .next (s.sfOp 0x23 i true fun t x y =>
    Val.add 0 (Val.mul x y) (decodeVal (ccbFmt (vCcb i)) (vFracD i) (t.sreg i.core.val i.strand.val i.d.val)))
def execSfdiv (i : Issue) (s : State) : Host.Outcome State Fault Refusal := .next (s.sfOp 0x24 i true fun _ x y => Val.div x y)
def execSfsqrt (i : Issue) (s : State) : Host.Outcome State Fault Refusal := .next (s.sfOp 0x25 i false fun _ x _ => Val.sqrt x)
def execSfcvt (i : Issue) (s : State) : Host.Outcome State Fault Refusal := .next (s.sfOp 0x26 i false fun _ x _ => x)
/-- SFCMP: 1 where the condition holds, else 0 (Table 8.8). -/
def execSfcmp (i : Issue) (s : State) : Host.Outcome State Fault Refusal :=
  .next (s.issue 0x27 i (sfUnused i true true) fun t =>
    if sfOk i true true then
      (t.wd i (bit (condHolds (vSub i) (Val.cmp (decodeVal (vFa i) (vFracA i) (t.ra i)) (decodeVal (vFb i) (vFracA i) (t.rb i)))))).srDone
        i.core.val i.strand.val (ccbRm (vCcb i))
    else (t.wd i 0).strRsvd i.core.val)

/-! ### Strand control -/

/-- The registers that Table 8.1 names, but s1 (R223, R227). -/
def State.taskRegs (s : State) (c s1 : Nat) : Tab Nat :=
  [(1, s1 % 2 ^ 64), (2, s.pick.work), (3, c), (4, s.ownDev), (5, (s.core c).task.getD 0), (6, (s.core c).part)]

/-- The nearest RUNNING strand in the chain of spawners of strand `t` (R228); a context that has since been spawned anew runs another
strand. -/
def State.heir (s : State) (c t : Nat) : Option Nat :=
  ((s.strand c t).chain.find? fun e => let x := s.strand c e.1; x.st == .running && x.inst == e.2).map (·.1)

/-- A strand made ENDED: its units pass to the heir, or have no owner (R228). -/
def State.endAt (s : State) (c t : Nat) : State :=
  let s1 := s.setStrand c t { s.strand c t with st := .ended, wait := none, ir := none }
  let h := s1.heir c t
  let k := s1.core c
  s1.setCore c { k with owner := k.owner.filterMap fun e =>
    if e.2 = t then h.map fun p => (e.1, p) else some e }

/-- END (R228). -/
def execEndStrand (i : Issue) (s : State) : Host.Outcome State Fault Refusal :=
  .next (s.issue 0x29 i (unusedZero i false false false 0 0) fun t => t.endAt i.core.val i.strand.val)

/-- The units that a SPAWN names, 0 to 3. -/
def spawnUnits (i : Issue) : List Nat := (List.range 4).filter fun u => bitOf i.mod.val u

/-- A SPAWN that is no reserved encoding (R227): TARGET is neither 0 nor the issuing strand, and the spawner owns every unit named. -/
def State.spawnOk (s : State) (i : Issue) : Bool :=
  unusedZero i false true false 7 32 && modBits i 4 3 != 0 && modBits i 4 3 != i.strand.val &&
    (spawnUnits i).all fun u => s.owns i.core.val i.strand.val u

/-- SPAWN's effect (R227): TARGET runs at pc + 8 × IMM, the units named pass to it. -/
def State.spawn (s : State) (i : Issue) (pc : Nat) : State :=
  let c := i.core.val
  let g := modBits i 4 3
  let x := s.strand c i.strand.val
  let n := (s.core c).spawns + 1
  let s1 := s.setStrand c g
    { st := .running, pc := wrapInt 64 (pc + 8 * immS i), regs := s.taskRegs c (s.ra i), inst := n, chain := (i.strand.val, x.inst) :: x.chain }
  let k := s1.core c
  s1.setCore c { k with spawns := n, owner := (spawnUnits i).foldl (fun o u => Tab.set o u g) k.owner }

/-- The passes of strand `t` on an array whose rows an epilogue has sent and whose destination has not yet performed them (R231). -/
def State.unperformed (s : State) (c t n : Nat) : List Nat :=
  (s.fab.issued.filterMap fun e => match e.2.issuer with
    | .epilogue k u a p _ _ => if k = c ∧ u = t ∧ a = n then some p else none
    | _ => none).foldl insertNat []

/-- Instructions of strand `t` to unit `u` that are incomplete (R231): 0 VEC, 1 ARR0, 2 ARR1, 3 MVP, 4 remote operations, 5 fetch
descriptors. -/
def State.incomplete (s : State) (c t u : Nat) : Nat :=
  let k := s.core c
  match u with
  | 0 => 0
  | 3 => (k.mvpQueue.filter fun e => e.1 == t).length + (if k.mvp.any fun j => j.strand == t then 1 else 0)
  | 4 => (s.fab.issued.filter fun e => e.2.issuer == .strand c t).length
  | 5 => (k.streams.map fun e => (e.2.queue.filter fun d => d.strand == t).length).sum
  | _ =>
    let a : ArrState := Tab.get {} k.arr (u - 1)
    let mine := (a.live.filter fun e => e.2 == t).map (·.1)
    ((s.unperformed c t (u - 1)).foldl insertNat mine).length + (a.loader.filter fun e => e.strand == t).length

/-- A waiting instruction is satisfied (R227, R231, R234, SIGWAIT of Table 8.8). -/
def State.waitMet (s : State) (op : WaitOp) (i : Issue) : Bool :=
  let c := i.core.val
  match op with
  | .spawn => (s.strand c (modBits i 4 3)).st != .running
  | .sync => (List.range 6).all fun u => !bitOf i.mod.val u || decide (s.incomplete c i.strand.val u ≤ i.imm.toNat)
  | .waits => decide (s.ra i ≤ (Tab.get ({} : Stream) (s.core c).streams (immBits i 0 4)).landed)
  | .sigwait => decide (s.rb i ≤ leNat (s.windowRead c (s.ra i) 8).1)

/-- The opcode of a waiting instruction. -/
def WaitOp.code : WaitOp → Nat
  | .spawn => 0x28
  | .sync => 0x2A
  | .waits => 0x2B
  | .sigwait => 0x2D

/-- A waiting instruction: it issues where it is satisfied, and the strand waits otherwise (R229). -/
def State.waitIssue (s : State) (op : WaitOp) (i : Issue) (ok : Bool) : State :=
  let c := i.core.val
  let t := i.strand.val
  let x := s.strand c t
  if s.canIssue op.code i && ok && !s.waitMet op i then s.setStrand c t { x with wait := some (op, i) }
  else s.issue op.code i ok fun u => if op = .spawn then u.spawn i x.pc else u

/-- SPAWN (R227). -/
def execSpawn (i : Issue) (s : State) : Host.Outcome State Fault Refusal := .next (s.waitIssue .spawn i (s.spawnOk i))

/-- SYNC (R231). -/
def execSync (i : Issue) (s : State) : Host.Outcome State Fault Refusal :=
  .next (s.waitIssue .sync i (unusedZero i false false false 6 32))

/-- WAITS (R234). -/
def execWaits (i : Issue) (s : State) : Host.Outcome State Fault Refusal :=
  .next (s.waitIssue .waits i (unusedZero i false true false 0 4))

/-- SIGWAIT: sa is 8-byte aligned within the own spool window (Table 8.8). -/
def execSigwait (i : Issue) (s : State) : Host.Outcome State Fault Refusal :=
  .next (s.waitIssue .sigwait i
    (unusedZero i false true true 0 0 && s.ra i % 8 == 0 && inWindow i.core.val (s.ra i) 8))

/-- STRAND_WAIT_RELEASE: a strand whose waiting instruction is satisfied goes on (R229). -/
def execStrandWaitRelease (core : Fin 512) (strand : Fin 8) (s : State) : Host.Outcome State Fault Refusal :=
  let x := s.strand core.val strand.val
  match x.wait with
  | some (op, i) =>
    if x.st = .running ∧ s.waitMet op i = true then
      .next (((s.setStrand core.val strand.val { x with wait := none }).waitIssue op i true))
    else .next s
  | none => .next s

/-! ### Reads of the strand's own state -/

/-- RDID (Table 8.8). -/
def execRdid (i : Issue) (s : State) : Host.Outcome State Fault Refusal :=
  let c := i.core.val
  .next (s.issue 0x2E i (unusedZero i true false false 0 32 && decide (i.imm.toNat ≤ 5)) fun t =>
    t.wd i (match i.imm.toNat with
      | 0 => t.pick.work
      | 1 => c
      | 2 => t.ownDev
      | 3 => (t.core c).task.getD 0
      | 4 => (t.core c).part
      | _ => i.strand.val))

/-- RDCYC: core cycles since the current pick edge; the command carries them. -/
def execRdcyc (i : Issue) (s : State) : Host.Outcome State Fault Refusal :=
  .next (s.issue 0x2F i (unusedZero i true false false 0 0) fun t => t.wd i i.cyc)

/-- RDTEMP: junction temperature of the loom die, 1/16 °C, signed. -/
def execRdtemp (i : Issue) (s : State) : Host.Outcome State Fault Refusal :=
  .next (s.issue 0x30 i (unusedZero i true false false 0 0) fun t =>
    t.wd i (wrapInt 64 (signedOf 16 (wrapInt 16 (Tab.get 0 t.power.dies (i.core.val / 32))))))

/-- An opcode that Table 8.8 lists (R239). -/
def listedOp (op : Nat) : Bool :=
  decide (op < 0x98) && !(decide (0x1D ≤ op) && decide (op ≤ 0x1F)) && !(decide (0x34 ≤ op) && decide (op ≤ 0x37)) &&
    !(decide (0x3C ≤ op) && decide (op ≤ 0x3F)) && op != 0x53 && !(decide (0x5C ≤ op) && decide (op ≤ 0x5F)) &&
    !(decide (0x6D ≤ op) && decide (op ≤ 0x6F)) && !(decide (0x7D ≤ op) && decide (op ≤ 0x7F)) && !(decide (0x8B ≤ op) && decide (op ≤ 0x8F))

/-- INSTRUCTION_FETCH (R245): the word at IMG_BASE + pc, or the strand's end where it cannot be fetched. A word whose opcode Table 8.8 does
not list executes as NOP (R239); any other waits for the command of its instruction. -/
def execInstructionFetch (core : Fin 512) (strand : Fin 8) (ecc : UnitEcc) (s : State) : Host.Outcome State Fault Refusal :=
  let c := core.val
  let x := s.strand c strand.val
  let a := (s.fld F.CORE_IMG_BASE_LO c * 8 + s.fld F.CORE_IMG_BASE_HI c * 2 ^ 32 + x.pc) % 2 ^ 64
  let who := some (s.core c).part
  if x.st ≠ .running ∨ x.ir ≠ none ∨ x.wait ≠ none then .next s
  else if s.accWaits false a 8 then .next (s.askHost false a 8)
  else
    let s0 := s.strEcc c ecc.own
    if a % 8 ≠ 0 ∨ 2 ^ 48 ≤ a ∨ (s0.checkAll who false a 8).st = 1 ∨ (s0.checkAll who false a 8).st = 2 then
      let s2 := if a % 8 = 0 then s0.accessDone (1, c) 0x0B who (if a < 2 ^ 48 then s0.checkAll who false a 8 else ⟨1, a⟩) else s0
      .next ((s2.countEv F.CORE_STR_FETCH_ERR c 1 Ev.CORE_STR_FETCH).endAt c strand.val)
    else
      let e := s0.eccAt who a 8 ecc.mem
      let r := e.1.readMem who a 8
      let s2 := (e.1.touch who false a 8).accessDone (1, c) 0x0B who r.acs
      let w := leNat r.data
      if !(r.poison.isEmpty && e.2.isEmpty) then
        .next (((s2.countEv F.CORE_STR_FETCH_ERR c 1 Ev.CORE_STR_FETCH).poisoned 1 c).endAt c strand.val)
      else if listedOp (w / 2 ^ 56) then .next (s2.setStrand c strand.val { s2.strand c strand.val with ir := some w })
      else .next ((s2.advance c strand.val).strRsvd c)

end Sys2Proof.Machine
end

