-- ==== Sys2Proof/Machine/RunAhead.lean ====
section
/-! DEFINITION. The run-ahead access engine (R232 to R236) and the instructions that send remote memory operations (R341). -/
namespace Sys2Proof.Machine
open Sys2Proof

/-! ### Descriptors of the spool -/

/-- Bytes of a descriptor in the own spool, `n` bytes at an `n`-aligned address; none where it is not within the window. -/
def State.descRead (s : State) (c a n align : Nat) : Option (List Byte × Bool) :=
  if a % align = 0 ∧ inWindow c a n then
    let r := s.windowRead c a n
    some (r.1, !r.2.isEmpty)
  else none

/-- The fetch descriptor that 32 bytes spell (Table 8.2). -/
def fdescOf (b : List Byte) : FDesc :=
  let f := fun (o n : Nat) => leNat ((b.drop o).take n)
  { src := f 0 6
    dev := f 6 2
    stride := signedOf 32 (f 8 4)
    rowBytes := f 12 4
    rows := f 16 4
    dst := f 20 6
    heddle := f 26 2
    ring := f 28 2
    priv := bitOf (f 31 1) 0 }

/-- A fetch descriptor that is a reserved encoding (R232, R344). -/
def State.fdescBad (s : State) (c : Nat) (b : List Byte) : Bool :=
  let d := fdescOf b
  let f := fun (o n : Nat) => leNat ((b.drop o).take n)
  let remote := d.dev != s.ownDev
  let declared := permanent d.heddle || s.pick.entry.heds.any fun h => h.hid == d.heddle
  decide (16 ≤ f 30 1) || decide (2 ≤ f 31 1) || d.src % 128 != 0 || f 8 4 % 128 != 0 || d.dst % 128 != 0 ||
    d.rowBytes == 0 || decide (2 ^ 20 < d.rowBytes) ||
    (remote && !(declared && s.threadedTo d.heddle d.dev)) || (!remote && d.heddle != 0) ||
    (d.priv && !s.flag F.PART_PART_CTL_SERVICE (s.core c).part)

/-- The lines of a descriptor. -/
def FDesc.lines (d : FDesc) : Nat := (d.rowBytes * d.rows + 127) / 128

/-- The source parts of line `k`: address and length, row by row (R233). -/
def FDesc.lineSrc (d : FDesc) (k : Nat) : List (Nat × Nat) :=
  let o := 128 * k
  let n := min 128 (d.rowBytes * d.rows - o)
  if n = 0 ∨ d.rowBytes = 0 then []
  else (rangeFrom (o / d.rowBytes) ((o + n - 1) / d.rowBytes - o / d.rowBytes + 1)).map fun r =>
    let lo := max o (r * d.rowBytes)
    let hi := min (o + n) ((r + 1) * d.rowBytes)
    (wrapInt 48 ((d.src : Int) + r * d.stride) + (lo - r * d.rowBytes), hi - lo)

/-- Where line `k`, global line `g`, goes (R233). -/
def FDesc.lineDst (d : FDesc) (k g : Nat) : Nat := if d.ring = 0 then d.dst + 128 * k else d.dst + 128 * (g % d.ring)

/-- The engine holds at most 16 fetch descriptors (R229). -/
def State.fetchFull (s : State) (c : Nat) : Bool :=
  decide (16 ≤ ((s.core c).streams.map fun e => e.2.queue.length).sum)

/-- FETCH (R232): the descriptor at spool address sa goes to its stream. -/
def execFetch (i : Issue) (s : State) : Host.Outcome State Fault Refusal :=
  let c := i.core.val
  if s.fetchFull c then .next s
  else .next (s.issue 0x31 i (unusedZero i false true false 0 0) fun t0 =>
    let t := t0.splEcc c i.spl
    match t.descRead c (t.ra i) 32 32 with
    | none => t.strRsvd c
    | some (b, pz) =>
      let t1 := t.corePoison c pz
      if t1.fdescBad c b then t1.strRsvd c
      else
        let k := bitsOf (leNat ((b.drop 30).take 1)) 0 4
        let m := t1.core c
        let x : Stream := Tab.get {} m.streams k
        let d : FDesc := { fdescOf b with strand := i.strand.val }
        if d.lines = 0 then t1
        else t1.setCore c { m with streams := Tab.set m.streams k { x with queue := x.queue ++ [d] } })

/-- RELS (R234): RELEASED of a stream raised to sa. -/
def execRels (i : Issue) (s : State) : Host.Outcome State Fault Refusal :=
  let c := i.core.val
  .next (s.issue 0x2C i (unusedZero i false true false 0 4) fun t =>
    let m := t.core c
    let x : Stream := Tab.get {} m.streams (immBits i 0 4)
    t.setCore c { m with streams := Tab.set m.streams (immBits i 0 4) { x with released := max x.released (t.ra i % 2 ^ 32) } })

/-- The first descriptor of a stream that still has lines to issue: its place in the queue. -/
def Stream.nextDesc (x : Stream) : Option Nat := x.queue.findIdx? fun d => decide (d.next < d.lines)

/-- A stream with an issuable line (R234, R235). -/
def Stream.issuable (x : Stream) : Bool :=
  match x.nextDesc with
  | none => false
  | some k =>
    let d := x.queue.getD k {}
    d.ring == 0 || decide (x.issued < x.released + d.ring)

/-- The stream that takes the next slot, in round-robin order after the last one (R235). -/
def CoreState.nextStream (m : CoreState) : Option Nat :=
  ((List.range 16).map fun k => (m.lastStream + 1 + k) % 16).find? fun k => (Tab.get ({} : Stream) m.streams k).issuable

/-- The lowest free slot of 256. -/
def CoreState.freeSlot (m : CoreState) : Option Nat := (List.range 256).find? fun k => (Tab.get? m.slots k).isNone

/-- A line of another device asked for: one GET for each source row that it spans (R233). Their places in the list of issued operations. -/
def State.askLine (s : State) (c slot : Nat) (d : FDesc) (dst : Nat) : List (Nat × Nat) → State × List Nat
  | [] => (s, [])
  | p :: rest =>
    let r := s.issueOp (.runAhead c slot)
      { op := 1, priv := d.priv, heddle := d.heddle, destDev := d.dev, destAddr := p.1, localAddr := dst, length := p.2 }
      (some (s.core c).part) [] []
    let q := r.1.askLine c slot d (dst + p.2) rest
    (q.1, r.2 :: q.2)

/-- RA_LINE_ISSUE (R235): one line takes a slot, a matrix read of the matrix-vector path first, then one of the next stream; with every slot
in use RA_FULL counts. -/
def execRaLineIssue (core : Fin 512) (s : State) : Host.Outcome State Fault Refusal :=
  let c := core.val
  let m := s.core c
  let mv := m.mvp.bind fun j => j.reads.head?.map fun r => (j, r)
  match mv, m.nextStream, m.freeSlot with
  | none, none, _ => .next s
  | _, _, none => .next (s.addSat F.CORE_RA_FULL c 1)
  | some (j, r), _, some slot =>
    .next (s.setCore c { m with
      mvp := some { j with reads := j.reads.drop 1, out := j.out + 1 }
      slots := Tab.set m.slots slot { src := r.1, dev := s.ownDev, mv := some r.2 } })
  | none, some k, some slot =>
    let x : Stream := Tab.get {} m.streams k
    let at_ := x.nextDesc.getD 0
    let d := x.queue.getD at_ {}
    let g := x.issued
    let dst := d.lineDst d.next g
    let src := d.lineSrc d.next
    let d' := { d with first := some (d.first.getD g), next := d.next + 1 }
    let x' := { x with issued := (g + 1) % 2 ^ 32, queue := x.queue.set at_ d' }
    let r := if d.dev != s.ownDev then s.askLine c slot d dst src else (s, [])
    .next (r.1.setCore c { m with
      streams := Tab.set m.streams k x'
      lastStream := k
      slots := Tab.set m.slots slot
        { stream := k, strand := d.strand, line := g, src := (src.headD (0, 0)).1, dev := d.dev, dst := dst, parts := r.2.map fun id => (id, none) } })

/-- LANDED moves over the lines that have landed ahead of it. -/
def Stream.settle (x : Stream) : Nat → Stream
  | 0 => x
  | fuel + 1 =>
    if x.ahead.contains x.landed then
      Stream.settle { x with landed := (x.landed + 1) % 2 ^ 32, ahead := x.ahead.filter (· != x.landed) } fuel
    else x

/-- A stream after line `g` has landed: descriptors that have fully landed leave the queue (R231, R233). -/
def Stream.land (x : Stream) (g : Nat) : Stream :=
  let hit := fun (d : FDesc) => match d.first with
    | some f => decide ((g + 2 ^ 32 - f) % 2 ^ 32 < d.next)
    | none => false
  let j := (x.queue.findIdx? hit).getD 0
  let q := (x.queue.modify j fun d => { d with landed := d.landed + 1 }).filter fun d => decide (d.landed < d.lines)
  Stream.settle { x with ahead := insertNat x.ahead g, queue := q } 257

/-- The descriptor of a slot's line. -/
def CoreState.slotDesc (m : CoreState) (r : RaSlot) : FDesc :=
  ((Tab.get ({} : Stream) m.streams r.stream).queue.find? fun d => match d.first with
    | some f => decide ((r.line + 2 ^ 32 - f) % 2 ^ 32 < d.next)
    | none => false).getD {}

/-- A register-page address that an access of another size than R40's reaches counts on its page. -/
def State.pageSizeErr (s : State) (a agent : Nat) : State :=
  if regionOf a = .page ∧ pageExists a then
    s.countErr ((a - pageBase) / 2 ^ 22) ((a - pageBase) / 4096 % 1024) errAccessSize a agent
  else s

/-- The 64-byte blocks of a line that blocks of one part of it, `n` bytes at offset `o`, touch. -/
def partBlocks (o n : Nat) (l : List Nat) : List Nat := l.flatMap fun k => dataBlocks (o + 64 * k) (min 64 (n - 64 * k))

/-- The parts of a line put together: their bytes, and their poisoned 64-byte blocks counted from the line's start. -/
def joinParts (l : List (List Byte × List Nat)) : List Byte × List Nat :=
  l.foldl (fun r p => (r.1 ++ p.1, (partBlocks r.1.length p.1.length p.2).foldl insertNat r.2)) ([], [])

/-- A read of this device's memory by an engine of the core, with the errors of its storage and what the caches see. -/
def State.engineRead (s : State) (c a n : Nat) (ecc : List BlockEcc) : State × List Byte × List Nat :=
  let who := some (s.core c).part
  let e := s.eccAt who a n ecc
  let g := e.1.readMem who a n
  ((e.1.touch who false a n).pageSizeErr a 0x0B, g.data, e.2.foldl insertNat g.poison)

/-- The parts of a local line read one after another. -/
def State.readParts (s : State) (c : Nat) (ecc : List BlockEcc) : List (Nat × Nat) → State × List (List Byte × List Nat)
  | [] => (s, [])
  | p :: rest =>
    let r := s.engineRead c p.1 p.2 ecc
    let q := r.1.readParts c ecc rest
    (q.1, r.2 :: q.2)

/-- The data of a local line, which is one access (R29, R33). -/
def State.lineRead (s : State) (c : Nat) (parts : List (Nat × Nat)) (ecc : List BlockEcc) : State × List Byte × List Nat :=
  let who := some (s.core c).part
  let r := s.readParts c ecc parts
  (r.1.accessDone (1, c) 0 who (acsOf (parts.map fun p => s.checkAll who false p.1 p.2)), joinParts r.2)

/-- A stream's line written to the spool: its slot is free, and LANDED follows (R233). -/
def State.landLine (s : State) (c slot : Nat) (r : RaSlot) (bytes : List Byte) (pz : List Nat) : State :=
  let s1 := s.windowWrite c r.dst bytes pz
  let s2 := if inWindow c r.dst bytes.length then s1 else s1.strOow c 1
  let m := s2.core c
  let x : Stream := Tab.get {} m.streams r.stream
  (s2.setCore c { m with
    slots := Tab.del m.slots slot
    streams := Tab.set m.streams r.stream (x.land r.line) }).addWrap F.CORE_RA_LINES c 1

/-- A response to read `part` of a line of another device, which takes one for each source row that it spans; the line lands with the last of them (R236: zeros where the source failed). A
response that no read waits for is dropped (R225). -/
def State.landRemote (s : State) (c slot : Nat) (r : RaSlot) (part : Nat) (x : LineResponse) : State :=
  match r.parts[part]? with
  | some (id, none) =>
    match Tab.get? s.fab.issued id with
    | none => s
    | some o =>
      let n := o.desc.length
      let st := x.status.val
      let got := if st = 1 ∨ st = 2 ∨ st = 3 then (List.replicate n 0, x.poison) else (padTo n x.data, x.poison)
      let s1 := (s.countStatus o st o.desc.destAddr).retire id
      let ps := r.parts.set part (id, some got)
      if ps.all fun p => p.2.isSome then
        let j := joinParts (ps.filterMap (·.2))
        s1.landLine c slot r j.1 j.2
      else s1.setCore c { s1.core c with slots := Tab.set (s1.core c).slots slot { r with parts := ps } }
  | _ => s

/-! ### RMO and RACCU -/

/-- Remote memory operations of a core that are not acknowledged; at most 32 (R229). -/
def State.rmoFull (s : State) (c : Nat) : Bool :=
  decide (32 ≤ (s.fab.issued.filter fun e => match e.2.issuer with | .strand k _ => k == c | _ => false).length)

/-- The bytes of an operation at LOCAL_ADDR: those it sends, or those it writes there (R341). -/
def OpDesc.localLen (d : OpDesc) : Nat := if d.op = 4 ∨ d.op = 5 then 8 else if d.op = 3 then 0 else d.length

/-- An operation that a core issues: its source bytes come from the window; one that reaches outside it counts in STR_OOW (R341). -/
def State.coreOp (s : State) (c t : Nat) (d : OpDesc) : State :=
  let s1 := if d.localLen = 0 ∨ inWindow c d.localAddr d.localLen then s else s.strOow c 1
  let src := if d.carries then s1.windowRead c d.localAddr d.length else ([], [])
  (s1.issueOp (.strand c t) d (some (s.core c).part) src.1 src.2).1

/-- RMO and RACCU read a 64-byte descriptor at sa and issue it (R341); `unord` is RACCU's. -/
def State.rmoOp (s : State) (op : Nat) (i : Issue) (unord : Bool) : State :=
  let c := i.core.val
  if s.rmoFull c then s
  else s.issue op i (unusedZero i false true false 0 0) fun t0 =>
    let t := t0.splEcc c i.spl
    match t.descRead c (t.ra i) 64 64 with
    | none => t.strRsvd c
    | some (b, pz) =>
      let t1 := t.corePoison c pz
      let d : OpDesc := { opDescOf b with unord := unord }
      if t1.opBad d || (unord && d.op != 2) then t1.strRsvd c else t1.coreOp c i.strand.val d

/-- RMO (R341). -/
def execRmo (i : Issue) (s : State) : Host.Outcome State Fault Refusal := .next (s.rmoOp 0x32 i false)

/-- RACCU: an ACC that the destination applies in arrival order (R341). -/
def execRaccu (i : Issue) (s : State) : Host.Outcome State Fault Refusal := .next (s.rmoOp 0x33 i true)

end Sys2Proof.Machine
end

