-- ==== Sys2Proof/Machine/Array.lean ====
section
/-! DEFINITION. The weave arrays (chapter 5): loads (R144, R147, R149, R240), passes (R140, R141, R146, R151, R241), the release of
beats with their musts (R137 to R139, R143, R145, R148, R164 to R167), vat rows (R142, R168, R169). -/
namespace Sys2Proof.Machine
open Sys2Proof

/-! ### Formats and parts -/

/-- A format that an array accepts (R136). -/
def arrayFmt (f : Nat) : Bool := isFloat f || f == 8 || f == 9

/-- Loader cycles per warp row (R144). -/
def loadRate (fmt : Nat) : Nat :=
  match fmtBytes fmt with
  | 4 => 2
  | 8 => 4
  | _ => 1

/-- An array of a core. -/
def State.arr (s : State) (c n : Nat) : ArrState := Tab.get {} (s.core c).arr n

def State.setArr (s : State) (c n : Nat) (x : ArrState) : State :=
  s.setCore c { s.core c with arr := Tab.set (s.core c).arr n x }

/-- The register of array `n`, from those of array 0 and array 1. -/
def ofArr (n : Nat) (f0 f1 : Fld) : Fld := if n = 0 then f0 else f1

/-- The window L of the core's musts and vats (R165, R175). -/
def State.windowL (s : State) (c : Nat) : Nat := if s.flag F.CORE_ARR_CTL_MUST_MODE c then 88 else 184

/-- Errors of an array's storage (R161). -/
def State.arrEcc (s : State) (c : Nat) (e : Ecc) : State :=
  let s1 := (s.countEv F.CORE_ARR_ECC_CORR c e.corr Ev.CORE_ARR_CORR).countEv F.CORE_ARR_ECC_UNCORR c e.uncorr Ev.CORE_ARR_UNCORR
  if e.uncorr = 0 then s1 else s1.fault

/-- Elements of `w` bytes one after another in the own spool, with the places of the poisoned ones; outside the window they read
zeros. -/
def State.spoolElems (s : State) (c a w n : Nat) : List Nat × List Nat :=
  ((chunksOf w n (s.windowRead c a (n * w)).1).map leNat,
    (List.range n).filter fun k => (pieces (a + k * w) w).any fun p => inWindow c (a + k * w + p.1) 1 && s.blockPoison (a + k * w + p.1))

/-- An access of a unit of the core to its spool that reaches outside the window is counted once (log entry 27). -/
def State.unitOow (s : State) (c a n : Nat) : State := if inWindow c a n then s else s.strOow c 1

/-! ### Limbs (R136, R143) -/

/-- The limbs of a format: count and width in bits. -/
def limbsOf (fmt : Nat) : Nat × Nat :=
  match fmt with
  | 4 => (2, 12)
  | 5 => (3, 18)
  | _ => (1, 0)

/-- The value of limb `l` of an element's significand at its own weight, with the element's sign; a special value is itself. -/
def limbVal (fmt frac x l : Nat) : Val :=
  let v := decodeVal fmt frac x
  let k := limbsOf fmt
  match floatFmt fmt with
  | some f =>
    if k.1 = 1 then v
    else match v with
      | .fin neg _ _ =>
        let mag := x % 2 ^ (f.width - 1)
        let e := mag / 2 ^ f.t
        let sig := if e = 0 then mag % 2 ^ f.t else 2 ^ f.t + mag % 2 ^ f.t
        let unit : Int := if e = 0 then f.emin - f.t else (e : Int) - 1 + f.emin - f.t
        Val.scaled neg (bitsOf sig (l * k.2) k.2 * 2 ^ (l * k.2)) unit
      | _ => v
  | none => v

/-- A pair of limbs inserted by descending weight, then by descending weft limb. -/
def insertPair (wx ww : Nat) (p : Nat × Nat) : List (Nat × Nat) → List (Nat × Nat)
  | [] => [p]
  | q :: t =>
    let kp := p.1 * wx + p.2 * ww
    let kq := q.1 * wx + q.2 * ww
    if kq < kp ∨ (kq = kp ∧ q.1 < p.1) then p :: q :: t else q :: insertPair wx ww p t

/-- The limb pairs (weft, warp) of a vector's beats, in the order of Table 5.4. -/
def beatOrder (fx fw : Nat) : List (Nat × Nat) :=
  let lx := limbsOf fx
  let lw := limbsOf fw
  ((List.range lx.1).flatMap fun a => (List.range lw.1).map fun b => (a, b)).foldl (fun l p => insertPair lx.2 lw.2 p l) []

/-- One term of a must: the limb product, or the special class of the whole product (R166, R167). -/
def limbTerm (fx rx x lx fw rw w lw : Nat) : Val :=
  match Val.mul (decodeVal fx rx x) (decodeVal fw rw w) with
  | .fin .. => Val.mul (limbVal fx rx x lx) (limbVal fw rw w lw)
  | v => v

/-- The musts of one beat in the 64 columns (R164 to R167, R186): weft elements, warp, limb pair, window. -/
def beatMusts (fx rx : Nat) (xs : List Nat) (xp : Bool) (w : Warp) (pair : Nat × Nat) (L : Nat) : List Must :=
  let ex := largestExp (xs.map (decodeVal fx rx))
  (List.range 64).map fun j =>
    let col := w.rows.map fun r => r.getD j 0
    let fr := w.fracs.getD j 0
    let ew := largestExp (col.map (decodeVal w.fmt fr))
    let a := match ex, ew with
      | some p, some q => some (p + q + 8)
      | _, _ => none
    mustOf ((xs.zip col).map fun x => limbTerm fx rx x.1 pair.1 w.fmt fr x.2 pair.2) a L
      (xp || w.poison.any fun k => k % 64 == j)

/-- A warp shifted one column (R148), its poison with it; the column brought in has the edge's FRAC. -/
def Warp.shift (w : Warp) (edge : Warp) (left : Bool) : Warp :=
  let e := edge.rows.headD []
  let f := edge.fracs.headD 0
  { w with
    rows := w.rows.zipIdx.map fun r => if left then r.1.drop 1 ++ [e.getD r.2 0] else e.getD r.2 0 :: r.1.take 63
    fracs := if left then w.fracs.drop 1 ++ [f] else f :: w.fracs.take 63
    poison := (w.poison.filterMap fun k =>
        if left then (if k % 64 = 0 then none else some (k - 1)) else (if k % 64 = 63 then none else some (k + 1)))
      ++ edge.poison.map fun k => 64 * k + (if left then 63 else 0) }

/-! ### Loads -/

/-- The cycles that a load takes (R144, R149, R240). -/
def LoadJob.cycles (j : LoadJob) : Nat := (if j.edge then 1 else 64) * loadRate j.fmt * (if j.transpose then 2 else 1)

/-- A warp load or an edge load read from the spool (R240). -/
def State.loadData (s : State) (c : Nat) (j : LoadJob) : Warp :=
  let w := fmtBytes j.fmt
  let at_ := fun (k : Nat) => (j.base + k * j.stride) % 2 ^ 64
  if j.edge then
    if j.transpose then
      let r := s.spoolElems c j.base w 64
      { fmt := j.fmt, fracs := [j.frac], rows := [r.1], poison := r.2 }
    else
      let r := (List.range 64).map fun k => s.spoolElems c (at_ k) w 1
      { fmt := j.fmt, fracs := [j.frac], rows := [r.map fun x => x.1.headD 0]
        poison := (List.range 64).filter fun k => !(r.getD k ([], [])).2.isEmpty }
  else
    let r := (List.range 64).map fun k => s.spoolElems c (at_ k) w 64
    let rows := if j.transpose then (List.range 64).map fun k => r.map fun x => x.1.getD k 0 else r.map (·.1)
    { fmt := j.fmt, fracs := List.replicate 64 j.frac, rows := rows
      poison := r.zipIdx.flatMap fun x => x.1.2.map fun k => if j.transpose then 64 * k + x.2 else 64 * x.2 + k }

/-- What a load reads of the spool. -/
def LoadJob.ranges (j : LoadJob) : List (Nat × Nat) :=
  let w := fmtBytes j.fmt
  if j.edge && j.transpose then [(j.base, 64 * w)]
  else (List.range 64).map fun k => ((j.base + k * j.stride) % 2 ^ 64, (if j.edge then 1 else 64) * w)

/-- The accesses of a load that reach outside the window. -/
def State.loadOow (s : State) (c : Nat) (j : LoadJob) : State :=
  let w := fmtBytes j.fmt
  let n := if j.edge && !j.transpose then 1 else 64
  ((List.range (if j.edge && j.transpose then 1 else 64)).filter fun k => !inWindow c ((j.base + k * j.stride) % 2 ^ 64) (n * w)).foldl
    (fun t _ => t.strOow c 1) s

/-- A pass whose first beat is not yet released. -/
def PassJob.fresh (p : PassJob) : Bool := p.vec == 0 && p.beat == 0

/-- A pass that has no beat left to release. -/
def PassJob.released (p : PassJob) : Bool := p.zero || decide (p.m ≤ p.vec)

/-- WARP_OP names a swap, a shift; a shift to the left. -/
def isSwap (op : Nat) : Bool := op == 1 || op == 4 || op == 5
def isShift (op : Nat) : Bool := decide (2 ≤ op) && decide (op ≤ 5)
def shiftLeft (op : Nat) : Bool := op == 2 || op == 4

/-- What a drain may still write in the spool: the rows of a pass's destination, its status words, its lees maps, as address and length. -/
def EpiDesc.spoolWrites (e : EpiDesc) (m : Nat) : List (Nat × Nat) :=
  (if e.dest = 0 then (List.range m).map fun i => (e.destAddr + i * e.rowStride, 64 * fmtBytes (ccbFmt e.ccb)) else []) ++
    (if e.tswEn then [(e.tswAddr, 8 * ((m + 63) / 64))] else []) ++ (if e.lmapEn then [(e.lmapAddr, 512 * ((m + 63) / 64))] else [])

/-- Two ranges share a byte. -/
def rangesMeet (a n b m : Nat) : Bool := decide (a < b + m) && decide (b < a + n)

/-- An earlier command of the array, one before order `o`, has yet to write a byte of a range (R230). -/
def ArrState.unwritten (x : ArrState) (o a n : Nat) : Bool :=
  x.writes.any fun w => decide (w.2.1 < o) && w.2.2.any fun r => rangesMeet a n r.1 r.2

/-- The load at the head of the loader started, where nothing holds it back (R144, R147, R149): a warp load waits for the swaps, and
an edge load for the shifts, that precede it in command order. -/
def State.startLoad (s : State) (c n : Nat) : State :=
  let x := s.arr c n
  match x.loader with
  | [] => s
  | j :: rest =>
    let blocked := x.passes.any fun p => decide (p.order < j.order) && p.fresh && (if j.edge then isShift p.warpOp else isSwap p.warpOp)
    if j.start.isSome || blocked || j.ranges.any (fun r => x.unwritten j.order r.1 r.2) then s
    else
      let bound := if j.edge then (x.shiftRel.map (· + 65)).getD 0 else (x.swapRel.map (· + 3)).getD 0
      let st := max (max j.issue x.loaderFree) bound
      let d := s.loadData c j
      let j' := { j with start := some st, data := d }
      let x1 := { x with loader := j' :: rest }
      (s.loadOow c j).setArr c n (if j.edge then x1 else { x1 with shadow := some (d, st + j.cycles) })

/-- Commands of an array that have not begun (R229: at most 8). -/
def ArrState.waiting (x : ArrState) : Nat :=
  (x.loader.filter fun j => j.start.isNone).length + (x.passes.filter fun p => p.fresh && !p.zero).length

/-- WLOAD (R240): MOD [0] array, [1] EDGE, [2] TRANSPOSE; IMM [3:0] format, [9:4] FRAC. A reserved format or FRAC loads nothing. -/
def State.loadCmd (s : State) (op : Nat) (i : Issue) : State :=
  let c := i.core.val
  let t0 := i.strand.val
  let n := modBits i 0 1
  let edge := bitOf i.mod.val 1
  let tr := bitOf i.mod.val 2
  let fmt := immBits i 0 4
  let frac := immBits i 4 6
  if 8 ≤ (s.arr c n).waiting then s
  else s.issue op i (unusedZero i false true (!(edge && tr)) 3 10 && s.owns c t0 (1 + n)) fun t =>
    if arrayFmt fmt && fracOk fmt frac then
      let x := t.arr c n
      let j : LoadJob := { strand := t0, order := x.order, issue := i.cyc, edge := edge, transpose := tr, fmt := fmt, frac := frac,
                           base := t.ra i, stride := if edge && tr then 0 else t.rb i }
      (t.setArr c n { x with order := x.order + 1, loader := x.loader ++ [j]
                             ordShadow := if edge then x.ordShadow else some fmt
                             ordEdge := if edge then some fmt else x.ordEdge }).startLoad c n
    else t.arrRsvd c

def execWload (i : Issue) (s : State) : Host.Outcome State Fault Refusal := .next (s.loadCmd 0x38 i)
/-- The row EDGE_LOAD is the instruction WLOAD with EDGE set; its bits say so. -/
def execEdgeLoad (i : Issue) (s : State) : Host.Outcome State Fault Refusal := .next (s.loadCmd 0x38 i)

/-- WLOAD_COMPLETE: the load that runs has written its last element (R144, R149); the next one may start. -/
def execWloadComplete (core : Fin 512) (arr : Fin 2) (cyc : Nat) (s : State) : Host.Outcome State Fault Refusal :=
  let c := core.val
  let n := arr.val
  let x := s.arr c n
  match x.loader with
  | j :: rest =>
    match j.start with
    | some st =>
      if st + j.cycles ≤ cyc + 1 then
        .next ((s.setArr c n { x with loader := rest, loaderFree := st + j.cycles
                                      edge := if j.edge then some j.data else x.edge }).startLoad c n)
      else .next s
    | none => .next s
  | [] => .next s

/-! ### Passes -/

/-- A field of a descriptor: `n` bytes from offset `o`. -/
def fieldOf (b : List Byte) (o n : Nat) : Nat := leNat ((b.drop o).take n)

/-- The epilogue descriptor that 64 bytes spell (Table 6.7). -/
def epiDescOf (b : List Byte) : EpiDesc :=
  let f := fieldOf b
  { ccb := f 0 1, frac := bitsOf (f 1 1) 0 6, act := bitsOf (f 2 1) 0 4
    biasEn := bitOf (f 2 1) 4, lmapEn := bitOf (f 2 1) 5, tswEn := bitOf (f 2 1) 6
    dest := bitsOf (f 3 1) 0 3, heddle := f 4 2, destDev := f 6 2, destAddr := f 8 6, rowStride := f 16 4
    biasAddr := f 20 6, biasFmt := bitsOf (f 26 1) 0 4, clampLo := f 28 4, clampHi := f 32 4
    lmapAddr := f 36 6, tswAddr := f 42 6, tileSeq := f 48 4, srStream := f 52 4, srSeed := f 56 8 }

/-- Its reserved fields are zero (R181). -/
def epiReservedZero (b : List Byte) : Bool :=
  let f := fieldOf b
  bitsOf (f 1 1) 6 2 == 0 && bitsOf (f 2 1) 7 1 == 0 && bitsOf (f 3 1) 3 5 == 0 && f 14 2 == 0 && bitsOf (f 26 1) 4 4 == 0 && f 27 1 == 0

/-- The intermediate format I (R177). -/
def interFmt (ccb : Nat) : Nat := if ccbFmt ccb = 5 ∨ ccbFmt ccb = 10 ∨ ccbFmt ccb = 11 then 5 else 4

/-- A destination that writes rows (Table 6.8). -/
def EpiDesc.writesRows (e : EpiDesc) : Bool := decide (e.dest ≤ 4)

/-- The fields that the descriptor does not use are 0, and no value is reserved (R111, R117, R179, R181, R183). -/
def EpiDesc.ok (e : EpiDesc) : Bool :=
  let ow := fmtBytes (ccbFmt e.ccb)
  let remote := e.dest == 3 || e.dest == 4
  let bounds := Val.cmp (f32 e.clampLo) (f32 e.clampHi)
  (e.biasEn || (e.biasAddr == 0 && e.biasFmt == 0)) && (e.lmapEn || e.lmapAddr == 0) && (e.tswEn || e.tswAddr == 0) &&
    (remote || e.dest == 5 || e.heddle == 0) && (remote || e.destDev == 0) &&
    (e.writesRows || (e.destAddr == 0 && e.rowStride == 0)) && (e.act == 7 || (e.clampLo == 0 && e.clampHi == 0)) &&
    ccbOk e.ccb && fracOk (ccbFmt e.ccb) e.frac && (!e.biasEn || e.biasFmt == 4 || e.biasFmt == 5) &&
    (!e.writesRows || (e.rowStride % max 1 ow == 0 && decide (64 * ow ≤ e.rowStride))) &&
    (!(e.dest == 2 || e.dest == 4) || ccbRm e.ccb != 5) && decide (e.act < 8) && e.dest != 7 &&
    (!(decide (2 ≤ e.act) && decide (e.act ≤ 5)) || interFmt e.ccb == 4) &&
    (e.act != 7 || bounds == some .lt || bounds == some .eq)

/-- An epilogue descriptor in the own spool; none where it is a reserved encoding. -/
def State.epiRead (s : State) (c a : Nat) : Option (EpiDesc × Bool) :=
  match s.descRead c a 64 64 with
  | none => none
  | some (b, pz) => let e := epiDescOf b; if epiReservedZero b && e.ok then some (e, pz) else none

/-- The reserved bytes and bits of a pass block are zero (Table 8.6). -/
def passReservedZero (b : List Byte) : Bool :=
  let f := fieldOf b
  f 6 2 == 0 && f 30 2 == 0 && f 38 26 == 0 && bitsOf (f 14 1) 4 4 == 0 && bitsOf (f 15 1) 6 2 == 0 && bitsOf (f 16 1) 3 5 == 0 &&
    bitsOf (f 17 1) 3 5 == 0

/-- The pass that a block spells (Table 8.6). -/
def passOf (b : List Byte) : PassJob :=
  let f := fieldOf b
  { weft := f 0 6, stride := f 8 4, m := f 12 2, fmt := bitsOf (f 14 1) 0 4, frac := bitsOf (f 15 1) 0 6, warpOp := bitsOf (f 16 1) 0 3
    bank := bitsOf (f 17 1) 0 2, init := bitOf (f 17 1) 2, rowScale := f 18 6, colScale := f 24 6 }

/-- The vat rows that a pass addresses, as 64 * bank + row (R140). -/
def PassJob.rows (p : PassJob) : List Nat := (List.range p.m).map fun i => (p.bank + i / 64) % 4 * 64 + i % 64

/-- A pass that is no reserved encoding in the place where it stands in command order (R136, R141, R146, R151, R241). -/
def ArrState.passOk (x : ArrState) (p : PassJob) : Bool :=
  let warp := if isSwap p.warpOp then x.ordShadow else x.ordActive
  decide (1 ≤ p.m) && decide (p.m ≤ 256) && decide (p.warpOp ≤ 5) && arrayFmt p.fmt && fracOk p.fmt p.frac &&
    p.stride % (64 * max 1 (fmtBytes p.fmt)) == 0 &&
    (match warp with
     | none => false
     | some f => isFloat f == isFloat p.fmt && (!isShift p.warpOp || x.ordEdge == some f)) &&
    (p.init || p.rows.all x.ordRows.contains)

/-! ### Output rows -/

/-- Some element of `w` bytes with a byte at offsets `o` to `o + n - 1` of a row is poisoned. -/
def rowPoisonAt (w : Nat) (pz : List Bool) (o n : Nat) : Bool :=
  if n = 0 then false else (rangeFrom (o / max 1 w) ((o + n - 1) / max 1 w - o / max 1 w + 1)).any fun k => pz.getD k false

/-- The 64-byte blocks of a row's data, counted from its start, that carry a poisoned element. -/
def rowPoison (w : Nat) (pz : List Bool) : List Nat :=
  (List.range ((pz.length * w + 63) / 64)).filter fun b => rowPoisonAt w pz (64 * b) (min 64 (pz.length * w - 64 * b))

/-- The address of the output row of vector `i` (R182). -/
def EpiDesc.rowAddr (e : EpiDesc) (i : Nat) : Nat := e.destAddr + i * e.rowStride

/-- The operation that carries an output row (Table 6.8). -/
def EpiDesc.rowOp (e : EpiDesc) (i n : Nat) (tag : Tag) : OpDesc :=
  let d : OpDesc := { op := 0, destAddr := e.rowAddr i, length := n }
  match e.dest with
  | 2 => { d with op := 2, ccb := e.ccb, frac := e.frac, tagged := true, tagPick := tag.work.toNat, tagCore := tag.core.toNat
                  tagArray := tag.array.toNat, tagTile := tag.tile.toNat }
  | 3 => { d with heddle := e.heddle, destDev := e.destDev }
  | 4 => { d with op := 2, ccb := e.ccb, frac := e.frac, heddle := e.heddle, destDev := e.destDev }
  | _ => d

/-- A row to the own spool: within the window it is written, its poison block by block of the spool (R282); else it is written nowhere and
counted as an unmapped write (R183). -/
def State.spoolRow (s : State) (c a w : Nat) (bytes : List Byte) (pz : List Bool) : State :=
  if inWindow c a bytes.length then s.writeBy none a bytes (rowPoisonAt w pz)
  else s.countErr 1 c errUnmapped (if inWindow c a 1 then spoolAddr c 0 + spoolBytes else a % 2 ^ 48) 0

/-- The operation that carries row `i` of a drain, as this device issues it now (R183). -/
def State.rowDesc (s : State) (c n : Nat) (d : Drain) (i : Nat) : OpDesc :=
  let e := d.epi
  let o := e.rowOp i (64 * fmtBytes (ccbFmt e.ccb))
    { work := BitVec.ofNat 32 s.pick.work, core := BitVec.ofNat 16 c, array := BitVec.ofNat 8 n, tile := BitVec.ofNat 22 (e.tileSeq + d.tile) }
  if o.heddle = 0 ∧ (e.dest = 1 ∨ e.dest = 2) then { o with destDev := s.ownDev } else o

/-- A destination that a remote memory operation reaches. -/
def EpiDesc.sends (e : EpiDesc) : Bool := decide (1 ≤ e.dest) && decide (e.dest ≤ 4)

/-- Row `i` of a drain sent to its destination (R183); where its operation is a reserved encoding it sends nothing and is counted (R188,
R344), which a reserved pass already has been (R146). -/
def State.emitRow (s : State) (c n : Nat) (d : Drain) (i : Nat) (bytes : List Byte) (pz : List Bool) : State :=
  let e := d.epi
  let w := fmtBytes (ccbFmt e.ccb)
  if e.dest = 0 then s.spoolRow c (e.rowAddr i) w bytes pz
  else if e.sends then
    let o := s.rowDesc c n d i
    if s.opBad o then (if d.zero then s else s.arrRsvd c)
    else (s.issueOp (.epilogue c d.strand n d.pass d.tile (i % 64)) o (some (s.core c).part) bytes (rowPoison w pz)).1
  else s

/-- A reserved pass has rows of zeros to write (R146). -/
def EpiDesc.zeroDest (e : EpiDesc) : Bool := e.dest == 0 || e.dest == 1 || e.dest == 3

/-- Reserved passes at the front of the queue are done with the array: their rows of zeros join the drain behind those of every earlier
pass (R146, R230). -/
def ArrState.settle (x : ArrState) : Nat → ArrState
  | 0 => x
  | fuel + 1 =>
    match x.passes with
    | [] => x
    | p :: rest =>
      if p.zero then
        ArrState.settle
          { x with
            passes := rest
            drains := x.drains ++ [{ pass := p.id, strand := p.strand, epi := p.epi.getD {}, rows := p.m, last := true, zero := true }] } fuel
      else x

/-- A pass appended to the array's queue, in command order. -/
def ArrState.join (x : ArrState) (p : PassJob) : ArrState :=
  let q := { p with id := x.nextId, order := x.order }
  ArrState.settle
    { x with
      nextId := x.nextId + 1, order := x.order + 1, passes := x.passes ++ [q], live := x.live ++ [(x.nextId, p.strand)]
      writes := match p.epi with
        | some e => x.writes ++ [(x.nextId, x.order, e.spoolWrites p.m)]
        | none => x.writes } (x.passes.length + 1)

/-- APASS and APASSV (R241): MOD [0] array; the pass joins the array's queue. A reserved one is counted, changes no warp and no vat row, and
only has its rows of zeros to write, for the vectors of its raw M (R146, log entry 117). A block that an earlier pass has yet to write is
waited for (R230). -/
def State.passCmd (s : State) (op : Nat) (i : Issue) : State :=
  let c := i.core.val
  let t0 := i.strand.val
  let n := modBits i 0 1
  if 8 ≤ (s.arr c n).waiting ∨ (s.arr c n).unwritten (s.arr c n).order (s.ra i) 64 = true then s
  else s.issue op i (unusedZero i false true false 1 0 && s.owns c t0 (1 + n)) fun t1 =>
    let t := t1.splEcc c i.spl
    match t.descRead c (t.ra i) 64 64 with
    | none => t.arrRsvd c
    | some (b, pz) =>
      let x := t.arr c n
      let p := passOf b
      let epiAddr := fieldOf b 32 6
      let epi := if epiAddr = 0 then none else t.epiRead c epiAddr
      let t2 := t.corePoison c (pz || (epi.any (·.2)))
      let q : PassJob := { p with strand := t0, epi := epi.map (·.1) }
      if passReservedZero b && (epiAddr == 0 || epi.isSome) && x.passOk p then
        let warp := if isSwap p.warpOp then x.ordShadow else x.ordActive
        let y := x.join { q with wfmt := warp.getD 0 }
        t2.setArr c n { y with
          ordActive := warp, ordShadow := if isSwap p.warpOp then none else x.ordShadow
          ordRows := if p.init then p.rows.foldl insertNat x.ordRows else x.ordRows }
      else
        let t3 := t2.arrRsvd c
        match epi with
        | some e => if e.1.zeroDest && p.m != 0 then t3.setArr c n ((t3.arr c n).join { q with zero := true }) else t3
        | none => t3

def execApass (i : Issue) (s : State) : Host.Outcome State Fault Refusal := .next (s.passCmd 0x39 i)
/-- APASSV has the effect of APASS and carries the V mark (R152, R241). -/
def execApassv (i : Issue) (s : State) : Host.Outcome State Fault Refusal := .next (s.passCmd 0x3A i)

/-! ### Beats -/

/-- The pass that releases next. -/
def ArrState.releasing (x : ArrState) : Option PassJob := x.passes.find? fun p => !p.released

/-- The bank of a pass's next vector (R140). -/
def PassJob.vecBank (p : PassJob) : Nat := (p.bank + p.vec / 64) % 4

/-- The beats of each weft vector of a pass (R136). -/
def PassJob.beats (p : PassJob) : Nat := (limbsOf p.fmt).1 * (limbsOf p.wfmt).1

/-- The beats in the bobbin queues that are not released. -/
def ArrState.queued (x : ArrState) : Nat :=
  (x.queue.map fun w => match x.passes.find? fun p => p.id == w.pass with
    | some p => p.beats - (if p.vec = w.vec then p.beat else 0)
    | none => 0).sum

/-- The bobbin front end reads its next weft vector (R137): at most 32 beats ahead (R138), and not before the earlier passes of the array have
written it (R230). -/
def State.readWeft (s : State) (c n : Nat) : State :=
  let x := s.arr c n
  match x.passes.find? fun p => !p.zero && decide (p.read < p.m) with
  | none => s
  | some p =>
    let wb := fmtBytes p.fmt
    let a := p.weft + p.read * p.stride
    if 32 < x.queued + p.beats ∨ x.unwritten p.order a (64 * wb) = true then s
    else
      let got := s.spoolElems c a wb 64
      (s.unitOow c a (64 * wb)).setArr c n { x with
        queue := x.queue ++ [{ pass := p.id, vec := p.read, elems := got.1, poison := !got.2.isEmpty }]
        passes := x.passes.map fun q => if q.id = p.id then { q with read := q.read + 1 } else q }

/-- `k` weft vectors read. -/
def State.readWefts (s : State) (c n k : Nat) : State := (List.range k).foldl (fun t _ => t.readWeft c n) s

/-- The weft vector of a pass's next beat, where the queue heads hold it. -/
def ArrState.headFor (x : ArrState) (p : PassJob) : Option Weft :=
  match x.queue with
  | w :: _ => if w.pass = p.id ∧ w.vec = p.vec then some w else none
  | [] => none

/-- A beat that would break a rule of the swap (R146), of the shed shift (R149) or of the vat banks (R150) at cycle `cyc` (R139). -/
def ArrState.held (x : ArrState) (p : PassJob) (cyc : Nat) : Bool :=
  let swap := p.fresh && isSwap p.warpOp &&
    ((x.loader.any fun j => !j.edge && decide (j.order < p.order) && j.start.isNone) ||
      (match x.shadow with
       | none => true
       | some w => decide (cyc + 65 < w.2)))
  let shift := p.fresh && isShift p.warpOp && x.loader.any fun j => j.edge && decide (j.order < p.order)
  let bank := x.drains.any fun d => !d.zero && d.bank == p.vecBank
  swap || shift || bank

/-- The active warp after the warp change of a pass (R141, R145, R148). -/
def ArrState.warpFor (x : ArrState) (p : PassJob) : Warp :=
  let w := if isSwap p.warpOp then (x.shadow.map (·.1)).getD {} else x.active.getD {}
  if isShift p.warpOp then w.shift (x.edge.getD {}) (shiftLeft p.warpOp) else w

/-- The release of a pass's next beat at cycle `cyc`, with the weft vector at the queue heads. -/
def State.release (s : State) (c n : Nat) (p : PassJob) (v : Weft) (cyc : Nat) : State :=
  let x := s.arr c n
  let x1 := if p.fresh then
      { x with active := some (x.warpFor p)
               shadow := if isSwap p.warpOp then none else x.shadow
               swapRel := if isSwap p.warpOp then some cyc else x.swapRel
               shiftRel := if isShift p.warpOp then some cyc else x.shiftRel }
    else x
  let w := x1.active.getD {}
  let order := beatOrder p.fmt w.fmt
  let last := decide (order.length ≤ p.beat + 1)
  let fl : Flight :=
    { pass := p.id, bank := p.vecBank, row := p.vec % 64, init := p.init && p.beat == 0
      musts := beatMusts p.fmt p.frac v.elems v.poison w (order.getD p.beat (0, 0)) (s.windowL c), last := last, rel := cyc }
  (((s.setArr c n { x1 with
      passes := x1.passes.map fun q =>
        if q.id = p.id then (if last then { q with vec := q.vec + 1, beat := 0 } else { q with beat := q.beat + 1 }) else q
      queue := if last then x1.queue.drop 1 else x1.queue
      flights := x1.flights ++ [fl], relFree := cyc + 1 }).startLoad c n).addWrap (ofArr n F.CORE_A0_BEATS F.CORE_A1_BEATS) c 1).setFld
    (ofArr n F.CORE_ARR_STAT_A0_ROWS_ON F.CORE_ARR_STAT_A1_ROWS_ON) c 1

/-- BEAT_RELEASE (R137 to R139): at cycle `cyc`, after the front end has read `reads` more weft vectors (out of order and late as bank
conflicts make them), the pass at the front releases a beat, or a bubble enters where some queue head is missing, or the beat is held. -/
def execBeatRelease (core : Fin 512) (arr : Fin 2) (cyc reads : Nat) (ecc : UnitEcc) (s : State) :
    Host.Outcome State Fault Refusal :=
  let c := core.val
  let n := arr.val
  match (s.arr c n).releasing with
  | none => .next s
  | some p0 =>
    if cyc < (s.arr c n).relFree then .next s
    else
      let s1 := ((s.arrEcc c ecc.own).splEcc c ecc.mem).readWefts c n reads
      let x := s1.arr c n
      let p := x.releasing.getD p0
      match x.headFor p with
      | none => .next (s1.addSat (ofArr n F.CORE_A0_BUBBLES F.CORE_A1_BUBBLES) c 1)
      | some v =>
        if x.held p cyc then .next (s1.addSat (ofArr n F.CORE_A0_HOLD F.CORE_A1_HOLD) c 1)
        else .next (s1.release c n p v cyc)

/-- ROW_CLOCK_STOP (R154): in ramp mode, after IDLE_THRESH cycles without a release, the row clocks stop. -/
def execRowClockStop (core : Fin 512) (arr : Fin 2) (cyc : Nat) (s : State) : Host.Outcome State Fault Refusal :=
  let c := core.val
  let n := arr.val
  if s.flag F.CORE_ARR_CTL_GATE_MODE c ∧ (s.arr c n).relFree + s.fld F.CORE_ARR_CTL_IDLE_THRESH c ≤ cyc + 1 then
    .next (s.setFld (ofArr n F.CORE_ARR_STAT_A0_ROWS_ON F.CORE_ARR_STAT_A1_ROWS_ON) c 0)
  else .next s

/-! ### The vat -/

/-- The place of a vat element. -/
def vatKey (bank row col : Nat) : Nat := (bank * 64 + row) * 64 + col

/-- The flights up to the first that is a vector's last beat, and the rest. -/
def takeVector : List Flight → List Flight × List Flight
  | [] => ([], [])
  | f :: t => if f.last then ([f], t) else let r := takeVector t; (f :: r.1, r.2)

/-- The vat with the musts of one beat added to its row (R168, R169). -/
def addBeat (vat : Tab VatEl) (f : Flight) : Tab VatEl :=
  f.musts.zipIdx.foldl (fun t m =>
    let k := vatKey f.bank f.row m.2
    let el : VatEl := if f.init then {} else Tab.get {} t k
    Tab.set t k (el.add m.1)) vat

/-- The tile of a pass that its newest complete row closes (R182, R185), where the pass drains. -/
def PassJob.tileDone (p : PassJob) : Option Drain :=
  match p.epi with
  | none => none
  | some e =>
    if p.done % 64 = 0 ∨ p.done = p.m then
      let n := (p.done - 1) / 64
      some { pass := p.id, strand := p.strand, epi := e, bank := (p.bank + n) % 4, tile := n, rows := p.done - 64 * n
             rowScale := p.rowScale, colScale := p.colScale, last := p.done == p.m }
    else none

/-- VAT_ROW_COMPLETE (R142): the musts of the oldest vector whose beats are all in flight are added, 68 cycles after its last beat's
release; a bank that completes joins the drain queue, and a pass that drains nothing completes with its last row (R231). -/
def execVatRowComplete (core : Fin 512) (arr : Fin 2) (cyc : Nat) (ecc : Ecc) (s : State) : Host.Outcome State Fault Refusal :=
  let c := core.val
  let n := arr.val
  let x := s.arr c n
  let v := takeVector x.flights
  match v.1.getLast? with
  | none => .next s
  | some l =>
    if !l.last || decide (cyc < l.rel + 68) then .next s
    else
      let bumped := x.passes.map fun q => if q.id = l.pass then { q with done := q.done + 1 } else q
      let p := (bumped.find? fun q => q.id == l.pass).getD {}
      let last := decide (p.m ≤ p.done)
      let y : ArrState := { x with
        flights := v.2, vat := v.1.foldl addBeat x.vat
        passes := if last then bumped.filter fun q => q.id != l.pass else bumped
        drains := match p.tileDone with
          | some d => x.drains ++ [d]
          | none => x.drains
        live := if last && p.epi.isNone then x.live.filter fun e => e.1 != l.pass else x.live }
      .next ((s.setArr c n (y.settle y.passes.length)).arrEcc c ecc)

end Sys2Proof.Machine
end

