-- ==== Sys2Proof/Machine/Transcendental.lean ====
section
/-! DEFINITION. The correctly rounded functions of R179, R196 and R215. A function's exact real value is enclosed between two
rationals; where both ends round alike, that is the value's rounding, and a narrower enclosure is taken otherwise. Arguments whose
result is rational are answered exactly. -/
namespace Sys2Proof.Machine

/-- A rational: numerator and positive denominator. -/
abbrev Q := Int × Nat

def Q.add (a b : Q) : Q := (a.1 * b.2 + b.1 * a.2, a.2 * b.2)
def Q.mul (a b : Q) : Q := (a.1 * b.1, a.2 * b.2)
def Q.neg (a : Q) : Q := (-a.1, a.2)
def Q.le (a b : Q) : Bool := decide (a.1 * b.2 ≤ b.1 * a.2)
/-- A quotient by a positive rational. -/
def Q.div (a b : Q) : Q := (a.1 * b.2, a.2 * b.1.toNat)
def Q.one : Q := (1, 1)

/-- The rational `m × 2^k`. -/
def Q.pow2 (m k : Int) : Q := if 0 ≤ k then (m * 2 ^ k.toNat, 1) else (m, 2 ^ (-k).toNat)

/-- The value of a rational. -/
def Q.val (a : Q) : Val := .fin (decide (a.1 < 0)) a.1.natAbs a.2

/-- A rational cut down, or up, to a multiple of `2^(-p)`. -/
def Q.fix (p : Nat) (up : Bool) (a : Q) : Int :=
  let n := a.1 * 2 ^ p
  if up then -((-n) / a.2) else n / a.2

/-- An enclosure: lower and upper end. -/
abbrev Encl := Q × Q

/-- An enclosure widened to ends on the grid `2^(-p)`. -/
def Encl.grid (p : Nat) (a : Encl) : Encl := ((Q.fix p false a.1, 2 ^ p), (Q.fix p true a.2, 2 ^ p))

/-- The product of an enclosure of positive ends with a rational. -/
def Encl.scale (a : Encl) (x : Q) : Encl := if 0 ≤ x.1 then (Q.mul a.1 x, Q.mul a.2 x) else (Q.mul a.2 x, Q.mul a.1 x)

/-- The sum of `t^(2j+1) / (2j+1)` for `t = n / d` in units of `2^(-p)`, each term cut down; `alt` alternates the signs. -/
def atanSum (p : Nat) (n d : Int) (alt : Bool) : Nat → Nat → Int → Int → Int
  | 0, _, _, acc => acc
  | fuel + 1, j, pw, acc =>
    let term := pw / (2 * j + 1)
    atanSum p n d alt fuel (j + 1) (pw * n * n / (d * d)) (if alt && j % 2 == 1 then acc - term else acc + term)

/-- ln 2 = 2 atanh(1/3), enclosed. -/
def lnTwo (p : Nat) : Encl :=
  let s := 2 * atanSum p 1 3 false (p / 3 + 8) 0 (2 ^ p / 3) 0
  ((s - 2 * p - 64, 2 ^ p), (s + 2 * p + 64, 2 ^ p))

/-- π = 16 atan(1/5) - 4 atan(1/239), enclosed. -/
def piEncl (p : Nat) : Encl :=
  let s := 16 * atanSum p 1 5 true (p / 4 + 8) 0 (2 ^ p / 5) 0 - 4 * atanSum p 1 239 true (p / 15 + 8) 0 (2 ^ p / 239) 0
  ((s - 32 * p - 256, 2 ^ p), (s + 32 * p + 256, 2 ^ p))

/-- The sum of `r^i / i!` in units of `2^(-p)`. -/
def expSum (p : Nat) (r : Int) : Nat → Nat → Int → Int → Int
  | 0, _, _, acc => acc
  | fuel + 1, i, term, acc => expSum p r fuel (i + 1) (term * r / 2 ^ p / (i + 1)) (acc + term)

/-- e^x for a rational `x`, enclosed with about `p` significant bits. Beyond ±8,192 the result lies outside every format's range or
below its least value, and a power of two that far out rounds alike. -/
def expEncl (p : Nat) (x : Q) : Encl :=
  if Q.le (8192, 1) x then (Q.pow2 1 8000, Q.pow2 1 8000)
  else if Q.le x (-8192, 1) then (Q.pow2 1 (-8000), Q.pow2 1 (-8000))
  else
    let w := p + 64
    let fx := Q.fix w false x
    let ln := (lnTwo w).1.1
    let k := fx / ln
    let r := fx - k * ln
    let e := expSum w r (w / 2 + 24) 0 (2 ^ w) 0
    (Q.pow2 (e - 2 ^ 40) (k - w), Q.pow2 (e + 2 ^ 40) (k - w))

/-- ln x for a positive rational, enclosed: x = m × 2^k, ln m = 2 atanh((m - 1) / (m + 1)). -/
def logEncl (p : Nat) (n d : Nat) : Encl :=
  let w := p + 64
  let k := log2Floor n d
  let n' : Int := if 0 ≤ k then n else n * 2 ^ (-k).toNat
  let d' : Int := if 0 ≤ k then d * 2 ^ k.toNat else d
  let t := ((n' - d') * 2 ^ w) / (n' + d')
  let s := 2 * atanSum w t (2 ^ w) false (w / 3 + 8) 0 t 0
  let ln := (lnTwo w).1.1
  (((s + k * ln - 2 ^ 40), 2 ^ w), ((s + k * ln + 2 ^ 40), 2 ^ w))

/-- 1 / (1 + e^-x), enclosed between the values at both ends of an enclosure of x. -/
def sigmEncl (p : Nat) (x : Encl) : Encl :=
  let at' := fun (y : Q) (lo : Bool) =>
    if 0 ≤ y.1 then
      let e := expEncl p (Q.neg y)
      let e' := if lo then e.2 else e.1
      Q.div Q.one (Q.add Q.one e')
    else
      let e := expEncl p y
      let e' := if lo then e.1 else e.2
      Q.div e' (Q.add Q.one e')
  (at' x.1 true, at' x.2 false)

/-- tanh x for a positive rational, enclosed: (1 - e^-2x) / (1 + e^-2x). -/
def tanhEncl (p : Nat) (x : Q) : Encl :=
  let e := expEncl p (Q.mul x (-2, 1))
  let f := fun (y : Q) => Q.div (Q.add Q.one (Q.neg y)) (Q.add Q.one y)
  (f e.2, f e.1)

/-- √(8/π), enclosed. -/
def sqrt8Pi (p : Nat) : Encl :=
  let pi := (piEncl (2 * p)).grid (2 * p)
  let lo := 8 * 2 ^ (4 * p) / pi.2.1.toNat
  let hi := 8 * 2 ^ (4 * p) / pi.1.1.toNat + 1
  ((isqrt lo, 2 ^ p), ((isqrt hi : Int) + 1, 2 ^ p))

/-- The functions. -/
inductive Fn where
  | exp | exp2 | log | log2 | tanh | sigm | silu | gelu
deriving DecidableEq, Repr, Inhabited

def Fn.code : Fn → Nat
  | .exp => 0
  | .exp2 => 1
  | .log => 2
  | .log2 => 3
  | .tanh => 4
  | .sigm => 5
  | .silu => 6
  | .gelu => 7

/-- A positive rational that is a power of two. -/
def isPow2 (n d : Nat) : Bool :=
  let k := log2Floor n d
  if 0 ≤ k then n == d * 2 ^ k.toNat else n * 2 ^ (-k).toNat == d

/-- Arguments whose result is exact: special values (Table 6.5, R196) and the rational cases. -/
def Fn.exact (f : Fn) (x : Val) : Option Val :=
  match x with
  | .nan => some .nan
  | .inf neg =>
    some (match f with
      | .exp | .exp2 => if neg then Val.zero else .inf false
      | .log | .log2 => if neg then .nan else .inf false
      | .tanh => .fin neg 1 1
      | .sigm => if neg then Val.zero else Val.one
      | .silu | .gelu => if neg then .fin true 0 1 else .inf false)
  | .fin neg n d =>
    if n = 0 then
      some (match f with
        | .exp | .exp2 => Val.one
        | .log | .log2 => .inf true
        | .sigm => .fin false 1 2
        | .tanh | .silu | .gelu => x)
    else match f with
      | .exp2 =>
        if n % d = 0 then
          let k : Int := signedNum neg (min (n / d) 8000)
          some (Val.scaled false 1 k)
        else none
      | .log => if neg then some .nan else if n = d then some Val.zero else none
      | .log2 =>
        if neg then some .nan
        else if isPow2 n d then
          let k := log2Floor n d
          some (Val.ofInt k)
        else none
      | _ => none

/-- An enclosure of a function's value at a finite non-zero argument that has no exact answer. -/
def Fn.encl (f : Fn) (p : Nat) (neg : Bool) (n d : Nat) : Encl :=
  let x : Q := (signedNum neg n, d)
  match f with
  | .exp => expEncl p x
  | .exp2 =>
    let e := (lnTwo (p + 64)).scale x
    ((expEncl p e.1).1, (expEncl p e.2).2)
  | .log => logEncl p n d
  | .log2 =>
    let a := logEncl p n d
    let b := lnTwo (p + 64)
    if 0 ≤ a.1.1 then (Q.div a.1 b.2, Q.div a.2 b.1) else (Q.div a.1 b.1, Q.div a.2 b.2)
  | .tanh => let a := tanhEncl p (n, d); if neg then (Q.neg a.2, Q.neg a.1) else a
  | .sigm => sigmEncl p (x, x)
  | .silu => let a := sigmEncl p (x, x); a.scale x
  | .gelu =>
    let q := sqrt8Pi p
    let y : Q := Q.add x (Q.mul (44715, 1000000) (Q.mul x (Q.mul x x)))
    let u := q.scale y
    let a := sigmEncl p u
    a.scale x

/-- The rounding `r` of the value that an enclosure holds, tried at growing precision. -/
def settle (e : Nat → Encl) (r : Val → Conv) (dflt : Nat) : List Nat → Conv
  | [] => ⟨dflt, false⟩
  | p :: t =>
    let a := e p
    let lo := r a.1.val
    if lo = r a.2.val then lo else settle e r dflt t

/-- The correctly rounded value of a function (R179, R196): `r` is the one rounding. -/
def Fn.round (f : Fn) (x : Val) (r : Val → Conv) : Conv :=
  match f.exact x with
  | some v => r v
  | none =>
    match x with
    | .fin neg n d => settle (fun p => f.encl p neg n d) r (Config.unsettled f.code (2 * n + bit neg)) [96, 320, 1200, 4800]
    | _ => r .nan

end Sys2Proof.Machine
end

