-- ==== Sys2Proof/Machine/VecOps.lean ====
section
/-! DEFINITION. The vector engine's operands (R190 to R194) and its frame: issue, owner, element count, reserved encodings, counters
(R217) and poison (R218). -/
namespace Sys2Proof.Machine
open Sys2Proof

/-! ### Registers -/

/-- Bytes of a vector register. -/
def vregBytes : Nat := 2048

/-- The bytes of vector registers from `r` on, `n` of them (R190). -/
def CoreState.vbytes (m : CoreState) (r n : Nat) : List Byte :=
  (padTo vregBytes (Tab.get [] m.v r) ++ (if vregBytes < n then padTo vregBytes (Tab.get [] m.v (r + 1)) else [])).take n

/-- Byte `k` from register `r` on is poisoned. -/
def CoreState.vpoison (m : CoreState) (r k : Nat) : Bool := (Tab.get [] m.vp (r + k / vregBytes)).contains (k % vregBytes)

/-- Elements 0 to `n` - 1 of a vector operand of `w`-byte elements. -/
def CoreState.velems (m : CoreState) (r w n : Nat) : List Nat := (chunksOf w n (m.vbytes r (n * w))).map leNat

/-- Their poison. -/
def CoreState.vpois (m : CoreState) (r w n : Nat) : List Bool :=
  (List.range n).map fun k => (List.range w).any fun j => m.vpoison r (k * w + j)

/-- One register with its first bytes replaced; the poison of those bytes is `pz`. -/
def CoreState.vputReg (m : CoreState) (r : Nat) (bytes : List Byte) (pz : List Nat) : CoreState :=
  let old := padTo vregBytes (Tab.get [] m.v r)
  let keep := (Tab.get [] m.vp r).filter fun k => bytes.length ≤ k
  { m with v := Tab.set m.v r (bytes ++ old.drop bytes.length), vp := Tab.set m.vp r (pz ++ keep) }

/-- Elements 0 onward of a vector operand written; the elements beyond keep their values (R193). -/
def CoreState.vput (m : CoreState) (r w : Nat) (vals : List Nat) (pz : List Bool) : CoreState :=
  let bytes := vals.flatMap (toLe w)
  let bad := (List.range vals.length).flatMap fun k => if pz.getD k false then rangeFrom (k * w) w else []
  let lo := bad.filter fun k => k < vregBytes
  let m1 := m.vputReg r (bytes.take vregBytes) lo
  if vregBytes < bytes.length then
    m1.vputReg (r + 1) (bytes.drop vregBytes) ((bad.filter fun k => vregBytes ≤ k).map (· - vregBytes))
  else m1

/-! ### What an element reports (Table 7.9) -/

/-- Counts of one instruction. -/
structure VNote where
  nan : Nat := 0
  sat : Nat := 0
  wrap : Nat := 0
  div0 : Nat := 0
  lees : Nat := 0
  oow : Nat := 0
deriving DecidableEq, Repr, Inhabited

def VNote.add (a b : VNote) : VNote :=
  ⟨a.nan + b.nan, a.sat + b.sat, a.wrap + b.wrap, a.div0 + b.div0, a.lees + b.lees, a.oow + b.oow⟩

/-- The note of an integer result. -/
def IntNote.note : IntNote → VNote
  | .none => {}
  | .wrap => { wrap := 1 }
  | .sat => { sat := 1 }
  | .div0 => { div0 := 1 }

/-- The counters and events of Tables 7.10 and 7.11. -/
def State.vecNote (s : State) (c : Nat) (n : VNote) : State :=
  (((((s.countEv F.CORE_VEC_NAN c n.nan Ev.CORE_VEC_NAN).addSat F.CORE_VEC_SAT c n.sat).addSat F.CORE_VEC_WRAP c n.wrap).addSat
    F.CORE_VEC_DIV0 c n.div0).addSat F.CORE_VEC_LEES c n.lees).countEv F.CORE_VEC_OOW c n.oow Ev.CORE_VEC_OOW

/-! ### The frame of an instruction -/

/-- The number of elements: vl, or the smallest capacity of a vector operand (R193). -/
def State.vN (s : State) (c : Nat) (ops : List (Nat × Nat)) : Nat :=
  ops.foldl (fun n o => min n (4096 / max 1 o.2)) (s.core c).vl

/-- An operand of `n` elements that takes a pair names an even register (R194). -/
def pairOk (n : Nat) (o : Nat × Nat) : Bool := decide (n * o.2 ≤ vregBytes) || o.1 % 2 == 0

/-- Zeros to every destination element of a reserved encoding (R111): register, width (0: unknown, the whole register; log entry
25). -/
def State.vzero (s : State) (c n : Nat) (dst : Nat × Nat) : State :=
  if dst.2 = 0 then s.setCore c ((s.core c).vputReg dst.1 (List.replicate vregBytes 0) [])
  else
    let k := if n * dst.2 ≤ vregBytes ∨ dst.1 % 2 = 0 then n else vregBytes / dst.2
    s.setCore c ((s.core c).vput dst.1 dst.2 (List.replicate k 0) [])

/-- Zeros to every destination of a reserved encoding: a structure load has several, of one register each (R203). -/
def State.vzeros (s : State) (c n : Nat) (dst : List (Nat × Nat)) : State :=
  dst.foldl (fun t d => t.vzero c (if dst.length = 1 then n else min n (vregBytes / max 1 d.2)) d) s

/-- No field of a value form holds a reserved code (R111, R239), and each FRAC goes with a format that uses it (R117): FRAC_A with the
integer sources of `srcs`, FRAC_D with the result where `res` says that it has one. -/
def valueOk (i : Issue) (srcs : List Nat) (res : Bool) : Bool :=
  ccbOk (vCcb i) && fmtOk (vFa i) && fmtOk (vFb i) && fracAOk srcs (vFracA i) && (if res then fracOk (ccbFmt (vCcb i)) (vFracD i) else vFracD i == 0)

/-- A value form that moves elements as they are, of the width of the conversion control byte's format: neither FRAC is used. -/
def moveOk (i : Issue) : Bool := valueOk i [] false

/-- An instruction of the vector engine or the reduction unit: its strand may issue and owns VEC (R226); `ops` are its vector operands as
(register, element bytes), `dst` the destinations that a reserved encoding zeroes, `sd` a scalar destination that it zeroes. -/
def State.vec (s : State) (op : Nat) (i : Issue) (ok : Bool) (ops : List (Nat × Nat)) (dst : List (Nat × Nat)) (sd : Bool)
    (body : State → Nat → State) : State :=
  let c := i.core.val
  let t := i.strand.val
  if s.canIssue op i then
    let s1 := (s.advance c t).strEcc c i.ecc
    if s1.owns c t 0 then
      let s2 := s1.vecEcc c i.vecc
      let n := s2.vN c ops
      if ok && ops.all (pairOk n) then
        body (if n < (s2.core c).vl then s2.addSat F.CORE_VEC_CLIP c 1 else s2) n
      else (if sd then (s2.vzeros c n dst).wd i 0 else s2.vzeros c n dst).vecRsvd c
    else s1.strRsvd c
  else s

/-- A source: the elements of a vector register, or a scalar in every element, with their poison. -/
def State.vsrc (s : State) (c t r w n : Nat) (scalar : Bool) : List (Nat × Bool) :=
  if scalar then List.replicate n (s.sreg c t r % 2 ^ (8 * w), false)
  else ((s.core c).velems r w n).zip ((s.core c).vpois r w n)

/-- The result elements written to vd with their notes and poison; consumed poison is reported (R218). -/
def State.vresult (s : State) (i : Issue) (w : Nat) (res : List (Nat × VNote × Bool)) : State :=
  let c := i.core.val
  let s1 := s.setCore c ((s.core c).vput i.d.val w (res.map (·.1)) (res.map (·.2.2)))
  (s1.vecNote c (res.foldl (fun a r => a.add r.2.1) {})).corePoison c (res.any (·.2.2))

/-- Element numbers with two sources: `f k a b` for every element. -/
def zipElems (a b : List (Nat × Bool)) (f : Nat → Nat → Nat → Nat × VNote) : List (Nat × VNote × Bool) :=
  (a.zip b).zipIdx.map fun x =>
    let r := f x.2 x.1.1.1 x.1.2.1
    (r.1, r.2, x.1.1.2 || x.1.2.2)

/-- Element numbers with one source. -/
def mapElems (a : List (Nat × Bool)) (f : Nat → Nat → Nat × VNote) : List (Nat × VNote × Bool) :=
  a.zipIdx.map fun x => let r := f x.2 x.1.1; (r.1, r.2, x.1.2)

/-- The vector operands of a two-source instruction: destination, a, and b unless it is scalar. -/
def vops2 (i : Issue) (dw aw bw : Nat) : List (Nat × Nat) :=
  [(i.d.val, dw), (i.a.val, aw)] ++ (if vSb i then [] else [(i.b.val, bw)])

/-- The rounding of an exact result under the conversion control byte, with its counters: `nanIn` says a source was NaN (R217). -/
def roundNote (ccb frac u : Nat) (nanIn : Bool) (v : Val) : Nat × VNote :=
  let r := roundCcb ccb frac u v
  let plain := roundTo (ccbFmt ccb) frac (ccbRm ccb) false u v
  (r.bits, { nan := if v = .nan ∧ nanIn = false then 1 else 0
             sat := if r.clip = true ∨ (ccbSat ccb = true ∧ r.bits ≠ plain.bits) then 1 else 0 })

end Sys2Proof.Machine
end

