-- ==== Sys2Proof/Machine/VecFloat.lean ====
section
/-! DEFINITION. Vector floating-point instructions (R196), compares (R199), conversions (R121, R131) and transcendental functions. -/
namespace Sys2Proof.Machine
open Sys2Proof

/-- No reserved code or out-of-range value in a value form (R111, R117). -/
def vfOk (i : Issue) (two : Bool) : Bool :=
  valueOk i (if two then [vFa i, vFb i] else [vFa i]) true

/-- A division of a finite non-zero value by zero, or the logarithm of zero (Table 7.9). -/
def divZero (num den : Val) : VNote :=
  match num with
  | .fin _ n _ => if n ≠ 0 ∧ den.isZero = true then { div0 := 1 } else {}
  | _ => {}

/-- A two-source instruction: the exact value `f a b`, rounded once; `note` is what else it reports. -/
def State.vf2 (s : State) (op : Nat) (i : Issue) (f : Val → Val → Val) (note : Val → Val → VNote) : State :=
  let w := fmtBytes (ccbFmt (vCcb i))
  let wa := fmtBytes (vFa i)
  let wb := fmtBytes (vFb i)
  let c := i.core.val
  let t0 := i.strand.val
  s.vec op i (vfOk i true) (vops2 i w wa wb) [(i.d.val, w)] false fun t n =>
    (t.vresult i w (zipElems (t.vsrc c t0 i.a.val wa n false) (t.vsrc c t0 i.b.val wb n (vSb i)) fun e a b =>
      let x := decodeVal (vFa i) (vFracA i) a
      let y := decodeVal (vFb i) (vFracA i) b
      let r := roundNote (vCcb i) (vFracD i) (t.srU c t0 e) (x == .nan || y == .nan) (f x y)
      (r.1, r.2.add (note x y)))).srDone c t0 (ccbRm (vCcb i))

/-- A one-source instruction. -/
def State.vf1 (s : State) (op : Nat) (i : Issue) (f : Val → Val) (note : Val → VNote) : State :=
  let w := fmtBytes (ccbFmt (vCcb i))
  let wa := fmtBytes (vFa i)
  let c := i.core.val
  let t0 := i.strand.val
  s.vec op i (vfOk i false) [(i.d.val, w), (i.a.val, wa)] [(i.d.val, w)] false fun t n =>
    (t.vresult i w (mapElems (t.vsrc c t0 i.a.val wa n false) fun e a =>
      let x := decodeVal (vFa i) (vFracA i) a
      let r := roundNote (vCcb i) (vFracD i) (t.srU c t0 e) (x == .nan) (f x)
      (r.1, r.2.add (note x)))).srDone c t0 (ccbRm (vCcb i))

/-- The smaller or the larger of two values; −0 is below +0, and a NaN gives NaN (R208). -/
def Val.pick (big : Bool) (a b : Val) : Val :=
  match Val.cmp a b with
  | none => .nan
  | some .lt => if big then b else a
  | some .gt => if big then a else b
  | some .eq =>
    match a with
    | .fin true 0 _ => if big then b else a
    | _ => if big then a else b

def execVfadd (i : Issue) (s : State) : Host.Outcome State Fault Refusal := .next (s.vf2 0x60 i (Val.add 0) fun _ _ => {})
def execVfsub (i : Issue) (s : State) : Host.Outcome State Fault Refusal := .next (s.vf2 0x61 i (Val.sub 0) fun _ _ => {})
def execVfmul (i : Issue) (s : State) : Host.Outcome State Fault Refusal := .next (s.vf2 0x62 i Val.mul fun _ _ => {})
def execVfmin (i : Issue) (s : State) : Host.Outcome State Fault Refusal := .next (s.vf2 0x64 i (Val.pick false) fun _ _ => {})
def execVfmax (i : Issue) (s : State) : Host.Outcome State Fault Refusal := .next (s.vf2 0x65 i (Val.pick true) fun _ _ => {})
def execVfdiv (i : Issue) (s : State) : Host.Outcome State Fault Refusal := .next (s.vf2 0x69 i Val.div divZero)
def execVfrcp (i : Issue) (s : State) : Host.Outcome State Fault Refusal := .next (s.vf1 0x6A i (Val.div Val.one) (divZero Val.one))
def execVfsqrt (i : Issue) (s : State) : Host.Outcome State Fault Refusal := .next (s.vf1 0x6B i Val.sqrt fun _ => {})

/-- The reciprocal square root: the root of the exact reciprocal. -/
def Val.rsqrt (x : Val) : Val :=
  match x with
  | .fin neg n d => if n = 0 then .inf neg else if neg then .nan else Val.sqrt (.fin false d n)
  | .inf neg => if neg then .nan else Val.zero
  | .nan => .nan

def execVfrsqrt (i : Issue) (s : State) : Host.Outcome State Fault Refusal := .next (s.vf1 0x6C i Val.rsqrt (divZero Val.one))
def execVcvt (i : Issue) (s : State) : Host.Outcome State Fault Refusal := .next (s.vf1 0x67 i id fun _ => {})

/-- VFMA: a × b + d, the addend in the format of the conversion control byte, rounded once (Table 8.4). -/
def execVfma (i : Issue) (s : State) : Host.Outcome State Fault Refusal :=
  let w := fmtBytes (ccbFmt (vCcb i))
  let wa := fmtBytes (vFa i)
  let wb := fmtBytes (vFb i)
  let c := i.core.val
  let t0 := i.strand.val
  .next (s.vec 0x63 i (vfOk i true) (vops2 i w wa wb) [(i.d.val, w)] false fun t n =>
    let a := t.vsrc c t0 i.a.val wa n false
    let b := t.vsrc c t0 i.b.val wb n (vSb i)
    let d := t.vsrc c t0 i.d.val w n false
    (t.vresult i w ((a.zip (b.zip d)).zipIdx.map fun x =>
      let u := decodeVal (vFa i) (vFracA i) x.1.1.1
      let v := decodeVal (vFb i) (vFracA i) x.1.2.1.1
      let z := decodeVal (ccbFmt (vCcb i)) (vFracD i) x.1.2.2.1
      let r := roundNote (vCcb i) (vFracD i) (t.srU c t0 x.2) (u == .nan || v == .nan || z == .nan) (Val.add 0 (Val.mul u v) z)
      (r.1, r.2, x.1.1.2 || x.1.2.1.2 || x.1.2.2.2))).srDone c t0 (ccbRm (vCcb i)))

/-- VCMP: 1 or 0 in the integer format of the conversion control byte (R199). -/
def execVcmp (i : Issue) (s : State) : Host.Outcome State Fault Refusal :=
  let w := fmtBytes (ccbFmt (vCcb i))
  let wa := fmtBytes (vFa i)
  let wb := fmtBytes (vFb i)
  let c := i.core.val
  let t0 := i.strand.val
  .next (s.vec 0x66 i (vfOk i true && isInt (ccbFmt (vCcb i)) && decide (vSub i ≤ 5)) (vops2 i w wa wb) [(i.d.val, w)] false fun t n =>
    (t.vresult i w (zipElems (t.vsrc c t0 i.a.val wa n false) (t.vsrc c t0 i.b.val wb n (vSb i)) fun _ a b =>
      (bit (condHolds (vSub i) (Val.cmp (decodeVal (vFa i) (vFracA i) a) (decodeVal (vFb i) (vFracA i) b))), {}))).srDone
        c t0 (ccbRm (vCcb i)))

/-- VSCVT: x × m rounded once, the binary32 multiplier m in sb (R121). -/
def execVscvt (i : Issue) (s : State) : Host.Outcome State Fault Refusal :=
  let w := fmtBytes (ccbFmt (vCcb i))
  let wa := fmtBytes (vFa i)
  let c := i.core.val
  let t0 := i.strand.val
  .next (s.vec 0x68 i (vfOk i false) [(i.d.val, w), (i.a.val, wa)] [(i.d.val, w)] false fun t n =>
    let m := f32 (t.rb i % 2 ^ 32)
    (t.vresult i w (mapElems (t.vsrc c t0 i.a.val wa n false) fun e a =>
      let x := decodeVal (vFa i) (vFracA i) a
      roundNote (vCcb i) (vFracD i) (t.srU c t0 e) (x == .nan || m == .nan) (Val.mul x m))).srDone c t0 (ccbRm (vCcb i)))

/-- A transcendental instruction, correctly rounded; binary64 is a reserved encoding (Table 7.2). -/
def State.vfn (s : State) (op : Nat) (i : Issue) (f : Fn) : State :=
  let w := fmtBytes (ccbFmt (vCcb i))
  let wa := fmtBytes (vFa i)
  let c := i.core.val
  let t0 := i.strand.val
  s.vec op i (vfOk i false && vFa i != 5 && ccbFmt (vCcb i) != 5) [(i.d.val, w), (i.a.val, wa)] [(i.d.val, w)] false fun t n =>
    (t.vresult i w (mapElems (t.vsrc c t0 i.a.val wa n false) fun e a =>
      let x := decodeVal (vFa i) (vFracA i) a
      let u := t.srU c t0 e
      let r := f.round x (roundCcb (vCcb i) (vFracD i) u)
      let plain := f.round x (roundTo (ccbFmt (vCcb i)) (vFracD i) (ccbRm (vCcb i)) false u)
      let log := f == .log || f == .log2
      let below := match x with
        | .fin neg n _ => neg && n != 0
        | .inf neg => neg
        | .nan => false
      (r.bits, { nan := if log && below then 1 else 0
                 div0 := if log && x.isZero then 1 else 0
                 sat := if r.clip = true ∨ (ccbSat (vCcb i) = true ∧ r.bits ≠ plain.bits) then 1 else 0 }))).srDone c t0 (ccbRm (vCcb i))

def execVexp (i : Issue) (s : State) : Host.Outcome State Fault Refusal := .next (s.vfn 0x70 i .exp)
def execVexp2 (i : Issue) (s : State) : Host.Outcome State Fault Refusal := .next (s.vfn 0x71 i .exp2)
def execVlog (i : Issue) (s : State) : Host.Outcome State Fault Refusal := .next (s.vfn 0x72 i .log)
def execVlog2 (i : Issue) (s : State) : Host.Outcome State Fault Refusal := .next (s.vfn 0x73 i .log2)
def execVtanh (i : Issue) (s : State) : Host.Outcome State Fault Refusal := .next (s.vfn 0x74 i .tanh)
def execVsigm (i : Issue) (s : State) : Host.Outcome State Fault Refusal := .next (s.vfn 0x75 i .sigm)
def execVsilu (i : Issue) (s : State) : Host.Outcome State Fault Refusal := .next (s.vfn 0x76 i .silu)
def execVgelu (i : Issue) (s : State) : Host.Outcome State Fault Refusal := .next (s.vfn 0x77 i .gelu)

end Sys2Proof.Machine
end

