-- ==== Sys2Proof/Machine/Combine.lean ====
section
/-! DEFINITION. The combination of a held and an arriving element, in accumulation granules (R296), by ACC at its destination
(R342) and in collective slices (R374): ADD, MIN and MAX. -/
namespace Sys2Proof.Machine

/-- `a` and `b` combined in the format of a conversion control byte, the exact result converted once under it: 0 ADD (integers keep within
their range), 1 MIN, 2 MAX, whose results are exact (R208, R296, R374). -/
def combine (ccb aop frac a b : Nat) : Nat :=
  let fmt := ccbFmt ccb
  let x := decodeVal fmt frac a
  let y := decodeVal fmt frac b
  (roundCcb ccb frac 0 (if aop = 0 then Val.add 0 x y else Val.pick (aop == 2) x y)).bits

/-- Elements of a format that bytes spell. -/
def elemsOf (fmt : Nat) (b : List Byte) : List Nat := (chunksOf (max 1 (fmtBytes fmt)) b.length b).map leNat

/-- The bytes of elements of a format. -/
def bytesOf (fmt : Nat) (l : List Nat) : List Byte := l.flatMap (toLe (fmtBytes fmt))

end Sys2Proof.Machine
end

