-- ==== Sys2Proof/Machine/CollBase.lean ====
section
/-! DEFINITION. Collective scripts (R367, R368, R371), their errors, the places of their chunks (R377, R378), and the hand-over of a
tile by an epilogue (R371, R380). -/
namespace Sys2Proof.Machine
open Sys2Proof

/-- The script that 64 bytes spell (Table 13.1). -/
def scriptOf (idx : Nat) (b : List Byte) : Script :=
  let f := fun (o n : Nat) => leNat ((b.drop o).take n)
  { idx := idx, kind := bitsOf (f 0 1) 0 4, axes := bitsOf (f 0 1) 4 4, ccb := f 1 1, aop := bitsOf (f 2 1) 0 2, frac := bitsOf (f 2 1) 2 6
    source := bitsOf (f 3 1) 0 2, deliver := bitsOf (f 3 1) 2 1, slice := bitsOf (f 4 1) 0 4, part := bitsOf (f 4 1) 4 3
    root := f 6 2, src := f 8 6, dst := f 16 6, firstChunk := f 24 4, elems := f 28 4, step := f 32 4, firstBlock := f 36 4
    blockChunks := bitsOf (f 40 1) 0 5, waveFirst := bitsOf (f 41 1) 0 5, waveCount := bitsOf (f 42 1) 0 6
    listAddr := f 48 6, listCount := f 54 2 }

/-- The reserved bytes and bits of a script are zero. -/
def scriptReservedZero (b : List Byte) : Bool :=
  let f := fun (o n : Nat) => leNat ((b.drop o).take n)
  bitsOf (f 3 1) 3 5 == 0 && bitsOf (f 4 1) 7 1 == 0 && f 5 1 == 0 && f 14 2 == 0 && f 22 2 == 0 && bitsOf (f 40 1) 5 3 == 0 &&
    bitsOf (f 41 1) 5 3 == 0 && bitsOf (f 42 1) 6 2 == 0 && f 43 5 == 0 && f 56 8 == 0

/-- The axes of a script, in the order S, E, W, V. -/
def Script.axisList (x : Script) : List Nat := (List.range 4).filter fun a => bitOf x.axes a

/-- The bits of ROOT on axes that are not in AXES are 0. -/
def Script.rootOk (x : Script) : Bool :=
  (List.range 4).all fun a => x.axisList.contains a && x.kind == 3 || (coordsOf x.root).getD a 0 == 0

/-- The rules of R371 on the fields of a script (R383 for a BUNDLE). -/
def Script.ok (x : Script) : Bool :=
  decide (x.kind < 8) && ccbOk x.ccb && ccbRm x.ccb != 5 && x.aop != 3 && fracOk (ccbFmt x.ccb) x.frac && x.source != 3 &&
    (decide (x.slice ≤ 8) || x.slice == 15) && x.rootOk &&
    (x.kind == 5 || x.kind == 6 || (decide (1 ≤ x.elems) && decide (x.elems ≤ 2 ^ 28))) &&
    (x.kind != 4 || (x.axisList.length == 1 && decide (1 ≤ x.waveCount) && decide (x.waveCount ≤ 32))) &&
    (!(x.kind == 5 || x.kind == 6) || x.slice == 8) &&
    (x.deliver != 1 || (x.kind == 0 && x.slice == 15 && x.aop == 0 && decide (1 ≤ x.blockChunks) && decide (x.blockChunks ≤ 16) &&
      (ccbFmt x.ccb == 4 || ccbFmt x.ccb == 3 || ccbFmt x.ccb == 2))) &&
    (x.kind != 7 || (x.source == 2 && x.deliver == 0 && decide (1 ≤ x.listCount) && decide (x.listCount ≤ 1024)))

/-- The chunks of a script; a BARRIER has one. -/
def Script.chunkCount (x : Script) : Nat := if x.kind = 5 then 1 else (x.elems + 4095) / 4096

/-- The elements of chunk `i`. -/
def Script.chunkLen (x : Script) (i : Nat) : Nat := if x.kind = 5 then 1 else min 4096 (x.elems - 4096 * i)

/-- The element format: int64 for a BARRIER (R382). -/
def Script.fmt (x : Script) : Nat := if x.kind = 5 then 11 else ccbFmt x.ccb

def Script.width (x : Script) : Nat := fmtBytes x.fmt

/-- The slice that runs chunk `i` (R367). -/
def Script.sliceOf (x : Script) (i : Nat) : Nat :=
  if x.slice ≤ 8 then x.slice else if x.deliver = 1 then (x.firstBlock + i / max 1 x.blockChunks) % 8 else i % 8

/-- Chunks whose slots fit a landing copy (R377, R378). -/
def Script.slots (x : Script) : Nat := if x.width ≤ 4 then 32 else 16

/-- The chunks of a script that a slice runs. -/
def Script.chunksOn (x : Script) (c : Nat) : List Nat := (List.range x.chunkCount).filter fun i => x.sliceOf i == c

/-- The address of script `idx` (R368). -/
def State.scriptAddr (s : State) (c idx : Nat) : Nat := s.fldPair F.COLL_SCRIPT_BASE_LO F.COLL_SCRIPT_BASE_HI c + 64 * idx

/-- A script as slice `c` reads it; none where it is BAD_SCRIPT. -/
def State.scriptRead (s : State) (c idx : Nat) : Option Script :=
  let b := (s.readMem none (s.scriptAddr c idx) 64).data
  let x := scriptOf idx b
  if scriptReservedZero b && x.ok && s.flag F.PART_PART_CTL_ENABLE x.part then some x else none

/-- A collective error (R371, R373, R385): codes 0x80 to 0x83, ERR_FIRST the script index, ADDR_HI the chunk index. -/
def State.collErr (s : State) (c code idx chunk : Nat) : State :=
  (s.countEv F.COLL_SCRIPT_ERR c 1 Ev.COLL_SCRIPT_ERR).countErr 7 c code (idx + chunk % 65536 * 2 ^ 32) 0

def errBadScript : Nat := 0x80
def errNoTask : Nat := 0x81
def errRackStage : Nat := 0x82
def errNoHeddle : Nat := 0x83

/-- Chunk `i` has to wait: the slice's slots are all held, or the chunk that held its slots before it is not complete (R378). -/
def CollState.mustWait (x : CollState) (sc : Script) (c i : Nat) : Bool :=
  decide (sc.slots ≤ (x.chunks.filter fun e => !e.2.complete).length) ||
    (decide (sc.slots ≤ i) && sc.sliceOf (i - sc.slots) == c &&
      (match Tab.get? x.chunks (i - sc.slots) with
       | some k => !k.complete
       | none => true))

/-- A COLL task of the current entry runs script `idx` on slice `c` (R371). -/
def State.hasCollTask (s : State) (c idx : Nat) : Bool :=
  s.flag F.COLL_COLL_CTL_ENABLE c && s.pick.tasks.any fun t => t.desc.unitType == 7 && t.desc.unitInst == c && t.desc.entry == idx

/-- The chunk that a tile with sequence number `seq` is, and the slice that runs it. -/
def Script.tileChunk (x : Script) (seq : Nat) : Nat × Nat :=
  let i := (seq + 2 ^ 32 - x.firstChunk) % 2 ^ 32
  (i, x.sliceOf i)

/-- A tile's chunk waits, which stops the drain (R378). -/
def State.tileWaits (s : State) (idx seq : Nat) : Option Nat :=
  match s.scriptRead 0 idx with
  | none => none
  | some x =>
    let p := x.tileChunk seq
    if ((s.coll p.2).script.any fun k => k.idx == idx) && (s.coll p.2).mustWait x p.2 p.1 then some p.2 else none

/-- A tile handed to its script, as it reads it (R371, R380): dropped where the script is bad or takes no tiles, counted where no task runs
it. -/
def State.handTileTo (s : State) (k : Tile) : Option Script → State
  | none => s
  | some x =>
    let p := x.tileChunk k.seq
    if !s.hasCollTask p.2 k.script || decide (x.chunkCount ≤ p.1) then s.collErr p.2 errNoTask k.script p.1
    else if x.source = 2 ∨ ccbFmt k.ccb ≠ ccbFmt x.ccb then s.collErr p.2 errBadScript k.script p.1
    else let m := s.coll p.2; s.setColl p.2 { m with tiles := m.tiles ++ [k] }

/-- A tile handed to its script. -/
def State.handTile (s : State) (k : Tile) : State := s.handTileTo k (s.scriptRead 0 k.script)

end Sys2Proof.Machine
end

