-- ==== Sys2Proof/Machine/Update.lean ====
section
/-! DEFINITION. The update unit (chapter 11): blocks and their tables (R314, R319, R320), update programs (R316 to R318), the judgement
of chunks (R315, R321), groups (R312, R322, R326), the close of a block (R313, R324, R328), UPDATE tasks (R327). -/
namespace Sys2Proof.Machine
open Sys2Proof

/-! ### Tables in memory -/

/-- A field of a descriptor in bytes. -/
def leAt (b : List Byte) (o n : Nat) : Nat := leNat ((b.drop o).take n)

/-- A block descriptor (Table 11.3). -/
structure BlockDesc where
  wc : Nat
  wcFmt : Nat
  wcRm : Nat
  mom16 : Bool
  master : Nat
  prog : Nat
  m1 : Nat
  m2 : Nat
  scale : Nat
  elems : Nat
  rowLen : Nat
  replicas : List Nat
  valid : Bool
  sharedRo : Bool
  scope : Nat
deriving DecidableEq, Repr

/-- The descriptor that 64 bytes spell. -/
def blockDescOf (b : List Byte) : BlockDesc :=
  let f := leAt b
  { wc := f 0 6, wcFmt := bitsOf (f 6 1) 0 4, wcRm := bitsOf (f 6 1) 4 3, mom16 := bitOf (f 7 1) 0, master := f 8 6, prog := f 14 2
    m1 := f 16 6, m2 := f 24 6, scale := f 32 6, elems := f 40 4, rowLen := f 44 4, replicas := [f 48 2, f 50 2, f 52 2]
    valid := bitOf (f 54 1) 0, sharedRo := bitOf (f 54 1) 1, scope := bitsOf (f 54 1) 2 2 }

/-- The reserved bytes and bits are zero. -/
def blockReservedZero (b : List Byte) : Bool :=
  let f := leAt b
  bitsOf (f 6 1) 7 1 == 0 && decide (f 7 1 < 2) && f 22 2 == 0 && f 30 2 == 0 && f 38 2 == 0 && decide (f 54 1 < 16) && f 55 9 == 0

def BlockDesc.wcBytes (d : BlockDesc) : Nat := fmtBytes d.wcFmt
def BlockDesc.momFmt (d : BlockDesc) : Nat := if d.mom16 then 3 else 4
def BlockDesc.momBytes (d : BlockDesc) : Nat := if d.mom16 then 2 else 4
def BlockDesc.rows (d : BlockDesc) : Nat := d.elems / max 1 d.rowLen
def BlockDesc.groups (d : BlockDesc) : Nat := (d.elems + 255) / 256

/-- The ranges of a block. -/
def BlockDesc.ranges (d : BlockDesc) : List (Nat × Nat) :=
  [(d.wc, d.elems * d.wcBytes), (d.master, 4 * d.elems), (d.m1, d.momBytes * d.elems), (d.m2, d.momBytes * d.elems), (d.scale, 8 * d.rows)]

/-- The GiB numbers that ranges touch. -/
def rangeGibs (l : List (Nat × Nat)) : List Nat :=
  l.flatMap fun r => if r.2 = 0 then [] else rangeFrom (r.1 / 2 ^ 30) ((r.1 + r.2 - 1) / 2 ^ 30 - r.1 / 2 ^ 30 + 1)

/-- The ranges lie in DRAM of one partition, or in ranges shared read-only (R314). -/
def State.rangesOwned (s : State) (l : List (Nat × Nat)) : Bool :=
  let gs := (rangeGibs l).map (· * 2 ^ 30)
  l.all (fun r => decide (r.1 + r.2 ≤ dramEnd)) &&
    ((List.range 8).any (fun p => gs.all fun a => s.dramRange p a false) ||
      gs.all fun a => (List.range 8).any fun p => s.dramRange p a true)

/-- Some GiB that ranges touch is shared read-only (R32). -/
def State.rangesShared (s : State) (l : List (Nat × Nat)) : Bool := (rangeGibs l).any fun g => s.dramShared (g * 2 ^ 30)

/-- The rules of R314 on a descriptor. -/
def BlockDesc.ok (d : BlockDesc) : Bool :=
  d.valid && decide (d.wcFmt ≤ 3) && decide (d.wcRm ≤ 5) && d.scope != 3 && decide (1 ≤ d.elems) && decide (d.elems ≤ 65536) &&
    decide (1 ≤ d.rowLen) && decide (d.rowLen ≤ 65536) && d.elems % max 1 d.rowLen == 0 && d.ranges.all fun r => r.1 % 64 == 0

/-- The base of a table of slice `c`. -/
def State.updBase (s : State) (lo hi : Fld) (c : Nat) : Nat := s.fldPair lo hi c

def State.btAddr (s : State) (c b : Nat) : Nat := s.updBase F.UPDATE_BT_BASE_LO F.UPDATE_BT_BASE_HI c + 64 * b
def State.ledgerAddr (s : State) (c b : Nat) : Nat := s.updBase F.UPDATE_LEDGER_BASE_LO F.UPDATE_LEDGER_BASE_HI c + 16 * b
def State.digAddr (s : State) (c b : Nat) : Nat := s.updBase F.UPDATE_DIG_BASE_LO F.UPDATE_DIG_BASE_HI c + 32 * b
def State.stepAddr (s : State) (c st : Nat) : Nat := s.updBase F.UPDATE_STEP_BASE_LO F.UPDATE_STEP_BASE_HI c + 64 * (st % 16)
def State.progAddr (s : State) (c i : Nat) : Nat := s.updBase F.UPDATE_PROG_BASE_LO F.UPDATE_PROG_BASE_HI c + 256 * i
def State.applyAddr (s : State) (c e : Nat) : Nat := s.updBase F.UPDATE_APPLY_BASE_LO F.UPDATE_APPLY_BASE_HI c + 64 * e

/-- Bytes that the update unit reads. -/
def State.unitRead (s : State) (a n : Nat) : List Byte := (s.readMem none a n).data

/-- The descriptor of a block of slice `c`; none where it is invalid or breaks R314. -/
def State.blockDesc (s : State) (c b : Nat) : Option BlockDesc :=
  if s.fld F.UPDATE_BLOCKS c ≤ b ∨ b % 8 ≠ c then none
  else
    let x := s.unitRead (s.btAddr c b) 64
    let d := blockDescOf x
    if blockReservedZero x && d.ok && s.rangesOwned d.ranges then some d else none

/-- Only repair writes a block: it says so, or its ranges are shared read-only (R32, R315; log entry 116). -/
def State.blockRo (s : State) (d : BlockDesc) : Bool := d.sharedRo || s.rangesShared d.ranges

/-- A ledger entry (R320). -/
structure Ledger where
  step : Nat := 0
  state : Nat := 0
  origin : Nat := 0
deriving DecidableEq, Repr

def State.ledger (s : State) (c b : Nat) : Ledger :=
  let x := s.unitRead (s.ledgerAddr c b) 16
  ⟨leAt x 0 4, leAt x 4 1, leAt x 8 4⟩

def State.setLedger (s : State) (c b : Nat) (l : Ledger) : State :=
  s.writeMem none (s.ledgerAddr c b) (toLe 4 l.step ++ toLe 4 l.state ++ toLe 4 l.origin ++ toLe 4 0)

/-- Reads of a slice that fail under R29 or R332 count on its UPDATE page. -/
def State.unitCount (s : State) (c : Nat) (write : Bool) (l : List (Nat × Nat)) : State :=
  l.foldl (fun t x => if x.2 = 0 then t else t.accessDone (6, c) 0 none (t.checkAll none write x.1 x.2)) s

/-- What a slice reads of the tables for a block at a step: descriptor, and where that is valid, ledger entry, program, step descriptor. -/
def State.tableReads (s : State) (c b st : Nat) : List (Nat × Nat) :=
  if s.fld F.UPDATE_BLOCKS c ≤ b ∨ b % 8 ≠ c then []
  else (s.btAddr c b, 64) :: match s.blockDesc c b with
    | some d => [(s.ledgerAddr c b, 16), (s.progAddr c d.prog, 256), (s.stepAddr c st, 64)]
    | none => []

/-- A slice's reads `l` and writes `w`, which may have to wait (R304, R330): the state, with the host asked where they wait, and whether they go on. -/
def State.unitAsk (s : State) (l w : List (Nat × Nat)) : State × Bool :=
  if (l.any fun r => s.accWaits false r.1 r.2) || w.any fun r => s.accWaits true r.1 r.2 then
    (w.foldl (fun t r => t.askHost true r.1 r.2) (l.foldl (fun t r => t.askHost false r.1 r.2) s), false)
  else (s, true)

/-- The 64 words of a program up to its first END, or none where it is invalid (R316, R317). -/
def State.program (s : State) (c i : Nat) : Option (List Nat) :=
  let ws := words32 (s.unitRead (s.progAddr c i) 256)
  let body := ws.takeWhile fun w => w / 2 ^ 26 != 0
  let used := fun (op : Nat) => -- A is used by every operation; B, C
    (([1, 2, 3, 7, 8, 9] : List Nat).contains op, ([1, 9, 15] : List Nat).contains op)
  let ok := fun (w : Nat) =>
    let op := bitsOf w 26 6
    let cc := bitsOf w 6 5
    decide (op ≤ 15) && w % 8 == 0 && decide (bitsOf w 3 3 ≤ 5) && decide (bitsOf w 21 5 < 16) && ((used op).1 || bitsOf w 11 5 == 0) &&
      ((used op).2 || cc == 0) && (op != 15 || (decide (cc % 16 ≤ 4) && (cc < 16 || decide (cc % 16 ≤ 1))))
  match ws[body.length]? with
  | some e => if e % 2 ^ 26 = 0 ∧ body.all ok = true then some body else none
  | none => none

/-- The step descriptor of a step where it holds that step (R319): constants, HEADROOM, SEED. -/
def State.stepDesc (s : State) (c st : Nat) : Option (List Nat × Nat × Nat) :=
  let x := s.unitRead (s.stepAddr c st) 64
  if leAt x 52 4 = st % 2 ^ 32 then some (words32 (x.take 48), leAt x 48 4, leAt x 56 8) else none

/-! ### Update programs -/

/-- A binary32 encoding of an exact value under RM `rm`. -/
def b32 (rm u : Nat) (v : Val) : Nat := (roundTo 4 0 rm false u v).bits

/-- The exact result of an operation on one element's sources (Table 11.5, but for the group reductions and CVT). -/
def updValue (op : Nat) (a b c : Val) : Val :=
  match op with
  | 1 => Val.add 0 (Val.mul a b) c
  | 2 => Val.add 0 a b
  | 3 => Val.mul a b
  | 4 => Val.div Val.one a
  | 5 => Val.sqrt a
  | 6 => Val.rsqrt a
  | 7 => Val.pick false a b
  | 8 => Val.pick true a b
  | 9 => if Val.cmp c Val.zero = some .gt then a else b
  | 10 => a.neg
  | 11 => a.abs
  | _ => a

/-- The exact sum of a list of values; of no value, +0. -/
def sumExact : List Val → Val
  | [] => Val.zero
  | v :: t => t.foldl (Val.add 0) v

/-- The value of a group reduction: BSUM, BSUMSQ, BMAX. -/
def groupValue (op : Nat) (l : List Val) : Val :=
  match op with
  | 12 => sumExact l
  | 13 => sumExact (l.map fun x => Val.mul x x)
  | _ =>
    match l with
    | [] => Val.zero
    | v :: t => t.foldl (Val.pick true) v

/-- One instruction at word `i` on the registers of a group's elements from element `lo` on. `draw e` is the SR value of element `e`
for a CVT at this word; the spec states no key for the other operations (Config.draw, log entry 28). -/
def updInstr (w lo site : Nat) (draw : Nat → Nat) (regs : List (List Nat)) : List (List Nat) :=
  let op := bitsOf w 26 6
  let d := bitsOf w 21 5
  let rm := bitsOf w 3 3
  let src := fun (r : List Nat) (p : Nat) => f32 (r.getD (bitsOf w p 5) 0)
  let open_ := fun (e : Nat) => if rm = 5 then Config.draw 1 (site * 65536 + e) % 2 ^ 24 else 0
  if 12 ≤ op ∧ op ≤ 14 then
    let v := b32 rm (open_ lo) (groupValue op (regs.map fun r => src r 16))
    regs.map fun r => r.set d v
  else
    regs.zipIdx.map fun x =>
      let e := lo + x.2
      if op = 15 then
        let cc := bitsOf w 6 5
        let n := roundTo (cc % 16) 0 rm (decide (16 ≤ cc)) (if rm = 5 then draw e else 0) (src x.1 16)
        x.1.set d (b32 0 0 (decodeVal (cc % 16) 0 n.bits))
      else x.1.set d (b32 rm (open_ e) (updValue op (src x.1 16) (src x.1 11) (src x.1 6)))

/-- A program run on a group (R316). -/
def runProgram (prog : List Nat) (lo seed origin block : Nat) (regs : List (List Nat)) : List (List Nat) :=
  prog.zipIdx.foldl (fun r w =>
    updInstr w.1 lo ((block * 2 ^ 48 + origin) * 64 + w.2) (fun e => srDraw seed origin block (e * 128 + 64 + w.2)) r) regs

/-! ### Groups -/

/-- Encodings of a table in memory. -/
def State.unitElems (s : State) (a w n : Nat) : List Nat := (chunksOf w n (s.unitRead a (n * w))).map leNat

/-- What a group of a block reads is poisoned. -/
def State.groupPoison (s : State) (d : BlockDesc) (lo n : Nat) : Bool :=
  let bad := fun (a m : Nat) => !(s.readMem none a m).poison.isEmpty
  bad (d.master + 4 * lo) (4 * n) || bad (d.m1 + d.momBytes * lo) (d.momBytes * n) || bad (d.m2 + d.momBytes * lo) (d.momBytes * n) ||
    bad (d.scale + 8 * (lo / d.rowLen)) (8 * ((lo + n - 1) / d.rowLen - lo / d.rowLen + 1))

/-- The outputs of a group (R312): its writes to home addresses, the row maxima, the elements with non-finite outputs. -/
def State.groupRun (s : State) (c : Nat) (d : BlockDesc) (o : OpenBlock) (block g : Nat) : Option GroupRun :=
  match s.program c d.prog, s.stepDesc c o.step with
  | some prog, some (ks, _, seed) =>
    let lo := 256 * g
    let n := min 256 (d.elems - lo)
    let origin := o.origin
    let gw := fmtBytes o.chunk.fmt.toNat
    let grad := ((elemsW gw o.chunk.data).drop lo).take n
    let master := s.unitElems (d.master + 4 * lo) 4 n
    let m1 := s.unitElems (d.m1 + d.momBytes * lo) d.momBytes n
    let m2 := s.unitElems (d.m2 + d.momBytes * lo) d.momBytes n
    let wide := fun (fmt x : Nat) => b32 0 0 (decodeVal fmt 0 x)
    let next := fun (e : Nat) => leNat (s.unitRead (d.scale + 8 * (e / d.rowLen) + 4) 4)
    let regs := (List.range n).map fun k =>
      [wide o.chunk.fmt.toNat (grad.getD k 0), master.getD k 0, wide d.momFmt (m1.getD k 0), wide d.momFmt (m2.getD k 0)] ++
        List.replicate 12 0 ++ ks ++ [0, 0x3F800000, b32 0 0 (Val.ofInt (lo + k : Nat)), next (lo + k)]
    let out := runProgram prog lo seed origin block regs
    let reg := fun (r : List Nat) (k : Nat) => f32 (r.getD k 0)
    let u := fun (k j : Nat) => srDraw seed origin block ((lo + k) * 128 + j)
    let mom := fun (r : List Nat) (k j : Nat) => (roundTo d.momFmt 0 (if d.mom16 then 5 else 0) false (u k j) (reg r (2 + j))).bits
    let wc := fun (r : List Nat) (k : Nat) =>
      (roundTo d.wcFmt 0 d.wcRm true (u k 2) (Val.mul (reg r 1) (Val.div Val.one (f32 (next (lo + k)))))).bits
    let fin := fun (v : Val) => match v with
      | .fin .. => true
      | _ => false
    let rowsOf := (out.zipIdx.map fun x => ((lo + x.2) / d.rowLen, (reg x.1 1).abs))
    let maxima := rowsOf.foldl (fun (t : Tab Nat) x =>
      Tab.set t x.1 (b32 0 0 (match Tab.get? t x.1 with
        | some m => Val.pick true (f32 m) x.2
        | none => x.2))) []
    some { group := g
           writes := [(d.master + 4 * lo, out.flatMap fun r => toLe 4 (b32 0 0 (reg r 1))),
                      (d.m1 + d.momBytes * lo, out.zipIdx.flatMap fun x => toLe d.momBytes (mom x.1 x.2 0)),
                      (d.m2 + d.momBytes * lo, out.zipIdx.flatMap fun x => toLe d.momBytes (mom x.1 x.2 1)),
                      (d.wc + d.wcBytes * lo, out.zipIdx.flatMap fun x => toLe d.wcBytes (wc x.1 x.2))]
           maxima := maxima
           nonfin := (out.filter fun r => !(fin (reg r 1) && fin (reg r 2) && fin (reg r 3))).length }
  | _, _ => none
where
  elemsW (w : Nat) (b : List Byte) : List Nat := (chunksOf (max 1 w) b.length b).map leNat

/-! ### Errors and repair requests -/

def updBadProg : Nat := 0x80
def updRoBlock : Nat := 0x81
def updNoBlock : Nat := 0x82
def updBadBlock : Nat := 0x83
def updRepairFull : Nat := 0x84

/-- An error of codes 0x80 to 0x84 (R315): ERR_FIRST the block, ADDR_HI the step's low 16 bits. -/
def State.updErr (s : State) (c code block step agent : Nat) : State := s.countErr 6 c code (block % 2 ^ 32 + step % 65536 * 2 ^ 32) agent

/-- A chunk rejected (R315). -/
def State.chunkReject (s : State) (c code : Nat) (k : Chunk) (agent : Nat) : State :=
  (s.updErr c code k.block.toNat k.step.toNat agent).countEv F.UPDATE_UPD_REJECT c 1 Ev.UPDATE_CHUNK_REJECT

/-- The agent code of a chunk's sender (R315). -/
def HeldChunk.agent (h : HeldChunk) : Nat := if h.task then 0x00 else agentCode h.chunk.agent

/-- A repair request put in the slice's queue (R329): one for a block already queued or under repair joins it. -/
def State.queueRepair (s : State) (c b agent : Nat) : State :=
  let x := s.slice c
  if (x.queue.any fun q => q.1 == b) || (x.repair.any fun r => r.block == b) then s
  else if 16 ≤ x.queue.length then s.updErr c updRepairFull b 0 agent
  else s.setSlice c { x with queue := x.queue ++ [(b, agent)] }

/-! ### Judgement of chunks -/

/-- An UPDATE task's block is closed or judged a duplicate (R327). -/
def State.taskBlockDone (s : State) (c b : Nat) (task : Bool) : State :=
  if task then let x := s.slice c; s.setSlice c { x with taskBlocks := x.taskBlocks.filter (· != b) } else s

/-- A duplicate (Table 11.6). -/
def State.chunkDup (s : State) (c : Nat) (h : HeldChunk) : State :=
  (s.addSat F.UPDATE_UPD_DUP c 1).taskBlockDone c h.chunk.block.toNat h.task

/-- A chunk refused for an unavailable block is acknowledged WEIGHTS_UNAVAILABLE, which its sender counts (Tables 11.6, 12.5). -/
def State.chunkUnavail (s : State) (c : Nat) (h : HeldChunk) : State :=
  if h.task then s.updErr c updNoBlock h.chunk.block.toNat h.chunk.step.toNat 0
  else if h.chunk.agent = .unit then s.countErr 7 c errUnmapped 0 0 else s

/-- A chunk opens its block at its step (Table 11.6), or joins the open one. -/
def State.openChunk (s : State) (c : Nat) (k : Chunk) (gap : Bool) : State :=
  let b := k.block.toNat
  let x := s.slice c
  let s1 := match Tab.get? x.blocks b with
    | some o => s.setSlice c { x with blocks := Tab.set x.blocks b { o with chunk := k, origin := k.origin.toNat } }
    | none => s.setSlice c { x with blocks := Tab.set x.blocks b { step := k.step.toNat, origin := k.origin.toNat, chunk := k } }
  let s2 := s1.setLedger c b ⟨k.step.toNat, 2, k.origin.toNat % 2 ^ 32⟩
  if gap then s2.countEv F.UPDATE_UPD_GAP c 1 Ev.UPDATE_UPD_GAP else s2

/-- What becomes of a chunk (R315, R321, Table 11.6): the state, and whether it stays held. -/
def State.judge (s : State) (c : Nat) (h : HeldChunk) : State × Bool :=
  let k := h.chunk
  let b := k.block.toNat
  let st := k.step.toNat
  let x := s.slice c
  if !s.flag F.UPDATE_UPD_CTL_ENABLE c then (s.chunkReject c updBadBlock k h.agent, false)
  else match s.blockDesc c b with
    | none => (s.chunkReject c updBadBlock k h.agent, false)
    | some d =>
      if s.blockRo d then (s.chunkReject c updRoBlock k h.agent, false)
      else if (s.program c d.prog).isNone then (s.chunkReject c updBadProg k h.agent, false)
      else
        let l := s.ledger c b
        let isOpen := (Tab.get? x.blocks b).isSome
        let start := fun (gap : Bool) =>
          if (!isOpen && decide (s.fld F.UPDATE_UPD_CTL_OPEN_MAX c ≤ x.blocks.length)) || (s.stepDesc c st).isNone then (s, true)
          else (s.openChunk c k gap, false)
        match l.state with
        | 0 => start false
        | 1 =>
          if !follows32 st l.step then (s.chunkDup c h, false)
          else start (st != (l.step + 1) % 2 ^ 32)
        | 2 =>
          if st = l.step then start false
          else if precedes32 st l.step then (s.chunkDup c h, false)
          else (s, true)
        | 3 => (s, true)
        | 4 => (s.chunkUnavail c h, false)
        | _ => (s.chunkReject c updBadBlock k h.agent, false)

/-- A chunk judged, once the tables that the judgement reads can be read and the ledger written: it stays held until then. -/
def State.judgeNow (s : State) (c : Nat) (h : HeldChunk) : State × Bool :=
  let l := s.tableReads c h.chunk.block.toNat h.chunk.step.toNat
  let r := s.unitAsk l [(s.ledgerAddr c h.chunk.block.toNat, 16)]
  if r.2 then (s.unitCount c false l).judge c h else (r.1, true)

/-- A chunk reaches its slice (R320, R321): it is judged, and held in the input buffer where the judgement says so. A poisoned gradient is
not applied: the slice raises POISON and the device votes LATE (log entry 29). -/
def State.chunkArrive (s : State) (c : Nat) (h : HeldChunk) : State :=
  if h.chunk.poison then s.poisoned 6 c
  else
    let r := s.judgeNow c h
    if r.2 then let x := r.1.slice c; r.1.setSlice c { x with held := x.held ++ [h] } else r.1

/-- The element formats of a chunk (Applying a chunk). -/
def chunkFmtOk (f : Nat) : Bool := f == 4 || f == 3 || f == 2

/-- CHUNK_ARRIVAL (R321). -/
def execChunkArrival (slice : Fin 8) (c : Chunk) (s : State) : Host.Outcome State Fault Refusal :=
  .next (if chunkFmtOk c.fmt.toNat then s.chunkArrive slice.val { chunk := c } else s)

/-- The held chunks judged in order; the first that is no longer held leaves the buffer (Table 11.6). -/
def State.judgeHeld (s : State) (c : Nat) : List HeldChunk → List HeldChunk → State
  | _, [] => s
  | before, h :: t =>
    let r := s.judgeNow c h
    if r.2 then r.1.judgeHeld c (before ++ [h]) t
    else let x := r.1.slice c; r.1.setSlice c { x with held := before ++ t }

/-- The input buffer of a slice is full: the chunks it holds fill its 4 MiB (R321). -/
def SliceState.full (x : SliceState) : Bool := decide (2 ^ 22 ≤ (x.held.map fun h => h.chunk.data.length).sum)

/-- Some slice's input buffer is full. -/
def State.inputFull (s : State) : Bool := (List.range 8).any fun c => (s.slice c).full

/-! ### Groups -/

/-- The state with an open block of a slice replaced. -/
def State.setBlock (s : State) (c b : Nat) (o : OpenBlock) : State :=
  let x := s.slice c
  s.setSlice c { x with blocks := Tab.set x.blocks b o }

/-- Redo entries in use on a slice. -/
def SliceState.redoUsed (x : SliceState) : Nat := (x.blocks.map fun e => (e.2.runs.filter (·.committed)).length).sum

/-- The blocks an UPDATE task still waits for once block `b` has closed (R327): not `b`, unless the task's own chunk of it is still held. -/
def SliceState.taskLeft (x : SliceState) (b : Nat) : List Nat :=
  if x.held.any fun h => h.task && h.chunk.block.toNat == b then x.taskBlocks else x.taskBlocks.filter (· != b)

/-! ### The close of a block -/

/-- The bytes of a group within a block's digest scope, in element order (R328). -/
def BlockDesc.scopeParts (d : BlockDesc) : List (Nat × Nat) :=
  [(d.wc, d.wcBytes)] ++ (if 1 ≤ d.scope then [(d.master, 4)] else []) ++
    (if d.scope = 2 then [(d.m1, d.momBytes), (d.m2, d.momBytes)] else [])

/-- The block digest over the arrays `arr` (each with its element bytes), a step and the new SCALE of each row (R328). -/
def blockDigest (elems block step : Nat) (scales : List (List Byte)) (arr : List (List Byte × Nat)) : List Byte :=
  let group := fun (g : Nat) =>
    sha256 ((rangeFrom (256 * g) (min 256 (elems - 256 * g))).flatMap fun e => arr.flatMap fun a => (a.1.drop (e * a.2)).take a.2)
  sha256 (toLe 4 block ++ toLe 4 step ++ scales.flatten ++ (List.range ((elems + 255) / 256)).flatMap group)

/-- SCALE_NEXT after an update of a row (R313): row maximum and HEADROOM as binary32, working format, the present SCALE_NEXT. Where no
power of two of binary32 meets the rule the spec states no value (log entry 30). -/
def scaleNext (rho headroom wcFmt old key : Nat) : Nat :=
  match f32 rho with
  | .fin _ n _ =>
    if n = 0 then old
    else match floatFmt wcFmt, Val.mul (f32 rho) (f32 headroom) with
      | some f, .fin neg n2 d2 =>
        match Val.div (.fin neg n2 d2) (decodeFloat f f.maxFin) with
        | .fin false n3 d3 =>
          if n3 = 0 then 1 * 2 ^ 23
          else
            let k := log2Floor n3 d3
            let k' := if Val.cmp (Val.scaled false 1 k) (.fin false n3 d3) = some .eq then k else k + 1
            if 127 < k' then (Config.draw 2 key % 254 + 1) * 2 ^ 23 else ((max k' (-126)) + 127).toNat * 2 ^ 23
        | _ => 1 * 2 ^ 23
      | _, _ => (Config.draw 2 key % 254 + 1) * 2 ^ 23
  | _ => old

/-- Every group done: the slice writes the row scales and the block digest, sets the ledger to CLOSED and counts (R313, R324, R328). -/
def State.closeBlock (s : State) (c b : Nat) (d : BlockDesc) (o : OpenBlock) : State :=
  let head := match s.stepDesc c o.step with
    | some x => x.2.1
    | none => 0
  let old := (List.range d.rows).map fun r => leNat (s.unitRead (d.scale + 8 * r + 4) 4)
  let news := old.zipIdx.map fun x =>
    scaleNext (Tab.get 0 o.rho x.2) head d.wcFmt x.1 ((b * 65536 + x.2) * 2 ^ 32 + o.step)
  let s1 := s.writeMem none d.scale ((old.zip news).flatMap fun x => toLe 4 x.1 ++ toLe 4 x.2)
  let dig := blockDigest d.elems b o.step (old.map (toLe 4)) (d.scopeParts.map fun p => (s1.unitRead p.1 (p.2 * d.elems), p.2))
  let s2 := ((s1.writeMem none (s1.digAddr c b) dig).setLedger c b ⟨o.step, 1, o.origin % 2 ^ 32⟩).addWrap F.UPDATE_UPD_CLOSED c 1
  let x := s2.slice c
  let s3 := s2.setSlice c { x with blocks := Tab.del x.blocks b, taskBlocks := x.taskLeft b }
  { s3 with audit := { s3.audit with dirty := insertNat s3.audit.dirty b } }

/-- A committed group enters the done map; its maxima enter ρ, its redo entry is free. -/
def OpenBlock.finish (o : OpenBlock) (r : GroupRun) : OpenBlock :=
  { o with
    done := insertNat o.done r.group
    rho := r.maxima.foldl (fun t m => Tab.set t m.1 (b32 0 0 (Val.pick true (f32 (Tab.get 0 t m.1)) (f32 m.2)))) o.rho
    runs := o.runs.filter fun q => q.group != r.group }

/-- What the close of a block reads and writes. -/
def State.closeReads (s : State) (c : Nat) (d : BlockDesc) (o : OpenBlock) : List (Nat × Nat) :=
  (s.stepAddr c o.step, 64) :: (d.scale, 8 * d.rows) :: d.scopeParts.map fun p => (p.1, p.2 * d.elems)
def State.closeWrites (s : State) (c b : Nat) (d : BlockDesc) : List (Nat × Nat) :=
  [(d.scale, 8 * d.rows), (s.digAddr c b, 32), (s.ledgerAddr c b, 16)]

/-! ### UPDATE tasks (R327) -/

/-- The gradients that an apply descriptor names: blocks with the address and bytes of each (R327). -/
def State.updGrads (s : State) (c : Nat) (x : List Byte) : List (Nat × (Nat × Nat)) :=
  ((List.range (leAt x 4 4)).foldl (fun (p : List (Nat × (Nat × Nat)) × Nat) k =>
    let b := (leAt x 0 4 + 8 * k) % 2 ^ 32
    let n := leAt (s.unitRead (s.btAddr c b) 64) 40 4 * fmtBytes (leAt x 22 1)
    (p.1 ++ [(b, (p.2, n))], p.2 + n)) ([], leAt x 16 6)).1

/-- What an UPDATE task reads at its start. -/
def State.updInputs (s : State) (c entry : Nat) : List (Nat × Nat) :=
  let x := s.unitRead (s.applyAddr c entry) 64
  let g := s.updGrads c x
  (s.applyAddr c entry, 64) :: g.map (fun e => (s.btAddr c e.1, 64)) ++ (g.map (·.2)).filter fun r => decide (0 < r.2)

/-- An UPDATE task starts on slice `c`: each block of its apply descriptor is judged and applied as a chunk. A descriptor with a
non-zero reserved byte, or a format that no chunk has, is counted as BAD_BLOCK and runs nothing, so that its task overruns (log entry 31). -/
def State.updTask (s : State) (c task entry : Nat) : State :=
  let x := s.unitRead (s.applyAddr c entry) 64
  let first := leAt x 0 4
  let fmt := leAt x 22 1
  let ok := leAt x 12 4 == 0 && leAt x 23 41 == 0 && chunkFmtOk fmt
  let m := s.slice c
  if !ok then
    ((s.setSlice c { m with task := some task, taskBlocks := [first] }).updErr c updBadBlock first (leAt x 8 4) 0).countEv
      F.UPDATE_UPD_REJECT c 1 Ev.UPDATE_CHUNK_REJECT
  else
    let g := s.updGrads c x
    (g.foldl (fun t e =>
      let r := t.readMem none e.2.1 e.2.2
      t.chunkArrive c { chunk := { block := BitVec.ofNat 32 e.1, step := BitVec.ofNat 32 (leAt x 8 4), origin := BitVec.ofNat 48 s.pick.work
                                   fmt := BitVec.ofNat 4 fmt, data := r.data, poison := !r.poison.isEmpty, agent := .block }
                        task := true }) ((s.unitCount c false (s.updInputs c entry)).setSlice c { m with task := some task, taskBlocks := g.map (·.1) }))

end Sys2Proof.Machine
end

