-- ==== Sys2Proof/Machine/Coll.lean ====
section
/-! DEFINITION. The collective engine (chapter 13): the fixed transfers of a chunk (R372, R373, R382), tasks and their data (R369, R380,
R383), chunks as they start, move and complete (R376 to R381), racking (R384, R385). -/
namespace Sys2Proof.Machine
open Sys2Proof

/-! ### The transfers of a chunk -/

/-- Piece `i` of `n` of a range (R372). -/
def splitRange (r : Nat × Nat) (n i : Nat) : Nat × Nat :=
  (r.1 + i * (r.2 - r.1) / max 1 n, r.1 + (i + 1) * (r.2 - r.1) / max 1 n)

/-- ⌈log2 n⌉ for the sizes an axis can have. -/
def clog2 (n : Nat) : Nat := ((List.range 17).find? fun k => decide (n ≤ 2 ^ k)).getD 17

/-- The transfers of one tree level over the pieces `roots` (each with its range): at distance 2^(l-1), level `l` of axis `ax`. In a
reduction the far end sends; in a gather it receives. What a member sends at a level it holds before it receives there, so it sends first. -/
def State.levelXfers (s : State) (q ax l : Nat) (c : Nat) (gather : Bool) (roots : List (Nat × (Nat × Nat))) : List Xfer :=
  let n := max 1 (s.axisN ax)
  let d := 2 ^ (l - 1)
  let rel := fun (root : Nat) => (c + n - root % n) % n
  let far := (roots.filter fun r => rel r.1 % 2 ^ l == d).map (·.2)
  let near := (roots.filter fun r => rel r.1 % 2 ^ l == 0 && decide (rel r.1 + d < n)).map (·.2)
  let keep := fun (rs : List (Nat × Nat)) => rs.filter fun r => decide (r.1 < r.2)
  let one : Bool → Nat → List (Nat × Nat) → List Xfer := fun send off rs =>
    if (keep rs).isEmpty then []
    else [{ q := q, send := send, reduce := !gather, peer := s.peerAt ax off, ranges := keep rs }]
  let up := one (!gather) ((n - d % n) % n) far
  let down := one gather (d % n) near
  if gather then down ++ up else up ++ down

/-- The coordinate of this device on an axis. -/
def State.coord (s : State) (ax : Nat) : Nat := (coordsOf s.ownDev).getD ax 0

/-- The range that each axis of a reduction works on, in the order of the axes, and what remains: the owned piece (R370, R372). -/
def State.axisRanges (s : State) (axes : List Nat) (r : Nat × Nat) : List (Nat × (Nat × Nat)) × (Nat × Nat) :=
  axes.foldl (fun p ax => (p.1 ++ [(ax, p.2)], splitRange p.2 (max 1 (s.axisN ax)) (s.coord ax))) ([], r)

/-- The pieces of a range, by root. -/
def State.pieceRoots (s : State) (ax : Nat) (r : Nat × Nat) : List (Nat × (Nat × Nat)) :=
  let n := max 1 (s.axisN ax)
  (List.range n).map fun k => (k, splitRange r n k)

/-- Transfers level by level, the numbers counting levels from `q` on; answers the next number too. -/
def levelsFrom (q : Nat) (lv : List (Nat → List Xfer)) : List Xfer :=
  (lv.zipIdx.map fun x => x.1 (q + x.2)).flatten

/-- The fixed sequence of transfers of chunk `i` of a script on this member (R372, R382). -/
def State.chunkXfers (s : State) (x : Script) (i : Nat) : List Xfer :=
  let len := x.chunkLen i
  let ar := (s.axisRanges x.axisList (0, len)).1
  let levels := fun (ax : Nat) => clog2 (max 1 (s.axisN ax))
  let up : List (Nat → List Xfer) := ar.flatMap fun a =>
    (rangeFrom 1 (levels a.1)).map fun l q => s.levelXfers q a.1 l (s.coord a.1) false (s.pieceRoots a.1 a.2)
  let down : List (Nat → List Xfer) := ar.reverse.flatMap fun a =>
    (rangeFrom 1 (levels a.1)).reverse.map fun l q => s.levelXfers q a.1 l (s.coord a.1) true (s.pieceRoots a.1 a.2)
  match x.kind with
  | 1 => levelsFrom 0 up
  | 2 => levelsFrom 0 down
  | 3 =>
    let rootAt := fun (ax : Nat) => (coordsOf x.root).getD ax 0
    levelsFrom 0 (ar.reverse.flatMap fun a =>
      -- a gather on this axis reaches the members that agree with the root on the axes gathered later
      let on := (x.axisList.filter fun b => decide (b < a.1)).all fun b => s.coord b == rootAt b
      (rangeFrom 1 (levels a.1)).reverse.map fun l q =>
        if on then s.levelXfers q a.1 l (s.coord a.1) true [(rootAt a.1, (0, len))] else [])
  | 4 =>
    match x.axisList with
    | [ax] =>
      let n := max 1 (s.axisN ax)
      let c := s.coord ax
      (List.range x.waveCount).flatMap fun q =>
        let o := (x.waveFirst + q) % n
        if o = 0 then []
        else
          -- what a member is sent is its own block, whose place it keeps within the block of the sender (log entry 82)
          let out := splitRange (0, len) n ((c + o) % n)
          let own := splitRange (0, len) n c
          let at_ := splitRange (0, len) n ((c + n - o) % n)
          (if out.1 < out.2 then [{ q := q, send := true, exch := true, peer := s.peerAt ax o, ranges := [out] }] else []) ++
            (if own.1 < own.2 then
              [{ q := q, exch := true, peer := s.peerAt ax (n - o), ranges := [(at_.1, min at_.2 (at_.1 + (own.2 - own.1)))] }] else [])
    | _ => []
  | 6 => []
  | _ => levelsFrom 0 (up ++ down)

/-- The members of a script's group. -/
def State.groupSize (s : State) (x : Script) : Nat := (x.axisList.map fun ax => max 1 (s.axisN ax)).foldl (· * ·) 1

/-! ### Places in memory -/

/-- The landing slot of a transfer on a slice of a device, this work pick's copy (R377, R89). -/
def State.slotAddr (s : State) (c : Nat) (x : Script) (i q : Nat) : Nat :=
  s.fldPair F.COLL_LAND_BASE_LO F.COLL_LAND_BASE_HI c + (s.pick.work % 2) * 2 ^ 24 +
    (if x.width ≤ 4 then ((i % 32) * 32 + q) * 2 ^ 14 else ((i % 16) * 32 + q) * 2 ^ 15)

/-- Elements read by a slice for a script's partition: encodings, and the places of the poisoned ones. -/
def State.collElems (s : State) (part a w n : Nat) : List Nat × List Nat :=
  let r := s.readMem (some part) a (n * w)
  ((chunksOf w n r.data).map leNat,
    (List.range n).filter fun k => (pieces (a + k * w) w).any fun p =>
      s.check (some part) false (a + k * w + p.1) == 3 ||
        (s.check (some part) false (a + k * w + p.1) == 0 && s.blockPoison (a + k * w + p.1)))

/-- A slice's read for a partition, counted where it fails (R29, R33). -/
def State.collCount (s : State) (c part a n : Nat) (write : Bool) : State :=
  if n = 0 then s
  else (s.touch (some part) write a n).accessDone (7, c) 0 (some part) (s.checkAll (some part) write a n true)

/-- The 64-byte blocks of `n` elements of `w` bytes that hold a poisoned element. -/
def elemBlocks (w : Nat) (pz : List Nat) : List Nat := (pz.flatMap fun e => dataBlocks (e * w) w).foldl insertNat []

/-- A slice's write for a partition (R381). -/
def State.collWrite (s : State) (c part a w : Nat) (els : List Nat) (pz : List Nat) : State :=
  let bytes := els.flatMap (toLe w)
  (s.collCount c part a bytes.length true).writeMem (some part) a bytes (elemBlocks w pz) true

/-! ### Bundles (R383) -/

/-- A member of a bundle: its addresses and its place in the packed data, in elements. -/
structure Member where
  src : Nat
  dst : Nat
  elems : Nat
  at_ : Nat
deriving DecidableEq, Repr

/-- The members of a bundle and the packed length: each member starts at the next multiple of 64 bytes. -/
def State.bundle (s : State) (x : Script) : List Member × Nat :=
  let w := max 1 x.width
  let step := 64 / w
  (List.range x.listCount).foldl (fun p k =>
    let b := (s.readMem (some x.part) (x.listAddr + 16 * k) 16).data
    let n := leAt b 12 4
    let a := (p.2 + step - 1) / step * step
    (p.1 ++ [⟨leAt b 0 6, leAt b 6 6, n, a⟩], a + n)) ([], 0)

/-- A bundle's list and its ELEMS agree. -/
def State.bundleOk (s : State) (x : Script) : Bool :=
  let m := s.bundle x
  x.listAddr % 16 == 0 && m.1.all (fun k => decide (1 ≤ k.elems) && decide (k.elems ≤ 2 ^ 20)) && m.2 == x.elems

/-- The packed elements `lo` to `lo + n` of a bundle; padding is +0. -/
def State.bundleElems (s : State) (x : Script) (ms : List Member) (lo n : Nat) : List Nat × List Nat :=
  let one := fun (e : Nat) => match ms.find? fun k => decide (k.at_ ≤ e) && decide (e < k.at_ + k.elems) with
    | some k => let r := s.collElems x.part (k.src + (e - k.at_) * x.width) x.width 1; (r.1.headD 0, !r.2.isEmpty)
    | none => (0, false)
  let l := (rangeFrom lo n).map one
  (l.map (·.1), (List.range n).filter fun k => (l.getD k (0, false)).2)

/-! ### Tasks -/

/-- The source data of a MEMORY script, read when its task starts (R380), of a BARRIER (R382) and of a bundle (R383). -/
def State.collSource (s : State) (x : Script) (c : Nat) : Tab (List Nat × List Nat) :=
  let ms := if x.kind = 7 then (s.bundle x).1 else []
  (x.chunksOn c).map fun i => (i,
    if x.kind = 5 then ([1], [])
    else if x.kind = 7 then s.bundleElems x ms (4096 * i) (x.chunkLen i)
    else s.collElems x.part (x.src + i * 4096 * x.width) x.width (x.chunkLen i))

/-- A script takes its data from memory: MEMORY, a bundle, a barrier. -/
def Script.fromMemory (x : Script) : Bool := x.source == 2 || x.kind == 5 || x.kind == 7

/-- The script as its task may run it: rejected where R371 or R383 says so. -/
def State.taskScript (s : State) (c idx : Nat) : Option Script :=
  match s.scriptRead c idx with
  | some x => if x.kind = 7 ∧ s.bundleOk x = false then none else some x
  | none => none

/-- The ranges that a script's task reads at its start: the script, its data (R368, R380, R383). -/
def State.collInputs (s : State) (c idx : Nat) : List (Nat × Nat) :=
  (s.scriptAddr c idx, 64) :: match s.taskScript c idx with
  | some x =>
    if x.kind = 7 then (x.listAddr, 16 * x.listCount) :: (s.bundle x).1.map fun m => (m.src, m.elems * x.width)
    else if x.source = 2 ∧ x.kind ≠ 5 ∧ x.kind ≠ 6 then (x.chunksOn c).map fun i => (x.src + i * 4096 * x.width, x.chunkLen i * x.width)
    else []
  | none => []

/-- A slice that runs a script counts what reads its source, and holds the source. -/
def State.scriptBegin (s : State) (c task arg : Nat) (x : Script) : State :=
  let s1 := if x.source = 2 ∧ x.kind < 5 then
      (x.chunksOn c).foldl (fun t i => t.collCount c x.part (x.src + i * 4096 * x.width) (x.chunkLen i * x.width) false) s
    else s
  s1.setColl c { s.coll c with
    task := some task, script := some x, rackStep := arg % 2 ^ 32, begun := false, chunks := [], delivered := [], rackDone := false
    src := if x.fromMemory ∧ x.kind ≠ 6 then s.collSource x c else [] }

/-- A script that has been read; none is a bad one, which runs nothing and ends its task (R371). -/
def State.scriptTake (s : State) (c task idx arg : Nat) (script : Option Script) : State :=
  match script with
  | none => (s.setColl c { s.coll c with task := some task, script := none, begun := false, chunks := [], src := [] }).collErr c errBadScript idx 0
  | some x => s.scriptBegin c task arg x

/-- A COLL task starts (R369, R371): its script is read; a slice that is disabled accepts none. -/
def State.collTask (s : State) (c task idx arg : Nat) : State :=
  if !s.flag F.COLL_COLL_CTL_ENABLE c then s
  else (s.accessDone (7, c) 0 none (s.checkAll none false (s.scriptAddr c idx) 64)).scriptTake c task idx arg (s.taskScript c idx)

/-- The block that a chunk belongs to (R381). -/
def Script.blockOf (x : Script) (i : Nat) : Nat := x.firstBlock + i / max 1 x.blockChunks

/-- The completion rule of a COLL task (R369). -/
def State.collDone (s : State) (c task : Nat) : Bool :=
  let m := s.coll c
  m.task == some task &&
    (match m.script with
     | none => true
     | some x =>
       m.begun &&
       (if x.kind = 6 then m.rackDone
        else (x.chunksOn c).all fun i =>
          (match Tab.get? m.chunks i with
           | some k => k.complete
           | none => false) && (x.deliver != 1 || m.delivered.contains (x.blockOf i))) &&
       !(s.hasOps fun o => match o with
         | .coll k _ _ => k == c
         | .tile k _ => k == c
         | _ => false))

/-! ### Deliveries (R381) -/

/-- A sublist by range. -/
def sliceOf {α : Type} (l : List α) (r : Nat × Nat) : List α := (l.drop r.1).take (r.2 - r.1)

/-- The poisoned places of a range, counted from its start. -/
def poisonIn (pz : List Nat) (r : Nat × Nat) : List Nat := (pz.filter fun e => decide (r.1 ≤ e) && decide (e < r.2)).map (· - r.1)

/-- A chunk written to memory. -/
def State.deliverMemory (s : State) (c : Nat) (x : Script) (i : Nat) (k : CChunk) : State :=
  let base := x.dst + i * 4096 * x.width
  let put := fun (t : State) (a : Nat) (r : Nat × Nat) => t.collWrite c x.part a x.width (sliceOf k.data r) (poisonIn k.poison r)
  match x.kind with
  | 1 => let r := (s.axisRanges x.axisList (0, x.chunkLen i)).2; put s (base + r.1 * x.width) r
  | 4 => k.blocks.foldl (fun t b => t.collWrite c x.part (base + b.1 * x.width) x.width b.2.1 b.2.2) s
  | 5 => s
  | 8 => s
  | 7 =>
    let lo := 4096 * i
    let hi := lo + x.chunkLen i
    (s.bundle x).1.foldl (fun t m =>
      let a := max lo m.at_
      let b := min hi (m.at_ + m.elems)
      if a < b then put t (m.dst + (a - m.at_) * x.width) (a - lo, b - lo) else t) s
  | _ => put s base (0, x.chunkLen i)

/-- A block whose chunks are all complete is handed to the update slice of its die as one chunk. -/
def State.deliverBlock (s : State) (c : Nat) (x : Script) (i : Nat) : State :=
  let m := s.coll c
  let b := x.blockOf i
  let first := i / max 1 x.blockChunks * max 1 x.blockChunks
  let parts := (rangeFrom first (min (max 1 x.blockChunks) (x.chunkCount - first))).map fun j => Tab.get? m.chunks j
  if parts.all fun k => k.any (·.complete) then
    if parts.any fun k => k.any fun y => !y.poison.isEmpty then s.poisoned 7 c
    else
      let all := parts.flatMap fun k => match k with
        | some y => y.data
        | none => []
      let els := match s.blockDesc c b with
        | some d => all.take d.elems
        | none => all
      let s1 := (s.setColl c { m with delivered := m.delivered ++ [b] }).addWrap F.COLL_BLOCK_CNT c 1
      s1.chunkArrive c { chunk := { block := BitVec.ofNat 32 b, step := BitVec.ofNat 32 x.step, origin := BitVec.ofNat 48 s.pick.work
                                    fmt := BitVec.ofNat 4 x.fmt, data := bytesOf x.fmt els, agent := .unit } }
  else s

/-! ### Chunks in motion -/

/-- The state with a chunk of a slice replaced. -/
def State.setChunk (s : State) (c i : Nat) (k : CChunk) : State :=
  let m := s.coll c
  s.setColl c { m with chunks := Tab.set m.chunks i k }

/-- The heddle for a peer (R373): its permanent heddle, or the shared one that the entry declares for it; none where it is not
threaded. -/
def State.collHeddle (s : State) (peer : Nat) : Option Nat :=
  match s.permPeer peer with
  | some h => if s.threadedTo h peer then some h else none
  | none => (s.pick.entry.heds.find? fun r => sharedId r.hid && s.threadedTo r.hid peer).map (·.hid)

/-- A transfer sent: one PUT, or two where it exceeds 16,384 bytes (R377). -/
def State.sendXfer (s : State) (c : Nat) (x : Script) (i : Nat) (k : CChunk) (t : Xfer) (h : Nat) : State :=
  let bytes := t.ranges.flatMap fun r => (sliceOf k.data r).flatMap (toLe x.width)
  let pz := elemBlocks x.width (t.ranges.foldl (fun (p : List Nat × Nat) r => (p.1 ++ (poisonIn k.poison r).map (· + p.2), p.2 + (r.2 - r.1))) ([], 0)).1
  let a := s.slotAddr c x i t.q
  let one := fun (u : State) (o n : Nat) =>
    (u.issueOp (.coll c i t.q) { op := 0, heddle := h, destDev := t.peer, destAddr := a + o, length := n, tagged := false } (some x.part)
      ((bytes.drop o).take n) ((pz.filter fun b => decide (o ≤ 64 * b) && decide (64 * b < o + n)).map (· - o / 64))).1
  let s1 := one s 0 (min 16384 bytes.length)
  if 16384 < bytes.length then one s1 16384 (bytes.length - 16384) else s1

/-- A landed transfer taken (R374, R376, R382): reduced into the member's part, or moved unchanged. -/
def State.takeXfer (s : State) (c : Nat) (x : Script) (i : Nat) (k : CChunk) (t : Xfer) : CChunk :=
  let a := s.slotAddr c x i t.q
  let n := (t.ranges.map fun r => r.2 - r.1).sum
  let r := s.readMem none a (n * x.width)
  let els := (chunksOf x.width n r.data).map leNat
  let bad := (List.range n).filter fun e => (dataBlocks (e * x.width) x.width).any r.poison.contains
  if t.exch then
    match t.ranges with
    | [g] => { k with blocks := Tab.set k.blocks g.1 (els, bad) }
    | _ => k
  else
    let places := t.ranges.flatMap fun g => rangeFrom g.1 (g.2 - g.1)
    let ccb := if x.kind = 5 then 11 else x.ccb
    let data := (places.zip els).foldl (fun l p => l.set p.1 (if t.reduce then combine ccb (if x.kind = 5 then 0 else x.aop) x.frac (l.getD p.1 0) p.2 else p.2)) k.data
    let hit := bad.map fun e => places.getD e 0
    let kept := if t.reduce then k.poison else k.poison.filter fun e => !places.contains e
    { k with data := data, poison := hit.foldl insertNat kept }

/-- Where a chunk's result is written (R381): its range of the destination, or a bundle's members. -/
def State.deliverTo (s : State) (x : Script) (i : Nat) : List (Nat × Nat) :=
  if x.deliver = 1 ∨ x.kind = 5 ∨ x.kind = 8 then []
  else if x.kind = 7 then (s.bundle x).1.map fun m => (m.dst, m.elems * x.width)
  else [(x.dst + i * 4096 * x.width, x.chunkLen i * x.width)]

/-- A chunk completes (R376, R378, R381, R382), once its result can be written (R303, R304). -/
def State.chunkDone (s : State) (c : Nat) (x : Script) (i : Nat) (k : CChunk) : State :=
  if x.kind = 5 ∧ k.data ≠ [s.groupSize x] then s
  else s.whenWritable (s.deliverTo x i) fun s =>
    let k1 : CChunk := { k with complete := true, data := if x.deliver = 1 ∨ x.kind = 8 then k.data else [], blocks := [] }
    let s1 := (s.setChunk c i k1).addWrap F.COLL_CHUNK_CNT c 1
    if x.deliver = 1 then s1.deliverBlock c x i else s1.deliverMemory c x i k

/-- What the adds of a transfer come to (R376), each with the number of its attempts whose residues mismatch: an add is recomputed, and counted,
up to `retry` times; one that still mismatches ends them. Answers the recomputations and whether an add failed. -/
def residueRetries (retry : Nat) : List Nat → Nat × Bool
  | [] => (0, false)
  | k :: t =>
    if retry < k then (retry, true)
    else let r := residueRetries retry t; (k + r.1, r.2)

/-- A chunk taken as far as its transfers go: sends leave, landed transfers are taken in order, the last one completes it. -/
def State.runChunk : Nat → State → Nat → Script → Nat → State
  | 0, s, _, _, _ => s
  | fuel + 1, s, c, x, i =>
    match Tab.get? (s.coll c).chunks i with
    | none => s
    | some k =>
      if k.complete || k.dead || k.accum then s
      else match k.xfers with
        | [] => s.chunkDone c x i k
        | t :: rest =>
          if t.send then
            match s.collHeddle t.peer with
            | none => (s.setChunk c i { k with dead := true }).collErr c errNoHeddle x.idx i
            | some h => State.runChunk fuel ((s.sendXfer c x i k t h).setChunk c i { k with xfers := rest }) c x i
          else
            let m := s.coll c
            match m.landed.find? fun l => l.1 == i && l.2.1 == t.q with
            | none => s
            | some l =>
              let s1 := s.setColl c { m with landed := m.landed.filter fun y => y != l }
              let r := residueRetries (s.fld F.COLL_COLL_CTL_RES_RETRY c) (if t.reduce then l.2.2 else [])
              let s2 := s1.countEv F.COLL_RES_MISMATCH c r.1 Ev.COLL_RES_MISMATCH
              if r.2 then
                ((s2.setChunk c i { k with dead := true }).countEv F.COLL_RES_FAIL c 1 Ev.COLL_RES_FAIL).fault
              else State.runChunk fuel (s2.setChunk c i { s2.takeXfer c x i k t with xfers := rest }) c x i

/-- The local copy of offset 0 of an exchange (R382). -/
def State.exchLocal (s : State) (x : Script) (i : Nat) (data : List Nat) (pz : List Nat) : Tab (List Nat × List Nat) :=
  match x.kind, x.axisList with
  | 4, [ax] =>
    let n := max 1 (s.axisN ax)
    if (List.range x.waveCount).any fun q => (x.waveFirst + q) % n == 0 then
      let r := splitRange (0, x.chunkLen i) n (s.coord ax)
      if r.1 < r.2 then [(r.1, (sliceOf data r, poisonIn pz r))] else []
    else []
  | _, _ => []

/-- A chunk with its data, at the start of its transfers. -/
def State.freshChunk (s : State) (x : Script) (i : Nat) (data pz : List Nat) : CChunk :=
  { data := data, poison := pz, xfers := s.chunkXfers x i, blocks := s.exchLocal x i data pz }

/-- The chunks of a comparison (R396): 0 MIN and 1 MAX over the root's four words, 2 MAX over the flag on all axes. -/
def State.compareScript (s : State) (i : Nat) : Script :=
  { kind := 8, axes := if i < 2 then s.fld F.AUDIT_AUD_CTL_REPL_AXES 0 else 15, ccb := 11, aop := if i = 0 then 1 else 2, slice := 8
    elems := 4096 * i + (if i < 2 then 4 else 1) }

/-- The script that a slice's chunk belongs to. -/
def State.scriptFor (s : State) (c i : Nat) : Option Script :=
  if (s.coll c).compare then some (s.compareScript i) else (s.coll c).script

/-- A chunk run on, with as much fuel as its transfers need. -/
def State.pushChunk (s : State) (c i : Nat) : State :=
  match s.scriptFor c i with
  | some x => State.runChunk (((Tab.get? (s.coll c).chunks i).elim 0 fun k => k.xfers.length) + 1) s c x i
  | none => s

/-- A comparison taken further: the flag's chunk starts once MIN and MAX are there (R396, steps 4 and 5), and its result is the flag. -/
def State.compareStep (s : State) : State :=
  let m := s.coll 8
  let s1 := match Tab.get? m.chunks 0, Tab.get? m.chunks 1, Tab.get? m.chunks 2 with
    | some a, some b, none =>
      if a.complete && b.complete then
        (s.setChunk 8 2 (s.freshChunk (s.compareScript 2) 2 [bit (s.audit.openBlock || a.data != b.data)] [])).pushChunk 8 2
      else s
    | _, _, _ => s
  match Tab.get? (s1.coll 8).chunks 2 with
  | some k => if k.complete then { s1 with audit := { s1.audit with flag := some (k.data == [1]) } } else s1
  | none => s1

/-- A chunk of a slice run on. -/
def State.moveChunk (s : State) (c i : Nat) : State :=
  if (s.coll c).compare then (s.pushChunk c i).compareStep else s.pushChunk c i

/-- The comparison of a compare pick begins on slice 8 with the root's words. -/
def State.compareBegin (s : State) : State :=
  let ws := (List.range 4).map fun k => s.audit.root / 2 ^ (64 * k) % 2 ^ 64
  let s1 := s.setColl 8 { s.coll 8 with compare := true }
  let s2 := (s1.setChunk 8 0 (s1.freshChunk (s1.compareScript 0) 0 ws [])).setChunk 8 1 (s1.freshChunk (s1.compareScript 1) 1 ws [])
  (s2.moveChunk 8 0).moveChunk 8 1

/-- The tagged ACC of a tile to the accumulation range (R380), in operations of at most 16,384 bytes. -/
def State.accumTile (s : State) (c : Nat) (x : Script) (i : Nat) (k : Tile) : State :=
  let n := x.chunkLen i * x.width
  let a := x.src + i * 4096 * x.width
  let tg := k.tag.getD ⟨0, 0, 0, 0⟩
  let pz := elemBlocks x.width k.poison
  (List.range ((n + 16383) / 16384)).foldl (fun u j =>
    (u.issueOp (.tile c i)
      { op := 2, tagged := true, ccb := x.ccb, aop := x.aop, frac := x.frac, destDev := s.ownDev, destAddr := a + 16384 * j
        length := min 16384 (n - 16384 * j), tagPick := tg.work.toNat, tagCore := tg.core.toNat, tagArray := tg.array.toNat
        tagTile := tg.tile.toNat }
      (some x.part) ((k.data.drop (16384 * j)).take (min 16384 (n - 16384 * j)))
      ((pz.filter fun b => b / 256 == j).map (· % 256))).1) s

/-- A chunk starts, where its data is there and its slots are free (R378, R380). -/
def State.chunkBegin (s : State) (c i : Nat) : State :=
  let m := s.coll c
  match m.script with
  | none => s
  | some x =>
    if !m.begun || x.kind == 6 || decide (x.chunkCount ≤ i) || x.sliceOf i != c || (Tab.get? m.chunks i).isSome || m.mustWait x c i then s
    else if x.fromMemory then
      let d := Tab.get ([], []) m.src i
      ((s.setColl c { m with src := Tab.del m.src i }).setChunk c i (s.freshChunk x i d.1 d.2)).moveChunk c i
    else match m.tiles.find? fun k => k.script == x.idx && (x.tileChunk k.seq).1 == i with
      | none => s
      | some k =>
        let s1 := s.setColl c { m with tiles := m.tiles.filter fun y => y != k }
        if x.source = 1 then (s1.setChunk c i { accum := true }).accumTile c x i k
        else
          let n := x.chunkLen i
          (s1.setChunk c i (s.freshChunk x i ((elemsOf x.fmt k.data).take n) (k.poison.filter fun e => decide (e < n)))).moveChunk c i

/-- The ACC of a tile is acknowledged (R380): the slice reads the chunk back and reduces the sum. -/
def State.tileAcked (s : State) (c i : Nat) : State :=
  let m := s.coll c
  match m.script, Tab.get? m.chunks i with
  | some x, some k =>
    if k.accum && !(s.hasOps fun o => o == .tile c i) then
      let a := x.src + i * 4096 * x.width
      s.whenReadable [(a, x.chunkLen i * x.width)] fun s =>
        let d := s.collElems x.part a x.width (x.chunkLen i)
        ((s.collCount c x.part a (x.chunkLen i * x.width) false).setChunk c i (s.freshChunk x i d.1 d.2)).moveChunk c i
    else s
  | _, _ => s

/-- A chunk started; one that has started and waits for memory goes on. -/
def State.chunkStart (s : State) (c i : Nat) : State :=
  match Tab.get? (s.coll c).chunks i with
  | some k => if k.complete || k.dead then s else if k.accum then s.tileAcked c i else s.moveChunk c i
  | none => s.chunkBegin c i

/-! ### Racking (R384, R385) -/

/-- The words of a racking step that slice 8 needs: moves, EXPECT, updates, and the map. -/
structure RackStep where
  movePtr : Nat
  moves : Nat
  expect : Nat
  updPtr : Nat
  upds : Nat
  map : Nat
  shards : Nat
  stage : Nat
  stageBytes : Nat
deriving DecidableEq, Repr

/-- Step `k` of a plan. -/
def State.rackPlan (s : State) (x : Script) (k : Nat) : RackStep :=
  let rd := fun (a n : Nat) => (s.readMem (some x.part) a n).data
  let h := rd x.listAddr 64
  let b := rd (leAt h 8 6 + 32 * k) 32
  { movePtr := leAt b 0 6, moves := leAt b 8 4, expect := leAt b 12 4, updPtr := leAt b 16 6, upds := leAt b 24 4
    map := leAt h 16 6, shards := leAt h 24 4, stage := leAt h 32 6, stageBytes := leAt h 40 8 }

/-- A move record. -/
structure Move where
  src : Nat
  dev : Nat
  dst : Nat
  len : Nat
  rel : Bool
  stage : Bool
  heddle : Nat
deriving DecidableEq, Repr

def moveOf (b : List Byte) : Move :=
  { src := leAt b 0 6, dev := leAt b 6 2, dst := leAt b 8 6, len := leAt b 16 4, rel := bitOf (leAt b 20 1) 0, stage := bitOf (leAt b 20 1) 1
    heddle := leAt b 22 2 }

/-- The moves of a step. -/
def State.rackMoves (s : State) (x : Script) (p : RackStep) : List Move :=
  (List.range p.moves).map fun k => moveOf (s.readMem (some x.part) (p.movePtr + 32 * k) 32).data

/-- RACK operations that count as strays (R385). -/
def State.rackStray (s : State) (n : Nat) : State := s.countEv F.COLL_RACK_STRAY 8 n Ev.COLL_RACK_STRAY

/-- One move issued as RACK operations of at most 16,384 bytes; false where its heddle cannot carry it (R373). -/
def State.issueMove (s : State) (x : Script) (k : Nat) (v : Move) : State × Bool :=
  (List.range ((v.len + 16383) / 16384)).foldl (fun (p : State × Bool) j =>
    let n := min 16384 (v.len - 16384 * j)
    let d : OpDesc := { op := 6, rel := v.rel, heddle := v.heddle, destDev := v.dev, destAddr := v.dst + 16384 * j, length := n, rackStep := k }
    if !p.2 || p.1.opBad d then (p.1, false)
    else
      let a := v.src + 16384 * j
      let r := p.1.readMem (some x.part) a n
      (((p.1.collCount 8 x.part a n false).issueOp (.coll 8 j 0) d (some x.part) r.data r.poison).1, true)) (s, true)

/-- The new record of a shard (Table 13.5): device and address from its update, its length kept. -/
def State.rackRecord (s : State) (x : Script) (p : RackStep) (shard : Nat) : List Byte :=
  let old := (s.readMem (some x.part) (p.map + 16 * p.shards * ((s.pick.work + 1) % 2) + 16 * shard) 16).data
  let up := (List.range p.upds).map fun k => (s.readMem (some x.part) (p.updPtr + 16 * k) 16).data
  match up.reverse.find? fun u => leAt u 0 4 == shard with
  | some u => ((u.drop 4).take 8) ++ old.drop 8
  | none => old

/-- The racking step completes once its own operations are acknowledged and EXPECT operations have landed: the rack map is written. -/
def State.rackTry (s : State) : State :=
  let m := s.coll 8
  match m.script with
  | some x =>
    let p := s.rackPlan x m.rackStep
    if x.kind == 6 && m.begun && !m.rackDone && Tab.get 0 m.rackCounts m.rackStep == p.expect &&
        !(s.hasOps fun o => match o with
          | .coll 8 _ _ => true
          | _ => false) then
      let a := p.map + 16 * p.shards * (s.pick.work % 2)
      s.whenReadable [(p.map + 16 * p.shards * ((s.pick.work + 1) % 2), 16 * p.shards), (p.updPtr, 16 * p.upds)] fun s =>
      s.whenWritable [(a, 16 * p.shards)] fun s =>
      let bytes := (List.range p.shards).flatMap (s.rackRecord x p)
      ((s.collCount 8 x.part a bytes.length true).writeMem (some x.part) a bytes [] true).setColl 8 { m with rackDone := true }
    else s
  | none => s

/-- A RACK operation has landed on this device (R385): counted by its step, for up to four values; a disabled slice takes no
landing. -/
def State.rackLanded (s : State) (k : Nat) : State :=
  let s1 := s.addWrap F.COLL_RACK_ARRIVE 8 1
  let m := s1.coll 8
  let running := m.begun && m.script.any fun x => x.kind == 6
  if !s.flag F.COLL_COLL_CTL_ENABLE 8 then s
  else if running && k != m.rackStep then s1.rackStray 1
  else if (Tab.get? m.rackCounts k).isSome ∨ m.rackCounts.length < 4 then
    (s1.setColl 8 { m with rackCounts := Tab.set m.rackCounts k (Tab.get 0 m.rackCounts k + 1) }).rackTry
  else s1.rackStray 1

/-- What a racking step reads as it begins: the header, the step record, the move records, and where those can be read, the sources. -/
def State.rackReads (s : State) (x : Script) : List (Nat × Nat) :=
  let h := (s.readMem (some x.part) x.listAddr 64).data
  let p := s.rackPlan x (s.coll 8).rackStep
  [(x.listAddr, 64), (leAt h 8 6 + 32 * (s.coll 8).rackStep, 32), (p.movePtr, 32 * p.moves)] ++ (s.rackMoves x p).map fun v => (v.src, v.len)

/-- A racking step begins: the staging check, then its moves (R385). What has landed under another step is stray. -/
def State.rackBegin (s : State) (x : Script) : State :=
  let m := s.coll 8
  let k := m.rackStep
  let p := s.rackPlan x k
  let ms := s.rackMoves x p
  let others := (m.rackCounts.filter fun e => e.1 != k)
  let s1 := (s.setColl 8 { m with begun := true, rackCounts := m.rackCounts.filter fun e => e.1 == k }).rackStray (others.map (·.2)).sum
  let out := fun (v : Move) => v.stage && !(decide (p.stage ≤ v.dst) && decide (v.dst + v.len ≤ p.stage + p.stageBytes))
  if ms.any out then
    (s1.setColl 8 { s1.coll 8 with begun := false }).collErr 8 errRackStage x.idx 0
  else
    let r := ms.foldl (fun (q : State × Bool) v => let t := q.1.issueMove x k v; (t.1, q.2 && t.2)) (s1, true)
    if r.2 then r.1.rackTry else (r.1.setColl 8 { r.1.coll 8 with begun := false }).collErr 8 errNoHeddle x.idx 0

/-! ### The commands -/

/-- A script of kind `kind` whose task has started begins: every chunk that can start does (R372, R378, R382, R383, R385). -/
def State.scriptRun (s : State) (c kind : Nat) : State :=
  let m := s.coll c
  match m.script with
  | some x =>
    if x.kind ≠ kind ∨ m.task.isNone then s
    else if m.begun then (if kind = 6 then s.rackTry else s)
    else if kind = 6 then s.whenReadable (s.rackReads x) fun s => s.rackBegin x
    else (x.chunksOn c).foldl (fun t i => t.chunkStart c i) (s.setColl c { m with begun := true })
  | none => s

/-- ALL_REDUCE (R372). -/
def execAllReduce (slice : Fin 9) (s : State) : Host.Outcome State Fault Refusal := .next (s.scriptRun slice.val 0)

/-- REDUCE_SCATTER (R372). -/
def execReduceScatter (slice : Fin 9) (s : State) : Host.Outcome State Fault Refusal := .next (s.scriptRun slice.val 1)

/-- ALL_GATHER (R372). -/
def execAllGather (slice : Fin 9) (s : State) : Host.Outcome State Fault Refusal := .next (s.scriptRun slice.val 2)

/-- BROADCAST (R372). -/
def execBroadcast (slice : Fin 9) (s : State) : Host.Outcome State Fault Refusal := .next (s.scriptRun slice.val 3)

/-- ALL_TO_ALL (R382). -/
def execAllToAll (slice : Fin 9) (s : State) : Host.Outcome State Fault Refusal := .next (s.scriptRun slice.val 4)

/-- BARRIER (R382). -/
def execBarrier (slice : Fin 9) (s : State) : Host.Outcome State Fault Refusal := .next (s.scriptRun slice.val 5)

/-- RACK_SCRIPT (R385); it runs on slice 8. -/
def execRackScript (slice : Fin 9) (s : State) : Host.Outcome State Fault Refusal :=
  .next (if slice.val = 8 then s.scriptRun 8 6 else s)

/-- BUNDLE (R383). -/
def execBundle (slice : Fin 9) (s : State) : Host.Outcome State Fault Refusal := .next (s.scriptRun slice.val 7)

/-- CHUNK_START (R378). -/
def execChunkStart (slice : Fin 9) (chunk : Nat) (s : State) : Host.Outcome State Fault Refusal := .next (s.chunkStart slice.val chunk)

/-- TRANSFER_LANDED (R374, R376, R377): a transfer has landed in its slot, with the residue mismatches of its adds; a disabled slice takes
no landing. -/
def execTransferLanded (slice : Fin 9) (chunk q : Nat) (mismatches : List Nat) (s : State) : Host.Outcome State Fault Refusal :=
  let c := slice.val
  if !s.flag F.COLL_COLL_CTL_ENABLE c then .next s
  else
    let m := s.coll c
    .next ((s.setColl c { m with landed := m.landed ++ [(chunk, q, mismatches)] }).moveChunk c chunk)

end Sys2Proof.Machine
end

