-- ==== Sys2Proof/Machine/EpiMath.lean ====
section
/-! DEFINITION. The arithmetic of the epilogue (R176 to R180): scaling, bias, activation, the two roundings, and what each element
counts in a tile status word (R184). -/
namespace Sys2Proof.Machine

/-- The magnitude that R124 rounds to, before the test for overflow. -/
def roundedMag (f : FloatFmt) (neg : Bool) (num den rm u : Nat) : Nat :=
  let e := max (log2Floor num den) f.emin
  let k := e - f.t
  let n' := if 0 ≤ k then num else num * 2 ^ (-k).toNat
  let d' := if 0 ≤ k then den * 2 ^ k.toNat else den
  let l := n' / d'
  (e - f.emin).toNat * 2 ^ f.t + (if roundsUp rm neg l (n' % d') d' u then l + 1 else l)

/-- A rounding delivers R125's result, or an infinity as something else, or an end of an integer container (R184). -/
def overflows (fmt frac rm : Nat) (sat : Bool) (u : Nat) (v : Val) : Bool :=
  match floatFmt fmt with
  | some f =>
    match v with
    | .nan => false
    | .inf _ => (sat && f.width == 8) || f.inf.isNone
    | .fin neg n d => n != 0 && decide (f.maxFin < roundedMag f neg n d rm u)
  | none =>
    match v with
    | .nan => false
    | _ => (roundTo fmt frac rm sat u v).clip

/-- A rounding delivers zero for a non-zero value (R184). -/
def underflows (fmt bits : Nat) (v : Val) : Bool :=
  match v with
  | .fin _ n _ => n != 0 && bits % 2 ^ (if isFloat fmt then fmtWidth fmt - 1 else fmtWidth fmt) == 0
  | _ => false

/-- An output element with what it counts. -/
structure EOut where
  bits : Nat := 0
  ovf : Bool := false
  under : Bool := false
  nanIn : Bool := false      -- a NaN converted to an integer, which delivers 0 (R132)
deriving DecidableEq, Repr, Inhabited

/-- One rounding with its counts. -/
def roundE (fmt frac rm : Nat) (sat : Bool) (u : Nat) (v : Val) : EOut :=
  let b := (roundTo fmt frac rm sat u v).bits
  ⟨b, overflows fmt frac rm sat u v, underflows fmt b v, !isFloat fmt && v == .nan⟩

/-- The output is NaN (NAN_N). -/
def EOut.nan (fmt : Nat) (o : EOut) : Bool := isNaN fmt o.bits

/-- An output with its counts packed into one number, for the enclosures of a transcendental function. -/
def EOut.pack (o : EOut) : Conv := ⟨o.bits * 8 + (if o.nanIn then 4 else 0) + (if o.ovf then 2 else 0) + (if o.under then 1 else 0), false⟩

def EOut.unpack (x : Nat) : EOut := ⟨x / 8, x / 2 % 2 == 1, x % 2 == 1, x / 4 % 2 == 1⟩

/-- The activation of a value in the intermediate format and the final rounding (R177, R179, Table 6.5). -/
def activate (act clampLo clampHi : Nat) (y : Val) (r : Val → EOut) : EOut :=
  let via := fun (f : Fn) => EOut.unpack (f.round y fun v => (r v).pack).bits
  match act with
  | 0 => r y
  | 1 => r (match y with
      | .nan => .nan
      | .inf neg => if neg then Val.zero else y
      | .fin neg n _ => if neg || n == 0 then Val.zero else y)
  | 2 => via .gelu
  | 3 => via .silu
  | 4 => via .tanh
  | 5 => via .sigm
  | 6 => r (Val.mul y y)
  | _ =>
    let lo := f32 clampLo
    let hi := f32 clampHi
    r (if Val.cmp y lo = some .lt then lo else if Val.cmp y hi = some .gt then hi else y)

/-- One element through the epilogue (R176, R177): the value held, row scale, column scale, bias, activation, conversion control byte, FRAC,
the intermediate format, the random bits. The spec gives no sign for a sum of scaled value and bias that is exactly zero: it is +0, and −0
where both are −0, under every mode, as R196 says of an add (log entry 119). -/
def epilogueElem (v r c : Val) (bias : Option Val) (act clampLo clampHi ccb frac inter u : Nat) : EOut :=
  let x := Val.mul v (Val.mul r c)
  let fin := fun (z : Val) => roundE (ccbFmt ccb) frac (ccbRm ccb) (ccbSat ccb) u z
  if act = 0 ∧ bias.isNone = true then fin x
  else
    let x' := match bias with
      | some b => Val.add 0 x b
      | none => x
    let y := roundE inter 0 (if ccbFmt ccb = inter then ccbRm ccb else 4) false u x'
    let z := activate act clampLo clampHi (decodeVal inter 0 y.bits) fin
    { z with ovf := z.ovf || y.ovf, under := z.under || y.under }

/-- A tile status word (Table 6.9). -/
def statusWord (lees nan ovf under : Nat) : Nat := lees + nan * 2 ^ 13 + ovf * 2 ^ 26 + under * 2 ^ 39

/-- The 512 bytes of a lees map: bit k is set for every listed element. -/
def leesMap (l : List Nat) : List Byte :=
  (List.range 512).map fun k => BitVec.ofNat 8 ((l.filter fun x => x / 8 == k).foldl (fun a x => a ||| 2 ^ (x % 8)) 0)

end Sys2Proof.Machine
end

