-- ==== Sys2Proof/Machine/Matrix.lean ====
section
/-! DEFINITION. The matrix-vector path (R156 to R159, R187, R242): MV, MVT, RESID and CSR. -/
namespace Sys2Proof.Machine
open Sys2Proof

/-- A matrix-vector block (Table 8.7). -/
structure MvBlock where
  kind : Nat
  tswEn : Bool
  lmapEn : Bool
  ccb : Nat
  aFmt : Nat
  xFmt : Nat
  bFmt : Nat
  aFrac : Nat
  xFrac : Nat
  outFrac : Nat
  rows : Nat
  cols : Nat
  ld : Nat
  a : Nat
  x : Nat
  b : Nat
  scale : Nat
  y : Nat
  tsw : Nat
  lmap : Nat
deriving DecidableEq, Repr

/-- The block that 96 bytes spell. -/
def mvBlockOf (l : List Byte) : MvBlock :=
  let f := fieldOf l
  { kind := bitsOf (f 0 1) 0 2, tswEn := bitOf (f 0 1) 2, lmapEn := bitOf (f 0 1) 3, ccb := f 1 1
    aFmt := bitsOf (f 2 1) 0 4, xFmt := bitsOf (f 2 1) 4 4, bFmt := bitsOf (f 3 1) 0 4
    aFrac := bitsOf (f 4 1) 0 6, xFrac := bitsOf (f 5 1) 0 6, outFrac := bitsOf (f 6 1) 0 6
    rows := f 8 4, cols := f 12 4, ld := f 16 4, a := f 24 6, x := f 32 6, b := f 40 6, scale := f 48 6, y := f 56 6, tsw := f 64 6, lmap := f 72 6 }

/-- The reserved bytes and bits are zero. -/
def mvReservedZero (l : List Byte) : Bool :=
  let f := fieldOf l
  bitsOf (f 0 1) 4 4 == 0 && bitsOf (f 3 1) 4 4 == 0 && [4, 5, 6].all (fun k => bitsOf (f k 1) 6 2 == 0) && f 7 1 == 0 && f 20 4 == 0 &&
    [30, 38, 46, 54, 62, 70].all (fun k => f k 2 == 0) && f 78 18 == 0

/-- No reserved code, no value out of range (R117, R136, R242). -/
def MvBlock.ok (m : MvBlock) : Bool :=
  arrayFmt m.aFmt && arrayFmt m.xFmt && isFloat m.aFmt == isFloat m.xFmt && fracOk m.aFmt m.aFrac && fracOk m.xFmt m.xFrac &&
    ccbOk m.ccb && fracOk (ccbFmt m.ccb) m.outFrac && (m.kind != 2 || isFloat m.bFmt) &&
    (if m.kind = 1 then decide (m.cols ≤ 4096) else decide (m.cols ≤ 1048576)) && (m.kind != 3 || m.ld == 0) &&
    (m.kind == 2 || m.kind == 3 || m.b == 0)

/-- The outputs of a command. -/
def MvBlock.outputs (m : MvBlock) : Nat := if m.kind = 1 then m.cols else m.rows

/-- The bytes that zeros of a reserved command take at y: a reserved OUT_CCB names no format and gets one byte an output (log entry 25). -/
def MvBlock.zeroBytes (m : MvBlock) : Nat := min spoolBytes (m.outputs * max 1 (fmtBytes (ccbFmt m.ccb)))

/-- `n` elements of `w` bytes at device address `a` of what a command has read, with the places of the poisoned ones. -/
def MvJob.elems (j : MvJob) (a w n : Nat) : List Nat × List Nat :=
  ((chunksOf w n (memRead j.mem a (n * w))).map leNat,
    (List.range n).filter fun k => (pieces (a + k * w) w).any fun p => j.poison.contains ((a + k * w + p.1) / 64))

/-- The row offsets of a CSR (Table 8.7). -/
def MvJob.rowOffsets (j : MvJob) (m : MvBlock) : List Nat := (j.elems m.scale 4 (m.rows + 1)).1

/-- The lines of the matrix, row by row; those of a CSR's values and column indices need its row offsets. -/
def MvBlock.lines (m : MvBlock) (off : List Nat) : List (Nat × Nat) :=
  let aw := fmtBytes m.aFmt
  if m.kind = 3 then
    (List.range m.rows).flatMap fun i =>
      let lo := off.getD i 0
      let n := off.getD (i + 1) 0 - lo
      linePieces (m.a + lo * aw) (n * aw) ++ linePieces (m.b + lo * 4) (n * 4)
  else (List.range m.rows).flatMap fun i => linePieces (m.a + i * m.ld * aw) (m.cols * aw)

/-- A term of an output: matrix element, x element, poison. -/
abbrev MvTerm := Val × Val × Bool

/-- An output's accumulator: one must for each group of 64 terms in ascending order (R187). -/
def mvAccum (L : Nat) (ts : List MvTerm) : VatEl :=
  (chunksOf 64 ts.length ts).foldl (fun el g =>
    let a := match largestExp (g.map (·.2.1)), largestExp (g.map (·.1)) with
      | some p, some q => some (p + q + 8)
      | _, _ => none
    el.add (mustOf (g.map fun t => Val.mul t.2.1 t.1) a L (g.any (·.2.2)))) {}

/-- The terms of every output (Table 5.8), and the matrix elements consumed. -/
def State.mvTerms (s : State) (c : Nat) (m : MvBlock) (j : MvJob) : List (List MvTerm) × Nat :=
  let aw := fmtBytes m.aFmt
  let xw := fmtBytes m.xFmt
  let av := decodeVal m.aFmt m.aFrac
  let xv := decodeVal m.xFmt m.xFrac
  let xAt := fun (k : Nat) => let e := s.spoolElems c (m.x + k * xw) xw 1; (xv (e.1.headD 0), !e.2.isEmpty)
  if m.kind = 3 then
    let off := j.rowOffsets m
    let rows := (List.range m.rows).map fun i =>
      let lo := off.getD i 0
      let n := off.getD (i + 1) 0 - lo
      let v := j.elems (m.a + lo * aw) aw n
      let k := j.elems (m.b + lo * 4) 4 n
      (v.1.zip k.1).zipIdx.map fun x =>
        let xe := xAt x.1.2
        (av x.1.1, xe.1, v.2.contains x.2 || k.2.contains x.2 || xe.2)
    (rows, (rows.map List.length).sum)
  else
    let xs := (List.range (if m.kind = 1 then m.rows else m.cols)).map xAt
    let mat := (List.range m.rows).map fun i => j.elems (m.a + i * m.ld * aw) aw m.cols
    let term := fun (r : List Nat × List Nat) (j : Nat) (xe : Val × Bool) => (av (r.1.getD j 0), xe.1, r.2.contains j || xe.2)
    (if m.kind = 1 then (List.range m.cols).map fun j => (mat.zip xs).map fun r => term r.1 j r.2
      else mat.map fun r => xs.zipIdx.map fun x => term r x.2 x.1, m.rows * m.cols)

/-- The status words and lees maps of the outputs, one for each 4,096 (R187). -/
def State.mvStatus (s : State) (c : Nat) (m : MvBlock) (outs : List (EOut × Bool)) : State :=
  (chunksOf 4096 outs.length outs).zipIdx.foldl (fun t g =>
    let cnt := fun (f : EOut × Bool → Bool) => (g.1.filter f).length
    let word := statusWord (cnt (·.2)) (cnt fun o => o.1.nan (ccbFmt m.ccb)) (cnt (·.1.ovf)) (cnt (·.1.under))
    let t1 := if m.tswEn then (t.unitOow c (m.tsw + 8 * g.2) 8).windowWrite c (m.tsw + 8 * g.2) (toLe 8 word) [] else t
    if m.lmapEn then
      (t1.unitOow c (m.lmap + 512 * g.2) 512).windowWrite c (m.lmap + 512 * g.2)
        (leesMap (g.1.zipIdx.filterMap fun o => if o.1.2 then some o.2 else none)) []
    else t1) s

/-- The outputs of a matrix-vector command whose matrix has been read (R156, R157, R187). Under SR the spec names no key for the path: the
random bits are free values (log entry 28). An exactly zero residual is +0 under every mode (log entry 119). -/
def State.mvRun (s : State) (c : Nat) (m : MvBlock) (j : MvJob) : State :=
  let L := s.windowL c
  let ts := s.mvTerms c m j
  let w := fmtBytes (ccbFmt m.ccb)
  let bw := fmtBytes m.bFmt
  let scaled := m.scale != 0 && (m.kind == 0 || m.kind == 2)
  let res : List (EOut × Bool × Bool) := ts.1.zipIdx.map fun x =>
    let el := mvAccum L x.1
    let sc := if scaled then s.spoolElems c (m.scale + 4 * x.2) 4 1 else ([0x3F800000], [])
    let b := if m.kind = 2 then s.spoolElems c (m.b + bw * x.2) bw 1 else ([0], [])
    let v := Val.mul (el.val L) (f32 (sc.1.headD 0))
    let out := if m.kind = 2 then Val.sub 0 (decodeVal m.bFmt 0 (b.1.headD 0)) v else v
    (roundE (ccbFmt m.ccb) m.outFrac (ccbRm m.ccb) (ccbSat m.ccb) (Config.draw 0 ((s.pick.work * 512 + c) * 2 ^ 48 + m.y + w * x.2) % 2 ^ 24) out, el.lees,
      el.poison || !sc.2.isEmpty || !b.2.isEmpty)
  let cnt := fun (f : EOut → Bool) => (res.filter fun r => f r.1).length
  let bytes := res.flatMap fun r => toLe w r.1.bits
  let s1 := (s.unitOow c m.x ((if m.kind = 1 then m.rows else m.cols) * fmtBytes m.xFmt)).addWrap F.CORE_MVP_ELEMS c ts.2
  let s2 := (s1.unitOow c m.y bytes.length).windowWriteBy c m.y bytes (rowPoisonAt w (res.map (·.2.2)))
  let s3 := ((s2.countEv F.CORE_EPI_NAN c (cnt (EOut.nan (ccbFmt m.ccb)) + cnt (·.nanIn)) Ev.CORE_EPI_NAN).addSat F.CORE_EPI_OVF c (cnt (·.ovf))).addSat
    F.CORE_EPI_UNDER c (cnt (·.under))
  (s3.mvStatus c m (res.map fun r => (r.1, r.2.1))).corePoison c (res.any (·.2.2))

/-- A running command goes on (R156): once every line that it has asked for has come, a CSR asks for its values, and any other has its
result. Answers what still runs. -/
def State.mvStep (s : State) (c : Nat) (j : MvJob) : State × Option MvJob :=
  let m := mvBlockOf j.block
  if !j.reads.isEmpty || j.out != 0 then (s, some j)
  else if m.kind = 3 ∧ j.offsets = false then
    let l := m.lines (j.rowOffsets m)
    if l.isEmpty then (s.mvRun c m j, none) else (s, some { j with offsets := true, reads := l })
  else (s.mvRun c m j, none)

/-- A matrix-vector command taken by the path from its block at `a`: it begins to read its matrix, or is a reserved encoding, which writes
zeros to y (R111). -/
def State.mvStart (s : State) (t : Nat) (i : Issue) (a : Nat) : State :=
  let c := i.core.val
  let s0 := s.splEcc c i.spl
  match s0.descRead c a 96 32 with
  | none => s0.arrRsvd c
  | some (l, pz) =>
    let m := mvBlockOf l
    let s1 := s0.corePoison c pz
    if mvReservedZero l && m.ok then
      let r := s1.mvStep c { strand := t, block := l, reads := if m.kind = 3 then linePieces m.scale ((m.rows + 1) * 4) else m.lines [] }
      r.1.setCore c { r.1.core c with mvp := r.2 }
    else (s1.windowWrite c m.y (List.replicate m.zeroBytes 0) []).arrRsvd c

/-- The path of a core takes the commands of a queue in order, up to one that goes on running. -/
def State.mvDrain (s : State) (c : Nat) : List (Nat × Issue × Nat) → State
  | [] => s.setCore c { s.core c with mvpQueue := [] }
  | e :: rest =>
    let t := s.mvStart e.1 e.2.1 e.2.2
    if (t.core c).mvp.isSome then t.setCore c { t.core c with mvpQueue := rest } else t.mvDrain c rest

/-- A core's path with the commands of its queue: it takes the next where neither a command nor a solver engine has it. -/
def State.mvTry (s : State) (c : Nat) : State :=
  let k := s.core c
  if k.mvp.isNone && k.mvpHolder.isNone then s.mvDrain c k.mvpQueue else s

/-- MVP_WAIT counts the cycles that a core's queue has waited for a reservation, up to cycle `cyc` (R159). -/
def State.mvWaited (s : State) (c cyc : Nat) : State :=
  match (s.core c).mvpWait with
  | none => s
  | some w => (s.addSat F.CORE_MVP_WAIT c (cyc - w)).setCore c { s.core c with mvpWait := none }

/-- The reservation of a core's path has ended at cycle `cyc`: the commands that waited for it run in order. -/
def State.mvRelease (s : State) (c cyc : Nat) : State := (s.mvWaited c cyc).mvTry c

/-- MVOP (R242): the command joins the path's queue, which holds 4, and runs in its turn; where a solver engine holds the path, the cycles that
its queue waits count from here (R159: each cycle once, however many commands wait; log entry 120). The block's KIND tells MV, MVT, RESID
and CSR apart. -/
def State.mvCmd (s : State) (op : Nat) (i : Issue) : State :=
  let c := i.core.val
  let t0 := i.strand.val
  if 4 ≤ (s.core c).mvpQueue.length then s
  else s.issue op i (unusedZero i false true false 0 0 && s.owns c t0 3) fun t =>
    let k := t.core c
    let u := t.setCore c { k with
      mvpQueue := k.mvpQueue ++ [(t0, i, t.ra i)]
      mvpWait := if k.mvpHolder.isSome then some (k.mvpWait.getD i.cyc) else k.mvpWait }
    if k.mvpHolder.isNone && k.mvpWait.isSome then u.mvRelease c i.cyc else u.mvTry c

def execMv (i : Issue) (s : State) : Host.Outcome State Fault Refusal := .next (s.mvCmd 0x3B i)
def execMvt (i : Issue) (s : State) : Host.Outcome State Fault Refusal := .next (s.mvCmd 0x3B i)
def execResid (i : Issue) (s : State) : Host.Outcome State Fault Refusal := .next (s.mvCmd 0x3B i)
def execCsr (i : Issue) (s : State) : Host.Outcome State Fault Refusal := .next (s.mvCmd 0x3B i)

/-- MVP_RESERVATION_END (R23, R159): the completion record of engine's descriptor is written, and with it the engine has given up its path
(R254); commands of that die's cores that waited run. While a descriptor holds a path, its reservation has not ended. -/
def execMvpReservationEnd (engine : Fin 16) (cyc : Nat) (s : State) : Host.Outcome State Fault Refusal :=
  .next ((s.cores.filter fun e => e.1 / 32 == engine.val && e.2.mvpHolder.isNone && e.2.mvpWait.isSome).foldl (fun t e => t.mvRelease e.1 cyc) s)

/-! ### Lines that land -/

/-- A matrix line of the path has come, after `stall` cycles without matrix data that MVP_STALL counts (R158). -/
def State.landMatrix (s : State) (c slot a n stall : Nat) (x : LineResponse) : State :=
  let who := some (s.core c).part
  let g := s.engineRead c a n x.ecc
  let s1 := ((g.1.accessDone (1, c) 0 who (s.checkAll who false a n)).addSat F.CORE_MVP_STALL c stall).addWrap F.CORE_RA_LINES c 1
  let k := s1.core c
  let s2 := s1.setCore c { k with slots := Tab.del k.slots slot }
  match k.mvp with
  | none => s2
  | some j =>
    let pz := (pieces a n).filter fun p => (dataBlocks p.1 p.2).any g.2.2.contains
    let r := s2.mvStep c { j with
      out := j.out - 1, mem := memWrite j.mem a g.2.1, poison := pz.foldl (fun l p => insertNat l ((a + p.1) / 64)) j.poison }
    (r.1.setCore c { r.1.core c with mvp := r.2 }).mvTry c

/-- RA_LINE_LAND (R233, R235, R236): a line lands, in the spool or at the matrix-vector path, and frees its slot. A local line's data are read
from memory, once no fence and no host holds them; a remote line's are what the acknowledgements bring. A response for a slot that holds
no line is dropped (R225). -/
def execRaLineLand (core : Fin 512) (slot part stall : Nat) (x : LineResponse) (s : State) : Host.Outcome State Fault Refusal :=
  let c := core.val
  match Tab.get? (s.core c).slots slot with
  | none => .next s
  | some r =>
    let s0 := s.nocRetry x.retries
    match r.mv with
    | some n => .next (s0.whenReadable [(r.src, n)] fun t => t.landMatrix c slot r.src n stall x)
    | none =>
      if !r.parts.isEmpty then .next (s0.landRemote c slot r part x)
      else
        let d := (s0.core c).slotDesc r
        let parts := d.lineSrc ((r.line + 2 ^ 32 - d.first.getD 0) % 2 ^ 32)
        .next (s0.whenReadable parts fun t =>
          let g := t.lineRead c parts x.ecc
          g.1.landLine c slot r g.2.1 g.2.2)

end Sys2Proof.Machine
end

