-- ==== Sys2Proof/Machine/Audit.lean ====
section
/-! DEFINITION. The audit unit (chapter 14): the weights digest (R394, R395), the comparison of a compare pick (R396, R397), seals (R398
to R401), the configuration fingerprint (R402) and verification (Table 14.8, step 6). -/
namespace Sys2Proof.Machine
open Sys2Proof

/-! ### The configuration fingerprint (R402) -/

/-- The word that fields of one register make, every other bit 0. -/
def State.fieldWord (s : State) (fs : List Fld) (i : Nat) : Nat := (fs.map fun f => s.fld f i * 2 ^ f.lo).sum

/-- The words of Table 14.5. -/
def State.fprintWords (s : State) : List Nat :=
  [s.fieldWord [F.DEVICE_DEV_INFO_STEP_NUM, F.DEVICE_DEV_INFO_STEP_LETTER] 0,
   s.fieldWord [F.PICK_PICK_CFG_PERIOD, F.PICK_PICK_CFG_SIZE_CLASS] 0, s.fieldWord [F.PICK_PICK_GUARD] 0,
   s.fieldWord [F.PICK_SCHED_CTL_RECOVERY_LIMIT] 0,
   s.fieldWord [F.HEDDLE_AXIS_CFG_N_S, F.HEDDLE_AXIS_CFG_N_E, F.HEDDLE_AXIS_CFG_N_W, F.HEDDLE_AXIS_CFG_N_V] 0,
   s.fieldWord [F.HEDDLE_HEDDLE_CFG_RETX_US, F.HEDDLE_HEDDLE_CFG_CRED_PERM, F.HEDDLE_HEDDLE_CFG_CRED_SHARED] 0,
   s.fieldWord [F.AUDIT_AUD_CTL_REPL_AXES, F.AUDIT_AUD_CTL_CMP_EN] 0] ++
    (List.range 8).map fun k => s.fld (F.AUDIT_IMAGE_DIGEST.nth k) 0

/-- The configuration fingerprint of the committed values. -/
def State.fprint (s : State) : List Byte := sha256 (s.fprintWords.flatMap (toLe 4))

/-- A 256-bit digest in eight registers: word 0 holds bits [31:0]. -/
def State.digestReg (s : State) (f : Fld) : List Byte := (List.range 8).flatMap fun k => toLe 4 (s.fld (f.nth k) 0)

/-- The state with a digest in eight registers. -/
def State.setDigestReg (s : State) (f : Fld) (b : List Byte) : State :=
  (List.range 8).foldl (fun t k => t.setFld (f.nth k) 0 (leNat ((b.drop (4 * k)).take 4))) s

/-! ### The weights digest (R394) -/

/-- The blocks of the device. -/
def State.blockCount (s : State) : Nat := s.fld F.UPDATE_BLOCKS 0

/-- The descriptor of a block is VALID. -/
def State.blockValid (s : State) (b : Nat) : Bool := (blockDescOf (s.unitRead (s.btAddr (b % 8) b) 64)).valid

/-- Level 0: the block digests. -/
def State.leaves (s : State) : List (List Byte) :=
  (List.range s.blockCount).map fun b => if s.blockValid b then s.unitRead (s.digAddr (b % 8) b) 32 else List.replicate 32 0

/-- The next level of the tree: fan-out 64. -/
def treeLevel (l : List (List Byte)) : List (List Byte) := (chunksOf 64 l.length l).map fun g => sha256 g.flatten

/-- The root above a level; seven levels of fan-out 64 cover every block number. -/
def treeUp : Nat → List (List Byte) → List Byte
  | 0, l => l.headD []
  | fuel + 1, l => match l with
    | [] => sha256 []
    | [x] => x
    | _ => treeUp fuel (treeLevel l)

/-- The weights digest. -/
def State.weightsDigest (s : State) : List Byte := treeUp 7 s.leaves

/-- Bytes hashed to rehash the paths of dirty nodes of a level of `n` nodes. -/
def treeHashBytes : Nat → Nat → List Nat → Nat
  | 0, _, _ => 0
  | fuel + 1, n, dirty =>
    if n ≤ 1 then 0
    else
      let up := (dirty.map (· / 64)).foldl insertNat []
      (up.map fun j => 32 * min 64 (n - 64 * j)).sum + treeHashBytes fuel ((n + 63) / 64) up

/-- The audit unit has hashed `n` bytes. -/
def State.hashed (s : State) (n : Nat) : State := { s with audit := { s.audit with hashed := s.audit.hashed + n } }

/-- The tree area: AUDIT.TREE_BASE and the bytes that suffice (R394); no area without blocks. -/
def State.treeArea (s : State) : Nat × Nat :=
  (s.fldPair F.AUDIT_TREE_BASE_LO F.AUDIT_TREE_BASE_HI 0, if s.blockCount = 0 then 0 else 32 * ((s.blockCount + 62) / 63) + 4096)

/-- The tree kept in its area: the layout is internal to the unit, so every byte is a free value of the root (log entry 116). -/
def State.keepTree (s : State) (root : Nat) : State :=
  s.writeMem none s.treeArea.1 ((List.range s.treeArea.2).map fun k => BitVec.ofNat 8 (Config.draw 9 (root * 2 ^ 48 + k)))

/-- The tree completed: the root is up to date. -/
def State.rehash (s : State) : State :=
  let s1 := s.hashed (treeHashBytes 7 s.blockCount (s.audit.dirty.filter fun b => decide (b < s.blockCount)))
  let root := digestNat s.weightsDigest
  ({ s1 with audit := { s1.audit with root := root, dirty := [] } }).keepTree root

/-- What completing the tree reads: the block table and the block digests. -/
def State.treeReads (s : State) : List (Nat × Nat) := [(s.btAddr 0 0, 64 * s.blockCount), (s.digAddr 0 0, 32 * s.blockCount)]

/-- A unit's reads `l` and writes `w`: it goes on as `f` says once none of them waits. -/
def State.whenFree (s : State) (l w : List (Nat × Nat)) (f : State → State) : State := s.whenReadable l fun s => s.whenWritable w f

/-- TREE_REHASH (R395): the dirty paths rehashed. -/
def execTreeRehash (s : State) : Host.Outcome State Fault Refusal :=
  .next (if s.audit.dirty.isEmpty then s else s.whenFree s.treeReads [s.treeArea] State.rehash)

/-! ### The compare pick (R396, R397) -/

/-- The compare pick begins at its edge: the flag and the root. -/
def State.comparePick (s : State) : State :=
  let bad := (List.range s.blockCount).any fun b => s.blockValid b && (s.ledger (b % 8) b).state != 1
  let s1 := (if bad then s.raise 13 0 Ev.AUDIT_DIGEST_OPEN else s).rehash
  { s1 with audit := { s1.audit with comparing := true, openBlock := bad, flag := none } }

/-- A compare pick commits with the reduced flag: EQUAL moves the digests on; otherwise DIVERGED or OPEN is recorded (the stall is the
sequencer's). -/
def State.compareResult (s : State) (flag : Bool) : State :=
  let s1 := ({ s with audit := { s.audit with comparing := false, flag := none } }).addWrap F.AUDIT_CMP_CNT 0 1
  if flag then
    let r := if s.audit.openBlock then 3 else 2
    let s2 := ((s1.setFld F.AUDIT_AUD_STAT_CMP_RESULT 0 r).addSat F.AUDIT_DIVERGE_CNT 0 1).raise 13 0 Ev.AUDIT_DIVERGED
    s2.bookPush { s2.bookRec 9 (toLe 4 r ++ toLe 4 (s2.fld F.AUDIT_STEP_NUM 0)) with page := 13, evt := Ev.AUDIT_DIVERGED }
  else
    let old := s1.digestReg F.AUDIT_WD_START
    (((s1.setDigestReg F.AUDIT_WD_PREV old).setDigestReg F.AUDIT_WD_START (toLe 32 s1.audit.root)).addWrap F.AUDIT_STEP_NUM 0 1).setFld
      F.AUDIT_AUD_STAT_CMP_RESULT 0 1

/-! ### Seals (R398 to R401) -/

/-- The base of the seal ring, its entries, and the address of the slot of index `i`. -/
def State.sealBase (s : State) : Nat := s.fldPair F.AUDIT_SEAL_BASE_LO F.AUDIT_SEAL_BASE_HI 0
def State.sealEntries (s : State) : Nat := 2 ^ s.fld F.AUDIT_AUD_CTL_SEAL_LOG2 0
def State.sealSlot (s : State) (i : Nat) : Nat := s.sealBase + 64 * (1 + i % s.sealEntries)

/-- The LAP byte of index `i`. -/
def State.sealLap (s : State) (i : Nat) : Nat := i / s.sealEntries % 255 + 1

def State.sealProducer (s : State) : Nat := leNat (s.unitRead s.sealBase 8)
def State.sealConsumer (s : State) : Nat := leNat (s.unitRead (s.sealBase + 8) 8)

/-- The partition that owns the ring's memory. -/
def State.ringOwner (s : State) : Option Nat :=
  match regionOf s.sealBase with
  | .window g => (List.range 8).find? fun p => s.granOwned p g
  | .spool c => s.corePart c
  | _ => s.dramOwner s.sealBase

/-- A seal request (Table 14.3). -/
structure SealReq where
  result : Nat
  resultLen : Nat
  input : Nat
  seedsCount : Nat
  inputLen : Nat
  seeds : Nat
  isDigest : Bool
  step : Nat
  tag : Nat
  out : Nat
  done : Nat
  reservedOk : Bool
deriving DecidableEq, Repr

def sealReqOf (b : List Byte) : SealReq :=
  let f := leAt b
  { result := f 0 6, resultLen := f 8 8, input := f 16 6, seedsCount := f 22 2, inputLen := f 24 8, seeds := f 32 6, isDigest := bitOf (f 38 1) 0
    step := f 40 4, tag := f 44 4, out := f 48 6, done := f 56 6
    reservedOk := f 6 2 == 0 && bitsOf (f 38 1) 1 7 == 0 && f 39 1 == 0 && f 54 2 == 0 && f 62 1 == 0 }

/-- The ranges that a request names. -/
def SealReq.ranges (q : SealReq) : List (Nat × Nat) := [(q.result, q.resultLen), (q.input, q.inputLen), (q.seeds, 8 * q.seedsCount)]

/-- The CODE of a request (R400). -/
def State.sealCode (s : State) (q : SealReq) : Nat :=
  let n := s.fld F.AUDIT_STEP_NUM 0
  let who := s.ringOwner
  if q.step ≠ n ∧ q.step ≠ (n + 2 ^ 32 - 1) % 2 ^ 32 then 1
  else if !q.reservedOk || decide (2 ^ 40 < q.resultLen) || decide (1024 < q.seedsCount) || (q.isDigest && q.inputLen != 32) || q.out % 32 != 0 then 2
  else if q.ranges.any fun r => decide (0 < r.2) && (s.checkAll who false r.1 r.2).st != 0 then 3
  else if q.ranges.any fun r => !(s.readMem who r.1 r.2).poison.isEmpty then 4
  else 0

/-- The values V0 to V6 of a request (R399). -/
def State.sealValues (s : State) (q : SealReq) : List (List Byte) :=
  let rd := fun (r : Nat × Nat) => (s.readMem s.ringOwner r.1 r.2).data
  [s.digestReg F.AUDIT_IMAGE_DIGEST,
   s.digestReg (if q.step = s.fld F.AUDIT_STEP_NUM 0 then F.AUDIT_WD_START else F.AUDIT_WD_PREV),
   (if q.isDigest then rd (q.input, 32) else sha256 (rd (q.input, q.inputLen))),
   sha256 (rd (q.seeds, 8 * q.seedsCount)),
   toLe 4 (s.axisN 0 * s.axisN 1 * s.axisN 2 * s.axisN 3),
   s.fprint,
   sha256 (rd (q.result, q.resultLen))]

/-- The seal of the values. -/
def sealOf (vs : List (List Byte)) : List Byte :=
  sha256 ((1 : Byte) :: vs.zipIdx.flatMap fun v => sha256 ((0 : Byte) :: BitVec.ofNat 8 v.2 :: v.1))

/-- The seal record (Table 14.4). -/
def sealRecord (code tag step : Nat) (dig : List Byte) (vs : List (List Byte)) : List Byte :=
  let v := fun (k n : Nat) => padTo n (vs.getD k [])
  toLe 4 code ++ toLe 4 tag ++ toLe 4 step ++ List.replicate 20 0 ++ padTo 32 dig ++ v 0 32 ++ v 1 32 ++ v 2 32 ++ v 3 32 ++ v 4 4 ++
    List.replicate 28 0 ++ v 5 32 ++ v 6 32

/-- Bytes hashed for a seal. -/
def SealReq.hashBytes (q : SealReq) (vs : List (List Byte)) : Nat :=
  (if q.isDigest then 0 else q.inputLen) + 8 * q.seedsCount + q.resultLen + (vs.map fun v => v.length + 2).sum + 225

/-- A request processed: its record, its DONE signal, CONSUMER (R398, R400). -/
def State.sealRun (s : State) (i : Nat) (q : SealReq) : State :=
  let code := s.sealCode q
  let vs := if code = 0 then s.sealValues q else []
  let record := sealRecord code q.tag q.step (if code = 0 then sealOf vs else []) vs
  let who := s.ringOwner
  let s1 := ((s.accessDone (13, 0) 0 who (s.checkAll who true q.out 288)).writeMem who q.out record).addWrap F.AUDIT_SEAL_CNT 0 1
  let s2 := if code = 0 then s1.hashed (q.hashBytes vs)
    else (((if code = 4 then s1.raise 13 0 4 else s1).countErr 13 0 (if code = 1 then 0x81 else 0x80) i 0).countEv F.AUDIT_SEAL_ERR 0 1
      Ev.AUDIT_SEAL_ERR)
  let s3 := if q.done = 0 then s2
    else (s2.issueOp .audit { op := 3, destDev := s2.ownDev, destAddr := q.done, length := 8, op0 := 1 } who [] []).1
  s3.writeMem none (s3.sealBase + 8) (toLe 8 (i + 1))

/-- SEAL_REQUEST (R398 to R401): the next index of the ring, once its pick has committed and its LAP byte holds the value. -/
def execSealRequest (s : State) : Host.Outcome State Fault Refusal :=
  let i := s.sealConsumer
  let b := s.unitRead (s.sealSlot i) 64
  let q := sealReqOf b
  if s.audit.producerAtEdge ≤ i ∨ leAt b 63 1 ≠ s.sealLap i then .next s
  else .next (s.whenFree ((s.sealBase, 16) :: (s.sealSlot i, 64) :: q.ranges) [(q.out, 288), (s.sealBase + 8, 8)] fun s => s.sealRun i q)

/-- A pick has committed: PRODUCER is recorded (R401). -/
def State.sealCommit (s : State) : State := { s with audit := { s.audit with producerAtEdge := s.sealProducer } }

/-- A pick has failed: PRODUCER is restored and the LAP bytes of what it wrote are cleared (R401). -/
def State.sealRestore (s : State) : State :=
  let p := s.audit.producerAtEdge
  let n := min s.sealEntries (s.sealProducer - p)
  ((rangeFrom p n).foldl (fun t i => t.writeMem none (t.sealSlot i + 63) [0]) s).writeMem none s.sealBase (toLe 8 p)

/-! ### Verification -/

/-- Every valid block rehashed from its bytes, its digest rewritten (VERIFY_CTL.MODE = 1). -/
def State.rehashBlocks (s : State) : State :=
  (List.range s.blockCount).foldl (fun t b =>
    match t.blockDesc (b % 8) b with
    | some d =>
      let scales := (List.range d.rows).map fun r => t.unitRead (d.scale + 8 * r) 4
      let parts := d.scopeParts.map fun p => (t.unitRead p.1 (p.2 * d.elems), p.2)
      (t.writeMem none (t.digAddr (b % 8) b) (blockDigest d.elems b (t.ledger (b % 8) b).step scales parts)).hashed
        (d.elems * (d.scopeParts.map (·.2)).sum + 8 + 4 * d.rows + 32 * d.groups)
    | none => t) s

/-- VERIFY_CTL.START goes to 1 (Table 14.11). -/
def State.verifyBegin (s : State) : State :=
  if s.audit.verify then s
  else ({ s with audit := { s.audit with verify := true } }).setFld F.AUDIT_VERIFY_CTL_START 0 1

/-- What a verification reads and writes besides the tree: in MODE 1 the ranges of every valid block, and every block digest. -/
def State.verifyReads (s : State) : List (Nat × Nat) :=
  s.treeReads ++ (if s.flag F.AUDIT_VERIFY_CTL_MODE 0 then
    (List.range s.blockCount).flatMap fun b => (s.blockDesc (b % 8) b).elim [] BlockDesc.ranges else [])
def State.verifyWrites (s : State) : List (Nat × Nat) :=
  s.treeArea :: (if s.flag F.AUDIT_VERIFY_CTL_MODE 0 then [(s.digAddr 0 0, 32 * s.blockCount)] else [])

/-- A verification done: the tree is rebuilt, the root compared; on MATCH it is loaded into WD_START. -/
def State.verifyEnd (s : State) : State :=
  let s1 := if s.flag F.AUDIT_VERIFY_CTL_MODE 0 then s.rehashBlocks else s
  let all := List.range s1.blockCount
  let s2 := ({ s1 with audit := { s1.audit with dirty := all } }).rehash
  let ref := s2.digestReg F.AUDIT_VERIFY_REF
  let ok := decide (digestNat ref = s2.audit.root)
  let s3 := (({ s2 with audit := { s2.audit with verify := false } }).setFld F.AUDIT_AUD_STAT_VERIFY_RESULT 0 (if ok then 1 else 2)).setFld
    F.AUDIT_VERIFY_CTL_START 0 0
  (if ok then s3.setDigestReg F.AUDIT_WD_START ref else s3).raise 13 0 Ev.AUDIT_VERIFY_DONE

/-- VERIFY_DONE (Table 14.11, Table 14.8). -/
def execVerifyDone (s : State) : Host.Outcome State Fault Refusal :=
  if !s.audit.verify then .next s else .next (s.whenFree s.verifyReads s.verifyWrites State.verifyEnd)

end Sys2Proof.Machine
end

