-- ==== Sys2Proof/Machine/Links.lean ====
section
/-! DEFINITION. Links (R360 to R364, Table 12.6), permanent heddles as their links come and go (R348), forwarding (R339, R340), and the
threading messages of shared heddles (R353 to R355). -/
namespace Sys2Proof.Machine
open Sys2Proof

/-! ### Permanent heddles -/

/-- The role that a permanent heddle uses: axis and offset code (R348, Table 12.7). -/
def permRole (h : Nat) : Nat × Nat :=
  if h ≤ 7 then (0, h)
  else if h ≤ 14 then (1, h - 7)
  else
    let k := (h - 15) % 4
    (if h ≤ 18 then 2 else 3, if k = 0 then 3 else if k = 1 then 1 else if k = 2 then 0 else 2)

/-- A permanent heddle has a live link of its role; on a ring of two the ±1 roles are one role (R337, R348). -/
def State.permLive (s : State) (h : Nat) : Bool :=
  let r := permRole h
  let links := if 2 ≤ r.1 ∧ s.axisN r.1 = 2 ∧ r.2 < 2 then s.roleLinks r.1 0 ++ s.roleLinks r.1 1 else s.roleLinks r.1 r.2
  s.permUsed h && links.any s.linkLive

/-- One permanent heddle brought in step with its links: threaded to its peer while one is live; its sequence numbers stay where the
link to the same peer returns. -/
def State.permStep (s : State) (h : Nat) : State :=
  let x := s.heddle h
  if s.permLive h then
    let o := permOffset s h
    let peer := s.peerAt o.1 o.2
    if x.st = .threaded then s
    else if (Tab.get? s.fab.heddles h).isSome ∧ x.peer = peer then
      ((s.setHeddle h { x with st := .threaded }).addWrap F.HEDDLE_THREAD_CNT 0 1).sendWaiting h
    else s.threadTo h peer (permPair s h) 0 false false
  else if x.st = .threaded then s.setHeddle h { x with st := .free } else s

/-- Every permanent heddle. -/
def State.permSync (s : State) : State := (rangeFrom 1 22).foldl (fun t h => t.permStep h) s

/-! ### Link states -/

/-- A link enters a state (Tables 12.6 to 12.8). A link that leaves UP or QUARANTINED for another than these starts its link sequence
again. -/
def State.setLinkState (s : State) (l st : Nat) : State :=
  let old := s.linkState l
  if old = st then s
  else
    let s1 := s.setFld F.LINK_LINK_STAT_STATE l st
    let s2 := if old = 4 then (s1.addSat F.LINK_DOWN_CNT l 1).raise 8 l Ev.LINK_LINK_DOWN else s1
    let s3 := if st = 4 then s2.raise 8 l Ev.LINK_LINK_UP else if st = 3 then s2.raise 8 l Ev.LINK_QUARANTINE
      else if st = 5 then s2.raise 8 l Ev.LINK_LINK_FAILED else s2
    let s4 := if st = 3 ∨ st = 4 then s3 else s3.setLink l { peerFenced := (s3.link l).peerFenced }
    s4.permSync

/-- A link may train now: its configuration lets it, and the device is awake (R490). -/
def State.mayTrain (s : State) (l : Nat) : Bool := s.linkUsable l && s.fld F.POWER_PWR_STAT_STATE 0 == 0

/-- A link in TRAINING. -/
def State.training (s : State) (l : Nat) : Bool := s.linkState l == 1 && s.mayTrain l

/-- A link goes down: to TRAINING where it may train, to DOWN otherwise. -/
def State.linkDown (s : State) (l : Nat) : State := s.setLinkState l (if s.mayTrain l then 1 else 0)

/-- A DOWN link that may train goes to TRAINING (Table 12.6). -/
def State.linkTrain (s : State) (l : Nat) : State := if s.linkState l = 0 ∧ s.mayTrain l = true then s.setLinkState l 1 else s

/-- A link after a commit (R362, R365): one whose ROLE or ENABLE changed leaves UP; one that may not train is DOWN; one that FAILED stays so
until ENABLE is committed 0. -/
def State.linkCommit (s : State) (l : Nat) (changed : Bool) : State :=
  let st := s.linkState l
  if st = 5 then (if s.flag F.LINK_LINK_CTL_ENABLE l then s else s.setLinkState l 0)
  else if !s.linkUsable l then s.setLinkState l 0
  else if changed ∧ 2 ≤ st then s.setLinkState l 1 else s.linkTrain l

/-- The configuration fingerprint as the registers show it: 0 until a commit (Table 2.8). -/
def State.cfgPrint (s : State) : Nat := if s.fld (F.CFG_GEN 0) 0 = 0 then 0 else digestNat s.fprint

/-- A link's role as LINK.ROLE lays it out (Table 12.7). -/
def State.roleWord (s : State) (l : Nat) : Nat :=
  s.fld F.LINK_ROLE_AXIS l + s.fld F.LINK_ROLE_OFFSET l * 2 ^ 2 + s.fld F.LINK_ROLE_MEMBER l * 2 ^ 5 + s.fld F.LINK_ROLE_VALID l * 2 ^ 15

/-- The device's NEG flit: its number, the link's role, generation and fingerprint, versions 2.0 to 2.0 (Table 12.6, R363, R364). -/
def State.sendNeg (s : State) (l : Nat) : State :=
  (s.addWrap F.LINK_TX_FLITS l 1).emit (.neg l s.ownDev (s.roleWord l) (s.fld (F.CFG_GEN 0) 0) s.cfgPrint 0x20 0x20)

/-- LINK_TRAINED: the link enters NEGOTIATE. -/
def execLinkTrained (link : Fin 36) (s : State) : Host.Outcome State Fault Refusal :=
  .next (if s.training link.val then (s.setLinkState link.val 2).sendNeg link.val else s)

/-- TRAINING_TIMEOUT. -/
def execTrainingTimeout (link : Fin 36) (s : State) : Host.Outcome State Fault Refusal :=
  .next (if s.training link.val then s.setLinkState link.val 5 else s)

/-- LINK_LOCK_LOSS: back to TRAINING (R362). -/
def execLinkLockLoss (link : Fin 36) (s : State) : Host.Outcome State Fault Refusal :=
  .next (if 2 ≤ s.linkState link.val ∧ s.linkState link.val ≤ 4 then s.setLinkState link.val 1 else s)

/-- The two ends of a link agree in generation, fingerprint and peer number (R364). -/
def State.linkAgrees (s : State) (l : Nat) : Bool :=
  let x := s.link l
  x.peerGen == s.fld (F.CFG_GEN 0) 0 && x.peerPrint == s.cfgPrint && s.fld F.LINK_PEER_DEV l == s.linkPeer l

/-- UP or QUARANTINED, as the two ends agree or not. -/
def State.linkJudge (s : State) (l : Nat) : State :=
  if s.linkAgrees l then (s.setFld F.LINK_LINK_STAT_FPRINT_MISMATCH l 0).setLinkState l 4
  else (s.setFld F.LINK_LINK_STAT_FPRINT_MISMATCH l 1).setLinkState l 3

/-- NEG (R363, R364). A link that is UP or QUARANTINED notes what its peer says; the latter returns at an edge. -/
def execNeg (link : Fin 36) (f : NegFlit) (s : State) : Host.Outcome State Fault Refusal :=
  let l := link.val
  let st := s.linkState l
  if st < 2 ∨ 4 < st then .next s
  else
    let x := s.link l
    let s1 := ((((s.addWrap F.LINK_RX_FLITS l 1).setFld F.LINK_PEER_DEV l f.peerDev.toNat).setFld F.LINK_LINK_STAT_PEER_LINK l f.peerLink.val).setLink l
      { x with peerGen := f.cfgGen.toNat, peerPrint := f.fprint.toNat })
    if st ≠ 2 then .next s1
    else if f.verLo ≤ 0x20 ∧ 0x20 ≤ f.verHi then
      .next (((s1.setFld F.LINK_LINK_STAT_VER_MAJOR l 2).setFld F.LINK_LINK_STAT_VER_MINOR l 0).linkJudge l)
    else .next (((s1.setFld F.LINK_LINK_STAT_VERSION_FAIL l 1).raise 8 l Ev.LINK_VERSION_FAIL).setLinkState l 5)

/-! ### Flits -/

/-- A retry on a link (R360): counted, and the link fails when RETRY_LIMIT of them pass without progress. -/
def State.linkRetry (s : State) (l n : Nat) : State :=
  let s1 := (s.countEv F.LINK_RETRY_CNT l 1 Ev.LINK_LINK_RETRY).setLink l { s.link l with retries := n }
  if s.fld F.LINK_LINK_CTL_RETRY_LIMIT l ≤ n then s1.setLinkState l 5 else s1

/-- A flit that a link has received leaves the replay buffer of its sender, as LACK says. -/
def LinkState.acked (x : LinkState) (lack : Nat) : List (Nat × Flit) :=
  match x.unacked.findIdx? fun e => e.1 == lack with
  | some k => x.unacked.drop (k + 1)
  | none => x.unacked

/-- A RETRY leaves with the LSEQ that the receiver expects (R360). -/
def State.sendRetry (s : State) (l : Nat) : State := (s.addWrap F.LINK_TX_FLITS l 1).emit (.retry l (s.link l).expSeq)

/-- What a port counts of an arriving flit: it, unless it is IDLE, and what its FEC reports (Table 12.7). -/
def State.flitSeen (s : State) (l : Nat) (f : Flit) : State :=
  let s1 := if f.kind.val = 0 then s else s.addWrap F.LINK_RX_FLITS l 1
  (s1.addSat F.LINK_FEC_CORR l f.fecCorr).addSat F.LINK_FEC_UNCORR l f.fecUncorr

/-- A flit in order goes to the operation that it is part of, or leaves by the next hop (R339, R340). -/
def State.forward (s : State) (l : Nat) (f : Flit) : State :=
  match s.nextHop f.dest.toNat with
  | none => s
  | some h =>
    match s.chooseLink h.links f.seq.toNat with
    | none => s.countEv F.HEDDLE_NO_ROUTE 0 1 Ev.HEDDLE_NO_ROUTE
    | some k =>
      let g : Flit := { f with vc := Fin.ofNat 5 (vcAfter f.vc.val (some (s.linkRole l).1) h), fecCorr := 0, fecUncorr := 0 }
      (s.linkSend k g).emit (.flit k (s.outFlit k g))

/-- FLIT_FORWARD (R339, R340, R360): a flit that fails its CRC, or is out of order behind one, is discarded; one for this device goes to the
operation that it is part of; others leave by the next hop. An IDLE flit goes nowhere. -/
def execFlitForward (link : Fin 36) (f : Flit) (s : State) : Host.Outcome State Fault Refusal :=
  let l := link.val
  let st := s.linkState l
  let x := s.link l
  if st ≠ 4 ∧ ¬ ((st = 2 ∨ st = 3) ∧ f.vc.val = 4) then .next s
  else
    let s1 := s.flitSeen l f
    if !flitOk f then .next ((s1.sendRetry l).linkRetry l (x.retries + 1))
    else if f.kind.val = 0 then .next (s1.setLink l { x with unacked := x.acked f.lack.toNat })
    else if f.lseq.toNat ≠ x.expSeq then .next s1
    else
      let s2 := s1.setLink l { x with expSeq := (x.expSeq + 1) % 4096, retries := 0, unacked := x.acked f.lack.toNat }
      .next (s2.forward l f)

/-- A flit of the replay buffer sent again as it was. -/
def State.resendFlit (s : State) (l : Nat) (f : Flit) : State := (s.addWrap F.LINK_TX_FLITS l 1).emit (.flit l f)

/-- RETRY (R360): every flit of the replay buffer from the LSEQ asked for is sent again; a request that moves on is progress. -/
def execRetry (link : Fin 36) (lseq : BitVec 12) (s : State) : Host.Outcome State Fault Refusal :=
  let l := link.val
  let x := s.link l
  if s.linkState l ≠ 4 ∧ s.linkState l ≠ 3 ∧ s.linkState l ≠ 2 then .next s
  else
    let again := x.retries != 0 && x.lastProgress == lseq.toNat
    let s1 := (s.addWrap F.LINK_RX_FLITS l 1).setLink l { x with lastProgress := lseq.toNat }
    let s2 := (x.unacked.dropWhile fun e => e.1 != lseq.toNat).foldl (fun t e => t.resendFlit l e.2) s1
    .next (s2.linkRetry l (if again then x.retries + 1 else 1))

/-! ### Credits and threading -/

/-- CREDIT (R352): the destination returns credits. -/
def execCredit (hid : Nat) (rep : Bool) (n : Nat) (s : State) : Host.Outcome State Fault Refusal :=
  let x := s.heddle hid
  if x.st = .threaded then
    let c := x.ctxOf hid rep
    .next ((s.setHeddle hid (x.setCtx hid rep { c with credits := c.credits + n })).sendWaiting hid)
  else .next s

/-- A heddle is held for a record of the set: threaded or being threaded to its peer in its partition. -/
def State.recHeld (s : State) (r : HedRec) : Bool :=
  let x := s.heddle r.hid
  (x.st == .threaded || x.st == .threading) && !x.session && !x.repairUse && x.peer == r.peer && x.part == r.part

/-- A record's heddle is threaded. -/
def State.recThreaded (s : State) (r : HedRec) : Bool := s.recHeld r && (s.heddle r.hid).st == .threaded

/-- The comparison of a compare pick begins on slice 8 once the heddles of the entry's set are threaded (R396). -/
def State.compareGo (s : State) : State :=
  if s.audit.comparing && !(s.coll 8).compare && s.pick.entry.heds.all s.recThreaded then s.compareBegin else s

/-- A record counted once in a pick as not threaded (R355). -/
def State.countExhaust (s : State) (k : Nat) : State :=
  if s.pick.exhausted.contains k then s
  else (({ s with pick := { s.pick with exhausted := insertNat s.pick.exhausted k } }).addSat F.HEDDLE_EXHAUST_CNT 0 1).raise 9 0
    Ev.HEDDLE_HEDDLE_EXHAUSTED

/-- A heddle that a partition can take only once a release in progress ends (R87): its record waits, and is not exhausted. -/
def State.heddleComing (s : State) (p : Nat) : Bool :=
  s.fab.heddles.any (fun e => sharedId e.1 && e.2.st == .releasing) &&
    ({ s with fab := { s.fab with heddles := s.fab.heddles.filter fun e => e.2.st != HedSt.releasing } }).heddleFree p

/-- The records of the entry's heddle set threaded in record order (R354, R355); a partition whose record cannot be threaded now goes no
further. -/
def State.threadFrom (s : State) : List HedRec → Nat → List Nat → State
  | [], _, _ => s
  | r :: t, k, stuck =>
    if s.recHeld r ∨ r.part ∈ stuck then s.threadFrom t (k + 1) stuck
    else if (s.heddle r.hid).st = .free ∧ s.heddleFree r.part = true then (s.beginThread r.hid r.peer r.part false).threadFrom t (k + 1) stuck
    else if (s.heddle r.hid).st = .releasing ∨ s.heddleComing r.part = true then s.threadFrom t (k + 1) (r.part :: stuck)
    else (s.countExhaust k).threadFrom t (k + 1) (r.part :: stuck)

/-- The current entry's heddle set threaded as far as it can be. -/
def State.threadSet (s : State) : State := s.threadFrom s.pick.entry.heds 0 []

/-- The highest free shared id below the session id range (R331). -/
def State.repairHeddle (s : State) : Option Nat :=
  ((rangeFrom 23 490).filter fun h => decide (h < s.sessBase) && (s.heddle h).st == .free).getLast?

/-- Why a partition has no shared heddle to take (R353). -/
def State.noHeddle (s : State) (p : Nat) : ThreadRefusal :=
  if s.fld F.PART_HEDDLE_QUOTA_QUOTA p ≤ s.inUse p then .quota else .pool

/-- THREAD (R353): accepted for a record of the current entry's set that names the requester in its partition, or for a repair, where quota
and pool have a heddle free; refused with a reason. The heddle of a record that this device itself threads counts as free. -/
def execThread (dev : BitVec 16) (peerId : BitVec 10) (rep : Bool) (part : Fin 8) (s : State) : Host.Outcome State Fault Refusal :=
  let p := part.val
  let d := dev.toNat
  let hid := if rep then s.repairHeddle
    else (s.pick.entry.heds.find? fun r => r.peer == d && r.part == p && !s.recThreaded r &&
      ((s.heddle r.hid).st == .free || s.recHeld r)).map (·.hid)
  match hid with
  | none => .next (s.sendMsg d (.thread (.refuse (if rep then .id else .undeclared)) d peerId.toNat))
  | some h =>
    let s1 := { s with fab := { s.fab with heddles := Tab.del s.fab.heddles h } }
    if s1.heddleFree p then .next ((s1.threadTo h d peerId.toNat p rep false).sendMsg d (.thread .accept d h)).compareGo
    else .next (s.sendMsg d (.thread (.refuse (s1.noHeddle p)) d peerId.toNat))

/-- RELEASE (R353): the peer asks to free a shared heddle. -/
def execRelease (hid : Nat) (s : State) : Host.Outcome State Fault Refusal :=
  let x := s.heddle hid
  .next (if sharedId hid = true ∧ x.session = false ∧ (x.st = .threaded ∨ x.st = .releasing ∨ x.st = .threading) then
    let s1 := s.dropRepairOps hid
    ({ s1 with fab := { s1.fab with heddles := Tab.del s1.fab.heddles hid } }).sendMsg x.peer (.thread .releaseAck x.peer hid)
  else s)

end Sys2Proof.Machine
end

