-- ==== Sys2Proof/Machine/Access.lean ====
section
/-! DEFINITION. Who may reach a register page: the agents of Table 2.4 with their partitions, and the checks of R29, R39, R42, R43, R305 and
R489 on an access to a page. -/
namespace Sys2Proof.Machine
open Sys2Proof

/-- An agent as an access carries it: its code, the partition that bounds it (none: no partition does; 8: it belongs to none), the page
that counts its failed accesses (none: an access from a remote device, which is counted there). -/
structure Access where
  code : Nat
  part : Option Nat := none
  page : Option (Nat × Nat) := none
deriving DecidableEq, Repr, Inhabited

/-- An agent's access (Table 2.4, R29). The sideband acts as agent 0x0D and counts on the BOOK page. -/
def State.accessOf (s : State) : Agent → Access
  | .block => ⟨0x00, none, some (17, 0)⟩
  | .pf => ⟨0x01, none, some (10, 0)⟩
  | .vf p => ⟨0x02 + p.val, some p.val, some (10, 0)⟩
  | .mgmt => ⟨0x0A, none, some (14, 0)⟩
  | .strand c => ⟨0x0B, some ((s.corePart c.val).getD 8), some (1, c.val)⟩
  | .remote => ⟨0x0C, none, none⟩
  | .unit => ⟨0x0D, none, some (17, 0)⟩

/-- The physical function and the management cores, which write every page (R42, R305). -/
def Access.isPriv (x : Access) : Bool := x.code == 0x01 || x.code == 0x0A

/-- The address of an offset of a page (R28). -/
def pageAddr (ty i off : Nat) : Nat := pageBase + ty * 2 ^ 22 + i * 2 ^ 12 + off

/-- The pages that the host reaches in Dormant (R489). -/
def dormantPages : List Nat := [0, 12, 14, 15, 17]

/-- Whether an access may reach a page: 0 it may, 1 unmapped (R39, R489), 2 blocked (R43), 7 not privileged (R42, R305). -/
def State.pageGate (s : State) (x : Access) (ty i : Nat) (write : Bool) : Nat :=
  if instances ty ≤ i then 1
  else if decide (1 ≤ x.code) && decide (x.code ≤ 9) && s.fld F.POWER_PWR_STAT_STATE 0 == 2 && !dormantPages.contains ty then 1
  else if ty = 1 ∨ ty = 5 then
    match x.part with
    | none => 0
    | some p => if s.pagePart ty i = some p then 0 else 2
  else if write && !x.isPriv then 7 else 0

/-- An access that a page refused, counted (R29, R42, R43). -/
def State.countGate (s : State) (x : Access) (g ty i off : Nat) : State :=
  if g = 7 then s.countErr ty i errPriv (pageAddr ty i off) x.code
  else match x.page with
    | some pg => s.countAccess pg g (pageAddr ty i off) x.code x.part
    | none => s

/-- An action that a write to a page's register asks for, where the agent may write the page. -/
def State.pageAct (s : State) (ag : Agent) (ty i off : Nat) (act : State → State) : State :=
  let x := s.accessOf ag
  let g := s.pageGate x ty i true
  if g = 0 then act s else s.countGate x g ty i off

end Sys2Proof.Machine
end

