-- ==== Sys2Proof/Machine/Cellar.lean ====
section
/-! DEFINITION. Commands of the memory system (chapter 10): regulators and privileged reads (R286 to R289), patrol scrub (R285), evictions
and host snoops (R302, R303), flushes and granule modes (R295, R299, R300). -/
namespace Sys2Proof.Machine
open Sys2Proof

/-! ### Stack controllers -/

/-- A stack controller. -/
def State.stack (s : State) (k : Nat) : StackState := Tab.get {} s.stackCtls k
def State.setStack (s : State) (k : Nat) (x : StackState) : State := { s with stackCtls := Tab.set s.stackCtls k x }

/-- The ceiling of a regulator's bucket (R286). -/
def State.burst (s : State) (k p : Nat) : Int := (s.fld (F.STACK_REG_BURST.nth p) k * 4096 : Nat)

/-- The tokens of a partition at a stack. -/
def State.tokens (s : State) (k p : Nat) : Int := Tab.get (s.burst k p) (s.stack k).tokens p

/-- The buckets of a stack filled up to a time: RATE / 1,024 of 2,048 bytes per ns, PCT percent of it for the privileged bucket. -/
def State.refill (s : State) (k ns : Nat) : State :=
  let x := s.stack k
  let dt := ns - x.ns
  s.setStack k { x with
    ns := max ns x.ns
    tokens := x.tokens.map fun e => (e.1, min (s.burst k e.1) (e.2 + (2 * s.fld (F.STACK_REG_RATE.nth e.1) k * dt : Nat)))
    priv := min 1638400 (x.priv + (512 * s.fld F.STACK_PRIV_CAP k * dt : Nat)) }

/-- An issued request: its bytes are counted. -/
def State.stackIssued (s : State) (k : Nat) (r : DramReq) : State :=
  let x := s.stack k
  s.setStack k { x with rd := x.rd + (if r.write then 0 else r.bytes), wr := x.wr + (if r.write then r.bytes else 0) }

/-- A request of a partition through its regulator (R286, R287): issued, or counted as waiting. -/
def State.ordinary (s : State) (k p : Nat) (r : DramReq) (tokensWaiting : Bool) : State × Bool :=
  let x := s.stack k
  let t := s.tokens k p
  if s.fld (F.STACK_REG_RATE.nth p) k = 1024 then (s.stackIssued k r, true)
  else if 0 < t ∨ (s.flag F.STACK_STK_CTL_WORK_CONSERVE k = true ∧ tokensWaiting = false) then
    ((s.setStack k { x with tokens := Tab.set x.tokens p (t - r.bytes), waited := x.waited.filter (· != p) }).stackIssued k r, true)
  else if x.waited.contains p then (s, false)
  else ((s.setStack k { x with waited := insertNat x.waited p }).addSat (F.STACK_REG_WAIT.nth p) k 1, false)

/-- DRAM_REQUEST_ISSUE (R286 to R289): a privileged read while its bucket holds bytes, any other request through its partition's regulator;
`tokensWaiting`: a partition with tokens has a waiting request. -/
def execDramRequestIssue (stack : Fin 16) (ns : Nat) (r : DramReq) (tokensWaiting : Bool) (s : State) : Host.Outcome State Fault Refusal :=
  let k := stack.val
  let s1 := s.refill k ns
  let cls := if r.write ∨ (r.cls.val = 2 ∧ s.flag F.PART_PART_CTL_SERVICE r.part.val = false) then 0 else r.cls.val
  let x := s1.stack k
  if cls = 0 then .next (s1.ordinary k r.part.val r tokensWaiting).1
  else if 0 < x.priv then .next ((s1.setStack k { x with priv := x.priv - 25 * r.bytes }).stackIssued k r)
  else
    let o := s1.ordinary k (if cls = 1 ∧ r.sched = true then 0 else r.part.val) r tokensWaiting
    .next (if o.2 then o.1.countEv F.STACK_PRIV_CAPPED k 1 Ev.STACK_PRIV_CAPPED else o.1)

/-- SCRUB_READ (R284, R285): one block of the stack read and checked; `pct` is the progress of the period, which begins again below the
last one. Scrub reads the block in the DRAM itself, also where a granule stands in for it. -/
def execScrubRead (stack : Fin 16) (addr : BitVec 48) (ecc : Ecc) (pct : Nat) (s : State) : Host.Outcome State Fault Refusal :=
  let k := stack.val
  let a := addr.toNat
  if s.flag F.STACK_STK_CTL_SCRUB_EN k = false ∨ regionOf a ≠ .dram k then .next s
  else
    let s1 := if pct < s.fld F.STACK_STK_STAT_SCRUB_POS k then s.addWrap F.STACK_SCRUB_PASSES k 1 else s
    let s2 := (s1.setFld F.STACK_STK_STAT_SCRUB_POS k pct).countEv F.STACK_CE_CNT k ecc.corr Ev.STACK_DRAM_CORR
    if ecc.uncorr = 0 then .next s2
    else
      let s3 := ((s2.stackAddr k a).addSat F.STACK_UE_CNT k 1).raise 4 k Ev.STACK_SCRUB_UNCORR
      .next { s3 with poison := insertNat s3.poison (a / 64) }

/-! ### Evictions and snoops -/

/-- The eviction buffer of a cellar die. -/
def State.evictBuf (s : State) (die : Nat) : List EvictEntry := Tab.get [] s.cellar.evict die
def State.setEvict (s : State) (die : Nat) (l : List EvictEntry) : State :=
  { s with cellar := { s.cellar with evict := Tab.set s.cellar.evict die l } }

/-- The state of half-line `half` (a 64-byte line number) in a cached line. -/
def CacheLine.half (l : CacheLine) (half : Nat) : Mesi := if half % 2 = 0 then l.lo else l.hi
def CacheLine.setHalf (l : CacheLine) (half : Nat) (x : Mesi) : CacheLine :=
  let l' : CacheLine := if half % 2 = 0 then { l with lo := x } else { l with hi := x }
  { l' with dirty := l'.lo == .m || l'.hi == .m }

/-- The cached lines that hold a host half-line: one, or one for each partition that shares it (R293). -/
def State.hostLines (s : State) (half : Nat) : List (Nat × CacheLine) :=
  s.cellar.lines.filter fun e => e.1 / 8 == half / 2 && e.2.half half != .i

/-- A host half-line's state changed; a line with both halves invalid leaves the cache. -/
def State.setHalf (s : State) (key : Nat) (l : CacheLine) (half : Nat) (x : Mesi) : State :=
  let l' := l.setHalf half x
  { s with cellar := { s.cellar with lines :=
      if l'.lo = .i ∧ l'.hi = .i then Tab.del s.cellar.lines key else Tab.set s.cellar.lines key l' } }

/-- A host half-line as a device address names it, on its home die. -/
def halfOf (die : Nat) (line : Nat) : Option Nat :=
  if regionOf line = .host ∧ homeDie line = die then some (line / 64) else none

/-- The 64 bytes of a host half-line. -/
def State.halfData (s : State) (half : Nat) : List Byte := memRead s.host.mem (half * 64 - hostBase) 64

/-- DIRTY_EVICT: the line that the cache evicts. A dirty host half moves to the eviction buffer of 64 entries (R302); a DRAM line leaves the
cache, written back where it is dirty (R293). -/
def execDirtyEvict (die : Fin 8) (line : BitVec 48) (s : State) : Host.Outcome State Fault Refusal :=
  let d := die.val
  match halfOf d line.toNat with
  | some h =>
    match (s.hostLines h).find? fun e => e.2.half h == .m with
    | some (k, l) =>
      if (s.evictBuf d).length < 64 then
        .next ((((s.setHalf k l h .i).setEvict d (s.evictBuf d ++ [{ half := h, data := s.halfData h }])).addWrap
          F.CELLAR_WB_CNT d 1).emit (.dirtyEvict line.toNat))
      else .next s
    | none => .next s
  | none =>
    let mine := fun (e : Nat × CacheLine) => e.1 / 8 == line.toNat / 128
    if regionOf line.toNat = .host ∨ homeDie line.toNat ≠ d then .next s
    else
      .next (({ s with cellar := { s.cellar with lines := s.cellar.lines.filter fun e => !mine e } }).addWrap F.CELLAR_WB_CNT d
        (s.cellar.lines.filter fun e => mine e && e.2.dirty).length)

/-- Snoop answers: 0 RspIHitI, 1 RspIFwdM, 2 RspIHitSE, 3 RspSHitSE, 4 RspSFwdM. -/
def snoopCode (inv : Bool) (x : Mesi) : Nat :=
  match x with
  | .i => 0
  | .m => if inv then 1 else 4
  | _ => if inv then 2 else 3

/-- HOST_SNOOP (R303): answered from the eviction buffer, or from the cache; `inv` says whether it invalidates. -/
def execHostSnoop (die : Fin 8) (line : BitVec 48) (inv : Bool) (s : State) : Host.Outcome State Fault Refusal :=
  let d := die.val
  let s1 := s.addWrap F.CELLAR_HSNP_CNT d 1
  match halfOf d line.toNat with
  | none => .next (s1.emit (.snoopAnswer line.toNat 0 []))
  | some h =>
    match (s1.evictBuf d).find? fun x => x.half == h with
    | some e =>
      .next (((s1.setEvict d ((s1.evictBuf d).map fun x => if x.half = h then { x with forwarded := true } else x)).addSat
        F.CELLAR_EVB_FWD d 1).emit (.snoopAnswer line.toNat 1 e.data))
    | none =>
      match s1.hostLines h with
      | [] => .next (s1.emit (.snoopAnswer line.toNat 0 []))
      | e :: rest =>
        let x : Mesi := if (e :: rest).any fun y => y.2.half h == .m then .m else e.2.half h
        .next (((e :: rest).foldl (fun t y => t.setHalf y.1 y.2 h (if inv then .i else .s)) s1).emit
          (.snoopAnswer line.toNat (snoopCode inv x) (if x = .m then s1.halfData h else [])))

/-! ### Flushes -/

/-- A cached line written back: clean, its host halves no longer M. -/
def CacheLine.clean (l : CacheLine) : CacheLine :=
  let e := fun (x : Mesi) => if x = .m then Mesi.e else x
  { l with dirty := false, lo := e l.lo, hi := e l.hi }

/-- Every dirty line that `f` names (by partition) and that is homed on a die written back, and counted. -/
def State.writeBack (s : State) (die : Nat) (f : Nat → Bool) : State :=
  let mine := fun (e : Nat × CacheLine) => e.2.dirty && homeDie (e.1 / 8 * 128) == die && f e.2.part
  ({ s with cellar := { s.cellar with lines := s.cellar.lines.map fun e => if mine e then (e.1, e.2.clean) else e } }).addWrap
    F.CELLAR_WB_CNT die (s.cellar.lines.filter mine).length

/-- CACHE_CTL.FLUSH written with 1. -/
def State.startFlush (s : State) (die : Nat) : State :=
  { s.setFld F.CELLAR_CACHE_CTL die 1 with cellar := { s.cellar with flushAll := insertNat s.cellar.flushAll die } }

/-- FLUSH (R300). -/
def execFlush (ag : Agent) (die : Fin 8) (s : State) : Host.Outcome State Fault Refusal :=
  .next (s.pageAct ag 3 die.val 0x0A0 fun t => t.startFlush die.val)

/-- FLUSH_DONE (R300): lines written during the flush are written back too. -/
def execFlushDone (die : Fin 8) (s : State) : Host.Outcome State Fault Refusal :=
  if s.cellar.flushAll.contains die.val then
    let s1 := { s with cellar := { s.cellar with flushAll := s.cellar.flushAll.filter (· != die.val) } }
    .next (((s1.writeBack die.val fun _ => true).setFld F.CELLAR_CACHE_CTL die.val 0).raise 3 die.val Ev.CELLAR_FLUSH_DONE)
  else .next s

/-! ### Granule modes -/

/-- The partition that owns a granule. -/
def State.granPart (s : State) (g : Nat) : Option Nat := (List.range 8).find? fun p => s.granOwned p g

/-- GRANULE_FLUSH_COMPLETE (R299). -/
def execGranuleFlushComplete (die : Fin 8) (gran : Fin 6) (s : State) : Host.Outcome State Fault Refusal :=
  let g := 6 * die.val + gran.val
  let x := s.granule g
  if x.flushing = true ∧ x.flushed = false then
    let s1 := if x.mode = 0 then s.writeBack die.val fun p => s.granPart g == some p else s
    .next ((s1.setGranule g { x with flushed := true }).raise 3 die.val Ev.CELLAR_FLUSH_DONE)
  else .next s

/-- The committed mode and binding of a granule. -/
def State.granMode (s : State) (g : Nat) : Nat := bitsOf (s.fld F.CELLAR_GRAN_MODE (g / 6)) (2 * (g % 6)) 2
def State.granBind (s : State) (g : Nat) : Nat := s.fld (F.CELLAR_ACC_BIND_BASE.nth (g % 6)) (g / 6)

/-- The 240 MiB of an accumulation buffer written to its bound range, poison with it (R295). -/
def State.unbind (s : State) (g bind : Nat) : State :=
  let w := windowBase + g * granBytes
  let d := bind * 2 ^ 24
  let inW := fun (a : Nat) => decide (w ≤ a) && decide (a < w + accBytes)
  let inD := fun (a : Nat) => decide (d ≤ a) && decide (a < d + accBytes)
  let moved := (s.mem.filter fun e => inW e.1).map fun e => (e.1 - w + d, e.2)
  let pz := ((s.poison.filter fun b => inW (b * 64)).map fun b => (b * 64 - w + d) / 64)
  { s with
    mem := moved.foldl (fun m e => memPut m e.1 e.2) (s.mem.filter fun e => !(inD e.1))
    poison := pz.foldl insertNat (s.poison.filter fun b => !(inD (b * 64)))
    cellar := { s.cellar with ledger := s.cellar.ledger.filter fun e => !(inD (e.1 * 128)) } }

/-- A granule enters a mode: what it holds stays where it is and carries no poison; ledger entries start empty (R294, R295). A partition that
has no cache left on the die holds no line there. -/
def State.enterMode (s : State) (g mode bind : Nat) : State :=
  let w := windowBase + g * granBytes
  let d := bind * 2 ^ 24
  let inD := fun (a : Nat) => decide (d ≤ a) && decide (a < d + accBytes)
  let s1 := s.setGranule g { mode := mode, bind := bind }
  let s2 := if mode = 2 then
      { s1 with
        poison := s1.poison.filter fun b => !(decide (w ≤ b * 64) && decide (b * 64 < w + granBytes))
        cellar := { s1.cellar with ledger := s1.cellar.ledger.filter fun e => !(inD (e.1 * 128)) } }
    else s1
  let keep := fun (e : Nat × CacheLine) => homeDie (e.1 / 8 * 128) != g / 6 || s2.hasCache e.2.part (g / 6)
  { s2 with cellar := { s2.cellar with lines := s2.cellar.lines.filter keep } }

/-- A granule whose mode or binding a commit has changed (R295, R299): it flushes where it leaves cache or accumulation mode or is rebound,
and enters its mode at once otherwise. -/
def State.granCommit (s : State) (g : Nat) : State :=
  let x := s.granule g
  let m := s.granMode g
  let b := s.granBind g
  if x.flushing then s
  else if x.mode = m ∧ (m ≠ 2 ∨ x.bind = b) then s
  else if x.mode = 1 then s.enterMode g m (if m = 2 then b else 0)
  else s.setGranule g { x with flushing := true, flushed := false }

/-- A granule at a pick edge: one whose flush has completed enters its new mode (R299). -/
def State.granEdge (s : State) (g : Nat) : State :=
  let x := s.granule g
  if x.flushing && x.flushed then
    let s1 := if x.mode = 2 then s.unbind g x.bind else s
    s1.enterMode g (s1.granMode g) (if s1.granMode g = 2 then s1.granBind g else 0)
  else s

/-- Every granule at a pick edge. -/
def State.granEdges (s : State) : State := (List.range 48).foldl (fun t g => t.granEdge g) s

/-- MODE_FLUSH_LATE at beat-up start (R299). -/
def State.flushLate (s : State) : State :=
  let late := (List.range 48).filter fun g => (s.granule g).flushing && !(s.granule g).flushed
  let s1 := ((late.map (· / 6)).foldl insertNat []).foldl (fun t d => t.raise 3 d Ev.CELLAR_MODE_FLUSH_LATE) s
  if late.isEmpty then s1 else s1.fault

end Sys2Proof.Machine
end

