-- ==== Sys2Proof/Machine/Ports.lean ====
section
/-! DEFINITION. The field ports (chapter 15): frames (R414), address resolution and echo (R415), the IEEE 1588 clock (R416, R417), link
state (R436). -/
namespace Sys2Proof.Machine
open Sys2Proof

/-- The management cores run: not after a boot that failed (R456), not in SHUTDOWN (R486). -/
def State.coresUp (s : State) : Bool := s.fld F.MGMT_MGMT_STAT_BOOT_STATE 0 != 3 && s.fld F.POWER_PWR_STAT_STATE 0 != 4

/-- A port that is enabled and whose link is up; in SHUTDOWN its clock has stopped (R486). -/
def State.portLive (s : State) (i : Nat) : Bool :=
  s.flag F.FIELD_PORT_CTL_ENABLE i && s.flag F.FIELD_PORT_STAT_LINK_UP i && s.fld F.POWER_PWR_STAT_STATE 0 != 4

/-- `n` frames sent on a port. -/
def State.txFrames (s : State) (i n : Nat) : State := s.addWrap F.FIELD_TX_FRAMES i n

/-- A frame sent by the management cores or the port: kind (1 ARP reply, 2 neighbour advertisement, 3 and 4 echo replies of IPv4 and
IPv6, 5 to 9 the PTP messages Sync, Follow_Up, Delay_Req, Delay_Resp, Announce), contents. -/
def State.sendFrame (s : State) (i kind : Nat) (data : List Byte) : State := (s.txFrames i 1).emit (.frame i kind data)

/-- The port's MAC address. -/
def State.macOf (s : State) (i : Nat) : Nat := s.fld F.FIELD_MAC_LO i + s.fld F.FIELD_MAC_HI i * 2 ^ 32

/-- The port's IPv6 address. -/
def State.ip6Of (s : State) (i : Nat) : Nat := ((List.range 4).map fun k => s.fld (F.FIELD_IP6_ADDR.nth k) i * 2 ^ (32 * k)).sum

/-- A frame that uses an option outside Table 15.1. -/
def State.frameUnsupported (s : State) (i : Nat) (f : FrameInfo) : Bool :=
  f.unsupported || f.ipOptions || f.fragment || !f.udp || decide (1 < f.vlanTags) || (f.vlanTags == 1 && !s.flag F.FIELD_PORT_CTL_VLAN_EN i) ||
    (f.vlanTags == 1 && f.vid.toNat != s.fld F.FIELD_PORT_CTL_VID i) || decide (s.fld F.FIELD_MTU i < f.bytes) ||
    !(f.dstPort == s.fld F.FIELD_TR_CTL_UDP_PORT 0 || f.dstPort == 319 || f.dstPort == 320)

/-- FRAME_RECEIVE (R414). -/
def execFrameReceive (port : Fin 2) (f : FrameInfo) (s : State) : Host.Outcome State Fault Refusal :=
  let i := port.val
  if !s.portLive i then .next s
  else
    let s1 := s.addWrap F.FIELD_RX_FRAMES i 1
    .next (if s.frameUnsupported i f then s1.addSat F.FIELD_RX_DROP i 1 else s1)

/-- ARP_REQUEST (R415): answered with the port's MAC address where it asks for the port's IPv4 address. -/
def execArpRequest (port : Fin 2) (target : Word) (sender : BitVec 48) (s : State) : Host.Outcome State Fault Refusal :=
  let i := port.val
  .next (if s.portLive i && s.coresUp && s.flag F.FIELD_IP4_CFG_V4_EN i && target.toNat == s.fld F.FIELD_IP4_ADDR i then
      s.sendFrame i 1 (toBe 6 (s.macOf i) ++ toBe 4 target.toNat ++ toBe 6 sender.toNat)
    else s)

/-- NEIGHBOR_SOLICITATION (R415). -/
def execNeighborSolicitation (port : Fin 2) (target : BitVec 128) (sender : BitVec 48) (s : State) : Host.Outcome State Fault Refusal :=
  let i := port.val
  .next (if s.portLive i && s.coresUp && s.flag F.FIELD_IP6_CFG_V6_EN i && target.toNat == s.ip6Of i then
      s.sendFrame i 2 (toBe 6 (s.macOf i) ++ toBe 16 target.toNat ++ toBe 6 sender.toNat)
    else s)

/-- ECHO_REQUEST (R415): the data comes back to its sender. -/
def execEchoRequest (src : NetAddr) (v6 : Bool) (data : List Byte) (s : State) : Host.Outcome State Fault Refusal :=
  let i := src.port.val
  let on := if v6 then s.flag F.FIELD_IP6_CFG_V6_EN i else s.flag F.FIELD_IP4_CFG_V4_EN i
  .next (if s.portLive i && s.coresUp && on then s.sendFrame i (if v6 then 4 else 3) (toBe (if v6 then 16 else 4) src.ip.toNat ++ data) else s)

/-! ### IEEE 1588 -/

def State.ptp (s : State) (i : Nat) : PtpState := Tab.get {} s.field.ptp i
def State.setPtp (s : State) (i : Nat) (p : PtpState) : State := { s with field := { s.field with ptp := Tab.set s.field.ptp i p } }

/-- The port is a time receiver (1) or a grandmaster (2). -/
def State.ptpRole (s : State) (i r : Nat) : Bool := s.portLive i && s.fld F.FIELD_PTP_CTL_ROLE i == r

/-- A signed register of 32 bits that saturates. -/
def sat32 (i : Int) : Nat := wrapInt 32 (max (-(2 : Int) ^ 31) (min i ((2 : Int) ^ 31 - 1)))

/-- The pick number of the first edge after TAI instant `t` (R78). -/
def State.ptpPick (s : State) (t : Int) : Nat :=
  let epoch : Int := (s.fld F.PICK_PTP_EPOCH_LO 0 + s.fld F.PICK_PTP_EPOCH_HI 0 * 2 ^ 32 : Nat)
  ((t - epoch) / (max 1 s.periodNs : Nat) + 1).toNat

/-- A Sync with its times known (R416, R417): the offset, 16 within 100 ns lock the time receiver; a pick source on this port that is not
locked yet then locks and takes its pick number from PTP time (R78). A device in holdover keeps counting (R80). -/
def State.syncDone (s : State) (i t1 t2 : Nat) : State :=
  let p := s.ptp i
  let off : Int := (t2 : Int) - (t1 : Int) - p.delay
  let good := if off.natAbs ≤ 100 then p.good + 1 else 0
  let lock := !p.locked && decide (16 ≤ good)
  let s1 := (s.setPtp i { p with t1 := t1, t2 := t2, waitFollowUp := false, offset := off, good := good, locked := p.locked || lock }).setFld
    F.FIELD_PTP_OFFSET i (sat32 off)
  if (p.locked || lock) && s1.fld F.PICK_PICK_SRC_SOURCE 0 == 2 + i && !s1.flag F.PICK_SRC_STAT_LOCKED 0 &&
      !s1.flag F.PICK_SRC_STAT_HOLDOVER 0 then
    let n := s1.ptpPick (t1 + p.delay)
    let s2 := s1.setFld F.PICK_SRC_STAT_LOCKED 0 1
    { s2 with pick := { s2.pick with adopt := some n } }
  else s1

/-- PTP_SYNC (R416): `t2` is the port's timestamp; the time of a two-step Sync comes with its Follow_Up. -/
def execPtpSync (port : Fin 2) (twoStep : Bool) (t1 t2 : Nat) (s : State) : Host.Outcome State Fault Refusal :=
  let i := port.val
  .next (if s.ptpRole i 1 then
      (if twoStep then s.setPtp i { s.ptp i with t2 := t2, waitFollowUp := true } else s.syncDone i t1 t2)
    else s)

/-- PTP_FOLLOW_UP (R416). -/
def execPtpFollowUp (port : Fin 2) (t1 : Nat) (s : State) : Host.Outcome State Fault Refusal :=
  let i := port.val
  .next (if s.ptpRole i 1 && (s.ptp i).waitFollowUp then s.syncDone i t1 (s.ptp i).t2 else s)

/-- PTP_DELAY_REQ (R416): a grandmaster answers with the time at which it received the request. -/
def execPtpDelayReq (port : Fin 2) (rx : Nat) (s : State) : Host.Outcome State Fault Refusal :=
  .next (if s.ptpRole port.val 2 then s.sendFrame port.val 8 (toBe 10 rx) else s)

/-- PTP_DELAY_RESP (R416): `t3` is when the request left, `t4` when the grandmaster received it; the mean path delay follows. -/
def execPtpDelayResp (port : Fin 2) (t3 t4 : Nat) (s : State) : Host.Outcome State Fault Refusal :=
  let i := port.val
  let p := s.ptp i
  let d : Int := (((p.t2 : Int) - (p.t1 : Int)) + ((t4 : Int) - (t3 : Int))) / 2
  .next (if s.ptpRole i 1 then (s.setPtp i { p with t3 := t3, delay := d }).setFld F.FIELD_PTP_PATH i d.toNat else s)

/-- PTP_ANNOUNCE (R416): the lower priority1, then the lower clock identity, is the better grandmaster. -/
def execPtpAnnounce (port : Fin 2) (priority1 : BitVec 8) (clock : Dword) (s : State) : Host.Outcome State Fault Refusal :=
  let i := port.val
  let p := s.ptp i
  let better := match p.best with
    | none => true
    | some b => decide (priority1.toNat < b.1) || (priority1.toNat == b.1 && decide (clock.toNat < b.2))
  .next (if s.ptpRole i 1 && better then s.setPtp i { p with best := some (priority1.toNat, clock.toNat) } else s)

/-- PTP_LOCK_LOST (R417). -/
def execPtpLockLost (port : Fin 2) (s : State) : Host.Outcome State Fault Refusal :=
  let i := port.val
  let p := s.ptp i
  .next (if p.locked then (s.setPtp i { p with locked := false, good := 0, waitFollowUp := false }).raise 11 i Ev.FIELD_PTP_LOCK_LOST else s)

/-- PTP_MESSAGE_INTERVAL (R416): kind 0 Sync and its Follow_Up (a port transmits two-step), 1 Announce, 2 Delay_Req; `ts` is the time at
which the event message leaves. -/
def execPtpMessageInterval (port : Fin 2) (kind : Fin 3) (ts : Nat) (s : State) : Host.Outcome State Fault Refusal :=
  let i := port.val
  .next (match kind.val with
    | 0 => if s.ptpRole i 2 then (s.sendFrame i 5 []).sendFrame i 6 (toBe 10 ts) else s
    | 1 => if s.ptpRole i 2 then s.sendFrame i 9 [BitVec.ofNat 8 (s.fld F.FIELD_PTP_CTL_PRIORITY1 i)] else s
    | _ => if s.ptpRole i 1 then (s.setPtp i { s.ptp i with t3 := ts }).sendFrame i 7 [] else s)

/-! ### Link state -/

/-- PORT_UP (R436). -/
def execPortUp (port : Fin 2) (s : State) : Host.Outcome State Fault Refusal :=
  let i := port.val
  .next (if s.flag F.FIELD_PORT_CTL_ENABLE i && !s.flag F.FIELD_PORT_STAT_LINK_UP i then
      ((s.setFld F.FIELD_PORT_STAT_LINK_UP i 1).setFld F.FIELD_PORT_STAT_FEC_LOCK i 1).raise 11 i Ev.FIELD_PORT_UP
    else s)

/-- A port's link goes down. -/
def State.portDown (s : State) (i : Nat) : State :=
  if s.flag F.FIELD_PORT_STAT_LINK_UP i then
    ((s.setFld F.FIELD_PORT_STAT_LINK_UP i 0).setFld F.FIELD_PORT_STAT_FEC_LOCK i 0).raise 11 i Ev.FIELD_PORT_DOWN
  else s

/-- PORT_DOWN (R436). -/
def execPortDown (port : Fin 2) (s : State) : Host.Outcome State Fault Refusal := .next (s.portDown port.val)

end Sys2Proof.Machine
end

