-- ==== Sys2Proof/Machine/Book.lean ====
section
/-! DEFINITION. The cellar book (R470 to R472): where a record stands, its bytes (Table 17.7), the writing of queued records, reads of a
record and its copies, the power-up scan, firmware records. -/
namespace Sys2Proof.Machine
open Sys2Proof

/-- The index of record `seq` (R470). -/
def bookIndex (seq : Nat) : Nat := if seq ≤ 1024 then seq - 1 else 1024 + (seq - 1025) % 130048

/-- The 64 bytes of a record (Table 17.7). -/
def recordBytes (seq flags : Nat) (r : QRec) : List Byte :=
  let b := toLe 6 seq ++ [BitVec.ofNat 8 r.ty, BitVec.ofNat 8 flags] ++ toLe 6 r.pick ++ toLe 2 r.boot ++ toLe 6 r.work ++
    [BitVec.ofNat 8 r.page, BitVec.ofNat 8 r.evt] ++ toLe 2 r.inst ++ [0, 0] ++ toLe 4 r.phase ++ padTo 28 r.data
  b ++ toLe 4 (crc32c b)

/-- A copy is valid when its CRC-32C matches (R470). -/
def copyValid (b : List Byte) : Bool := b.length == 64 && leNat (b.drop 60) == crc32c (b.take 60)

/-- The sequence number of a copy. -/
def copySeq (b : List Byte) : Nat := leNat (b.take 6)

/-- What a reader sees of an index: the record, whether each copy is valid, which one is used (0 A, 1 B), whether the index is empty. -/
structure BookView where
  data : List Byte := List.replicate 64 0
  aValid : Bool := false
  bValid : Bool := false
  used : Nat := 0
  empty : Bool := true
deriving DecidableEq, Repr, Inhabited

/-- A read of index `i`: copy 0 by R470, 1 A, 2 B (Table 17.12). -/
def State.bookView (s : State) (i copy : Nat) : BookView :=
  let a := Tab.get [] s.book.a i
  let b := Tab.get [] s.book.b i
  let va := copyValid a
  let vb := copyValid b
  let used := if copy = 1 then 0 else if copy = 2 then 1
    else if va && vb then (if copySeq a < copySeq b then 1 else 0) else if vb then 1 else 0
  { data := padTo 64 (if used = 0 then a else b), aValid := va, bValid := vb, used := used, empty := !va && !vb }

/-- A record written to copy A and then to copy B (R470, R472); it takes its sequence number here, and the flags HOLDUP and DROPPED. -/
def State.writeRecord (s : State) (holdup : Bool) (r : QRec) : State :=
  let seq := s.book.nextSeq
  let flags := bit holdup + 2 * bit s.book.dropped + r.flags
  let bytes := recordBytes seq flags r
  { s with book := { s.book with
      a := Tab.set s.book.a (bookIndex seq) bytes
      b := Tab.set s.book.b (bookIndex seq) bytes
      nextSeq := (seq + 1) % 2 ^ 48
      dropped := false } }

/-- The first ready record of the queue, with the queue without it. -/
def takeReady : List QRec → Option (QRec × List QRec)
  | [] => none
  | r :: t => if r.ready then some (r, t) else (takeReady t).map fun x => (x.1, r :: x.2)

/-- The book writes the next ready record (R472). It writes once its scan is done. -/
def State.bookWriteNext (s : State) (holdup : Bool) : State :=
  match takeReady s.book.queue with
  | some (r, rest) => { s with book := { s.book with queue := rest } }.writeRecord holdup r
  | none => s

/-- BOOK_RECORD_WRITE (R472). -/
def execBookRecordWrite (s : State) : Host.Outcome State Fault Refusal :=
  .next (if s.flag F.BOOK_BOOK_STAT_READY 0 then s.bookWriteNext false else s)

/-- The indices at which a copy is listed. -/
def BookState.indices (b : BookState) : List Nat := ((b.a.map (·.1)) ++ (b.b.map (·.1))).foldl insertNat []

/-- The two copies of an index disagree (R470). -/
def BookState.disagree (b : BookState) (i : Nat) : Bool :=
  let x := Tab.get [] b.a i
  let y := Tab.get [] b.b i
  (copyValid x != copyValid y) || (copyValid x && copyValid y && x != y)

/-- BOOK_SCAN_DONE (R470, R472): the next sequence number follows the highest valid one, each index whose copies disagree counts once. -/
def execBookScanDone (s : State) : Host.Outcome State Fault Refusal :=
  let idx := s.book.indices
  let high := idx.foldl (fun m i =>
    let x := Tab.get [] s.book.a i
    let y := Tab.get [] s.book.b i
    max m (max (if copyValid x then copySeq x else 0) (if copyValid y then copySeq y else 0))) 0
  let s1 := { s with book := { s.book with nextSeq := (high + 1) % 2 ^ 48 } }
  .next ((s1.countEv F.BOOK_CRC_ERR 0 (idx.filter s.book.disagree).length Ev.BOOK_BOOK_CRC).setFld F.BOOK_BOOK_STAT_READY 0 1)

/-- FW_CMD.APPEND: FW_DATA queued as a FIRMWARE record; one that the physical function appends carries HOST (R471). -/
def State.append (s : State) (pf : Bool) : State :=
  let data := (List.range 7).flatMap fun k => toLe 4 (s.fld (F.BOOK_FW_DATA.nth k) 0)
  let r : QRec := { s.bookRec 0x0C data with flags := if pf then 4 else 0 }
  s.bookPush r

/-- A RESET record (Table 17.8): kind, partition or page type, instance. -/
def State.resetRec (s : State) (kind ty inst : Nat) : State :=
  s.bookPush (s.bookRec 0x0B ([BitVec.ofNat 8 kind, BitVec.ofNat 8 ty] ++ toLe 2 inst))

/-- A SECURITY record (Table 17.8): its code. The spec does not state the detail: it is a free value. -/
def State.secRec (s : State) (code : Nat) : State :=
  let d := s.draw
  d.2.bookPush (d.2.bookRec 0x0A ([BitVec.ofNat 8 code, 0, 0, 0] ++ toLe 4 (Config.free d.1)))

end Sys2Proof.Machine
end

