-- ==== Sys2Proof/Machine/HostQueue.lean ====
section
/-! DEFINITION. The host port's functions, MSI-X (R445) and command queues (R446 to R450), link loss and function reset (R452). -/
namespace Sys2Proof.Machine
open Sys2Proof

/-! ### Functions -/

/-- The agent that function `fn` is (R440): 0 the PF, `f` the VF of partition `f - 1`. -/
def fnAgent (fn : Nat) : Nat := fn + 1

/-- The partition that a function's accesses are checked against. -/
def fnPart (fn : Nat) : Option Nat := if fn = 0 then none else some (fn - 1)

/-- A function completes requests: the link is up, and a VF's partition is enabled (R442). -/
def State.fnLive (s : State) (fn : Nat) : Bool :=
  s.flag F.HOST_LINK_STAT_LINK_UP 0 && (fn == 0 || s.flag F.PART_PART_CTL_ENABLE (fn - 1))

/-- The device is in Dormant, where the host reaches some register pages and nothing else (R489). -/
def State.dormant (s : State) : Bool := s.fld F.POWER_PWR_STAT_STATE 0 == 2

/-- An access that failed, counted on the HOST page (Table 2.4). -/
def State.hostCount (s : State) (fn : Nat) (x : Acs) : State := s.accessDone (10, 0) (fnAgent fn) (fnPart fn) x

/-! ### Host memory -/

/-- Bytes written to host memory by the device, poisoned or not. -/
def State.hostWrite (s : State) (a : Nat) (b : List Byte) (pz : Bool := false) : State :=
  { s with host := { s.host with
      mem := memWrite s.host.mem a b
      poison := if b.isEmpty then s.host.poison
        else (rangeFrom (a / 64) ((a + b.length - 1) / 64 - a / 64 + 1)).foldl (fun l k => poisonAfter l k 1 pz) s.host.poison } }

/-- Bytes of host memory. -/
def State.hostRead (s : State) (a n : Nat) : List Byte := memRead s.host.mem a n

/-! ### MSI-X -/

/-- MSIX_UNMASK (R445): a vector that is unmasked sends its pending message. -/
def State.msixUnmask (s : State) (vec : Nat) : State :=
  let s1 := { s with host := { s.host with unmasked := insertNat s.host.unmasked vec } }
  if s1.host.pba.contains vec then
    ({ s1 with host := { s1.host with pba := s1.host.pba.filter (· != vec) } }).emit (.msix vec)
  else s1

def execMsixUnmask (vec : Fin 2048) (s : State) : Host.Outcome State Fault Refusal := .next (s.msixUnmask vec.val)

/-- A 4-byte word of a function's MSI-X table written: bit 0 of the fourth word of an entry masks its vector. -/
def State.msixWrite (s : State) (fn off v : Nat) : State :=
  let n := off / 16
  let k := off % 16 / 4
  if (if fn = 0 then 1024 else 128) ≤ n then s
  else
    let vec := vectorOf fn n
    if k = 3 then
      (if v % 2 = 0 then s.msixUnmask vec else { s with host := { s.host with unmasked := s.host.unmasked.filter (· != vec) } })
    else { s with host := { s.host with msix := Tab.set s.host.msix (4 * vec + k) v } }

/-! ### Queue blocks -/

/-- The queue pair exists: the PF has 16, each VF has 8. -/
def queueExists (fn q : Nat) : Bool := decide (q < (if fn = 0 then 16 else 8))

def State.queue (s : State) (fn q : Nat) : QueueState := Tab.get {} s.host.queues (16 * fn + q)
def State.setQueue (s : State) (fn q : Nat) (x : QueueState) : State :=
  { s with host := { s.host with queues := Tab.set s.host.queues (16 * fn + q) x } }

/-- A queue as ENABLE going from 0 to 1 leaves it (R447). -/
def QueueState.restart (x : QueueState) : QueueState :=
  { x with sqHead := 0, sqTail := 0, cqHead := 0, cqTail := 0, cqUsed := 0, phase := true, error := false, waiting := false, done := none }

/-- A queue that stops (R448): no further completion is written. -/
def QueueState.stop (x : QueueState) : QueueState := { x with enable := false, waiting := false, done := none }

/-- A write of Q_CFG (R446): while ENABLE = 1 only ENABLE takes it. -/
def State.queueCfg (s : State) (fn q cfg : Nat) : State :=
  let x := s.queue fn q
  let en := bitOf cfg 31
  if x.enable then (if en then s else s.setQueue fn q x.stop)
  else
    let x1 : QueueState := { x with sqLog := bitsOf cfg 0 4, cqLog := bitsOf cfg 4 4, vector := bitsOf cfg 8 10, irqEn := bitOf cfg 18, enable := en }
    s.setQueue fn q (if en then x1.restart else x1)

/-- A command or a doorbell that fails counts in CMD_ERR. -/
def State.cmdErr (s : State) : State := s.countEv F.HOST_CMD_ERR 0 1 Ev.HOST_CMD_ERR

/-- A write of SQ_TAIL (R447). -/
def State.sqTailWrite (s : State) (fn q tail : Nat) : State :=
  let x := s.queue fn q
  let t := tail % 4096
  if 2 ^ x.sqLog ≤ t then (s.setQueue fn q { x with error := true }).cmdErr else s.setQueue fn q { x with sqTail := t }

/-- A write of CQ_HEAD (R447): the entries before it are free. -/
def State.cqHeadWrite (s : State) (fn q head : Nat) : State :=
  let x := s.queue fn q
  let h := head % 4096
  if 2 ^ x.cqLog ≤ h then (s.setQueue fn q { x with error := true }).cmdErr
  else s.setQueue fn q { x with cqHead := h, cqUsed := x.cqUsed - (h + 2 ^ x.cqLog - x.cqHead) % 2 ^ x.cqLog }

/-- A 4-byte write to a queue block (Table 16.3). -/
def State.queueWrite (s : State) (fn q off v : Nat) : State :=
  let x := s.queue fn q
  let put := fun (y : QueueState) => if x.enable then s else s.setQueue fn q y
  match off with
  | 0x00 => put { x with sqBase := x.sqBase / 2 ^ 32 * 2 ^ 32 + v / 64 * 64 }
  | 0x04 => put { x with sqBase := v * 2 ^ 32 + x.sqBase % 2 ^ 32 }
  | 0x08 => put { x with cqBase := x.cqBase / 2 ^ 32 * 2 ^ 32 + v / 16 * 16 }
  | 0x0C => put { x with cqBase := v * 2 ^ 32 + x.cqBase % 2 ^ 32 }
  | 0x10 => s.queueCfg fn q v
  | 0x14 => s.sqTailWrite fn q v
  | 0x18 => s.cqHeadWrite fn q v
  | _ => s

/-- A write through BAR4 of a function (Table 16.2): the MSI-X table, or a queue block; the PBA is read only. -/
def State.bar4Write (s : State) (fn off size v : Nat) : State :=
  if !s.fnLive fn then s.emit (.unsupported fn)
  else if s.dormant then s.hostCount fn ⟨1, 0⟩
  else
    let one := fun (t : State) (o w : Nat) =>
      if o < 0x4000 then t.msixWrite fn o w
      else if 0x8000 ≤ o ∧ queueExists fn ((o - 0x8000) / 64) = true then t.queueWrite fn ((o - 0x8000) / 64) ((o - 0x8000) % 64) w
      else t
    if off % 4 ≠ 0 then s
    else if size = 8 then one (one s off (v % 2 ^ 32)) (off + 4) (v / 2 ^ 32)
    else if size = 4 then one s off (v % 2 ^ 32) else s

/-- A write to a queue block that exists of a live function; in Dormant it is handled under R29 (R489). -/
def State.queueGate (s : State) (fn q : Nat) (act : State → State) : State :=
  if s.fnLive fn && queueExists fn q then (if s.dormant then s.hostCount fn ⟨1, 0⟩ else act s) else s

/-- QUEUE_ENABLE (R446 to R448). -/
def execQueueEnable (fn : Fin 9) (q : Fin 16) (cfg : Word) (s : State) : Host.Outcome State Fault Refusal :=
  .next (s.queueGate fn.val q.val fun t => t.queueCfg fn.val q.val cfg.toNat)

/-- SQ_DOORBELL (R447); `hostWrites` is what the host has written to its memory before it rings (log entry 33). -/
def execSqDoorbell (fn : Fin 9) (q : Fin 16) (tail : Word) (hostWrites : List (Nat × List Byte)) (s : State) :
    Host.Outcome State Fault Refusal :=
  let s1 := hostWrites.foldl (fun t w => t.hostWrite w.1 w.2) s
  .next (s1.queueGate fn.val q.val fun t => t.sqTailWrite fn.val q.val tail.toNat)

/-- CQ_DOORBELL (R447). -/
def execCqDoorbell (fn : Fin 9) (q : Fin 16) (head : Word) (s : State) : Host.Outcome State Fault Refusal :=
  .next (s.queueGate fn.val q.val fun t => t.cqHeadWrite fn.val q.val head.toNat)

/-! ### Commands (Table 16.4) -/

/-- A queue command. -/
structure QCmd where
  opc : Nat
  cid : Nat
  host : Nat
  dev : Nat
  len : Nat
  value : Nat
  bad : Bool
deriving DecidableEq, Repr

/-- The command that 64 bytes spell; it is BAD_CMD where a reserved field or code is used, or LENGTH is out of its range. -/
def qcmdOf (b : List Byte) : QCmd :=
  let f := fun (o n : Nat) => leNat ((b.drop o).take n)
  let opc := f 0 1
  let len := f 24 8
  { opc := opc, cid := f 2 2, host := f 8 8, dev := f 16 6, len := len, value := f 32 8
    bad := decide (7 ≤ opc) || f 1 1 != 0 || f 4 4 != 0 || f 22 2 != 0 || f 40 24 != 0 ||
      (decide (1 ≤ opc) && decide (opc ≤ 4) && (len == 0 || decide (2 ^ 40 < len))) || ((opc == 5 || opc == 6) && len != 8) }

/-- The command at the head of a queue that may execute. -/
def State.nextCmd (s : State) (fn q : Nat) : Option QCmd :=
  let x := s.queue fn q
  if s.fnLive fn && queueExists fn q && x.enable && !x.error && x.done.isNone && x.sqHead != x.sqTail then
    some (qcmdOf (s.hostRead (x.sqBase + 64 * x.sqHead) 64))
  else none

/-- A command's outcome kept for its completion. -/
def State.cmdDone (s : State) (fn q : Nat) (c : QCmd) (status info : Nat) : State :=
  s.setQueue fn q { s.queue fn q with waiting := false, done := some ⟨c.cid, status, info⟩ }

/-- A device range as a queue command reaches it: register pages are not reached (R40); in Dormant no memory is (R489). -/
def State.cmdCheck (s : State) (fn : Nat) (write : Bool) (a n : Nat) : Acs :=
  if s.dormant then ⟨1, a⟩ else
  let bad := (pieces a n).filter fun x => s.check (fnPart fn) write (a + x.1) != 0 || regionOf (a + x.1) == .page
  match bad with
  | [] => ⟨0, a⟩
  | x :: _ => let y := s.checkAll (fnPart fn) write a n; if y.st = 0 then ⟨1, a + x.1⟩ else ⟨y.st, a + x.1⟩

/-- The command of a row: `body` runs it; a reserved one, whatever the row, ends as BAD_CMD. -/
def State.queueCmd (s : State) (fn q opc : Nat) (body : QCmd → State) : State :=
  match s.nextCmd fn q with
  | none => s
  | some c =>
    if c.bad then s.cmdDone fn q c 1 0
    else if c.opc ≠ opc then s
    else body c

/-- What a device-side access gives: UNMAPPED with the first failing address, or what follows. -/
def State.devSide (s : State) (fn q : Nat) (c : QCmd) (write : Bool) (go : State → State) : State :=
  let x := s.cmdCheck fn write c.dev c.len
  if s.accWaits write c.dev c.len then s.askHost write c.dev c.len
  else
    let t := go ((s.hostCount fn x).touch (fnPart fn) write c.dev c.len)
    if x.st = 0 then t else t.cmdDone fn q c 2 x.addr

/-- QUEUE_NOP (R449). -/
def execQueueNop (fn : Fin 9) (q : Fin 16) (s : State) : Host.Outcome State Fault Refusal :=
  .next (s.queueCmd fn.val q.val 0 fun c => s.cmdDone fn.val q.val c 0 0)

/-- COPY_IN (R449): host bytes to device memory. -/
def execCopyIn (fn : Fin 9) (q : Fin 16) (hostErr : Bool) (s : State) : Host.Outcome State Fault Refusal :=
  .next (s.queueCmd fn.val q.val 1 fun c =>
    if hostErr then s.cmdDone fn.val q.val c 3 c.host
    else s.devSide fn.val q.val c true fun t =>
      (t.writeMem (fnPart fn.val) c.dev (t.hostRead c.host c.len)).cmdDone fn.val q.val c 0 c.len)

/-- COPY_OUT (R449): device bytes to host memory; poisoned ones leave in poisoned TLPs. -/
def execCopyOut (fn : Fin 9) (q : Fin 16) (hostErr : Bool) (s : State) : Host.Outcome State Fault Refusal :=
  .next (s.queueCmd fn.val q.val 2 fun c =>
    if hostErr then s.cmdDone fn.val q.val c 3 c.host
    else s.devSide fn.val q.val c false fun t =>
      let r := t.readMem (fnPart fn.val) c.dev c.len
      let t1 := (pieces 0 c.len).foldl (fun u x =>
        u.hostWrite (c.host + x.1) ((r.data.drop x.1).take x.2) ((dataBlocks x.1 x.2).any r.poison.contains)) t
      match r.poison with
      | [] => t1.cmdDone fn.val q.val c 0 c.len
      | b :: _ => t1.cmdDone fn.val q.val c 4 (c.dev + 64 * b))

/-- FILL (R449): VALUE repeated over the device range. -/
def execFill (fn : Fin 9) (q : Fin 16) (s : State) : Host.Outcome State Fault Refusal :=
  .next (s.queueCmd fn.val q.val 3 fun c => s.devSide fn.val q.val c true fun t =>
    (t.writeMem (fnPart fn.val) c.dev (((List.range ((c.len + 7) / 8)).flatMap fun _ => toLe 8 c.value).take c.len)).cmdDone fn.val q.val c 0 c.len)

/-- DIGEST (R449): the SHA-256 of the device range goes to the host. -/
def execDigest (fn : Fin 9) (q : Fin 16) (hostErr : Bool) (s : State) : Host.Outcome State Fault Refusal :=
  .next (s.queueCmd fn.val q.val 4 fun c =>
    if hostErr then s.cmdDone fn.val q.val c 3 c.host
    else s.devSide fn.val q.val c false fun t =>
      let r := t.readMem (fnPart fn.val) c.dev c.len
      match r.poison with
      | [] => if r.acs.st = 0 then (t.hostWrite c.host (sha256 r.data)).cmdDone fn.val q.val c 0 c.len else t
      | b :: _ => t.cmdDone fn.val q.val c 4 (c.dev + 64 * b))

/-- A SIG or WAIT word that is not 8-byte aligned is unmapped (R342). -/
def State.wordCmd (s : State) (fn q : Nat) (c : QCmd) (write : Bool) (go : State → State) : State :=
  if c.dev % 8 = 0 then s.devSide fn q c write go else (s.hostCount fn ⟨1, c.dev⟩).cmdDone fn q c 2 c.dev

/-- QUEUE_SIG (R449): VALUE added to the device word. -/
def execQueueSig (fn : Fin 9) (q : Fin 16) (s : State) : Host.Outcome State Fault Refusal :=
  .next (s.queueCmd fn.val q.val 5 fun c => s.wordCmd fn.val q.val c true fun t =>
    let r := t.readMem none c.dev 8
    (t.writeMem (fnPart fn.val) c.dev (toLe 8 (leNat r.data + c.value)) r.poison).cmdDone fn.val q.val c 0 8)

/-- QUEUE_WAIT (R449): the command executes until the device word is at least VALUE. -/
def execQueueWait (fn : Fin 9) (q : Fin 16) (s : State) : Host.Outcome State Fault Refusal :=
  .next (s.queueCmd fn.val q.val 6 fun c => s.wordCmd fn.val q.val c false fun t =>
    if c.value ≤ leNat (t.readMem (fnPart fn.val) c.dev 8).data then t.cmdDone fn.val q.val c 0 8
    else t.setQueue fn.val q.val { t.queue fn.val q.val with waiting := true })

/-- COMMAND_COMPLETE (R447, R450): the completion entry is written where its slot is free; SQ_HEAD moves on. -/
def execCommandComplete (fn : Fin 9) (q : Fin 16) (s : State) : Host.Outcome State Fault Refusal :=
  let x := s.queue fn.val q.val
  match x.done with
  | none => .next s
  | some d =>
    if !x.enable || x.error || decide (2 ^ x.cqLog ≤ x.cqUsed) || !s.fnLive fn.val then .next s
    else
      let head := (x.sqHead + 1) % 2 ^ x.sqLog
      let s1 := s.hostWrite (x.cqBase + 16 * x.cqTail)
        (toLe 2 d.cid ++ toLe 2 head ++ toLe 1 d.status ++ toLe 1 (bit x.phase) ++ toLe 2 0 ++ toLe 8 d.info)
      let tail := (x.cqTail + 1) % 2 ^ x.cqLog
      let s2 := s1.setQueue fn.val q.val { x with
        done := none, sqHead := head, cqTail := tail, cqUsed := x.cqUsed + 1, phase := if tail = 0 then !x.phase else x.phase }
      let s3 := s2.addWrap F.HOST_CMD_CNT 0 1
      let s4 := if d.status = 0 then s3 else s3.cmdErr
      .next (if x.irqEn then s4.msix (vectorOf fn.val x.vector) else s4)

/-! ### Link loss and function reset (R452) -/

/-- Every queue of the functions that `f` names stops. -/
def State.stopQueues (s : State) (f : Nat → Bool) : State :=
  { s with host := { s.host with queues := s.host.queues.map fun e => if f (e.1 / 16) then (e.1, e.2.stop) else e } }

/-- Every queue of the functions that `f` names as at reset. -/
def State.resetQueues (s : State) (f : Nat → Bool) : State :=
  { s with host := { s.host with queues := s.host.queues.filter fun e => !f (e.1 / 16) } }

/-- The host link goes down. -/
def State.linkDownHost (s : State) : State :=
  if s.flag F.HOST_LINK_STAT_LINK_UP 0 then
    ((s.setFld F.HOST_LINK_STAT_LINK_UP 0 0).stopQueues fun _ => true).raise 10 0 Ev.HOST_LINK_DOWN
  else s

/-- HOST_LINK_DOWN (R452). -/
def execHostLinkDown (s : State) : Host.Outcome State Fault Refusal := .next s.linkDownHost

/-- HOST_LINK_UP (R452): the link's speed code, width and CXL modes as negotiated; every queue starts with ENABLE = 0. -/
def execHostLinkUp (speed : Fin 8) (width : Fin 32) (cxl cacheEn memEn : Bool) (s : State) : Host.Outcome State Fault Refusal :=
  .next ((((((s.setFld F.HOST_LINK_STAT_SPEED 0 speed.val).setFld F.HOST_LINK_STAT_WIDTH 0 width.val).setFld F.HOST_LINK_STAT_LINK_UP 0 1).setFld
    F.HOST_LINK_STAT_CXL 0 (bit cxl)).setFld F.HOST_LINK_STAT_CACHE_EN 0 (bit cacheEn)).setFld F.HOST_LINK_STAT_MEM_EN 0 (bit memEn)
    |>.stopQueues fun _ => true)

/-- The PF's own registers as an FLR leaves them: BAR2_MAP and EVT_VEC. -/
def State.flrRegs (s : State) : State :=
  let drop := fun (t : State) (f : Fld) (n : Nat) =>
    (List.range n).foldl (fun u k => { u with regs := Tab.del u.regs ((f.nth k).key 0) }) t
  drop (drop (drop s F.HOST_BAR2_MAP_LO 9) F.HOST_BAR2_MAP_HI 9) F.HOST_EVT_VEC 19

/-- FLR (R448, R452). -/
def execFlr (fn : Fin 9) (s : State) : Host.Outcome State Fault Refusal :=
  .next (if fn.val = 0 then (s.resetQueues fun _ => true).flrRegs else s.resetQueues fun f => f == fn.val)

end Sys2Proof.Machine
end

