-- ==== Sys2Proof/Machine/Kkt.lean ====
section
/-! DEFINITION. The arithmetic of a solver engine (R249, R250, R257 to R263, R276): pivots and factorisations in binary32, triangular solves,
refinement against binary64 matrices on the matrix-vector path, and the interior-point method. Where the spec gives a value by its formula
but not the order of its roundings, the forms that an engine may take are told apart by the free `Config.solverForm` (log entry 8). -/
namespace Sys2Proof.Machine
open Sys2Proof

/-- A result of the binary32 lanes, and of the binary64 ones (R249). -/
def rnd32 (v : Val) : Val := f32 (roundTo 4 0 0 false 0 v).bits
def rnd64 (v : Val) : Val := decodeVal 5 0 (roundTo 5 0 0 false 0 v).bits

/-- The bits of a binary32 and of a binary64 value. -/
def bits32 (v : Val) : Nat := (roundTo 4 0 0 false 0 v).bits
def bits64 (v : Val) : Nat := (roundTo 5 0 0 false 0 v).bits

/-- The largest magnitude of a list; a NaN gives NaN. -/
def maxAbs (l : List Val) : Val := l.foldl (fun m v => Val.pick true m v.abs) Val.zero

/-- The exact sum of products. -/
def exactDot (a b : List Val) : Val := (a.zip b).foldl (fun s p => Val.add 0 s (Val.mul p.1 p.2)) Val.zero

/-- ½. -/
def half : Val := .fin false 1 2

/-! ### Pivots (Table 9.4) -/

/-- The case of the pivot rule that applies, 1 to 5. `pos` is σ = +1. -/
def pivotCase (dj theta : Val) (pos : Bool) : Nat :=
  match dj with
  | .fin neg n _ =>
    if n = 0 then 2
    else if Val.cmp dj.abs theta = some .lt then 3
    else if neg = pos then 4 else 5
  | _ => 1

/-- A negative value. -/
def Val.isNeg : Val → Bool
  | .fin neg n _ => neg && n != 0
  | .inf neg => neg
  | .nan => false

/-- The pivot that the engine goes on with: ±δ where the rule regularises it. -/
def pivotUsed (delta dj : Val) (pos : Bool) (case : Nat) : Val :=
  if case = 2 then (if pos then delta else delta.neg) else if case = 3 then (if dj.isNeg then delta.neg else delta) else dj

/-- θ = τ × hmax, rounded to binary32; hmax is the largest |h|, 1 where H is zero (R259, R261). -/
def pivotTheta (tau : Nat) (h : List Val) : Val :=
  let big := maxAbs h
  rnd32 (Val.mul (f32 tau) (if big.isZero then Val.one else big))

/-! ### Factorisations (R250, R261, R276) -/

/-- A column of a factor: its pivot after the rule, the multipliers below it; for LU also the row right of the pivot and the row that came up
for it. -/
structure FactorCol where
  d : Val
  l : List Val
  u : List Val := []
  swap : Nat := 0
deriving DecidableEq, Repr

/-- A factorisation: its columns, the indices of the regularised pivots in order, and the case that ended it (1 NUMERIC, 4 NONCONVEX). -/
structure Factored where
  cols : List FactorCol := []
  reg : List Nat := []
  stop : Option Nat := none
deriving DecidableEq, Repr

/-- The rule of one pivot: its case and the pivot used. -/
abbrev PivotRule := Nat → Val → Nat × Val

/-- The rule with threshold θ and replacement δ; `pos j dj` says σ = +1. -/
def pivotRule (theta delta : Val) (pos : Nat → Val → Bool) : PivotRule := fun j dj =>
  let c := pivotCase dj theta (pos j dj)
  (c, pivotUsed delta dj (pos j dj) c)

/-- A column taken into a factorisation, or its end. -/
def Factored.push (j : Nat) (p : Nat × Val) (col : FactorCol) (rest : Factored) : Factored :=
  { rest with cols := col :: rest.cols, reg := if p.1 = 5 then rest.reg else j :: rest.reg }

/-- The product that column `j` takes from entry (i, k) of the trailing matrix, from the entries `(a, l)` of both rows before and after the
scaling: the lanes round it with the subtraction (R249). -/
def trailTerm (d : Val) (x y : Val × Val) : Val :=
  match Config.solverForm 0 % 3 with
  | 0 => Val.mul x.2 y.1
  | 1 => Val.mul x.1 y.2
  | _ => Val.mul (rnd32 (Val.mul x.2 d)) y.2

/-- LΔLᵀ of the lower triangle `rows`, whose first column is column `j` (R250): the column is scaled by the rounded reciprocal of its pivot,
then every trailing column updated with it. -/
def ldl (rule : PivotRule) : Nat → Nat → List (List Val) → Factored
  | 0, _, _ => {}
  | _ + 1, _, [] => {}
  | f + 1, j, r :: rest =>
    let p := rule j (r.headD Val.zero)
    if p.1 = 1 ∨ p.1 = 4 then { stop := some p.1 }
    else
      let inv := rnd32 (Val.div Val.one p.2)
      let col := rest.map fun x => (x.headD Val.zero, rnd32 (Val.mul (x.headD Val.zero) inv))
      let next := (rest.zip col).map fun x => (x.1.tail.zip col).map fun y => rnd32 (Val.sub 0 y.1 (trailTerm p.2 x.2 y.2))
      (ldl rule f (j + 1) next).push j p { d := p.2, l := col.map (·.2) }

/-- The first place of the largest magnitude. -/
def largestAt (l : List Val) : Nat :=
  (l.zipIdx.foldl (fun (m : Nat × Val) x => if Val.cmp m.2 x.1.abs = some .lt then (x.2, x.1.abs) else m) (0, (l.headD Val.zero).abs)).1

/-- A list with its first element and the one at `k` exchanged. -/
def swapHead {α : Type} (k : Nat) (l : List α) : List α :=
  match l[0]?, l[k]? with
  | some a, some b => (l.set k a).set 0 b
  | _, _ => l

/-- LU of full rows with partial pivoting by rows (R276). -/
def lu (rule : PivotRule) : Nat → Nat → List (List Val) → Factored
  | 0, _, _ => {}
  | f + 1, j, rows =>
    let k := largestAt (rows.map (·.headD Val.zero))
    match swapHead k rows with
    | [] => {}
    | r :: rest =>
      let p := rule j (r.headD Val.zero)
      if p.1 = 1 ∨ p.1 = 4 then { stop := some p.1 }
      else
        let inv := rnd32 (Val.div Val.one p.2)
        let l := rest.map fun x => rnd32 (Val.mul (x.headD Val.zero) inv)
        let next := (rest.zip l).map fun x => (x.1.tail.zip r.tail).map fun y => rnd32 (Val.sub 0 y.1 (Val.mul x.2 y.2))
        (lu rule f (j + 1) next).push j p { d := p.2, l := l, u := r.tail, swap := k }

/-! ### Triangular solves and refinement (R263) -/

/-- Forward substitution, with the row exchanges of an LU. -/
def forwardSub : List FactorCol → List Val → List Val
  | [], _ => []
  | c :: cs, b =>
    match swapHead c.swap b with
    | [] => []
    | z :: r => z :: forwardSub cs ((r.zip c.l).map fun x => rnd32 (Val.sub 0 x.1 (Val.mul x.2 z)))

/-- A value less its products with the unknowns already found. -/
def subProducts (w : Val) (l xs : List Val) : Val :=
  let t := l.zip xs
  (if Config.solverForm 2 % 2 = 0 then t.reverse else t).foldl (fun a p => rnd32 (Val.sub 0 a (Val.mul p.1 p.2))) w

/-- A division by a pivot: by the divide unit, or by the lanes with its reciprocal. -/
def pivotDiv (z d : Val) : Val :=
  if Config.solverForm 1 % 2 = 0 then rnd32 (Val.div z d) else rnd32 (Val.mul z (rnd32 (Val.div Val.one d)))

/-- Back substitution; `isLu` divides by the pivots here and takes the rows right of them. -/
def backSub (isLu : Bool) : List FactorCol → List Val → List Val
  | c :: cs, w :: ws =>
    let xs := backSub isLu cs ws
    (if isLu then pivotDiv (subProducts w c.u xs) c.d else subProducts w c.l xs) :: xs
  | _, _ => []

/-- The solution of LΔLᵀx = b, or of LUx = b, in binary32. -/
def Factored.solve (f : Factored) (isLu : Bool) (b : List Val) : List Val :=
  let z := forwardSub f.cols b
  backSub isLu f.cols (if isLu then z else (z.zip f.cols).map fun x => pivotDiv x.1 x.2.d)

/-- `b - A x` by RESID, or by MV with `b` = 0 its negative, on a path with window `L`: the exact values with their lees. -/
def pathResid (L : Nat) (a : List (List Val)) (x b : List Val) : List (Val × Bool) :=
  (a.zip b).map fun r =>
    let el := mvAccum L ((r.1.zip x).map fun t => (t.1, t.2, false))
    (Val.sub 0 r.2 (el.val L), el.lees)

/-- Refinement steps (R263): the residual rounded to odd, its correction, the sum in binary64; says whether a RESID returned lees. -/
def refine (L : Nat) (a : List (List Val)) (solve : List Val → List Val) (b : List Val) : Nat → List Val → Bool → List Val × Bool
  | 0, x, lees => (x, lees)
  | n + 1, x, lees =>
    let r := pathResid L a x b
    let c := solve (r.map fun v => f32 (roundTo 4 0 4 false 0 v.1).bits)
    refine L a solve b n ((x.zip c).map fun v => rnd64 (Val.add 0 v.1 v.2)) (lees || r.any (·.2))

/-- A solve with `steps` refinement steps against the binary64 matrix `a`. -/
def kktSolve (L steps : Nat) (a : List (List Val)) (f : Factored) (isLu : Bool) (b : List Val) : List Val × Bool :=
  refine L a (f.solve isLu) b steps (f.solve isLu (b.map rnd32)) false

/-! ### Rows (R257) -/

/-- The class of a row by its bounds. -/
inductive RowClass where
  | free | equality | lower | upper | both | infeasible | nan
deriving DecidableEq, Repr

/-- The class of a row with bounds `l` and `u`. -/
def rowClass (l u : Val) : RowClass :=
  match l, u with
  | .nan, _ => .nan
  | _, .nan => .nan
  | .inf true, .inf false => .free
  | .inf true, .inf true => .infeasible
  | .inf true, _ => .upper
  | .inf false, _ => .infeasible
  | _, .inf true => .infeasible
  | _, .inf false => .lower
  | _, _ => match Val.cmp l u with
    | some .eq => .equality
    | some .gt => .infeasible
    | _ => .both

/-- The rows that are not free (R258). -/
def liveRows (rows : List RowClass) : Nat := (rows.filter (· != .free)).length

/-- The slack and the dual of a bound, binary64. -/
structure Bound where
  s : Val
  y : Val
deriving DecidableEq, Repr

/-- A row of the problem that is not free: its coefficients and bounds, the slack and dual of each bound that it has (none for an equality
row, which has a multiplier instead). -/
structure QpRow where
  a : List Val
  l : Val
  u : Val
  cls : RowClass
  lo : Option Bound := none
  up : Option Bound := none
  mult : Val := Val.zero
deriving DecidableEq, Repr

/-- The row's multiplier y = y_u - y_l (R258). -/
def QpRow.y (r : QpRow) : Val :=
  if r.cls = .equality then r.mult
  else rnd64 (Val.sub 0 ((r.up.map (·.y)).getD Val.zero) ((r.lo.map (·.y)).getD Val.zero))

/-- y/s of a bound. -/
def Bound.ratio (b : Bound) : Val := rnd64 (Val.div b.y b.s)

/-- The entry of D (R258, R259): zero for an equality row. -/
def QpRow.d (r : QpRow) : Val :=
  match r.lo, r.up with
  | none, none => Val.zero
  | some p, none => rnd64 (Val.div Val.one p.ratio)
  | none, some q => rnd64 (Val.div Val.one q.ratio)
  | some p, some q => rnd64 (Val.div Val.one (rnd64 (Val.add 0 p.ratio q.ratio)))

/-- The bounds that a row has. -/
def QpRow.bounds (r : QpRow) : List Bound := r.lo.toList ++ r.up.toList

/-- A problem: H full and symmetric, g. -/
structure QpData where
  h : List (List Val)
  g : List Val
deriving DecidableEq, Repr

/-- Its iterate. -/
structure QpIter where
  x : List Val
  rows : List QpRow
deriving DecidableEq, Repr

/-- The matrix K of an iterate (R258). -/
def kktMatrix (q : QpData) (it : QpIter) : List (List Val) :=
  let me := it.rows.length
  (q.h.zipIdx.map fun r => r.1 ++ it.rows.map fun a => a.a.getD r.2 Val.zero) ++
    it.rows.zipIdx.map fun r => r.1.a ++ (List.range me).map fun j => if j = r.2 then r.1.d.neg else Val.zero

/-- The factorisation of K (R261): binary32, in the order of R258, σ by the block. -/
def factorK (n : Nat) (theta delta : Val) (k : List (List Val)) : Factored :=
  ldl (pivotRule theta delta fun j _ => decide (j < n)) k.length 0 (k.zipIdx.map fun r => (r.1.take (r.2 + 1)).map rnd32)

/-! ### Convergence (R260) -/

/-- ½ xᵀHx + gᵀx, exact. -/
def objective (q : QpData) (x : List Val) : Val :=
  Val.add 0 (Val.mul half (exactDot x (q.h.map fun r => exactDot r x))) (exactDot q.g x)

/-- The exact distances of a row from its bounds that PRES measures. -/
def QpRow.misses (r : QpRow) (x : List Val) : List Val :=
  let ax := exactDot r.a x
  if r.cls = .equality then [Val.sub 0 ax r.l]
  else r.lo.toList.map (fun b => Val.sub 0 (Val.sub 0 ax r.l) b.s) ++ r.up.toList.map fun b => Val.sub 0 (Val.sub 0 r.u ax) b.s

/-- A finite value. -/
def Val.finite : Val → Bool
  | .fin .. => true
  | _ => false

/-- The number of bounds on rows that are not equality rows, and the exact μ. -/
def QpIter.boundCount (it : QpIter) : Nat := (it.rows.flatMap QpRow.bounds).length
def QpIter.mu (it : QpIter) : Val :=
  let bs := it.rows.flatMap QpRow.bounds
  if bs.isEmpty then Val.zero else Val.div (exactDot (bs.map (·.s)) (bs.map (·.y))) (Val.ofInt bs.length)

/-- PRES, DRES, GAP and OBJ of an iterate, each rounded once to binary64. -/
structure QpMeasure where
  pres : Nat
  dres : Nat
  gap : Nat
  obj : Nat
deriving DecidableEq, Repr

/-- A value over 1 plus a magnitude. -/
def scaledBy (v m : Val) : Nat := bits64 (Val.div v (Val.add 0 Val.one m))

def QpIter.measure (it : QpIter) (q : QpData) : QpMeasure :=
  let ys := it.rows.map QpRow.y
  let grad := q.h.zipIdx.map fun r =>
    Val.add 0 (Val.add 0 (exactDot r.1 it.x) (q.g.getD r.2 Val.zero)) (exactDot (it.rows.map fun a => a.a.getD r.2 Val.zero) ys)
  let f := objective q it.x
  { pres := scaledBy (maxAbs (it.rows.flatMap (·.misses it.x))) (maxAbs ((it.rows.flatMap fun r => [r.l, r.u]).filter Val.finite))
    dres := scaledBy (maxAbs grad) (maxAbs q.g)
    gap := scaledBy it.mu f.abs
    obj := bits64 f }

/-- A binary64 quantity is at most EPS. -/
def atMost (x eps : Nat) : Bool :=
  match Val.cmp (decodeVal 5 0 x) (f32 eps) with
  | some .gt => false
  | some _ => true
  | none => false

/-- The iterate has converged. -/
def QpMeasure.converged (m : QpMeasure) (eps : Nat) : Bool := atMost m.pres eps && atMost m.dres eps && atMost m.gap eps

/-! ### A Newton step (R259) -/

/-- The changes of a bound's slack and dual. -/
abbrev BoundMove := Val × Val

/-- The residuals of an iterate, formed on the path: minus the gradient; for every row l - Ax (or zero), and u - Ax (or zero). -/
structure QpResid where
  grad : List Val
  lo : List Val
  up : List Val
  lees : Bool
deriving DecidableEq, Repr

/-- A finite bound; zero where there is none, so that its RESID is not used. -/
def finOr (v : Val) : Val := if v.finite then v else Val.zero

def QpIter.resid (it : QpIter) (q : QpData) (L : Nat) : QpResid :=
  let kp := q.h.zipIdx.map fun r => r.1 ++ it.rows.map fun a => a.a.getD r.2 Val.zero
  let g := pathResid L kp (it.x ++ it.rows.map QpRow.y) (q.g.map Val.neg)
  let lo := pathResid L (it.rows.map (·.a)) it.x (it.rows.map fun r => finOr r.l)
  let up := pathResid L (it.rows.map (·.a)) it.x (it.rows.map fun r => finOr r.u)
  { grad := g.map fun v => rnd64 v.1, lo := lo.map fun v => rnd64 v.1, up := up.map fun v => rnd64 v.1
    lees := g.any (·.2) || lo.any (·.2) || up.any (·.2) }

/-- What a bound's dual changes by: (t - s·y - y·ds) / s, in the order t/s - y - (y/s)·ds. -/
def Bound.dualMove (b : Bound) (t ds : Val) : Val :=
  rnd64 (Val.sub 0 (rnd64 (Val.sub 0 (rnd64 (Val.div t b.s)) b.y)) (rnd64 (Val.mul b.ratio ds)))

/-- The target of a bound's product, less the second-order term of a predictor. -/
def secondOrder (target : Val) : Option BoundMove → Val
  | none => target
  | some m => rnd64 (Val.sub 0 target (rnd64 (Val.mul m.1 m.2)))

/-- A row of a Newton step: what the residuals say of its slacks, its targets, its right side. -/
structure NewtonRow where
  row : QpRow
  rhoLo : Val
  rhoUp : Val
  tLo : Val
  tUp : Val
  rhs : Val
deriving DecidableEq, Repr

/-- The row's part of a Newton system whose slacks are eliminated: A dx - d dy = -d c. -/
def newtonRow (r : QpRow) (resLo resUp target : Val) (aff : Option (BoundMove × BoundMove)) : NewtonRow :=
  let rhoLo := (rnd64 (Val.add 0 resLo ((r.lo.map (·.s)).getD Val.zero))).neg
  let rhoUp := rnd64 (Val.sub 0 resUp ((r.up.map (·.s)).getD Val.zero))
  let tLo := secondOrder target (aff.map (·.1))
  let tUp := secondOrder target (aff.map (·.2))
  let c := rnd64 (Val.sub 0 ((r.up.map fun b => b.dualMove tUp rhoUp).getD Val.zero) ((r.lo.map fun b => b.dualMove tLo rhoLo).getD Val.zero))
  { row := r, rhoLo := rhoLo, rhoUp := rhoUp, tLo := tLo, tUp := tUp
    rhs := if r.cls = .equality then resLo else (rnd64 (Val.mul r.d c)).neg }

/-- A step: dx; for every row the moves of its lower and upper bound and of its multiplier. -/
structure QpStep where
  dx : List Val
  rows : List (BoundMove × BoundMove × Val)
  lees : Bool
deriving DecidableEq, Repr

/-- A Newton step toward `target`, with the predictor's second-order terms where `aff` is given. -/
def newton (L steps : Nat) (k : List (List Val)) (f : Factored) (it : QpIter) (r : QpResid) (target : Val) (aff : Option QpStep) : QpStep :=
  let nr := it.rows.zipIdx.map fun x =>
    newtonRow x.1 (r.lo.getD x.2 Val.zero) (r.up.getD x.2 Val.zero) target
      (aff.bind fun a => a.rows[x.2]?.map fun m => (m.1, m.2.1))
  let sol := kktSolve L steps k f false (r.grad ++ nr.map (·.rhs))
  let dx := sol.1.take it.x.length
  let dy := sol.1.drop it.x.length
  let adx := pathResid L (it.rows.map (·.a)) dx (it.rows.map fun _ => Val.zero)
  let rows := nr.zipIdx.map fun x =>
    let v := rnd64 ((adx.getD x.2 (Val.zero, false)).1.neg)
    let dl := rnd64 (Val.add 0 v x.1.rhoLo)
    let du := rnd64 (Val.sub 0 x.1.rhoUp v)
    let lo := match x.1.row.lo with
      | some b => (dl, b.dualMove x.1.tLo dl)
      | none => (Val.zero, Val.zero)
    let up := match x.1.row.up with
      | some b => (du, b.dualMove x.1.tUp du)
      | none => (Val.zero, Val.zero)
    (lo, up, dy.getD x.2 Val.zero)
  { dx := dx, rows := rows, lees := sol.2 || adx.any (·.2) }

/-- The pairs of a value that stays positive and its change. -/
def stepPairs (it : QpIter) (st : QpStep) : List (Val × Val) :=
  (it.rows.zip st.rows).flatMap fun x =>
    (x.1.lo.toList.flatMap fun b => [(b.s, x.2.1.1), (b.y, x.2.1.2)]) ++ x.1.up.toList.flatMap fun b => [(b.s, x.2.2.1.1), (b.y, x.2.2.1.2)]

/-- The step to the boundary; infinite where nothing falls. -/
def stepToBoundary (it : QpIter) (st : QpStep) : Val :=
  (stepPairs it st).foldl (fun m p => if p.2.isNeg then Val.pick false m (rnd64 (Val.div p.1 p.2.neg)) else m) (.inf false)

/-- A value moved by `a` times its change: a binary64 multiply-add. -/
def moved (a v dv : Val) : Val := rnd64 (Val.add 0 v (Val.mul a dv))

/-- An iterate after a step `a` along `st`. -/
def QpIter.along (it : QpIter) (st : QpStep) (a : Val) : QpIter :=
  { x := (it.x.zip st.dx).map fun v => moved a v.1 v.2
    rows := (it.rows.zip st.rows).map fun r =>
      { r.1 with
        lo := r.1.lo.map fun b => { s := moved a b.s r.2.1.1, y := moved a b.y r.2.1.2 }
        up := r.1.up.map fun b => { s := moved a b.s r.2.2.1.1, y := moved a b.y r.2.2.1.2 }
        mult := moved a r.1.mult r.2.2.2 } }

/-- The step length of the predictor: to the boundary, at most 1 where the form says so or where nothing falls (log entry 8). -/
def affineStep (b : Val) : Val :=
  if Config.solverForm 3 % 2 = 0 ∨ b = .inf false then Val.pick false Val.one b else b

/-- One iteration's new iterate (R259): predictor, target, corrector, step. -/
def qpIterate (L steps : Nat) (k : List (List Val)) (f : Factored) (it : QpIter) (r : QpResid) : QpIter × Bool :=
  let aff := newton L steps k f it r Val.zero none
  let mu := rnd64 it.mu
  let ratio := rnd64 (Val.div (rnd64 (it.along aff (affineStep (stepToBoundary it aff))).mu) mu)
  let cube := rnd64 (Val.mul (rnd64 (Val.mul ratio ratio)) ratio)
  let target := if it.boundCount = 0 then Val.zero else rnd64 (Val.mul cube mu)
  let cc := newton L steps k f it r target (some aff)
  let a := Val.pick false Val.one (rnd64 (Val.mul (decodeVal 5 0 0x3FEFAE147AE147AE) (stepToBoundary it cc)))
  (it.along cc a, aff.lees || cc.lees)

/-- How the method has ended: the case of a pivot that ended it (none where it converged or reached its limit), the final iterate, the
last matrix with its factorisation, the iterations. -/
structure QpEnd where
  stop : Option Nat := none
  converged : Bool := false
  it : QpIter
  last : Option (List (List Val) × Factored) := none
  reg : Bool := false
  lees : Bool := false
  iters : Nat := 0
deriving DecidableEq, Repr

/-- The parameters of the method. -/
structure QpParams where
  n : Nat
  L : Nat
  steps : Nat
  theta : Val
  delta : Val
  eps : Nat
deriving DecidableEq, Repr

/-- The interior-point method (R259) with `fuel` iterations left. -/
def qpLoop (p : QpParams) (q : QpData) : Nat → QpEnd → QpEnd
  | 0, e => e
  | fuel + 1, e =>
    let r := e.it.resid q p.L
    let e1 := { e with iters := e.iters + 1, lees := e.lees || r.lees }
    if (e.it.measure q).converged p.eps then { e1 with converged := true }
    else
      let k := kktMatrix q e.it
      let f := factorK p.n p.theta p.delta k
      let e2 := { e1 with last := some (k, f), reg := e1.reg || !f.reg.isEmpty }
      if f.stop.isSome then { e2 with stop := f.stop }
      else
        let n := qpIterate p.L p.steps k f e.it r
        qpLoop p q fuel { e2 with it := n.1, lees := e2.lees || n.2 }

/-! ### Batched systems (R276) -/

/-- What a batch has come to: the solutions so far, the case of a pivot that ended it, the first regularised pivot (system, index), the
regularised pivots in all and of the last system. -/
structure LinEnd where
  xs : List Val := []
  stop : Option Nat := none
  first : Option (Nat × Nat) := none
  total : Nat := 0
  final : Nat := 0
  lees : Bool := false
deriving DecidableEq, Repr

/-- One system: its factorisation and solution. `sym` takes the lower triangle, full rows of which are `a`. -/
def linSystem (L steps : Nat) (sym : Bool) (tau : Nat) (delta : Val) (a : List (List Val)) (b : List Val) : Factored × List Val × Bool :=
  let lower := a.zipIdx.map fun r => r.1.take (r.2 + 1)
  let theta := pivotTheta tau (if sym then lower.flatten else a.flatten)
  let pos := fun (_ : Nat) (d : Val) => sym || !d.isNeg
  let f := if sym then ldl (pivotRule theta delta pos) a.length 0 (lower.map fun r => r.map rnd32)
    else lu (pivotRule theta delta pos) a.length 0 (a.map fun r => r.map rnd32)
  let x := kktSolve L steps a f (!sym) b
  (f, x.1, x.2)

/-- The systems of a batch in order, up to one that a pivot ends. -/
def linLoop (L steps : Nat) (sym : Bool) (tau : Nat) (delta : Val) : Nat → List (List (List Val) × List Val) → LinEnd → LinEnd
  | _, [], e => e
  | s, (a, b) :: rest, e =>
    let r := linSystem L steps sym tau delta a b
    let e1 := { e with
      first := e.first.or (r.1.reg.head?.map fun j => (s, j)), total := e.total + r.1.reg.length, final := r.1.reg.length
      lees := e.lees || r.2.2 }
    if r.1.stop.isSome then { e1 with stop := r.1.stop }
    else linLoop L steps sym tau delta (s + 1) rest { e1 with xs := e1.xs ++ r.2.1 }

end Sys2Proof.Machine
end

