-- ==== Sys2Proof/Machine/Solver.lean ====
section
/-! DEFINITION. The solver engines (chapter 9): solve descriptors (R255, R256), what a descriptor reads, its outcome (the method is in
Machine/Kkt.lean), the work area (R264, R265), adjoint outputs (R266, R267), completion (R269 to R272). -/
namespace Sys2Proof.Machine
open Sys2Proof

/-! ### Descriptors -/

/-- A solve descriptor (Table 9.3). -/
structure SolveDesc where
  kind : Nat
  retain : Bool
  warm : Nat
  pair : Bool
  dlLate : Bool
  inFmt : Nat
  outFmt : Nat
  n : Nat
  m : Nat
  refine : Nat
  adjMats : Bool
  mvpCore : Nat
  iterMax : Nat
  deadline : Nat
  tau : Nat
  delta : Nat
  eps : Nat
  h : Nat
  g : Nat
  a : Nat
  l : Nat
  u : Nat
  x : Nat
  y : Nat
  work : Nat
  adj : Nat
  record : Nat
  wait : Nat
  waitVal : Nat
  done : Nat
  seq : Nat
  factor : Nat
deriving DecidableEq, Repr

/-- The descriptor that 256 bytes spell. -/
def solveDescOf (b : List Byte) : SolveDesc :=
  let f := leAt b
  { kind := bitsOf (f 0 1) 0 3, retain := bitOf (f 0 1) 3, warm := bitsOf (f 0 1) 4 2, pair := bitOf (f 0 1) 6, dlLate := bitOf (f 0 1) 7
    inFmt := bitsOf (f 1 1) 0 4, outFmt := bitsOf (f 1 1) 4 4, n := f 2 2, m := f 4 2, refine := bitsOf (f 6 1) 0 2
    adjMats := bitOf (f 6 1) 2, mvpCore := bitsOf (f 7 1) 0 5, iterMax := f 8 2, deadline := f 10 2, tau := f 12 4, delta := f 16 4
    eps := f 20 4, h := f 24 6, g := f 32 6, a := f 40 6, l := f 48 6, u := f 56 6, x := f 64 6, y := f 72 6, work := f 80 6, adj := f 88 6
    record := f 96 6, wait := f 104 6, waitVal := f 112 8, done := f 120 6, seq := f 128 4, factor := f 136 8 }

/-- Reserved fields are zero (Table 9.3). -/
def solveReservedZero (b : List Byte) : Bool :=
  let f := leAt b
  bitsOf (f 6 1) 3 5 == 0 && bitsOf (f 7 1) 5 3 == 0 &&
    ([30, 38, 46, 54, 62, 70, 78, 86, 94, 102, 110, 126] : List Nat).all (fun k => f k 2 == 0) && f 132 4 == 0 && f 144 112 == 0

def SolveDesc.isQp (d : SolveDesc) : Bool := decide (d.kind ≤ 1)
def SolveDesc.isLin (d : SolveDesc) : Bool := d.kind == 3 || d.kind == 4
def SolveDesc.hasAdj (d : SolveDesc) : Bool := d.kind == 1 || d.kind == 2
def SolveDesc.inBytes (d : SolveDesc) : Nat := fmtBytes d.inFmt
def SolveDesc.outBytes (d : SolveDesc) : Nat := fmtBytes d.outFmt

/-- Fields that the kind does not use are zero; δ and EPS are checked for every kind, so that none has them zero. An ADJ factorises nothing and
has no τ. -/
def SolveDesc.unusedZero (d : SolveDesc) : Bool :=
  (d.isQp || (d.warm == 0 && !d.retain && d.iterMax == 0 && d.y == 0 && d.a == 0)) &&
    (!d.isLin || (d.l == 0 && d.u == 0)) && (d.hasAdj || (!d.adjMats && d.adj == 0)) &&
    (d.kind == 2 || d.factor == 0) && (d.kind != 2 || (d.h == 0 && d.g == 0 && d.x == 0 && d.tau == 0))

/-- Counts, formats and codes lie within Table 9.3. -/
def SolveDesc.inRange (d : SolveDesc) : Bool :=
  decide (d.kind ≤ 4) && d.warm != 3 && (d.inFmt == 4 || d.inFmt == 5) && (d.outFmt == 4 || d.outFmt == 5) && decide (1 ≤ d.n) &&
    decide (d.n ≤ (if d.isLin then 128 else 256)) &&
    (if d.isLin then decide (1 ≤ d.m) && decide (d.m ≤ 4096) else decide (d.m ≤ 512)) &&
    (!d.isQp || (decide (1 ≤ d.iterMax) && decide (d.iterMax ≤ 200)))

/-- Addresses are aligned. -/
def SolveDesc.aligned (d : SolveDesc) : Bool :=
  let i := d.inBytes
  let o := d.outBytes
  d.h % i == 0 && d.g % i == 0 && d.a % i == 0 && d.l % i == 0 && d.u % i == 0 && d.x % o == 0 && d.y % o == 0 &&
    (d.warm != 1 || (d.x % i == 0 && d.y % i == 0)) && d.adj % o == 0 && d.adj % i == 0 && d.record % 64 == 0 && d.work % 4096 == 0 &&
    d.wait % 8 == 0 && d.done % 8 == 0

/-- τ is not negative or NaN; δ and EPS are finite and above zero. -/
def SolveDesc.scalarsOk (d : SolveDesc) : Bool :=
  let pos := fun (x : Nat) => decide (0 < x) && decide (x < 0x7F800000)
  (decide (d.tau ≤ 0x7F800000) || d.tau == 0x80000000) && pos d.delta && pos d.eps

/-- The deadline instant, ns after the edge (R269). -/
def State.deadlineNs (s : State) (d : SolveDesc) : Nat :=
  if d.deadline = 0 then s.beatUpNs - 20000 else d.deadline * 1000

/-! ### Rows (R257) -/

/-- Values of a data array. -/
def State.solvVals (s : State) (part fmt a n : Nat) : List Val :=
  (chunksOf (fmtBytes fmt) n (s.readMem (some part) a (n * fmtBytes fmt)).data).map fun b => decodeVal fmt 0 (leNat b)

/-- The classes of a descriptor's rows; a LIN kind has none. -/
def State.solvRows (s : State) (part : Nat) (d : SolveDesc) : List RowClass :=
  if d.isLin then []
  else ((s.solvVals part d.inFmt d.l d.m).zip (s.solvVals part d.inFmt d.u d.m)).map fun x => rowClass x.1 x.2

/-- The work area's bytes (R264). -/
def workBytes (d : SolveDesc) (me : Nat) : Nat :=
  let k := d.n + me
  let raw := if d.isLin then 4096 + 4 * (8 * d.n * d.n + 64 * d.n) else 4096 + 8 * k * k + 2 * k * (k + 1) + 320 * k
  (raw + 4095) / 4096 * 4096

/-- The core whose path serves the descriptor. -/
def SolveDesc.core (d : SolveDesc) (e : Nat) : Nat := 32 * e + d.mvpCore

/-- The partition of an engine (R252). -/
def State.solvPart (s : State) (e : Nat) : Nat := s.fld F.SOLVER_SOLV_CTL e

/-- A descriptor that ends with BAD_DESC (R256). -/
def State.descBad (s : State) (e : Nat) (b : List Byte) : Bool :=
  let d := solveDescOf b
  let part := s.solvPart e
  let size := workBytes d (liveRows (s.solvRows part d)) * (if d.pair then 2 else 1)
  let spool := spoolAddr (d.core e) 0
  !(solveReservedZero b && d.inRange && d.unusedZero && d.aligned && d.scalarsOk) || d.record == 0 ||
    s.corePart (d.core e) != some part || decide (d.work < spool) || decide (spool + spoolBytes < d.work + size) ||
    decide (s.beatUpNs ≤ d.deadline * 1000)

/-- The address of descriptor `i` (R251). -/
def State.descAddr (s : State) (e i : Nat) : Nat := s.fldPair F.SOLVER_DESC_BASE_LO F.SOLVER_DESC_BASE_HI e + 256 * i

/-! ### What a descriptor reads -/

/-- The copy of the work area that this work pick writes, and the one that it reads (R264). -/
def State.workCopy (s : State) (d : SolveDesc) (size : Nat) (prev : Bool) : Nat :=
  d.work + (if d.pair then size * ((s.pick.work + bit prev) % 2) else 0)

/-- The lower triangles of `m` row-major N × N matrices, row by row: the upper ones are not read (R257, R276). -/
def triangles (a n w m : Nat) : List (Nat × Nat) :=
  (List.range m).flatMap fun s => (List.range n).map fun i => (a + (s * n + i) * n * w, (i + 1) * w)

/-- The ranges that a descriptor reads. -/
def State.solvInputs (s : State) (d : SolveDesc) (size : Nat) : List (Nat × Nat) :=
  let w := d.inBytes
  match d.kind with
  | 2 => [(d.l, d.m * w), (d.u, d.m * w), (d.adj, d.n * w), (d.work, size)]
  | 3 => triangles d.h d.n w d.m ++ [(d.g, d.m * d.n * w)]
  | 4 => [(d.h, d.m * d.n * d.n * w), (d.g, d.m * d.n * w)]
  | _ => triangles d.h d.n w 1 ++ [(d.g, d.n * w), (d.a, d.m * d.n * w), (d.l, d.m * w), (d.u, d.m * w)] ++
    (if d.warm = 1 then [(d.x, d.n * w), (d.y, d.m * w)] else []) ++
    (if d.warm = 2 then [(s.workCopy d size true, size)] else []) ++ (if d.kind = 1 then [(d.adj, d.n * w)] else [])

/-- A read of the engine, counted where it fails (R252, R33). -/
def State.solvCount (s : State) (e part a n : Nat) (write : Bool) : State :=
  if n = 0 then s else (s.touch (some part) write a n).accessDone (5, e) 0 (some part) (s.checkAll (some part) write a n)

/-- A write of the engine. -/
def State.solvWrite (s : State) (e part a : Nat) (b : List Byte) : State :=
  (s.solvCount e part a b.length true).writeMem (some part) a b

/-! ### Outcomes -/

/-- Completion codes (Table 9.9). -/
def codeConverged : Nat := 0
def codeIterLimit : Nat := 1
def codeDeadline : Nat := 2
def codeInfeasible : Nat := 3
def codeNonconvex : Nat := 4
def codeNumeric : Nat := 5
def codeBadDesc : Nat := 6
def codeNoState : Nat := 7
def codePoisoned : Nat := 8

/-- What a descriptor comes to, as its record reports it (Table 9.10). -/
structure SolveOut where
  code : Nat
  pivotReg : Bool := false
  lees : Bool := false
  retained : Bool := false
  saved : Bool := false
  poison : Bool := false
  iters : Nat := 0
  regCount : Nat := 0
  regFirst : Nat := 0
  regSys : Nat := 0
  obj : Nat := 0
  pres : Nat := 0
  dres : Nat := 0
  gap : Nat := 0
  factor : Nat := 0
deriving DecidableEq, Repr

/-- The completion record (Table 9.10). -/
def SolveOut.bytes (o : SolveOut) (seq : Nat) : List Byte :=
  toLe 1 o.code ++ toLe 1 (bit o.pivotReg + 2 * bit o.lees + 4 * bit o.retained + 8 * bit o.saved + 16 * bit o.poison) ++ toLe 2 o.iters ++
    toLe 2 o.regCount ++ toLe 2 o.regFirst ++ toLe 8 o.obj ++ toLe 8 o.pres ++ toLe 8 o.dres ++ toLe 8 o.gap ++ toLe 4 seq ++ toLe 4 0 ++
    toLe 2 o.regSys ++ toLe 6 0 ++ toLe 8 o.factor

/-- Codes of the quantities that `Config.solver` gives: the slacks and duals of a warm start, the adjoint of a solve that factorised nothing,
what the engine leaves elsewhere in its work area. -/
def qStart : Nat := 0
def qAdjoint : Nat := 1
def qWork : Nat := 2

/-- The completion code of a pivot that ends a descriptor (Table 9.4). -/
def pivotCode (case : Nat) : Nat := if case = 4 then codeNonconvex else codeNumeric

/-! ### Outputs -/

/-- A value rounded once to the output format. -/
def outElem (d : SolveDesc) (v : Val) : List Byte := toLe d.outBytes (roundTo d.outFmt 0 0 false 0 v).bits

/-- A row as an adjoint sees it: whether it is live, its q and multiplier, the weights of its bounds (R266). -/
structure AdjRow where
  live : Bool
  q : Val
  y : Val
  wl : Val
  wu : Val
deriving DecidableEq, Repr

/-- A weight d·y/s, exact. -/
def boundWeight (d : Val) : Option Bound → Val
  | none => Val.zero
  | some b => Val.div (Val.mul d b.y) b.s

/-- A live row's part of an adjoint; `d` is its entry of D in the factorisation used. -/
def adjRow (r : QpRow) (d q : Val) : AdjRow :=
  { live := true, q := q, y := r.y
    wl := if r.cls = .equality then half else boundWeight d r.lo
    wu := if r.cls = .equality then half else boundWeight d r.up }

/-- Every row of the problem, the free ones with q = 0. -/
def spreadRows : List RowClass → List AdjRow → List AdjRow
  | [], _ => []
  | .free :: t, l => ⟨false, Val.zero, Val.zero, Val.zero, Val.zero⟩ :: spreadRows t l
  | _ :: t, r :: l => r :: spreadRows t l
  | _ :: t, [] => ⟨false, Val.zero, Val.zero, Val.zero, Val.zero⟩ :: spreadRows t []

/-- The adjoint block after x̄ (Tables 9.5, 9.6). -/
def adjBytes (d : SolveDesc) (x p : List Val) (rows : List AdjRow) : List Byte :=
  p.flatMap (fun v => outElem d v.neg) ++ rows.flatMap (fun r => outElem d (Val.mul r.wl r.q)) ++
    rows.flatMap (fun r => outElem d (Val.mul r.wu r.q)) ++ p.flatMap (outElem d) ++ rows.flatMap (fun r => outElem d r.q) ++
    (if d.adjMats then
      (p.zip x).flatMap (fun i => (p.zip x).flatMap fun j => outElem d (Val.mul half (Val.add 0 (Val.mul i.1 j.2) (Val.mul i.2 j.1))).neg) ++
      rows.flatMap (fun r => (p.zip x).flatMap fun j =>
        outElem d (if r.live then (Val.add 0 (Val.mul r.y j.1) (Val.mul r.q j.2)).neg else Val.zero))
    else [])

/-- The header of the work area (R264). -/
def workHeader (retained saved : Bool) (n me factor : Nat) : List Byte :=
  toLe 4 (bit retained + 2 * bit saved) ++ toLe 4 0 ++ toLe 2 n ++ toLe 2 me ++ toLe 4 0 ++ toLe 8 factor

/-- Bytes of the work area that the spec leaves to the engine. -/
def freeWork (key : List Byte) (lo hi : Nat) : List Byte := (rangeFrom lo (hi - lo)).map fun j => BitVec.ofNat 8 (Config.solver key qWork 0 j)

/-- A vector of the work area: `k` binary64 elements. -/
def vecBytes (k : Nat) (l : List Val) : List Byte := (List.range k).flatMap fun i => toLe 8 (bits64 (l.getD i Val.zero))

/-- The bytes after the header's named fields that a solve leaves (R264, R265): the binary64 K, the binary32 factor by columns, then binary64
vectors: x with the rows' multipliers, lower slacks, upper slacks, lower duals, upper duals, each of the rows at its place in K order. The
order of the vectors, and all else there, is internal (log entry 124). -/
def workImage (key : List Byte) (size : Nat) (e : QpEnd) : List Byte :=
  let n := e.it.x.length
  let k := n + e.it.rows.length
  let at_ := 4096 + 8 * k * k + 2 * k * (k + 1)
  let mats := match e.last with
    | some (m, f) => m.flatMap (vecBytes k) ++ f.cols.flatMap fun c => (c.d :: c.l).flatMap fun v => toLe 4 (bits32 v)
    | none => freeWork key 4096 at_
  let pad := List.replicate n Val.zero
  let vec := fun (g : QpRow → Val) => vecBytes k (pad ++ e.it.rows.map g)
  let part := fun (b : QpRow → Option Bound) (g : Bound → Val) => vec fun r => ((b r).map g).getD Val.zero
  freeWork key 24 4096 ++ mats ++ vecBytes k (e.it.x ++ e.it.rows.map QpRow.y) ++ part QpRow.lo Bound.s ++ part QpRow.up Bound.s ++
    part QpRow.lo Bound.y ++ part QpRow.up Bound.y ++ freeWork key (at_ + 40 * k) size

/-- Elements of `w` bytes in format `fmt` from offset `o` of a work area. -/
def workVals (b : List Byte) (fmt o n : Nat) : List Val :=
  (chunksOf (fmtBytes fmt) n (b.drop o)).map fun x => decodeVal fmt 0 (leNat x)

/-- The matrix K that a work area holds. -/
def workK (b : List Byte) (k : Nat) : List (List Val) := (List.range k).map fun i => workVals b 5 (4096 + 8 * k * i) k

/-- The columns of a factor from their elements one after another; column `j` of `k` has `k - j`. -/
def factorCols : Nat → List Val → List FactorCol
  | 0, _ => []
  | k + 1, l => { d := l.headD Val.zero, l := l.tail.take k } :: factorCols k (l.drop (k + 1))

/-- The factor that a work area holds. -/
def workFactor (b : List Byte) (k : Nat) : Factored := { cols := factorCols k (workVals b 4 (4096 + 8 * k * k) (k * (k + 1) / 2)) }

/-- A row with a saved slack and dual of each bound that it has, or with its saved multiplier. -/
def QpRow.resumed (r : QpRow) (y sl su yl yu : Val) : QpRow :=
  { r with
    lo := if r.cls = .lower ∨ r.cls = .both then some ⟨sl, yl⟩ else none
    up := if r.cls = .upper ∨ r.cls = .both then some ⟨su, yu⟩ else none
    mult := y }

/-- The iterate that a work area holds, for live rows `rows` and `n` variables. -/
def workIter (b : List Byte) (n : Nat) (rows : List QpRow) : QpIter :=
  let k := n + rows.length
  let at_ := 4096 + 8 * k * k + 2 * k * (k + 1)
  let v := fun (i : Nat) => workVals b 5 (at_ + 8 * k * i) k
  let el := fun (i j : Nat) => (v i).getD (n + j) Val.zero
  { x := (v 0).take n, rows := rows.zipIdx.map fun r => r.1.resumed (el 0 r.2) (el 1 r.2) (el 2 r.2) (el 3 r.2) (el 4 r.2) }

/-- The work area's header says that it holds a state: bit `k` of STATE, and N and m_e as given. -/
def workHolds (b : List Byte) (k n me : Nat) : Bool := bitOf (leAt b 0 4) k && leAt b 8 2 == n && leAt b 10 2 == me

/-! ### Completion -/

/-- The engine takes the matrix-vector path of MVP_CORE (R254). -/
def State.holdPath (s : State) (e : Nat) (d : SolveDesc) : State :=
  let c := d.core e
  s.setCore c { s.core c with mvpHolder := some e }

/-- The path of MVP_CORE can be taken: no command of its core runs on it or waits for it; or the engine has it. -/
def State.pathFree (s : State) (e : Nat) (d : SolveDesc) : Bool :=
  let k := s.core (d.core e)
  k.mvpHolder == some e || (k.mvpHolder.isNone && k.mvp.isNone && k.mvpQueue.isEmpty)

/-- A descriptor ends (R253, R271, R272, Table 9.12): its record is written last, then the DONE signal is given and the path released; the
counters and their events follow. -/
def State.solveEnd (s : State) (e ns : Nat) (d : SolveDesc) (o : SolveOut) : State :=
  let part := s.solvPart e
  let m := s.solver e
  let s1 := if d.record = 0 ∨ d.record % 64 ≠ 0 then s else s.solvWrite e part d.record (o.bytes d.seq)
  let s2 := if d.done = 0 then s1
    else (s1.issueOp (.solver e) { op := 3, destDev := s1.ownDev, destAddr := d.done, length := 8, op0 := 1 } (some part) [] []).1
  let s3 := s2.addWrap F.SOLVER_DONE_CNT e 1
  let s4 := if o.code = codeConverged then s3.addSat F.SOLVER_CONV_CNT e 1
    else if o.code = codeIterLimit then s3.addSat F.SOLVER_ITERLIM_CNT e 1
    else if o.code = codeDeadline then
      let t := s3.countEv F.SOLVER_DEADLINE_CNT e 1 Ev.SOLVER_DEADLINE
      if d.dlLate then t.cause 0 else t
    else s3.countEv F.SOLVER_FAIL_CNT e 1 Ev.SOLVER_SOLV_FAIL
  let s5 := if o.pivotReg then s4.countEv F.SOLVER_REG_CNT e 1 Ev.SOLVER_PIVOT_REG else s4
  let s6 := ((s5.addWrap F.SOLVER_ITER_SUM e o.iters).setFld F.SOLVER_LAST_NS e (ns - m.startNs))
  let s7 := if o.code = codeBadDesc then s6.countErr 5 e 0x80 m.next 0 else if o.poison then s6.poisoned 5 e else s6
  (s7.releasePath e).setSolver e { m with next := m.next + 1, startNs := ns, waiting := false }

/-- A storage error of the engine store (R275). -/
def State.solvEcc (s : State) (e : Nat) (x : Ecc) : State :=
  (s.countEv F.SOLVER_SOLV_ECC_CORR e x.corr Ev.SOLVER_SOLV_CORR).countEv F.SOLVER_SOLV_ECC_UNCORR e x.uncorr Ev.SOLVER_SOLV_UNCORR

/-- The word at WAIT_ADDR has reached WAIT_VAL (R253). -/
def State.solvWaitMet (s : State) (e : Nat) (d : SolveDesc) : Bool :=
  d.wait == 0 || decide (d.waitVal ≤ leNat (s.readMem (some (s.solvPart e)) d.wait 8).data)

/-- Elements written in the output format. -/
def outBytesOf (d : SolveDesc) (l : List Val) : List Byte := l.flatMap (outElem d)

/-- The multipliers of every row, zero on the free ones. -/
def spreadVals : List RowClass → List Val → List Val
  | [], _ => []
  | .free :: t, l => Val.zero :: spreadVals t l
  | _ :: t, l => l.headD Val.zero :: spreadVals t l.tail

/-- The adjoint of an iterate with the factorisation used (R263, R266): p, every row's part, lees. Where the solve factorised nothing, p and q
are free. -/
def adjSolve (key : List Byte) (L : Nat) (d : SolveDesc) (rows : List RowClass) (xbar : List Val) (it : QpIter)
    (last : Option (List (List Val) × Factored)) : List Val × List AdjRow × Bool :=
  let me := it.rows.length
  let sol := match last with
    | some (k, f) => kktSolve L d.refine k f false (xbar ++ List.replicate me Val.zero)
    | none => ((List.range (d.n + me)).map fun j => decodeVal 5 0 (Config.solver key qAdjoint 0 j % 2 ^ 64), false)
  let dOf := fun (i : Nat) (r : QpRow) => match last with
    | some (k, _) => (((k.getD (d.n + i) []).getD (d.n + i) Val.zero)).neg
    | none => r.d
  let live := it.rows.zipIdx.map fun r => adjRow r.1 (dOf r.2 r.1) (sol.1.getD (d.n + r.2) Val.zero)
  (sol.1.take d.n, spreadRows rows live, sol.2)

/-- The engine store holds the factor just built, as binary32 words by columns (R249). -/
def State.storeFactor (s : State) (e : Nat) (f : Factored) : State :=
  s.setSolver e { s.solver e with store := f.cols.flatMap fun c => (c.d :: c.l ++ c.u).map bits32 }

/-- The record of a QP's end, before its outputs. -/
def QpEnd.out (e : QpEnd) (m : QpMeasure) : SolveOut :=
  let reg := (e.last.map (·.2.reg)).getD []
  let o : SolveOut := { code := codeConverged, pivotReg := e.reg, lees := e.lees, iters := e.iters, regCount := reg.length
                        regFirst := reg.headD 0xFFFF }
  match e.stop with
  | some c => { o with code := pivotCode c }
  | none => { o with code := if e.converged then codeConverged else codeIterLimit, obj := m.obj, pres := m.pres, dres := m.dres, gap := m.gap }

/-- The live rows of a problem at a cold start (R259): every slack and dual is 1. -/
def coldRows (n : Nat) (cls : List RowClass) (a l u : List Val) : List QpRow :=
  cls.zipIdx.filterMap fun c =>
    if c.1 = .free then none
    else some ({ a := (a.drop (c.2 * n)).take n, l := l.getD c.2 Val.zero, u := u.getD c.2 Val.zero, cls := c.1 : QpRow }.resumed
      Val.zero Val.one Val.one Val.one Val.one)

/-- A positive finite binary64 value that the spec leaves open. -/
def freePositive (key : List Byte) (i j : Nat) : Val := decodeVal 5 0 (1 + Config.solver key qStart i j % 0x7FEFFFFFFFFFFFFF)

/-- Live rows at a start from Y_ADDR: the multipliers of equality rows as given; the spec does not state how slacks and duals follow, and
they are free positive values (log entry 123). -/
def warmRows (key : List Byte) (rows : List QpRow) (ys : List Val) : List QpRow :=
  rows.zipIdx.map fun r => r.1.resumed (ys.getD r.2 Val.zero) (freePositive key 0 r.2) (freePositive key 1 r.2) (freePositive key 2 r.2)
    (freePositive key 3 r.2)

/-- The values of the live rows in a list of every row's. -/
def liveVals (cls : List RowClass) (l : List Val) : List Val := (cls.zip l).filterMap fun x => if x.1 = .free then none else some x.2

/-- The problem that a descriptor names. -/
def State.qpData (s : State) (part : Nat) (d : SolveDesc) : QpData :=
  let rows := (List.range d.n).map fun i => s.solvVals part d.inFmt (d.h + i * d.n * d.inBytes) (i + 1)
  { h := (List.range d.n).map fun i => (List.range d.n).map fun j => (rows.getD (max i j) []).getD (min i j) Val.zero
    g := s.solvVals part d.inFmt d.g d.n }

/-- The lower triangle of a matrix. -/
def lowerOf (h : List (List Val)) : List Val := (h.zipIdx.map fun r => r.1.take (r.2 + 1)).flatten

/-- Everything that a descriptor writes when its method has run (Table 9.9), its record last: `size` is the work area's. -/
def State.qpOutputs (s : State) (e ns : Nat) (d : SolveDesc) (key : List Byte) (cls : List RowClass) (size : Nat) (xbar : List Val) (q : QpData)
    (r : QpEnd) : State :=
  let part := s.solvPart e
  let o := r.out (r.it.measure q)
  let done := o.code == codeConverged || o.code == codeIterLimit
  let saved := o.code == codeIterLimit && d.pair
  let keep := done && d.retain
  let factor := if keep then s.pick.work % 2 ^ 32 * 2 ^ 32 + (s.solver e).next % 2 ^ 32 else 0
  let s0 := match r.last with
    | some (_, f) => s.storeFactor e f
    | none => s
  let s1 := if done then (s0.solvWrite e part d.x (outBytesOf d r.it.x)).solvWrite e part d.y (outBytesOf d (spreadVals cls (r.it.rows.map QpRow.y)))
    else s0
  let s2 := s1.solvWrite e part (s1.workCopy d size false)
    (workHeader keep saved d.n (liveRows cls) factor ++ if done then workImage key size r else freeWork key 24 size)
  let adj := adjSolve key (s.windowL (d.core e)) d cls xbar r.it r.last
  let runs := d.kind == 1 && o.code == codeConverged
  let s3 := if runs then s2.solvWrite e part (d.adj + d.n * d.outBytes) (adjBytes d r.it.x adj.1 adj.2.1) else s2
  s3.solveEnd e ns d { o with retained := keep, saved := saved, factor := factor, lees := o.lees || (runs && adj.2.2) }

/-- A QP descriptor from its setup on (R257, R259, R270). -/
def State.qpRun (s : State) (e ns : Nat) (d : SolveDesc) (key : List Byte) (cls : List RowClass) (size : Nat) : State :=
  let part := s.solvPart e
  let vals := fun (a n : Nat) => s.solvVals part d.inFmt a n
  let q := s.qpData part d
  let a := vals d.a (d.m * d.n)
  let start := if d.warm = 1 then vals d.x d.n ++ vals d.y d.m else []
  let xbar := if d.kind = 1 then vals d.adj d.n else []
  let area := if d.warm = 2 then (s.readMem (some part) (s.workCopy d size true) size).data else []
  if (lowerOf q.h ++ q.g ++ a).any (fun v => !v.finite) || (start ++ xbar).any (fun v => v == Val.nan) || cls.contains .nan then
    s.solveEnd e ns d { code := codeNumeric }
  else if cls.contains .infeasible then s.solveEnd e ns d { code := codeInfeasible }
  else if d.warm = 2 ∧ (d.pair = false ∨ workHolds area 1 d.n (liveRows cls) = false) then s.solveEnd e ns d { code := codeNoState }
  else
    let cold := coldRows d.n cls a (vals d.l d.m) (vals d.u d.m)
    let it : QpIter := match d.warm with
      | 0 => { x := List.replicate d.n Val.zero, rows := cold }
      | 1 => { x := start.take d.n, rows := warmRows key cold (liveVals cls (start.drop d.n)) }
      | _ => workIter area d.n cold
    let p : QpParams := { n := d.n, L := s.windowL (d.core e), steps := d.refine, theta := pivotTheta d.tau (lowerOf q.h), delta := f32 d.delta,
                          eps := d.eps }
    s.qpOutputs e ns d key cls size xbar q (qpLoop p q d.iterMax { it := it })

/-- An ADJ descriptor (R266 to R268): on the factorisation and iterate that its work area holds. -/
def State.adjRun (s : State) (e ns : Nat) (d : SolveDesc) (key : List Byte) (cls : List RowClass) (size : Nat) : State :=
  let part := s.solvPart e
  let vals := fun (a n : Nat) => s.solvVals part d.inFmt a n
  let area := (s.readMem (some part) d.work size).data
  let me := liveRows cls
  if !(workHolds area 0 d.n me && leAt area 16 8 == d.factor) then s.solveEnd e ns d { code := codeNoState }
  else
    let it := workIter area d.n (coldRows d.n cls [] (vals d.l d.m) (vals d.u d.m))
    let f := workFactor area (d.n + me)
    let adj := adjSolve key (s.windowL (d.core e)) d cls (vals d.adj d.n) it (some (workK area (d.n + me), f))
    ((s.storeFactor e f).solvWrite e part (d.adj + d.n * d.outBytes) (adjBytes d it.x adj.1 adj.2.1)).solveEnd e ns d
      { code := codeConverged, lees := adj.2.2, regFirst := 0xFFFF }

/-- The systems of a LIN descriptor, each matrix full; of a symmetric one the lower triangle is read. -/
def State.linData (s : State) (part : Nat) (d : SolveDesc) : List (List (List Val) × List Val) :=
  (List.range d.m).map fun k =>
    let row := fun (i n : Nat) => s.solvVals part d.inFmt (d.h + (k * d.n + i) * d.n * d.inBytes) n
    let rows := (List.range d.n).map fun i => row i (if d.kind = 3 then i + 1 else d.n)
    (if d.kind = 3 then (List.range d.n).map fun i => (List.range d.n).map fun j => (rows.getD (max i j) []).getD (min i j) Val.zero else rows,
      s.solvVals part d.inFmt (d.g + k * d.n * d.inBytes) d.n)

/-- The record of a batch. Whether REG_COUNT counts the batch or its last system is not stated (R262; log entry 8). -/
def LinEnd.out (r : LinEnd) : SolveOut :=
  { code := (r.stop.map pivotCode).getD codeConverged, pivotReg := r.first.isSome, lees := r.lees
    regCount := if Config.solverForm 4 % 2 = 0 then r.total else r.final
    regFirst := (r.first.map (·.2)).getD 0xFFFF, regSys := (r.first.map (·.1)).getD 0xFFFF }

/-- A LIN descriptor (R276). -/
def State.linRun (s : State) (e ns : Nat) (d : SolveDesc) (key : List Byte) (size : Nat) : State :=
  let part := s.solvPart e
  let r := linLoop (s.windowL (d.core e)) d.refine (d.kind == 3) d.tau (f32 d.delta) 0 (s.linData part d) {}
  let s1 := s.solvWrite e part (s.workCopy d size false) (workHeader false false d.n 0 0 ++ freeWork key 24 size)
  let o := r.out
  (if o.code = codeConverged then s1.solvWrite e part d.x (outBytesOf d r.xs) else s1).solveEnd e ns d o

/-- A descriptor runs to its outcome, decided at `ns` (R256, R269, R273, R275). -/
def State.solveRun (s : State) (e ns : Nat) (b : List Byte) (x : Ecc) : State :=
  let d := solveDescOf b
  let part := s.solvPart e
  let cls := s.solvRows part d
  let size := workBytes d (liveRows cls)
  let ins := s.solvInputs d size
  let data := ins.map fun r => s.readMem (some part) r.1 r.2
  let poison := data.any (fun r => !r.poison.isEmpty) || decide (0 < x.uncorr)
  let key := b ++ data.flatMap (·.data)
  let s1 := (ins.foldl (fun t r => t.solvCount e part r.1 r.2 false) (s.holdPath e d)).solvEcc e x
  if poison then s1.solveEnd e ns d { code := codePoisoned, poison := true }
  else match d.kind with
    | 2 => s1.adjRun e ns d key cls size
    | 3 => s1.linRun e ns d key size
    | 4 => s1.linRun e ns d key size
    | _ => s1.qpRun e ns d key cls size

/-- The next descriptor's place, its bytes, whether they carry poison. -/
def State.nextAt (s : State) (e : Nat) : Nat := s.descAddr e (s.solver e).next
def State.nextDesc (s : State) (e : Nat) : List Byte := (s.readMem (some (s.solvPart e)) (s.nextAt e) 256).data
def State.nextPoison (s : State) (e : Nat) : Bool := !(s.readMem (some (s.solvPart e)) (s.nextAt e) 256).poison.isEmpty

/-- The word at WAIT_ADDR carries poison. -/
def State.solvWaitPoison (s : State) (e : Nat) (d : SolveDesc) : Bool :=
  d.wait != 0 && !(s.readMem (some (s.solvPart e)) d.wait 8).poison.isEmpty

/-- The engine has a descriptor to run. -/
def State.solvBusy (s : State) (e : Nat) : Bool := (s.solver e).task.isSome && decide ((s.solver e).next < (s.solver e).last)

/-- What a descriptor reads beyond itself before it runs: the bounds, which fix its work area's size, and the word that it waits on. -/
def SolveDesc.early (d : SolveDesc) : List (Nat × Nat) :=
  (if d.isLin then [] else [(d.l, d.m * d.inBytes), (d.u, d.m * d.inBytes)]) ++ (if d.wait = 0 then [] else [(d.wait, 8)])

/-- A descriptor that is not past its deadline and has been read without poison: BAD_DESC, or its wait, or its run. It does not start while
the path of MVP_CORE is taken (R159). -/
def State.solveBegin (s : State) (e ns : Nat) (b : List Byte) (x : Ecc) : State :=
  let d := solveDescOf b
  let part := s.solvPart e
  if s.descBad e b then s.solveEnd e ns d { code := codeBadDesc }
  else
    let s1 := s.solvCount e part d.wait (if d.wait = 0 then 0 else 8) false
    if s1.solvWaitPoison e d then s1.solveEnd e ns d { code := codePoisoned, poison := true }
    else if !s1.solvWaitMet e d then s1.setSolver e { s1.solver e with waiting := true }
    else if !s1.pathFree e d then s1
    else s1.whenReadable (s1.solvInputs d (workBytes d (liveRows (s1.solvRows part d)))) fun t => t.solveRun e ns b x

/-- A solve descriptor of kind `kind` (R251): the next one of the engine's task, where it is of that kind or is one that no kind runs. One that
the engine reaches after its deadline instant ends at once and reads no data (R269); poison in the descriptor itself ends it too (R275).
It waits while what it reads may not be read yet (R304, R330). -/
def State.solveCmd (s : State) (e ns kind : Nat) (x : Ecc) : State :=
  if !s.solvBusy e then s
  else s.whenReadable [(s.nextAt e, 256)] fun s =>
    let b := s.nextDesc e
    let d := solveDescOf b
    if d.kind ≠ kind ∧ d.kind ≤ 4 then s
    else
      let s1 := s.solvCount e (s.solvPart e) (s.nextAt e) 256 false
      if s.nextPoison e then s1.solveEnd e ns d { code := codePoisoned, poison := true }
      else if s1.deadlineNs d < ns then s1.solveEnd e ns d { code := codeDeadline }
      else s1.whenReadable d.early fun t => t.solveBegin e ns b x

/-- QP (R259). -/
def execQp (e : Fin 16) (ns : Nat) (ecc : Ecc) (s : State) : Host.Outcome State Fault Refusal := .next (s.solveCmd e.val ns 0 ecc)

/-- QP_ADJ (R268). -/
def execQpAdj (e : Fin 16) (ns : Nat) (ecc : Ecc) (s : State) : Host.Outcome State Fault Refusal := .next (s.solveCmd e.val ns 1 ecc)

/-- ADJ (R266). -/
def execAdj (e : Fin 16) (ns : Nat) (ecc : Ecc) (s : State) : Host.Outcome State Fault Refusal := .next (s.solveCmd e.val ns 2 ecc)

/-- LIN_SYM (R276). -/
def execLinSym (e : Fin 16) (ns : Nat) (ecc : Ecc) (s : State) : Host.Outcome State Fault Refusal := .next (s.solveCmd e.val ns 3 ecc)

/-- LIN_GEN (R276). -/
def execLinGen (e : Fin 16) (ns : Nat) (ecc : Ecc) (s : State) : Host.Outcome State Fault Refusal := .next (s.solveCmd e.val ns 4 ecc)

/-- SOLVE_DEADLINE (R269): where the deadline instant of the descriptor is reached at `ns`, its record is written, and no solution. -/
def execSolveDeadline (e : Fin 16) (ns : Nat) (s : State) : Host.Outcome State Fault Refusal :=
  let d := solveDescOf (s.nextDesc e.val)
  .next (if s.solvBusy e.val && decide (s.deadlineNs d ≤ ns) then s.solveEnd e.val ns d { code := codeDeadline } else s)

/-- SOLVE_WAIT_RELEASE (R253): the word at WAIT_ADDR has reached WAIT_VAL; the descriptor starts and takes its path (R254). -/
def execSolveWaitRelease (e : Fin 16) (ns : Nat) (s : State) : Host.Outcome State Fault Refusal :=
  let m := s.solver e.val
  let d := solveDescOf (s.nextDesc e.val)
  .next (if m.waiting && s.solvBusy e.val && s.solvWaitMet e.val d && s.pathFree e.val d then
      (s.setSolver e.val { m with waiting := false, startNs := ns }).holdPath e.val d
    else s)

/-! ### Tasks -/

/-- A SOLVER task starts (R251). -/
def State.solvTask (s : State) (e task entry arg ns : Nat) : State :=
  s.setSolver e { task := some task, next := entry, last := entry + arg % 65536, startNs := ns }

/-- The completion rule of a SOLVER task (R251). -/
def State.solvDone (s : State) (e task : Nat) : Bool :=
  let m := s.solver e
  m.task == some task && decide (m.last ≤ m.next) && !s.hasOps fun o => o == .solver e

end Sys2Proof.Machine
end

