-- ==== Sys2Proof/Machine/Trellis.lean ====
section
/-! DEFINITION. The Trellis service (chapter 15): handshakes and sessions (R418 to R424), requests (R425 to R427), batches (R428 to R431)
and the release of replies (R430, R433). -/
namespace Sys2Proof.Machine
open Sys2Proof

/-! ### Sessions -/

def State.session (s : State) (id : Nat) : Option Session := Tab.get? s.field.sessions id
def State.setSession (s : State) (id : Nat) (x : Session) : State :=
  { s with field := { s.field with sessions := Tab.set s.field.sessions id x } }

/-- Trellis is served; in SHUTDOWN nothing is (R486). -/
def State.trellisOn (s : State) : Bool := s.flag F.FIELD_TR_CTL_ENABLE 0 && s.fld F.POWER_PWR_STAT_STATE 0 != 4

/-- A record discarded under R418. -/
def State.authFail (s : State) (port : Nat) : State := s.countEv F.FIELD_AUTH_FAIL port 1 Ev.FIELD_AUTH_FAIL

/-- Datagrams that a body of `n` bytes takes with `m` bytes in each; an empty body takes one. -/
def fragCount (n m : Nat) : Nat := max 1 ((n + m - 1) / max 1 m)

/-- A session closes (R423): it sends CLOSE where it can, gives back its heddle and its slot. -/
def State.closeSession (s : State) (id : Nat) : State :=
  match s.session id with
  | none => s
  | some x =>
    let s1 := match x.addr with
      | some a => (s.txFrames a.port.val 1).emit (.control id 4)
      | none => s
    { s1 with
      field := { s1.field with sessions := Tab.del s1.field.sessions id }
      fab := { s1.fab with heddles := Tab.del s1.fab.heddles x.heddle } }

/-- Every session that `f` names closes. -/
def State.closeSessions (s : State) (f : Session → Bool) : State :=
  (s.field.sessions.filter fun e => f e.2).foldl (fun t e => t.closeSession e.1) s

/-- `n` records leave a session: each takes a counter; a counter that reaches 2^32 closes the session (R419). -/
def State.sendRecords (s : State) (id n : Nat) (m : Msg) : State :=
  match s.session id with
  | none => s
  | some x =>
    match x.addr with
    | none => s
    | some a =>
      let s1 := ((s.setSession id { x with sendCtr := x.sendCtr + n }).txFrames a.port.val n).emit m
      if 2 ^ 32 ≤ x.sendCtr + n then s1.closeSession id else s1

/-- A reply leaves (R425): its body in the fewest fragments that the outgoing port's MTU allows. -/
def State.sendReply (s : State) (id sub seq status run : Nat) (body : List Byte) : State :=
  let port := ((s.session id).bind (·.addr)).elim 0 fun a => a.port.val
  s.sendRecords id (fragCount body.length (min 8192 (s.fld F.FIELD_MTU port - 112))) (.reply id sub seq status run body)

/-! ### Handshakes -/

/-- Handshakes at once: OPENs being joined and sessions not yet confirmed (R421). -/
def State.handshakesOpen (s : State) : Nat :=
  s.field.handshakes.length + (s.field.sessions.filter fun e => !e.2.confirmed).length

/-- A REFUSE record with its reason (Table 15.4); the handshake identifier is little-endian (log entry 126). -/
def State.refuse (s : State) (src : NetAddr) (hs reason : Nat) : State :=
  ((s.txFrames src.port.val 1).emit (.handshake 4 0 (toLe 8 hs ++ [BitVec.ofNat 8 reason]))).countEv F.FIELD_REFUSE_CNT 0 1
    Ev.FIELD_SESSION_REFUSED

/-- The trust area of a partition: the device chain and the client anchors (R462). -/
def State.trustArea (s : State) (p : Nat) : List Byte × List Byte :=
  let a := s.fldPair F.SEC_TRUST_BASE_LO F.SEC_TRUST_BASE_HI 0 + 65536 * p
  let h := s.unitRead a 8
  (s.unitRead (a + 64) (leAt h 0 4), s.unitRead (a + 64 + leAt h 0 4) (leAt h 4 4))

/-- The lowest free session slot of a partition (R422). -/
def State.freeSlot (s : State) (p : Nat) : Option Nat :=
  (List.range (s.fld (F.HEDDLE_SESS_MAX.nth p) 0)).find? fun k => !(s.field.sessions.any fun e => e.2.part == p && e.2.slot == k)

/-- The lowest free id of the session id range (R356). -/
def State.freeSessionHeddle (s : State) : Option Nat :=
  (rangeFrom s.sessBase (513 - s.sessBase)).find? fun h => (s.heddle h).st == .free

/-- A field port is a locked time receiver. -/
def State.timeLocked (s : State) : Bool := (List.range 2).any fun i => s.ptpRole i 1 && (s.ptp i).locked

/-- A joined OPEN is judged (R420 to R422, R462): REFUSE, or ACCEPT with a session that waits for CONFIRM. -/
def State.judgeOpen (s : State) (src : NetAddr) (hs : Nat) (body : List Byte) : State :=
  let p := leAt body 0 1
  let chain := body.drop 130
  let area := s.trustArea p
  if 8 ≤ p ∨ s.flag (F.FIELD_SVC_ENABLE.nth p) 0 = false ∨
      Config.leafKey area.1 ≠ some (Config.serviceKey p (s.fld (F.SEC_SVC_EPOCH.nth p) 0)) then s.refuse src hs 1
  else if !Config.chainOk chain area.2 s.timeLocked then (s.countEv F.SEC_CERT_FAIL 0 1 Ev.SEC_CERT_FAIL).refuse src hs 2
  else
    let s1 := if s.timeLocked then s else s.addSat F.SEC_CERT_NOTIME 0 1
    match s1.freeSlot p, s1.freeSessionHeddle, s1.heddleFree p with
    | some k, some h, true =>
      let id := p * 2 ^ 29 + k * 2 ^ 20 + s1.field.opens % 2 ^ 20
      let r := s1.draw
      let head := toLe 4 id ++ padTo 97 (Config.ephemeral r.1) ++ area.1
      let accept := head ++ padTo 96 (Config.sign p (sha384 (body ++ head)))
      if 16 < fragCount accept.length (s1.fld F.FIELD_MTU src.port.val - 64) then s1.refuse src hs 2
      else
        let s2 := r.2.threadTo h 0 0 p false true
        let s3 := s2.setHeddle h { s2.heddle h with key := padTo 72 (Config.sessionKeys r.1 body accept) }
        let s4 := { s3 with field := { s3.field with opens := s3.field.opens + 1 } }
        ((s4.setSession id { part := p, slot := k, heddle := h, nonce := r.1, opened := body ++ accept
                             clientKey := (Config.leafKey chain).getD [], addr := some src }).txFrames src.port.val
          (fragCount accept.length (s1.fld F.FIELD_MTU src.port.val - 64))).emit (.handshake 2 id (toLe 8 hs ++ accept))
    | _, _, _ => s1.refuse src hs 3

/-- OPEN (R420, R421): a fragment joins its handshake; the last one completes the body. -/
def execOpenSession (r : HsRecord) (s : State) : Host.Outcome State Fault Refusal :=
  let hs := r.counter.toNat
  if !s.trellisOn || !s.coresUp then .next s
  else if r.session ≠ 0 then .next (s.authFail r.src.port.val)
  else
    let same := fun (h : Handshake) => h.src.ip == r.src.ip && h.src.udp == r.src.udp && h.hs == hs
    let n := if r.fragCnt.val = 0 then 16 else r.fragCnt.val
    let old := s.field.handshakes.find? same
    if old.isNone && decide (64 ≤ s.handshakesOpen) then .next (s.refuse r.src hs 4)
    else
      let h0 := old.getD { src := r.src, hs := hs, count := n }
      let h := { h0 with frags := Tab.set h0.frags r.fragIdx.val r.body }
      let rest := s.field.handshakes.filter fun x => !same x
      if (List.range h.count).all fun k => (Tab.get? h.frags k).isSome then
        .next (({ s with field := { s.field with handshakes := rest } }).judgeOpen r.src hs
          ((List.range h.count).flatMap fun k => Tab.get [] h.frags k))
      else .next { s with field := { s.field with handshakes := rest ++ [h] } }

/-- OPEN_FRAGMENT_TIMEOUT (R420): an incomplete OPEN is discarded without reply. -/
def execOpenFragmentTimeout (src : NetAddr) (hs : Dword) (s : State) : Host.Outcome State Fault Refusal :=
  .next { s with field := { s.field with
    handshakes := s.field.handshakes.filter fun h => !(h.src.ip == src.ip && h.src.udp == src.udp && h.hs == hs.toNat) } }

/-- The 16-byte header of a record (Table 15.3), its fields little-endian: R14 speaks of registers, descriptors and memory, and Table 15.3 names
no byte order (log entry 126). -/
def recordHeader (ty session counter : Nat) : List Byte := [1, BitVec.ofNat 8 ty, 0, 0] ++ toLe 4 session ++ toLe 8 counter

/-- The key and salt of a direction in a session's heddle: client to device, device to client. -/
def State.sessionKey (s : State) (x : Session) (toClient : Bool) : List Byte :=
  ((s.heddle x.heddle).key.drop (if toClient then 36 else 0)).take 36

/-- CONFIRM (R418, R421): it opens the session where it decrypts and its signature verifies. -/
def execConfirm (r : HsRecord) (s : State) : Host.Outcome State Fault Refusal :=
  let id := r.session.toNat
  if !s.trellisOn then .next s
  else match s.session id with
    | none => .next (s.authFail r.src.port.val)
    | some x =>
      if x.confirmed then .next (s.authFail r.src.port.val)
      else match Config.gcmOpen (s.sessionKey x false) (recordHeader 3 id r.counter.toNat) r.body with
        | none => .next (s.authFail r.src.port.val)
        | some sig =>
          if Config.verifySig x.clientKey (sha384 x.opened) sig then
            .next (s.setSession id { x with confirmed := true, addr := some r.src, recvMax := r.counter.toNat, replay := [r.counter.toNat] })
          else .next s

/-- CONFIRM_TIMEOUT (R421): a session not opened within 1 s of ACCEPT is discarded. -/
def execConfirmTimeout (session : Word) (s : State) : Host.Outcome State Fault Refusal :=
  .next (match s.session session.toNat with
    | some x => if x.confirmed then s else (s.setSession session.toNat { x with addr := none }).closeSession session.toNat
    | none => s)

/-- The fragment that a decrypted message carries: sub-client, sequence number, index, data; none for a message of one fragment. -/
def fragmentOf (m : List Byte) : Option (Nat × Nat × Nat × List Byte) :=
  if leAt m 0 1 = 1 ∧ bitsOf (leAt m 3 1) 4 4 ≠ 1 then some (bitsOf (leAt m 1 1) 0 4, leAt m 4 4, bitsOf (leAt m 3 1) 0 4, m.drop 32) else none

/-- DATA (R418, R419, R424, R425): a record is authenticated, judged by its counter and decrypted; a request fragment is held. -/
def execData (r : HsRecord) (s : State) : Host.Outcome State Fault Refusal :=
  let id := r.session.toNat
  let c := r.counter.toNat
  if !s.trellisOn then .next s
  else match s.session id with
    | none => .next (s.authFail r.src.port.val)
    | some x =>
      if !x.confirmed then .next (s.authFail r.src.port.val)
      else match Config.gcmOpen (s.sessionKey x false) (recordHeader 5 id c) r.body with
        | none => .next (s.authFail r.src.port.val)
        | some m =>
          if c + 64 < x.recvMax ∨ x.replay.contains c = true then .next (s.addSat F.FIELD_REPLAY_DROP r.src.port.val 1)
          else
            let top := max x.recvMax c
            let x1 : Session := { x with
              addr := some r.src, recvMax := top, replay := (x.replay ++ [c]).filter fun k => decide (top ≤ k + 64)
              frags := match fragmentOf m with
                | some f => let key := f.1 * 2 ^ 32 + f.2.1; Tab.set x.frags key (Tab.set (Tab.get [] x.frags key) f.2.2.1 f.2.2.2)
                | none => x.frags }
            let s1 := s.setSession id x1
            .next (if 2 ^ 32 ≤ c then s1.closeSession id else s1)

/-- REQUEST_FRAGMENT_TIMEOUT (R425): what is held of the request is discarded without reply. -/
def execRequestFragmentTimeout (session : Word) (sub : Fin 16) (seq : Word) (s : State) : Host.Outcome State Fault Refusal :=
  .next (match s.session session.toNat with
    | some x => s.setSession session.toNat { x with frags := Tab.del x.frags (sub.val * 2 ^ 32 + seq.toNat) }
    | none => s)

/-- An open session. -/
def State.openSession (s : State) (id : Nat) : Option Session :=
  match s.session id with
  | some x => if x.confirmed then some x else none
  | none => none

/-- KEEPALIVE (R427). -/
def execKeepalive (session : Word) (s : State) : Host.Outcome State Fault Refusal :=
  .next (if (s.openSession session.toNat).isSome then s.sendRecords session.toNat 1 (.control session.toNat 3) else s)

/-- CLOSE (R423). -/
def execClose (session : Word) (s : State) : Host.Outcome State Fault Refusal :=
  .next (if (s.openSession session.toNat).isSome then s.closeSession session.toNat else s)

/-- SESSION_IDLE_TIMEOUT (R423). -/
def execSessionIdleTimeout (session : Word) (s : State) : Host.Outcome State Fault Refusal :=
  .next (if (s.openSession session.toNat).isSome then s.closeSession session.toNat else s)

/-! ### The service area (Table 15.8) -/

def State.areaBase (s : State) (p : Nat) : Nat := s.fld (F.FIELD_SVC_AREA_GIB.nth p) 0 * 2 ^ 30
def batchCopy (area v : Nat) : Nat := area + 0x1000000 + 0x1000000 * (v % 2)
def replyCopy (area v : Nat) : Nat := area + 0x3000000 + 0x1000000 * (v % 2)

/-- An engine record. -/
structure EngRec where
  engine : Nat
  mvpCore : Nat
  slots : Nat
  descFirst : Nat
  arg : Nat
  work : Nat
  record : Nat
deriving DecidableEq, Repr, Inhabited

/-- The service map. -/
structure SvcMap where
  models : Nat
  batchMax : Nat
  engines : List EngRec
deriving DecidableEq, Repr, Inhabited

def State.svcMap (s : State) (p : Nat) : SvcMap :=
  let a := s.areaBase p
  let h := s.unitRead a 8
  { models := leAt h 0 2, batchMax := leAt h 2 2
    engines := (List.range (leAt h 4 1)).map fun e =>
      let b := s.unitRead (a + 64 + 32 * e) 32
      { engine := leAt b 0 1, mvpCore := leAt b 1 1, slots := leAt b 2 2, descFirst := leAt b 4 4, arg := leAt b 8 6, work := leAt b 16 6
        record := leAt b 24 6 } }

/-! ### SOLVE bodies (Table 15.7) -/

/-- N, M, width of IN_FMT, width of OUT_FMT of a SOLVE body. -/
def solveDims (b : List Byte) : Nat × Nat × Nat × Nat := (leAt b 0 2, leAt b 2 2, fmtBytes (leAt b 4 1), fmtBytes (leAt b 5 1))

/-- A SOLVE body obeys Table 15.7. -/
def solveBodyOk (b : List Byte) : Bool :=
  let d := solveDims b
  let pos := fun (x : Nat) => decide (0 < x) && decide (x < 0x7F800000)
  let tau := leAt b 16 4
  decide (1 ≤ d.1) && decide (d.1 ≤ 256) && decide (d.2.1 ≤ 512) && (leAt b 4 1 == 4 || leAt b 4 1 == 5) && (leAt b 5 1 == 4 || leAt b 5 1 == 5) &&
    decide (leAt b 6 1 ≤ 3) && decide (1 ≤ leAt b 8 2) && decide (leAt b 8 2 ≤ 200) && pos (leAt b 12 4) && pos (leAt b 20 4) &&
    (decide (tau ≤ 0x7F800000) || tau == 0x80000000) &&
    b.length == 24 + d.2.2.1 * (d.1 * (d.1 + 1) / 2 + d.1 + d.2.1 * d.1 + 2 * d.2.1)

/-- The data of a SOLVE body unpacked: H as N × N (its upper triangle mirrored), then g, A, l and u as they stand. -/
def unpackSolve (b : List Byte) : List Byte :=
  let d := solveDims b
  let w := d.2.2.1
  let el := fun (k : Nat) => (b.drop (24 + k * w)).take w
  ((List.range d.1).flatMap fun i => (List.range d.1).flatMap fun j => let r := max i j; let c := min i j; el (r * (r + 1) / 2 + c)) ++
    b.drop (24 + w * (d.1 * (d.1 + 1) / 2))

/-! ### Batches (R428, R431) -/

/-- Rounded up to a multiple of 64. -/
def up64 (n : Nat) : Nat := (n + 63) / 64 * 64

/-- Where the management cores stand while they lay a batch out. -/
structure Layout where
  body : Nat
  out : Nat
  next : Nat                      -- the engine record that round-robin comes to
  used : Tab Nat                  -- problems given to each engine record
  placed : List PendReq
  full : Bool := false
deriving DecidableEq, Repr, Inhabited

/-- The next engine record, from `from_` on, that still takes a problem. -/
def nextEngine (es : List EngRec) (used : Tab Nat) (from_ : Nat) : Option Nat :=
  (List.range es.length).map (fun k => (from_ + k) % es.length) |>.find? fun e => decide (Tab.get 0 used e < (es.getD e default).slots)

/-- A request laid out in its batch. -/
def layOne (m : SvcMap) (l : Layout) (q : PendReq) : Layout :=
  let b := l.body + up64 q.body.length
  if q.op = 1 then
    match nextEngine m.engines l.used l.next with
    | none => { l with full := true }
    | some e =>
      let d := solveDims q.body
      let size := d.2.2.1 * (d.1 * d.1 + d.1 + d.2.1 * d.1 + 2 * d.2.1)
      let j := Tab.get 0 l.used e
      { l with body := b + up64 size, out := l.out + up64 (d.2.2.2 * (d.1 + d.2.1)), next := (e + 1) % max 1 m.engines.length
               used := Tab.set l.used e (j + 1)
               placed := l.placed ++ [{ q with bodyAddr := l.body, dataAddr := b, outAddr := l.out, engine := e, place := j }] }
  else { l with body := b, placed := l.placed ++ [{ q with bodyAddr := l.body }] }

/-- A batch of work pick `v` laid out; it is full where it does not fit (R428). -/
def layBatch (m : SvcMap) (area v : Nat) (qs : List PendReq) : Layout :=
  let b0 := batchCopy area v + 64 + 64 * m.batchMax
  let r0 := replyCopy area v + 64 + 32 * m.batchMax
  let l := qs.foldl (layOne m) ⟨b0, r0, 0, [], [], false⟩
  { l with full := l.full || decide (m.batchMax < qs.length) || decide (batchCopy area v + 0x1000000 < l.body) ||
             decide (replyCopy area v + 0x1000000 < l.out) }

/-- The 64 bytes of a batch record. -/
def batchRecord (m : SvcMap) (v : Nat) (q : PendReq) : List Byte :=
  let e := m.engines.getD q.engine default
  toLe 2 q.slot ++ toLe 1 q.sub ++ toLe 1 q.op ++ toLe 4 q.seq ++ toLe 6 q.deadline ++ toLe 2 q.model ++ toLe 1 q.fallback ++ toLe 3 0 ++
    toLe 4 q.body.length ++ toLe 6 q.bodyAddr ++ toLe 2 0 ++
    (if q.op = 1 then toLe 2 q.engine ++ toLe 2 (e.descFirst + v % 2 * e.slots + q.place) else toLe 4 0) ++ List.replicate 28 0

/-- Bytes of a descriptor with fields at their offsets; every other byte 0. -/
def descBytes (fs : List (Nat × List Byte)) : List Byte :=
  fs.foldl (fun b f => b.take f.1 ++ f.2 ++ b.drop (f.1 + f.2.length)) (List.replicate 256 0)

/-- The completion record's address of problem `j` of a batch. -/
def EngRec.recordOf (e : EngRec) (v j : Nat) : Nat := e.record + 64 * (e.slots * (v % 2) + j)

/-- The solve descriptor of a SOLVE record (R431). -/
def solveDescriptor (e : EngRec) (v index : Nat) (q : PendReq) : List Byte :=
  let b := q.body
  let d := solveDims b
  let w := d.2.2.1
  let g := q.dataAddr + w * d.1 * d.1
  let a := g + w * d.1
  let l := a + w * d.2.1 * d.1
  descBytes [(1, toLe 1 (leAt b 4 1 + 16 * leAt b 5 1)), (2, toLe 2 d.1), (4, toLe 2 d.2.1), (6, toLe 1 (leAt b 6 1)), (7, toLe 1 e.mvpCore),
    (8, toLe 2 (leAt b 8 2)), (12, toLe 4 (leAt b 16 4)), (16, toLe 4 (leAt b 20 4)), (20, toLe 4 (leAt b 12 4)), (24, toLe 6 q.dataAddr),
    (32, toLe 6 g), (40, toLe 6 a), (48, toLe 6 l), (56, toLe 6 (l + w * d.2.1)), (64, toLe 6 q.outAddr),
    (72, toLe 6 (q.outAddr + d.2.2.2 * d.1)), (80, toLe 6 e.work), (96, toLe 6 (e.recordOf v q.place)), (128, toLe 4 index)]

/-- The null descriptor of an engine with no SOLVE (R431); δ and EPS, which the kind does not use, are 1.0 (log entry 32). -/
def nullDescriptor (e : EngRec) (area v : Nat) : List Byte :=
  descBytes [(0, [3]), (1, [0x44]), (2, toLe 2 1), (4, toLe 2 1), (7, toLe 1 e.mvpCore), (16, toLe 4 0x3F800000), (20, toLe 4 0x3F800000),
    (24, toLe 6 (area + 32)), (32, toLe 6 (area + 36)), (64, toLe 6 (area + 40)), (80, toLe 6 e.work), (96, toLe 6 (e.recordOf v 0))]

/-- BATCH_WRITE: the batch of work pick `v` of a partition, with its solve descriptors and argument blocks, written to memory. -/
def State.writeBatch (s : State) (p v : Nat) (l : Layout) : State :=
  let m := s.svcMap p
  let area := s.areaBase p
  let base := batchCopy area v
  let put := fun (t : State) (a : Nat) (b : List Byte) => t.writeMem none a b
  let s1 := put s base (toLe 6 v ++ toLe 2 0 ++ toLe 4 l.placed.length ++ List.replicate 52 0)
  let s2 := l.placed.zipIdx.foldl (fun t x =>
    let q := x.1
    let e := m.engines.getD q.engine default
    let t1 := put (put t (base + 64 + 64 * x.2) (batchRecord m v q)) q.bodyAddr q.body
    if q.op = 1 then
      put (put t1 q.dataAddr (unpackSolve q.body)) (t1.descAddr e.engine (e.descFirst + v % 2 * e.slots + q.place)) (solveDescriptor e v x.2 q)
    else t1) s1
  m.engines.zipIdx.foldl (fun t x =>
    let e := x.1
    let n := Tab.get 0 l.used x.2
    let t1 := if n = 0 then put t (t.descAddr e.engine (e.descFirst + v % 2 * e.slots)) (nullDescriptor e area v) else t
    put t1 (e.arg + 8 * (v % 2)) (toLe 8 (max 1 n))) s2

/-- The partitions that serve Trellis. -/
def State.services (s : State) : List Nat := (List.range 8).filter fun p => s.trellisOn && s.coresUp && s.flag (F.FIELD_SVC_ENABLE.nth p) 0

/-- The edge that starts work pick `v` (R428): each service's batch is closed and written; what was held joins the next one. -/
def State.startBatches (s : State) (v : Nat) : State :=
  let lays := s.services.map fun p => (p, layBatch (s.svcMap p) (s.areaBase p) v (Tab.get [] s.field.queued p))
  let s1 := lays.foldl (fun t x => t.writeBatch x.1 v x.2) s
  { s1 with field := { s1.field with batch := lays.map fun x => (x.1, x.2.placed), queued := s1.field.held, held := [] } }

/-! ### Requests (R426, R427, R429) -/

def Session.sub (x : Session) (k : Nat) : SubClient := Tab.get {} x.subs k
def Session.setSub (x : Session) (k : Nat) (c : SubClient) : Session := { x with subs := Tab.set x.subs k c }

/-- `q` lies within the window H − 3 to H. -/
def inSeqWindow (h q : Nat) : Bool := decide ((h + 2 ^ 32 - q % 2 ^ 32) % 2 ^ 32 ≤ 3)

/-- The sub-client with `q` accepted: it is in the window, which moves up where `q` is the highest. -/
def SubClient.accept (c : SubClient) (q : Nat) : SubClient :=
  let h := match c.high with
    | none => q
    | some h => if follows32 q h then q else h
  { c with high := some h, window := (insertNat c.window q).filter (inSeqWindow h), cache := c.cache.filter fun e => inSeqWindow h e.1 }

/-- The sub-client with a reply cached. -/
def SubClient.store (c : SubClient) (q status run : Nat) (body : List Byte) : SubClient :=
  { c with cache := if c.high.any fun h => inSeqWindow h q then Tab.set c.cache q (status, run, body) else c.cache }

/-- A request accepted, and answered at once with a reply that is cached (R427, R429). -/
def State.replyNow (s : State) (id : Nat) (x : Session) (r : Request) (status : Nat) : State :=
  let q := r.seq.toNat
  let c := ((x.sub r.sub.val).accept q).store q status 0 []
  (((s.setSession id (x.setSub r.sub.val c)).addWrap F.FIELD_REQ_CNT 0 1).sendReply id r.sub.val q status 0 [])

/-- A request that is new (R426): BAD_REQUEST, an early DEADLINE, BUSY, or a place in a batch. -/
def State.newRequest (s : State) (id : Nat) (x : Session) (op : Nat) (r : Request) : State :=
  let p := x.part
  let m := s.svcMap p
  let q := r.seq.toNat
  let early := s.pick.stage == .open
  let e0 := s.pick.num + (if early then 2 else 3)
  if !r.reservedOk || (op != 1 && decide (m.models ≤ r.model.toNat)) || decide (s.pick.num + 2 ^ 20 < r.deadline.toNat) ||
      (op == 1 && !solveBodyOk r.body) then s.replyNow id x r 4
  else if r.deadline.toNat < e0 then (s.replyNow id x r 1).countEv F.FIELD_DEADLINE_CNT 0 1 Ev.FIELD_DEADLINE
  else
    let f := if r.fallback.val = 0 then s.fld (F.FIELD_SVC_FALLBACK.nth p) 0 else if r.fallback.val = 3 then 0 else r.fallback.val
    let item : PendReq := { session := id, slot := x.slot, sub := r.sub.val, seq := q, op := op, deadline := r.deadline.toNat, model := r.model.toNat
                            fallback := f, body := r.body }
    let old := Tab.get [] (if early then s.field.queued else s.field.held) p
    let v := s.pick.work + (if early then 1 else 2)
    if (layBatch m (s.areaBase p) v (old ++ [item])).full then
      (s.addSat F.FIELD_BUSY_CNT 0 1).sendReply id r.sub.val q 3 0 []
    else
      let s1 := (s.setSession id (x.setSub r.sub.val ((x.sub r.sub.val).accept q))).addWrap F.FIELD_REQ_CNT 0 1
      if early then { s1 with field := { s1.field with queued := Tab.set s1.field.queued p (old ++ [item]) } }
      else { s1 with field := { s1.field with held := Tab.set s1.field.held p (old ++ [item]) } }

/-- A REQUEST as a wake trigger while WAKE_ON_REQ is 1 (R490): in ENTERING it is held. -/
def State.wakeRequest (s : State) : State :=
  if s.flag F.POWER_DORM_CTL_WAKE_ON_REQ 0 then
    match s.fld F.POWER_PWR_STAT_STATE 0 with
    | 1 => { s with power := { s.power with wakeHeld := true } }
    | 2 => s.setFld F.POWER_PWR_STAT_STATE 0 3
    | _ => s
  else s

/-- A complete request is judged by its sequence number (R426). -/
def State.judgeRequest (s : State) (op : Nat) (r : Request) : State :=
  let id := r.session.toNat
  match s.openSession id with
  | none => s
  | some x0 =>
    let q := r.seq.toNat
    if s.fld F.POWER_PWR_STAT_STATE 0 = 2 then (s.wakeRequest.addSat F.FIELD_BUSY_CNT 0 1).sendReply id r.sub.val q 3 0 [] else
    let x : Session := { x0 with frags := Tab.del x0.frags (r.sub.val * 2 ^ 32 + q) }
    let s0 := s.wakeRequest.setSession id x
    let c := x.sub r.sub.val
    match c.high with
    | none => s0.newRequest id x op r
    | some h =>
      if follows32 q h then s0.newRequest id x op r
      else if !inSeqWindow h q then s0.sendReply id r.sub.val q 2 0 []
      else if !c.window.contains q then s0.newRequest id x op r
      else match Tab.get? c.cache q with
        | some y => (s0.addSat F.FIELD_DUP_REPLY 0 1).sendReply id r.sub.val q y.1 y.2.1 y.2.2
        | none => s0.addSat F.FIELD_DUP_PENDING 0 1

/-- SOLVE (R426). -/
def execSolve (r : Request) (s : State) : Host.Outcome State Fault Refusal := .next (s.judgeRequest 1 r)

/-- EVAL (R426). -/
def execEval (r : Request) (s : State) : Host.Outcome State Fault Refusal := .next (s.judgeRequest 2 r)

/-- PLAN (R426). -/
def execPlan (r : Request) (s : State) : Host.Outcome State Fault Refusal := .next (s.judgeRequest 3 r)

/-! ### Release of replies (R430, R433) -/

/-- The reply of a SOLVE record from its completion record and outputs (R427). -/
def State.solveReply (s : State) (m : SvcMap) (v : Nat) (q : PendReq) : Nat × List Byte :=
  let r := s.unitRead ((m.engines.getD q.engine default).recordOf v q.place) 64
  let code := leAt r 0 1
  let d := solveDims q.body
  let fixed := toLe 2 code ++ (r.drop 2).take 2 ++ toLe 4 0 ++ (r.drop 8).take 32
  if code ≤ 1 then (0, fixed ++ s.unitRead q.outAddr (d.2.2.2 * (d.1 + d.2.1))) else (if code = 2 then 1 else 8, fixed)

/-- The status and body that the work of pick `v` gave record `k` of a batch. -/
def State.workReply (s : State) (p v k : Nat) (q : PendReq) : Nat × List Byte :=
  if q.op = 1 then s.solveReply (s.svcMap p) v q
  else
    let b := s.unitRead (replyCopy (s.areaBase p) v + 64 + 32 * k) 32
    (leAt b 0 1, s.unitRead (leAt b 8 6) (min 16384 (leAt b 4 4)))

/-- A reply after the fallback rule of R433. -/
def SubClient.fallback (c : SubClient) (q : PendReq) (r : Nat × List Byte) : Nat × List Byte :=
  if q.op = 3 ∧ r.1 = 7 ∧ q.fallback = 1 then
    (match c.lastPlan with
     | some l => if l.1 = q.model then (5, l.2) else r
     | none => r)
  else r

/-- One reply released at the edge that begins pick `e` (R430). A reply of a closed session is discarded (R423). -/
def State.releaseOne (s : State) (p v e k : Nat) (q : PendReq) : State :=
  match s.openSession q.session with
  | none => s
  | some x =>
    let c := x.sub q.sub
    let late := decide (q.deadline < e)
    let r := if late then (1, []) else c.fallback q (s.workReply p v k q)
    let c1 := c.store q.seq r.1 (e - 1) r.2
    let c2 := if q.op = 3 ∧ r.1 = 0 then { c1 with lastPlan := some (q.model, r.2) } else c1
    let s1 := if late then s.countEv F.FIELD_DEADLINE_CNT 0 1 Ev.FIELD_DEADLINE
      else if 5 ≤ r.1 ∧ r.1 ≤ 7 then s.countEv F.FIELD_FALLBACK_CNT 0 1 Ev.FIELD_FALLBACK else s
    (s1.setSession q.session (x.setSub q.sub c2)).sendReply q.session q.sub q.seq r.1 (e - 1) r.2

/-- REPLY_RELEASE: the replies of the batch of work pick `v`, at the edge that begins pick `e`. -/
def State.releaseReplies (s : State) (v e : Nat) : State :=
  let s1 := s.field.batch.foldl (fun t x => x.2.zipIdx.foldl (fun u q => u.releaseOne x.1 v e q.2 q.1) t) s
  { s1 with field := { s1.field with batch := [] } }

end Sys2Proof.Machine
end

