-- ==== Sys2Proof/Machine/Reset.lean ====
section
/-! DEFINITION. Resets (R34, R463, R464): cold and warm resets, partition resets, restarts of the management cores (R455), and the
abandoning of all work that a shutdown or a loss brings (R482, R486). -/
namespace Sys2Proof.Machine
open Sys2Proof

/-- Register fields of the BOOK page that show the sideband unit's own state, which no reset restarts: the scan and the main power. -/
def standbyKeys : List Nat := [F.BOOK_BOOK_STAT_READY.key 0, F.BOOK_BOOK_STAT_STANDBY.key 0]

/-- Main power is absent: the device is in standby (BOOK_STAT.STANDBY). -/
def State.standby (s : State) : Bool := s.flag F.BOOK_BOOK_STAT_STANDBY 0

/-- What every reset of the device keeps (Table 17.4): fuses, cellar book, NOR, the sideband unit, the board's inputs, the host's own
memory. Every register takes its reset value. -/
def State.resetAll (s : State) : State :=
  { pending := s.pending
    sent := s.sent
    free := s.free
    regs := s.regs.filter fun e => standbyKeys.contains e.1
    nor := s.nor
    host := { mem := s.host.mem, poison := s.host.poison }
    mgmt := { arbCount := s.mgmt.arbCount, revoked := s.mgmt.revoked, debugFuse := s.mgmt.debugFuse
              resetKind := s.mgmt.resetKind }
    book := s.book
    side := s.side
    power := { vstby := s.power.vstby, vin := s.power.vin, pwrPin := s.power.pwrPin, pwrOk := s.power.pwrOk, resetN := s.power.resetN, sagOn := s.power.sagOn, sagging := s.power.sagging
               sagOnsetNs := s.power.sagOnsetNs, sagMin := s.power.sagMin, rideThrough := s.power.rideThrough, dies := s.power.dies
               alertN := s.power.alertN, perstN := s.power.perstN } }

/-- `n` bytes of memory take free values: their last value in a cache is lost. -/
def State.freeBytes (s : State) (a n : Nat) : State :=
  let bytes := (List.range n).map fun k => BitVec.ofNat 8 (Config.free (s.free + k))
  let s1 := { s with free := s.free + n }
  if regionOf a = .host then { s1 with host := { s1.host with mem := memWrite s1.host.mem (a - hostBase) bytes } }
  else { s1 with mem := memWrite s1.mem a bytes }

/-- The bytes of every dirty cached line take free values: a reset loses them, and what their backing store held before is not kept. -/
def State.loseDirty (s : State) : State :=
  (s.cellar.lines.filter fun e => e.2.dirty).foldl (fun t e => t.freeBytes (e.1 / 8 * 128) 128) s

/-- A warm reset (Table 17.4): DRAM contents and poison stay, in self-refresh. -/
def State.warmReset (s : State) : State :=
  let s0 := s.loseDirty
  let s1 : State := { s0.resetAll with
    mem := s0.mem.filter fun e => decide (e.1 < dramEnd)
    poison := s0.poison.filter fun b => decide (b * 64 < dramEnd) }
  s1.resetRec 1 0 0

/-- A cold reset (Table 17.4): DRAM is lost too; its RESET record is written at the following boot (R463). -/
def State.coldReset (s : State) : State :=
  let s1 := s.resetAll
  { s1 with
    book := { s1.book with bootNum := (s1.book.bootNum + 1) % 65536 }
    mgmt := { s1.mgmt with resetKind := some 0 } }

/-- The hottest die: its temperature in 1/16 °C and its index; 0 and 0 where no die has been measured. -/
def State.hottest (s : State) : Int × Nat :=
  match s.power.dies with
  | [] => (0, 0)
  | e :: t => t.foldl (fun m x => if m.1 < x.2 then (x.2, x.1) else m) (e.2, e.1)

/-- The hottest die is below THROTTLE. -/
def State.belowThrottle (s : State) : Bool := decide (s.hottest.1 < 16 * (s.fld F.POWER_THERM_CFG_THROTTLE 0 : Int))

/-- A warm reset asked for: held in SHUTDOWN until the hottest die is below THROTTLE (R486). -/
def State.askWarm (s : State) : State :=
  if s.standby then s
  else if s.fld F.POWER_PWR_STAT_STATE 0 = 4 && !s.belowThrottle then { s with power := { s.power with critHeld := true } }
  else s.warmReset

/-- A die's measured temperature. -/
def State.setTemp (s : State) (die : Nat) (t : Int) : State := { s with power := { s.power with dies := Tab.set s.power.dies die t } }

/-- RESET_N_LOW: low for at least 10 µs is a warm reset (Table 17.4). -/
def execResetNLow (us : Nat) (s : State) : Host.Outcome State Fault Refusal :=
  .next (if 10 ≤ us then
    let s1 := s.askWarm
    { s1 with power := { s1.power with resetN := false } }
  else s)

/-- HELD_WARM_RESET (R486). -/
def execHeldWarmReset (die : Fin 25) (temp : Int) (s : State) : Host.Outcome State Fault Refusal :=
  let s1 := s.setTemp die.val temp
  .next (if s1.power.critHeld && s1.belowThrottle then s1.warmReset else s1)

/-- All tasks are abandoned (R482, R486): no core, engine or slice runs one. -/
def State.abandon (s : State) : State :=
  { s with
    cores := []
    solvers := []
    colls := []
    pick := { s.pick with tasks := [], nextEntry := none }
    upd := { s.upd with slices := s.upd.slices.map fun e => (e.1, { e.2 with task := none, taskBlocks := [] }) } }

/-- A partition reset of `p` begins (R464, Table 17.4). An engine runs each descriptor in one step of this model, so it is between
descriptors, or before the run of one whose wait has ended. -/
def State.partReset (s : State) (p : Nat) : State :=
  let s1 := (s.closeSessions fun x => x.part == p).resetQueues fun f => f == p + 1
  let gone := (s1.solvers.map (·.1)).filter fun e => s1.fld F.SOLVER_SOLV_CTL e == p
  let s2 := gone.foldl (fun t e => (t.releasePath e).setSolver e {}) s1
  ({ s2 with mgmt := { s2.mgmt with partResets := insertNat s2.mgmt.partResets p } }).resetRec 2 p 0

/-- PART_RESET_DONE: the PART_RST bit returns to 0 (R464). -/
def execPartResetDone (p : Fin 8) (s : State) : Host.Outcome State Fault Refusal :=
  .next { s with mgmt := { s.mgmt with partResets := s.mgmt.partResets.filter (· != p.val) } }

/-- The management cores restart from the boot ROM (R455). -/
def State.mgmtRestart (s : State) : State :=
  let s1 := s.closeSessions fun _ => true
  let s2 := ((s1.setFld F.MGMT_MGMT_STAT_BOOT_STATE 0 0).setFld F.MGMT_MGMT_STAT_CORES_UP 0 0)
  ({ s2 with mgmt := { s2.mgmt with spdmState := 0, kicks := 0 }
             field := { s2.field with handshakes := [] } }).resetRec 4 0 0

/-- WATCHDOG_EXPIRE (R455): with TIMEOUT_MS at 0 the watchdog is off. -/
def execWatchdogExpire (s : State) : Host.Outcome State Fault Refusal :=
  .next (if s.fld F.MGMT_WDOG_TIMEOUT_MS 0 = 0 then s
    else (s.countEv F.MGMT_WDOG_CNT 0 1 Ev.MGMT_WDOG_EXPIRE).mgmtRestart)

/-- MGMT_SRAM_UNCORR (R455). -/
def execMgmtSramUncorr (s : State) : Host.Outcome State Fault Refusal :=
  .next (s.countEv F.MGMT_MGMT_ECC_UNCORR 0 1 Ev.MGMT_MGMT_UNCORR).mgmtRestart

end Sys2Proof.Machine
end

