-- ==== Sys2Proof/Machine/Source.lean ====
section
/-! DEFINITION. Time sources of the pick (R76 to R81, R108): loss and return of a source, PICK_IN, PICK_OUT, setting the pick number. -/
namespace Sys2Proof.Machine
open Sys2Proof

/-- The source in use is lost (R80): a follower with an alternative switches to it, and the device enters holdover otherwise. LOCAL is
never lost. -/
def State.sourceLost (s : State) : State :=
  let src := s.fld F.PICK_PICK_SRC_SOURCE 0
  if src = 1 ∨ s.flag F.PICK_SRC_STAT_HOLDOVER 0 = true then s
  else
    let alt := s.fld F.PICK_PICK_SRC_UPLINK_ALT 0
    if src = 0 ∧ s.flag F.PICK_PICK_SRC_ALT_EN 0 = true ∧ s.fld F.PICK_SRC_STAT_ACTIVE_LINK 0 ≠ alt ∧ s.linkLive alt = true then
      s.setFld F.PICK_SRC_STAT_ACTIVE_LINK 0 alt
    else (((s.setFld F.PICK_SRC_STAT_HOLDOVER 0 1).setFld F.PICK_SRC_STAT_LOCKED 0 0).setFld F.PICK_SRC_STAT_ACTIVE_LINK 0 0x3F).raise 12 0
      Ev.PICK_SOURCE_LOST

/-- SOURCE_LOSS (R80). -/
def execSourceLoss (s : State) : Host.Outcome State Fault Refusal := .next s.sourceLost

/-- SOURCE_RETURN (R80): the edges move to the source's by at most 100 ns per pick. -/
def execSourceReturn (offsetNs : Int) (s : State) : Host.Outcome State Fault Refusal :=
  if s.flag F.PICK_SRC_STAT_HOLDOVER 0 then
    let s1 := (s.setFld F.PICK_SRC_STAT_HOLDOVER 0 0).setFld F.PICK_SRC_STAT_LOCKED 0 1
    let s2 := if s.fld F.PICK_PICK_SRC_SOURCE 0 = 0 then s1.setFld F.PICK_SRC_STAT_ACTIVE_LINK 0 (s1.fld F.PICK_PICK_SRC_UPLINK 0) else s1
    .next { s2 with pick := { s2.pick with slewNs := offsetNs, lastPickInNs := none } }
  else .next s

/-- PICK_IN_EDGE (R79): an edge more than 1 µs from the time P after the previous one is ignored, and the source is lost. -/
def execPickInEdge (ns : Nat) (s : State) : Host.Outcome State Fault Refusal :=
  if s.fld F.PICK_PICK_SRC_SOURCE 0 ≠ 4 then .next s
  else
    let ok := match s.pick.lastPickInNs with
      | none => true
      | some p => decide (p + s.periodNs ≤ ns + 1000) && decide (ns ≤ p + s.periodNs + 1000)
    if ok then
      let s1 : State := { s with pick := { s.pick with lastPickInNs := some ns } }
      .next (if s1.flag F.PICK_SRC_STAT_HOLDOVER 0 then s1 else s1.setFld F.PICK_SRC_STAT_LOCKED 0 1)
    else .next s.sourceLost

/-- PICK_OUT_END (R81). -/
def execPickOutEnd (s : State) : Host.Outcome State Fault Refusal :=
  .next (if s.power.pickOut then ({ s with power := { s.power with pickOut := false } }).emit (.pickOut false) else s)

def errSetState : Nat := 0x80

/-- PICK_SET_HI.APPLY written with 1 (R108): the number that the two registers hold now is set at the next edge (log entry 113). -/
def State.pickSetApply (s : State) (code : Nat) : State :=
  let src := s.fld F.PICK_PICK_SRC_SOURCE 0
  if (src = 1 ∨ src = 4) ∧ s.fld F.PICK_SCHED_STAT_STATE 0 = 0 then
    { s with pick := { s.pick with pickSet := some (s.fld F.PICK_PICK_SET_LO 0 + s.fld F.PICK_PICK_SET_HI_NUM 0 * 2 ^ 32) } }
  else s.countErr 12 0 errSetState (pageAddr 12 0 0x0A8) code

/-- PICK_SET_APPLY: a write of PICK_SET_HI with APPLY = 1. -/
def execPickSetApply (ag : Agent) (hi : BitVec 16) (s : State) : Host.Outcome State Fault Refusal :=
  .next (s.pageAct ag 12 0 0x0A8 fun t => (t.setFld F.PICK_PICK_SET_HI_NUM 0 hi.toNat).pickSetApply (t.accessOf ag).code)

end Sys2Proof.Machine
end

