-- ==== Sys2Proof/Machine/Power.lean ====
section
/-! DEFINITION. Power, clocks and pins (chapter 18): the supply inputs (R476, R477), sags and losses (R481 to R483), the limiter (R479),
thermal limits (R484 to R486), reference clocks (R492), Dormant (R488 to R491). -/
namespace Sys2Proof.Machine
open Sys2Proof

/-! ### Clocks -/

/-- The core clock of an envelope in MHz, and its maximum input power in W (Table 18.3). -/
def envMhz (env : Nat) : Nat := if env = 0 then 1500 else if env = 1 then 1200 else 950
def envWatts (env : Nat) : Nat := if env = 0 then 3600 else if env = 1 then 2800 else 2000

/-- The committed envelope. -/
def State.envelope (s : State) : Nat := s.fld F.POWER_ENV_CTL 0

/-- The core clock (R480): the lowest of the envelope, limiter, sag and thermal clocks. -/
def State.coreMhz (s : State) : Nat :=
  min (min s.power.envMhz s.power.limitMhz) (min s.power.thermMhz (if s.power.sagging then 950 else 1500))

/-- The committed envelope in effect (R478): the limiter and the thermal steps limit no more than they did. -/
def State.applyEnvelope (s : State) : State :=
  let e := envMhz s.envelope
  let p := s.power
  { s with power := { p with
      envMhz := e
      limitMhz := if p.limitMhz < p.envMhz then min p.limitMhz e else e
      thermMhz := if p.throttling then p.thermMhz else 1500 } }

/-- ALERT_N is low while the hottest die is at or above WARN or VIN is below 42 V (Table 18.14). -/
def State.setAlert (s : State) : State :=
  let hot := decide (16 * (s.fld F.POWER_THERM_CFG_WARN 0 : Int) ≤ s.hottest.1)
  { s with power := { s.power with alertN := !(hot || (decide (0 < s.power.vin) && decide (s.power.vin < 42000))) } }

/-- The state code of PWR_STAT: 0 ACTIVE, 1 ENTERING, 2 DORMANT, 3 WAKING, 4 SHUTDOWN. -/
def State.pwrState (s : State) : Nat := s.fld F.POWER_PWR_STAT_STATE 0
def State.setPwrState (s : State) (k : Nat) : State := s.setFld F.POWER_PWR_STAT_STATE 0 k

/-! ### Supply inputs -/

/-- VSTBY is within its range (Table 18.1). -/
def State.vstbyOk (s : State) : Bool := decide (3135 ≤ s.power.vstby) && decide (s.power.vstby ≤ 3465)

/-- VSTBY_RISE (R476): the sideband unit starts, in standby; its scan is not done. A PWR_OK that is high already counts from now on. -/
def execVstbyRise (vstby : Nat) (s : State) : Host.Outcome State Fault Refusal :=
  let s1 : State := { s with power := { s.power with vstby := vstby } }
  .next (if s1.vstbyOk ∧ s.vstbyOk = false then
    let s2 : State := { s1 with power := { s1.power with pwrOk := s1.power.pwrPin } }
    (s2.setFld F.BOOK_BOOK_STAT_READY 0 0).setFld F.BOOK_BOOK_STAT_STANDBY 0 (bit (!s1.power.pwrPin))
  else s1)

/-- VIN_RISE (R476, R482): a rise above 40 V within ride-through ends it; the sag goes on until SAG_END. -/
def execVinRise (vin : Nat) (s : State) : Host.Outcome State Fault Refusal :=
  let p := s.power
  .next ({ s with power := { p with
      vin := max p.vin vin
      rideThrough := p.rideThrough && decide (vin ≤ 40000) } }).setAlert

/-- PWR_OK_RISE (R476): ignored until VSTBY is in range. -/
def execPwrOkRise (s : State) : Host.Outcome State Fault Refusal :=
  let s0 : State := { s with power := { s.power with pwrPin := true } }
  if s.vstbyOk then
    let s1 : State := { s0 with power := { s0.power with pwrOk := true, faultHeld := false } }
    .next (s1.setFld F.BOOK_BOOK_STAT_STANDBY 0 0)
  else .next s0

/-! ### Sags and losses -/

/-- A SAG record's DATA (Table 18.6). -/
def State.sagData (s : State) (onset duration outcome : Nat) : List Byte :=
  toLe 2 onset ++ toLe 2 (s.power.sagMin / 10) ++ toLe 4 duration ++ [BitVec.ofNat 8 outcome, BitVec.ofNat 8 s.envelope]

/-- The SAG record that waits becomes ready, behind the records that already are (R472, R483). -/
def State.releaseSag (s : State) (duration outcome : Nat) : State :=
  match s.book.queue.find? fun r => r.ty == 4 && !r.ready with
  | none => s
  | some r =>
    let r' : QRec := { r with ready := true, data := padTo 28 (s.sagData (leNat (r.data.take 2)) duration outcome) }
    { s with book := { s.book with queue := s.book.queue.filter (fun q => !(q.ty == 4 && !q.ready)) ++ [r'] } }

/-- A sag begins (R481, R483). In Dormant it changes no clock (R491). -/
def State.sagBegin (s : State) (vin ns : Nat) : State :=
  let s1 : State := { s with power := { s.power with vin := vin, sagging := s.pwrState != 2, sagOnsetNs := ns, sagMin := vin, sagOn := true } }
  let s2 := (s1.countEv F.POWER_SAG_CNT 0 1 Ev.POWER_SAG).setAlert
  let r : QRec := { s2.bookRec 4 (s2.sagData (vin / 10) 0xFFFFFFFF 2) with ready := false }
  s2.bookPush r

/-- SAG_ONSET: VIN falls below 42 V at a time on the pick timebase. -/
def execSagOnset (vin : Nat) (ns : Nat) (s : State) : Host.Outcome State Fault Refusal :=
  .next (if vin < 42000 ∧ s.power.sagOn = false then s.sagBegin vin ns else s)

/-- SAG_END: VIN rises above 43 V (R481). -/
def execSagEnd (vin : Nat) (ns : Nat) (s : State) : Host.Outcome State Fault Refusal :=
  if 43000 < vin ∧ s.power.sagOn = true then
    let dur := min 0xFFFFFFFF (ns - s.power.sagOnsetNs)
    let s1 := s.releaseSag dur 0
    let s2 : State := { s1 with power := { s1.power with vin := vin, sagging := false, sagOn := false, rideThrough := false } }
    .next ((s2.setFld F.POWER_SAG_MAX_NS 0 (max dur (s2.fld F.POWER_SAG_MAX_NS 0))).setAlert)
  else .next s

/-- SAG_RECORD_RELEASE: 1 ms after onset, the sag not ended (R483). -/
def execSagRecordRelease (s : State) : Host.Outcome State Fault Refusal := .next (s.releaseSag 0xFFFFFFFF 2)

/-- RIDE_THROUGH (R482): VIN falls below 38 V. -/
def execRideThrough (vin : Nat) (s : State) : Host.Outcome State Fault Refusal :=
  if vin < 38000 then
    let s1 := if s.power.sagOn then s else s.sagBegin vin s.power.sagOnsetNs
    .next ({ s1 with power := { s1.power with vin := vin, sagMin := min vin s1.power.sagMin, rideThrough := true } }).setAlert
  else .next s

/-- The records written during a loss, marked HOLDUP, as far as the energy goes. -/
def State.flushBook (s : State) : Nat → State
  | 0 => s
  | n + 1 => if s.book.queue.isEmpty then s else (s.bookWriteNext true).flushBook n

/-- The loss sequence from its 50 µs point on (Table 18.5, R482): a cold reset, the queued records written, then one POWER_LOSS record;
`writable` records can be written in the hold-up time. -/
def State.loss (s : State) (writable : Nat) : State :=
  let s1 := s.releaseSag 0xFFFFFFFF 1
  let n := min writable s1.book.queue.length
  let left := s1.book.queue.length - n
  let r := s1.bookRec 6 (toLe 2 n ++ toLe 2 left)
  let s2 := s1.coldReset.flushBook n
  let s3 : State := { s2 with
    book := { s2.book with queue := [], dropped := s2.book.dropped || decide (0 < left) }
    power := { s2.power with pwrOk := false, faultHeld := true, sagging := false, sagOn := false, rideThrough := false } }
  ((s3.countEv F.BOOK_DROP_CNT 0 left Ev.BOOK_BOOK_DROP).writeRecord true r).setFld F.BOOK_BOOK_STAT_STANDBY 0 1

/-- LOSS_SEQUENCE: ride-through has lasted 50 µs. -/
def execLossSequence (writable : Nat) (s : State) : Host.Outcome State Fault Refusal :=
  .next (if s.power.rideThrough then s.loss writable else s)

/-- PWR_OK_FALL (R477): a cold reset; the loss sequence from its 50 µs point, with VIN held for 3 ms, in which every queued record is
written. -/
def execPwrOkFall (s : State) : Host.Outcome State Fault Refusal :=
  let s1 : State := { s with power := { s.power with pwrPin := false } }
  .next (if s.standby then s1 else s1.loss s.book.queue.length)

/-! ### The limiter -/

/-- LIMITER_STEP (R479): the average over the last 1 ms, and whether a 1 ms window ends. -/
def execLimiterStep (watts : Nat) (windowEnd : Bool) (s : State) : Host.Outcome State Fault Refusal :=
  let top := envWatts s.envelope
  let p := s.power
  let falling := decide (top < watts) || (p.limFalling && decide (97 * top ≤ 100 * watts))
  let mhz := if falling then min p.limitMhz p.envMhz - 50 else min p.envMhz (p.limitMhz + 50)
  let held := p.limHeld || decide (mhz < p.envMhz)
  let s1 : State := { s with power := { p with limitMhz := mhz, limFalling := falling, limHeld := held && !windowEnd } }
  let s2 := (s1.setFld F.POWER_PWR_IN 0 watts).setFld F.POWER_PWR_PEAK 0 (max (watts % 65536) (s1.fld F.POWER_PWR_PEAK 0))
  .next (if windowEnd && held then s2.countEv F.POWER_LIMIT_MS 0 1 Ev.POWER_POWER_LIMIT else s2)

/-! ### Thermal limits -/

/-- A THERMAL record (Table 18.8). -/
def State.thermalRec (s : State) (kind die : Nat) (temp : Int) : State :=
  s.bookPush (s.bookRec 5 ([BitVec.ofNat 8 kind, BitVec.ofNat 8 die] ++ toLe 2 (wrapInt 16 temp) ++ toLe 2 s.coreMhz ++
    [BitVec.ofNat 8 s.envelope]))

/-- The hottest die is at or above a threshold in °C. -/
def State.atLeast (s : State) (deg : Nat) : Bool := decide (16 * (deg : Int) ≤ s.hottest.1)

/-- THERM_WARN (R484): a die's temperature; the hottest one crossing WARN is an event and a record. -/
def execThermWarn (die : Fin 25) (temp : Int) (s : State) : Host.Outcome State Fault Refusal :=
  let warn := s.fld F.POWER_THERM_CFG_WARN 0
  let s1 := (s.setTemp die.val temp).setAlert
  .next (if s1.atLeast warn ∧ s.atLeast warn = false then (s1.raise 15 0 Ev.POWER_THERM_WARN).thermalRec 0 die.val temp else s1)

/-- THERMAL_CLOCK_STEP (R485): one step of the thermal clock, down at or above THROTTLE, up once below THROTTLE − 2 °C. -/
def execThermalClockStep (die : Fin 25) (temp : Int) (s : State) : Host.Outcome State Fault Refusal :=
  let s1 := (s.setTemp die.val temp).setAlert
  let t := s1.fld F.POWER_THERM_CFG_THROTTLE 0
  let p := s1.power
  if s1.atLeast t then
    let mhz := max 500 (min p.thermMhz p.envMhz - 50)
    let s2 : State := { s1 with power := { p with thermMhz := mhz, throttling := true } }
    .next (if p.throttling then s2
      else (s2.countEv F.POWER_THROTTLE_CNT 0 1 Ev.POWER_THROTTLE).thermalRec 1 die.val temp)
  else if p.throttling ∧ s1.hottest.1 < 16 * ((t : Int) - 2) then
    let mhz := p.thermMhz + 50
    if p.envMhz ≤ mhz then
      .next (({ s1 with power := { p with thermMhz := 1500, throttling := false } }).thermalRec 2 die.val temp)
    else .next { s1 with power := { p with thermMhz := mhz } }
  else .next s1

/-- The shutdown of R486 and of a lost CLK100_1: every clock but the hub's power and sideband logic stops, tasks are abandoned, DRAM is in
self-refresh, FAULT_N and READY are low. -/
def State.shutdown (s : State) : State :=
  let s1 := (s.abandon.modPick fun p => { p with stage := .stopped }).setPwrState 4
  { s1 with power := { s1.power with faultHeld := true, readyPin := false } }

/-- THERM_CRIT (R486): a die at 112 °C. -/
def execThermCrit (die : Fin 25) (temp : Int) (s : State) : Host.Outcome State Fault Refusal :=
  let s1 := (s.setTemp die.val temp).setAlert
  if 16 * 112 ≤ temp ∧ s1.pwrState ≠ 4 then
    let s2 := s1.shutdown
    .next ((({ s2 with power := { s2.power with thermN := false } }).raise 15 0 Ev.POWER_THERM_CRIT).thermalRec 3 die.val temp)
  else .next s1

/-- REFCLK_LOST (R492, Table 18.11): 0 CLK100_0, 1 CLK100_1, 2 CLK156. -/
def execRefclkLost (clk : Fin 3) (s : State) : Host.Outcome State Fault Refusal :=
  let s1 := if clk.val = 0 then s.linkDownHost
    else if clk.val = 1 then s.shutdown
    else (((List.range 36).foldl (fun t l => if t.linkState l ≤ 4 then t.linkDown l else t) s).portDown 0).portDown 1
  .next (s1.raise 15 0 Ev.POWER_REFCLK_LOST)

/-! ### Dormant -/

def errDormRefused : Nat := 0x81

/-- DORM_CTL.ENTER written with 1 (R488). Host-held lines are back-invalidated; their answers come as commands. -/
def State.dormEnter (s : State) (code : Nat) : State :=
  if s.fld F.PICK_SCHED_STAT_STATE 0 ≠ 0 ∨ s.pwrState ≠ 0 ∨ s.fld F.DEVICE_COMMIT_CTL_STATE 0 = 1 then
    s.countErr 15 0 errDormRefused (pageAddr 15 0 0x0A0) code
  else
    let s1 := (s.setPwrState 1).setFld F.POWER_DORM_CTL_ENTER 0 1
    let s2 : State := { s1 with power := { s1.power with readyPin := false } }
    s2.cellar.filter.foldl (fun (t : State) e =>
      e.2.foldl (fun (u : State) x => u.backSnoop x.1 true) t) s2

/-- ENTER. -/
def execEnter (ag : Agent) (s : State) : Host.Outcome State Fault Refusal :=
  .next (s.pageAct ag 15 0 0x0A0 fun t => t.dormEnter (t.accessOf ag).code)

/-- A wake starts (R490). -/
def State.wakeStart (s : State) : State := s.setPwrState 3

/-- A wake trigger: in ENTERING it is held, in WAKING and elsewhere it has no effect (R490). -/
def State.wake (s : State) : State :=
  if s.pwrState = 2 then s.wakeStart
  else if s.pwrState = 1 then { s with power := { s.power with wakeHeld := true } } else s

/-- Spools, vector and strand state and the vat are lost in Dormant (R489). -/
def State.loseCores (s : State) : State :=
  { s with
    cores := []
    mem := s.mem.filter fun e => match regionOf e.1 with
      | .spool _ => false
      | _ => true
    poison := s.poison.filter fun b => match regionOf (b * 64) with
      | .spool _ => false
      | _ => true }

/-- DORMANT_ENTRY_COMPLETE (R488): every cache granule is flushed, every link is down, every fabric heddle is released; a held trigger starts the
wake. -/
def execDormantEntryComplete (s : State) : Host.Outcome State Fault Refusal :=
  if s.pwrState ≠ 1 then .next s
  else
    let s1 := (List.range 8).foldl (fun t d => t.writeBack d fun _ => true) s
    let s2 : State := { s1 with cellar := { s1.cellar with filter := [], asked := [] } }
    let s3 := (List.range 36).foldl (fun t l => if t.linkState l = 5 then t else t.setLinkState l 0) s2
    let s4 : State := { s3 with fab := { s3.fab with heddles := s3.fab.heddles.filter fun e => e.2.session } }
    let s5 := if s4.fld F.PICK_PICK_SRC_SOURCE 0 = 0 then s4.sourceLost else s4
    let s6 := (((s5.loseCores.setPwrState 2).setFld F.POWER_DORM_CTL_ENTER 0 0).addWrap F.POWER_DORM_CNT 0 1).raise 15 0 Ev.POWER_DORMANT
    .next (if s6.power.wakeHeld then ({ s6 with power := { s6.power with wakeHeld := false } }).wakeStart else s6)

/-- DORM_CTL.WAKE written with 1. -/
def State.wakeReg (s : State) : State :=
  if s.pwrState = 2 ∨ s.pwrState = 1 then s.wake.setFld F.POWER_DORM_CTL_WAKE 0 1 else s.wake

/-- WAKE. -/
def execWake (ag : Agent) (s : State) : Host.Outcome State Fault Refusal := .next (s.pageAct ag 15 0 0x0A0 State.wakeReg)

/-- WAKE_N low for `ns` (R490): at least 1 µs, while WAKE_ON_PIN is 1. -/
def execWakeN (ns : Nat) (s : State) : Host.Outcome State Fault Refusal :=
  .next (if 1000 ≤ ns ∧ s.flag F.POWER_DORM_CTL_WAKE_ON_PIN 0 = true then s.wake else s)

/-- WAKE_COMPLETE (R490). -/
def execWakeComplete (s : State) : Host.Outcome State Fault Refusal :=
  if s.pwrState = 3 then
    let s1 := (s.setPwrState 0).setFld F.POWER_DORM_CTL_WAKE 0 0
    let s2 := (List.range 36).foldl (fun t l => t.linkTrain l) s1
    .next (({ s2 with power := { s2.power with readyPin := true } }).raise 15 0 Ev.POWER_WAKE)
  else .next s

end Sys2Proof.Machine
end

