-- ==== Sys2Proof/Machine/Commit.lean ====
section
/-! DEFINITION. Staged configuration (R57 to R65): the pages that a commit includes, the rules that the chapters give for it, arming,
cancelling, rejection, and the commit at its edge. -/
namespace Sys2Proof.Machine
open Sys2Proof

/-! ### What a commit changes -/

/-- The page of a register key, and the offset on it. -/
def keyPage (k : Nat) : Nat × Nat := (k / 2 ^ 27, k / 2 ^ 17 % 1024)
def keyOff (k : Nat) : Nat := k / 32 % 4096

/-- The committed value under a key. -/
def State.committedAt (s : State) (k : Nat) : Nat :=
  let p := keyPage k
  match (fldsAt p.1 (keyOff k)).find? fun f => f.lo == k % 32 with
  | some f => s.fld f p.2
  | none => 0

/-- The staged values of the included pages. -/
def State.stagedOf (s : State) (pages : List (Nat × Nat)) : List (Nat × Nat) := s.shadow.filter fun e => pages.contains (keyPage e.1)

/-- The state with the staged values of the included pages as its committed ones. -/
def State.resulting (s : State) (pages : List (Nat × Nat)) : State :=
  { s with regs := (s.stagedOf pages).foldl (fun t e => Tab.set t e.1 e.2) s.regs }

/-- The keys whose committed values change. -/
def State.changes (s : State) (pages : List (Nat × Nat)) : List Nat :=
  ((s.stagedOf pages).filter fun e => s.committedAt e.1 != e.2).map (·.1)

/-- Every page, in order of type and instance. -/
def allPages : List (Nat × Nat) := (List.range 19).flatMap fun ty => (List.range (instances ty)).map fun i => (ty, i)

/-- The pages whose CFG_STAGE is `g` (R58). -/
def State.stagedPages (s : State) (g : Nat) : List (Nat × Nat) := allPages.filter fun p => s.fld (F.CFG_STAGE p.1) p.2 == g

/-! ### Rules of partitions (R67, R356) -/

def State.partEnabled (s : State) (p : Nat) : Bool := s.flag F.PART_PART_CTL_ENABLE p
def State.quota (s : State) (p : Nat) : Nat := s.fld F.PART_HEDDLE_QUOTA_QUOTA p
def State.sessMax (s : State) (p : Nat) : Nat := s.fld (F.HEDDLE_SESS_MAX.nth p) 0

/-- Two ranges of numbers overlap. -/
def overlap (a n b m : Nat) : Bool := decide (a < b + m) && decide (b < a + n)

/-- The valid DRAM ranges of a partition: base and count in GiB. -/
def State.validRanges (s : State) (p : Nat) : List (Nat × Nat) :=
  ((List.range 8).filter fun k => s.flag (F.PART_DRAM_RNG_VALID.nth k) p).map fun k =>
    (s.fld (F.PART_DRAM_RNG_BASE.nth k) p, s.fld (F.PART_DRAM_RNG_COUNT.nth k) p)

/-- A range of bytes lies in the DRAM of a partition. -/
def State.ownsBytes (s : State) (p a n : Nat) : Bool :=
  decide (a + n ≤ dramEnd) && (rangeFrom (a / 2 ^ 30) ((a + n - 1) / 2 ^ 30 - a / 2 ^ 30 + 1)).all fun g =>
    (s.validRanges p).any fun r => decide (r.1 ≤ g) && decide (g < r.1 + r.2)

/-- Every core belongs to an enabled partition, and to one only. -/
def State.coresOk (s : State) : Bool :=
  (List.range 16).all fun j =>
    let m := fun (p : Nat) => s.fld (F.PART_CORE_MAP.nth j) p
    ((List.range 8).map m).sum == 0xFFFFFFFF &&
      ((List.range 8).filter s.partEnabled).foldl (fun x p => x ||| m p) 0 == 0xFFFFFFFF

/-- The granules of a partition, as one number. -/
def State.granBits (s : State) (p : Nat) : Nat := s.fld F.PART_GRAN_OWN0 p + s.fld F.PART_GRAN_OWN1 p * 2 ^ 32

/-- A partition that is disabled owns nothing. -/
def State.ownsNothing (s : State) (p : Nat) : Bool :=
  (List.range 16).all (fun j => s.fld (F.PART_CORE_MAP.nth j) p == 0) && (s.validRanges p).isEmpty && s.granBits p == 0 &&
    (List.range 16).all fun e => s.fld F.SOLVER_SOLV_CTL e != p

/-- The rules that concern partition `p` in a resulting configuration (R67). -/
def State.partOk (s : State) (p : Nat) : Bool :=
  s.coresOk &&
    (s.validRanges p).all (fun r => r.2 != 0 && decide (r.1 + r.2 ≤ 1536)) &&
    (List.range 8).all (fun q => q == p ||
      ((s.validRanges p).all (fun a => (s.validRanges q).all fun b => !overlap a.1 a.2 b.1 b.2) && (s.granBits p &&& s.granBits q) == 0)) &&
    (s.partEnabled p || s.ownsNothing p) && decide ((((List.range 8).filter s.partEnabled).map s.quota).sum ≤ 490)

/-- The Trellis service of a partition may be as it is (R435). -/
def State.svcOk (s : State) (p : Nat) : Bool :=
  s.fld (F.FIELD_SVC_FALLBACK.nth p) 0 != 3 &&
    (!s.flag (F.FIELD_SVC_ENABLE.nth p) 0 ||
      (s.partEnabled p && s.flag F.PART_PART_CTL_SERVICE p && s.ownsBytes p (s.fld (F.FIELD_SVC_AREA_GIB.nth p) 0 * 2 ^ 30) (2 ^ 30) &&
        s.sessMax p != 0))

/-! ### Rules of other pages -/

/-- PICK_CFG, PICK_GUARD, SOURCE and RECOVERY_LIMIT (R69, R73, R74, Tables 3.2 and 3.9). -/
def State.pickOk (s : State) : Bool :=
  let p := s.fld F.PICK_PICK_CFG_PERIOD 0
  let c := s.fld F.PICK_PICK_CFG_SIZE_CLASS 0
  let g := s.fld F.PICK_PICK_GUARD 0
  decide (100 ≤ p) && decide (p ≤ 100000) && c != 3 && decide ((sizeClass c).2.2 ≤ p) && (g == 0 || decide ((sizeClass c).2.1 ≤ g)) &&
    decide (5 * guardUs p g c ≤ p) && decide (s.fld F.PICK_PICK_SRC_SOURCE 0 < 5) && s.fld F.PICK_SCHED_CTL_RECOVERY_LIMIT 0 != 0

/-- The TAI instant at which pick `n` begins (R78). -/
def State.pickTai (s : State) (n : Nat) : Nat := s.fldPair F.PICK_PTP_EPOCH_LO F.PICK_PTP_EPOCH_HI 0 + n * s.periodNs

/-- A change of P or EPOCH under PTP0 or PTP1 keeps the instant of the commit pick (R107). -/
def State.taiOk (s r : State) (n : Nat) : Bool :=
  let src := r.fld F.PICK_PICK_SRC_SOURCE 0
  (src != 2 && src != 3) || s.pickTai n == r.pickTai n

/-- What R407 checks at the edge of a commit that sets RUN. -/
def State.resumeOk (s r : State) (work : Nat) : Bool :=
  !(r.flag F.PICK_SCHED_CTL_RUN 0 && !s.flag F.PICK_SCHED_CTL_RUN 0 && s.flag F.AUDIT_AUD_CTL_RESUME_CHK 0) ||
    s.fld F.AUDIT_RESUME_WORK_LO 0 + s.fld F.AUDIT_RESUME_WORK_HI 0 * 2 ^ 32 == work

/-- The range that a granule is bound to by the registers: whether it is valid, its address. -/
def State.bindOf (s : State) (g : Nat) : Bool × Nat := (s.flag (F.CELLAR_ACC_BIND_VALID.nth (g % 6)) (g / 6), s.granBind g * 2 ^ 24)

/-- The mode or binding register of a granule changes. -/
def State.granChanges (s r : State) (g : Nat) : Bool := s.granMode g != r.granMode g || s.bindOf g != r.bindOf g

/-- A granule enters accumulation mode or is rebound in it. -/
def State.entersAcc (s r : State) (g : Nat) : Bool :=
  r.granMode g == 2 && (s.granMode g != 2 || s.bindOf g != r.bindOf g)

/-- The conditions on a bound range (R295). -/
def State.accOk (s r : State) (g : Nat) : Bool :=
  let a := (r.bindOf g).2
  (r.bindOf g).1 && decide (a + accBytes ≤ dramEnd) &&
    (match r.granPart g with
     | some p => r.ownsBytes p a accBytes
     | none => false) &&
    (List.range 48).all fun k => k == g ||
      (!(r.granMode k == 2 && overlap a accBytes (r.bindOf k).2 accBytes) &&
        !((s.granule k).mode == 2 && overlap a accBytes ((s.granule k).bind * 2 ^ 24) accBytes))

/-- The landing area of slice `c` lies in a scratchpad granule of its die (R387). -/
def State.landingOk (r : State) (c : Nat) : Bool :=
  match regionOf (r.fldPair F.COLL_LAND_BASE_LO F.COLL_LAND_BASE_HI c) with
  | .window g => r.granMode g == 1 && (c == 8 || g / 6 == c)
  | _ => false

/-- No landing area loses its scratchpad granule (R387). -/
def State.landingsKept (s r : State) : Bool := (List.range 9).all fun k => !s.landingOk k || r.landingOk k

/-- CELLAR page `c` (Table 10.3, R295, R299, R307, R387). -/
def State.cellarOk (s r : State) (c : Nat) : Bool :=
  s.landingsKept r && (List.range 6).all fun i =>
    let g := 6 * c + i
    r.granMode g != 3 && !((r.bindOf g).1 && decide (98289 < r.granBind g)) && !((s.granule g).flushing && s.granChanges r g) &&
      (!s.entersAcc r g || s.accOk r g)

/-- No other valid link holds a link's role and member (R338). -/
def State.linkRoleOk (r : State) (l : Nat) : Bool :=
  !r.flag F.LINK_ROLE_VALID l || (List.range 36).all fun k => k == l || !r.flag F.LINK_ROLE_VALID k ||
    !(r.linkRole k == r.linkRole l && r.fld F.LINK_ROLE_MEMBER k == r.fld F.LINK_ROLE_MEMBER l)

/-- HEDDLE (R356, R366). -/
def State.heddleOk (r : State) : Bool :=
  let n := (List.range 4).map r.axisN
  n.zip [8, 8, 32, 32] |>.all (fun x => x.1 != 0 && decide (x.1 ≤ x.2)) &&
    (List.range 4).all (fun x => decide ((coordsOf r.ownDev).getD x 0 < r.axisN x)) &&
    decide (129 ≤ r.fld F.HEDDLE_HEDDLE_CFG_CRED_SHARED 0) &&
    decide (r.fld F.HEDDLE_HEDDLE_CFG_CRED_SHARED 0 ≤ r.fld F.HEDDLE_HEDDLE_CFG_CRED_PERM 0) && r.fld F.HEDDLE_HEDDLE_CFG_RETX_US 0 != 0 &&
    (List.range 8).all fun p => decide (r.sessMax p ≤ r.quota p)

/-- The valid ranges of the host window and of the host's cacheable view of DRAM: base and length. -/
def State.hwins (r : State) : List (Nat × Nat × Nat) :=
  ((List.range 8).filter fun k => r.flag (F.HOST_HWIN_CTL_VALID.nth k) 0).map fun k =>
    (k, r.fld (F.HOST_HWIN_BASE_LO.nth k) 0 * 2 ^ 12 + r.fld (F.HOST_HWIN_BASE_HI.nth k) 0 * 2 ^ 32, r.fld (F.HOST_HWIN_LEN.nth k) 0 * 4096)
def State.hcaches (r : State) : List (Nat × Nat × Nat) :=
  ((List.range 4).filter fun k => r.flag (F.HOST_HCACHE_VALID.nth k) 0).map fun k =>
    (k, r.fld (F.HOST_HCACHE_BASE.nth k) 0, r.fld (F.HOST_HCACHE_COUNT.nth k) 0)

/-- No two of a list of ranges overlap. -/
def apart (l : List (Nat × Nat × Nat)) : Bool :=
  l.all fun a => l.all fun b => a.1 == b.1 || !overlap a.2.1 a.2.2 b.2.1 b.2.2

/-- A host window that is not shared names an enabled partition (R453). -/
def State.hwinPartsOk (r : State) : Bool :=
  r.hwins.all fun a => r.flag (F.HOST_HWIN_CTL_SHARED.nth a.1) 0 || r.partEnabled (r.fld (F.HOST_HWIN_CTL_PART.nth a.1) 0)

/-- HOST (R453). -/
def State.hostOk (r : State) : Bool :=
  r.hwins.all (fun a => decide (a.2.1 + a.2.2 ≤ 2 ^ 44)) && apart r.hwins && r.hwinPartsOk &&
    r.hcaches.all (fun a => decide (a.2.1 + a.2.2 ≤ 1536)) && apart r.hcaches

/-- STACK page `k` (R309). -/
def State.stackOk (r : State) (k : Nat) : Bool :=
  decide (r.fld F.STACK_PRIV_CAP k ≤ 10) &&
    (List.range 8).all fun p => decide (r.fld (F.STACK_REG_RATE.nth p) k ≤ 1024) && r.fld (F.STACK_REG_BURST.nth p) k != 0

/-- UPDATE page `c` (R333): OPEN_MAX; at the edge, what may not change while a block is open. -/
def State.updateOk (s r : State) (c : Nat) (edge : Bool) (changed : List Nat) : Bool :=
  let m := r.fld F.UPDATE_UPD_CTL_OPEN_MAX c
  decide (1 ≤ m) && decide (m ≤ 64) &&
    !(edge && !(s.slice c).blocks.isEmpty && changed.any fun k => keyPage k == (6, c) && k != F.UPDATE_UPD_CTL_ENABLE.key c)

/-- AUDIT (R412). -/
def State.auditOk (r : State) : Bool :=
  let l := r.fld F.AUDIT_AUD_CTL_SEAL_LOG2 0
  decide (4 ≤ l) && decide (l ≤ 16) && !(r.fld F.AUDIT_AUD_CTL_REPL_AXES 0 == 0 && r.flag F.AUDIT_AUD_CTL_CMP_EN 0)

/-- SEC (R473): the trust areas of the enabled service partitions lie in their DRAM. -/
def State.secOk (r : State) : Bool :=
  (List.range 8).all fun p => !(r.partEnabled p && r.flag F.PART_PART_CTL_SERVICE p) ||
    r.ownsBytes p (r.fldPair F.SEC_TRUST_BASE_LO F.SEC_TRUST_BASE_HI 0 + 65536 * p) 65536

/-- The rules on an included page: `s` the configuration before, `r` the resulting one, `n` and `work` the commit pick. -/
def State.pageRuleOk (s r : State) (edge : Bool) (changed : List Nat) (n work : Nat) (pg : Nat × Nat) : Bool :=
  let i := pg.2
  match pg.1 with
  | 1 => decide (16 ≤ r.fld F.CORE_ARR_CTL_IDLE_THRESH i)
  | 3 => s.cellarOk r i
  | 4 => r.stackOk i
  | 5 => r.partEnabled (r.fld F.SOLVER_SOLV_CTL i)
  | 6 => s.updateOk r i edge changed
  | 7 => r.landingOk i
  | 8 => r.linkRoleOk i
  | 9 => r.heddleOk && (List.range 8).all r.svcOk
  | 10 => r.hostOk
  | 11 => i != 0 || (List.range 8).all r.svcOk
  | 12 => r.pickOk && s.taiOk r n && (!edge || s.resumeOk r work)
  | 13 => r.auditOk
  | 15 => r.envelope != 3
  | 16 => r.secOk
  | 18 => r.partOk i && decide (r.sessMax i ≤ r.quota i) && r.svcOk i && r.hwinPartsOk
  | _ => true

/-! ### Solo fields and quotas -/

/-- The solo unit of a changed register, if it is solo (R60, R107, R299, R366). -/
def State.soloUnit (s r : State) (k : Nat) : Option Nat :=
  let p := keyPage k
  let o := keyOff k
  if p = (12, 0) then (if o = 0x080 ∨ o = 0x084 ∨ o = 0x0AC ∨ o = 0x0B0 then some 0 else none)
  else if p = (9, 0) then (if o = 0x080 then some 1 else none)
  else if p.1 = 3 then
    if o = 0x080 then
      (if (List.range 6).any fun i => s.granMode (6 * p.2 + i) != 1 && s.granMode (6 * p.2 + i) != r.granMode (6 * p.2 + i) then some (2 + p.2)
       else none)
    else
      let g := 6 * p.2 + (o - 0x088) / 4
      if s.granMode g = 2 ∧ r.granMode g = 2 then some (10 + g) else none
  else none

/-- The page of the first solo field that changes together with another field. -/
def State.soloFault (s r : State) (changed : List Nat) : Option (Nat × Nat) :=
  (changed.find? fun k =>
    match s.soloUnit r k with
    | some u => changed.any fun j => s.soloUnit r j != some u
    | none => false).map keyPage

/-- A quota in use (R67, R356): checked at the edge. -/
def State.quotaOk (s r : State) (pg : Nat × Nat) : Bool :=
  if pg.1 = 18 then decide (s.inUse pg.2 ≤ r.quota pg.2)
  else if pg.1 = 9 then
    s.sessBase == r.sessBase || s.fab.heddles.all fun e => !e.2.session || e.2.st == .free || decide (r.sessBase ≤ e.1)
  else true

/-- Why a commit is rejected, and the first failing page (R60, R62). GEN_ORDER and NO_PAGES name the DEVICE page, since no included
page has failed (log entry 112). -/
def State.commitFault (s : State) (a : Armed) (edge : Bool) (n work : Nat) : Option (Nat × Nat × Nat) :=
  let r := s.resulting a.pages
  let ch := s.changes a.pages
  if a.gen ≤ s.fld (F.CFG_GEN 0) 0 then some (1, 0, 0)
  else if a.pages.isEmpty then some (2, 0, 0)
  else match a.pages.find? fun p => !s.pageRuleOk r edge ch n work p with
    | some p => some (3, p)
    | none =>
      match s.soloFault r ch with
      | some p => some (4, p)
      | none => if edge then (a.pages.find? fun p => !s.quotaOk r p).map fun p => (5, p) else none

/-! ### Arming, cancelling, rejection -/

/-- A COMMIT record (Table 17.8). -/
def State.commitRec (s : State) (a : Armed) : State :=
  s.bookPush { s.bookRec 3 (toLe 4 a.gen ++ [BitVec.ofNat 8 (s.fld F.DEVICE_COMMIT_CTL_STATE 0), BitVec.ofNat 8 (s.fld F.DEVICE_COMMIT_CTL_REASON 0),
      BitVec.ofNat 8 (s.fld F.DEVICE_COMMIT_PAGE_TYPE 0), 0] ++ toLe 2 (s.fld F.DEVICE_COMMIT_PAGE_INSTANCE 0) ++ [0, 0] ++ toLe 6 a.pick) with
    page := 0 }

/-- COMMIT_CTL.STATE and REASON. -/
def State.setCommit (s : State) (st reason : Nat) : State :=
  (s.setFld F.DEVICE_COMMIT_CTL_STATE 0 st).setFld F.DEVICE_COMMIT_CTL_REASON 0 reason

/-- A rejected commit (R60, R61): each included page raises CFG_REJECT, the DEVICE page only where it is included. -/
def State.commitReject (s : State) (a : Armed) (reason : Nat) (p : Nat × Nat) : State :=
  let s1 := ((({ s with armed := none }).setCommit 3 reason).setFld F.DEVICE_COMMIT_PAGE_TYPE 0 p.1).setFld F.DEVICE_COMMIT_PAGE_INSTANCE 0 p.2
  (a.pages.foldl (fun t q => t.raise q.1 q.2 2) s1).commitRec a

/-- COMMIT_CTL.ARM written with 1 (R59, R60; in Dormant R489). -/
def State.arm (s : State) (code : Nat) : State :=
  let n := s.fld (F.CFG_CMD 0) 0 + s.fld F.DEVICE_COMMIT_PICK_HI 0 * 2 ^ 32
  let g := s.fld F.DEVICE_COMMIT_GEN 0
  if s.fld F.DEVICE_COMMIT_CTL_STATE 0 = 1 ∨ (1 ≤ s.pwrState ∧ s.pwrState ≤ 3) then s.countErr 0 0 errStageBusy (pageAddr 0 0 0x090) code
  else if n < s.pick.num + 2 then (s.setCommit 4 0).raise 0 0 Ev.DEVICE_COMMIT_LATE
  else
    let a : Armed := ⟨g, n, s.stagedPages g⟩
    match s.commitFault a false n 0 with
    | some x => s.commitReject a x.1 x.2
    | none => { s with armed := some a }.setCommit 1 0

/-- COMMIT_CTL.CANCEL written with 1 (R65). -/
def State.cancel (s : State) : State :=
  match s.armed with
  | none => s
  | some a =>
    if s.pick.num + 1 < a.pick ∨ (s.pick.num + 1 = a.pick ∧ s.pick.stage = .open) then
      ((({ s with armed := none }).setCommit 5 0).raise 0 0 Ev.DEVICE_COMMIT_CANCEL).commitRec a
    else s

/-- ARM. -/
def execArm (ag : Agent) (s : State) : Host.Outcome State Fault Refusal := .next (s.pageAct ag 0 0 0x090 fun t => t.arm (t.accessOf ag).code)

/-- CANCEL. -/
def execCancel (ag : Agent) (s : State) : Host.Outcome State Fault Refusal := .next (s.pageAct ag 0 0 0x090 State.cancel)

/-! ### The commit -/

/-- A commit that changes SOURCE, or UPLINK under FABRIC, selects another time source (R75, R76): it is not locked yet, and no number, link
or edge of the one before it is used any more (log entry 108). -/
def State.sourceCommit (s : State) (changed : List Nat) : State :=
  if changed.contains (F.PICK_PICK_SRC_SOURCE.key 0) ||
      (s.fld F.PICK_PICK_SRC_SOURCE 0 == 0 && changed.contains (F.PICK_PICK_SRC_UPLINK.key 0)) then
    (((s.setFld F.PICK_SRC_STAT_LOCKED 0 0).setFld F.PICK_SRC_STAT_HOLDOVER 0 0).setFld F.PICK_SRC_STAT_ACTIVE_LINK 0 0x3F).modPick fun p =>
      { p with lastPickInNs := none, adopt := none, slewNs := 0 }
  else s

/-- What the units do with the new configuration: time source (R76), envelope (R478), links (R362, R365), granules (R299), sessions of a service that is off
(R423), queues of a partition that is disabled (R448). -/
def State.commitUnits (s : State) (changed : List Nat) : State :=
  let s1 := (List.range 36).foldl (fun t l => t.linkCommit l (changed.any fun k => keyPage k == (8, l)))
    (s.sourceCommit changed).applyEnvelope
  let s2 := (List.range 48).foldl (fun t g => t.granCommit g) s1
  let off := (List.range 8).filter fun p => !s2.flag (F.FIELD_SVC_ENABLE.nth p) 0
  let s3 := s2.closeSessions fun x => off.contains x.part
  (s3.stopQueues fun f => f != 0 && !s3.partEnabled (f - 1)).permSync

/-- The commit takes place (R62). -/
def State.commitApply (s : State) (a : Armed) : State :=
  let ch := s.changes a.pages
  let s1 : State := { s.resulting a.pages with armed := none, shadow := s.shadow.filter fun e => !a.pages.contains (keyPage e.1) }
  let s2 := ((0, 0) :: a.pages).foldl (fun t p => t.setFld (F.CFG_GEN p.1) p.2 a.gen) s1
  let s3 := if s2.flag F.PICK_SCHED_CTL_RUN 0 && !s.flag F.PICK_SCHED_CTL_RUN 0 then s2.setFld F.AUDIT_AUD_CTL_RESUME_CHK 0 0 else s2
  let s4 := (a.pages.filter fun p => ch.any fun k => keyPage k == p).foldl (fun t p => t.raise p.1 p.2 1) s3
  ((s4.setCommit 2 0).commitRec a).commitUnits ch

/-- An armed commit at the edge of a pick that has begun (R62, R63, R104). -/
def State.commitEdge (s : State) : State :=
  match s.armed with
  | none => s
  | some a =>
    if s.pick.num < a.pick ∨ s.pick.recovery = true then s
    else match s.commitFault a true s.pick.num s.pick.work with
      | some x => s.commitReject a x.1 x.2
      | none => s.commitApply a

end Sys2Proof.Machine
end

