-- ==== Sys2Proof/Machine/Counters.lean ====
section
/-! DEFINITION. The writes of 1 to the clear registers of the pages: each clears the registers that its field table names. -/
namespace Sys2Proof.Machine
open Sys2Proof

/-! ### What each clears -/

/-- CNT_CLR (R160). -/
def State.coreClr (s : State) (i : Nat) : State := s.clearRange 1 i 0x088 0x0B0
/-- EPI_CNT_CLR (R188). -/
def State.epiClr (s : State) (i : Nat) : State := s.clearRange 1 i 0x100 0x11C

/-- The counters of the vector engine with their event, by register; the last one is the upper half of VEC_ECC. -/
def vecCounters : List (Fld × Option Nat) :=
  [(F.CORE_VEC_NAN, some Ev.CORE_VEC_NAN), (F.CORE_VEC_SAT, none), (F.CORE_VEC_WRAP, none), (F.CORE_VEC_DIV0, none),
   (F.CORE_VEC_OOW, some Ev.CORE_VEC_OOW), (F.CORE_VEC_LEES, none), (F.CORE_VEC_RSVD, some Ev.CORE_VEC_RSVD), (F.CORE_VEC_CLIP, none),
   (F.CORE_VEC_EMPTY, none), (F.CORE_VEC_ECC_CORR, some Ev.CORE_VEC_CORR), (F.CORE_VEC_ECC_UNCORR, some Ev.CORE_VEC_UNCORR)]

/-- One counter of the vector engine counts in the cycle of a clear (Table 7.10); an uncorrectable error makes the device vote LATE
(R219). -/
def State.vecCoin (s : State) (i k : Nat) : State :=
  match vecCounters[k]? with
  | none => s
  | some (f, ev) =>
    let s1 := s.setFld f i 1
    let s2 := match ev with
      | some b => s1.raise 1 i b
      | none => s1
    if k = 10 then s2.fault else s2

/-- VEC_CNT_CLR (R220); `coin` are the counters that count in the same cycle. -/
def State.vecClr (s : State) (i : Nat) (coin : List Nat) : State :=
  coin.foldl (fun t k => t.vecCoin i k) (s.clearRange 1 i 0x140 0x164)

/-- STR_CNT_CLR (R247). -/
def State.strClr (s : State) (i : Nat) : State := s.clearRange 1 i 0x18C 0x1A8
/-- SOLV_CNT_CLR (R277). -/
def State.solvClr (s : State) (i : Nat) : State := s.clearRange 5 i 0x090 0x0B0
/-- DIE_CNT_CLR (R306). -/
def State.dieClr (s : State) (i : Nat) : State := s.clearRange 2 i 0x084 0x090
/-- CEL_CNT_CLR (R307). -/
def State.celClr (s : State) (i : Nat) : State := s.clearRange 3 i 0x0A4 0x0C8

/-- STK_CNT_CLR (R309). -/
def State.stkClr (s : State) (i : Nat) : State :=
  let s1 := (s.clearRange 4 i 0x08C 0x0A8).clearRange 4 i 0x0E0 0x0FC
  { s1 with stackCtls := Tab.set s1.stackCtls i { Tab.get {} s1.stackCtls i with rd := 0, wr := 0 } }

/-- UPD_CNT_CLR (R333). -/
def State.updClr (s : State) (i : Nat) : State := s.clearRange 6 i 0x0CC 0x0EC
/-- LINK_CNT_CLR (R365). -/
def State.linkClr (s : State) (i : Nat) : State := s.clearRange 8 i 0x094 0x0A8
/-- HED_CNT_CLR (R366). -/
def State.hedClr (s : State) : State := s.clearRange 9 0 0x0A0 0x0BC
/-- COLL_CNT_CLR (R387). -/
def State.collClr (s : State) (i : Nat) : State := s.clearRange 7 i 0x098 0x0B4

/-- AUD_CNT_CLR (R412). -/
def State.audClr (s : State) : State :=
  let s1 := s.clearRange 13 0 0x128 0x138
  { s1 with audit := { s1.audit with hashed := 0 } }

/-- PORT_CNT_CLR (R435). -/
def State.portClr (s : State) (i : Nat) : State := s.clearRange 11 i 0x0C0 0x0D0
/-- TR_CNT_CLR (R435): the Trellis registers are those of FIELD 0. -/
def State.trClr (s : State) : State := s.clearRange 11 0 0x128 0x140
/-- HOST_CNT_CLR (R453). -/
def State.hostClr (s : State) : State := s.clearRange 10 0 0x088 0x094
/-- MGMT_CNT_CLR (R473). -/
def State.mgmtClr (s : State) : State := s.clearRange 14 0 0x098 0x09C
/-- SEC_CNT_CLR (R473). -/
def State.secClr (s : State) : State := (s.clearRange 16 0 0x0BC 0x0BC).clearRange 16 0 0x120 0x124
/-- BOOK_CNT_CLR (R473). -/
def State.bookClr (s : State) : State := s.clearRange 17 0 0x09C 0x0B0
/-- PWR_CNT_CLR (R496). -/
def State.pwrClr (s : State) : State := (s.clearRange 15 0 0x094 0x094).clearRange 15 0 0x0A4 0x0B4

/-! ### The commands -/

/-- CNT_CLR. -/
def execCntClr (ag : Agent) (inst : Fin 512) (s : State) : Host.Outcome State Fault Refusal :=
  .next (s.pageAct ag 1 inst.val 0x0B4 fun t => t.coreClr inst.val)

/-- EPI_CNT_CLR. -/
def execEpiCntClr (ag : Agent) (inst : Fin 512) (s : State) : Host.Outcome State Fault Refusal :=
  .next (s.pageAct ag 1 inst.val 0x124 fun t => t.epiClr inst.val)

/-- VEC_CNT_CLR. -/
def execVecCntClr (ag : Agent) (inst : Fin 512) (coin : List (Fin 11)) (s : State) : Host.Outcome State Fault Refusal :=
  .next (s.pageAct ag 1 inst.val 0x168 fun t => t.vecClr inst.val (coin.map fun k => k.val))

/-- STR_CNT_CLR. -/
def execStrCntClr (ag : Agent) (inst : Fin 512) (s : State) : Host.Outcome State Fault Refusal :=
  .next (s.pageAct ag 1 inst.val 0x1AC fun t => t.strClr inst.val)

/-- SOLV_CNT_CLR. -/
def execSolvCntClr (ag : Agent) (inst : Fin 16) (s : State) : Host.Outcome State Fault Refusal :=
  .next (s.pageAct ag 5 inst.val 0x0B4 fun t => t.solvClr inst.val)

/-- DIE_CNT_CLR. -/
def execDieCntClr (ag : Agent) (inst : Fin 16) (s : State) : Host.Outcome State Fault Refusal :=
  .next (s.pageAct ag 2 inst.val 0x094 fun t => t.dieClr inst.val)

/-- CEL_CNT_CLR. -/
def execCelCntClr (ag : Agent) (inst : Fin 8) (s : State) : Host.Outcome State Fault Refusal :=
  .next (s.pageAct ag 3 inst.val 0x0CC fun t => t.celClr inst.val)

/-- STK_CNT_CLR. -/
def execStkCntClr (ag : Agent) (inst : Fin 16) (s : State) : Host.Outcome State Fault Refusal :=
  .next (s.pageAct ag 4 inst.val 0x0AC fun t => t.stkClr inst.val)

/-- UPD_CNT_CLR. -/
def execUpdCntClr (ag : Agent) (inst : Fin 8) (s : State) : Host.Outcome State Fault Refusal :=
  .next (s.pageAct ag 6 inst.val 0x0F0 fun t => t.updClr inst.val)

/-- LINK_CNT_CLR. -/
def execLinkCntClr (ag : Agent) (inst : Fin 36) (s : State) : Host.Outcome State Fault Refusal :=
  .next (s.pageAct ag 8 inst.val 0x0AC fun t => t.linkClr inst.val)

/-- HED_CNT_CLR. -/
def execHedCntClr (ag : Agent) (s : State) : Host.Outcome State Fault Refusal := .next (s.pageAct ag 9 0 0x0E0 State.hedClr)

/-- COLL_CNT_CLR. -/
def execCollCntClr (ag : Agent) (inst : Fin 9) (s : State) : Host.Outcome State Fault Refusal :=
  .next (s.pageAct ag 7 inst.val 0x0B8 fun t => t.collClr inst.val)

/-- AUD_CNT_CLR. -/
def execAudCntClr (ag : Agent) (s : State) : Host.Outcome State Fault Refusal := .next (s.pageAct ag 13 0 0x13C State.audClr)

/-- PORT_CNT_CLR. -/
def execPortCntClr (ag : Agent) (port : Fin 2) (s : State) : Host.Outcome State Fault Refusal :=
  .next (s.pageAct ag 11 port.val 0x0D4 fun t => t.portClr port.val)

/-- TR_CNT_CLR. -/
def execTrCntClr (ag : Agent) (s : State) : Host.Outcome State Fault Refusal := .next (s.pageAct ag 11 0 0x144 State.trClr)

/-- HOST_CNT_CLR. -/
def execHostCntClr (ag : Agent) (s : State) : Host.Outcome State Fault Refusal := .next (s.pageAct ag 10 0 0x098 State.hostClr)

/-- MGMT_CNT_CLR. -/
def execMgmtCntClr (ag : Agent) (s : State) : Host.Outcome State Fault Refusal := .next (s.pageAct ag 14 0 0x0A0 State.mgmtClr)

/-- SEC_CNT_CLR. -/
def execSecCntClr (ag : Agent) (s : State) : Host.Outcome State Fault Refusal := .next (s.pageAct ag 16 0 0x128 State.secClr)

/-- BOOK_CNT_CLR. -/
def execBookCntClr (ag : Agent) (s : State) : Host.Outcome State Fault Refusal := .next (s.pageAct ag 17 0 0x0B4 State.bookClr)

/-- PWR_CNT_CLR. -/
def execPwrCntClr (ag : Agent) (s : State) : Host.Outcome State Fault Refusal := .next (s.pageAct ag 15 0 0x0B8 State.pwrClr)

end Sys2Proof.Machine
end

