-- ==== Sys2Proof/Machine/Boot.lean ====
section
/-! DEFINITION. Boot (R456, R458), the anti-rollback count (R457), key revocation (R459), the watchdog's restart (R455), and the resets and
records that writes to the MGMT, SEC and BOOK pages ask for (R463, R471). -/
namespace Sys2Proof.Machine
open Sys2Proof

/-! ### The boot ROM -/

/-- A firmware slot's header (Table 17.1). -/
structure SlotHdr where
  bytes : List Byte := []
  base : Nat := 0
deriving DecidableEq, Repr

def SlotHdr.at_ (h : SlotHdr) (o n : Nat) : Nat := leNat ((h.bytes.drop o).take n)
def SlotHdr.part (h : SlotHdr) (o n : Nat) : List Byte := (h.bytes.drop o).take n
def SlotHdr.svn (h : SlotHdr) : Nat := h.at_ 8 4
def SlotHdr.imgSeq (h : SlotHdr) : Nat := h.at_ 12 4
def SlotHdr.keySlot (h : SlotHdr) : Nat := h.at_ 24 1

/-- The header of slot 0 A or 1 B. -/
def State.slotHdr (s : State) (slot : Nat) : SlotHdr := { bytes := memRead s.nor (slot * 0x1000000) 512, base := slot * 0x1000000 }

/-- Every test of R456 up to the image hash passes; an image length outside Table 17.1 cannot be loaded. -/
def State.slotOk (s : State) (h : SlotHdr) : Bool :=
  h.at_ 0 4 == 0x46324259 && h.at_ 4 4 == 1 && (h.part 25 3).all (· == 0) && (h.part 272 240).all (· == 0) && decide (h.keySlot < 2) &&
    sha384 (h.part 80 96) == Config.keyHash h.keySlot && !s.mgmt.revoked.contains h.keySlot &&
    Config.verifySig (h.part 80 96) (sha384 (h.part 0 176)) (h.part 176 96) && decide (1 ≤ h.at_ 16 4) && decide (h.at_ 16 4 ≤ 3145728) &&
    sha384 (memRead s.nor (h.base + 512) (h.at_ 16 4)) == h.part 32 48

/-- A BOOT record (Table 17.8). -/
def State.bootRec (s : State) (slot result svn seq : Nat) : State :=
  s.bookPush (s.bookRec 7 ([BitVec.ofNat 8 slot, BitVec.ofNat 8 result, BitVec.ofNat 8 svn, BitVec.ofNat 8 s.mgmt.arbCount] ++ toLe 4 seq))

/-- The cores start at a slot's entry. -/
def State.startSlot (s : State) (slot : Nat) (h : SlotHdr) (second : Bool) : State :=
  let s1 := s.bootRec slot 0 h.svn h.imgSeq
  let s2 := ((((s1.setFld F.MGMT_MGMT_STAT_BOOT_STATE 0 1).setFld F.MGMT_MGMT_STAT_SLOT 0 slot).setFld F.MGMT_MGMT_STAT_SVN 0 h.svn).setFld
    F.MGMT_MGMT_STAT_CORES_UP 0 1).setFld F.MGMT_FW_VER 0 (h.at_ 28 4)
  ({ s2 with mgmt := { s2.mgmt with keySlot := h.keySlot, imgHash := h.part 32 48 } }).raiseIf second 16 0 Ev.SEC_BOOT_FALLBACK

/-- The slots tried in order (R456); `second` says whether an earlier one has failed. -/
def State.trySlots (s : State) : List Nat → Bool → State
  | [], _ => (((s.bootRec 0xFF 1 0 0).setFld F.MGMT_MGMT_STAT_BOOT_STATE 0 3).setFld F.MGMT_MGMT_STAT_CORES_UP 0 0)
  | k :: t, second =>
    let h := s.slotHdr k
    if s.slotOk h then
      if h.svn < s.mgmt.arbCount then (s.secRec 1).trySlots t true else s.startSlot k h second
    else s.trySlots t true

/-- The boot ROM runs (R456); a reset whose record waits for the boot is recorded first (R463). -/
def State.boot (s : State) : State :=
  let s1 := match s.mgmt.resetKind with
    | some k => ({ s with mgmt := { s.mgmt with resetKind := none } }).resetRec k 0 0
    | none => s
  let s2 := { s1 with power := { s1.power with resetN := true } }
  s2.trySlots (if (s.slotHdr 0).imgSeq < (s.slotHdr 1).imgSeq then [1, 0] else [0, 1]) false

/-- BOOT (R456): without main power the boot ROM does not run. -/
def execBoot (s : State) : Host.Outcome State Fault Refusal := .next (if s.standby then s else s.boot)

/-- The management cores run firmware. -/
def State.fwRuns (s : State) : Bool := s.fld F.MGMT_MGMT_STAT_BOOT_STATE 0 == 1 || s.fld F.MGMT_MGMT_STAT_BOOT_STATE 0 == 2

/-- BOOT_DONE written with 1 (R458): accepted once after each cold or warm reset, from the management cores alone. -/
def State.bootDone (s : State) (x : Access) : State :=
  if x.code = 0x0A ∧ s.mgmt.bootAccepted = false then
    let s1 := s.setFld F.MGMT_MGMT_STAT_BOOT_STATE 0 2
    { s1 with
      mgmt := { s1.mgmt with bootAccepted := true }
      locked := true
      power := { s1.power with readyPin := s1.fld F.POWER_PWR_STAT_STATE 0 == 0 } }
  else s.countErr 14 0 errPriv (pageAddr 14 0 0x084) x.code

/-- BOOT_DONE. -/
def execBootDone (ag : Agent) (s : State) : Host.Outcome State Fault Refusal :=
  .next (s.pageAct ag 14 0 0x084 fun t => t.bootDone (t.accessOf ag))

/-- WARM_RST (R463). -/
def execWarmRst (ag : Agent) (s : State) : Host.Outcome State Fault Refusal := .next (s.pageAct ag 14 0 0x084 State.askWarm)

/-- PART_RST written: every partition named whose reset is not in progress is reset (R464). -/
def State.partResets (s : State) (mask : Nat) : State :=
  ((List.range 8).filter fun p => bitOf mask p && !s.mgmt.partResets.contains p).foldl (fun t p => t.partReset p) s

/-- PART_RST. -/
def execPartRst (ag : Agent) (mask : Byte) (s : State) : Host.Outcome State Fault Refusal :=
  .next (s.pageAct ag 14 0 0x08C fun t => t.partResets mask.toNat)

/-- KICK (R455): the watchdog's count restarts. -/
def State.kick (s : State) : State := { s with mgmt := { s.mgmt with kicks := s.mgmt.kicks + 1 } }

/-- KICK. -/
def execKick (ag : Agent) (s : State) : Host.Outcome State Fault Refusal := .next (s.pageAct ag 14 0 0x094 State.kick)

/-! ### Fuses -/

/-- The advance ends at its target (R457). -/
def State.arbReached (s : State) : State :=
  if s.mgmt.arbTarget = some s.mgmt.arbCount then
    (({ s with mgmt := { s.mgmt with arbTarget := none } }).raise 16 0 Ev.SEC_ARB_ADVANCED).secRec 2
  else s

/-- ARB_ADVANCE.TARGET written (R457): a value at or below ARB_COUNT has no effect. -/
def State.arbAdvance (s : State) (x : Access) (v : Nat) : State :=
  if x.code ≠ 0x0A then s.countErr 16 0 errPriv (pageAddr 16 0 0x084) x.code
  else if v ≤ s.mgmt.arbCount then s
  else ({ s with mgmt := { s.mgmt with
      arbTarget := some (max s.mgmt.arbCount (min 64 (min v (s.fld F.MGMT_MGMT_STAT_SVN 0)))) } }).arbReached

/-- ARB_ADVANCE. -/
def execArbAdvance (ag : Agent) (target : BitVec 7) (s : State) : Host.Outcome State Fault Refusal :=
  .next (s.pageAct ag 16 0 0x084 fun t => t.arbAdvance (t.accessOf ag) target.toNat)

/-- ARB_FUSE_BLOW: one bit is blown (R457). -/
def execArbFuseBlow (s : State) : Host.Outcome State Fault Refusal :=
  .next (match s.mgmt.arbTarget with
    | some _ => ({ s with mgmt := { s.mgmt with arbCount := s.mgmt.arbCount + 1 } }).arbReached
    | none => s)

/-- KEY_REVOKE written (R459): refused as a whole where one of its slots signed the running image, or no slot would be left. -/
def State.keyRevoke (s : State) (x : Access) (mask : Nat) : State :=
  let slots := (List.range 2).filter (bitOf mask)
  let after := slots.foldl insertNat s.mgmt.revoked
  if slots.isEmpty then s
  else if (s.fwRuns && slots.contains s.mgmt.keySlot) || 2 ≤ after.length then s.countErr 16 0 0x80 (pageAddr 16 0 0x088) x.code
  else slots.foldl (fun t k =>
    if t.mgmt.revoked.contains k then t
    else (({ t with mgmt := { t.mgmt with revoked := insertNat t.mgmt.revoked k } }).raise 16 0 Ev.SEC_KEY_REVOKED).secRec 3) s

/-- KEY_REVOKE. -/
def execKeyRevoke (ag : Agent) (mask : BitVec 2) (s : State) : Host.Outcome State Fault Refusal :=
  .next (s.pageAct ag 16 0 0x088 fun t => t.keyRevoke (t.accessOf ag) mask.toNat)

/-- APPEND (R471). -/
def execAppend (ag : Agent) (s : State) : Host.Outcome State Fault Refusal :=
  .next (s.pageAct ag 17 0 0x094 fun t => t.append ((t.accessOf ag).code == 0x01))

end Sys2Proof.Machine
end

