-- ==== Sys2Proof/Machine/RegView.lean ====
section
/-! DEFINITION. What a read of a register returns (R40, R44, Table 2.2): the fields that show the state of a unit, and the others from
the register file. -/
namespace Sys2Proof.Machine
open Sys2Proof

/-! ### Common header -/

/-- The armed generation includes a page (R58). -/
def State.pageArmed (s : State) (ty i : Nat) : Bool := s.armed.any fun a => a.pages.contains (ty, i)

/-- BLK_STAT.READY: the device has booted, the block is not in a soft reset (R464), not shut down, and a core not asleep (R489, R490). -/
def State.blkReady (s : State) (ty i : Nat) : Bool :=
  (s.fwRuns || s.mgmt.bootAccepted) && !s.mgmt.softResets.contains (ty, i) && s.pwrState != 4 && (ty != 1 || s.pwrState == 0)

/-- BLK_STAT (Table 2.3). -/
def State.viewStat (s : State) (ty i lo : Nat) : Option Nat :=
  match lo with
  | 0 => some (bit (s.blkReady ty i))
  | 1 => some (bit (decide (s.fld (F.CFG_GEN ty) i < s.fld (F.CFG_STAGE ty) i)))
  | 2 => some (bit (s.pageArmed ty i))
  | 3 => some (bit s.locked)
  | 4 => some (bit s.pick.fenced)
  | _ => none

/-! ### Block registers -/

/-- A number whose bit `k` is `f k`, for `n` bits. -/
def bitMap (n : Nat) (f : Nat → Bool) : Nat := ((List.range n).map fun k => bit (f k) * 2 ^ k).sum

/-- DEVICE: EVT_SUMMARY, the fingerprint. -/
def State.viewDevice (s : State) (off : Nat) : Option Nat :=
  if off = 0x098 then some (bitMap 19 s.typePending)
  else if 0x0A0 ≤ off ∧ off ≤ 0x0BC then some (s.cfgPrint / 2 ^ (8 * (off - 0x0A0)) % 2 ^ 32)
  else none

/-- CORE: ARR_STAT, STR_STAT. -/
def State.viewCore (s : State) (i off lo : Nat) : Option Nat :=
  let k := s.core i
  let busy := fun (a : Nat) => !(Tab.get {} k.arr a).live.isEmpty
  if off = 0x084 then
    match lo with
    | 0 => some (bit (busy 0))
    | 1 => some (bit (busy 1))
    | 2 => some (bit k.mvp.isSome)
    | 3 => some (bit k.mvpHolder.isSome)
    | 4 => some (k.mvpHolder.getD 0)
    | _ => none
  else if off = 0x188 then
    match lo with
    | 0 => some (bitMap 8 fun t => (Tab.get {} k.strands t).st == .running)
    | 8 => some (bitMap 8 fun t => (Tab.get {} k.strands t).wait.isSome)
    | 16 => some k.slots.length
    | _ => none
  else none

/-- CELLAR: GRAN_STAT. -/
def State.viewCellar (s : State) (i off lo : Nat) : Option Nat :=
  if off = 0x084 then
    if lo = 0 then some ((List.range 6).map fun k => (s.granule (6 * i + k)).mode * 4 ^ k).sum
    else some (bitMap 6 fun k => (s.granule (6 * i + k)).flushing)
  else none

/-- STACK: STK_STAT.PRIV_EMPTY, RD_BYTES, WR_BYTES. -/
def State.viewStack (s : State) (i off lo : Nat) : Option Nat :=
  let x := s.stack i
  if off = 0x088 ∧ lo = 8 then some (bit (decide (x.priv ≤ 0)))
  else if off = 0x0A4 then some (x.rd / 256 % 2 ^ 32)
  else if off = 0x0A8 then some (x.wr / 256 % 2 ^ 32)
  else none

/-- The core whose path an engine holds. -/
def State.heldPath (s : State) (e : Nat) : Option Nat := (s.cores.find? fun k => k.2.mvpHolder == some e).map (·.1)

/-- SOLVER: SOLV_STAT. -/
def State.viewSolver (s : State) (i off lo : Nat) : Option Nat :=
  let x := s.solver i
  if off = 0x08C then
    match lo with
    | 0 => some (bit (x.task.isSome && !x.waiting && decide (x.next < x.last)))
    | 1 => some (bit x.waiting)
    | 2 => some (bit (s.heldPath i).isSome)
    | 3 => some ((s.heldPath i).getD 0 % 32)
    | 8 => some x.next
    | _ => none
  else none

/-- UPDATE: REPAIR_STAT.BUSY and QUEUED, OPEN_STAT. -/
def State.viewUpdate (s : State) (i off lo : Nat) : Option Nat :=
  let x := s.slice i
  if off = 0x0BC ∧ lo = 0 then some (bit x.repair.isSome)
  else if off = 0x0BC ∧ lo = 5 then some x.queue.length
  else if off = 0x0C8 ∧ lo = 0 then some x.blocks.length
  else if off = 0x0C8 ∧ lo = 8 then some x.redoUsed
  else none

/-- COLL: COLL_STAT. -/
def State.viewColl (s : State) (i off lo : Nat) : Option Nat :=
  let x := s.coll i
  if off = 0x094 then
    match lo with
    | 0 => some (bit x.task.isSome)
    | 1 => some (x.chunks.filter fun e => !e.2.complete).length
    | 8 => some (x.script.elim 0 fun k => k.idx)
    | _ => none
  else none

/-- HEDDLE: POOL_STAT, and HVIEW0 to 3 of the heddle that HEDDLE_SEL names; zeros for id 0 and reserved ids (R366). -/
def State.viewHeddle (s : State) (off lo : Nat) : Option Nat :=
  let h := s.fld F.HEDDLE_HEDDLE_SEL 0
  let x := if permanent h || sharedId h then s.heddle h else {}
  match off with
  | 0x088 =>
    if lo = 0 then some s.poolFree
    else some (s.fab.heddles.filter fun e => sharedId e.1 && e.2.session && e.2.st != .free).length
  | 0x090 =>
    match lo with
    | 0 => some (match x.st with
      | .free => 0
      | .threading => 1
      | .threaded => 2
      | .releasing => 3)
    | 2 => some (bit x.session)
    | 3 => some x.part
    | 6 => some x.peerId
    | 16 => some x.peer
    | _ => none
  | 0x094 => some x.ctx.sendNext
  | 0x098 => some x.ctx.recvNext
  | 0x09C => if lo = 0 then some (min 4095 x.ctx.credits) else some (if permanent h || sharedId h then s.unacked h false else 0)
  | _ => none

/-- FIELD: PORT_STAT.PTP_STATE, SESS_OPEN. -/
def State.viewField (s : State) (i off lo : Nat) : Option Nat :=
  if off = 0x084 ∧ lo = 2 then
    some (match s.fld F.FIELD_PTP_CTL_ROLE i with
      | 1 => if (s.ptp i).locked then 2 else 1
      | 2 => 3
      | _ => 0)
  else if off = 0x124 then some (s.field.sessions.filter fun e => e.2.confirmed).length
  else none

/-- PICK.PHASE: no read carries its time, so what has passed since the latest instant that a command named is a free value (R106, log
entry 114). -/
def State.phaseNow (s : State) : Nat := min (s.periodNs - 1) (s.pick.phase + Config.draw 7 (s.pick.num * 2 ^ 64 + s.pick.phase))

/-- PICK: the numbers, PHASE, CUR_ENTRY. -/
def State.viewPick (s : State) (off lo : Nat) : Option Nat :=
  match off with
  | 0x090 => some (s.pick.num % 2 ^ 32)
  | 0x094 => some (s.pick.num / 2 ^ 32)
  | 0x098 => some (s.pick.work % 2 ^ 32)
  | 0x09C => some (s.pick.work / 2 ^ 32)
  | 0x0A0 => some (s.phaseNow % 2 ^ 27)
  | 0x0C0 => if lo = 0 then some s.pick.entry.idx else none
  | _ => none

/-- AUDIT: the busy bits of AUD_STAT, HASH_BYTES. -/
def State.viewAudit (s : State) (off lo : Nat) : Option Nat :=
  if off = 0x084 ∧ lo = 2 then some (bit s.audit.comparing)
  else if off = 0x084 ∧ lo = 3 then some (bit s.audit.verify)
  else if off = 0x138 then some (s.audit.hashed / 4096 % 2 ^ 32)
  else none

/-- POWER: PWR_STAT, CLK_STAT, VIN_STAT, TEMP_MAX. -/
def State.viewPower (s : State) (off lo : Nat) : Option Nat :=
  let p := s.power
  match off with
  | 0x084 =>
    match lo with
    | 0 => some s.envelope
    | 5 => some (bit p.sagging)
    | 6 => some (bit p.throttling)
    | 7 => some (bit (decide (p.limitMhz < p.envMhz)))
    | 8 => some (bit p.rideThrough)
    | _ => none
  | 0x088 => some s.coreMhz
  | 0x08C => some (if lo = 0 then p.vin / 10 else p.vstby / 10)
  | 0x09C => some (if lo = 0 then wrapInt 16 s.hottest.1 else s.hottest.2)
  | _ => none

/-- SEC: FUSE_STAT, SVC_PUB (R461). -/
def State.viewSec (s : State) (off lo : Nat) : Option Nat :=
  if off = 0x080 then
    match lo with
    | 0 => some s.mgmt.arbCount
    | 7 => some (bit (s.mgmt.revoked.contains 0))
    | 8 => some (bit (s.mgmt.revoked.contains 1))
    | 9 => some (bit s.mgmt.debugFuse)
    | _ => none
  else if 0x0C0 ≤ off ∧ off ≤ 0x11C then
    let p := s.fld F.SEC_SVC_SEL 0
    some (leNat (((Config.serviceKey p (s.fld (F.SEC_SVC_EPOCH.nth p) 0)).drop (off - 0x0C0)).take 4))
  else none

/-- BOOK: QUEUED, NEXT_SEQ, and the record that RD_SEL names. What COPY = 3 shows is a free value. -/
def State.viewBook (s : State) (off lo : Nat) : Option Nat :=
  let i := s.fld F.BOOK_RD_SEL_INDEX 0
  let copy := s.fld F.BOOK_RD_SEL_COPY 0
  let v := s.bookView i copy
  if off = 0x080 ∧ lo = 2 then some s.book.queue.length
  else if off = 0x084 then some (s.book.nextSeq % 2 ^ 32)
  else if off = 0x088 then some (s.book.nextSeq / 2 ^ 32)
  else if off = 0x090 then
    match lo with
    | 0 => some (bit v.aValid)
    | 1 => some (bit v.bValid)
    | 2 => some (if copy = 3 then Config.draw 3 i % 2 else v.used)
    | 3 => some (bit v.empty)
    | _ => none
  else if 0x0C0 ≤ off ∧ off ≤ 0x0FC then
    some (if copy = 3 then Config.draw 3 (i * 4096 + off) else leNat ((v.data.drop (off - 0x0C0)).take 4))
  else none

/-- A field that shows the state of its unit; CFG_CMD of a page other than DEVICE shows what DEVICE.CFG_CMD holds (log entry 111); none for a field of the register file. -/
def State.hwView (s : State) (f : Fld) (i : Nat) : Option Nat :=
  if f.off = 0x014 then s.viewStat f.ty i f.lo
  else if f.off = 0x03C ∧ f.ty ≠ 0 then some (s.fld (F.CFG_CMD 0) 0)
  else if f.off = 0x040 then some (s.pick.num % 2 ^ 32)
  else match f.ty with
    | 0 => s.viewDevice f.off
    | 1 => s.viewCore i f.off f.lo
    | 2 => if f.off = 0x080 then some (wrapInt 16 (Tab.get 0 s.power.dies i)) else none
    | 3 => s.viewCellar i f.off f.lo
    | 4 => s.viewStack i f.off f.lo
    | 5 => s.viewSolver i f.off f.lo
    | 6 => s.viewUpdate i f.off f.lo
    | 7 => s.viewColl i f.off f.lo
    | 8 => if f.off = 0x088 ∧ f.lo = 3 then some (bit (s.linkLive i)) else none
    | 9 => s.viewHeddle f.off f.lo
    | 11 => s.viewField i f.off f.lo
    | 12 => s.viewPick f.off f.lo
    | 13 => s.viewAudit f.off f.lo
    | 14 => if f.off = 0x08C then some (bitMap 8 fun p => s.mgmt.partResets.contains p) else none
    | 15 => s.viewPower f.off f.lo
    | 16 => s.viewSec f.off f.lo
    | 17 => s.viewBook f.off f.lo
    | 18 => if f.off = 0x084 ∧ f.lo = 16 then some (s.inUse i) else none
    | _ => none

/-! ### Reads -/

/-- What a read of a field returns (Table 2.2). -/
def State.fldRead (s : State) (f : Fld) (i : Nat) : Nat :=
  match f.acc with
  | .wo => 0
  | .rws => if s.flag (F.BLK_CTL_SHADOW_VIEW f.ty) i then s.staged f i else s.fld f i
  | _ => ((s.hwView f i).getD (s.fld f i)) % 2 ^ f.w

/-- What a read of a register returns; zeros at a reserved offset (R41). -/
def State.reg32 (s : State) (ty i off : Nat) : Nat := ((regFlds ty i off).map fun f => s.fldRead f i * 2 ^ f.lo).sum % 2 ^ 32

/-- The page type, instance and offset that a page address names (R28). -/
def pageOf (addr : Nat) : Nat × Nat × Nat := ((addr - pageBase) / 2 ^ 22, (addr - pageBase) / 4096 % 1024, addr % 4096)

/-- An access of the sizes that R40 has, aligned. -/
def sizeOk (addr size : Nat) : Bool := (size == 4 || size == 8) && addr % size == 0

/-- A read of a page address by an agent: what it returns, with the errors that it counts (R29, R39 to R43). -/
def State.regRead (s : State) (x : Access) (addr size : Nat) : State × Nat :=
  let p := pageOf addr
  let g := s.pageGate x p.1 p.2.1 false
  if g ≠ 0 then (s.countGate x g p.1 p.2.1 p.2.2, 0)
  else if !sizeOk addr size then (s.countErr p.1 p.2.1 errAccessSize addr x.code, 0)
  else (s, s.reg32 p.1 p.2.1 p.2.2 + (if size = 8 then s.reg32 p.1 p.2.1 (p.2.2 + 4) * 2 ^ 32 else 0))

end Sys2Proof.Machine
end

