-- ==== Sys2Proof/Machine/RepairBase.lean ====
section
/-! DEFINITION. Block repair from its request to the replica's answer (R329 to R332), and the two steps of a group that can ask for a
repair (R322, R323, R334). -/
namespace Sys2Proof.Machine
open Sys2Proof

/-! ### The sequence of Table 11.9 -/

/-- The replicas of a block with their indices; 0xFFFF names none. -/
def BlockDesc.replicaList (d : BlockDesc) : List (Nat × Nat) :=
  (d.replicas.zipIdx.map fun x => (x.2, x.1)).filter fun x => x.2 != 0xFFFF

/-- The state with a slice's repair replaced. -/
def State.setRepair (s : State) (c : Nat) (r : Option Repair) : State := s.setSlice c { s.slice c with repair := r }

/-- The partition that a repair's heddle is charged to (R331). -/
def State.repairPart (s : State) (d : BlockDesc) : Nat := if s.blockRo d then 0 else (s.dramOwner d.wc).getD 0

/-- A message of a repair issued on a repair context (R331): a PUT-like operation of `data`. -/
def State.repairSend (s : State) (c hid dev : Nat) (data : List Byte) (m : RepairOp) : State :=
  (s.issueOp (.repair c) { heddle := hid, destDev := dev, length := data.length } none data [] (some m)).1

/-- The request to the replica asked leaves on a heddle (Table 11.9, step 3). -/
def State.repairAskOn (s : State) (c hid dev : Nat) (r : Repair) : State :=
  (s.setRepair c (some { r with sent := true })).repairSend c hid dev (toLe 4 r.block ++ toLe 4 r.target) (.request r.block r.target)

/-- Step 3: the request to a replica on the repair context of its permanent heddle, or a shared heddle threaded for it (R331). What cannot
be sent is tried again (`State.repairRetry`) until the timeout. -/
def State.askReplica (s : State) (c : Nat) (d : BlockDesc) (r : Repair) (dev : Nat) : State :=
  match s.permPeer dev with
  | some h => if (s.heddle h).st = .threaded then s.repairAskOn c h dev r else s.setRepair c (some r)
  | none =>
    match s.repairHeddle with
    | some h =>
      if s.heddleFree (s.repairPart d) then (s.beginThread h dev (s.repairPart d) true).setRepair c (some { r with heddle := some h })
      else s.setRepair c (some r)
    | none => s.setRepair c (some r)

/-- A slice's repair whose request has not left, and for which no heddle is being threaded, asks its replica again (R331). -/
def State.repairRetry (s : State) (c : Nat) : State :=
  match (s.slice c).repair with
  | some r =>
    if r.sent || r.heddle.isSome || r.verified then s
    else match s.blockDesc c r.block with
      | some d => s.askReplica c d r (d.replicas.getD r.replica 0xFFFF)
      | none => s
  | none => s

/-- Every slice's repair tried again. -/
def State.repairRetryAll (s : State) : State := (List.range 8).foldl (fun t c => t.repairRetry c) s

/-- HEDDLE_THREAD_RETRY (R355): every 4 µs until beat-up start; repairs, which no pick bounds, at every one (R331). -/
def execHeddleThreadRetry (ns : Nat) (s : State) : Host.Outcome State Fault Refusal :=
  .next (if s.pick.stage = .open ∧ s.pick.noTask = false ∧ ns < s.beatUpNs then s.threadSet else s).repairRetryAll

/-- RELEASE_ACK (R353): a record that waits for the heddle is threaded (R87), and so is a repair. -/
def execReleaseAck (hid : Nat) (s : State) : Host.Outcome State Fault Refusal :=
  .next (if (s.heddle hid).st = .releasing then
    let s1 : State := { s with fab := { s.fab with heddles := Tab.del s.fab.heddles hid } }
    (if s1.pick.stage = .open ∧ s1.pick.noTask = false then s1.threadSet else s1).repairRetryAll
  else s)

/-- Steps 1 and 2: no group starts, committed ones finish; the ledger is REPAIRING; the fences are installed. -/
def State.repairBegin (s : State) (c : Nat) (r : Repair) (d : BlockDesc) (rest : List (Nat × Nat)) : State :=
  let x := s.slice c
  let blocks := match Tab.get? x.blocks r.block with
    | some o =>
      let o1 := (o.runs.filter (·.committed)).foldl OpenBlock.finish o
      Tab.set x.blocks r.block { o1 with runs := [] }
    | none => x.blocks
  let s1 := s.setSlice c { x with blocks := blocks, queue := rest, repair := some r }
  let s2 := s1.setLedger c r.block ⟨r.target, 3, (s.ledger c r.block).origin⟩
  { s2 with upd := { s2.upd with fences := Tab.set s2.upd.fences r.block (false, d.ranges) } }

/-- A REPAIR record (Table 17.8). -/
def State.repairRec (s : State) (c block result idx dev ns : Nat) : State :=
  s.bookPush { s.bookRec 8 (toLe 4 block ++ [BitVec.ofNat 8 result, BitVec.ofNat 8 idx] ++ toLe 2 dev ++ toLe 4 ns) with page := 6, inst := c }

/-- What the REPAIR registers show of a repair that has ended. -/
def State.repairShow (s : State) (c block result ns : Nat) : State :=
  ((s.setFld F.UPDATE_REPAIR_STAT_RESULT c result).setFld F.UPDATE_REPAIR_BLOCK c block).setFld F.UPDATE_REPAIR_NS c (min ns 0xFFFFFFFF)

/-- No replica remains (R332). -/
def State.unavailable (s : State) (c : Nat) (r : Repair) (ranges : List (Nat × Nat)) (dev ns : Nat) : State :=
  let s1 := s.setRepair c none
  let s2 := s1.setLedger c r.block ⟨r.target, 4, (s.ledger c r.block).origin⟩
  let s3 : State := { s2 with upd := { s2.upd with fences := Tab.set s2.upd.fences r.block (true, ranges) } }
  ((s3.countEv F.UPDATE_UNAVAIL_CNT c 1 Ev.UPDATE_WEIGHTS_UNAVAILABLE).repairShow c r.block 2 ns).repairRec c r.block 2 r.replica dev ns

/-- The queued requests taken in order until one repair runs. -/
def State.repairRun (s : State) (c : Nat) : List (Nat × Nat) → State
  | [] => s.setSlice c { s.slice c with queue := [] }
  | (b, ag) :: rest =>
    match s.blockDesc c b with
    | none => (s.updErr c updBadBlock b 0 ag).repairRun c rest
    | some d =>
      let l := s.ledger c b
      let r : Repair := { block := b, target := if l.state = 0 then 0 else l.step, agent := ag }
      let s1 := s.repairBegin c r d rest
      match d.replicaList with
      | [] => (s1.unavailable c r d.ranges 0xFFFF 0).repairRun c rest
      | (k, dev) :: _ => s1.askReplica c d { r with replica := k } dev

/-- The next queued repair begins where none runs (R329). -/
def State.repairStart (s : State) (c : Nat) : State :=
  if (s.slice c).repair.isSome then s else s.repairRun c (s.slice c).queue

/-- The shared heddle of a repair is released (R331). -/
def State.repairRelease (s : State) (r : Repair) : State :=
  match r.heddle with
  | some h => (s.dropRepairOps h).beginRelease h
  | none => s

/-- The replica asked is passed over for the next one (R330); `ns`: the time the repair has taken. -/
def State.repairPass (s : State) (c : Nat) (r : Repair) (ns : Nat) : State :=
  let s1 := s.repairRelease r
  match s.blockDesc c r.block with
  | none => (s1.unavailable c r (((Tab.get? s.upd.fences r.block).map (·.2)).getD []) 0xFFFF ns).repairStart c
  | some d =>
    match d.replicaList.filter fun x => decide (r.replica < x.1) with
    | [] => (s1.unavailable c r d.ranges (d.replicas.getD r.replica 0xFFFF) ns).repairStart c
    | (k, dev) :: _ => s1.askReplica c d { r with replica := k, sent := false, heddle := none } dev

/-- A repair request (R315, R329). -/
def State.repairAsk (s : State) (c b agent : Nat) : State :=
  if b % 8 ≠ c then s.updErr c updNoBlock b 0 agent
  else if (s.blockDesc c b).isNone then s.updErr c updBadBlock b 0 agent
  else (s.queueRepair c b agent).repairStart c

/-- REPAIR_REQ. -/
def execRepairReq (ag : Agent) (slice : Fin 8) (block : Word) (s : State) : Host.Outcome State Fault Refusal :=
  .next (s.pageAct ag 6 slice.val 0x0B8 fun t => t.repairAsk slice.val block.toNat (t.accessOf ag).code)

/-! ### Groups that ask for a repair -/

/-- The block is under repair: no group of it starts (R330). -/
def State.repairing (s : State) (c b : Nat) : Bool := (s.slice c).repair.any fun r => r.block == b

/-- Errors of the redo store or the done map (R334): counted; an uncorrectable one starts a repair of every block that it touches. -/
def State.updEcc (s : State) (c b : Nat) (e : UpdEcc) : State :=
  let s1 := (s.countEv F.UPDATE_UPD_ECC_CORR c e.corr Ev.UPDATE_UPD_CORR).countEv F.UPDATE_UPD_ECC_UNCORR c e.uncorr Ev.UPDATE_UPD_UNCORR
  if e.uncorr = 0 then s1
  else ((b :: e.blocks.map (·.toNat)).foldl (fun t k => if k % 8 = c then t.queueRepair c k 0 else t) s1).repairStart c

/-- What step 1 of a group reads: the tables of its block, and its master, moments and row scales (R322). -/
def State.groupReads (s : State) (c b : Nat) (d : BlockDesc) (o : OpenBlock) (lo n : Nat) : List (Nat × Nat) :=
  s.tableReads c b o.step ++ [(d.master + 4 * lo, 4 * n), (d.m1 + d.momBytes * lo, d.momBytes * n), (d.m2 + d.momBytes * lo, d.momBytes * n),
    (d.scale + 8 * (lo / d.rowLen), 8 * ((lo + n - 1) / d.rowLen - lo / d.rowLen + 1))]

/-- Steps 1 and 2 of a group. A group read with poison is not committed, and its block's repair is requested (R323, R329). -/
def State.groupStart (s : State) (c b g : Nat) (d : BlockDesc) (o : OpenBlock) : State :=
  if s.groupPoison d (256 * g) (min 256 (d.elems - 256 * g)) then ((s.raise 6 c 4).fault.queueRepair c b 0).repairStart c
  else match s.groupRun c d o b g with
    | some r => (s.setBlock c b { o with runs := o.runs.filter (·.group != g) ++ [r] }).countEv F.UPDATE_UPD_NONFIN c r.nonfin Ev.UPDATE_UPD_NONFIN
    | none => s

/-- GROUP_APPLY (R322, steps 1 and 2): a group that neither the done map nor the redo store holds, once no committed group of its block has
steps left (R323). On a group that has run and is not committed it reads the inputs again: the earlier run is dropped. -/
def execGroupApply (slice : Fin 8) (block : Word) (step : GroupStep) (s : State) : Host.Outcome State Fault Refusal :=
  let c := slice.val
  let b := block.toNat
  let g := step.group.val
  match Tab.get? (s.slice c).blocks b, s.blockDesc c b with
  | some o, some d =>
    if o.done.contains g || o.runs.any (·.committed) || decide (d.groups ≤ g) || s.repairing c b || (s.ledger c b).state != 2 then .next s
    else if step.ecc.uncorr ≠ 0 then .next (s.updEcc c b step.ecc)
    else
      let l := s.groupReads c b d o (256 * g) (min 256 (d.elems - 256 * g))
      .next (s.whenReadable l fun s => ((s.unitCount c false l).updEcc c b step.ecc).groupStart c b g d o)
  | _, _ => .next s

/-- The writes of a run. -/
def GroupRun.ranges (r : GroupRun) : List (Nat × Nat) := r.writes.map fun w => (w.1, w.2.length)

/-- GROUP_COMMIT (R322, steps 3 and 4): the group's redo entry is written, and its outputs go to their home addresses, which must not be
shared read-only by now (R32). Storage errors of the redo store are R334's. -/
def execGroupCommit (slice : Fin 8) (block : Word) (group : Fin 256) (ecc : UpdEcc) (s : State) : Host.Outcome State Fault Refusal :=
  let c := slice.val
  let b := block.toNat
  match Tab.get? (s.slice c).blocks b with
  | some o =>
    match o.runs.find? fun r => r.group == group.val && !r.committed with
    | some r =>
      if 512 ≤ (s.slice c).redoUsed ∨ s.rangesShared r.ranges = true then .next s
      else .next (s.whenWritable r.ranges fun s =>
        let s1 := s.setBlock c b { o with runs := o.runs.map fun q => if q.group = r.group then { q with committed := true } else q }
        let s2 := (r.writes.foldl (fun t w => t.writeMem none w.1 w.2) (s1.unitCount c true r.ranges)).addWrap F.UPDATE_UPD_GROUPS c 1
        s2.updEcc c b ecc)
    | none => .next s
  | none => .next s

/-- Step 5 of a committed group; the last group of a block closes it. -/
def State.groupDone (s : State) (c b : Nat) (d : BlockDesc) (o : OpenBlock) : State :=
  if d.groups ≤ o.done.length then
    let r := s.unitAsk (s.closeReads c d o) (s.closeWrites c b d)
    if r.2 then ((s.unitCount c false (s.closeReads c d o)).unitCount c true (s.closeWrites c b d)).closeBlock c b d o else r.1
  else s.setBlock c b o

/-- GROUP_DONE (R322, step 5): the group's bit is set, its maxima enter ρ, its redo entry is free; the last one closes the block. -/
def execGroupDone (slice : Fin 8) (block : Word) (step : GroupStep) (s : State) : Host.Outcome State Fault Refusal :=
  let c := slice.val
  let b := block.toNat
  match Tab.get? (s.slice c).blocks b, s.blockDesc c b with
  | some o, some d =>
    match o.runs.find? fun r => r.group == step.group.val && r.committed with
    | some r => .next ((s.groupDone c b d (o.finish r)).updEcc c b step.ecc)
    | none => .next s
  | _, _ => .next s

/-! ### The input buffer (R321, R352) -/

/-- Credits kept back of one context go back to its peer. -/
def State.creditBack (s : State) (h : Nat) (rep : Bool) : State :=
  let x := s.heddle h
  let c := x.ctxOf h rep
  if c.owed = 0 then s
  else (s.setHeddle h (x.setCtx h rep { c with owed := 0 })).sendFlits x.peer 0 2 1 { kind := 4 } (.credit x.peerId c.owed)

/-- Once no input buffer is full, the credits that were kept back go back to the peers. -/
def State.creditsBack (s : State) : State :=
  if s.inputFull then s else s.fab.heddles.foldl (fun t e => (t.creditBack e.1 false).creditBack e.1 true) s

/-- HELD_CHUNK_JUDGE (R321). -/
def execHeldChunkJudge (slice : Fin 8) (s : State) : Host.Outcome State Fault Refusal :=
  .next (s.judgeHeld slice.val [] (s.slice slice.val).held).creditsBack

/-! ### Messages of a repair as they land (Table 11.9, R331) -/

/-- A repair request refused: the answer leaves on the heddle that the request came on. -/
def State.repairRefuse (s : State) (c hid dev block : Nat) : State := s.repairSend c hid dev (toLe 4 block) (.refusal block)

/-- The block's ledger forbids an answer: REPAIRING, UNAVAILABLE, or a reserved state (Table 11.9, step 4). -/
def Ledger.noAnswer (l : Ledger) : Bool := decide (3 ≤ l.state)

/-- A repair request at a replica: refused, or kept until the block is closed at the target step. -/
def State.repairRequested (s : State) (c hid dev b target : Nat) : State :=
  if (s.blockDesc c b).isNone || (s.ledger c b).noAnswer then s.repairRefuse c hid dev b
  else
    let x := s.slice c
    s.setSlice c { x with answering := (x.answering.filter fun e => !(e.1 == dev && e.2.1 == b)) ++ [(dev, b, target, hid)] }

/-- The arrays of a block in the order in which a repair sends them: address and bytes. -/
def BlockDesc.arrays (d : BlockDesc) : List (Nat × Nat) := d.ranges.take 4

/-- The arrays of a received state; none where the lengths are not the block's. -/
def BlockDesc.splitState (d : BlockDesc) (state : List Byte) : Option (List (List Byte)) :=
  let r := d.arrays.foldl (fun (p : List (List Byte) × List Byte) a => (p.1 ++ [p.2.take a.2], p.2.drop a.2)) ([], state)
  if (d.arrays.map (·.2)).sum = state.length then some r.1 else none

/-- The block digest over a received state (R328, R330). -/
def BlockDesc.stateDigest (d : BlockDesc) (block step : Nat) (arrays : List (List Byte)) (scales : List Byte) : List Byte :=
  blockDigest d.elems block step ((chunksOf 8 d.rows scales).map (·.take 4))
    ((arrays.zip [d.wcBytes, 4, d.momBytes, d.momBytes]).take d.scopeParts.length)

/-- Bytes of a range written with every 64-byte block in full, what lies beyond its end kept (R282, Table 11.9, step 7). -/
def State.writeFull (s : State) (a : Nat) (bytes : List Byte) : State :=
  let n := bytes.length
  let rest := (64 - n % 64) % 64
  s.writeMem none a (bytes ++ s.unitRead (a + n) rest)

/-- The repair of a slice that waits for the answer of device `dev`. -/
def State.repairFrom (s : State) (c dev : Nat) : Option (Repair × Option BlockDesc) :=
  match (s.slice c).repair with
  | none => none
  | some r =>
    let d := s.blockDesc c r.block
    if r.sent && !r.verified && (d.elim true fun x => x.replicas.getD r.replica 0xFFFF == dev) then some (r, d) else none

/-- A replica's state (Table 11.9, steps 6 and 7): one whose digest matches is written; any other passes the replica over. -/
def State.repairLanded (s : State) (c dev step origin : Nat) (state scales digest : List Byte) (ns : Nat) : State :=
  match s.repairFrom c dev with
  | none => s
  | some (r, none) => s.repairPass c r ns
  | some (r, some d) =>
    match d.splitState state with
    | none => s.repairPass c r ns
    | some arrays =>
      if scales.length = 8 * d.rows ∧ precedes32 step r.target = false ∧ d.stateDigest r.block step arrays scales = digest then
        let s1 := ((d.ranges.map (·.1)).zip (arrays ++ [scales])).foldl (fun t w => t.writeFull w.1 w.2) (s.unitCount c true d.ranges)
        s1.setRepair c (some { r with verified := true, step := step, origin := origin, digest := digest })
      else s.repairPass c r ns

/-- A replica's refusal (R330). -/
def State.repairRefused (s : State) (c dev ns : Nat) : State :=
  match s.repairFrom c dev with
  | some (r, _) => s.repairPass c r ns
  | none => s

/-- A message of a repair applied. -/
def State.repairLand (s : State) (dev hid : Nat) : RepairMsg → State
  | .request c b t => s.repairRequested c.val hid dev b.toNat t.toNat
  | .state c st o data scales digest ns => s.repairLanded c.val dev st.toNat o.toNat data scales digest ns
  | .refusal c ns => s.repairRefused c.val dev ns

/-- What a message of a repair reads and writes where it lands. -/
def State.repairReads (s : State) : RepairMsg → List (Nat × Nat)
  | .request c b _ => [(s.btAddr c.val b.toNat, 64), (s.ledgerAddr c.val b.toNat, 16)]
  | .state .. => []
  | .refusal .. => []
def State.repairWrites (s : State) : RepairMsg → List (Nat × Nat)
  | .state c .. => ((s.slice c.val).repair.bind fun r => (s.blockDesc c.val r.block).map (·.ranges)).getD []
  | .request .. => []
  | .refusal .. => []

/-- The bytes that a message of a repair brings, and its operations of up to 16,384 bytes. -/
def repairMsgBytes : RepairMsg → Nat
  | .request .. => 8
  | .state _ _ _ data scales _ _ => data.length + scales.length + 40
  | .refusal .. => 4
def repairMsgOps (m : RepairMsg) : Nat := (repairMsgBytes m + 16383) / 16384

end Sys2Proof.Machine
end

