-- ==== Sys2Proof/Machine/Registers.lean ====
section
/-! DEFINITION. Writes of registers (R40 to R46, R57, R64, R500): which fields take a write, the actions of WO and W1S fields, soft resets
(R464), event bits (R45, R53, R54). -/
namespace Sys2Proof.Machine
open Sys2Proof

/-- The type codes of Table 2.1. -/
def typeCode : PageType → Nat
  | .device => 0
  | .core => 1
  | .die => 2
  | .cellar => 3
  | .stack => 4
  | .solver => 5
  | .update => 6
  | .coll => 7
  | .link => 8
  | .heddle => 9
  | .host => 10
  | .field => 11
  | .pick => 12
  | .audit => 13
  | .mgmt => 14
  | .power => 15
  | .sec => 16
  | .book => 17
  | .part => 18

/-! ### Events -/

/-- EVT_SET written: each implemented bit that is 1 is set as if hardware raised it (R53, R54). -/
def State.evtSet (s : State) (ty i v : Nat) : State :=
  ((List.range 32).filter fun b => bitOf v b && evtImpl ty i b).foldl (fun t b => t.raise ty i b) s

/-- EVT_STAT written: the bits that are 1 are cleared; what hardware sets in the same cycle, `hw`, wins and is delivered again (R45). -/
def State.evtClear (s : State) (ty i mask hw : Nat) : State :=
  let stat := s.fld (F.EVT_STAT ty) i
  (s.setFld (F.EVT_STAT ty) i (stat - (stat &&& mask))).evtSet ty i hw

/-- EVT_EN written: an event bit that is set is delivered when its enable goes from 0 to 1 (R54). -/
def State.evtEnable (s : State) (ty i v : Nat) : State :=
  let old := s.fld (F.EVT_EN ty) i
  ((List.range 32).filter fun b => bitOf v b && !bitOf old b).foldl (fun t b => t.redeliver ty i b) (s.setFld (F.EVT_EN ty) i v)

/-! ### Soft reset -/

/-- The fence of a slice's running repair removed. -/
def State.dropRepairFence (s : State) (c : Nat) : State :=
  match (s.slice c).repair with
  | some r => { s with upd := { s.upd with fences := Tab.del s.upd.fences r.block } }
  | none => s

/-- BLK_CTL.SRST written with 1 (R464, R498, Table 17.4): the block's queues, buffers and work in flight go, and with a solver engine's
descriptor its hold of a path; a core keeps the engine that holds its path (log entry 42). -/
def State.softReset (s : State) (ty i : Nat) : State :=
  if ty = 1 ∨ ty = 5 ∨ ty = 6 ∨ ty = 7 then
    let s1 := if ty = 1 then s.setCore i { mvpHolder := (s.core i).mvpHolder }
      else if ty = 5 then (s.releasePath i).setSolver i {}
      else if ty = 6 then (s.dropRepairFence i).setSlice i {}
      else s.setColl i {}
    ({ s1 with mgmt := { s1.mgmt with softResets := (ty, i) :: s1.mgmt.softResets.filter (· != (ty, i)) } }).resetRec 3 ty i
  else s

/-! ### Actions -/

/-- An action where bit `b` of the written value is 1. -/
def State.onBit (s : State) (v b : Nat) (f : State → State) : State := if bitOf v b then f s else s

/-- The actions of the WO and W1S fields of a block register, from the lowest bit up. -/
def State.blockAct (s : State) (x : Access) (ty i off v : Nat) : State :=
  match ty, off with
  | 0, 0x090 => (s.onBit v 0 fun t => t.arm x.code).onBit v 1 State.cancel
  | 1, 0x0B4 => s.onBit v 0 fun t => t.coreClr i
  | 1, 0x124 => s.onBit v 0 fun t => t.epiClr i
  | 1, 0x168 => s.onBit v 0 fun t => t.vecClr i []
  | 1, 0x1AC => s.onBit v 0 fun t => t.strClr i
  | 2, 0x094 => s.onBit v 0 fun t => t.dieClr i
  | 3, 0x0A0 => s.onBit v 0 fun t => t.startFlush i
  | 3, 0x0CC => s.onBit v 0 fun t => t.celClr i
  | 4, 0x0AC => s.onBit v 0 fun t => t.stkClr i
  | 5, 0x0B4 => s.onBit v 0 fun t => t.solvClr i
  | 6, 0x0B8 => s.repairAsk i v x.code
  | 6, 0x0F0 => s.onBit v 0 fun t => t.updClr i
  | 7, 0x0B8 => s.onBit v 0 fun t => t.collClr i
  | 8, 0x0AC => s.onBit v 0 fun t => t.linkClr i
  | 9, 0x0E0 => s.onBit v 0 State.hedClr
  | 10, 0x098 => s.onBit v 0 State.hostClr
  | 11, 0x0D4 => s.onBit v 0 fun t => t.portClr i
  | 11, 0x144 => s.onBit v 0 State.trClr
  | 12, 0x0A8 => s.onBit v 31 fun t => t.pickSetApply x.code
  | 13, 0x09C => s.onBit v 0 State.verifyBegin
  | 13, 0x13C => s.onBit v 0 State.audClr
  | 14, 0x084 => (s.onBit v 0 fun t => t.bootDone x).onBit v 1 State.askWarm
  | 14, 0x08C => s.partResets v
  | 14, 0x094 => s.onBit v 16 State.kick
  | 14, 0x0A0 => s.onBit v 0 State.mgmtClr
  | 15, 0x0A0 => (s.onBit v 0 fun t => t.dormEnter x.code).onBit v 1 State.wakeReg
  | 15, 0x0B8 => s.onBit v 0 State.pwrClr
  | 16, 0x084 => s.arbAdvance x (v % 128)
  | 16, 0x088 => s.keyRevoke x (v % 4)
  | 16, 0x128 => s.onBit v 0 State.secClr
  | 17, 0x094 => s.onBit v 0 fun t => t.append (x.code == 0x01)
  | 17, 0x0B4 => s.onBit v 0 State.bookClr
  | _, _ => s

/-- The actions of a register. -/
def State.regAct (s : State) (x : Access) (ty i off v : Nat) : State :=
  if off = 0x010 then (s.onBit v 0 fun t => t.softReset ty i).onBit v 1 fun t => t.errClear ty i
  else if off = 0x020 then s.evtSet ty i v
  else if pageHas ty i off then s.blockAct x ty i off v else s

/-! ### Stored fields -/

/-- CFG_STAGE written (R57). -/
def State.stageWrite (s : State) (code ty i g : Nat) : State :=
  let a := pageAddr ty i 0x038
  if s.pageArmed ty i then s.countErr ty i errStageBusy a code
  else if g ≤ s.fld (F.CFG_GEN ty) i then s.countErr ty i errStageOrder a code
  else { s.setFld (F.CFG_STAGE ty) i g with shadow := s.shadow.filter fun e => keyPage e.1 != (ty, i) }

/-- A write of a RW field. -/
def State.rwWrite (s : State) (code : Nat) (f : Fld) (i v : Nat) : State :=
  if f.off = 0x01C then s.evtEnable f.ty i v
  else if f.off = 0x038 then s.stageWrite code f.ty i v
  else if f.ty = 0 ∧ (f.off = 0x03C ∨ f.off = 0x088 ∨ f.off = 0x08C) ∧ s.fld F.DEVICE_COMMIT_CTL_STATE 0 = 1 then
    s.countErr 0 0 errStageBusy (pageAddr 0 0 f.off) code
  else if f.ty = 11 ∧ f.off = 0x088 ∧ (v < 1500 ∨ 9000 < v) then s.countErr 11 i 0x80 (pageAddr 11 i 0x088) code
  else s.setFld f i v

/-- A field takes a write as its access type gives (Table 2.2); actions follow on their own. -/
def State.fldWrite (s : State) (code : Nat) (f : Fld) (i v : Nat) : State :=
  match f.acc with
  | .rw => s.rwWrite code f i v
  | .rws => s.setStaged f i v
  | .rwl => s.setFld f i v
  | .w1c => s.evtClear f.ty i v 0
  | _ => s

/-- A field cannot take a write (R46, R64). -/
def State.refuses (s : State) (f : Fld) (i : Nat) : Bool :=
  match f.acc with
  | .rws => s.pageArmed f.ty i
  | .rwl => s.locked
  | _ => false

/-- A threshold of THERM_CFG is out of its range (R484). -/
def thermBad (v : Nat) : Bool :=
  let w := bitsOf v 0 8
  let t := bitsOf v 8 8
  decide (w < 70) || decide (105 < w) || decide (t < 85) || decide (105 < t)

/-- A 32-bit write to a register of a page that the access reaches (R500). -/
def State.regWrite32 (s : State) (x : Access) (ty i off v : Nat) : State :=
  if ty = 15 ∧ off = 0x098 ∧ thermBad v = true then s.countErr 15 0 0x80 (pageAddr 15 0 0x098) x.code
  else
    let part := fun (f : Fld) => bitsOf v f.lo f.w
    let fs := regFlds ty i off
    let no := fs.filter fun f => s.refuses f i
    let bad := no.filter fun f => s.fldRead f i != part f
    let s1 := (fs.filter fun f => !s.refuses f i).foldl (fun t f => t.fldWrite x.code f i (part f)) s
    let s2 := if bad.isEmpty then s1
      else s1.countErr ty i (if no.any fun f => f.acc == .rwl then errLocked else errStageBusy) (pageAddr ty i off) x.code
    s2.regAct x ty i off v

/-- A write of a page address by an agent (R29, R39 to R43, R305). The rules on who writes a page and in what size come before the one
on reserved offsets: such a write is counted although its offset is reserved (log entry 63). -/
def State.regWrite (s : State) (x : Access) (addr size v : Nat) : State :=
  let p := pageOf addr
  let g := s.pageGate x p.1 p.2.1 true
  if g = 1 ∨ g = 2 then s.countGate x g p.1 p.2.1 p.2.2
  else if !sizeOk addr size then s.countErr p.1 p.2.1 errAccessSize addr x.code
  else
    let one := fun (t : State) (o w : Nat) => if g = 7 then t.countGate x 7 p.1 p.2.1 o else t.regWrite32 x p.1 p.2.1 o w
    let s1 := one s p.2.2 (v % 2 ^ 32)
    if size = 8 then one s1 (p.2.2 + 4) (v / 2 ^ 32 % 2 ^ 32) else s1

/-! ### The commands -/

/-- REGISTER_WRITE: through BAR4 of a function (Table 16.2), or at a device address. -/
def execRegisterWrite (ag : Agent) (bar4 : Bool) (addr : BitVec 48) (size : Nat) (v : Dword) (s : State) : Host.Outcome State Fault Refusal :=
  if bar4 then
    match ag with
    | .pf => .next (s.bar4Write 0 addr.toNat size v.toNat)
    | .vf p => .next (s.bar4Write (p.val + 1) addr.toNat size v.toNat)
    | _ => .next s
  else if regionOf addr.toNat = .page then .next (s.regWrite (s.accessOf ag) addr.toNat size v.toNat)
  else .next s

/-- SRST. -/
def execSrst (ag : Agent) (ty : PageType) (inst : Nat) (s : State) : Host.Outcome State Fault Refusal :=
  .next (s.pageAct ag (typeCode ty) inst 0x010 fun t => t.softReset (typeCode ty) inst)

/-- ERR_CLR (R51); an error counted in the same cycle wins (R52). -/
def execErrClr (ag : Agent) (ty : PageType) (inst : Nat) (coin : Option ErrObs) (s : State) : Host.Outcome State Fault Refusal :=
  .next (s.pageAct ag (typeCode ty) inst 0x010 fun t =>
    let t1 := t.errClear (typeCode ty) inst
    match coin with
    | some e => t1.countErr (typeCode ty) inst e.code.toNat e.addr.toNat (agentCode e.agent)
    | none => t1)

/-- EVT_STAT_CLEAR. -/
def execEvtStatClear (ag : Agent) (ty : PageType) (inst : Nat) (mask hwSet : Word) (s : State) : Host.Outcome State Fault Refusal :=
  .next (s.pageAct ag (typeCode ty) inst 0x018 fun t => t.evtClear (typeCode ty) inst mask.toNat hwSet.toNat)

/-- EVT_EN_WRITE. -/
def execEvtEnWrite (ag : Agent) (ty : PageType) (inst : Nat) (v : Word) (s : State) : Host.Outcome State Fault Refusal :=
  .next (s.pageAct ag (typeCode ty) inst 0x01C fun t => t.evtEnable (typeCode ty) inst v.toNat)

/-- EVT_SET. -/
def execEvtSet (ag : Agent) (ty : PageType) (inst : Nat) (v : Word) (s : State) : Host.Outcome State Fault Refusal :=
  .next (s.pageAct ag (typeCode ty) inst 0x020 fun t => t.evtSet (typeCode ty) inst v.toNat)

/-- CFG_STAGE_WRITE. -/
def execCfgStageWrite (ag : Agent) (ty : PageType) (inst : Nat) (gen : Word) (s : State) : Host.Outcome State Fault Refusal :=
  .next (s.pageAct ag (typeCode ty) inst 0x038 fun t => t.stageWrite (t.accessOf ag).code (typeCode ty) inst gen.toNat)

/-- VERIFY_START: a write of VERIFY_CTL with START = 1. -/
def execVerifyStart (ag : Agent) (mode : Bool) (s : State) : Host.Outcome State Fault Refusal :=
  .next (s.pageAct ag 13 0 0x09C fun t => (t.setFld F.AUDIT_VERIFY_CTL_MODE 0 (bit mode)).verifyBegin)

/-- SOFT_RESET_DONE (R464): the block accepts work again. -/
def execSoftResetDone (ty : PageType) (inst : Nat) (s : State) : Host.Outcome State Fault Refusal :=
  .next { s with mgmt := { s.mgmt with softResets := s.mgmt.softResets.filter (· != (typeCode ty, inst)) } }

end Sys2Proof.Machine
end

