-- ==== Sys2Proof/Machine/Arrivals.lean ====
section
/-! DEFINITION. Remote memory operations at their destination (R341 to R352): what each does to memory, accumulation buffers (R295 to R298)
and register pages, the judgement of sequence numbers and pick tags, and acknowledgements at the issuer. -/
namespace Sys2Proof.Machine
open Sys2Proof

/-! ### Where an operation may reach -/

/-- `State.check` for an operation: only a collective slice writes a landing area, whatever its partition (R377). -/
def State.landCheck (s : State) (who : Option Nat) (coll write : Bool) (a : Nat) : Nat :=
  s.check (if write && coll && (s.landingSlice a 1).isSome then none else who) write a coll

/-- The outcome over `n` bytes from `a` (R29, R33): blocked where some part is, else unmapped where some part is, with the lowest failing
address. -/
def State.landAll (s : State) (who : Option Nat) (coll write : Bool) (a n : Nat) : Acs :=
  let st := (pieces a n).map fun x => (a + x.1, s.landCheck who coll write (a + x.1))
  match st.filter fun x => x.2 != 0 with
  | [] => ⟨0, a⟩
  | x :: t => ⟨if (x :: t).any fun y => y.2 == 2 then 2 else if (x :: t).any fun y => y.2 == 1 then 1 else 3, x.1⟩

/-- A target of ACC, SIG, FADD or CAS: it fails as a whole where it is not aligned to `w`, lies in the register pages, or any byte of it
falls under R29 or R33 (R342). -/
def State.targetAll (s : State) (who : Option Nat) (coll : Bool) (a n w : Nat) : Acs :=
  let x := s.landAll who coll true a n
  if x.st = 2 then x else if x.st ≠ 0 then ⟨1, x.addr⟩ else if a % max 1 w ≠ 0 ∨ regionOf a = .page then ⟨1, a⟩ else x

/-! ### PUT, RACK and GET -/

/-- The tile ledger entries of the lines that a PUT covers are cleared (R298). -/
def State.clearLedger (s : State) (who : Option Nat) (coll : Bool) (a n : Nat) : State :=
  { s with cellar := { s.cellar with ledger := s.cellar.ledger.filter fun e =>
      !(decide (0 < n) && decide (a / 128 ≤ e.1) && decide (e.1 * 128 < a + n) && s.landCheck who coll true (max a (e.1 * 128)) == 0) } }

/-- Bytes written by an operation; a part that it may not reach is dropped (R29). -/
def State.landBytes (s : State) (who : Option Nat) (coll : Bool) (a : Nat) (bytes : List Byte) (pz : List Nat) : State :=
  (pieces a bytes.length).foldl (fun t x =>
    if s.landCheck who coll true (a + x.1) = 0 then
      t.storeBlock (a + x.1) ((bytes.drop x.1).take x.2) ((dataBlocks x.1 x.2).any pz.contains)
    else t) s

/-- A PUT or a GET of a register page: an access of its size by the issuer (R39 to R43). -/
def State.landPage (s : State) (ac : Access) (write : Bool) (a : Arrival) : State × OpAnswer :=
  let x := a.addr.toNat
  let p := pageOf x
  let g := s.pageGate ac p.1 p.2.1 write
  let st := if g = 1 ∨ g = 2 then g else 0
  if write then (s.regWrite ac x a.len (leNat (padTo a.len a.data)), { status := st, addr := x })
  else
    let r := s.regRead ac x a.len
    (r.1, { status := st, data := toLe a.len r.2, addr := x })

/-- PUT and the write of RACK (Table 12.4). -/
def State.landPut (s : State) (who : Option Nat) (ac : Access) (a : Arrival) : State × OpAnswer :=
  let x := a.addr.toNat
  if regionOf x = .page then s.landPage ac true a
  else
    let r := s.landAll who a.coll true x a.len
    let s1 := ((s.hwinErr r).touch who true x a.len).clearLedger who a.coll x a.len
    (s1.landBytes who a.coll x (padTo a.len a.data) a.poison, { status := r.st, addr := r.addr })

/-- GET (Table 12.4). -/
def State.landGet (s : State) (who : Option Nat) (ac : Access) (a : Arrival) : State × OpAnswer :=
  let x := a.addr.toNat
  if regionOf x = .page then s.landPage ac false a
  else
    let e := s.eccAt who x a.len a.ecc
    let r := e.1.readMem who x a.len
    ((e.1.hwinErr r.acs).touch who false x a.len,
      { status := r.acs.st, data := r.data, poison := e.2.foldl insertNat r.poison, addr := r.acs.addr })

/-! ### ACC -/

/-- The conversion that an ACC names is not reserved (R296, R344). -/
def accFormOk (a : Arrival) : Bool :=
  let ccb := a.ccb.toNat
  decide (a.aop.val < 3) && fmtOk (ccbFmt ccb) && decide (ccbRm ccb < 5) && fracOk (ccbFmt ccb) a.frac.val

/-- The elements of an ACC within one 64-byte block combined with what is held; poison of either stays (R282). -/
def State.accPiece (s : State) (a : Arrival) (o n : Nat) : State :=
  let fmt := ccbFmt a.ccb.toNat
  let x := a.addr.toNat + o
  let new := ((elemsOf fmt (s.blockBytes x n)).zip (elemsOf fmt (((padTo a.len a.data).drop o).take n))).map fun e =>
    combine a.ccb.toNat a.aop.val a.frac.val e.1 e.2
  s.storeBlock x (bytesOf fmt new) (s.blockPoison x || (dataBlocks o n).any a.poison.contains)

/-- The elements of an ACC at offset `o`, `n` bytes of them. -/
def State.accBytes (s : State) (a : Arrival) (o n : Nat) : State :=
  (pieces (a.addr.toNat + o) n).foldl (fun t x => t.accPiece a (o + x.1) x.2) s

/-- A tag against a ledger entry (R297): 0 applied, 1 duplicate, 2 stale, 3 collision. -/
def tagJudge (e : Option Tag) (t : Tag) : Nat :=
  match e with
  | none => 0
  | some e => if e = t then 1 else if e.work = t.work then 3 else if precedes32 t.work.toNat e.work.toNat then 2 else 0

/-- One line of a tagged ACC in an accumulation buffer on die `die` (R297). -/
def State.accLine (s : State) (a : Arrival) (t : Tag) (die o n : Nat) : State :=
  let line := (a.addr.toNat + o) / 128
  let take := fun (u : State) => (u.accBytes a o n) |> fun v => { v with cellar := { v.cellar with ledger := Tab.set v.cellar.ledger line t } }
  match tagJudge (Tab.get? s.cellar.ledger line) t with
  | 1 => s.addSat F.CELLAR_ACC_DUP die 1
  | 2 => s.countEv F.CELLAR_ACC_STALE die 1 Ev.CELLAR_ACC_STALE
  | 3 => (take s).countEv F.CELLAR_ACC_COLLIDE die 1 Ev.CELLAR_ACC_COLLIDE
  | _ => take s

/-- ACC at an accumulation buffer of granule `g` (R296, R297). -/
def State.accGranule (s : State) (a : Arrival) (g : Nat) : State :=
  match a.tag with
  | none => s.accBytes a 0 a.len
  | some t => (linePieces a.addr.toNat a.len).foldl (fun u x => u.accLine a t (g / 6) (x.1 - a.addr.toNat) (x.2 - x.1)) s

/-- ACC (R342, R296, R297). One that no granule serves but that is tagged or of a reserved form is applied to no byte. -/
def State.landAcc (s : State) (who : Option Nat) (a : Arrival) : State × OpAnswer :=
  let x := a.addr.toNat
  let r := s.targetAll who a.coll x a.len (fmtBytes (ccbFmt a.ccb.toNat))
  if r.st ≠ 0 then (s.hwinErr r, { status := r.st, addr := r.addr })
  else
    let g := s.boundGran x
    let h := s.boundGran (x + a.len - 1)
    match g, h with
    | none, none =>
      if a.tag.isSome || !accFormOk a then (s, { status := 1, addr := x })
      else ((((s.eccAt who x a.len a.ecc).1).touch who true x a.len).accBytes a 0 a.len, { addr := x })
    | _, _ =>
      let die := (g.orElse fun _ => h).elim 0 fun e => e.1 / 6
      if accFormOk a && g.map (·.1) == h.map (·.1) then (((s.eccAt who x a.len a.ecc).1).accGranule a (g.elim 0 (·.1)), { addr := x })
      else (s.countEv F.CELLAR_ACC_STALE die 1 Ev.CELLAR_ACC_STALE, { status := 4, addr := x })

/-! ### SIG, FADD, CAS -/

/-- The 8-byte word at an address. -/
def State.wordAt (s : State) (a : Nat) : Nat := leNat (s.blockBytes a 8)

/-- An atomic operation on the word of `w` bytes at its 8-byte aligned target: `f` gives the new value from the old one (none: it is not
written). Answers the old value. -/
def State.atomic (s : State) (who : Option Nat) (a : Arrival) (w : Nat) (f : Nat → Option Nat) : State × OpAnswer :=
  let x := a.addr.toNat
  let r := s.targetAll who a.coll x 8 8
  if r.st ≠ 0 then (s.hwinErr r, { status := r.st, data := toLe 8 0, addr := r.addr })
  else
    let e := s.eccAt who x 8 a.ecc
    let s1 := e.1.touch who true x 8
    let old := leNat (s1.blockBytes x w)
    let pz := s1.blockPoison x
    ((match f old with
      | some v => s1.storeBlock x (toLe w v) (pz || a.poison.contains 0)
      | none => s1), { data := toLe 8 old, poison := if pz || !e.2.isEmpty then [0] else [], addr := x })

/-- The width of a FADD or CAS: 8 bytes where the FMT of its CCB is 0xB, 4 where it is 0xA (R342). -/
def atomicWidth (a : Arrival) : Nat := if ccbFmt a.ccb.toNat = 0xA then 4 else 8

/-- SIG: OPERAND0 added to the word, wrapping; no data return. -/
def State.landSig (s : State) (who : Option Nat) (a : Arrival) : State × OpAnswer :=
  let r := s.atomic who a 8 fun old => some ((old + a.op0.toNat) % 2 ^ 64)
  (r.1, { r.2 with data := [], poison := [] })

/-- FADD. -/
def State.landFadd (s : State) (who : Option Nat) (a : Arrival) : State × OpAnswer :=
  let w := atomicWidth a
  s.atomic who a w fun old => some ((old + a.op0.toNat) % 2 ^ (8 * w))

/-- CAS. -/
def State.landCas (s : State) (who : Option Nat) (a : Arrival) : State × OpAnswer :=
  let w := atomicWidth a
  s.atomic who a w fun old => if old = a.op0.toNat % 2 ^ (8 * w) then some (a.op1.toNat % 2 ^ (8 * w)) else none

/-! ### One operation -/

/-- An operation applied at its destination (Table 12.4): code 0 PUT, 1 GET, 2 ACC, 3 SIG, 4 FADD, 5 CAS, 6 RACK; the model's 7 a
message of a repair (R331). -/
def State.applyOp (s : State) (op : Nat) (a : Arrival) (who : Option Nat) (ac : Access) : State × OpAnswer :=
  match op with
  | 0 => s.landPut who ac a
  | 1 => s.landGet who ac a
  | 2 => s.landAcc who a
  | 3 => s.landSig who a
  | 4 => s.landFadd who a
  | 5 => s.landCas who a
  | 7 => (match a.src, a.repairMsg with
    | .repair dev hid _, some m => s.repairLand dev.toNat hid m
    | _, _ => s, {})
  | _ => let r := s.landPut who ac a; (r.1.rackLanded a.rackStep.toNat, r.2)

/-- An operation writes its target only; SIG, FADD, CAS and ACC also read it. -/
def opWrites (op : Nat) : Bool := op != 1
def opReads (op : Nat) : Bool := op != 0 && op != 6

/-- Bytes that an operation reaches. -/
def opReach (a : Arrival) (op : Nat) : Nat := if op = 3 ∨ op = 4 ∨ op = 5 then 8 else a.len

/-- What an operation reads and writes where it lands. -/
def State.opRanges (s : State) (op : Nat) (a : Arrival) : List (Nat × Nat) × List (Nat × Nat) :=
  match a.repairMsg with
  | some m => if op = 7 then (s.repairReads m, s.repairWrites m) else ([], [])
  | none =>
    let r := [(a.addr.toNat, opReach a op)]
    (if opReads op then r else [], if opWrites op then r else [])

/-- An operation waits: for a repair fence, an eviction buffer or the host's answer (R303, R304, R330). -/
def State.opWaits (s : State) (op : Nat) (a : Arrival) : Bool :=
  let r := s.opRanges op a
  (r.1.any fun x => s.accWaits false x.1 x.2) || r.2.any fun x => s.accWaits true x.1 x.2

/-- The host is asked for what an operation waits for. -/
def State.opAsk (s : State) (op : Nat) (a : Arrival) : State :=
  let r := s.opRanges op a
  r.2.foldl (fun t x => t.askHost true x.1 x.2) (r.1.foldl (fun t x => t.askHost false x.1 x.2) s)

/-- The operations that an arrival stands for: the transfer of a repair is several (R331). -/
def opCount (op : Nat) (a : Arrival) : Nat :=
  match a.repairMsg with
  | some m => if op = 7 then max 1 (repairMsgOps m) else 1
  | none => 1

/-! ### Answers -/

/-- The pick tag that an operation from a peer carries, and its acknowledgement (R347). -/
def srcTag : OpSource → Option Nat
  | .fabric _ _ _ t => some t.toNat
  | _ => none

/-- An acknowledgement leaves on a heddle: kept in the ack store of 1,024 with a return value of up to 8 bytes (R348, R351). -/
def State.ackSend (s : State) (h : Nat) (rep : Bool) (seq op : Nat) (a : Arrival) (r : OpAnswer) : State :=
  let tag := srcTag a.src
  let x := s.heddle h
  let c := x.ctxOf h rep
  let kept : OpAnswer := if r.data.length ≤ 8 then r else { r with data := [], poison := [] }
  let acks := ((c.acks.filter fun e => e.1 != seq) ++ [(seq, kept, op, a)])
  (s.setHeddle h (x.setCtx h rep { c with acks := acks.drop (acks.length - 1024) })).sendFlits x.peer seq 2
    (flitsOf (!r.data.isEmpty) r.data.length) { kind := 3, tag := tag, data := r.data }
    (.ack x.peer x.peerId seq r.status tag r.data r.poison)

/-- The answer of an operation goes back to where it came from. -/
def State.answerOp (s : State) (op : Nat) (a : Arrival) (r : OpAnswer) : State :=
  match a.src with
  | .own id =>
    match Tab.get? s.fab.issued id with
    | some o => s.setIssued id { o with answer := some r }
    | none => s
  | .fabric _ hid seq _ => s.ackSend hid false seq.toNat op a r
  | .repair _ hid seq =>
    (List.range (opCount op a)).foldl (fun t k => t.ackSend hid true ((seq.toNat + k) % 2 ^ 32) op a r) s

/-- An operation applied and answered; the answer to a SIG with SIG_WAIT is held until its word is at least OPERAND1 (R342). -/
def State.landOp (s : State) (op : Nat) (a : Arrival) (who : Option Nat) (ac : Access) : State :=
  let r := s.applyOp op a who ac
  if op = 3 ∧ a.sigWait = true ∧ r.2.status = 0 ∧ r.1.wordAt a.addr.toNat < a.op1.toNat then
    { r.1 with fab := { r.1.fab with
        heldSigs := Tab.set r.1.fab.heldSigs r.1.fab.nextSig { arrival := a, part := who, tagged := match a.src with | .repair .. => false | _ => true }
        nextSig := r.1.fab.nextSig + 1 } }
  else r.1.answerOp op a r.2

/-- SIG_WAIT_RELEASE (R342). -/
def execSigWaitRelease (idx : Nat) (s : State) : Host.Outcome State Fault Refusal :=
  match Tab.get? s.fab.heldSigs idx with
  | none => .next s
  | some h =>
    if h.arrival.op1.toNat ≤ s.wordAt h.arrival.addr.toNat then
      .next (({ s with fab := { s.fab with heldSigs := Tab.del s.fab.heldSigs idx } }).answerOp 3 h.arrival { addr := h.arrival.addr.toNat })
    else .next s

/-! ### Sequence numbers (R345, R349) -/

/-- The partition and the agent of an operation from a peer. -/
def peerPart (a : Arrival) (rep : Bool) : Option Nat := if rep then none else some a.part.val
def peerAccess (a : Arrival) (rep : Bool) : Access := ⟨0x0C, peerPart a rep, none⟩

/-- The credits of an applied operation go back (R352); those of a collective's operation are kept back while an update slice's input buffer is
full (R321, log entry 36). -/
def State.returnCredits (s : State) (h : Nat) (rep : Bool) (seq n : Nat) (coll : Bool) : State :=
  let x := s.heddle h
  if coll && s.inputFull then
    let c := x.ctxOf h rep
    s.setHeddle h (x.setCtx h rep { c with owed := c.owed + n })
  else s.sendFlits x.peer seq 2 1 { kind := 4, tag := if rep then none else some (s.pick.num % 256) } (.credit x.peerId n)

/-- The flits of an operation that has landed: those of a transfer's operations together. -/
def arrivalFlits (op : Nat) (a : Arrival) : Nat :=
  match a.repairMsg with
  | some m => if op = 7 then ((List.range (repairMsgOps m)).map fun j => flitsOf true (min 16384 (repairMsgBytes m - 16384 * j))).sum else 1
  | none => flitsOf (op == 0 || op == 2 || op == 6) a.len

/-- The operations of a context that are next in order applied one after another, each with its credits returned (R352); one that has to wait
holds those behind it. -/
def State.drainCtx : Nat → State → Nat → Bool → State
  | 0, s, _, _ => s
  | fuel + 1, s, h, rep =>
    let x := s.heddle h
    let c := x.ctxOf h rep
    match c.ahead.find? fun e => e.1 == c.recvNext with
    | none => s
    | some (q, a, op) =>
      if s.opWaits op a then s.opAsk op a
      else
        let s1 := s.setHeddle h (x.setCtx h rep { c with recvNext := (c.recvNext + opCount op a) % 2 ^ 32, ahead := c.ahead.filter fun e => e.1 != q })
        let s2 := s1.landOp op a (peerPart a rep) (peerAccess a rep)
        State.drainCtx fuel (s2.returnCredits h rep q (arrivalFlits op a) a.coll) h rep

/-- A context tried again. -/
def State.drainHeddle (s : State) (h : Nat) (rep : Bool) : State :=
  if ((s.heddle h).ctxOf h rep).ahead.isEmpty then s else State.drainCtx 1025 s h rep

/-- Every context tried again, once a fence or the host has let go of a line. -/
def State.drainAll (s : State) : State := s.fab.heddles.foldl (fun t e => (t.drainHeddle e.1 false).drainHeddle e.1 true) s

/-- A duplicate answered from the ack store; a GET of more than 8 bytes reads memory again (R351). -/
def State.ackAgain (s : State) (h : Nat) (rep : Bool) (seq : Nat) : State :=
  match (((s.heddle h).ctxOf h rep).acks.find? fun e => e.1 == seq) with
  | none => s
  | some (_, r, op, a) =>
    if op = 1 ∧ 8 < a.len then
      (if s.opWaits op a then s
       else let y := s.applyOp 1 a (peerPart a rep) (peerAccess a rep); y.1.ackSend h rep seq op a y.2)
    else s.ackSend h rep seq op a r

/-- An operation from a peer is judged: its heddle, its pick tag (R347), its sequence number (R349). A fenced device takes none (R409). -/
def State.judgeOp (s : State) (op : Nat) (a : Arrival) (dev hid seq : Nat) (tag : Option Nat) : State :=
  let rep := tag.isNone
  let x := s.heddle hid
  if s.pick.fenced then s
  else if x.st ≠ .threaded ∨ x.session = true ∨ x.peer ≠ dev ∨ (permanent hid = false ∧ x.repairUse ≠ rep) then
    s.countEv F.HEDDLE_SEQ_ERR 0 1 Ev.HEDDLE_SEQ_ERR
  else if tag.any fun t => t != s.pick.num % 256 then s.countEv F.HEDDLE_LATE_DROP 0 1 Ev.HEDDLE_LATE_DROP
  else
    let c := x.ctxOf hid rep
    let d := signedOf 32 (wrapInt 32 ((seq : Int) - c.recvNext))
    if -1024 ≤ d ∧ d < 0 then (s.ackAgain hid rep seq).addSat F.HEDDLE_DUP_CNT 0 1
    else if 0 ≤ d ∧ d < 1024 ∧ (c.ahead.any fun e => e.1 == seq) = false then
      State.drainCtx 1025 (s.setHeddle hid (x.setCtx hid rep { c with ahead := c.ahead ++ [(seq, a, op)] })) hid rep
    else s.countEv F.HEDDLE_SEQ_ERR 0 1 Ev.HEDDLE_SEQ_ERR

/-! ### The rows -/

/-- The arrival that an operation of this device makes at itself. -/
def IssuedOp.arrival (o : IssuedOp) (id : Nat) (ecc : List BlockEcc) : Arrival :=
  let d := o.desc
  { src := .own id, part := Fin.ofNat 8 (o.part.getD 0), addr := BitVec.ofNat 48 d.destAddr, len := d.length, data := o.data, poison := o.poison
    ccb := BitVec.ofNat 8 d.ccb, aop := Fin.ofNat 4 d.aop, frac := Fin.ofNat 64 d.frac, unord := d.unord, sigWait := d.sigWait, priv := d.priv
    op0 := BitVec.ofNat 64 d.op0, op1 := BitVec.ofNat 64 d.op1
    tag := if d.tagged then some ⟨BitVec.ofNat 32 d.tagPick, BitVec.ofNat 16 d.tagCore, BitVec.ofNat 8 d.tagArray, BitVec.ofNat 22 d.tagTile⟩ else none
    rackStep := BitVec.ofNat 32 d.rackStep, ecc := ecc
    coll := match o.issuer with
      | .coll .. => true
      | _ => false }

/-- An operation of this device at itself (R344): it crosses the package once and carries no sequence number. -/
def State.landOwn (s : State) (op id : Nat) (ecc : List BlockEcc) : State :=
  match Tab.get? s.fab.issued id with
  | none => s
  | some o =>
    let held := s.fab.heldSigs.any fun e => e.2.arrival.src == .own id
    if o.desc.heddle ≠ 0 ∨ o.desc.op ≠ op ∨ o.answer.isSome = true ∨ held = true then s
    else
      let a := o.arrival id ecc
      if s.opWaits op a then s.opAsk op a
      else s.landOp op a o.part ⟨o.issuer.page.2, o.part, none⟩

/-- An operation arrives at its destination (R342, R347, R349), over bridges that may have retried (R306). -/
def State.arrive (s : State) (op : Nat) (a : Arrival) : State :=
  let s1 := s.nocRetry a.retries
  match a.src with
  | .own id => s1.landOwn op id a.ecc
  | .fabric dev hid seq tag => s1.judgeOp op a dev.toNat hid seq.toNat (some tag.toNat)
  | .repair dev hid seq => (s1.judgeOp op a dev.toNat hid seq.toNat none).drainAll

/-- A message of a repair arrives on a repair context (R331). -/
def State.arriveRepair (s : State) (x : RepairSrc) (m : RepairMsg) : State :=
  s.arrive 7 { src := .repair x.dev x.hid x.seq, addr := 0, len := repairMsgBytes m, repairMsg := some m }

def execPut (a : Arrival) (s : State) : Host.Outcome State Fault Refusal := .next (s.arrive 0 a)
def execGet (a : Arrival) (s : State) : Host.Outcome State Fault Refusal := .next (s.arrive 1 a)
def execAcc (a : Arrival) (s : State) : Host.Outcome State Fault Refusal := .next (s.arrive 2 a)
def execSig (a : Arrival) (s : State) : Host.Outcome State Fault Refusal := .next (s.arrive 3 a)
def execFadd (a : Arrival) (s : State) : Host.Outcome State Fault Refusal := .next (s.arrive 4 a)
def execCas (a : Arrival) (s : State) : Host.Outcome State Fault Refusal := .next (s.arrive 5 a)
def execRack (a : Arrival) (s : State) : Host.Outcome State Fault Refusal := .next (s.arrive 6 a)

/-! ### Acknowledgements at the issuer (R346, R350) -/

/-- What an acknowledged operation brings back is written at LOCAL_ADDR: GET data, zeros where the destination could not read them, and the
old value of FADD and CAS (R341, Table 12.4). -/
def State.opReturn (s : State) (o : IssuedOp) (r : OpAnswer) : State :=
  let d := o.desc
  let n := if d.op = 1 then d.length else if d.op = 4 ∨ d.op = 5 then 8 else 0
  match o.issuer with
  | .strand c _ => if n = 0 then s else s.windowWrite c d.localAddr (padTo n r.data) r.poison
  | _ => s

/-- What the issuing unit does once its operation is acknowledged. -/
def State.opAcked (s : State) (o : IssuedOp) : State :=
  match o.issuer with
  | .tile c k => s.tileAcked c k
  | .coll c _ _ => if c = 8 then s.rackTry else s
  | _ => s

/-- ACKNOWLEDGEMENT (R346): of a local operation with the answer it has met, of another one with what the command brings. A second
acknowledgement is discarded (R350); the line of a fetch is RA_LINE_LAND's. -/
def execAcknowledgement (id : Nat) (status : Fin 16) (data : List Byte) (poison : List Nat) (s : State) : Host.Outcome State Fault Refusal :=
  match Tab.get? s.fab.issued id with
  | none => .next s
  | some o =>
    let answer : Option OpAnswer := if o.desc.heddle = 0 then o.answer
      else if o.sent then some ⟨status.val, data, poison, o.desc.destAddr⟩ else none
    match o.issuer, answer with
    | .runAhead _ _, _ => .next s
    | _, none => .next s
    | _, some r => .next ((((s.opReturn o r).countStatus o r.status r.addr).retire id).opAcked o)

/-- RESEND (R350): an operation without an acknowledgement leaves again, with the same sequence number and by the same route. -/
def execResend (id : Nat) (s : State) : Host.Outcome State Fault Refusal :=
  match Tab.get? s.fab.issued id with
  | none => .next s
  | some o =>
    if o.desc.heddle = 0 ∨ o.sent = false then .next s
    else
      .next ((s.addSat F.HEDDLE_RETX_CNT 0 1).sendOp id o o.seq)

/-! ### The host's share of device memory (R304, R443) -/

/-- BISNP_RESPONSE (R304): the host has given up a line, with the data it held if it may have held the line in M; what waited goes on. -/
def execBisnpResponse (die : Fin 8) (line : BitVec 48) (data : List Byte) (s : State) : Host.Outcome State Fault Refusal :=
  let h := line.toNat / 64
  let inv := s.cellar.asked.contains (h, true)
  if homeDie (h * 64) ≠ die.val ∨ (inv = false ∧ s.cellar.asked.contains (h, false) = false) then .next s
  else
    let f := s.filterOf die.val
    let dirty := f.any fun e => e.1 == h && e.2
    let s1 := if dirty then s.storeBlock (h * 64) (padTo 64 data) false else s
    let s2 := s1.setFilter die.val (if inv then f.filter fun e => e.1 != h else f.map fun e => if e.1 = h then (h, false) else e)
    let s3 : State := { s2 with cellar := { s2.cellar with asked := s2.cellar.asked.filter fun e => e.1 != h } }
    .next s3.drainAll

/-- The GO response to a DirtyEvict (R303): the entry is released; a pull sends its data, bogus where it was forwarded. -/
def State.goAnswer (s : State) (die line : Nat) (pull : Bool) : State :=
  match (s.evictBuf die).find? fun x => x.half == line / 64 with
  | none => s
  | some e =>
    let s1 := s.setEvict die ((s.evictBuf die).filter fun x => x.half != e.half)
    if pull then s1.emit (.hostData line e.forwarded e.data) else s1

/-- GO_WRITEPULLDROP; what waited for the entry goes on. -/
def execGoWritePullDrop (die : Fin 8) (line : BitVec 48) (s : State) : Host.Outcome State Fault Refusal :=
  .next (s.goAnswer die.val line.toNat false).drainAll

/-- GO_WRITEPULL; likewise. -/
def execGoWritePull (die : Fin 8) (line : BitVec 48) (s : State) : Host.Outcome State Fault Refusal :=
  .next (s.goAnswer die.val line.toNat true).drainAll

/-- A valid HCACHE range holds a device address (R443). -/
def State.hcached (s : State) (a : Nat) : Bool :=
  regionOf a != .reserved && s.hcaches.any fun r => decide (r.2.1 * 2 ^ 30 ≤ a) && decide (a < (r.2.1 + r.2.2) * 2 ^ 30)

/-- Lines that a home die's snoop filter holds (R304). -/
def filterMax : Nat := 262144

/-- CXL_MEM_REQUEST (R443, R304, R489): a 64-byte read or write of device DRAM by the host; `own` says whether the host holds the line in M or E
after it (for a write: keeps it). With the filter full the oldest entry is back-invalidated first, and the request waits. -/
def execCxlMemRequest (write : Bool) (addr : BitVec 48) (data : List Byte) (own : Bool) (s : State) : Host.Outcome State Fault Refusal :=
  let a := addr.toNat / 64 * 64
  let h := a / 64
  let d := homeDie a
  let f := s.filterOf d
  if !(s.flag F.HOST_LINK_STAT_LINK_UP 0 && s.flag F.HOST_LINK_STAT_MEM_EN 0) then .next s
  else if s.dormant || !s.hcached a then .next ((s.hostCount 0 ⟨1, a⟩).emit (.cxlData a (if write then [] else List.replicate 64 0)))
  else if write then
    let s1 := s.storeBlock a (padTo 64 data) false
    .next (if own then s1 else s1.setFilter d (f.filter fun e => e.1 != h))
  else if s.fenceWaits a 64 then .next s
  else if (f.any fun e => e.1 == h) = false ∧ filterMax ≤ f.length then
    .next (match f with
      | e :: _ => s.backSnoop e.1 true
      | [] => s)
  else
    let f1 := if f.any fun e => e.1 == h then f.map fun e => if e.1 = h then (h, e.2 || own) else e else f ++ [(h, own)]
    .next ((s.setFilter d f1).emit (.cxlData a (s.readMem none a 64).data))

end Sys2Proof.Machine
end

