-- ==== Sys2Proof/Machine/Epilogue.lean ====
section
/-! DEFINITION. The epilogue's drain (R176 to R186): one vat row at a time to its destination, status words and lees maps, the
hand-over to a collective slice. -/
namespace Sys2Proof.Machine
open Sys2Proof

/-- The destination can take the next row of a drain: its heddle has credits for it (R185); `accept` is what else the destination says. A
row that the pass did not address (R182), and one whose operation is a reserved encoding (R344), go nowhere and wait for nothing. -/
def State.canAccept (s : State) (c n : Nat) (d : Drain) (accept : Bool) : Bool :=
  let o := s.rowDesc c n d d.row
  if d.rows ≤ d.row ∨ (d.epi.sends = true ∧ s.opBad o = true) then true
  else accept && (!d.epi.sends || o.heddle == 0 ||
    (let x := (s.heddle o.heddle).ctx
     decide (s.unacked o.heddle false < 1024) && decide (flitsOf true o.length ≤ x.credits) &&
      !(s.fab.issued.any fun e => !e.2.sent && e.2.desc.heddle == o.heddle)))

/-- The 64 elements of a drained row (R176, R177, R180, R186). Scales and bias values are read at the addresses given, aligned or not (R120
says that a scale vector is 4-byte aligned and no more: log entry 118). -/
def State.drainElems (s : State) (c n : Nat) (d : Drain) : List (EOut × VatEl × Bool) :=
  let x := s.arr c n
  let e := d.epi
  let i := 64 * d.tile + d.row
  let one : List Nat × List Nat := ([0x3F800000], [])
  let r := if d.rowScale = 0 then one else s.spoolElems c (d.rowScale + 4 * i) 4 1
  let cs := if d.colScale = 0 then (List.replicate 64 0x3F800000, []) else s.spoolElems c d.colScale 4 64
  let bw := fmtBytes e.biasFmt
  let bs := if e.biasEn then s.spoolElems c e.biasAddr bw 64 else ([], [])
  (List.range 64).map fun j =>
    let el : VatEl := Tab.get {} x.vat (vatKey d.bank d.row j)
    let bias := if e.biasEn then some (decodeVal e.biasFmt 0 (bs.1.getD j 0)) else none
    let u := srDraw e.srSeed s.pick.work e.srStream ((e.tileSeq + d.tile) % 2 ^ 32 * 4096 + d.row * 64 + j)
    (epilogueElem (el.val (s.windowL c)) (f32 (r.1.headD 0)) (f32 (cs.1.getD j 0)) bias e.act e.clampLo e.clampHi e.ccb e.frac
      (interFmt e.ccb) u, el, !r.2.isEmpty || cs.2.contains j || bs.2.contains j)

/-- One row drained: its output sent or kept for a collective slice, its vat row in the initial state, its counts taken. -/
def State.drainRow (s : State) (c n : Nat) (d : Drain) : State × Drain :=
  let e := d.epi
  let w := fmtBytes (ccbFmt e.ccb)
  let zeros := List.replicate (64 * w) (0 : Byte)
  if d.rows ≤ d.row then (s, { d with row := d.row + 1, data := if e.dest = 5 then d.data ++ zeros else d.data })
  else
    let els := s.drainElems c n d
    let bytes := els.flatMap fun x => toLe w x.1.bits
    let pz := els.map fun x => x.2.1.poison || x.2.2
    let cnt := fun (f : EOut → Bool) => (els.filter fun x => f x.1).length
    let nan := cnt (EOut.nan (ccbFmt e.ccb))
    let ovf := cnt (·.ovf)
    let under := cnt (·.under)
    let x := s.arr c n
    let s1 := s.setArr c n { x with vat := (List.range 64).foldl (fun t j => Tab.del t (vatKey d.bank d.row j)) x.vat }
    let s2 := if e.dest = 5 then s1 else s1.emitRow c n d (64 * d.tile + d.row) bytes pz
    let s3 := (((s2.countEv F.CORE_EPI_NAN c (nan + cnt (·.nanIn)) Ev.CORE_EPI_NAN).addSat F.CORE_EPI_OVF c ovf).addSat F.CORE_EPI_UNDER c under).corePoison
      c (pz.any id)
    let lees := ((List.range 64).filter fun j => (els.getD j ({}, {}, false)).2.1.lees).map fun j => 64 * d.row + j
    (s3, { d with
      row := d.row + 1, nan := d.nan + nan, ovf := d.ovf + ovf, under := d.under + under, lees := d.lees ++ lees
      data := if e.dest = 5 then d.data ++ bytes else d.data
      pz := if e.dest = 5 then d.pz ++ ((List.range 64).filter fun j => pz.getD j false).map fun j => 64 * d.row + j else d.pz })

/-- The drain at the front is over, and with a pass's last one the pass. -/
def State.drained (s : State) (c n : Nat) (d : Drain) : State :=
  let x := s.arr c n
  s.setArr c n { x with
    drains := x.drains.drop 1
    live := if d.last then x.live.filter fun l => l.1 != d.pass else x.live
    writes := if d.last then x.writes.filter fun l => l.1 != d.pass else x.writes }

/-- The next row of zeros of a reserved pass, as PUT writes it (R146). -/
def State.drainZeros (s : State) (c n : Nat) (d : Drain) (rest : List Drain) : State :=
  let w := fmtBytes (ccbFmt d.epi.ccb)
  let s1 := s.emitRow c n { d with tile := d.row / 64 } d.row (List.replicate (64 * w) 0) (List.replicate 64 false)
  let d' := { d with row := d.row + 1 }
  let x := s1.arr c n
  let s2 := s1.setArr c n { x with drains := d' :: rest }
  if d.rows ≤ d.row + 1 then (s2.drained c n d').startLoad c n else s2

/-- A tile whose last row has left: status word and lees map (R184), the counters of Table 6.10, the hand-over to a script (R380), and
the end of its pass with the last tile (R231). -/
def State.drainEnd (s : State) (c n : Nat) (d : Drain) : State :=
  let e := d.epi
  let k := d.lees.length
  let tsw := e.tswAddr + 8 * d.tile
  let lmap := e.lmapAddr + 512 * d.tile
  let s1 := if e.tswEn then (s.unitOow c tsw 8).windowWrite c tsw (toLe 8 (statusWord k d.nan d.ovf d.under)) [] else s
  let s2 := if e.lmapEn then (s1.unitOow c lmap 512).windowWrite c lmap (leesMap d.lees) [] else s1
  let s3 := if k = 0 then s2 else
    (((((s2.countEv (ofArr n F.CORE_A0_LEES_TILES F.CORE_A1_LEES_TILES) c 1 Ev.CORE_LEES).addSat
      (ofArr n F.CORE_A0_LEES_ELEMS F.CORE_A1_LEES_ELEMS) c k).setFld F.CORE_LEES_LAST_BANK c d.bank).setFld F.CORE_LEES_LAST_ARRAY c n).setFld
        F.CORE_LEES_LAST_TASK c ((s.core c).task.getD 0)).setFld F.CORE_LEES_LAST_LEES_N c k
  let s4 := if e.dest = 5 then
      s3.handTile { script := e.heddle, seq := (e.tileSeq + d.tile) % 2 ^ 32, part := (s.core c).part, ccb := e.ccb, data := d.data, poison := d.pz
                    tag := some { work := BitVec.ofNat 32 s.pick.work, core := BitVec.ofNat 16 c, array := BitVec.ofNat 8 n
                                  tile := BitVec.ofNat 22 (e.tileSeq + d.tile) } }
    else s3
  (s4.drained c n d).startLoad c n

/-- EPILOGUE_DRAIN (R185): a cycle of the drain of the bank at the front; it stops where the destination cannot accept, or where the
tile's chunk waits for slots (R378). -/
def execEpilogueDrain (core : Fin 512) (arr : Fin 2) (_cyc : Nat) (accept : Bool) (ecc : Ecc) (s : State) :
    Host.Outcome State Fault Refusal :=
  let c := core.val
  let n := arr.val
  match (s.arr c n).drains with
  | [] => .next s
  | d :: rest =>
    let e := d.epi
    let wait := if e.dest = 5 ∧ d.row = 63 then s.tileWaits e.heddle ((e.tileSeq + d.tile) % 2 ^ 32) else none
    if !s.canAccept c n d accept || wait.isSome then
      let s1 := s.addSat F.CORE_EPI_STALL c 1
      .next (match wait with
        | some k => s1.addSat F.COLL_TILE_WAIT k 1
        | none => s1)
    else if d.zero then .next (s.drainZeros c n d rest)
    else
      let r := (s.arrEcc c ecc).drainRow c n d
      let x := r.1.arr c n
      let s1 := r.1.setArr c n { x with drains := r.2 :: rest }
      .next (if r.2.row = 64 then s1.drainEnd c n r.2 else s1)

end Sys2Proof.Machine
end

