-- ==== Sys2Proof/Machine/HostMem.lean ====
section
/-! DEFINITION. BAR2 (R439, R440, R451): host memory requests to device addresses. -/
namespace Sys2Proof.Machine
open Sys2Proof

/-- The device address of an offset of a function's BAR2 (Table 16.2). -/
def State.bar2Addr (s : State) (fn off : Nat) : Nat :=
  s.fld (F.HOST_BAR2_MAP_LO.nth fn) 0 * 2 ^ 30 + s.fld (F.HOST_BAR2_MAP_HI.nth fn) 0 * 2 ^ 32 + off

/-- The agent of a function. -/
def fnAccess (fn : Nat) : Access := ⟨fnAgent fn, fnPart fn, some (10, 0)⟩

/-- The completion of a read request, its bytes and whether they carry poison. -/
def State.bar2Reply (s : State) (fn : Nat) (write : Bool) (bytes : List Byte) (pz : Bool) : State :=
  if write then s else s.emit (.tlpData fn bytes pz)

/-- A request to a register page. -/
def State.bar2Page (s : State) (fn : Nat) (write : Bool) (a len : Nat) (data : List Byte) : State :=
  if write then s.regWrite (fnAccess fn) a len (leNat (padTo len data))
  else let r := s.regRead (fnAccess fn) a len; r.1.bar2Reply fn false (toLe len r.2) false

/-- A request to memory: a poisoned write poisons every 64-byte block that it touches (R451). -/
def State.bar2Mem (s : State) (fn : Nat) (write : Bool) (a len : Nat) (data : List Byte) (poisoned : Bool) : State :=
  let who := fnPart fn
  let x := s.landAll who false write a len
  let s1 := (s.hostCount fn x).touch who write a len
  if write then
    let s2 := s1.landBytes who false a (padTo len data) (if poisoned then List.range (len / 64 + 2) else [])
    if poisoned then s2.countEv F.HOST_EP_RX 0 1 Ev.HOST_EP_RX else s2
  else
    let r := s1.readMem who a len
    s1.bar2Reply fn false r.data (!r.poison.isEmpty)

/-- BAR2_ACCESS (R440, R442, R443, R489): a memory request of a function at an offset of its BAR2. -/
def execBar2Access (fn : Fin 9) (write : Bool) (off len : Nat) (data : List Byte) (poisoned : Bool) (s : State) :
    Host.Outcome State Fault Refusal :=
  let f := fn.val
  let a := s.bar2Addr f off
  if !s.fnLive f then .next (s.emit (.unsupported f))
  else if s.dormant then .next ((s.hostCount f ⟨1, a⟩).bar2Reply f write (List.replicate len 0) false)
  else if regionOf a = .page ∧ pageExists a = true then .next (s.bar2Page f write a len data)
  else if s.accWaits write a len then .next (s.askHost write a len)
  else .next (s.bar2Mem f write a len data poisoned)

end Sys2Proof.Machine
end

