-- ==== Sys2Proof/Machine/PageMem.lean ====
section
/-! DEFINITION. The strand instructions that reach the own spool and the register pages: LD, ST, LDV, LDP, STP (Table 8.8). -/
namespace Sys2Proof.Machine
open Sys2Proof

/-- The address sa + IMM. -/
def State.ea (s : State) (i : Issue) : Nat := wrapInt 64 ((s.ra i : Int) + immS i)

/-- The width of a scalar load or store in bytes: MOD [1:0]. -/
def accWidth (i : Issue) : Nat := 2 ^ modBits i 0 2

/-- A scalar access that is out of window (R202, R203): counted in STR_OOW, and under R29 where it falls under that rule too. -/
def State.scalarOow (s : State) (c a n : Nat) (write : Bool) : State :=
  let s1 := s.strOow c 1
  if a < 2 ^ 48 then s1.oowAccess c a n write else s1.countErr 1 c errUnmapped (wrapInt 48 a) 0x0B

/-- A loaded value, sign-extended where MOD [2] is 1. -/
def loadValue (i : Issue) (v : Nat) : Nat := if bitOf i.mod.val 2 then wrapInt 64 (signedOf (8 * accWidth i) v) else v

/-- LD: from the own spool or a register page; any other address, or a misaligned one, reads 0. -/
def State.strandLoad (s : State) (op : Nat) (i : Issue) : State :=
  let c := i.core.val
  let w := accWidth i
  s.issue op i (unusedZero i true true false 3 32) fun t =>
    let a := t.ea i
    if a % w ≠ 0 then (t.scalarOow c a w false).wd i 0
    else if inWindow c a w then
      let u := t.splEcc c i.spl
      let r := u.windowRead c a w
      (u.wd i (loadValue i (leNat r.1))).corePoison c (!r.2.isEmpty)
    else if regionOf a = .page then
      let r := t.regRead (t.accessOf (.strand i.core)) a w
      r.1.wd i (loadValue i r.2)
    else (t.scalarOow c a w false).wd i 0

def execLd (i : Issue) (s : State) : Host.Outcome State Fault Refusal := .next (s.strandLoad 0x10 i)

/-- LDV: as LD, for memory written concurrently; the command's place in the run is when it reads. -/
def execLdv (i : Issue) (s : State) : Host.Outcome State Fault Refusal := .next (s.strandLoad 0x12 i)

/-- ST: the low bytes of sb; a store to any other address, or a misaligned one, is dropped. -/
def execSt (i : Issue) (s : State) : Host.Outcome State Fault Refusal :=
  let c := i.core.val
  let w := accWidth i
  .next (s.issue 0x11 i (unusedZero i false true true 3 32) fun t =>
    let a := t.ea i
    if a % w ≠ 0 then t.scalarOow c a w true
    else if inWindow c a w then t.windowWrite c a (toLe w (t.rb i)) []
    else if regionOf a = .page then t.regWrite (t.accessOf (.strand i.core)) a w (t.rb i % 2 ^ (8 * w))
    else t.scalarOow c a w true)

/-- An address that LDP and STP may name: 4-byte aligned in the register pages. -/
def pageWord (a : Nat) : Bool := a % 4 == 0 && regionOf a == .page

/-- LDP: a 32-bit read of a register page. -/
def execLdp (i : Issue) (s : State) : Host.Outcome State Fault Refusal :=
  let c := i.core.val
  .next (s.issue 0x13 i (unusedZero i true true false 0 32) fun t =>
    let a := t.ea i
    if pageWord a then
      let r := t.regRead (t.accessOf (.strand i.core)) a 4
      r.1.wd i r.2
    else (t.strOow c 1).wd i 0)

/-- STP: a 32-bit write of a register page. -/
def execStp (i : Issue) (s : State) : Host.Outcome State Fault Refusal :=
  let c := i.core.val
  .next (s.issue 0x14 i (unusedZero i false true true 0 32) fun t =>
    let a := t.ea i
    if pageWord a then t.regWrite (t.accessOf (.strand i.core)) a 4 (t.rb i % 2 ^ 32) else t.strOow c 1)

end Sys2Proof.Machine
end

