-- ==== Sys2Proof/Machine/Sched.lean ====
section
/-! DEFINITION. The schedule (R83 to R87): entries as the sequencer fetches and checks them, tasks as they start and finish. -/
namespace Sys2Proof.Machine
open Sys2Proof

/-! ### Entries (R83, R84, R354) -/

/-- Bytes that the sequencer fetches; none where the read fails, carries poison or still waits (log entry 46). -/
def State.seqRead (s : State) (a n : Nat) : Option (List Byte) :=
  let r := s.readMem none a n
  if r.acs.st = 0 ∧ r.poison = [] ∧ s.accWaits false a n = false then some r.data else none

/-- The sequencer's reads that fail under R29 count on the PICK page. -/
def State.seqCount (s : State) (l : List (Nat × Nat)) : State :=
  l.foldl (fun t x => t.accessDone (12, 0) 0 none (s.readMem none x.1 x.2).acs) s

/-- The task record that 32 bytes spell (Table 3.4). -/
def taskRecOf (b : List Byte) : TaskRec :=
  { unitType := leAt b 0 1, unitInst := leAt b 1 2, tflags := leAt b 3 1, start := leAt b 4 4, budget := leAt b 8 4
    entry := leAt b 12 4, arg := leAt b 16 6 }

/-- A task's unit exists and belongs to an enabled partition where it belongs to one (R84). -/
def State.taskUnitOk (s : State) (t : TaskRec) : Bool :=
  match t.unitType with
  | 1 => decide (t.unitInst < 512) && (s.corePart t.unitInst).any s.partEnabled
  | 5 => decide (t.unitInst < 16) && s.partEnabled (s.solvPart t.unitInst)
  | 6 => decide (t.unitInst < 8)
  | 7 => decide (t.unitInst < 9)
  | 14 => t.unitInst == 0
  | _ => false

/-- The checks of R84 on a task record. -/
def State.taskOk (s : State) (b : List Byte) : Bool :=
  let t := taskRecOf b
  decide (t.tflags < 2) && (b.drop 22).all (· == 0) && s.taskUnitOk t && decide ((t.start + t.budget) * 1000 ≤ s.beatUpNs)

/-- A heddle set record (R354): the peer as a device number. -/
def State.hedRecOf (s : State) (b : List Byte) : HedRec :=
  let p := leAt b 0 2
  { peer := if bitOf (leAt b 2 1) 3 then s.relDev p else p, part := bitsOf (leAt b 2 1) 0 3, hid := leAt b 4 2 }

/-- The checks of R354 on a record, given the HIDs of the records before it. -/
def State.hedOk (s : State) (b : List Byte) (before : List Nat) : Bool :=
  let r := s.hedRecOf b
  bitsOf (leAt b 2 1) 4 4 == 0 && leAt b 3 1 == 0 && leAt b 6 2 == 0 && decide (23 ≤ r.hid) && decide (r.hid < s.sessBase) &&
    decide (r.hid ≤ 512) && r.peer != s.ownDev && (s.permPeer r.peer).isNone && !before.contains r.hid

/-- The reserved fields and the ranges of an entry header (Table 3.3), and its IMAGE_TAG against the loaded image. -/
def State.headerOk (s : State) (b : List Byte) : Bool :=
  decide (leAt b 4 4 < 4) && decide (leAt b 2 2 ≤ 4095) && leAt b 8 6 % 32 == 0 && decide (leAt b 14 2 ≤ 512) && leAt b 16 6 % 8 == 0 &&
    leAt b 22 2 == 0 && (b.drop 32).all (· == 0) && leAt b 24 8 == s.fld (F.AUDIT_IMAGE_DIGEST.nth 0) 0 + s.fld (F.AUDIT_IMAGE_DIGEST.nth 1) 0 * 2 ^ 32

/-- A list cut in parts of `n` bytes, `k` of them. -/
def cutParts (n k : Nat) (b : List Byte) : List (List Byte) := (List.range k).map fun j => (b.drop (n * j)).take n

/-- Every record of a heddle set passes its check. -/
def State.hedSetOk (s : State) : List (List Byte) → List Nat → Bool
  | [], _ => true
  | b :: t, before => s.hedOk b before && s.hedSetOk t ((s.hedRecOf b).hid :: before)

/-- The address of the header of entry `i` (R83). -/
def State.entryAddr (r : State) (i : Nat) : Nat := r.fldPair F.PICK_SCHED_BASE_LO F.PICK_SCHED_BASE_HI 0 + 64 * i

/-- What the sequencer reads for entry `i`: the header, and where that passes, the task records and the heddle set. -/
def State.entryReads (s r : State) (i : Nat) : List (Nat × Nat) :=
  (r.entryAddr i, 64) :: (match s.seqRead (r.entryAddr i) 64 with
    | some h => if r.headerOk h then [(leAt h 8 6, 32 * leAt h 2 2), (leAt h 16 6, 8 * leAt h 14 2)] else []
    | none => [])

/-- Entry `i` as it is fetched under the configuration `r`; none where it fails its check (R84). -/
def State.loadEntry (s r : State) (i : Nat) : Option Entry :=
  match s.seqRead (r.entryAddr i) 64 with
  | none => none
  | some h =>
    if !r.headerOk h then none
    else match s.seqRead (leAt h 8 6) (32 * leAt h 2 2), s.seqRead (leAt h 16 6) (8 * leAt h 14 2) with
      | some tb, some hb =>
        let ts := cutParts 32 (leAt h 2 2) tb
        let hs := cutParts 8 (leAt h 14 2) hb
        if ts.all r.taskOk && r.hedSetOk hs [] then
          some { idx := i, next := leAt h 0 2, flags := leAt h 4 4, tasks := ts.map taskRecOf, heds := hs.map r.hedRecOf }
        else none
      | _, _ => none

/-- The configuration that the next pick will run with: that of a commit which is due at its edge, if one is armed (R84). -/
def State.nextConfig (s : State) : State :=
  match s.armed with
  | some a => if a.pick ≤ s.pick.num + 1 then s.resulting a.pages else s
  | none => s

/-- SCHED_STAT.STATE (Table 3.9): 0 IDLE, 1 RUN, 2 RECOVERY, 3 STALLED. -/
def State.schedState (s : State) : Nat := s.fld F.PICK_SCHED_STAT_STATE 0

/-- The entry carries HALT, STEP_END. -/
def Entry.halt (e : Entry) : Bool := bitOf e.flags 1
def Entry.stepEnd (e : Entry) : Bool := bitOf e.flags 0

/-- The entry that the next work pick will run if this pick commits: the one that the current entry names, or SCHED_CTL.ENTRY where a commit
that is due sets RUN. -/
def State.nextIndex (s : State) : Option Nat :=
  let r := s.nextConfig
  let was := s.flag F.PICK_SCHED_CTL_RUN 0
  let will := r.flag F.PICK_SCHED_CTL_RUN 0
  if s.pick.fenced || !will then none
  else if !was then some (r.fld F.PICK_SCHED_CTL_ENTRY 0)
  else if (s.schedState == 1 || s.schedState == 2) && !s.pick.noTask && !s.pick.entry.halt then some s.pick.entry.next
  else none

/-- A failed check (R84): SCHED_BAD, and the device votes LATE with reason SCHED. -/
def State.schedBad (s : State) : State := (s.raise 12 0 Ev.PICK_SCHED_BAD).cause 3

/-- What the check of an entry leaves: the entry, or SCHED_BAD where it fails. -/
def State.entryChecked (s : State) : Option Entry → State
  | some e => { s with pick := { s.pick with nextEntry := some e } }
  | none => ({ s with pick := { s.pick with nextEntry := none } }).schedBad

/-- The check of entry `i`, where one comes next. -/
def State.entryCheckAt (s : State) : Option Nat → State
  | none => s
  | some i => (s.seqCount (s.entryReads s.nextConfig i)).entryChecked (s.loadEntry s.nextConfig i)

/-- The next entry fetched and checked. -/
def State.entryCheck (s : State) : State := s.entryCheckAt s.nextIndex

/-- What the fetch of the next entry reads. -/
def State.nextReads (s : State) : List (Nat × Nat) := (s.nextIndex.map fun i => s.entryReads s.nextConfig i).getD []

/-- SCHED_ENTRY_CHECK (R84): the sequencer fetches and checks during the pick, before the vote point; a read of what the host holds waits
(R304). -/
def execSchedEntryCheck (s : State) : Host.Outcome State Fault Refusal :=
  .next (if s.pick.stage = .open ∨ s.pick.stage = .beatUp then s.whenReadable s.nextReads State.entryCheck else s)

/-! ### Tasks (R85, R93) -/

/-- The partition that a task belongs to, where its unit or its script has one (R354). -/
def State.taskPart (s : State) (t : TaskRec) : Option Nat :=
  match t.unitType with
  | 1 => s.corePart t.unitInst
  | 5 => some (s.solvPart t.unitInst)
  | 7 => (s.taskScript t.unitInst t.entry).map (·.part)
  | _ => none

/-- Two records name one unit. -/
def sameUnit (a b : TaskRec) : Bool := a.unitType == b.unitType && a.unitInst == b.unitInst

/-- A unit accepts tasks: it is READY, and a collective slice is enabled. -/
def State.unitOpen (s : State) (t : TaskRec) : Bool :=
  s.blkReady t.unitType t.unitInst && (t.unitType != 7 || s.flag F.COLL_COLL_CTL_ENABLE t.unitInst)

/-- Every record of a partition in the heddle set is threaded (R354). -/
def State.partThreaded (s : State) (p : Nat) : Bool := s.pick.entry.heds.all fun r => r.part != p || s.recThreaded r

/-- Task `idx` may start at `ns` (R85, R87, R92, R354). -/
def State.canStart (s : State) (idx : Nat) (t : Task) (ns : Nat) : Bool :=
  s.pick.stage == .open && !s.pick.noTask && t.st == .waiting && decide (t.desc.start * 1000 ≤ ns) && decide (ns < s.beatUpNs) &&
    (s.pick.tasks.take idx).all (fun u => !sameUnit u.desc t.desc || u.st == .finished) && s.unitOpen t.desc &&
    (match s.taskPart t.desc with
     | some p => s.partThreaded p
     | none => true)

/-- A CORE task starts (R223, R226): strand 0 runs with the values of Table 8.1 and owns every unit; no register holds a value from before
(R86). An engine that holds the core's matrix-vector path keeps it (R254). -/
def State.coreTask (s : State) (c task entry arg : Nat) : State :=
  let k : CoreState := { task := some task, part := (s.corePart c).getD 0, owner := [(0, 0), (1, 0), (2, 0), (3, 0)]
                         mvpHolder := (s.core c).mvpHolder }
  let s1 := s.setCore c k
  s1.setCore c { k with strands := [(0, { st := .running, pc := entry, regs := s1.taskRegs c arg })] }

/-- The argument block that a unit reads as its task starts (R251, R369), for its partition. -/
def State.argBlock (s : State) (t : TaskRec) : Nat := leNat (s.readMem (s.taskPart t) t.arg 8).data

/-- What a unit reads as its task starts; the strands of a CORE task read their own. -/
def State.taskReads (s : State) (t : TaskRec) : List (Nat × Nat) :=
  match t.unitType with
  | 5 => [(t.arg, 8)]
  | 6 => s.updInputs t.unitInst t.entry
  | 7 => (t.arg, 8) :: s.collInputs t.unitInst t.entry
  | _ => []

/-- The read of an argument block counted on the unit's page where it fails (R29, R33). -/
def State.argCount (s : State) (t : TaskRec) : State :=
  if t.unitType = 5 ∨ t.unitType = 7 then
    s.accessDone (t.unitType, t.unitInst) 0 (s.taskPart t) (s.checkAll (s.taskPart t) false t.arg 8)
  else s

/-- The unit begins a task; a MGMT task is the firmware's. -/
def State.startUnit (s : State) (idx : Nat) (t : TaskRec) (ns : Nat) : State :=
  let block := s.argBlock t
  let s := s.argCount t
  match t.unitType with
  | 1 => s.coreTask t.unitInst idx t.entry t.arg
  | 5 => s.solvTask t.unitInst idx t.entry block ns
  | 6 => s.updTask t.unitInst idx t.entry
  | 7 => s.collTask t.unitInst idx t.entry block
  | _ => s

/-- A task of the pick replaced, at `ns` after the edge. -/
def State.setTask (s : State) (idx : Nat) (t : Task) (ns : Nat) : State :=
  s.modPick fun p => { p with tasks := p.tasks.set idx t, phase := max p.phase ns }

/-- Task `idx` started where it may start; one whose unit reads what it may not read yet waits (R304). -/
def State.taskStart (s : State) (idx ns : Nat) : State :=
  match s.pick.tasks[idx]? with
  | none => s
  | some t =>
    if s.canStart idx t ns then
      s.whenReadable (s.taskReads t.desc) fun u =>
        (u.startUnit idx t.desc ns).setTask idx { t with st := .running, startNs := ns } ns
    else s

/-- TASK_START (R85). -/
def execTaskStart (idx ns : Nat) (s : State) : Host.Outcome State Fault Refusal := .next (s.taskStart idx ns)

/-- The completion rule of a CORE task (R224). -/
def State.coreDone (s : State) (c task : Nat) : Bool :=
  let k := s.core c
  k.task == some task && k.strands.all (fun e => e.2.st != .running) && k.mvpQueue.isEmpty && k.mvp.isNone && k.slots.isEmpty &&
    k.streams.all (fun e => e.2.queue.isEmpty) &&
    k.arr.all (fun e => e.2.live.isEmpty && e.2.loader.isEmpty && e.2.drains.isEmpty) &&
    !s.hasOps fun o => match o with
      | .strand d _ => d == c
      | .epilogue d _ _ _ _ _ => d == c
      | .runAhead d _ => d == c
      | _ => false

/-- The completion rule of an UPDATE task (R327). -/
def State.updDone (s : State) (c task : Nat) : Bool := (s.slice c).task == some task && (s.slice c).taskBlocks.isEmpty

/-- The unit has completed a task under its completion rule (R93). -/
def State.unitDone (s : State) (idx : Nat) (t : TaskRec) : Bool :=
  match t.unitType with
  | 1 => s.coreDone t.unitInst idx
  | 5 => s.solvDone t.unitInst idx
  | 6 => s.updDone t.unitInst idx
  | 7 => s.collDone t.unitInst idx
  | _ => true

/-- The unit runs no task any more. -/
def State.endUnit (s : State) (t : TaskRec) : State :=
  match t.unitType with
  | 1 => s.setCore t.unitInst { s.core t.unitInst with task := none }
  | 5 => s.setSolver t.unitInst { s.solver t.unitInst with task := none }
  | 6 => s.setSlice t.unitInst { s.slice t.unitInst with task := none }
  | 7 => s.setColl t.unitInst { s.coll t.unitInst with task := none }
  | _ => s

/-- A running task finished at `ns`: past its budget it counts in BUDGET_CNT, unless it is overrun (R85, R93). -/
def State.taskFinish (s : State) (idx ns : Nat) : State :=
  match s.pick.tasks[idx]? with
  | none => s
  | some t =>
    if t.st = .running ∧ t.startNs ≤ ns ∧ (s.pick.stage ≠ .open ∨ ns ≤ s.beatUpNs) ∧ s.unitDone idx t.desc = true then
      let s1 := if (t.desc.start + t.desc.budget) * 1000 < ns ∧ t.overrun = false then s.addSat F.PICK_BUDGET_CNT 0 1 else s
      (s1.endUnit t.desc).setTask idx { t with st := .finished } ns
    else s

/-- TASK_FINISH (R93). -/
def execTaskFinish (idx ns : Nat) (s : State) : Host.Outcome State Fault Refusal := .next (s.taskFinish idx ns)

end Sys2Proof.Machine
end

