-- ==== Sys2Proof/Machine/Vote.lean ====
section
/-! DEFINITION. The instants of a pick between its edges (R92 to R98), the ALIGN flits that carry the pick, its votes and its confirms
(R361), time disagreement between devices (R82, R364, R409). -/
namespace Sys2Proof.Machine
open Sys2Proof

/-! ### ALIGN flits as they leave (R361) -/

/-- The transmit time stamp of a flit on the pick timebase, in ns: the instant that the sequencer stands at (R361, log entry 122). -/
def State.txStamp (s : State) : Nat := (s.pick.num * s.periodNs + s.pick.phase) % 2 ^ 64

/-- An ALIGN flit sent on a link: the OR of the votes while the vote round runs, of the confirms while the confirm round runs. -/
def State.sendAlign (s : State) (l : Nat) (edge : Bool) : State :=
  let inVote := s.pick.stage == .voted && s.linkLive l && !s.pick.fenced
  let inConfirm := s.pick.stage == .confirmed && s.linkLive l && !s.pick.fenced
  (s.addWrap F.LINK_TX_FLITS l 1).emit (.align l s.pick.num s.txStamp edge (if inVote then some s.pick.voteOr else none)
    (if inConfirm then some s.pick.confirmOr else none) (edge && s.pick.sendDissent) (s.link l).lastTx (s.fld (F.CFG_GEN 0) 0) s.cfgPrint)

/-- The links on which votes and confirms are exchanged: the live ones; a fenced device takes part in no round (R409). -/
def State.voteLinks (s : State) : List Nat := if s.pick.fenced then [] else s.liveLinks

/-- A flit of the running round on every live link (R95, R96). -/
def State.flood (s : State) : State := s.voteLinks.foldl (fun t l => t.sendAlign l false) s

/-- ALIGN_INTERVAL (R361). -/
def execAlignInterval (link : Fin 36) (s : State) : Host.Outcome State Fault Refusal :=
  .next (if s.linkState link.val = 4 then s.sendAlign link.val false else s)

/-! ### Fences (R97, R409) -/

/-- A FENCE record (Table 17.8): cause 0 time, 1 dissent, 2 peer. -/
def State.fenceRec (s : State) (cause l : Nat) : State := s.bookPush (s.bookRec 0x0D [BitVec.ofNat 8 cause, BitVec.ofNat 8 l])

/-- The device fences itself. -/
def State.fenceSelf (s : State) (cause l : Nat) : State :=
  if s.pick.fenced then s
  else (s.fenceRec cause l).modPick fun p => { p with fenced := true, fenceEdges := 0, fenceHeard := false, adopt := none }

/-- The device marks the peer of a link fenced. -/
def State.fencePeer (s : State) (l : Nat) : State :=
  if (s.link l).peerFenced then s else ((s.fenceRec 2 l).setLink l { s.link l with peerFenced := true }).permSync

/-! ### Beat-up start (R93) -/

/-- PICK_OVERRUN (Table 2.5). -/
def evPickOverrun : Nat := 3

/-- A task that is not finished at beat-up start is overrun. -/
def State.overrun (s : State) (idx : Nat) (t : Task) : State :=
  let s1 := ((s.raise t.desc.unitType t.desc.unitInst evPickOverrun).raise 12 0 evPickOverrun).addSat F.PICK_OVERRUN_CNT 0 1
  (s1.cause 0).modPick fun p => { p with
    tasks := p.tasks.set idx { t with overrun := true }
    firstOverrun := match p.firstOverrun with
      | some k => some k
      | none => some idx }

/-- A comparison that is not finished is an overrun task of slice 8 (R396). -/
def State.compareLate (s : State) : State :=
  if s.audit.comparing && s.audit.flag.isNone then
    (((s.raise 7 8 evPickOverrun).raise 12 0 evPickOverrun).addSat F.PICK_OVERRUN_CNT 0 1).cause 0
  else s

/-- Beat-up start: P − G after the edge. -/
def State.beatUp (s : State) : State :=
  let s1 := s.modPick fun p => { p with stage := .beatUp, phase := s.beatUpNs }
  let s2 := s1.pick.tasks.zipIdx.foldl (fun t x => if x.1.st = .finished then t else t.overrun x.2 x.1) s1
  s2.compareLate.flushLate

/-- BEAT_UP_START (R92, R93, R299). -/
def execBeatUpStart (s : State) : Host.Outcome State Fault Refusal := .next (if s.pick.stage = .open then s.beatUp else s)

/-! ### The vote and the confirm (R94 to R97) -/

/-- A remote operation of this pick is not acknowledged (Table 3.7): repair contexts do not count. -/
def State.unackedOps (s : State) : Bool := s.fab.issued.any fun e => e.2.repair.isNone && e.2.pickTag == s.pick.num % 256

/-- The flood interval in ns (Table 3.1). -/
def State.floodNs (s : State) : Nat := (sizeClass (s.fld F.PICK_PICK_CFG_SIZE_CLASS 0)).1 * 1000

/-- The vote point: P − 2F − 1 µs after the edge. The fetch and check of the next entry has been done by then (R84). -/
def State.votePoint (s : State) : State :=
  let s1 := if s.pick.nextEntry.isNone && !bitOf s.pick.causes 3 then s.entryCheck else s
  let s2 := if s1.unackedOps then s1.cause 1 else s1
  let late := s2.pick.causes % 16 != 0
  let s3 := (s2.setFld F.PICK_VOTE_STAT_LOCAL_LATE 0 (bit late)).setFld F.PICK_VOTE_STAT_LOCAL_REASON 0 s2.pick.causes
  (s3.modPick fun p => { p with stage := .voted, phase := s.periodNs - 2 * s.floodNs - 1000, voteOr := p.voteOr || late }).flood

/-- VOTE_POINT (R94, R95). -/
def execVotePoint (s : State) : Host.Outcome State Fault Refusal := .next (if s.pick.stage = .beatUp then s.votePoint else s)

/-- The confirm point: P − F − 1 µs after the edge. -/
def State.confirmPoint (s : State) : State :=
  let missing := s.voteLinks.any fun l => !s.pick.votesFrom.contains l
  let late := s.pick.voteOr || missing
  let s1 := if missing then
      (s.cause 4).setFld F.PICK_VOTE_STAT_LOCAL_REASON 0 (s.fld F.PICK_VOTE_STAT_LOCAL_REASON 0 % 16 + 16)
    else s
  ((s1.setFld F.PICK_VOTE_STAT_CONFIRM_LATE 0 (bit late)).modPick fun p => { p with
    stage := .confirmed, phase := s.periodNs - s.floodNs - 1000, confirmOr := p.confirmOr || late }).flood

/-- CONFIRM_POINT (R96). -/
def execConfirmPoint (s : State) : Host.Outcome State Fault Refusal := .next (if s.pick.stage = .voted then s.confirmPoint else s)

/-- Dissent (R97): the device fences itself and says so in its first ALIGN flit of the next pick. -/
def State.dissent (s : State) (l : Nat) : State :=
  ((s.raise 12 0 Ev.PICK_DISSENT).fenceSelf 1 l).modPick fun p => { p with sendDissent := true }

/-- What a LATE outcome leaves at once: VOTE_LATE, ABORT_TASK, the LATE record (R102). -/
def State.lateOutcome (s : State) : State :=
  let s1 := match s.pick.firstOverrun with
    | some k => s.setFld F.PICK_ABORT_TASK 0 k
    | none => s
  let s2 := s1.raise 12 0 Ev.PICK_VOTE_LATE
  s2.bookPush (s2.bookRec 2 ([BitVec.ofNat 8 (s2.fld F.PICK_VOTE_STAT_LOCAL_REASON 0), BitVec.ofNat 8 (s2.fld F.PICK_VOTE_STAT_FIRST_LINK 0)] ++
    toLe 2 (s2.fld F.PICK_ABORT_TASK 0) ++ [BitVec.ofNat 8 (s2.fld F.PICK_SCHED_STAT_RECOV_RUN 0)]))

/-- The decision point: P − 1 µs after the edge. -/
def State.decisionPoint (s : State) : State :=
  let silent := s.voteLinks.filter fun l => !s.pick.confirmsFrom.contains l
  let late := s.pick.confirmOr || !silent.isEmpty
  let s1 := match silent with
    | l :: _ => s.dissent l
    | [] => s
  let s2 := ((s1.setFld F.PICK_VOTE_STAT_OUTCOME 0 (bit late)).setFld F.PICK_VOTE_STAT_FIRST_LINK 0 s1.pick.firstLink).modPick fun p =>
    { p with stage := .decided, phase := s.periodNs - 1000, outcome := some late }
  if late then s2.lateOutcome else s2

/-- DECISION_POINT (R96, R97, R102). -/
def execDecisionPoint (s : State) : Host.Outcome State Fault Refusal := .next (if s.pick.stage = .confirmed then s.decisionPoint else s)

/-! ### ALIGN flits as they arrive -/

/-- The device follows the fabric (R76). -/
def State.follower (s : State) : Bool := s.fld F.PICK_PICK_SRC_SOURCE 0 == 0

/-- The uplink in use (R80). -/
def State.uplink (s : State) : Nat :=
  let a := s.fld F.PICK_SRC_STAT_ACTIVE_LINK 0
  if a = 0x3F then s.fld F.PICK_PICK_SRC_UPLINK 0 else a

/-- The distance of two pick numbers. -/
def pickDist (a b : Nat) : Nat := min ((a + 2 ^ 48 - b % 2 ^ 48) % 2 ^ 48) ((b + 2 ^ 48 - a % 2 ^ 48) % 2 ^ 48)

/-- What an edge flit says of the peer's configuration: the link is quarantined where it differs (R364). -/
def State.alignConfig (s : State) (l : Nat) (f : AlignFlit) : State :=
  if f.edge then (s.setLink l { s.link l with peerGen := f.cfgGen.toNat, peerPrint := f.fprint.toNat }).linkJudge l else s

/-- The phase comparison of a live link (R82). -/
def State.alignPhase (s : State) (l : Nat) (f : AlignFlit) : State :=
  if s.linkLive l && decide (s.fld F.PICK_PHASE_TOL 0 < f.phaseNs.natAbs) then
    (s.setFld F.PICK_SRC_STAT_ERR_LINK 0 l).raise 12 0 Ev.PICK_PHASE_ERR
  else s

/-- A follower locks on an edge flit of its uplink, and takes its pick number (R77). -/
def State.alignLock (s : State) (l : Nat) (f : AlignFlit) : State :=
  if f.edge && s.follower && l == s.uplink && s.linkLive l && !s.flag F.PICK_SRC_STAT_LOCKED 0 && !s.flag F.PICK_SRC_STAT_HOLDOVER 0 then
    ((s.setFld F.PICK_SRC_STAT_LOCKED 0 1).setFld F.PICK_SRC_STAT_ACTIVE_LINK 0 l).modPick fun p =>
      { p with num := f.pick.toNat, work := f.pick.toNat }
  else s

/-- A fenced follower hears its uplink (R409): the pick that its flit names has begun, the next edge begins the one after it. -/
def State.alignFenced (s : State) (l : Nat) (f : AlignFlit) : State :=
  if f.edge && s.follower && l == s.uplink then
    s.modPick fun p => { p with fenceHeard := true, adopt := some ((f.pick.toNat + 1) % 2 ^ 48) }
  else s

/-- A follower that has not locked yet has no pick number to compare (R77). -/
def State.unlocked (s : State) : Bool := s.follower && !s.flag F.PICK_SRC_STAT_LOCKED 0 && !s.flag F.PICK_SRC_STAT_HOLDOVER 0

/-- The pick numbers compared (R409): a follower that its uplink leaves behind fences itself; another peer is marked fenced. A peer whose
edge flit agrees in everything is fenced no longer. -/
def State.alignTime (s : State) (l : Nat) (f : AlignFlit) : State :=
  if pickDist f.pick.toNat s.pick.num ≤ 1 then
    (if f.edge && f.pick.toNat == s.pick.num && (s.link l).peerFenced then (s.setLink l { s.link l with peerFenced := false }).permSync else s)
  else if s.unlocked then s
  else if s.follower && l == s.uplink then s.fenceSelf 0 l else s.fencePeer l

/-- A vote or a confirm received on a live link for this pick (R95, R96): the OR, the links heard from, the first that delivered LATE; a
change of the OR is forwarded while its round runs. -/
def State.alignVote (s : State) (l : Nat) (f : AlignFlit) : State :=
  if f.pick.toNat ≠ s.pick.num ∨ s.linkLive l = false then s
  else
    let p := s.pick
    let v := f.vote == some true
    let c := f.confirm == some true
    let first := if (v || c) && p.firstLink == 0x3F then l else p.firstLink
    let early := p.stage == .open || p.stage == .beatUp || p.stage == .voted
    let hearV := f.vote.isSome && early
    let hearC := f.confirm.isSome && p.stage != .decided
    let s1 := s.modPick fun p => { p with
      firstLink := first
      votesFrom := if hearV then insertNat p.votesFrom l else p.votesFrom
      voteOr := p.voteOr || (hearV && v)
      confirmsFrom := if hearC then insertNat p.confirmsFrom l else p.confirmsFrom
      confirmOr := p.confirmOr || (hearC && c) }
    if (p.stage = .voted ∧ s1.pick.voteOr ≠ p.voteOr) ∨ (p.stage = .confirmed ∧ s1.pick.confirmOr ≠ p.confirmOr) then s1.flood else s1

/-- DISSENT received (R97). -/
def State.alignDissent (s : State) (l : Nat) (f : AlignFlit) : State :=
  if f.dissent then (s.raise 12 0 Ev.PICK_DISSENT).fencePeer l else s

/-- ALIGN (R361) on a link that is UP. -/
def State.align (s : State) (l : Nat) (f : AlignFlit) : State :=
  let s1 := ((s.addWrap F.LINK_RX_FLITS l 1).setFld F.LINK_DELAY l (f.roundTripNs / 2)).setLink l { s.link l with lastTx := f.tx.toNat }
  let s2 := s1.alignConfig l f
  if s2.linkState l ≠ 4 then s2
  else if s2.pick.fenced then ((s2.alignPhase l f).alignFenced l f).alignDissent l f
  else ((((s2.alignPhase l f).alignLock l f).alignTime l f).alignVote l f).alignDissent l f

/-- ALIGN. -/
def execAlign (link : Fin 36) (f : AlignFlit) (s : State) : Host.Outcome State Fault Refusal :=
  .next (if s.linkState link.val = 4 then s.align link.val f else s)

end Sys2Proof.Machine
end

