-- ==== Sys2Proof/Machine/PickEdge.lean ====
section
/-! DEFINITION. The pick edge (R92, Table 3.5): the pick that ends is wound up, its outcome applied (R70, R71, R99 to R104), the commit
takes place (R62), and the next pick begins. -/
namespace Sys2Proof.Machine
open Sys2Proof

/-! ### The pick that ends -/

/-- The cycles up to the edge that a core's queue has waited for its path (R159): the cycles of a pick at the core clock, as CORE_MHZ has it, less
the cycle at which the wait began (log entry 120). -/
def State.mvpWaitEdge (s : State) : State :=
  let n := s.periodNs * s.coreMhz / 1000
  s.cores.foldl (fun t e => match e.2.mvpWait with
    | some f => t.addSat F.CORE_MVP_WAIT e.1 (n - f)
    | none => t) s

/-- A slice's task ends with the pick; open blocks, their runs and a repair go on (R323, R331). -/
def SliceState.cut (x : SliceState) : SliceState :=
  { x with task := none, taskBlocks := [], held := x.held.map fun h => { h with task := false } }

/-- Every task is aborted and no unit carries anything over (R86, R93, R225, R379); operations in flight are dropped but those of repair
contexts and of the audit unit (R331, R347, R401), and with them the acknowledgements that SIG_WAIT holds. -/
def State.abortWork (s : State) : State :=
  { s with
    cores := []
    solvers := []
    colls := []
    upd := { s.upd with slices := s.upd.slices.map fun e => (e.1, e.2.cut) }
    fab := { s.fab with
      issued := s.fab.issued.filter fun e => e.2.repair.isSome || e.2.issuer == .audit
      heldSigs := s.fab.heldSigs.filter fun e => !e.2.tagged } }

/-- A heddle that carries fabric traffic and is no repair's (R100). -/
def Heddle.fabric (x : Heddle) : Bool := !x.session && !x.repairUse

/-- A permanent heddle as the record of the last edge has it (R100): its window and credits; its threading follows its links. -/
def State.restorePerm (s : State) (h : Nat) (x : Heddle) : Heddle :=
  match Tab.get? s.fab.edge h with
  | some r => { x with ctx := { x.ctx with sendNext := r.sendNext, recvNext := r.recvNext, ahead := r.ahead, credits := r.credits, owed := r.owed } }
  | none => { x with ctx := { s.freshCtx h with acks := x.ctx.acks } }

/-- A shared heddle as the record of the last edge has it; one recorded as free is free, and an unfinished handshake is abandoned (R357). -/
def State.restoreShared (s : State) (h : Nat) (r : HedRecord) : Heddle :=
  { st := r.st, part := r.part, peer := r.peer, peerId := r.peerId
    ctx := { sendNext := r.sendNext, recvNext := r.recvNext, ahead := r.ahead, credits := r.credits, owed := r.owed, acks := (s.heddle h).ctx.acks } }

/-- HEDDLE_RESTORE (R100, R357): every heddle of fabric traffic at its state at the edge of the failed pick; ack stores stay. -/
def State.heddleRestore (s : State) : State :=
  let keep (e : Nat × Heddle) : Nat × Heddle := (e.1, if permanent e.1 then s.restorePerm e.1 e.2 else e.2)
  let kept : Tab Heddle := (s.fab.heddles.filter fun e => permanent e.1 || !e.2.fabric).map keep
  let back := s.fab.edge.filter fun e => sharedId e.1 && e.2.st == .threaded && (Tab.get? kept e.1).isNone
  ({ s with fab := { s.fab with heddles := back.foldl (fun (t : Tab Heddle) (e : Nat × HedRecord) => Tab.set t e.1 (s.restoreShared e.1 e.2)) kept } }).permSync

/-- The pick that ends, committed: its comparison, its seal requests, the replies of its batch (R38, R397, R401). -/
def State.committedEnd (s : State) : State :=
  let s1 := if s.audit.comparing then s.compareResult (s.audit.flag == some true) else s
  s1.sealCommit.releaseReplies s.pick.work ((s.pick.num + 1) % 2 ^ 48)

/-- The comparison of the committed pick found a difference: the system stalls (R397). -/
def State.diverged (s : State) : Bool := s.audit.comparing && s.audit.flag == some true

/-! ### The sequencer (R99, R103, R397, R409) -/

/-- The outcome of the pick that ends is LATE. -/
def State.wasLate (s : State) : Bool := s.pick.outcome == some true

/-- A LATE outcome at the recovery limit. -/
def State.limitReached (s : State) : Bool :=
  s.wasLate && decide (s.fld F.PICK_SCHED_CTL_RECOVERY_LIMIT 0 ≤ s.fld F.PICK_SCHED_STAT_RECOV_RUN 0)

/-- The next pick is a recovery pick. -/
def State.recovers (s : State) : Bool := s.wasLate && !s.limitReached

/-- A fenced follower leaves the fence at this edge (R409). -/
def State.fenceEnds (s : State) : Bool := s.pick.fenced && s.follower && s.pick.fenceHeard && decide (1 ≤ s.pick.fenceEdges)

/-- The entry of the pick that ends ran, and it carries HALT, STEP_END. -/
def State.ranHalt (s : State) : Bool := !s.pick.noTask && s.pick.entry.halt
def State.ranStepEnd (s : State) : Bool := !s.pick.noTask && s.pick.entry.stepEnd

/-- SCHED_STAT.STATE after the edge, before a commit of RUN. -/
def State.stateAfter (s : State) : Nat :=
  let st := s.schedState
  if s.pick.fenced then 0
  else if s.limitReached || (!s.wasLate && s.diverged) then 3
  else if st = 1 ∨ st = 2 then (if s.wasLate then 2 else if s.ranHalt then 0 else 1)
  else st

/-- RECOV_RUN after the edge. -/
def State.recovAfter (s : State) : Nat :=
  if !s.wasLate then 0 else s.fld F.PICK_SCHED_STAT_RECOV_RUN 0 + (if s.recovers then 1 else 0)

/-- The numbers of the pick that begins (R70, R71, R77, R78, R108). -/
def State.numbersAfter (s : State) : Nat × Nat :=
  let n := (s.pick.num + 1) % 2 ^ 48
  let w := if s.wasLate then s.pick.work else (s.pick.work + 1) % 2 ^ 48
  match s.pick.pickSet with
  | some k => (k, k)
  | none =>
    match s.pick.adopt with
    | some k => if s.pick.fenced && !s.fenceEnds then (n, w) else (k % 2 ^ 48, k % 2 ^ 48)
    | none => (n, w)

/-- What is left of a move of the edges after another 100 ns (R80). -/
def slewLeft (x : Int) : Int := if x.natAbs ≤ 100 then 0 else if 0 < x then x - 100 else x + 100

/-- The sequencer at the edge: the numbers, the causes that came too late for the vote (log entry 47), nothing heard yet. -/
def State.turn (s : State) : PickState :=
  let n := s.numbersAfter
  { s.pick with
    num := n.1
    work := n.2
    phase := 0
    stage := .open
    recovery := s.recovers
    causes := if bitOf s.pick.causes 2 && !bitOf (s.fld F.PICK_VOTE_STAT_LOCAL_REASON 0) 2 then 4 else 0
    firstOverrun := none
    voteOr := false
    votesFrom := []
    confirmOr := false
    confirmsFrom := []
    outcome := none
    firstLink := 0x3F
    pickSet := none
    slewNs := slewLeft s.pick.slewNs
    fenced := s.pick.fenced && !s.fenceEnds
    fenceEdges := if s.pick.fenced && s.pick.fenceHeard && !s.fenceEnds then s.pick.fenceEdges + 1 else 0
    fenceHeard := false
    adopt := none
    exhausted := [] }

/-- The sequencer turned as the state `old` before the edge says, with what the PICK page shows of it (R103). -/
def State.turnPick (s old : State) : State :=
  let st := old.stateAfter
  let s1 := (State.setFld { s with pick := old.turn } F.PICK_SCHED_STAT_STATE 0 st).setFld F.PICK_SCHED_STAT_RECOV_RUN 0 old.recovAfter
  let s2 := if old.recovers then s1.addSat F.PICK_RECOV_CNT 0 1 else s1
  s2.raiseIf (st == 3 && old.schedState != 3) 12 0 Ev.PICK_RECOVERY_EXHAUSTED

/-! ### The entry of the pick that begins -/

/-- A commit that changed RUN (Table 3.9): RUN set runs ENTRY next, RUN cleared makes the sequencer IDLE; a fenced device stays IDLE. -/
def State.runChange (s : State) (was : Bool) : State :=
  let now := s.flag F.PICK_SCHED_CTL_RUN 0
  if now = was then s
  else (s.setFld F.PICK_SCHED_STAT_STATE 0 (if now && !s.pick.fenced then 1 else 0)).setFld F.PICK_SCHED_STAT_RECOV_RUN 0 0

/-- No entry runs in this pick. -/
def State.noEntry (s : State) (idx : Nat) : State := s.modPick fun p => { p with noTask := true, entry := { idx := idx }, tasks := [], nextEntry := none }

/-- An entry runs in this pick. -/
def State.runEntry (s : State) (e : Entry) : State :=
  s.modPick fun p => { p with noTask := false, entry := e, tasks := e.tasks.map fun t => { desc := t }, nextEntry := none }

/-- Entry `i` runs in this pick where it is there; else SCHED_BAD. -/
def State.enterLoaded (s : State) (i : Nat) : Option Entry → State
  | some e => s.runEntry e
  | none => (s.noEntry i).schedBad

/-- Entry `i` runs in this pick: as it has been fetched and checked, or fetched and checked now (log entry 48). -/
def State.enterEntry (s : State) (i : Nat) (ready : Option Entry) : State :=
  (if ready.isSome then s else s.seqCount (s.entryReads s i)).enterLoaded i (ready.or (s.loadEntry s i))

/-- The entry of the pick that begins: the failed pick's again, SCHED_CTL.ENTRY where RUN has just been set, the one that the committed
entry names. `old` is the state before the edge; `same` says that what was checked in the last pick was checked under this configuration. -/
def State.pickEntry (s old : State) (same : Bool) : State :=
  let st := s.schedState
  let set := s.flag F.PICK_SCHED_CTL_RUN 0 && !old.flag F.PICK_SCHED_CTL_RUN 0
  let ready := fun (i : Nat) => if same then old.pick.nextEntry.filter fun e => e.idx == i else none
  if st ≠ 1 ∧ st ≠ 2 then s.noEntry old.pick.entry.idx
  else if set then s.enterEntry (s.fld F.PICK_SCHED_CTL_ENTRY 0) (ready (s.fld F.PICK_SCHED_CTL_ENTRY 0))
  else if old.wasLate || old.pick.noTask then s.enterEntry old.pick.entry.idx (if old.pick.noTask then none else some old.pick.entry)
  else s.enterEntry old.pick.entry.next (ready old.pick.entry.next)

/-! ### Heddles (R87, R354, R357) -/

/-- A shared heddle that the entry does not declare as it stands is released. -/
def State.releaseUndeclared (s : State) : State :=
  let stay := fun (h : Nat) (x : Heddle) => s.pick.entry.heds.any fun r => r.hid == h && r.peer == x.peer && r.part == x.part
  (s.fab.heddles.filter fun e => sharedId e.1 && e.2.fabric && !stay e.1 e.2).foldl (fun t e => t.beginRelease e.1) s

/-- HEDDLE_RECORD (R357): every heddle of fabric traffic; a shared one that is not threaded is recorded as free. -/
def State.heddleRecord (s : State) : State :=
  let recs := (s.fab.heddles.filter fun e => e.2.fabric).map fun e =>
    let x := e.2
    let d : HedRecord := { st := if sharedId e.1 && x.st != .threaded then .free else x.st, part := x.part, peer := x.peer, peerId := x.peerId,
                           sendNext := x.ctx.sendNext, recvNext := x.ctx.recvNext, ahead := x.ctx.ahead, credits := x.ctx.credits }
    (e.1, d)
  { s with fab := { s.fab with edge := recs } }

/-! ### Links and pins -/

/-- Links at the edge: a quarantined one returns to UP where both ends agree (R364), and goes on negotiating; a device that has left the
fence sends NEG on every link (R409); ALIGN edge flits leave on every link that is UP (R361). -/
def State.linkEdges (s : State) (left : Bool) : State :=
  let s1 := (List.range 36).foldl (fun t l => if t.linkState l = 3 then t.linkJudge l else t) s
  let s2 := (List.range 36).foldl (fun t l =>
    if t.linkState l = 3 ∨ (left = true ∧ t.linkState l = 4) then t.sendNeg l else t) s1
  ((List.range 36).foldl (fun t l => if t.linkState l = 4 then t.sendAlign l true else t) s2).modPick fun p => { p with sendDissent := false }

/-- PICK_OUT goes high at the edge (R81). -/
def State.pickOutPulse (s : State) : State :=
  if s.flag F.PICK_PICK_SRC_PICKOUT_EN 0 then ({ s with power := { s.power with pickOut := true } }).emit (.pickOut true) else s

/-! ### The edge -/

/-- The outcome of the pick that ends, applied to the units and heddles. A LATE pick that is not recovered from restores them too, so that
both ends of every heddle stand alike. -/
def State.outcome (s : State) : State :=
  if s.wasLate then s.abortWork.heddleRestore.sealRestore else s.committedEnd.abortWork

/-- The compare pick (R396): after a committed entry with STEP_END, and again where that pick is executed again. -/
def State.compareNext (s old : State) : State :=
  let again := old.recovers && old.audit.comparing
  let first := !old.wasLate && !old.diverged && old.ranStepEnd && s.flag F.AUDIT_AUD_CTL_CMP_EN 0
  if again || first then s.comparePick else { s with audit := { s.audit with comparing := false, flag := none } }

/-- What a commit at this edge has rejected: what was checked under its configuration does not stand. -/
def rejectedNow (s t : State) : Bool := s.armed.isSome && t.armed.isNone && t.fld F.DEVICE_COMMIT_CTL_STATE 0 == 3

/-- The pick edge. -/
def State.pickEdge (s : State) : State :=
  let s3 := (s.mvpWaitEdge.outcome.turnPick s).granEdges
  let s4 := s3.commitEdge
  let s5 := (s4.runChange (s.flag F.PICK_SCHED_CTL_RUN 0)).pickEntry s (!rejectedNow s3 s4)
  let s6 := (if s.wasLate then s5 else s5.releaseUndeclared).threadSet.heddleRecord
  let s7 := (s6.compareNext s).compareGo
  let s8 := if s.wasLate then s7 else s7.startBatches s7.pick.work
  (s8.linkEdges s.fenceEnds).pickOutPulse

/-- PICK_EDGE (R92): after the decision point of the pick that ends. -/
def execPickEdge (s : State) : Host.Outcome State Fault Refusal := .next (if s.pick.stage = .decided then s.pickEdge else s)

end Sys2Proof.Machine
end

