-- ==== Sys2Proof/Machine/Repair.lean ====
section
/-! DEFINITION. Block repair from the replica's side, and from its answer to the end (Table 11.9, R330 to R332); the answers to a threading
request (R353, R355). -/
namespace Sys2Proof.Machine
open Sys2Proof

/-! ### The replica's slice -/

/-- REPAIR_REQUEST (Table 11.9, step 4): an operation on a repair context. -/
def execRepairRequest (slice : Fin 8) (src : RepairSrc) (block target : Word) (s : State) : Host.Outcome State Fault Refusal :=
  .next (s.arriveRepair src (.request slice block target))

/-- What a replica sends (Table 11.9, step 5): the arrays, the scales, STEP, ORIGIN, the block digest. -/
def State.repairBytes (s : State) (c b : Nat) (d : BlockDesc) : List Byte :=
  let l := s.ledger c b
  (d.ranges.flatMap fun r => s.unitRead r.1 r.2) ++ toLe 4 l.step ++ toLe 4 l.origin ++ s.unitRead (s.digAddr c b) 32

/-- A replica's state leaves in operations of at most 16,384 bytes on the heddle of the request (R331). -/
def State.sendState (s : State) (c hid dev b : Nat) (bytes : List Byte) : State :=
  (List.range ((bytes.length + 16383) / 16384)).foldl (fun t j =>
    t.repairSend c hid dev ((bytes.drop (16384 * j)).take 16384) (.state b (16384 * j))) s

/-- The answer to a request that is kept: refused, sent, or kept on. -/
def State.repairAnswerTo (s : State) (c dev b target hid : Nat) : State :=
  let l := s.ledger c b
  let x := s.slice c
  let s1 := s.setSlice c { x with answering := x.answering.filter fun y => y != (dev, b, target, hid) }
  match s.blockDesc c b with
  | none => s1.repairRefuse c hid dev b
  | some d =>
    if l.noAnswer then s1.repairRefuse c hid dev b
    else if l.state = 1 ∧ precedes32 l.step target = false then
      let rs := (s.digAddr c b, 32) :: d.ranges
      s.whenReadable rs fun s => (s1.unitCount c false rs).sendState c hid dev b (s.repairBytes c b d)
    else s

/-- REPAIR_ANSWER: the state of a block that is CLOSED at a step at or above the target. -/
def execRepairAnswer (slice : Fin 8) (fromDev : BitVec 16) (block : Word) (s : State) : Host.Outcome State Fault Refusal :=
  let c := slice.val
  match (s.slice c).answering.find? fun e => e.1 == fromDev.toNat && e.2.1 == block.toNat with
  | none => .next s
  | some e =>
    .next (s.whenReadable [(s.btAddr c e.2.1, 64), (s.ledgerAddr c e.2.1, 16)] fun s => s.repairAnswerTo c e.1 e.2.1 e.2.2.1 e.2.2.2)

/-! ### The repairing slice -/

/-- REPAIR_STATE (Table 11.9, steps 6 and 7): the operations of a replica's transfer, from the one that the reply names on, have landed. -/
def execRepairState (slice : Fin 8) (reply : RepairReply) (step origin : Word) (state scales digest : List Byte) (s : State) :
    Host.Outcome State Fault Refusal := .next (s.arriveRepair reply.src (.state slice step origin state scales digest reply.ns))

/-- REPAIR_REFUSAL (R330): an operation on a repair context. -/
def execRepairRefusal (slice : Fin 8) (reply : RepairReply) (s : State) : Host.Outcome State Fault Refusal :=
  .next (s.arriveRepair reply.src (.refusal slice reply.ns))

/-- The end of a repair (Table 11.9, steps 7 and 8): digest and ledger are written, the done map and the fences go, and the repair is counted
and recorded. -/
def State.repairEnd (s : State) (c : Nat) (r : Repair) (ns : Nat) : State :=
  let dev := (s.blockDesc c r.block).elim 0xFFFF fun d => d.replicas.getD r.replica 0xFFFF
  let s1 := ((s.unitCount c true [(s.digAddr c r.block, 32)]).writeMem none (s.digAddr c r.block) r.digest).setLedger c r.block ⟨r.step, 1, r.origin⟩
  let x := s1.slice c
  let s2 := s1.setSlice c { x with blocks := Tab.del x.blocks r.block, taskBlocks := x.taskLeft r.block, repair := none }
  let s3 : State := { s2 with
    upd := { s2.upd with fences := Tab.del s2.upd.fences r.block }
    audit := { s2.audit with dirty := insertNat s2.audit.dirty r.block } }
  let s4 := ((s3.countEv F.UPDATE_REPAIR_OK c 1 Ev.UPDATE_REPAIR_DONE).repairShow c r.block 1 ns).setFld F.UPDATE_REPAIR_STAT_REPLICA c r.replica
  ((s4.repairRec c r.block 1 r.replica dev ns).repairRelease r).drainAll.repairStart c

/-- REPAIR_WRITE_DONE. -/
def execRepairWriteDone (slice : Fin 8) (ns : Nat) (s : State) : Host.Outcome State Fault Refusal :=
  let c := slice.val
  match (s.slice c).repair with
  | none => .next s
  | some r =>
    if r.verified = false then .next s
    else .next (s.whenWritable [(s.digAddr c r.block, 32), (s.ledgerAddr c r.block, 16)] fun s => s.repairEnd c r ns)

/-- REPAIR_TIMEOUT (R330, R331): the replica has not answered, or its heddle is not threaded, within REPAIR_TMO. -/
def execRepairTimeout (slice : Fin 8) (ns : Nat) (s : State) : Host.Outcome State Fault Refusal :=
  match (s.slice slice.val).repair with
  | none => .next s
  | some r => .next (if r.verified then s else (s.repairPass slice.val r ns).drainAll)

/-! ### Answers to THREAD (R353, R355) -/

/-- The repair request that waited for a heddle leaves on it (R331). -/
def State.repairThreaded (s : State) (h : Nat) : State :=
  match (List.range 8).find? fun c => (s.slice c).repair.any fun r => r.heddle == some h && !r.sent with
  | none => s
  | some c =>
    match (s.slice c).repair with
    | none => s
    | some r =>
      s.repairAskOn c h (s.heddle h).peer r

/-- THREAD_ACCEPT (R353): both ends start every sequence number at 0. -/
def execThreadAccept (hid : Nat) (peerId : BitVec 10) (s : State) : Host.Outcome State Fault Refusal :=
  let x := s.heddle hid
  if x.st = .threading then
    let s1 := s.threadTo hid x.peer peerId.toNat x.part x.repairUse false
    .next (if x.repairUse then s1.repairThreaded hid else s1.compareGo)
  else .next s

/-- THREAD_REFUSE (R355): the record is counted and tried again; so is a repair until its timeout (R331). -/
def execThreadRefuse (hid : Nat) (s : State) : Host.Outcome State Fault Refusal :=
  let x := s.heddle hid
  if x.st = .threading then
    let s1 := ({ s with fab := { s.fab with heddles := Tab.del s.fab.heddles hid } }).countEv F.HEDDLE_REFUSE_CNT 0 1 Ev.HEDDLE_THREAD_REFUSED
    if x.repairUse then
      .next ((List.range 8).foldl (fun t c =>
        match (t.slice c).repair with
        | some r => if r.heddle = some hid then t.setRepair c (some { r with heddle := none }) else t
        | none => t) s1)
    else .next (match s.pick.entry.heds.findIdx? fun r => r.hid == hid with
      | some k => s1.countExhaust k
      | none => s1)
  else .next s

end Sys2Proof.Machine
end

