-- ==== Sys2Proof/Machine/Sideband.lean ====
section
/-! DEFINITION. The sideband (R465 to R469): SPI frames, the vendor commands of MCTP, SMBus packets, the JTAG instructions; and the host port's
own reset pin (R494). -/
namespace Sys2Proof.Machine
open Sys2Proof

/-! ### Accesses -/

/-- What an access of the sideband gives: the bits of its status byte (R466), its result. -/
structure SbRes where
  status : Nat := 0
  result : Option Nat := none
deriving DecidableEq, Repr

def sbErr : SbRes := ⟨4, none⟩
def sbWprot : SbRes := ⟨32, none⟩

/-- A read by agent 0x0D (R467); in standby only the BOOK page answers. -/
def State.sbRead (s : State) (addr : Nat) : State × SbRes :=
  let p := pageOf addr
  let x := s.accessOf .unit
  if s.standby ∧ (regionOf addr ≠ .page ∨ p.1 ≠ 17 ∨ p.2.1 ≠ 0 ∨ addr % 4 ≠ 0) then (s, sbErr)
  else if regionOf addr ≠ .page then (s.countAccess (17, 0) 1 addr x.code none, sbErr)
  else
    let r := s.regRead x addr 4
    (r.1, if s.pageGate x p.1 p.2.1 false = 0 ∧ addr % 4 = 0 then ⟨1, some r.2⟩ else sbErr)

/-- A write that the management firmware performs, where it runs, as agent 0x0A (R467). -/
def State.sbWrite (s : State) (addr v : Nat) : State × SbRes :=
  let p := pageOf addr
  let x := s.accessOf .mgmt
  if s.standby then (s, sbErr)
  else if regionOf addr = .page ∧ s.coresUp = true ∧ s.flag F.MGMT_SB_CTL 0 = true ∧ (p.1 = 14 ∨ p.1 = 15 ∨ p.1 = 17) then
    (s.regWrite x addr 4 v, if s.pageGate x p.1 p.2.1 true = 0 ∧ addr % 4 = 0 then {} else sbErr)
  else (s, sbWprot)

/-- A record of the book by index and copy (R470): an index with no valid copy, and copy 3, give an error. -/
def State.sbRecord (s : State) (index copy : Nat) : Option (List Byte) :=
  let v := s.bookView index copy
  if copy = 3 ∨ v.empty = true then none else some v.data

/-! ### SPI -/

/-- An accepted frame (R465, R466): the status byte and the result of the frame before it are delivered; `late`: that result was not ready by
edge 41. The frame's own access follows. -/
def State.spiFrame (s : State) (late : Bool) (act : State → State × SbRes) : State :=
  let d := s.side
  let lost := late && bitOf d.status 0
  let st := (if lost then d.status - 1 + 8 else d.status) + 16 * bit s.standby + 64 * (d.fcnt % 4)
  let s1 := s.emit (.spi st (if lost then 0 else d.result.getD 0))
  let r := act s1
  { r.1 with side := { r.1.side with status := r.2.status, result := r.2.result, fcnt := (d.fcnt + 1) % 4 } }.addWrap F.BOOK_SPI_FRAMES 0 1

/-- SPI_NOP. -/
def execSpiNop (late : Bool) (s : State) : Host.Outcome State Fault Refusal := .next (s.spiFrame late fun t => (t, {}))

/-- SPI_READ. -/
def execSpiRead (waddr : BitVec 28) (late : Bool) (s : State) : Host.Outcome State Fault Refusal :=
  .next (s.spiFrame late fun t => t.sbRead (pageBase + 4 * waddr.toNat))

/-- SPI_WRITE. -/
def execSpiWrite (waddr : BitVec 28) (v : Word) (late : Bool) (s : State) : Host.Outcome State Fault Refusal :=
  .next (s.spiFrame late fun t => t.sbWrite (pageBase + 4 * waddr.toNat) v.toNat)

/-- SPI_BOOK: one word of a record. -/
def execSpiBook (waddr : BitVec 28) (late : Bool) (s : State) : Host.Outcome State Fault Refusal :=
  let w := waddr.toNat
  .next (s.spiFrame late fun t =>
    (t, match t.sbRecord (bitsOf w 4 17) (bitsOf w 26 2) with
      | some b => if bitsOf w 21 5 = 0 then ⟨1, some (leNat ((b.drop (4 * (w % 16))).take 4))⟩ else sbErr
      | none => sbErr))

/-- SPI_FRAME_DISCARD (R465): fewer than 72 edges, or more. -/
def execSpiFrameDiscard (edges : Nat) (s : State) : Host.Outcome State Fault Refusal :=
  if edges = 72 then .next s
  else
    let s1 : State := { s with side := { s.side with status := 2, result := none } }
    .next (s1.countEv (if edges < 72 then F.BOOK_SPI_ABORT else F.BOOK_SPI_CLKERR) 0 1 Ev.BOOK_SB_FRAME_ERR)

/-! ### SMBus and MCTP -/

/-- A response to a vendor command: the status byte laid out as that of R466. -/
def State.mctpReply (s : State) (cmd : Nat) (r : SbRes) (data : List Byte) : State := s.emit (.mctp cmd (r.status + 16 * bit s.standby) data)

/-- MCTP_CONTROL: answered, in standby too (R468). What its messages hold is MCTP's own (log entry 40). -/
def execMctpControl (cmd : Byte) (s : State) : Host.Outcome State Fault Refusal := .next (s.emit (.mctp (0x100 + cmd.toNat) 0 []))

/-- READ_REG; not answered in standby. -/
def execReadReg (addr : BitVec 48) (s : State) : Host.Outcome State Fault Refusal :=
  if s.standby then .next s
  else
    let r := s.sbRead addr.toNat
    .next (r.1.mctpReply 1 r.2 (toLe 4 (r.2.result.getD 0)))

/-- WRITE_REG; not answered in standby. -/
def execWriteReg (addr : BitVec 48) (v : Word) (s : State) : Host.Outcome State Fault Refusal :=
  if s.standby then .next s
  else
    let r := s.sbWrite addr.toNat v.toNat
    .next (r.1.mctpReply 2 r.2 [])

/-- READ_BOOK: the 64-byte record and a status byte. -/
def execReadBook (index : BitVec 17) (copy : Fin 4) (s : State) : Host.Outcome State Fault Refusal :=
  .next (match s.sbRecord index.toNat copy.val with
    | some b => s.mctpReply 3 ⟨1, none⟩ b
    | none => s.mctpReply 3 sbErr (List.replicate 64 0))

/-- SMBUS_PACKET_DISCARD (R468). -/
def execSmbusPacketDiscard (s : State) : Host.Outcome State Fault Refusal := .next (s.countEv F.BOOK_SMB_ERR 0 1 Ev.BOOK_SB_FRAME_ERR)

/-! ### JTAG (R469) -/

/-- A JTAG instruction selected. -/
def State.jtagSelect (s : State) (code : Nat) : State := { s with side := { s.side with jtag := code } }

/-- The boundary register loaded. -/
def State.jtagLoad (s : State) (data : List Bool) : State := { s with side := { s.side with boundary := data } }

/-- EXTEST: the boundary register drives the pins. -/
def execExtest (data : List Bool) (s : State) : Host.Outcome State Fault Refusal := .next ((s.jtagSelect 0x00).jtagLoad data)

/-- SAMPLE/PRELOAD. -/
def execSamplePreload (data : List Bool) (s : State) : Host.Outcome State Fault Refusal := .next ((s.jtagSelect 0x01).jtagLoad data)

/-- IDCODE 0x0B22_5E5B, least significant bit first. -/
def execIdcode (s : State) : Host.Outcome State Fault Refusal :=
  .next ((s.jtagSelect 0x02).emit (.jtag ((List.range 32).map (bitOf 0x0B225E5B))))

/-- HIGHZ. -/
def execHighz (s : State) : Host.Outcome State Fault Refusal := .next (s.jtagSelect 0x03)

/-- CLAMP. -/
def execClamp (s : State) : Host.Outcome State Fault Refusal := .next (s.jtagSelect 0x04)

/-- BYPASS: the bypass register captures 0. -/
def execBypass (s : State) : Host.Outcome State Fault Refusal := .next ((s.jtagSelect 0xFF).emit (.jtag [false]))

/-! ### HOST_PERST_N -/

/-- HOST_PERST (R494): the fundamental reset of the host port only: its link goes down, its functions start again. -/
def execHostPerst (low : Bool) (s : State) : Host.Outcome State Fault Refusal :=
  let s1 : State := { s with power := { s.power with perstN := !low } }
  if low then
    let s2 := ((s1.linkDownHost).resetQueues fun _ => true).flrRegs
    .next { s2 with host := { s2.host with msix := [], unmasked := [], pba := [] } }
  else .next s1

end Sys2Proof.Machine
end

