-- ==== Sys2Proof/Machine/Spdm.lean ====
section
/-! DEFINITION. SPDM responses (R460, Tables 17.2 and 17.3). The response codes are those of SPDM itself (log entry 40). -/
namespace Sys2Proof.Machine
open Sys2Proof

/-- The device answers SPDM requests: it has main power and its management cores run (R456, R486). -/
def State.spdmUp (s : State) : Bool := !s.standby && s.coresUp

/-- An SPDM error: the response ERROR, counted and recorded. -/
def State.spdmError (s : State) : State := ((s.countEv F.SEC_SPDM_ERR 0 1 Ev.SEC_SPDM_ERR).secRec 4).emit (.spdm 0x7F [])

/-- A response in the order that SPDM has for its requests: at least at state `need`, and `ok`; else ERROR. -/
def State.spdmReply (s : State) (need : Nat) (ok : Bool) (code : Nat) (data : List Byte) : State :=
  if !s.spdmUp then s
  else if ok && decide (need ≤ s.mgmt.spdmState) then s.emit (.spdm code data)
  else s.spdmError

/-- The state of the exchange moved on where the request was answered. -/
def State.spdmTo (s : State) (need : Nat) (ok : Bool) (st : Nat) : State :=
  if s.spdmUp && ok && decide (need ≤ s.mgmt.spdmState) then { s with mgmt := { s.mgmt with spdmState := st } } else s

/-- GET_VERSION: versions 1.2 and 1.3. -/
def execGetVersion (s : State) : Host.Outcome State Fault Refusal := .next ((s.spdmReply 0 true 0x04 [0x12, 0x13]).spdmTo 0 true 1)

/-- GET_CAPABILITIES under a version. -/
def execGetCapabilities (ver : Byte) (s : State) : Host.Outcome State Fault Refusal :=
  let ok := ver == 0x12 || ver == 0x13
  .next ((s.spdmReply 1 ok 0x61 [ver]).spdmTo 1 ok 2)

/-- NEGOTIATE_ALGORITHMS: `offered` lists what the requester has; 1 stands for ECDSA P-384, 2 for SHA-384 (log entry 40). -/
def execNegotiateAlgorithms (offered : List Byte) (s : State) : Host.Outcome State Fault Refusal :=
  let ok := offered.contains 1 && offered.contains 2
  .next ((s.spdmReply 2 ok 0x63 [1, 2]).spdmTo 2 ok 3)

/-- The certificate chain of a slot. -/
def State.certChain (s : State) (slot : Nat) : List Byte := if slot = 0 then Config.identityChain else Config.ownerChain s.nor

/-- GET_DIGESTS: the digests of both chains. -/
def execGetDigests (s : State) : Host.Outcome State Fault Refusal :=
  .next (s.spdmReply 3 true 0x01 (sha384 (s.certChain 0) ++ sha384 (s.certChain 1)))

/-- GET_CERTIFICATE: a part of a slot's chain. -/
def execGetCertificate (slot : Fin 8) (off len : Nat) (s : State) : Host.Outcome State Fault Refusal :=
  .next (s.spdmReply 3 (decide (slot.val < 2)) 0x02 (((s.certChain slot.val).drop off).take len))

/-- CHALLENGE: the chain's digest and the nonce, signed. -/
def execChallenge (slot : Fin 8) (nonce : BitVec 256) (s : State) : Host.Outcome State Fault Refusal :=
  let body := sha384 (s.certChain slot.val) ++ toLe 32 nonce.toNat
  .next (s.spdmReply 3 (decide (slot.val < 2)) 0x03 (body ++ Config.sign (8 + slot.val) (sha384 body)))

/-- A measurement (Table 17.3). -/
def State.measurement (s : State) : Nat → List Byte
  | 1 => Config.romDigest
  | 2 => s.mgmt.imgHash
  | 3 => toLe 1 (s.fld F.MGMT_MGMT_STAT_SVN 0) ++ toLe 1 s.mgmt.arbCount
  | 4 => toLe 32 s.cfgPrint
  | 5 => s.digestReg F.AUDIT_IMAGE_DIGEST
  | _ => toLe 4 (s.fieldWord [F.DEVICE_DEV_INFO_STEP_NUM, F.DEVICE_DEV_INFO_STEP_LETTER, F.DEVICE_DEV_INFO_GRADE, F.DEVICE_DEV_INFO_STACKS] 0) ++
      toLe 4 s.ownDev

/-- GET_MEASUREMENTS: how many there are (index 0), one, or all (0xFF), with a signature where it is asked for. -/
def execGetMeasurements (index : Byte) (signed : Bool) (nonce : BitVec 256) (s : State) : Host.Outcome State Fault Refusal :=
  let i := index.toNat
  let body := if i = 0 then [6] else if i = 0xFF then (rangeFrom 1 6).flatMap s.measurement else s.measurement i
  let sig := if signed then Config.sign 8 (sha384 (body ++ toLe 32 nonce.toNat)) else []
  .next (s.spdmReply 3 (decide (i ≤ 6) || i == 0xFF) 0x60 (body ++ sig))

end Sys2Proof.Machine
end

