-- ==== Sys2Proof/Machine/VecInt.lean ====
section
/-! DEFINITION. Vector length, moves, integer and fixed-point instructions (R192, R197 to R201, Table 7.3). -/
namespace Sys2Proof.Machine
open Sys2Proof

/-- SETVL: vl = min(sa, VLMAX(w)), also to sd (R192). -/
def execSetvl (i : Issue) (s : State) : Host.Outcome State Fault Refusal :=
  let c := i.core.val
  let w := 2 ^ modBits i 0 2
  .next (s.vec 0x40 i true [] [] true fun t _ =>
    if unusedZero i true true false 2 0 then
      let n := min (t.ra i) (vregBytes / w)
      (t.setCore c { t.core c with vl := n }).wd i n
    else t.strRsvd c)

/-- VSRKEY: seed sa, stream sb, count 0 (R197). -/
def execVsrkey (i : Issue) (s : State) : Host.Outcome State Fault Refusal :=
  let c := i.core.val
  .next (s.vec 0x41 i true [] [] false fun t _ =>
    if unusedZero i false true true 0 0 then
      let x := t.strand c i.strand.val
      t.setStrand c i.strand.val { x with key := ⟨t.ra i, t.rb i % 2 ^ 32, 0⟩ }
    else t.strRsvd c)

/-! ### Moves: elements of the width of the conversion control byte's format, taken as bits -/

/-- The element bytes that the conversion control byte names; 0 for a reserved format. -/
def dstBytes (i : Issue) : Nat := fmtBytes (ccbFmt (vCcb i))

/-- VBCAST: the value of sa in every element (log entry 23). -/
def execVbcast (i : Issue) (s : State) : Host.Outcome State Fault Refusal :=
  let w := dstBytes i
  .next (s.vec 0x42 i (moveOk i) [(i.d.val, w)] [(i.d.val, w)] false fun t n =>
    t.vresult i w (List.replicate n (t.ra i % 2 ^ (8 * w), {}, false)))

/-- VSEL (R200): va where the flag in vd is true, else vb. -/
def execVsel (i : Issue) (s : State) : Host.Outcome State Fault Refusal :=
  let w := dstBytes i
  .next (s.vec 0x43 i (moveOk i) (vops2 i w w w) [(i.d.val, w)] false fun t n =>
    let f := t.vsrc i.core.val i.strand.val i.d.val w n false
    let a := t.vsrc i.core.val i.strand.val i.a.val w n false
    let b := t.vsrc i.core.val i.strand.val i.b.val w n (vSb i)
    t.vresult i w ((f.zip (a.zip b)).map fun x =>
      let y := if x.1.1 ≠ 0 then x.2.1 else x.2.2
      (y.1, {}, y.2 || x.1.2)))

/-- The elements that an index may name in a vector operand: those of its register, or of the pair it occupies. -/
def vcap (n w : Nat) : Nat := if n * w ≤ vregBytes then vregBytes / max 1 w else 4096 / max 1 w

/-- VPERM: element i is va[vb[i]], the index unsigned; the spec states no result beyond the operand's last element (log entry 23). -/
def execVperm (i : Issue) (s : State) : Host.Outcome State Fault Refusal :=
  let w := dstBytes i
  let wi := fmtBytes (vFb i)
  .next (s.vec 0x44 i (moveOk i && isInt (vFb i)) (vops2 i w w wi) [(i.d.val, w)] false fun t n =>
    let cap := vcap n w
    let a := t.vsrc i.core.val i.strand.val i.a.val w cap false
    let b := t.vsrc i.core.val i.strand.val i.b.val wi n (vSb i)
    t.vresult i w (b.zipIdx.map fun x =>
      match a[x.1.1]? with
      | some y => (y.1, {}, y.2 || x.1.2)
      | none => (Config.openElem 0x44 x.2 (x.1.1 :: a.map (·.1)) % 2 ^ (8 * w), {}, x.1.2)))

/-- VSLIDE: elements move by the signed amount in sb; the direction is the spec's to say (Config.slideUp), and elements that come
from outside the operand have no stated value (log entry 24). -/
def execVslide (i : Issue) (s : State) : Host.Outcome State Fault Refusal :=
  let w := dstBytes i
  .next (s.vec 0x45 i (moveOk i) [(i.d.val, w), (i.a.val, w)] [(i.d.val, w)] false fun t n =>
    let a := t.vsrc i.core.val i.strand.val i.a.val w n false
    let k := signedOf 64 (t.rb i)
    t.vresult i w ((List.range n).map fun (e : Nat) =>
      let j : Int := if Config.slideUp then e - k else e + k
      if 0 ≤ j ∧ j < n then let y := a.getD j.toNat (0, false); (y.1, {}, y.2)
      else (Config.openElem 0x45 e (t.rb i :: a.map (·.1)) % 2 ^ (8 * w), {}, false)))

/-- The kept elements of a VCOMPRESS, in order: a poisoned flag poisons every kept element from it on, whose places it decides (R218). -/
def compressed : Bool → List ((Nat × Bool) × Nat × Bool) → List (Nat × VNote × Bool)
  | _, [] => []
  | bad, ((x, p), f, q) :: r => if f ≠ 0 then (x, {}, p || bad || q) :: compressed (bad || q) r else compressed (bad || q) r

/-- VCOMPRESS (R201): flagged elements packed; their count to the scalar register that IMM names. The fields of the value form that share
IMM with that number are zero (Table 8.8). -/
def execVcompress (i : Issue) (s : State) : Host.Outcome State Fault Refusal :=
  let w := dstBytes i
  let c := i.core.val
  .next (s.vec 0x46 i (ccbOk (vCcb i) && decide (i.imm.toNat < 32)) [(i.d.val, w), (i.a.val, w), (i.b.val, w)] [(i.d.val, w)] false
    fun t n =>
      let a := t.vsrc c i.strand.val i.a.val w n false
      let f := t.vsrc c i.strand.val i.b.val w n false
      let kept := compressed false (a.zip f)
      ((t.vresult i w kept).setSreg c i.strand.val (immBits i 0 5) kept.length).corePoison c (f.any (·.2)))

/-- VEXTR: sd = va[sb]; the spec states no result beyond the operand's last element. -/
def execVextr (i : Issue) (s : State) : Host.Outcome State Fault Refusal :=
  let w := dstBytes i
  let c := i.core.val
  .next (s.vec 0x47 i (moveOk i) [(i.a.val, w)] [] true fun t n =>
    let a := t.vsrc c i.strand.val i.a.val w (vcap n w) false
    match a[t.rb i]? with
    | some y => (t.wd i y.1).corePoison c y.2
    | none => t.wd i (Config.openElem 0x47 0 (t.rb i :: a.map (·.1)) % 2 ^ (8 * w)))

/-! ### Integer class -/

/-- Source and result formats are integers, every FRAC in range. -/
def vintOk (i : Issue) (two : Bool) : Bool :=
  valueOk i (if two then [vFa i, vFb i] else [vFa i]) true && isInt (ccbFmt (vCcb i)) && isInt (vFa i) && (!two || isInt (vFb i))

/-- An integer instruction: `f n a b` on elements of `n` bits, sources sign-extended from their formats. -/
def State.vint (s : State) (op : Nat) (i : Issue) (f : Nat → Nat → Nat → Nat × IntNote) : State :=
  let w := dstBytes i
  let wa := fmtBytes (vFa i)
  let wb := fmtBytes (vFb i)
  let c := i.core.val
  s.vec op i (vintOk i true) (vops2 i w wa wb) [(i.d.val, w)] false fun t n =>
    t.vresult i w (zipElems (t.vsrc c i.strand.val i.a.val wa n false) (t.vsrc c i.strand.val i.b.val wb n (vSb i)) fun _ a b =>
      let r := f (8 * w) (wrapInt (8 * w) (signedOf (8 * wa) a)) (wrapInt (8 * w) (signedOf (8 * wb) b))
      (r.1, r.2.note))

/-- A shift: the amount is the whole second source, unsigned in its own width, which is 64 bits for a scalar register (R198). -/
def State.vshift (s : State) (op : Nat) (i : Issue) (f : Nat → Nat → Nat → Nat) : State :=
  let w := dstBytes i
  let wa := fmtBytes (vFa i)
  let wb := fmtBytes (vFb i)
  let c := i.core.val
  s.vec op i (vintOk i true) (vops2 i w wa wb) [(i.d.val, w)] false fun t n =>
    t.vresult i w (zipElems (t.vsrc c i.strand.val i.a.val wa n false)
        (t.vsrc c i.strand.val i.b.val (if vSb i then 8 else wb) n (vSb i)) fun _ a b =>
      (f (8 * w) (wrapInt (8 * w) (signedOf (8 * wa) a)) b, {}))

def execVadd (i : Issue) (s : State) : Host.Outcome State Fault Refusal := .next (s.vint 0x48 i intAdd)
def execVsub (i : Issue) (s : State) : Host.Outcome State Fault Refusal := .next (s.vint 0x49 i intSub)
def execVmul (i : Issue) (s : State) : Host.Outcome State Fault Refusal := .next (s.vint 0x4A i intMul)
def execVdiv (i : Issue) (s : State) : Host.Outcome State Fault Refusal := .next (s.vint 0x4B i intDiv)
def execVrem (i : Issue) (s : State) : Host.Outcome State Fault Refusal := .next (s.vint 0x4C i intRem)
def execVand (i : Issue) (s : State) : Host.Outcome State Fault Refusal := .next (s.vint 0x4D i fun _ a b => (intAnd a b, .none))
def execVor (i : Issue) (s : State) : Host.Outcome State Fault Refusal := .next (s.vint 0x4E i fun _ a b => (intOr a b, .none))
def execVxor (i : Issue) (s : State) : Host.Outcome State Fault Refusal := .next (s.vint 0x4F i fun _ a b => (intXor a b, .none))
def execVsll (i : Issue) (s : State) : Host.Outcome State Fault Refusal := .next (s.vshift 0x50 i intSll)
def execVsrl (i : Issue) (s : State) : Host.Outcome State Fault Refusal := .next (s.vshift 0x51 i intSrl)
def execVsra (i : Issue) (s : State) : Host.Outcome State Fault Refusal := .next (s.vshift 0x52 i intSra)

/-! ### Fixed point (Table 7.3) -/

def execVsadd (i : Issue) (s : State) : Host.Outcome State Fault Refusal := .next (s.vint 0x54 i fun n a b => satTo n (signedOf n a + signedOf n b))
def execVssub (i : Issue) (s : State) : Host.Outcome State Fault Refusal := .next (s.vint 0x55 i fun n a b => satTo n (signedOf n a - signedOf n b))
def execVsaddu (i : Issue) (s : State) : Host.Outcome State Fault Refusal := .next (s.vint 0x56 i fun n a b => satUTo n ((a : Int) + b))
def execVssubu (i : Issue) (s : State) : Host.Outcome State Fault Refusal := .next (s.vint 0x57 i fun n a b => satUTo n ((a : Int) - b))

/-- A whole number times 2^-k, rounded to a whole number under a mode (R132). -/
def shiftRound (rm k u : Nat) (x : Int) : Int :=
  let l := x.natAbs / 2 ^ k
  let m := if roundsUp rm (decide (x < 0)) l (x.natAbs % 2 ^ k) (2 ^ k) u then l + 1 else l
  if x < 0 then -(m : Int) else m

/-- VRSHR: a × 2^-k. The amount is K, or the second source where FB names an integer format (log entry 23); the spec states no
result for an amount of `N` or more in an element. -/
def execVrshr (i : Issue) (s : State) : Host.Outcome State Fault Refusal :=
  let w := dstBytes i
  let wa := fmtBytes (vFa i)
  let two := isInt (vFb i)
  let wb := if two then fmtBytes (vFb i) else w
  let c := i.core.val
  let t0 := i.strand.val
  .next (s.vec 0x58 i (vintOk i false && (two || decide (vK i < 8 * w))) (if two then vops2 i w wa wb else [(i.d.val, w), (i.a.val, wa)])
    [(i.d.val, w)] false fun t n =>
      let a := t.vsrc c t0 i.a.val wa n false
      let b := if two then t.vsrc c t0 i.b.val wb n (vSb i) else List.replicate n (vK i, false)
      (t.vresult i w (zipElems a b fun e x k =>
        if k < 8 * w then
          let r := satTo (8 * w) (shiftRound (ccbRm (vCcb i)) k (t.srU c t0 e) (signedOf (8 * wa) x))
          (r.1, r.2.note)
        else (Config.openElem 0x58 e [vCcb i, x, k] % 2 ^ (8 * w), {}))).srDone c t0 (ccbRm (vCcb i)))

/-- VMULQ: the exact product times 2^-k, rounded, then saturated where SAT = 1, or wrapped. -/
def execVmulq (i : Issue) (s : State) : Host.Outcome State Fault Refusal :=
  let w := dstBytes i
  let wa := fmtBytes (vFa i)
  let wb := fmtBytes (vFb i)
  let c := i.core.val
  let t0 := i.strand.val
  .next (s.vec 0x59 i (vintOk i true && decide (vK i < 16 * w)) (vops2 i w wa wb) [(i.d.val, w)] false fun t n =>
    (t.vresult i w (zipElems (t.vsrc c t0 i.a.val wa n false) (t.vsrc c t0 i.b.val wb n (vSb i)) fun e a b =>
      let x := shiftRound (ccbRm (vCcb i)) (vK i) (t.srU c t0 e) (signedOf (8 * wa) a * signedOf (8 * wb) b)
      let r := if ccbSat (vCcb i) then satTo (8 * w) x else wrapTo (8 * w) x
      (r.1, r.2.note))).srDone c t0 (ccbRm (vCcb i)))

/-- VNSAT and VNWRAP: a source of twice the width times 2^-k, rounded, brought to `n` bits by `f`. -/
def State.vnarrow (s : State) (op : Nat) (i : Issue) (f : Nat → Int → Nat × IntNote) : State :=
  let w := dstBytes i
  let wa := fmtBytes (vFa i)
  let c := i.core.val
  let t0 := i.strand.val
  s.vec op i (vintOk i false && wa == 2 * w) [(i.d.val, w), (i.a.val, wa)] [(i.d.val, w)] false fun t n =>
    (t.vresult i w (mapElems (t.vsrc c t0 i.a.val wa n false) fun e a =>
      let r := f (8 * w) (shiftRound (ccbRm (vCcb i)) (vK i) (t.srU c t0 e) (signedOf (8 * wa) a))
      (r.1, r.2.note))).srDone c t0 (ccbRm (vCcb i))

def execVnsat (i : Issue) (s : State) : Host.Outcome State Fault Refusal := .next (s.vnarrow 0x5A i satTo)
def execVnwrap (i : Issue) (s : State) : Host.Outcome State Fault Refusal := .next (s.vnarrow 0x5B i wrapTo)

end Sys2Proof.Machine
end

