-- ==== Sys2Proof/Machine/VecMem.lean ====
section
/-! DEFINITION. Vector loads and stores of the own spool (R202 to R205). -/
namespace Sys2Proof.Machine
open Sys2Proof

/-- An element address: in the own window and aligned to its width, or none (R202, R203). -/
def elemAddr (c w : Nat) (a : Int) : Option Nat :=
  let x := wrapInt 64 a
  if x < 2 ^ 48 ∧ x % max 1 w = 0 ∧ inWindow c x w = true then some x else none

/-- Element accesses that are out of window: each counts in VEC_OOW, and under R29 where it falls under that rule too. -/
def State.vecOow (s : State) (c w : Nat) (write : Bool) (as : List Int) : State :=
  let bad := as.filter fun a => (elemAddr c w a).isNone
  let s1 := bad.foldl (fun t a => if inWindow c (wrapInt 64 a) w then t else
    (if wrapInt 64 a < 2 ^ 48 then t.oowAccess c (wrapInt 64 a) w write else t.countErr 1 c errUnmapped (wrapInt 48 a) 0x0B)) s
  s1.vecNote c { oow := bad.length }

/-- The elements at a list of addresses with their poison; out of window they read zeros. -/
def State.vloadAt (s : State) (c w : Nat) (as : List Int) : List (Nat × Bool) :=
  as.map fun a => match elemAddr c w a with
    | some x => (leNat (s.blockBytes x w), s.blockPoison x)
    | none => (0, false)

/-- Elements stored one after another; out of window they are dropped. -/
def State.vstoreAt (s : State) (c w : Nat) (as : List Int) (vals : List (Nat × Bool)) : State :=
  (as.zip vals).foldl (fun t x => match elemAddr c w x.1 with
    | some a => t.storeBlock a (toLe w x.2.1) x.2.2
    | none => t) s

/-- Bytes stored as one run; bytes of out-of-window elements are dropped, which at the window's ends cuts the run. -/
def State.vstoreRun (s : State) (c a w : Nat) (vals : List (Nat × Bool)) : State :=
  if a % max 1 w = 0 then
    let bytes := vals.flatMap fun x => toLe w x.1
    let lo := max a (spoolAddr c 0)
    let hi := min (a + bytes.length) (spoolAddr c 0 + spoolBytes)
    if lo < hi then
      s.writeBy none lo ((bytes.drop (lo - a)).take (hi - lo)) fun o n =>
        (rangeFrom ((lo - a + o) / max 1 w) (n / max 1 w)).any fun k => (vals.getD k (0, false)).2
    else s
  else s

/-- The element bytes that a memory instruction's format names (Table 8.4). -/
def memBytes (i : Issue) : Nat := fmtBytes (ccbFmt (vCcb i))

/-- A memory instruction's value form: of the conversion control byte only FMT is used (Table 8.4), and neither FRAC is. -/
def memOk (i : Issue) : Bool := fmtOk (ccbFmt (vCcb i)) && fmtOk (vFa i) && fmtOk (vFb i) && vFracA i == 0 && vFracD i == 0

/-- A load of one register from a list of element addresses. -/
def State.vload (s : State) (op : Nat) (i : Issue) (addr : State → Nat → Int) : State :=
  let w := memBytes i
  let c := i.core.val
  s.vec op i (memOk i) [(i.d.val, w)] [(i.d.val, w)] false fun t n =>
    let as := (List.range n).map (addr t)
    let t1 := t.splEcc c i.spl
    (t1.vecOow c w false as).vresult i w ((t1.vloadAt c w as).map fun x => (x.1, {}, x.2))

/-- Element `k` of a unit-stride or strided access. -/
def State.strided (t : State) (i : Issue) (stride : Int) (k : Nat) : Int := (t.ra i : Int) + k * stride

def execVld (i : Issue) (s : State) : Host.Outcome State Fault Refusal :=
  .next (s.vload 0x80 i (fun t => t.strided i (memBytes i)))

/-- VLDV: as VLD, for memory written concurrently (R205); the command's place in the run is when it reads. -/
def execVldv (i : Issue) (s : State) : Host.Outcome State Fault Refusal :=
  .next (s.vload 0x8A i (fun t k => t.strided i (memBytes i) k))

/-- VLDS: the byte stride in sb, signed. -/
def execVlds (i : Issue) (s : State) : Host.Outcome State Fault Refusal :=
  .next (s.vload 0x82 i (fun t => t.strided i (signedOf 64 (t.rb i))))

/-- The element address of a gather or scatter: base + idx × w, int32 indices in vb. -/
def State.gatherAddr (t : State) (i : Issue) (w k : Nat) : Int :=
  (t.ra i : Int) + signedOf 32 (leNat (((t.core i.core.val).vbytes i.b.val ((k + 1) * 4)).drop (k * 4))) * w

/-- Elements whose places come from indices: poison of an index is poison of its element (R218). -/
def State.idxPoison (t : State) (i : Issue) (vals : List (Nat × Bool)) : List (Nat × Bool) :=
  (vals.zip ((t.core i.core.val).vpois i.b.val 4 vals.length)).map fun x => (x.1.1, x.1.2 || x.2)

/-- VGATHER (R204). -/
def execVgather (i : Issue) (s : State) : Host.Outcome State Fault Refusal :=
  let w := memBytes i
  let c := i.core.val
  .next (s.vec 0x86 i (memOk i) [(i.d.val, w), (i.b.val, 4)] [(i.d.val, w)] false fun t n =>
    let as := (List.range n).map (t.gatherAddr i w)
    let t1 := t.splEcc c i.spl
    (t1.vecOow c w false as).vresult i w ((t.idxPoison i (t1.vloadAt c w as)).map fun x => (x.1, {}, x.2)))

/-- VST: n contiguous elements of the register that D names. -/
def execVst (i : Issue) (s : State) : Host.Outcome State Fault Refusal :=
  let w := memBytes i
  let c := i.core.val
  .next (s.vec 0x81 i (memOk i) [(i.d.val, w)] [] false fun t n =>
    let vals := t.vsrc c i.strand.val i.d.val w n false
    ((t.vecOow c w true ((List.range n).map (t.strided i w))).vstoreRun c (t.ra i) w vals).corePoison c (vals.any (·.2)))

/-- VSTS: the byte stride in sb, signed. -/
def execVsts (i : Issue) (s : State) : Host.Outcome State Fault Refusal :=
  let w := memBytes i
  let c := i.core.val
  .next (s.vec 0x83 i (memOk i) [(i.d.val, w)] [] false fun t n =>
    let vals := t.vsrc c i.strand.val i.d.val w n false
    let as := (List.range n).map (t.strided i (signedOf 64 (t.rb i)))
    ((t.vecOow c w true as).vstoreAt c w as vals).corePoison c (vals.any (·.2)))

/-- The fields of a structure access: 2 to 4 (R203), in registers d to d + f - 1. -/
def segOk (i : Issue) : Bool := decide (2 ≤ vSub i) && decide (vSub i ≤ 4) && decide (i.d.val + vSub i ≤ 32)

/-- Structure elements are single registers: their number is cut to one register's capacity. -/
def segN (t : State) (c w n : Nat) : Nat × State :=
  let m := min n (vregBytes / max 1 w)
  (m, if m < n then t.addSat F.CORE_VEC_CLIP c 1 else t)

/-- The registers of a structure load, those beyond v31 left out. -/
def segRegs (i : Issue) (w : Nat) : List (Nat × Nat) :=
  (List.range (max 1 (vSub i))).filterMap fun j => if i.d.val + j < 32 then some (i.d.val + j, w) else none

/-- VLSEG: field j of structure i to element i of v(d + j). -/
def execVlseg (i : Issue) (s : State) : Host.Outcome State Fault Refusal :=
  let w := memBytes i
  let c := i.core.val
  let f := vSub i
  .next (s.vec 0x84 i (memOk i && segOk i) [] (segRegs i w) false fun t0 n0 =>
    let p := segN t0 c w n0
    let t := p.2
    let addr := fun (j k : Nat) => t.strided i w (k * f + j)
    let all := (List.range f).flatMap fun j => (List.range p.1).map (addr j)
    let t1 := (t.splEcc c i.spl)
    let t2 := (List.range f).foldl (fun u j =>
      let xs := t1.vloadAt c w ((List.range p.1).map (addr j))
      (u.setCore c ((u.core c).vput (i.d.val + j) w (xs.map (·.1)) (xs.map (·.2)))).corePoison c (xs.any (·.2))) t1
    t2.vecOow c w false all)

/-- VSSEG: the inverse of VLSEG; the structures are one run of bytes. -/
def execVsseg (i : Issue) (s : State) : Host.Outcome State Fault Refusal :=
  let w := memBytes i
  let c := i.core.val
  let f := vSub i
  .next (s.vec 0x85 i (memOk i && segOk i) [] [] false fun t0 n0 =>
    let p := segN t0 c w n0
    let t := p.2
    let cols := (List.range f).map fun j => t.vsrc c i.strand.val (i.d.val + j) w p.1 false
    let vals := (List.range p.1).flatMap fun k => cols.map fun col => col.getD k (0, false)
    let as := (List.range (p.1 * f)).map (t.strided i w)
    ((t.vecOow c w true as).vstoreRun c (t.ra i) w vals).corePoison c (vals.any (·.2)))

/-- VSCATTER: of colliding indices the highest element is written (R204). -/
def execVscatter (i : Issue) (s : State) : Host.Outcome State Fault Refusal :=
  let w := memBytes i
  let c := i.core.val
  .next (s.vec 0x87 i (memOk i) [(i.d.val, w), (i.b.val, 4)] [] false fun t n =>
    let vals := t.idxPoison i (t.vsrc c i.strand.val i.d.val w n false)
    let as := (List.range n).map (t.gatherAddr i w)
    ((t.vecOow c w true as).vstoreAt c w as vals).corePoison c (vals.any (·.2)))

/-- VSCATADDI: wrapping integer adds (R204). -/
def execVscataddi (i : Issue) (s : State) : Host.Outcome State Fault Refusal :=
  let w := memBytes i
  let c := i.core.val
  .next (s.vec 0x89 i (memOk i && isInt (ccbFmt (vCcb i))) [(i.d.val, w), (i.b.val, 4)] [] false fun t n =>
    let vals := t.idxPoison i (t.vsrc c i.strand.val i.d.val w n false)
    let as := (List.range n).map (t.gatherAddr i w)
    let t1 := (as.zip vals).foldl (fun u x => match elemAddr c w x.1 with
      | some a =>
        let pz := u.blockPoison a
        let r := intAdd (8 * w) (leNat (u.blockBytes a w)) x.2.1
        ((u.storeBlock a (toLe w r.1) (x.2.2 || pz)).vecNote c r.2.note).corePoison c (x.2.2 || pz)
      | none => u) (t.vecOow c w true as)
    t1)

/-- VSCATADD: each add is rounded once under the conversion control byte, SR with the key of the strand (R197). Where indices collide the value depends on arrival order (R204): it is free. -/
def execVscatadd (i : Issue) (s : State) : Host.Outcome State Fault Refusal :=
  let w := memBytes i
  let c := i.core.val
  .next (s.vec 0x88 i (memOk i && ccbOk (vCcb i) && isFloat (ccbFmt (vCcb i))) [(i.d.val, w), (i.b.val, 4)] [] false fun t n =>
    let f := ccbFmt (vCcb i)
    let vals := t.idxPoison i (t.vsrc c i.strand.val i.d.val w n false)
    let as := (List.range n).map (t.gatherAddr i w)
    let once := fun (a : Nat) => (as.filter fun x => elemAddr c w x == some a).length == 1
    let d := t.draw
    let t1 := if as.any fun x => match elemAddr c w x with | some a => !once a | none => false then d.2 else t
    let t2 := (as.zip vals).zipIdx.foldl (fun u x => match elemAddr c w x.1.1 with
      | some a =>
        let pz := u.blockPoison a || x.1.2.2
        let p := decodeVal f 0 (leNat (u.blockBytes a w))
        let q := decodeVal f 0 x.1.2.1
        let r := roundNote (vCcb i) 0 (t.srU c i.strand.val x.2) (p == .nan || q == .nan) (Val.add 0 p q)
        if once a then ((u.storeBlock a (toLe w r.1) pz).vecNote c r.2).corePoison c pz
        else (u.storeBlock a (toLe w (Config.free (d.1 * 4096 + x.2))) pz).corePoison c pz
      | none => u) (t1.vecOow c w true as)
    t2.srDone c i.strand.val (ccbRm (vCcb i)))

end Sys2Proof.Machine
end

