-- ==== Sys2Proof/Machine/VecRed.lean ====
section
/-! DEFINITION. Scans (R206 to R208), register reductions (R209), the reduction unit (R210 to R213, R243) and softmax (R214 to
R216). -/
namespace Sys2Proof.Machine
open Sys2Proof

/-! ### Scans -/

/-- Segmented prefixes: `one` makes a prefix of an element, `f` extends one, `ident` is what an exclusive scan gives a segment's first
element (R206). Elements carry the flag that starts a segment at them. -/
def segScan {α β : Type} (one : α → β) (f : β → α → β) (ident : β) (excl : Bool) : Option β → List (α × Bool) → List β
  | _, [] => []
  | run, (x, flag) :: t =>
    let before := if flag then none else run
    let after := match before with
      | none => one x
      | some b => f b x
    (if excl then before.getD ident else after) :: segScan one f ident excl (some after) t

/-- A prefix of a scan: its value, whether a NaN went in, lees, poison. -/
structure Prefix where
  val : Val := Val.zero
  nanIn : Bool := false
  lees : Bool := false
  poison : Bool := false
  raw : Option Nat := none      -- an identity, as an encoding of the result's format
deriving DecidableEq, Repr

/-- A running sum of the anchored exact format with one anchor for the instruction (R207). -/
structure SumPrefix where
  el : VatEl := {}
  nanIn : Bool := false
deriving DecidableEq, Repr

/-- The operation of a scan (Table 8.8, SUB [1:0]). -/
def scanOp (i : Issue) : Nat := bitsOf (vSub i) 0 2

/-- An exclusive scan (SUB [2]). -/
def scanExcl (i : Issue) : Bool := bitOf (vSub i) 2

/-- The identities of MIN and MAX in a format (Table 7.4), as encodings. -/
def scanIdent (fmt : Nat) (min : Bool) : Nat :=
  match floatFmt fmt with
  | some f => f.signed (!min) (f.inf.getD f.maxFin)
  | none => let w := fmtWidth fmt; if min then 2 ^ (w - 1) - 1 else 2 ^ (w - 1)

/-- Floating prefix sums (R207). -/
def scanSums (excl : Bool) (xs : List (Val × Bool × Bool)) : List Prefix :=
  let a := (largestExp (xs.map (·.1))).map (· + 12)
  let term := fun (x : Val × Bool) => mustOf [x.1] a 184 x.2
  let one := fun (x : Val × Bool) => ({ el := VatEl.add {} (term x), nanIn := x.1 == Val.nan } : SumPrefix)
  let f := fun (p : SumPrefix) (x : Val × Bool) => ({ el := p.el.add (term x), nanIn := p.nanIn || x.1 == Val.nan } : SumPrefix)
  (segScan one f {} excl none (xs.map fun x => ((x.1, x.2.1), x.2.2))).map fun p =>
    { val := p.el.val 184, nanIn := p.nanIn, lees := p.el.lees, poison := p.el.poison }

/-- Prefix minima or maxima (R208). -/
def scanPicks (big excl : Bool) (ident : Nat) (xs : List (Val × Bool × Bool)) : List Prefix :=
  segScan (fun x => { val := x.1, nanIn := x.1 == Val.nan, poison := x.2 })
    (fun p x => { val := Val.pick big p.val x.1, nanIn := p.nanIn || x.1 == Val.nan, poison := p.poison || x.2 })
    { raw := some ident } excl none (xs.map fun x => ((x.1, x.2.1), x.2.2))

/-- Wrapping integer prefix sums: the exact sum with its poison. -/
def scanInts (excl : Bool) (xs : List (Int × Bool × Bool)) : List (Int × Bool) :=
  segScan (fun x => (x.1, x.2)) (fun p x => (p.1 + x.1, p.2 || x.2)) (0, false) excl none (xs.map fun x => ((x.1, x.2.1), x.2.2))

/-- The formats that a scan takes: ADDI integers (R206), the others any, since the exact format takes and gives each (R132; log entry 121);
SUB bits 4:3 are reserved. -/
def scanOk (i : Issue) : Bool :=
  valueOk i [vFa i] true && decide (vSub i < 8) && (scanOp i != 1 || (isInt (vFa i) && isInt (ccbFmt (vCcb i))))

/-- VSCAN and VSEGSCAN; element 0 always starts a segment. -/
def State.scan (s : State) (op : Nat) (i : Issue) (seg : Bool) : State :=
  let ccb := vCcb i
  let w := fmtBytes (ccbFmt ccb)
  let wa := fmtBytes (vFa i)
  let wb := fmtBytes (vFb i)
  let c := i.core.val
  let t0 := i.strand.val
  s.vec op i (scanOk i) ([(i.d.val, w), (i.a.val, wa)] ++ (if seg && !vSb i then [(i.b.val, wb)] else [])) [(i.d.val, w)] false
    fun t n =>
      let a := t.vsrc c t0 i.a.val wa n false
      let b := if seg then t.vsrc c t0 i.b.val wb n (vSb i) else List.replicate n (0, false)
      let xs := (a.zip b).zipIdx.map fun x => (x.1.1.1, x.1.1.2 || x.1.2.2, x.2 == 0 || x.1.2.1 != 0)
      let vs := xs.map fun x => (decodeVal (vFa i) (vFracA i) x.1, x.2)
      let res : List (Nat × VNote × Bool) := if scanOp i = 1 then
          (scanInts (scanExcl i) (xs.map fun x => (signedOf (8 * wa) x.1, x.2))).map fun p =>
            let r := wrapTo (8 * w) p.1; (r.1, r.2.note, p.2)
        else
          let ps := if scanOp i = 0 then scanSums (scanExcl i) vs
            else scanPicks (scanOp i == 3) (scanExcl i) (scanIdent (ccbFmt ccb) (scanOp i == 2)) vs
          ps.zipIdx.map fun p =>
            match p.1.raw with
            | some x => (x, {}, p.1.poison)
            | none =>
              let r := roundNote ccb (vFracD i) (t.srU c t0 p.2) p.1.nanIn p.1.val
              (r.1, { r.2 with lees := bit p.1.lees }, p.1.poison)
      (t.vresult i w res).srDone c t0 (ccbRm ccb)

def execVscan (i : Issue) (s : State) : Host.Outcome State Fault Refusal := .next (s.scan 0x78 i false)
def execVsegscan (i : Issue) (s : State) : Host.Outcome State Fault Refusal := .next (s.scan 0x79 i true)

/-! ### Register reductions (R209) -/

/-- VREDMAX and VREDMIN: the scalar sb takes part; with n = 0 it is the result. -/
def State.redPick (s : State) (op : Nat) (i : Issue) (big : Bool) : State :=
  let wa := fmtBytes (vFa i)
  let c := i.core.val
  let t0 := i.strand.val
  s.vec op i (vfOk i true) [(i.a.val, wa)] [] true fun t n =>
    if n = 0 then t.wd i (t.rb i)
    else
      let a := t.vsrc c t0 i.a.val wa n false
      let b := decodeVal (vFb i) (vFracA i) (t.rb i)
      let xs := a.map fun x => decodeVal (vFa i) (vFracA i) x.1
      let r := roundNote (vCcb i) (vFracD i) (t.srU c t0 0) (b == Val.nan || xs.contains Val.nan) (xs.foldl (Val.pick big) b)
      (((t.wd i r.1).vecNote c r.2).corePoison c (a.any (·.2))).srDone c t0 (ccbRm (vCcb i))

def execVredmax (i : Issue) (s : State) : Host.Outcome State Fault Refusal := .next (s.redPick 0x7A i true)
def execVredmin (i : Issue) (s : State) : Host.Outcome State Fault Refusal := .next (s.redPick 0x7B i false)

/-- VREDSUMI: the wrapping integer sum of sb and the elements. -/
def execVredsumi (i : Issue) (s : State) : Host.Outcome State Fault Refusal :=
  let wa := fmtBytes (vFa i)
  let wb := fmtBytes (vFb i)
  let w := fmtBytes (ccbFmt (vCcb i))
  let c := i.core.val
  .next (s.vec 0x7C i (vintOk i true) [(i.a.val, wa)] [] true fun t n =>
    if n = 0 then t.wd i (t.rb i)
    else
      let a := t.vsrc c i.strand.val i.a.val wa n false
      let r := wrapTo (8 * w) (a.foldl (fun x y => x + signedOf (8 * wa) y.1) (signedOf (8 * wb) (t.rb i)))
      ((t.wd i r.1).vecNote c r.2.note).corePoison c (a.any (·.2)))

/-! ### The reduction unit -/

/-- An accumulator of a core. -/
def State.acc (s : State) (c n : Nat) : RuAcc := Tab.get {} (s.core c).acc n

/-- The state with an accumulator replaced. -/
def State.setAcc (s : State) (c n : Nat) (x : RuAcc) : State :=
  s.setCore c { s.core c with acc := Tab.set (s.core c).acc n x }

/-- The part takes a must; says also whether that set lees (VEC_LEES) and whether it made a NaN of infinities (VEC_NAN). -/
def VatEl.take (el : VatEl) (m : Must) : VatEl × VNote :=
  let r := el.add m
  let lost := ({ el with lees := false } : VatEl).add m
  (r, { lees := bit lost.lees, nan := bit (r.sp == Special.nan && el.sp != Special.nan && m.sp != Special.nan) })

/-- A must of values for a part with window 184. -/
def ruMust (terms : List Val) (a : Option Int) (poison nanIn : Bool) : Must × VNote :=
  let m := mustOf terms a 184 poison
  (m, { nan := bit (m.sp == Special.nan && !nanIn) })

/-- RUCLR: the accumulator in its initial state (R210). -/
def execRuclr (i : Issue) (s : State) : Host.Outcome State Fault Refusal :=
  .next (s.vec 0x90 i (decide (i.a.val < 4) && moveOk i) [] [] false fun t _ => t.setAcc i.core.val i.a.val {})

/-- RUACC: elements of vb in format FB enter S and Q (R210). VEC_LEES counts the instruction once where it sets a lees flag. -/
def execRuacc (i : Issue) (s : State) : Host.Outcome State Fault Refusal :=
  let wb := fmtBytes (vFb i)
  let c := i.core.val
  .next (s.vec 0x91 i (decide (i.a.val < 4) && valueOk i [vFb i] false)
    (if vSb i then [] else [(i.b.val, wb)]) [] false fun t n =>
      let b := t.vsrc c i.strand.val i.b.val wb n (vSb i)
      let xs := b.map fun x => decodeVal (vFb i) (vFracA i) x.1
      let e := largestExp xs
      let bad := b.any (·.2)
      let nanIn := xs.contains Val.nan
      let m := ruMust xs (e.map (· + 12)) bad nanIn
      let q := ruMust (xs.map fun x => Val.mul x x) (e.map (2 * · + 13)) bad nanIn
      let x := t.acc c i.a.val
      let s1 := x.s.take m.1
      let q1 := x.q.take q.1
      ((t.setAcc c i.a.val { x with s := s1.1, q := q1.1, n := (x.n + n) % 2 ^ 40 }).vecNote c
        { nan := m.2.nan + s1.2.nan, lees := max s1.2.lees q1.2.lees }).corePoison c bad)

/-- The numerator and denominator of a variance (Table 7.7): NaN without enough elements or with an infinity; a numerator below zero
gives +0. -/
def RuAcc.variance (x : RuAcc) (samp : Bool) : Val :=
  if x.n = 0 ∨ (samp = true ∧ x.n ≤ 1) ∨ x.s.sp ≠ .none ∨ x.q.sp ≠ .none then .nan
  else
    let n := Val.ofInt x.n
    let num := Val.sub 0 (Val.mul n (x.q.val 184)) (Val.mul (x.s.val 184) (x.s.val 184))
    match num with
    | .fin true _ _ => Val.zero
    | v => Val.div v (Val.ofInt (x.n * (if samp then x.n - 1 else x.n) : Nat))

/-- 1 / √(VAR_POP + ε). -/
def RuAcc.rstd (x : RuAcc) (eps : Val) : Val × VNote :=
  let r := Val.add 0 (x.variance false) eps
  if r.isZero then (.inf false, { div0 := 1 }) else (r.rsqrt, {})

/-- FLAGS of Table 7.7. -/
def RuAcc.flags (x : RuAcc) : Nat :=
  let nan := x.s.sp == Special.nan || x.q.sp == Special.nan
  let inf := x.s.sp == .pinf || x.s.sp == .ninf || x.q.sp == .pinf
  bit x.s.lees + 2 * bit x.q.lees + 4 * bit nan + 8 * bit inf + 16 * bit (x.s.poison || x.q.poison) + 32 * bit x.empty

/-- RUGET: kind in SUB, ε in sb (R212). -/
def execRuget (i : Issue) (s : State) : Host.Outcome State Fault Refusal :=
  let c := i.core.val
  let t0 := i.strand.val
  .next (s.vec 0x92 i (decide (i.a.val < 4) && valueOk i [] true && decide (vSub i < 8)) [] [] true fun t _ =>
    let x := t.acc c i.a.val
    let eps := f32 (t.rb i % 2 ^ 32)
    let fin := fun (v : Val) (nanIn : Bool) (extra : VNote) =>
      let r := roundNote (vCcb i) (vFracD i) (t.srU c t0 0) nanIn v
      ((t.wd i r.1).vecNote c (r.2.add extra)).srDone c t0 (ccbRm (vCcb i))
    let nan := x.s.sp == Special.nan || x.q.sp == Special.nan
    (match vSub i with
     | 0 => fin (if x.n = 0 then Val.zero else x.s.val 184) (x.s.sp == Special.nan) {}
     | 1 => fin (if x.n = 0 then Val.zero else x.q.val 184) (x.q.sp == Special.nan) {}
     | 2 => t.wd i x.n
     | 3 => if x.n = 0 then fin .nan false {} else fin (Val.div (x.s.val 184) (Val.ofInt x.n)) (x.s.sp == Special.nan) {}
     | 4 => fin (x.variance false) nan {}
     | 5 => fin (x.variance true) nan {}
     | 6 => let r := x.rstd eps; fin r.1 (nan || eps == Val.nan) r.2
     | _ => t.wd i x.flags).corePoison c (x.s.poison || x.q.poison))

/-! ### Saved accumulators (Table 8.8a) -/

/-- The code of a special class. -/
def Special.code : Special → Nat
  | .none => 0
  | .nan => 1
  | .pinf => 2
  | .ninf => 3

/-- The special class of a code. -/
def Special.ofCode : Nat → Special
  | 1 => .nan
  | 2 => .pinf
  | 3 => .ninf
  | _ => .none

/-- The anchor and flag bytes of a part. -/
def VatEl.saveA (el : VatEl) : Nat :=
  match el.a with
  | none => 2 ^ 13
  | some a => wrapInt 13 a

def VatEl.saveFl (el : VatEl) : Nat := bit el.lees + 2 * el.sp.code + 8 * bit el.poison

/-- The 96 bytes of a saved accumulator. -/
def RuAcc.save (x : RuAcc) : List Byte :=
  toLe 32 (wrapInt 256 x.s.v) ++ toLe 32 (wrapInt 256 x.q.v) ++ toLe 2 x.s.saveA ++ toLe 2 x.s.saveFl ++ toLe 2 x.q.saveA ++
    toLe 2 x.q.saveFl ++ toLe 5 x.n ++ toLe 5 x.c ++ toLe 14 (bit x.empty)

/-- The must that a saved part enters with. -/
def savedMust (v a fl : Nat) (poison : Bool) : Must :=
  { m := signedOf 256 v, a := if bitOf a 13 then none else some (signedOf 13 a), lees := bitOf fl 0, sp := Special.ofCode (bitsOf fl 1 2),
    poison := bitOf fl 3 || poison }

/-- The saved state that 96 bytes spell, or none where a reserved field is not zero. -/
def savedAcc (b : List Byte) (poison : Bool) : Option (Must × Must × Nat × Nat × Bool) :=
  let f := fun (o n : Nat) => leNat ((b.drop o).take n)
  if bitsOf (f 64 2) 14 2 = 0 ∧ f 66 1 < 16 ∧ f 67 1 = 0 ∧ bitsOf (f 68 2) 14 2 = 0 ∧ f 70 1 < 16 ∧ f 71 1 = 0 ∧ f 82 1 < 2 ∧ f 83 13 = 0 then
    some (savedMust (f 0 32) (f 64 2) (f 66 1) poison, savedMust (f 32 32) (f 68 2) (f 70 1) poison, f 72 5, f 77 5, f 82 1 == 1)
  else none

/-- RUSAVE: the accumulator's exact state to the spool; an address outside the window or not 32-byte aligned stores nothing. -/
def execRusave (i : Issue) (s : State) : Host.Outcome State Fault Refusal :=
  let c := i.core.val
  .next (s.vec 0x93 i (decide (i.a.val < 4) && moveOk i) [] [] false fun t _ =>
    let a := t.rb i
    if a % 32 = 0 ∧ inWindow c a 96 = true then t.windowWrite c a (t.acc c i.a.val).save []
    else t.vecOow c 96 true [a])

/-- RUMERGE: a saved state enters the accumulator under R169 and its counts are added (R213). -/
def execRumerge (i : Issue) (s : State) : Host.Outcome State Fault Refusal :=
  let c := i.core.val
  .next (s.vec 0x94 i (decide (i.a.val < 4) && moveOk i) [] [] false fun t0 _ =>
    let a := t0.rb i
    let ok := a % 32 == 0 && inWindow c a 96
    let t1 := if ok then t0.splEcc c i.spl else t0.vecOow c 96 false [a]
    let r := if ok then t1.windowRead c a 96 else (List.replicate 96 0, [])
    match savedAcc r.1 (!r.2.isEmpty) with
    | none => t1.vecRsvd c
    | some (ms, mq, n, k, e) =>
      let x := t1.acc c i.a.val
      let s1 := x.s.take ms
      let q1 := x.q.take mq
      ((t1.setAcc c i.a.val { s := s1.1, q := q1.1, n := (x.n + n) % 2 ^ 40, c := (x.c + k) % 2 ^ 40, empty := x.empty || e }).vecNote c
        { nan := s1.2.nan, lees := max s1.2.lees q1.2.lees }).corePoison c (!r.2.isEmpty))

/-! ### Softmax -/

/-- t = exp(x − m), rounded to binary32 under RNE (R215). -/
def smxT (x m : Val) : Val := f32 (Fn.exp.round (Val.sub 0 x m) (roundTo 4 0 0 false 0)).bits

/-- The exact sum of a list of values. -/
def sumVals (l : List Val) : Val := l.foldl (Val.add 0) Val.zero

/-- A row's outputs by the cases of R214, given the row maximum, the count of +∞ entries and the sum T. -/
def smxOut (m : Val) (cnt : Nat) (T : Val) (x : Val) : Val :=
  match m with
  | .nan => .nan
  | .inf true => Val.zero
  | .inf false => if x = .inf false then Val.div Val.one (Val.ofInt cnt) else Val.zero
  | _ => Val.div (smxT x m) T

/-- VSOFTMAX vd, va, sd with sd named by field B (R214, R215). -/
def execVsoftmax (i : Issue) (s : State) : Host.Outcome State Fault Refusal :=
  let w := fmtBytes (ccbFmt (vCcb i))
  let wa := fmtBytes (vFa i)
  let c := i.core.val
  let t0 := i.strand.val
  .next (s.vec 0x95 i (vfOk i false && isFloat (vFa i) && isFloat (ccbFmt (vCcb i))) [(i.d.val, w), (i.a.val, wa)] [(i.d.val, w)] false
    fun t n =>
      let a := t.vsrc c t0 i.a.val wa n false
      let xs := a.map fun x => decodeVal (vFa i) 0 x.1
      let bad := a.any (·.2)
      let m := xs.foldl (Val.pick true) (.inf true)
      let T := match m with
        | .fin .. => sumVals (xs.map fun x => smxT x m)
        | _ => Val.zero
      let cnt := xs.count (Val.inf false)
      let res : List (Nat × VNote × Bool) := xs.zipIdx.map fun x =>
        let r := roundNote (vCcb i) 0 (t.srU c t0 x.2) false (smxOut m cnt T x.1)
        (r.1, r.2, bad)
      let t1 := t.vresult i w res
      let t2 := if m = .inf true then
          (t1.setSreg c t0 i.b.val (t1.rb i + 1)).addSat F.CORE_VEC_EMPTY c 1
        else t1
      t2.srDone c t0 (ccbRm (vCcb i)))

/-- VSMXACC and VSMXOUT: accumulator in SUB [1:0], maximum in sb in format FB. -/
def smxOk (i : Issue) : Bool :=
  vfOk i true && isFloat (vFa i) && isFloat (vFb i) && isFloat (ccbFmt (vCcb i)) && decide (vSub i < 4)

/-- VSMXACC (R216). -/
def execVsmxacc (i : Issue) (s : State) : Host.Outcome State Fault Refusal :=
  let wa := fmtBytes (vFa i)
  let c := i.core.val
  .next (s.vec 0x96 i (smxOk i) [(i.a.val, wa)] [] false fun t n =>
    let a := t.vsrc c i.strand.val i.a.val wa n false
    let xs := a.map fun x => decodeVal (vFa i) 0 x.1
    let bad := a.any (·.2)
    let m := decodeVal (vFb i) 0 (t.rb i)
    let k := vSub i
    let x := t.acc c k
    (match m with
     | .nan => t
     | .inf true => t.setAcc c k { x with empty := true }
     | .inf false => t.setAcc c k { x with c := (x.c + xs.count (Val.inf false)) % 2 ^ 40, s := { x.s with poison := x.s.poison || bad } }
     | _ =>
       let ts := xs.map fun v => smxT v m
       let r := ruMust ts ((largestExp ts).map (· + 12)) bad (xs.contains Val.nan)
       let s1 := x.s.take r.1
       (t.setAcc c k { x with s := s1.1 }).vecNote c { nan := s1.2.nan + r.2.nan, lees := s1.2.lees }).corePoison c bad)

/-- The maximum of a row whose outputs an accumulator has a part in: a number or +∞. -/
def smxUses (m : Val) : Bool := m != .nan && m != .inf true

/-- VSMXOUT (R216): where the accumulator has a part in an output, its poison is the output's (R218). -/
def execVsmxout (i : Issue) (s : State) : Host.Outcome State Fault Refusal :=
  let w := fmtBytes (ccbFmt (vCcb i))
  let wa := fmtBytes (vFa i)
  let c := i.core.val
  let t0 := i.strand.val
  .next (s.vec 0x97 i (smxOk i) [(i.d.val, w), (i.a.val, wa)] [(i.d.val, w)] false fun t n =>
    let m := decodeVal (vFb i) 0 (t.rb i)
    let x := t.acc c (vSub i)
    let T := x.s.val 184
    let bad := smxUses m && x.s.poison
    let src := (t.vsrc c t0 i.a.val wa n false).map fun a => (a.1, a.2 || bad)
    ((t.vresult i w (mapElems src fun e a =>
      let v := decodeVal (vFa i) 0 a
      let r := roundNote (vCcb i) 0 (t.srU c t0 e) (m != Val.nan && (v == Val.nan || T == Val.nan)) (smxOut m x.c T v)
      (r.1, r.2.add (match m with
        | .fin .. => divZero (smxT v m) T
        | .inf false => if v = .inf false ∧ x.c = 0 then { div0 := 1 } else {}
        | _ => {})))).corePoison c bad).srDone c t0 (ccbRm (vCcb i)))

end Sys2Proof.Machine
end

