-- ==== Sys2Proof/Machine/Dispatch.lean ====
section
/-! DEFINITION. One arm per command: each a direct call of its meaning. -/
namespace Sys2Proof.Machine
open Sys2Proof

/-- A command's effect on everything but the queue. -/
def exec (i : Instr) (s : State) : Host.Outcome State Fault Refusal :=
  match i with
  | .registerWrite ag bar4 addr size v => Sys2Proof.Machine.execRegisterWrite ag bar4 addr size v s
  | .srst ag ty inst => Sys2Proof.Machine.execSrst ag ty inst s
  | .errClr ag ty inst coin => Sys2Proof.Machine.execErrClr ag ty inst coin s
  | .evtStatClear ag ty inst mask hwSet => Sys2Proof.Machine.execEvtStatClear ag ty inst mask hwSet s
  | .evtEnWrite ag ty inst v => Sys2Proof.Machine.execEvtEnWrite ag ty inst v s
  | .evtSet ag ty inst v => Sys2Proof.Machine.execEvtSet ag ty inst v s
  | .cfgStageWrite ag ty inst gen => Sys2Proof.Machine.execCfgStageWrite ag ty inst gen s
  | .arm ag => Sys2Proof.Machine.execArm ag s
  | .cancel ag => Sys2Proof.Machine.execCancel ag s
  | .pickEdge => Sys2Proof.Machine.execPickEdge s
  | .pickOutEnd => Sys2Proof.Machine.execPickOutEnd s
  | .taskStart idx ns => Sys2Proof.Machine.execTaskStart idx ns s
  | .taskFinish idx ns => Sys2Proof.Machine.execTaskFinish idx ns s
  | .beatUpStart => Sys2Proof.Machine.execBeatUpStart s
  | .votePoint => Sys2Proof.Machine.execVotePoint s
  | .confirmPoint => Sys2Proof.Machine.execConfirmPoint s
  | .decisionPoint => Sys2Proof.Machine.execDecisionPoint s
  | .schedEntryCheck => Sys2Proof.Machine.execSchedEntryCheck s
  | .pickSetApply ag hi => Sys2Proof.Machine.execPickSetApply ag hi s
  | .pickInEdge ns => Sys2Proof.Machine.execPickInEdge ns s
  | .sourceLoss => Sys2Proof.Machine.execSourceLoss s
  | .sourceReturn offsetNs => Sys2Proof.Machine.execSourceReturn offsetNs s
  | .align link f => Sys2Proof.Machine.execAlign link f s
  | .nop w => Sys2Proof.Machine.execNop w s
  | .add w => Sys2Proof.Machine.execAdd w s
  | .sub w => Sys2Proof.Machine.execSub w s
  | .mul w => Sys2Proof.Machine.execMul w s
  | .mulh w => Sys2Proof.Machine.execMulh w s
  | .div w => Sys2Proof.Machine.execDiv w s
  | .rem w => Sys2Proof.Machine.execRem w s
  | .and w => Sys2Proof.Machine.execAnd w s
  | .or w => Sys2Proof.Machine.execOr w s
  | .xor w => Sys2Proof.Machine.execXor w s
  | .sll w => Sys2Proof.Machine.execSll w s
  | .srl w => Sys2Proof.Machine.execSrl w s
  | .sra w => Sys2Proof.Machine.execSra w s
  | .slt w => Sys2Proof.Machine.execSlt w s
  | .sltu w => Sys2Proof.Machine.execSltu w s
  | .li w => Sys2Proof.Machine.execLi w s
  | .ld w => Sys2Proof.Machine.execLd w s
  | .st w => Sys2Proof.Machine.execSt w s
  | .ldv w => Sys2Proof.Machine.execLdv w s
  | .ldp w => Sys2Proof.Machine.execLdp w s
  | .stp w => Sys2Proof.Machine.execStp w s
  | .beq w => Sys2Proof.Machine.execBeq w s
  | .bne w => Sys2Proof.Machine.execBne w s
  | .blt w => Sys2Proof.Machine.execBlt w s
  | .bge w => Sys2Proof.Machine.execBge w s
  | .bltu w => Sys2Proof.Machine.execBltu w s
  | .bgeu w => Sys2Proof.Machine.execBgeu w s
  | .jal w => Sys2Proof.Machine.execJal w s
  | .jalr w => Sys2Proof.Machine.execJalr w s
  | .sfadd w => Sys2Proof.Machine.execSfadd w s
  | .sfsub w => Sys2Proof.Machine.execSfsub w s
  | .sfmul w => Sys2Proof.Machine.execSfmul w s
  | .sfma w => Sys2Proof.Machine.execSfma w s
  | .sfdiv w => Sys2Proof.Machine.execSfdiv w s
  | .sfsqrt w => Sys2Proof.Machine.execSfsqrt w s
  | .sfcvt w => Sys2Proof.Machine.execSfcvt w s
  | .sfcmp w => Sys2Proof.Machine.execSfcmp w s
  | .spawn w => Sys2Proof.Machine.execSpawn w s
  | .endStrand w => Sys2Proof.Machine.execEndStrand w s
  | .sync w => Sys2Proof.Machine.execSync w s
  | .waits w => Sys2Proof.Machine.execWaits w s
  | .rels w => Sys2Proof.Machine.execRels w s
  | .sigwait w => Sys2Proof.Machine.execSigwait w s
  | .strandWaitRelease core strand => Sys2Proof.Machine.execStrandWaitRelease core strand s
  | .rdid w => Sys2Proof.Machine.execRdid w s
  | .rdcyc w => Sys2Proof.Machine.execRdcyc w s
  | .rdtemp w => Sys2Proof.Machine.execRdtemp w s
  | .fetch w => Sys2Proof.Machine.execFetch w s
  | .raLineIssue core => Sys2Proof.Machine.execRaLineIssue core s
  | .raLineLand core slot part stall r => Sys2Proof.Machine.execRaLineLand core slot part stall r s
  | .instructionFetch core strand ecc => Sys2Proof.Machine.execInstructionFetch core strand ecc s
  | .rmo w => Sys2Proof.Machine.execRmo w s
  | .raccu w => Sys2Proof.Machine.execRaccu w s
  | .wload w => Sys2Proof.Machine.execWload w s
  | .edgeLoad w => Sys2Proof.Machine.execEdgeLoad w s
  | .wloadComplete core arr cyc => Sys2Proof.Machine.execWloadComplete core arr cyc s
  | .apass w => Sys2Proof.Machine.execApass w s
  | .apassv w => Sys2Proof.Machine.execApassv w s
  | .beatRelease core arr cyc reads ecc => Sys2Proof.Machine.execBeatRelease core arr cyc reads ecc s
  | .rowClockStop core arr cyc => Sys2Proof.Machine.execRowClockStop core arr cyc s
  | .vatRowComplete core arr cyc ecc => Sys2Proof.Machine.execVatRowComplete core arr cyc ecc s
  | .epilogueDrain core arr cyc accept ecc => Sys2Proof.Machine.execEpilogueDrain core arr cyc accept ecc s
  | .mv w => Sys2Proof.Machine.execMv w s
  | .mvt w => Sys2Proof.Machine.execMvt w s
  | .resid w => Sys2Proof.Machine.execResid w s
  | .csr w => Sys2Proof.Machine.execCsr w s
  | .mvpReservationEnd engine cyc => Sys2Proof.Machine.execMvpReservationEnd engine cyc s
  | .setvl w => Sys2Proof.Machine.execSetvl w s
  | .vsrkey w => Sys2Proof.Machine.execVsrkey w s
  | .vbcast w => Sys2Proof.Machine.execVbcast w s
  | .vsel w => Sys2Proof.Machine.execVsel w s
  | .vperm w => Sys2Proof.Machine.execVperm w s
  | .vslide w => Sys2Proof.Machine.execVslide w s
  | .vcompress w => Sys2Proof.Machine.execVcompress w s
  | .vextr w => Sys2Proof.Machine.execVextr w s
  | .vadd w => Sys2Proof.Machine.execVadd w s
  | .vsub w => Sys2Proof.Machine.execVsub w s
  | .vmul w => Sys2Proof.Machine.execVmul w s
  | .vdiv w => Sys2Proof.Machine.execVdiv w s
  | .vrem w => Sys2Proof.Machine.execVrem w s
  | .vand w => Sys2Proof.Machine.execVand w s
  | .vor w => Sys2Proof.Machine.execVor w s
  | .vxor w => Sys2Proof.Machine.execVxor w s
  | .vsll w => Sys2Proof.Machine.execVsll w s
  | .vsrl w => Sys2Proof.Machine.execVsrl w s
  | .vsra w => Sys2Proof.Machine.execVsra w s
  | .vsadd w => Sys2Proof.Machine.execVsadd w s
  | .vssub w => Sys2Proof.Machine.execVssub w s
  | .vsaddu w => Sys2Proof.Machine.execVsaddu w s
  | .vssubu w => Sys2Proof.Machine.execVssubu w s
  | .vrshr w => Sys2Proof.Machine.execVrshr w s
  | .vmulq w => Sys2Proof.Machine.execVmulq w s
  | .vnsat w => Sys2Proof.Machine.execVnsat w s
  | .vnwrap w => Sys2Proof.Machine.execVnwrap w s
  | .vfadd w => Sys2Proof.Machine.execVfadd w s
  | .vfsub w => Sys2Proof.Machine.execVfsub w s
  | .vfmul w => Sys2Proof.Machine.execVfmul w s
  | .vfma w => Sys2Proof.Machine.execVfma w s
  | .vfmin w => Sys2Proof.Machine.execVfmin w s
  | .vfmax w => Sys2Proof.Machine.execVfmax w s
  | .vcmp w => Sys2Proof.Machine.execVcmp w s
  | .vcvt w => Sys2Proof.Machine.execVcvt w s
  | .vscvt w => Sys2Proof.Machine.execVscvt w s
  | .vfdiv w => Sys2Proof.Machine.execVfdiv w s
  | .vfrcp w => Sys2Proof.Machine.execVfrcp w s
  | .vfsqrt w => Sys2Proof.Machine.execVfsqrt w s
  | .vfrsqrt w => Sys2Proof.Machine.execVfrsqrt w s
  | .vexp w => Sys2Proof.Machine.execVexp w s
  | .vexp2 w => Sys2Proof.Machine.execVexp2 w s
  | .vlog w => Sys2Proof.Machine.execVlog w s
  | .vlog2 w => Sys2Proof.Machine.execVlog2 w s
  | .vtanh w => Sys2Proof.Machine.execVtanh w s
  | .vsigm w => Sys2Proof.Machine.execVsigm w s
  | .vsilu w => Sys2Proof.Machine.execVsilu w s
  | .vgelu w => Sys2Proof.Machine.execVgelu w s
  | .vscan w => Sys2Proof.Machine.execVscan w s
  | .vsegscan w => Sys2Proof.Machine.execVsegscan w s
  | .vredmax w => Sys2Proof.Machine.execVredmax w s
  | .vredmin w => Sys2Proof.Machine.execVredmin w s
  | .vredsumi w => Sys2Proof.Machine.execVredsumi w s
  | .vld w => Sys2Proof.Machine.execVld w s
  | .vst w => Sys2Proof.Machine.execVst w s
  | .vlds w => Sys2Proof.Machine.execVlds w s
  | .vsts w => Sys2Proof.Machine.execVsts w s
  | .vlseg w => Sys2Proof.Machine.execVlseg w s
  | .vsseg w => Sys2Proof.Machine.execVsseg w s
  | .vgather w => Sys2Proof.Machine.execVgather w s
  | .vscatter w => Sys2Proof.Machine.execVscatter w s
  | .vscatadd w => Sys2Proof.Machine.execVscatadd w s
  | .vscataddi w => Sys2Proof.Machine.execVscataddi w s
  | .vldv w => Sys2Proof.Machine.execVldv w s
  | .ruclr w => Sys2Proof.Machine.execRuclr w s
  | .ruacc w => Sys2Proof.Machine.execRuacc w s
  | .ruget w => Sys2Proof.Machine.execRuget w s
  | .rusave w => Sys2Proof.Machine.execRusave w s
  | .rumerge w => Sys2Proof.Machine.execRumerge w s
  | .vsoftmax w => Sys2Proof.Machine.execVsoftmax w s
  | .vsmxacc w => Sys2Proof.Machine.execVsmxacc w s
  | .vsmxout w => Sys2Proof.Machine.execVsmxout w s
  | .cntClr ag inst => Sys2Proof.Machine.execCntClr ag inst s
  | .epiCntClr ag inst => Sys2Proof.Machine.execEpiCntClr ag inst s
  | .vecCntClr ag inst coin => Sys2Proof.Machine.execVecCntClr ag inst coin s
  | .strCntClr ag inst => Sys2Proof.Machine.execStrCntClr ag inst s
  | .qp e ns ecc => Sys2Proof.Machine.execQp e ns ecc s
  | .qpAdj e ns ecc => Sys2Proof.Machine.execQpAdj e ns ecc s
  | .adj e ns ecc => Sys2Proof.Machine.execAdj e ns ecc s
  | .linSym e ns ecc => Sys2Proof.Machine.execLinSym e ns ecc s
  | .linGen e ns ecc => Sys2Proof.Machine.execLinGen e ns ecc s
  | .solveDeadline e ns => Sys2Proof.Machine.execSolveDeadline e ns s
  | .solvCntClr ag inst => Sys2Proof.Machine.execSolvCntClr ag inst s
  | .dramRequestIssue stack ns r tokensWaiting => Sys2Proof.Machine.execDramRequestIssue stack ns r tokensWaiting s
  | .scrubRead stack addr ecc pct => Sys2Proof.Machine.execScrubRead stack addr ecc pct s
  | .dirtyEvict die line => Sys2Proof.Machine.execDirtyEvict die line s
  | .hostSnoop die line iv => Sys2Proof.Machine.execHostSnoop die line iv s
  | .goWritePullDrop die line => Sys2Proof.Machine.execGoWritePullDrop die line s
  | .goWritePull die line => Sys2Proof.Machine.execGoWritePull die line s
  | .bisnpResponse die line d => Sys2Proof.Machine.execBisnpResponse die line d s
  | .flush ag die => Sys2Proof.Machine.execFlush ag die s
  | .flushDone die => Sys2Proof.Machine.execFlushDone die s
  | .granuleFlushComplete die gran => Sys2Proof.Machine.execGranuleFlushComplete die gran s
  | .dieCntClr ag inst => Sys2Proof.Machine.execDieCntClr ag inst s
  | .celCntClr ag inst => Sys2Proof.Machine.execCelCntClr ag inst s
  | .stkCntClr ag inst => Sys2Proof.Machine.execStkCntClr ag inst s
  | .chunkArrival slice c => Sys2Proof.Machine.execChunkArrival slice c s
  | .heldChunkJudge slice => Sys2Proof.Machine.execHeldChunkJudge slice s
  | .groupApply slice block step => Sys2Proof.Machine.execGroupApply slice block step s
  | .groupCommit slice block group ecc => Sys2Proof.Machine.execGroupCommit slice block group ecc s
  | .groupDone slice block step => Sys2Proof.Machine.execGroupDone slice block step s
  | .repairReq ag slice block => Sys2Proof.Machine.execRepairReq ag slice block s
  | .repairRequest slice src block target => Sys2Proof.Machine.execRepairRequest slice src block target s
  | .repairAnswer slice fromDev block => Sys2Proof.Machine.execRepairAnswer slice fromDev block s
  | .repairState slice reply step origin state scales digest => Sys2Proof.Machine.execRepairState slice reply step origin state scales digest s
  | .repairWriteDone slice ns => Sys2Proof.Machine.execRepairWriteDone slice ns s
  | .repairTimeout slice ns => Sys2Proof.Machine.execRepairTimeout slice ns s
  | .updCntClr ag inst => Sys2Proof.Machine.execUpdCntClr ag inst s
  | .put a => Sys2Proof.Machine.execPut a s
  | .get a => Sys2Proof.Machine.execGet a s
  | .acc a => Sys2Proof.Machine.execAcc a s
  | .sig a => Sys2Proof.Machine.execSig a s
  | .sigWaitRelease idx => Sys2Proof.Machine.execSigWaitRelease idx s
  | .fadd a => Sys2Proof.Machine.execFadd a s
  | .cas a => Sys2Proof.Machine.execCas a s
  | .rack a => Sys2Proof.Machine.execRack a s
  | .acknowledgement id status d poison => Sys2Proof.Machine.execAcknowledgement id status d poison s
  | .resend id => Sys2Proof.Machine.execResend id s
  | .flitForward link f => Sys2Proof.Machine.execFlitForward link f s
  | .retry link lseq => Sys2Proof.Machine.execRetry link lseq s
  | .credit hid rep n => Sys2Proof.Machine.execCredit hid rep n s
  | .thread dev peerId rep part => Sys2Proof.Machine.execThread dev peerId rep part s
  | .threadAccept hid peerId => Sys2Proof.Machine.execThreadAccept hid peerId s
  | .threadRefuse hid => Sys2Proof.Machine.execThreadRefuse hid s
  | .heddleThreadRetry ns => Sys2Proof.Machine.execHeddleThreadRetry ns s
  | .release hid => Sys2Proof.Machine.execRelease hid s
  | .releaseAck hid => Sys2Proof.Machine.execReleaseAck hid s
  | .neg link f => Sys2Proof.Machine.execNeg link f s
  | .linkTrained link => Sys2Proof.Machine.execLinkTrained link s
  | .trainingTimeout link => Sys2Proof.Machine.execTrainingTimeout link s
  | .linkLockLoss link => Sys2Proof.Machine.execLinkLockLoss link s
  | .linkCntClr ag inst => Sys2Proof.Machine.execLinkCntClr ag inst s
  | .hedCntClr ag => Sys2Proof.Machine.execHedCntClr ag s
  | .allReduce slice => Sys2Proof.Machine.execAllReduce slice s
  | .reduceScatter slice => Sys2Proof.Machine.execReduceScatter slice s
  | .allGather slice => Sys2Proof.Machine.execAllGather slice s
  | .broadcast slice => Sys2Proof.Machine.execBroadcast slice s
  | .allToAll slice => Sys2Proof.Machine.execAllToAll slice s
  | .barrier slice => Sys2Proof.Machine.execBarrier slice s
  | .rackScript slice => Sys2Proof.Machine.execRackScript slice s
  | .bundle slice => Sys2Proof.Machine.execBundle slice s
  | .chunkStart slice chunk => Sys2Proof.Machine.execChunkStart slice chunk s
  | .transferLanded slice chunk q mismatches => Sys2Proof.Machine.execTransferLanded slice chunk q mismatches s
  | .collCntClr ag inst => Sys2Proof.Machine.execCollCntClr ag inst s
  | .treeRehash => Sys2Proof.Machine.execTreeRehash s
  | .sealRequest => Sys2Proof.Machine.execSealRequest s
  | .verifyStart ag mode => Sys2Proof.Machine.execVerifyStart ag mode s
  | .verifyDone => Sys2Proof.Machine.execVerifyDone s
  | .audCntClr ag => Sys2Proof.Machine.execAudCntClr ag s
  | .frameReceive port f => Sys2Proof.Machine.execFrameReceive port f s
  | .arpRequest port target sender => Sys2Proof.Machine.execArpRequest port target sender s
  | .neighborSolicitation port target sender => Sys2Proof.Machine.execNeighborSolicitation port target sender s
  | .echoRequest src v6 d => Sys2Proof.Machine.execEchoRequest src v6 d s
  | .ptpSync port twoStep t1 t2 => Sys2Proof.Machine.execPtpSync port twoStep t1 t2 s
  | .ptpFollowUp port t1 => Sys2Proof.Machine.execPtpFollowUp port t1 s
  | .ptpDelayReq port rx => Sys2Proof.Machine.execPtpDelayReq port rx s
  | .ptpDelayResp port t3 t4 => Sys2Proof.Machine.execPtpDelayResp port t3 t4 s
  | .ptpAnnounce port priority1 clock => Sys2Proof.Machine.execPtpAnnounce port priority1 clock s
  | .ptpLockLost port => Sys2Proof.Machine.execPtpLockLost port s
  | .openSession r => Sys2Proof.Machine.execOpenSession r s
  | .openFragmentTimeout src hs => Sys2Proof.Machine.execOpenFragmentTimeout src hs s
  | .confirm r => Sys2Proof.Machine.execConfirm r s
  | .confirmTimeout session => Sys2Proof.Machine.execConfirmTimeout session s
  | .data r => Sys2Proof.Machine.execData r s
  | .solve r => Sys2Proof.Machine.execSolve r s
  | .eval r => Sys2Proof.Machine.execEval r s
  | .plan r => Sys2Proof.Machine.execPlan r s
  | .keepalive session => Sys2Proof.Machine.execKeepalive session s
  | .close session => Sys2Proof.Machine.execClose session s
  | .requestFragmentTimeout session sub seq => Sys2Proof.Machine.execRequestFragmentTimeout session sub seq s
  | .sessionIdleTimeout session => Sys2Proof.Machine.execSessionIdleTimeout session s
  | .portUp port => Sys2Proof.Machine.execPortUp port s
  | .portDown port => Sys2Proof.Machine.execPortDown port s
  | .portCntClr ag port => Sys2Proof.Machine.execPortCntClr ag port s
  | .trCntClr ag => Sys2Proof.Machine.execTrCntClr ag s
  | .bar2Access fn write off len d poisoned => Sys2Proof.Machine.execBar2Access fn write off len d poisoned s
  | .cxlMemRequest write addr d ow => Sys2Proof.Machine.execCxlMemRequest write addr d ow s
  | .msixUnmask vec => Sys2Proof.Machine.execMsixUnmask vec s
  | .queueEnable fn q cfg => Sys2Proof.Machine.execQueueEnable fn q cfg s
  | .sqDoorbell fn q tail hostWrites => Sys2Proof.Machine.execSqDoorbell fn q tail hostWrites s
  | .cqDoorbell fn q head => Sys2Proof.Machine.execCqDoorbell fn q head s
  | .queueNop fn q => Sys2Proof.Machine.execQueueNop fn q s
  | .copyIn fn q hostErr => Sys2Proof.Machine.execCopyIn fn q hostErr s
  | .copyOut fn q hostErr => Sys2Proof.Machine.execCopyOut fn q hostErr s
  | .fill fn q => Sys2Proof.Machine.execFill fn q s
  | .digest fn q hostErr => Sys2Proof.Machine.execDigest fn q hostErr s
  | .queueSig fn q => Sys2Proof.Machine.execQueueSig fn q s
  | .queueWait fn q => Sys2Proof.Machine.execQueueWait fn q s
  | .commandComplete fn q => Sys2Proof.Machine.execCommandComplete fn q s
  | .hostLinkDown => Sys2Proof.Machine.execHostLinkDown s
  | .hostLinkUp speed width cxl cacheEn memEn => Sys2Proof.Machine.execHostLinkUp speed width cxl cacheEn memEn s
  | .flr fn => Sys2Proof.Machine.execFlr fn s
  | .hostPerst low => Sys2Proof.Machine.execHostPerst low s
  | .hostCntClr ag => Sys2Proof.Machine.execHostCntClr ag s
  | .watchdogExpire => Sys2Proof.Machine.execWatchdogExpire s
  | .mgmtSramUncorr => Sys2Proof.Machine.execMgmtSramUncorr s
  | .kick ag => Sys2Proof.Machine.execKick ag s
  | .boot => Sys2Proof.Machine.execBoot s
  | .bootDone ag => Sys2Proof.Machine.execBootDone ag s
  | .warmRst ag => Sys2Proof.Machine.execWarmRst ag s
  | .partRst ag mask => Sys2Proof.Machine.execPartRst ag mask s
  | .partResetDone p => Sys2Proof.Machine.execPartResetDone p s
  | .arbAdvance ag target => Sys2Proof.Machine.execArbAdvance ag target s
  | .arbFuseBlow => Sys2Proof.Machine.execArbFuseBlow s
  | .keyRevoke ag mask => Sys2Proof.Machine.execKeyRevoke ag mask s
  | .getVersion => Sys2Proof.Machine.execGetVersion s
  | .getCapabilities ver => Sys2Proof.Machine.execGetCapabilities ver s
  | .negotiateAlgorithms offered => Sys2Proof.Machine.execNegotiateAlgorithms offered s
  | .getDigests => Sys2Proof.Machine.execGetDigests s
  | .getCertificate slot off len => Sys2Proof.Machine.execGetCertificate slot off len s
  | .challenge slot nonce => Sys2Proof.Machine.execChallenge slot nonce s
  | .getMeasurements index signed nonce => Sys2Proof.Machine.execGetMeasurements index signed nonce s
  | .spiNop late => Sys2Proof.Machine.execSpiNop late s
  | .spiRead waddr late => Sys2Proof.Machine.execSpiRead waddr late s
  | .spiWrite waddr v late => Sys2Proof.Machine.execSpiWrite waddr v late s
  | .spiBook waddr late => Sys2Proof.Machine.execSpiBook waddr late s
  | .spiFrameDiscard edges => Sys2Proof.Machine.execSpiFrameDiscard edges s
  | .mctpControl cmd => Sys2Proof.Machine.execMctpControl cmd s
  | .readReg addr => Sys2Proof.Machine.execReadReg addr s
  | .writeReg addr v => Sys2Proof.Machine.execWriteReg addr v s
  | .readBook index copy => Sys2Proof.Machine.execReadBook index copy s
  | .extest d => Sys2Proof.Machine.execExtest d s
  | .samplePreload d => Sys2Proof.Machine.execSamplePreload d s
  | .idcode => Sys2Proof.Machine.execIdcode s
  | .highz => Sys2Proof.Machine.execHighz s
  | .clamp => Sys2Proof.Machine.execClamp s
  | .bypass => Sys2Proof.Machine.execBypass s
  | .append ag => Sys2Proof.Machine.execAppend ag s
  | .bookRecordWrite => Sys2Proof.Machine.execBookRecordWrite s
  | .bookScanDone => Sys2Proof.Machine.execBookScanDone s
  | .mgmtCntClr ag => Sys2Proof.Machine.execMgmtCntClr ag s
  | .secCntClr ag => Sys2Proof.Machine.execSecCntClr ag s
  | .bookCntClr ag => Sys2Proof.Machine.execBookCntClr ag s
  | .vstbyRise vstby => Sys2Proof.Machine.execVstbyRise vstby s
  | .vinRise vin => Sys2Proof.Machine.execVinRise vin s
  | .pwrOkRise => Sys2Proof.Machine.execPwrOkRise s
  | .pwrOkFall => Sys2Proof.Machine.execPwrOkFall s
  | .resetNLow us => Sys2Proof.Machine.execResetNLow us s
  | .sagOnset vin ns => Sys2Proof.Machine.execSagOnset vin ns s
  | .sagEnd vin ns => Sys2Proof.Machine.execSagEnd vin ns s
  | .sagRecordRelease => Sys2Proof.Machine.execSagRecordRelease s
  | .rideThrough vin => Sys2Proof.Machine.execRideThrough vin s
  | .lossSequence writable => Sys2Proof.Machine.execLossSequence writable s
  | .limiterStep watts windowEnd => Sys2Proof.Machine.execLimiterStep watts windowEnd s
  | .thermWarn die temp => Sys2Proof.Machine.execThermWarn die temp s
  | .thermalClockStep die temp => Sys2Proof.Machine.execThermalClockStep die temp s
  | .thermCrit die temp => Sys2Proof.Machine.execThermCrit die temp s
  | .refclkLost clk => Sys2Proof.Machine.execRefclkLost clk s
  | .enter ag => Sys2Proof.Machine.execEnter ag s
  | .dormantEntryComplete => Sys2Proof.Machine.execDormantEntryComplete s
  | .wake ag => Sys2Proof.Machine.execWake ag s
  | .wakeN ns => Sys2Proof.Machine.execWakeN ns s
  | .wakeComplete => Sys2Proof.Machine.execWakeComplete s
  | .pwrCntClr ag => Sys2Proof.Machine.execPwrCntClr ag s
  | .softResetDone ty inst => Sys2Proof.Machine.execSoftResetDone ty inst s
  | .solveWaitRelease e ns => Sys2Proof.Machine.execSolveWaitRelease e ns s
  | .repairRefusal slice reply => Sys2Proof.Machine.execRepairRefusal slice reply s
  | .alignInterval link => Sys2Proof.Machine.execAlignInterval link s
  | .ptpMessageInterval port kind ts => Sys2Proof.Machine.execPtpMessageInterval port kind ts s
  | .smbusPacketDiscard => Sys2Proof.Machine.execSmbusPacketDiscard s
  | .heldWarmReset die temp => Sys2Proof.Machine.execHeldWarmReset die temp s

end Sys2Proof.Machine
end

