-- ==== Sys2Proof/Safety.lean ====
section
/-! DEFINITION. What counts as a safe step, in the terms the claims use. -/
namespace Sys2Proof.Machine
open Sys2Proof

/-- A step is safe when it answers a next state: the device never traps (R29, R217). -/
def Safe (s : State) : Prop := ∃ t, step s = .next t

end Sys2Proof.Machine
end

