-- ==== Sys2Proof/Certificates/Slice0/Obligations.lean ====
section
/-! DEFINITION. The statements for the provers. `Claims` holds the terms they share; every statement is a `def Obligations.<Name>`. -/
namespace Sys2Proof.Claims
open Sys2Proof Sys2Proof.Machine

/-- Command `c` completes in state `s` with next state `t`. -/
abbrev Does (c : Instr) (s t : State) : Prop := exec c s = .next t

/-- A counter that saturates has gone up by `n` from state `s` to state `t`. -/
def Counts (f : Fld) (i n : Nat) (s t : State) : Prop := s.fld f i < 2 ^ f.w → t.fld f i = min (2 ^ f.w - 1) (s.fld f i + n)

/-! ### Strands -/

/-- The strand that `i` names may issue (R229), and no storage code reports an error. -/
def ready (i : Issue) (s : State) : Prop :=
  (s.strand i.core.val i.strand.val).st = .running ∧ (s.strand i.core.val i.strand.val).wait = none ∧ i.ecc = {}

/-- The instruction word that the strand has fetched is opcode `op` with the fields of `i` (Tables 8.3 and 8.8). -/
def fetched (op : Nat) (i : Issue) (s : State) : Prop := (s.strand i.core.val i.strand.val).ir = some (wordOf op i)

/-- Where the strand holds the word of opcode `op`, command `c` completes in state `s` with next state `t`. -/
def Runs (op : Nat) (i : Issue) (c : Instr) (s t : State) : Prop := fetched op i s → Does c s t

/-- The strand has moved on by one instruction. -/
def went (i : Issue) (s : State) : State := s.advance i.core.val i.strand.val

/-- The program counter that the instruction was fetched at. -/
def pcOf (i : Issue) (s : State) : Nat := (s.strand i.core.val i.strand.val).pc

end Sys2Proof.Claims
open Sys2Proof Sys2Proof.Machine Sys2Proof.Claims

/-! ### Steps -/

/-- A step with a command at the front of the queue is that command's execution on the state with the queue's rest. -/
def Obligations.StepRunsFrontCommand : Prop :=
  ∀ (c : Instr) (rest : List Instr) (s : State),
    step { s with pending := c :: rest } = exec c { s with pending := rest }
/-! ### The strand engine -/

/-- The integer instructions of Table 8.8: the result of sa and the second source, in two's complement on 64 bits. -/
def Sys2Proof.Claims.ScalarIntegerResults : Prop :=
  ∀ (i : Issue) (s : State), ready i s → aluOk i = true →
    let a := s.ra i
    let b := s.aluB i
    let x := signedOf 64 a
    let y := signedOf 64 b
    let d := fun (v : Nat) => (went i s).wd i v
    Runs 0x01 i (.add i) s (d (wrapInt 64 (x + y))) ∧
    Runs 0x02 i (.sub i) s (d (wrapInt 64 (x - y))) ∧
    Runs 0x03 i (.mul i) s (d (wrapInt 64 (x * y))) ∧
    Runs 0x04 i (.mulh i) s (d (wrapInt 64 (x * y / 2 ^ 64))) ∧
    Runs 0x07 i (.and i) s (d (a &&& b)) ∧
    Runs 0x08 i (.or i) s (d (a ||| b)) ∧
    Runs 0x09 i (.xor i) s (d (a ^^^ b)) ∧
    (b < 64 → Runs 0x0A i (.sll i) s (d (a * 2 ^ b % 2 ^ 64)) ∧ Runs 0x0B i (.srl i) s (d (a % 2 ^ 64 / 2 ^ b)) ∧
      Runs 0x0C i (.sra i) s (d (wrapInt 64 (x / 2 ^ b)))) ∧
    (64 ≤ b → Runs 0x0A i (.sll i) s (d 0) ∧ Runs 0x0B i (.srl i) s (d 0) ∧ Runs 0x0C i (.sra i) s (d (wrapInt 64 (x / 2 ^ 64)))) ∧
    Runs 0x0D i (.slt i) s (d (if x < y then 1 else 0)) ∧
    Runs 0x0E i (.sltu i) s (d (if a < b then 1 else 0))

/-- DIV and REM (R198, Table 8.8): toward zero; a divisor of 0 gives 0 and the dividend and counts in STR_DIV0. -/
def Sys2Proof.Claims.ScalarDivisionResults : Prop :=
  ∀ (i : Issue) (s : State), ready i s → aluOk i = true →
    let a := s.ra i
    let b := s.aluB i
    let d := fun (v : Nat) => (went i s).wd i v
    (b % 2 ^ 64 ≠ 0 → Runs 0x05 i (.div i) s (d (wrapInt 64 ((signedOf 64 a).tdiv (signedOf 64 b)))) ∧
      Runs 0x06 i (.rem i) s (d (wrapInt 64 ((signedOf 64 a).tmod (signedOf 64 b))))) ∧
    (b = 0 → Runs 0x05 i (.div i) s ((d 0).addSat F.CORE_STR_DIV0 i.core.val 1) ∧
      Runs 0x06 i (.rem i) s ((d (a % 2 ^ 64)).addSat F.CORE_STR_DIV0 i.core.val 1))

/-- A write of s0 is discarded, and s0 reads 0 (R222): an integer instruction with D = 0 leaves every scalar register as it was. -/
def Sys2Proof.Claims.ScalarRegisterZero : Prop :=
  (∀ (s : State) (c t : Nat), s.sreg c t 0 = 0) ∧
  ∀ (i : Issue) (s : State), ready i s → aluOk i = true → i.d = 0 →
    ∀ p ∈ [((0x01 : Nat), Instr.add i), (0x02, .sub i), (0x03, .mul i), (0x04, .mulh i), (0x05, .div i), (0x06, .rem i), (0x07, .and i),
        (0x08, .or i), (0x09, .xor i), (0x0A, .sll i), (0x0B, .srl i), (0x0C, .sra i), (0x0D, .slt i), (0x0E, .sltu i)],
      fetched p.1 i s → ∃ t, Does p.2 s t ∧ ∀ n, t.sreg i.core.val i.strand.val n = s.sreg i.core.val i.strand.val n

/-- The scalar integer arithmetic. -/
def Obligations.ScalarArithmetic : Prop := Claims.ScalarIntegerResults ∧ Claims.ScalarDivisionResults ∧ Claims.ScalarRegisterZero


/-- NOP, LI, RDID, RDCYC and RDTEMP (Table 8.8). -/
def Sys2Proof.Claims.ScalarMovesAndReads : Prop :=
  ∀ (i : Issue) (s : State), ready i s →
    let d := fun (v : Nat) => (went i s).wd i v
    let c := i.core.val
    (unusedZero i false false false 0 0 = true → Runs 0x00 i (.nop i) s (went i s)) ∧
    (unusedZero i true false false 0 32 = true → Runs 0x0F i (.li i) s (d (wrapInt 64 (signedOf 32 i.imm.toNat)))) ∧
    (unusedZero i true true false 1 32 = true → i.mod = 1 → Runs 0x0F i (.li i) s (d (s.ra i % 2 ^ 32 + i.imm.toNat * 2 ^ 32))) ∧
    (unusedZero i true false false 0 0 = true → Runs 0x2F i (.rdcyc i) s (d i.cyc) ∧
      Runs 0x30 i (.rdtemp i) s (d (wrapInt 64 (signedOf 16 (wrapInt 16 (Tab.get 0 s.power.dies (c / 32))))))) ∧
    (unusedZero i true false false 0 32 = true →
      (i.imm = 0 → Runs 0x2E i (.rdid i) s (d s.pick.work)) ∧
      (i.imm = 1 → Runs 0x2E i (.rdid i) s (d c)) ∧
      (i.imm = 2 → Runs 0x2E i (.rdid i) s (d (s.fld F.DEVICE_DEV_NUM 0))) ∧
      (i.imm = 3 → Runs 0x2E i (.rdid i) s (d ((s.core c).task.getD 0))) ∧
      (i.imm = 4 → Runs 0x2E i (.rdid i) s (d (s.core c).part)) ∧
      (i.imm = 5 → Runs 0x2E i (.rdid i) s (d i.strand.val)))

/-- The branches (Table 8.8): a branch that is taken goes to its own address plus 8 times IMM, one that is not to the next instruction;
JAL and JALR write the address of the next instruction, JALR jumps from sa as it stood. -/
def Sys2Proof.Claims.BranchTargets : Prop :=
  ∀ (i : Issue) (s : State), ready i s →
    let a := s.ra i
    let b := s.rb i
    let jumps := fun (op : Nat) (k : Instr) (taken : Prop) => fetched op i s → ∃ t, Does k s t ∧
      (taken → pcOf i t = wrapInt 64 ((pcOf i s : Int) + 8 * signedOf 32 i.imm.toNat)) ∧ (¬taken → pcOf i t = (pcOf i s + 8) % 2 ^ 64) ∧
      ∀ n, t.sreg i.core.val i.strand.val n = s.sreg i.core.val i.strand.val n
    (unusedZero i false true true 0 32 = true →
      jumps 0x15 (.beq i) (a = b) ∧ jumps 0x16 (.bne i) (a ≠ b) ∧ jumps 0x17 (.blt i) (signedOf 64 a < signedOf 64 b) ∧
        jumps 0x18 (.bge i) (signedOf 64 b ≤ signedOf 64 a) ∧ jumps 0x19 (.bltu i) (a < b) ∧ jumps 0x1A (.bgeu i) (b ≤ a)) ∧
    (unusedZero i true false false 0 32 = true →
      fetched 0x1B i s → ∃ t, Does (.jal i) s t ∧ pcOf i t = wrapInt 64 ((pcOf i s : Int) + 8 * signedOf 32 i.imm.toNat) ∧
        (i.d ≠ 0 → t.sreg i.core.val i.strand.val i.d.val = (pcOf i s + 8) % 2 ^ 64) ∧
        ∀ n, n ≠ i.d.val → t.sreg i.core.val i.strand.val n = s.sreg i.core.val i.strand.val n) ∧
    (unusedZero i true true false 0 32 = true →
      fetched 0x1C i s → ∃ t, Does (.jalr i) s t ∧ pcOf i t = wrapInt 64 ((a : Int) + 8 * signedOf 32 i.imm.toNat) ∧
        (i.d ≠ 0 → t.sreg i.core.val i.strand.val i.d.val = (pcOf i s + 8) % 2 ^ 64) ∧
        ∀ n, n ≠ i.d.val → t.sreg i.core.val i.strand.val n = s.sreg i.core.val i.strand.val n)

/-- Moves, reads of counters, and branches. -/
def Obligations.ScalarMovesAndBranches : Prop := Claims.ScalarMovesAndReads ∧ Claims.BranchTargets


/-- Scalar floating point (R196, R238): the exact value of the sources, rounded once to sd; SFCMP writes 1 or 0. -/
def Obligations.ScalarFloatResults : Prop :=
  ∀ (i : Issue) (s : State), ready i s →
    let c := i.core.val
    let t := i.strand.val
    let x := decodeVal (vFa i) (vFracA i) (s.ra i)
    let y := decodeVal (vFb i) (vFracA i) (s.rb i)
    let z := decodeVal (ccbFmt (vCcb i)) (vFracD i) (s.sreg c t i.d.val)
    let d := fun (v : Val) =>
      ((went i s).wd i (roundCcb (vCcb i) (vFracD i) (s.srU c t 0) v).bits).srDone c t (ccbRm (vCcb i))
    (sfUnused i true false = true → sfOk i true false = true →
      Runs 0x20 i (.sfadd i) s (d (Val.add 0 x y)) ∧ Runs 0x21 i (.sfsub i) s (d (Val.sub 0 x y)) ∧ Runs 0x22 i (.sfmul i) s (d (Val.mul x y)) ∧
        Runs 0x23 i (.sfma i) s (d (Val.add 0 (Val.mul x y) z)) ∧ Runs 0x24 i (.sfdiv i) s (d (Val.div x y))) ∧
    (sfUnused i false false = true → sfOk i false false = true →
      Runs 0x25 i (.sfsqrt i) s (d (Val.sqrt x)) ∧ Runs 0x26 i (.sfcvt i) s (d x)) ∧
    (sfUnused i true true = true → sfOk i true true = true →
      Runs 0x27 i (.sfcmp i) s (((went i s).wd i (if condHolds (vSub i) (Val.cmp x y) then 1 else 0)).srDone c t (ccbRm (vCcb i))))

/-- LD, LDV and ST (R202, Table 8.8): an aligned access within the own spool window reaches the bytes at sa + IMM, and a store changes no other
byte of memory; one of a register page is a register access by the strand; any other is counted, a load reads 0 and a store is dropped. -/
def Sys2Proof.Claims.StrandWindowLoadsAndStores : Prop :=
  ∀ (i : Issue) (s : State), ready i s → i.spl = [] →
    let c := i.core.val
    let w := accWidth i
    let a := s.ea i
    let u := went i s
    let acc := u.accessOf (.strand i.core)
    (unusedZero i true true false 3 32 = true → ∀ p ∈ [((0x10 : Nat), Instr.ld i), (0x12, .ldv i)],
      (a % w = 0 → inWindow c a w = true → i.d ≠ 0 → fetched p.1 i s →
        ∃ t, Does p.2 s t ∧ t.sreg c i.strand.val i.d.val = loadValue i (leNat (s.windowRead c a w).1) % 2 ^ 64 ∧ t.mem = s.mem) ∧
      (a % w = 0 → inWindow c a w = false → regionOf a = .page →
        Runs p.1 i p.2 s ((u.regRead acc a w).1.wd i (loadValue i (u.regRead acc a w).2))) ∧
      ((a % w ≠ 0 ∨ (inWindow c a w = false ∧ regionOf a ≠ .page)) → Runs p.1 i p.2 s ((u.scalarOow c a w false).wd i 0))) ∧
    (unusedZero i false true true 3 32 = true →
      (a % w = 0 → inWindow c a w = true → fetched 0x11 i s →
        ∃ t, Does (.st i) s t ∧ (memWf s.mem = true → memRead t.mem (s.place a) w = toLe w (s.rb i)) ∧
          ∀ x, (x < s.place a ∨ s.place a + w ≤ x) → memGet t.mem x = memGet s.mem x) ∧
      (a % w = 0 → inWindow c a w = false → regionOf a = .page → Runs 0x11 i (.st i) s (u.regWrite acc a w (s.rb i % 2 ^ (8 * w)))) ∧
      ((a % w ≠ 0 ∨ (inWindow c a w = false ∧ regionOf a ≠ .page)) → Runs 0x11 i (.st i) s (u.scalarOow c a w true)))

/-- LDP and STP (Table 8.8) reach a register page as a 32-bit access by the strand; any other address counts in STR_OOW, and LDP reads 0. -/
def Sys2Proof.Claims.StrandPageAccess : Prop :=
  ∀ (i : Issue) (s : State), ready i s →
    let c := i.core.val
    let u := went i s
    let r := u.regRead (u.accessOf (.strand i.core)) (s.ea i) 4
    (pageWord (s.ea i) = true →
      (unusedZero i true true false 0 32 = true → Runs 0x13 i (.ldp i) s (r.1.wd i r.2)) ∧
      (unusedZero i false true true 0 32 = true →
        Runs 0x14 i (.stp i) s (u.regWrite (u.accessOf (.strand i.core)) (s.ea i) 4 (s.rb i % 2 ^ 32)))) ∧
    (pageWord (s.ea i) = false →
      (unusedZero i true true false 0 32 = true → Runs 0x13 i (.ldp i) s ((u.addSat F.CORE_STR_OOW c 1).wd i 0)) ∧
      (unusedZero i false true true 0 32 = true → Runs 0x14 i (.stp i) s (u.addSat F.CORE_STR_OOW c 1)))

/-- A strand's loads and stores. -/
def Obligations.StrandMemoryAccess : Prop := Claims.StrandWindowLoadsAndStores ∧ Claims.StrandPageAccess


/-- SPAWN, END and the waits (R227, R228, R229, R231, R234): a spawned strand runs at pc + 8 × IMM and owns the units named; an ended one
stops; a wait that is satisfied passes, one that is not stops the strand until STRAND_WAIT_RELEASE. -/
def Sys2Proof.Claims.StrandControl : Prop :=
  ∀ (i : Issue) (s : State), ready i s →
    let c := i.core.val
    let t := i.strand.val
    let g := modBits i 4 3
    (s.spawnOk i = true → (s.strand c g).st ≠ .running →
      fetched 0x28 i s → ∃ u, Does (.spawn i) s u ∧ (u.strand c g).st = .running ∧
        (u.strand c g).pc = wrapInt 64 ((pcOf i s : Int) + 8 * signedOf 32 i.imm.toNat) ∧ u.sreg c g 1 = s.ra i % 2 ^ 64 ∧
        u.sreg c g 2 = s.pick.work % 2 ^ 64 ∧ u.sreg c g 3 = c ∧ (u.strand c g).chain = (t, (s.strand c t).inst) :: (s.strand c t).chain ∧
        pcOf i u = (pcOf i s + 8) % 2 ^ 64 ∧ ∀ n ∈ spawnUnits i, u.owns c g n = true) ∧
    (s.spawnOk i = true → (s.strand c g).st = .running → Runs 0x28 i (.spawn i) s (s.setStrand c t { s.strand c t with wait := some (.spawn, i) })) ∧
    (unusedZero i false false false 0 0 = true → fetched 0x29 i s →
      ∃ u, Does (.endStrand i) s u ∧ (u.strand c t).st = .ended ∧ u.mem = s.mem ∧ (∀ n, u.owns c t n = false) ∧
        ∀ n p, s.owns c t n = true → u.heir c t = some p → u.owns c p n = true) ∧
    (unusedZero i false false false 6 32 = true → (s.waitMet .sync i = true → Runs 0x2A i (.sync i) s (went i s)) ∧
      (s.waitMet .sync i = false → Runs 0x2A i (.sync i) s (s.setStrand c t { s.strand c t with wait := some (.sync, i) }))) ∧
    (unusedZero i false true false 0 4 = true → (s.waitMet .waits i = true → Runs 0x2B i (.waits i) s (went i s)) ∧
      (s.waitMet .waits i = false → Runs 0x2B i (.waits i) s (s.setStrand c t { s.strand c t with wait := some (.waits, i) }))) ∧
    (unusedZero i false true true 0 0 = true → s.ra i % 8 = 0 → inWindow c (s.ra i) 8 = true →
      (s.waitMet .sigwait i = true → Runs 0x2D i (.sigwait i) s (went i s)) ∧
      (s.waitMet .sigwait i = false → Runs 0x2D i (.sigwait i) s (s.setStrand c t { s.strand c t with wait := some (.sigwait, i) }))) ∧
    (unusedZero i false true false 0 4 = true →
      fetched 0x2C i s → ∃ u, Does (.rels i) s u ∧ (Tab.get ({} : Stream) (u.core c).streams (immBits i 0 4)).released =
        max (Tab.get ({} : Stream) (s.core c).streams (immBits i 0 4)).released (s.ra i % 2 ^ 32))

/-- A strand whose wait is satisfied goes on at STRAND_WAIT_RELEASE, a waiting SPAWN with its strand started; one whose wait is not stays as it
was (R227, R229). -/
def Sys2Proof.Claims.StrandWaitEnds : Prop :=
  ∀ (i : Issue) (op : WaitOp) (s : State),
    let c := i.core.val
    let t := i.strand.val
    let g := modBits i 4 3
    i.ecc = {} → (s.strand c t).st = .running → (s.strand c t).wait = some (op, i) → fetched op.code i s →
    (s.waitMet op i = false → Does (.strandWaitRelease i.core i.strand) s s) ∧
    (s.waitMet op i = true → op ≠ .spawn → ∃ u, Does (.strandWaitRelease i.core i.strand) s u ∧
      (u.strand c t).wait = none ∧ pcOf i u = (pcOf i s + 8) % 2 ^ 64 ∧ ∀ n, u.sreg c t n = s.sreg c t n) ∧
    (s.waitMet op i = true → op = .spawn → g ≠ t → ∃ u, Does (.strandWaitRelease i.core i.strand) s u ∧
      (u.strand c t).wait = none ∧ pcOf i u = (pcOf i s + 8) % 2 ^ 64 ∧ (u.strand c g).st = .running ∧
      (u.strand c g).pc = wrapInt 64 ((pcOf i s : Int) + 8 * signedOf 32 i.imm.toNat))

/-- Strands started, stopped and waiting. -/
def Obligations.StrandControlAndWaits : Prop := Claims.StrandControl ∧ Claims.StrandWaitEnds


/-- INSTRUCTION_FETCH (R239, R245): a running strand without an instruction takes the 64-bit word at IMG_BASE + pc; a word whose opcode is not
listed executes as NOP and counts in STR_RSVD; where the word cannot be fetched, or is poisoned, the strand ends and STR_FETCH_ERR counts. -/
def Sys2Proof.Claims.InstructionFetchResult : Prop :=
  ∀ (core : Fin 512) (strand : Fin 8) (s : State),
    let c := core.val
    let x := s.strand c strand.val
    let a := (s.fld F.CORE_IMG_BASE_LO c * 8 + s.fld F.CORE_IMG_BASE_HI c * 2 ^ 32 + x.pc) % 2 ^ 64
    let who := some (s.core c).part
    let r := s.readMem who a 8
    let k := Instr.instructionFetch core strand {}
    let ok := a % 8 = 0 ∧ a < 2 ^ 48 ∧ r.acs.st = 0 ∧ r.poison = []
    x.st = .running → x.ir = none → x.wait = none → s.accWaits false a 8 = false →
    (ok → listedOp (leNat r.data / 2 ^ 56) = true →
      ∃ t, Does k s t ∧ (t.strand c strand.val).ir = some (leNat r.data) ∧ (t.strand c strand.val).pc = x.pc ∧ t.mem = s.mem) ∧
    (ok → listedOp (leNat r.data / 2 ^ 56) = false →
      ∃ t, Does k s t ∧ (t.strand c strand.val).ir = none ∧ (t.strand c strand.val).pc = (x.pc + 8) % 2 ^ 64 ∧
        Counts F.CORE_STR_RSVD c 1 s t ∧ t.mem = s.mem) ∧
    ((a % 8 ≠ 0 ∨ 2 ^ 48 ≤ a ∨ r.acs.st = 1 ∨ r.acs.st = 2 ∨ r.poison ≠ []) →
      ∃ t, Does k s t ∧ (t.strand c strand.val).st = .ended ∧ Counts F.CORE_STR_FETCH_ERR c 1 s t)

/-- FETCH (R232): the descriptor at spool address sa joins the queue of its stream. -/
def Sys2Proof.Claims.FetchJoinsStream : Prop :=
  ∀ (i : Issue) (s : State) (b : List Byte), ready i s → i.spl = [] → s.fetchFull i.core.val = false → unusedZero i false true false 0 0 = true →
    (went i s).descRead i.core.val (s.ra i) 32 32 = some (b, false) → (went i s).fdescBad i.core.val b = false → (fdescOf b).lines ≠ 0 →
    fetched 0x31 i s → ∃ t, Does (.fetch i) s t ∧
      (Tab.get ({} : Stream) (t.core i.core.val).streams (bitsOf (leNat ((b.drop 30).take 1)) 0 4)).queue =
        (Tab.get ({} : Stream) (s.core i.core.val).streams (bitsOf (leNat ((b.drop 30).take 1)) 0 4)).queue ++
          [{ fdescOf b with strand := i.strand.val }]

/-- RA_LINE_ISSUE (R233, R235): a matrix read of the matrix-vector path takes the free slot before any stream; else the next stream's next line
does, with a GET for each source row that a line of another device spans; with every slot in use RA_FULL counts; with nothing to issue
nothing happens. -/
def Sys2Proof.Claims.RunAheadIssue : Prop :=
  ∀ (core : Fin 512) (s : State),
    let c := core.val
    let m := s.core c
    (∀ (j : MvJob) (r : Nat × Nat) (rest : List (Nat × Nat)) (slot : Nat), m.mvp = some j → j.reads = r :: rest → m.freeSlot = some slot →
      ∃ t, Does (.raLineIssue core) s t ∧ (t.core c).mvp = some { j with reads := rest, out := j.out + 1 } ∧
        ((Tab.get? (t.core c).slots slot).map fun x => (x.src, x.mv)) = some (r.1, some r.2) ∧ (t.core c).streams = m.streams) ∧
    ((∀ j, m.mvp = some j → j.reads = []) →
      (∀ (k slot : Nat), m.nextStream = some k → m.freeSlot = some slot →
        let x := Tab.get ({} : Stream) m.streams k
        let d := x.queue.getD (x.nextDesc.getD 0) {}
        ∃ t, Does (.raLineIssue core) s t ∧ (t.core c).lastStream = k ∧
          ((Tab.get? (t.core c).slots slot).map fun r => (r.stream, r.line, r.dst, r.parts.length)) =
            some (k, x.issued, d.lineDst d.next x.issued, if d.dev = s.ownDev then 0 else (d.lineSrc d.next).length) ∧
          (Tab.get ({} : Stream) (t.core c).streams k).issued = (x.issued + 1) % 2 ^ 32 ∧ t.mem = s.mem) ∧
      (∀ (k : Nat), m.nextStream = some k → m.freeSlot = none → Does (.raLineIssue core) s (s.addSat F.CORE_RA_FULL c 1)) ∧
      (m.nextStream = none → Does (.raLineIssue core) s s))

/-- RA_LINE_LAND (R233, R236), for a line of a stream: where the reads of a local line do not wait, its data are written at its place in the
window and its slot is free, and LANDED follows a line that lands in its turn; a line of another device lands with the last of its reads, which
leaves the operations issued; a response for a slot that holds no line is dropped. -/
def Sys2Proof.Claims.RunAheadLand : Prop :=
  ∀ (core : Fin 512) (slot part stall : Nat) (s : State),
    let c := core.val
    let k := fun (y : LineResponse) => Instr.raLineLand core slot part stall y
    (Tab.get? (s.core c).slots slot = none → ∀ y, Does (k y) s s) ∧
    ∀ r : RaSlot, Tab.get? (s.core c).slots slot = some r → r.mv = none →
      let x := Tab.get ({} : Stream) (s.core c).streams r.stream
      let d := (s.core c).slotDesc r
      let parts := d.lineSrc ((r.line + 2 ^ 32 - d.first.getD 0) % 2 ^ 32)
      let data := (joinParts (parts.map fun p => let g := s.readMem (some (s.core c).part) p.1 p.2; (g.data, g.poison))).1
      (r.parts = [] → (∀ p ∈ parts, s.accWaits false p.1 p.2 = false) →
        ∃ t, Does (k {}) s t ∧ Tab.get? (t.core c).slots slot = none ∧
          (r.dst % 128 = 0 → inWindow c r.dst data.length = true → memWf s.mem = true → memRead t.mem (s.place r.dst) data.length = data) ∧
          (x.landed = r.line → x.ahead = [] → (Tab.get ({} : Stream) (t.core c).streams r.stream).landed = (r.line + 1) % 2 ^ 32)) ∧
      ∀ (id : Nat) (o : IssuedOp) (y : LineResponse), r.parts = [(id, none)] → Tab.get? s.fab.issued id = some o → part = 0 → y.retries = [] →
        ∃ t, Does (k y) s t ∧ Tab.get? (t.core c).slots slot = none ∧ Tab.get? t.fab.issued id = none

/-- Instruction fetches and the run-ahead engine. -/
def Obligations.FetchAndRunAhead : Prop := 
  Claims.InstructionFetchResult ∧ Claims.FetchJoinsStream ∧ Claims.RunAheadIssue ∧ Claims.RunAheadLand


/-- RMO and RACCU (R341): the 64-byte descriptor at sa is issued as a remote operation of the strand, RACCU's as an unordered ACC. -/
def Obligations.RemoteOperationIssue : Prop :=
  ∀ (i : Issue) (s : State) (b : List Byte), ready i s → i.spl = [] → s.rmoFull i.core.val = false → unusedZero i false true false 0 0 = true →
    (went i s).descRead i.core.val (s.ra i) 64 64 = some (b, false) →
    ((went i s).opBad { opDescOf b with unord := false } = false →
      Runs 0x32 i (.rmo i) s ((went i s).coreOp i.core.val i.strand.val { opDescOf b with unord := false })) ∧
    ((opDescOf b).op = 2 → (went i s).opBad { opDescOf b with unord := true } = false →
      Runs 0x33 i (.raccu i) s ((went i s).coreOp i.core.val i.strand.val { opDescOf b with unord := true }))

/-- An instruction of the strand engine that moves no data changes no memory, no register field but its counters and events, and no other
strand (the frame of R237, R239). -/
def Obligations.ScalarInstructionFrame : Prop :=
  ∀ (i : Issue) (s t : State),
    ∀ k ∈ [Instr.nop i, .add i, .sub i, .mul i, .mulh i, .div i, .rem i, .and i, .or i, .xor i, .sll i, .srl i, .sra i, .slt i, .sltu i, .li i,
        .beq i, .bne i, .blt i, .bge i, .bltu i, .bgeu i, .jal i, .jalr i, .sfadd i, .sfsub i, .sfmul i, .sfma i, .sfdiv i, .sfsqrt i, .sfcvt i,
        .sfcmp i, .rdid i, .rdcyc i, .rdtemp i],
      Does k s t →
        t.mem = s.mem ∧ t.poison = s.poison ∧ t.nor = s.nor ∧ t.host.mem = s.host.mem ∧ t.shadow = s.shadow ∧ t.armed = s.armed ∧
        t.pick.num = s.pick.num ∧ t.pick.work = s.pick.work ∧ t.solvers = s.solvers ∧ t.cellar = s.cellar ∧ t.upd = s.upd ∧ t.fab = s.fab ∧
        t.links = s.links ∧ t.colls = s.colls ∧ t.field = s.field ∧ t.power = s.power ∧
        (∀ c, c ≠ i.core.val → t.core c = s.core c) ∧
        (∀ n, n ≠ i.strand.val → t.strand i.core.val n = s.strand i.core.val n) ∧
        (∀ n, n ≠ i.d.val → t.sreg i.core.val i.strand.val n = s.sreg i.core.val i.strand.val n) ∧
        (t.core i.core.val).owner = (s.core i.core.val).owner ∧ (t.core i.core.val).arr = (s.core i.core.val).arr ∧
        (t.core i.core.val).v = (s.core i.core.val).v

/-- An uncorrectable error of the instruction's own storage makes the device vote LATE with reason FAULT, and is counted in STR_ECC
(R246). -/
def Obligations.StorageErrorFaults : Prop :=
  ∀ (i : Issue) (s : State), (s.strand i.core.val i.strand.val).st = .running → (s.strand i.core.val i.strand.val).wait = none →
    i.ecc.uncorr ≠ 0 →
    ∀ p ∈ [((0x00 : Nat), Instr.nop i), (0x01, .add i), (0x02, .sub i), (0x03, .mul i), (0x07, .and i), (0x08, .or i), (0x09, .xor i), (0x0F, .li i),
        (0x15, .beq i), (0x1B, .jal i), (0x2F, .rdcyc i)],
      fetched p.1 i s → ∃ t, Does p.2 s t ∧ bitOf t.pick.causes 2 = true ∧ Counts F.CORE_STR_ECC_UNCORR i.core.val i.ecc.uncorr s t
/-! ### Arrays and the matrix-vector path -/

/-- WLOAD and its edge form (R144, R149, R240): the load joins the array's loader, and a later pass sees its format. -/
def Sys2Proof.Claims.ArrayLoadJoinsLoader : Prop :=
  ∀ (i : Issue) (s : State), ready i s →
    let c := i.core.val
    let n := modBits i 0 1
    let edge := bitOf i.mod.val 1
    let tr := bitOf i.mod.val 2
    (s.arr c n).waiting < 8 → unusedZero i false true (!(edge && tr)) 3 10 = true → s.owns c i.strand.val (1 + n) = true →
    arrayFmt (immBits i 0 4) = true → fracOk (immBits i 0 4) (immBits i 4 6) = true →
    fetched 0x38 i s → ∀ k ∈ [Instr.wload i, .edgeLoad i], ∃ t, Does k s t ∧
      (t.arr c n).loader.length = (s.arr c n).loader.length + 1 ∧
      (((t.arr c n).loader.getLast?.map fun j => (j.base, j.fmt, j.frac, j.edge, j.transpose)) =
        some (s.ra i, immBits i 0 4, immBits i 4 6, edge, tr)) ∧
      (edge = false → (t.arr c n).ordShadow = some (immBits i 0 4)) ∧ (edge = true → (t.arr c n).ordEdge = some (immBits i 0 4)) ∧
      t.mem = s.mem

/-- WLOAD_COMPLETE (R144, R149): the load that has written its last element leaves the loader; before that cycle nothing happens. -/
def Sys2Proof.Claims.ArrayLoadCompletes : Prop :=
  ∀ (core : Fin 512) (arr : Fin 2) (cyc st : Nat) (s : State) (j : LoadJob) (rest : List LoadJob),
    (s.arr core.val arr.val).loader = j :: rest → j.start = some st →
    (st + j.cycles ≤ cyc + 1 → ∃ t, Does (.wloadComplete core arr cyc) s t ∧ (t.arr core.val arr.val).loader.length = rest.length ∧
      (t.arr core.val arr.val).loaderFree = st + j.cycles ∧
      (t.arr core.val arr.val).edge = if j.edge then some j.data else (s.arr core.val arr.val).edge) ∧
    (cyc + 1 < st + j.cycles → Does (.wloadComplete core arr cyc) s s)

/-- Loads of the array. -/
def Obligations.ArrayLoads : Prop := Claims.ArrayLoadJoinsLoader ∧ Claims.ArrayLoadCompletes


/-- APASS and APASSV (R140, R146, R241): a pass that is no reserved encoding joins the array's queue as its block and its epilogue descriptor
spell it; a reserved one changes no warp and no vat row and counts in ARR_RSVD_CNT. -/
def Sys2Proof.Claims.ArrayPassJoinsQueue : Prop :=
  ∀ (i : Issue) (s : State) (b : List Byte) (epi : Option EpiDesc), ready i s → i.spl = [] →
    let c := i.core.val
    let n := modBits i 0 1
    let x := s.arr c n
    let warp := if isSwap (passOf b).warpOp then x.ordShadow else x.ordActive
    x.waiting < 8 → x.unwritten x.order (s.ra i) 64 = false → unusedZero i false true false 1 0 = true → s.owns c i.strand.val (1 + n) = true →
    (went i s).descRead c (s.ra i) 64 64 = some (b, false) → passReservedZero b = true →
    (epi = none → fieldOf b 32 6 = 0) →
    (∀ e, epi = some e → fieldOf b 32 6 ≠ 0 ∧ (went i s).epiRead c (fieldOf b 32 6) = some (e, false)) →
    ∀ p ∈ [((0x39 : Nat), Instr.apass i), (0x3A, .apassv i)],
      (x.passOk (passOf b) = true → fetched p.1 i s → ∃ t, Does p.2 s t ∧
        (t.arr c n).passes.getLast? =
          some { passOf b with id := x.nextId, strand := i.strand.val, order := x.order, epi := epi, wfmt := warp.getD 0 } ∧
        (t.arr c n).live = x.live ++ [(x.nextId, i.strand.val)] ∧ (t.arr c n).ordActive = warp ∧ t.mem = s.mem) ∧
      (x.passOk (passOf b) = false → fetched p.1 i s → ∃ t, Does p.2 s t ∧ Counts F.CORE_ARR_RSVD_CNT c 1 s t ∧
        (t.arr c n).active = x.active ∧ (t.arr c n).shadow = x.shadow ∧ (t.arr c n).vat = x.vat ∧ t.mem = s.mem)

/-- BEAT_RELEASE (R137 to R139): the front end first reads the weft vectors that the command says; where the queue heads do not hold the beat's
vector a bubble counts, where a rule holds the beat back a hold counts, and otherwise one beat enters the array: it counts in BEATS, the row
clocks run, and the next one may follow a cycle later. With no pass to release, or in the cycle of another release, nothing happens. -/
def Sys2Proof.Claims.ArrayBeatRelease : Prop :=
  ∀ (core : Fin 512) (arr : Fin 2) (cyc reads : Nat) (s : State),
    let c := core.val
    let n := arr.val
    let k := Instr.beatRelease core arr cyc reads {}
    let u := s.readWefts c n reads
    let x := u.arr c n
    (((s.arr c n).releasing = none ∨ cyc < (s.arr c n).relFree) → Does k s s) ∧
    ∀ p0, (s.arr c n).releasing = some p0 → (s.arr c n).relFree ≤ cyc →
      let p := x.releasing.getD p0
      (x.headFor p = none → Does k s (u.addSat (ofArr n F.CORE_A0_BUBBLES F.CORE_A1_BUBBLES) c 1)) ∧
      ∀ v, x.headFor p = some v →
        (x.held p cyc = true → Does k s (u.addSat (ofArr n F.CORE_A0_HOLD F.CORE_A1_HOLD) c 1)) ∧
        (x.held p cyc = false → ∃ t, Does k s t ∧ (t.arr c n).flights.length = x.flights.length + 1 ∧ (t.arr c n).relFree = cyc + 1 ∧
          t.fld (ofArr n F.CORE_A0_BEATS F.CORE_A1_BEATS) c =
            (u.fld (ofArr n F.CORE_A0_BEATS F.CORE_A1_BEATS) c + 1) % 2 ^ (ofArr n F.CORE_A0_BEATS F.CORE_A1_BEATS).w ∧
          t.fld (ofArr n F.CORE_ARR_STAT_A0_ROWS_ON F.CORE_ARR_STAT_A1_ROWS_ON) c = 1 ∧ t.mem = u.mem)

/-- ROW_CLOCK_STOP (R154) and VAT_ROW_COMPLETE (R142): in ramp mode the row clocks stop after IDLE_THRESH cycles; the musts of the oldest
vector are added 68 cycles after its last beat, not before. -/
def Sys2Proof.Claims.ArrayClocksAndVat : Prop :=
  (∀ (core : Fin 512) (arr : Fin 2) (cyc : Nat) (s : State),
    let c := core.val
    let n := arr.val
    let stops := s.flag F.CORE_ARR_CTL_GATE_MODE c = true ∧ (s.arr c n).relFree + s.fld F.CORE_ARR_CTL_IDLE_THRESH c ≤ cyc + 1
    (stops → Does (.rowClockStop core arr cyc) s (s.setFld (ofArr n F.CORE_ARR_STAT_A0_ROWS_ON F.CORE_ARR_STAT_A1_ROWS_ON) c 0)) ∧
    (¬stops → Does (.rowClockStop core arr cyc) s s)) ∧
  ∀ (core : Fin 512) (arr : Fin 2) (cyc : Nat) (s : State) (l : Flight),
    let c := core.val
    let n := arr.val
    let v := takeVector (s.arr c n).flights
    v.1.getLast? = some l → l.last = true →
    (l.rel + 68 ≤ cyc → ∃ t, Does (.vatRowComplete core arr cyc {}) s t ∧ (t.arr c n).flights = v.2 ∧
      (t.arr c n).vat = v.1.foldl addBeat (s.arr c n).vat ∧ t.mem = s.mem) ∧
    (cyc < l.rel + 68 → Does (.vatRowComplete core arr cyc {}) s s)

/-- EPILOGUE_DRAIN (R146, R185, R378): a destination that cannot accept, and a tile whose chunk waits for slots, count a stall and nothing moves;
otherwise one row drains: a row that the pass addressed returns to the initial state, the 64th row ends the drain, and a reserved pass has a row
of zeros fewer to write. With nothing to drain nothing happens. -/
def Sys2Proof.Claims.EpilogueDrainsOneRow : Prop :=
  ∀ (core : Fin 512) (arr : Fin 2) (cyc : Nat) (accept : Bool) (s : State),
    let c := core.val
    let n := arr.val
    let k := Instr.epilogueDrain core arr cyc accept {}
    ((s.arr c n).drains = [] → Does k s s) ∧
    ∀ (d : Drain) (rest : List Drain), (s.arr c n).drains = d :: rest →
      let chunk := if d.epi.dest = 5 ∧ d.row = 63 then s.tileWaits d.epi.heddle ((d.epi.tileSeq + d.tile) % 2 ^ 32) else none
      (chunk = none → s.canAccept c n d accept = false → Does k s (s.addSat F.CORE_EPI_STALL c 1)) ∧
      (∀ q, chunk = some q → Does k s ((s.addSat F.CORE_EPI_STALL c 1).addSat F.COLL_TILE_WAIT q 1)) ∧
      (chunk = none → s.canAccept c n d accept = true →
        (d.zero = false → d.row ≠ 63 → ∃ t, Does k s t ∧
          (((t.arr c n).drains.head?.map fun x => (x.pass, x.row)) = some (d.pass, d.row + 1)) ∧
          (d.row < d.rows → ∀ col < 64, Tab.get? (t.arr c n).vat (vatKey d.bank d.row col) = none) ∧
          (d.rows ≤ d.row → (t.arr c n).vat = (s.arr c n).vat ∧ t.mem = s.mem)) ∧
        (d.zero = false → d.row = 63 → d.epi.dest ≠ 5 → ∃ t, Does k s t ∧ (t.arr c n).drains = rest ∧
          (d.last = true → ∀ e ∈ (t.arr c n).live, e.1 ≠ d.pass) ∧
          (d.row < d.rows → ∀ col < 64, Tab.get? (t.arr c n).vat (vatKey d.bank d.row col) = none)) ∧
        (d.zero = true → d.row + 1 < d.rows → ∃ t, Does k s t ∧ (t.arr c n).drains = { d with row := d.row + 1 } :: rest ∧
          (t.arr c n).vat = (s.arr c n).vat) ∧
        (d.zero = true → d.rows ≤ d.row + 1 → ∃ t, Does k s t ∧ (t.arr c n).drains = rest ∧ (t.arr c n).vat = (s.arr c n).vat))

/-- Beats, clocks, the vat and the epilogue. -/
def Obligations.ArrayBeatsAndEpilogue : Prop := Claims.ArrayBeatRelease ∧ Claims.ArrayClocksAndVat ∧ Claims.EpilogueDrainsOneRow


/-- MV, MVT, RESID and CSR (R156, R159, R242): a command of a strand that owns the path joins the path's queue; with the path free it begins to
read its matrix, or has its result at once where there is none to read; while a solver engine holds the path, or another command runs, it
waits; with four commands in the queue the strand issues none. -/
def Sys2Proof.Claims.MatrixVectorCommands : Prop :=
  ∀ (i : Issue) (s : State), ready i s → i.spl = [] →
    let c := i.core.val
    let u := went i s
    let q := (s.core c).mvpQueue
    ∀ k ∈ [Instr.mv i, .mvt i, .resid i, .csr i],
      (4 ≤ q.length → Does k s s) ∧
      (q.length < 4 → unusedZero i false true false 0 0 = true → s.owns c i.strand.val 3 = true → fetched 0x3B i s →
        ((s.core c).mvpHolder.isSome = true →
          Does k s (u.setCore c { u.core c with mvpQueue := q ++ [(i.strand.val, i, s.ra i)], mvpWait := some ((s.core c).mvpWait.getD i.cyc) })) ∧
        ((s.core c).mvpHolder = none → (s.core c).mvpWait = none → (s.core c).mvp.isSome = true →
          Does k s (u.setCore c { u.core c with mvpQueue := q ++ [(i.strand.val, i, s.ra i)] })) ∧
        ∀ l, (s.core c).mvpHolder = none → (s.core c).mvpWait = none → (s.core c).mvp = none → q = [] →
          u.descRead c (s.ra i) 96 32 = some (l, false) → mvReservedZero l = true → (mvBlockOf l).ok = true →
          let m := mvBlockOf l
          let reads := if m.kind = 3 then linePieces m.scale ((m.rows + 1) * 4) else m.lines []
          (reads ≠ [] → ∃ t, Does k s t ∧ (t.core c).mvp = some { strand := i.strand.val, block := l, reads := reads } ∧ (t.core c).mvpQueue = [] ∧
            t.mem = s.mem) ∧
          (m.kind ≠ 3 → reads = [] → ∃ t, Does k s t ∧ (t.core c).mvp = none ∧ (t.core c).mvpQueue = [] ∧
            t.mem = (u.mvRun c m { strand := i.strand.val, block := l, reads := [] }).mem))

/-- RA_LINE_LAND for a line of the matrix (R156, R158, R235), whose read does not wait: its slot is free, MVP_STALL counts the cycles without
matrix data; while other lines are on their way nothing else of the command happens, and with the last one the command has its result. -/
def Sys2Proof.Claims.MatrixLineLands : Prop :=
  ∀ (core : Fin 512) (slot n part stall : Nat) (x : LineResponse) (s : State) (r : RaSlot) (j : MvJob),
    let c := core.val
    Tab.get? (s.core c).slots slot = some r → r.mv = some n → x.ecc = [] → x.retries = [] → s.accWaits false r.src n = false →
    (s.core c).mvp = some j →
    ((j.reads ≠ [] ∨ 1 < j.out) →
      ∃ t, Does (.raLineLand core slot part stall x) s t ∧ Tab.get? (t.core c).slots slot = none ∧ Counts F.CORE_MVP_STALL c stall s t ∧
        ((t.core c).mvp.map fun y => (y.block, y.reads, y.out)) = some (j.block, j.reads, j.out - 1) ∧ t.mem = s.mem) ∧
    (j.reads = [] → j.out = 1 → ((mvBlockOf j.block).kind ≠ 3 ∨ j.offsets = true) → (s.core c).mvpQueue = [] →
      ∃ t pz, Does (.raLineLand core slot part stall x) s t ∧ (t.core c).mvp = none ∧
        t.mem = (s.mvRun c (mvBlockOf j.block)
          { j with out := 0, mem := memWrite j.mem r.src (s.readMem (some (s.core c).part) r.src n).data, poison := pz }).mem)

/-- MVP_RESERVATION_END (R23, R159): with no path of the die's cores waiting nothing happens; the path of the one core whose commands wait counts
their cycles in MVP_WAIT and takes them. -/
def Sys2Proof.Claims.ReservationEnd : Prop :=
  ∀ (engine : Fin 16) (cyc : Nat) (s : State),
    let waiting := s.cores.filter fun e => e.1 / 32 == engine.val && e.2.mvpHolder.isNone && e.2.mvpWait.isSome
    (waiting = [] → Does (.mvpReservationEnd engine cyc) s s) ∧
    ∀ c x w, waiting = [(c, x)] → (s.core c).mvpWait = some w →
      let u := s.addSat F.CORE_MVP_WAIT c (cyc - w)
      Does (.mvpReservationEnd engine cyc) s ((u.setCore c { u.core c with mvpWait := none }).mvTry c)

/-- Passes of the array and the matrix-vector path. -/
def Obligations.ArrayPassesAndMatrixVector : Prop := 
  Claims.ArrayPassJoinsQueue ∧ Claims.MatrixVectorCommands ∧ Claims.MatrixLineLands ∧ Claims.ReservationEnd


/-! ### The vector engine -/

namespace Sys2Proof.Claims

/-- The strand may issue, no storage code reports an error, and the strand owns the vector engine (R226). -/
def vready (i : Issue) (s : State) : Prop := ready i s ∧ i.vecc = {} ∧ s.owns i.core.val i.strand.val 0 = true

/-- The vector length. -/
def vlen (i : Issue) (s : State) : Nat := (s.core i.core.val).vl

/-- Every vector operand (register, element bytes) holds `vl` elements, and a pair begins at an even register (R193, R194). -/
def fits (i : Issue) (s : State) (ops : List (Nat × Nat)) : Prop :=
  s.vN i.core.val ops = vlen i s ∧ ops.all (pairOk (vlen i s)) = true

/-- The first `vl` elements of a register, or a scalar in each of them. -/
def elems (i : Issue) (s : State) (r w : Nat) (scalar : Bool) : List (Nat × Bool) := s.vsrc i.core.val i.strand.val r w (vlen i s) scalar

/-- The instruction's next state: elements of `w` bytes, with what they report, written to vd; the key's count where it rounds under SR. -/
def writes (i : Issue) (s : State) (w : Nat) (res : List (Nat × VNote × Bool)) : State := (went i s).vresult i w res
def writesR (i : Issue) (s : State) (w : Nat) (res : List (Nat × VNote × Bool)) : State :=
  (writes i s w res).srDone i.core.val i.strand.val (ccbRm (vCcb i))

end Sys2Proof.Claims

/-- Integer and saturating instructions (R198, Table 7.3), element by element, on the sources sign-extended to the result's width; the amount of a
shift is the whole second source, unsigned, of a scalar register all 64 bits. -/
def Sys2Proof.Claims.VectorIntegerResults : Prop :=
  ∀ (i : Issue) (s : State), vready i s → vintOk i true = true → fits i s (vops2 i (dstBytes i) (fmtBytes (vFa i)) (fmtBytes (vFb i))) →
    let w := dstBytes i
    let n := 8 * w
    let x := fun (a : Nat) => signedOf n (wrapInt n (signedOf (8 * fmtBytes (vFa i)) a))
    let y := fun (b : Nat) => signedOf n (wrapInt n (signedOf (8 * fmtBytes (vFb i)) b))
    let xu := fun (a : Nat) => wrapInt n (signedOf (8 * fmtBytes (vFa i)) a)
    let yu := fun (b : Nat) => wrapInt n (signedOf (8 * fmtBytes (vFb i)) b)
    let a := elems i s i.a.val (fmtBytes (vFa i)) false
    let b := elems i s i.b.val (fmtBytes (vFb i)) (vSb i)
    let gives := fun (op : Nat) (k : Instr) (f : Nat → Nat → Nat × IntNote) =>
      Runs op i k s (writes i s w (zipElems a b fun _ p q => ((f p q).1, (f p q).2.note)))
    let shifts := fun (op : Nat) (k : Instr) (f : Nat → Nat → Nat) =>
      Runs op i k s (writes i s w (zipElems a (elems i s i.b.val (if vSb i then 8 else fmtBytes (vFb i)) (vSb i)) fun _ p q => (f p q, {})))
    gives 0x48 (.vadd i) (fun p q => wrapTo n (x p + y q)) ∧ gives 0x49 (.vsub i) (fun p q => wrapTo n (x p - y q)) ∧
    gives 0x4A (.vmul i) (fun p q => wrapTo n (x p * y q)) ∧
    gives 0x4B (.vdiv i) (fun p q => if yu q % 2 ^ n = 0 then (0, .div0) else wrapTo n ((x p).tdiv (y q))) ∧
    gives 0x4C (.vrem i) (fun p q => if yu q % 2 ^ n = 0 then (xu p % 2 ^ n, .div0)
      else (wrapInt n ((x p).tmod (y q)), if x p = -2 ^ (n - 1) ∧ y q = -1 then .wrap else .none)) ∧
    gives 0x4D (.vand i) (fun p q => (xu p &&& yu q, .none)) ∧ gives 0x4E (.vor i) (fun p q => (xu p ||| yu q, .none)) ∧
    gives 0x4F (.vxor i) (fun p q => (xu p ^^^ yu q, .none)) ∧
    gives 0x54 (.vsadd i) (fun p q => satTo n (x p + y q)) ∧ gives 0x55 (.vssub i) (fun p q => satTo n (x p - y q)) ∧
    gives 0x56 (.vsaddu i) (fun p q => satUTo n ((xu p : Int) + yu q)) ∧ gives 0x57 (.vssubu i) (fun p q => satUTo n ((xu p : Int) - yu q)) ∧
    shifts 0x50 (.vsll i) (fun p q => if n ≤ q then 0 else xu p * 2 ^ q % 2 ^ n) ∧
    shifts 0x51 (.vsrl i) (fun p q => if n ≤ q then 0 else xu p % 2 ^ n / 2 ^ q) ∧
    shifts 0x52 (.vsra i) (fun p q => wrapInt n (x p / 2 ^ min q n))

/-- Fixed-point multiply, shift and narrowing (Table 7.3): the exact result times 2^-K, rounded, then saturated or wrapped. VRSHR takes the amount from
K, or from the second source where FB names an integer format (the model's reading, log entry 23); an amount of the element's width or more,
for which the spec states no result, is not stated here. -/
def Sys2Proof.Claims.VectorFixedPointResults : Prop :=
  ∀ (i : Issue) (s : State), vready i s →
    let w := dstBytes i
    let n := 8 * w
    let wa := fmtBytes (vFa i)
    let wb := fmtBytes (vFb i)
    let a := elems i s i.a.val wa false
    let b := elems i s i.b.val wb (vSb i)
    let rnd := fun (e : Nat) (v : Int) => shiftRound (ccbRm (vCcb i)) (vK i) (s.srU i.core.val i.strand.val e) v
    let fit := fun (sat : Bool) (v : Int) => let r := if sat then satTo n v else wrapTo n v; (r.1, r.2.note)
    (vintOk i true = true → vK i < 16 * w → fits i s (vops2 i w wa wb) →
      Runs 0x59 i (.vmulq i) s (writesR i s w (zipElems a b fun e p q => fit (ccbSat (vCcb i)) (rnd e (signedOf (8 * wa) p * signedOf (8 * wb) q))))) ∧
    (vintOk i false = true → wa = 2 * w → fits i s [(i.d.val, w), (i.a.val, wa)] →
      Runs 0x5A i (.vnsat i) s (writesR i s w (mapElems a fun e p => fit true (rnd e (signedOf (8 * wa) p)))) ∧
      Runs 0x5B i (.vnwrap i) s (writesR i s w (mapElems a fun e p => fit false (rnd e (signedOf (8 * wa) p))))) ∧
    (vintOk i false = true → isInt (vFb i) = false → vK i < n → fits i s [(i.d.val, w), (i.a.val, wa)] →
      Runs 0x58 i (.vrshr i) s (writesR i s w (zipElems a (List.replicate (vlen i s) (vK i, false)) fun e p _ => fit true (rnd e (signedOf (8 * wa) p))))) ∧
    (vintOk i false = true → isInt (vFb i) = true → (∀ x ∈ b, x.1 < n) → fits i s (vops2 i w wa wb) →
      Runs 0x58 i (.vrshr i) s (writesR i s w (zipElems a b fun e p q =>
        fit true (shiftRound (ccbRm (vCcb i)) q (s.srU i.core.val i.strand.val e) (signedOf (8 * wa) p)))))

/-- SETVL, VSRKEY and the moves (R192, R197, R200, R201): VPERM's index is unsigned, VSLIDE moves by the signed amount in sb, VCOMPRESS packs the
flagged elements and counts them. What VPERM and VSLIDE give where the operand has no element there is free (log entries 23, 24). -/
def Sys2Proof.Claims.VectorMoves : Prop :=
  ∀ (i : Issue) (s : State), vready i s →
    let c := i.core.val
    let t := i.strand.val
    let w := dstBytes i
    let wi := fmtBytes (vFb i)
    (unusedZero i true true false 2 0 = true →
      fetched 0x40 i s → ∃ u, Does (.setvl i) s u ∧ (u.core c).vl = min (s.ra i) (2048 / 2 ^ modBits i 0 2) ∧
        (i.d ≠ 0 → u.sreg c t i.d.val = min (s.ra i) (2048 / 2 ^ modBits i 0 2) % 2 ^ 64) ∧ (u.core c).v = (s.core c).v) ∧
    (unusedZero i false true true 0 0 = true →
      fetched 0x41 i s → ∃ u, Does (.vsrkey i) s u ∧ (u.strand c t).key = ⟨s.ra i, s.rb i % 2 ^ 32, 0⟩ ∧ (u.core c).v = (s.core c).v) ∧
    (moveOk i = true →
      (fits i s [(i.d.val, w)] → Runs 0x42 i (.vbcast i) s (writes i s w (List.replicate (vlen i s) (s.ra i % 2 ^ (8 * w), {}, false)))) ∧
      (fits i s (vops2 i w w w) →
        Runs 0x43 i (.vsel i) s (writes i s w (((elems i s i.d.val w false).zip ((elems i s i.a.val w false).zip (elems i s i.b.val w (vSb i)))).map
          fun x => ((if x.1.1 ≠ 0 then x.2.1.1 else x.2.2.1), {}, (if x.1.1 ≠ 0 then x.2.1.2 else x.2.2.2) || x.1.2)))) ∧
      (isInt (vFb i) = true → fits i s (vops2 i w w wi) →
        ∃ free : Nat → Nat, Runs 0x44 i (.vperm i) s (writes i s w ((elems i s i.b.val wi (vSb i)).zipIdx.map fun x =>
          match (s.vsrc c t i.a.val w (vcap (vlen i s) w) false)[x.1.1]? with
          | some y => (y.1, {}, y.2 || x.1.2)
          | none => (free x.2 % 2 ^ (8 * w), {}, x.1.2)))) ∧
      (fits i s [(i.d.val, w), (i.a.val, w)] →
        ∃ free : Nat → Nat, Runs 0x45 i (.vslide i) s (writes i s w ((List.range (vlen i s)).map fun (e : Nat) =>
          let j : Int := if Config.slideUp then e - signedOf 64 (s.rb i) else e + signedOf 64 (s.rb i)
          let y := (elems i s i.a.val w false).getD j.toNat (0, false)
          if 0 ≤ j ∧ j < vlen i s then (y.1, {}, y.2) else (free e % 2 ^ (8 * w), {}, false)))) ∧
      (fits i s [(i.a.val, w)] → s.rb i < vcap (vlen i s) w →
        fetched 0x47 i s → ∃ u, Does (.vextr i) s u ∧ (i.d ≠ 0 → u.sreg c t i.d.val =
          ((s.vsrc c t i.a.val w (vcap (vlen i s) w) false).getD (s.rb i) (0, false)).1 % 2 ^ 64))) ∧
    (ccbOk (vCcb i) = true → i.imm.toNat < 32 → fits i s [(i.d.val, w), (i.a.val, w), (i.b.val, w)] →
      let kept := ((elems i s i.a.val w false).zip (elems i s i.b.val w false)).filter fun x => x.2.1 != 0
      fetched 0x46 i s → ∃ u, Does (.vcompress i) s u ∧ (u.core c).velems i.d.val w kept.length = kept.map (fun x => x.1.1) ∧
        (immBits i 0 5 ≠ 0 → u.sreg c t (immBits i 0 5) = kept.length % 2 ^ 64) ∧ u.mem = s.mem)

/-- Integer, fixed-point and moving vector instructions. -/
def Obligations.VectorIntegerAndMoves : Prop := Claims.VectorIntegerResults ∧ Claims.VectorFixedPointResults ∧ Claims.VectorMoves


/-- Floating-point instructions of two sources (R196, R199): the exact value of every element, rounded once; VCMP writes 1 or 0. -/
def Sys2Proof.Claims.VectorFloatTwoSources : Prop :=
  ∀ (i : Issue) (s : State), vready i s → vfOk i true = true →
    let w := fmtBytes (ccbFmt (vCcb i))
    let wa := fmtBytes (vFa i)
    let wb := fmtBytes (vFb i)
    fits i s (vops2 i w wa wb) →
    let a := elems i s i.a.val wa false
    let b := elems i s i.b.val wb (vSb i)
    let x := fun (p : Nat) => decodeVal (vFa i) (vFracA i) p
    let y := fun (q : Nat) => decodeVal (vFb i) (vFracA i) q
    let z := fun (q : Nat) => decodeVal (ccbFmt (vCcb i)) (vFracD i) q
    let u := fun (e : Nat) => s.srU i.core.val i.strand.val e
    let rnd := fun (e : Nat) (nanIn : Bool) (v : Val) => roundNote (vCcb i) (vFracD i) (u e) nanIn v
    let gives := fun (op : Nat) (k : Instr) (f : Val → Val → Val) (note : Val → Val → VNote) =>
      Runs op i k s (writesR i s w (zipElems a b fun e p q =>
        let r := rnd e (x p == .nan || y q == .nan) (f (x p) (y q)); (r.1, r.2.add (note (x p) (y q)))))
    gives 0x60 (.vfadd i) (fun p q => Val.add 0 p q) (fun _ _ => {}) ∧ gives 0x61 (.vfsub i) (fun p q => Val.sub 0 p q) (fun _ _ => {}) ∧
    gives 0x62 (.vfmul i) (fun p q => Val.mul p q) (fun _ _ => {}) ∧ gives 0x69 (.vfdiv i) (fun p q => Val.div p q) divZero ∧
    gives 0x64 (.vfmin i) (fun p q => Val.pick false p q) (fun _ _ => {}) ∧ gives 0x65 (.vfmax i) (fun p q => Val.pick true p q) (fun _ _ => {}) ∧
    Runs 0x63 i (.vfma i) s (writesR i s w ((a.zip (b.zip (elems i s i.d.val w false))).zipIdx.map fun k =>
      let r := rnd k.2 (x k.1.1.1 == .nan || y k.1.2.1.1 == .nan || z k.1.2.2.1 == .nan) (Val.add 0 (Val.mul (x k.1.1.1) (y k.1.2.1.1)) (z k.1.2.2.1))
      (r.1, r.2, k.1.1.2 || k.1.2.1.2 || k.1.2.2.2))) ∧
    (isInt (ccbFmt (vCcb i)) = true → vSub i ≤ 5 →
      Runs 0x66 i (.vcmp i) s (writesR i s w (zipElems a b fun _ p q => ((if condHolds (vSub i) (Val.cmp (x p) (y q)) then 1 else 0), {}))))

/-- Floating-point instructions of one source and the transcendental functions (R121, R131, R196, Table 7.2): rounded once. -/
def Sys2Proof.Claims.VectorFloatOneSource : Prop :=
  ∀ (i : Issue) (s : State), vready i s → vfOk i false = true →
    let w := fmtBytes (ccbFmt (vCcb i))
    let wa := fmtBytes (vFa i)
    fits i s [(i.d.val, w), (i.a.val, wa)] →
    let a := elems i s i.a.val wa false
    let x := fun (p : Nat) => decodeVal (vFa i) (vFracA i) p
    let u := fun (e : Nat) => s.srU i.core.val i.strand.val e
    let rnd := fun (e : Nat) (nanIn : Bool) (v : Val) => roundNote (vCcb i) (vFracD i) (u e) nanIn v
    let gives := fun (op : Nat) (k : Instr) (f : Val → Val) (note : Val → VNote) =>
      Runs op i k s (writesR i s w (mapElems a fun e p => let r := rnd e (x p == .nan) (f (x p)); (r.1, r.2.add (note (x p)))))
    let fn := fun (op : Nat) (k : Instr) (f : Fn) => fetched op i s → ∃ (t : State) (notes : Nat → Nat → VNote), Does k s t ∧
      t = writesR i s w (mapElems a fun e p => ((f.round (x p) (roundCcb (vCcb i) (vFracD i) (u e))).bits, notes e p))
    gives 0x67 (.vcvt i) (fun p => p) (fun _ => {}) ∧ gives 0x6A (.vfrcp i) (fun p => Val.div Val.one p) (divZero Val.one) ∧
    gives 0x6B (.vfsqrt i) Val.sqrt (fun _ => {}) ∧ gives 0x6C (.vfrsqrt i) Val.rsqrt (divZero Val.one) ∧
    Runs 0x68 i (.vscvt i) s (writesR i s w (mapElems a fun e p =>
      rnd e (x p == .nan || f32 (s.rb i % 2 ^ 32) == .nan) (Val.mul (x p) (f32 (s.rb i % 2 ^ 32))))) ∧
    (vFa i ≠ 5 → ccbFmt (vCcb i) ≠ 5 →
      fn 0x70 (.vexp i) .exp ∧ fn 0x71 (.vexp2 i) .exp2 ∧ fn 0x72 (.vlog i) .log ∧ fn 0x73 (.vlog2 i) .log2 ∧ fn 0x74 (.vtanh i) .tanh ∧ fn 0x75 (.vsigm i) .sigm ∧
        fn 0x76 (.vsilu i) .silu ∧ fn 0x77 (.vgelu i) .gelu)

/-- Floating-point vector instructions. -/
def Obligations.VectorFloatResults : Prop := Claims.VectorFloatTwoSources ∧ Claims.VectorFloatOneSource


/-- VSCAN and VSEGSCAN (R206 to R208): prefix sums of the exact format with one anchor, rounded once each; wrapping integer sums; minima and maxima;
element 0 starts a segment, and so does a flagged one; an exclusive scan gives the identity there. -/
def Sys2Proof.Claims.VectorScans : Prop :=
  ∀ (i : Issue) (s : State), vready i s → scanOk i = true →
    let w := fmtBytes (ccbFmt (vCcb i))
    let wa := fmtBytes (vFa i)
    let wb := fmtBytes (vFb i)
    let a := elems i s i.a.val wa false
    let starts := fun (b : List (Nat × Bool)) => (a.zip b).zipIdx.map fun x => (x.1.1.1, x.1.1.2 || x.1.2.2, x.2 == 0 || x.1.2.1 != 0)
    let vals := fun (b : List (Nat × Bool)) => (starts b).map fun x => (decodeVal (vFa i) (vFracA i) x.1, x.2)
    let exact := fun (b : List (Nat × Bool)) => (scanSums (scanExcl i) (vals b)).zipIdx.map fun p =>
      let r := roundNote (vCcb i) (vFracD i) (s.srU i.core.val i.strand.val p.2) p.1.nanIn p.1.val
      (r.1, { r.2 with lees := bit p.1.lees }, p.1.poison)
    let sums := fun (b : List (Nat × Bool)) => (scanInts (scanExcl i) ((starts b).map fun x => (signedOf (8 * wa) x.1, x.2))).map fun p =>
      ((wrapTo (8 * w) p.1).1, (wrapTo (8 * w) p.1).2.note, p.2)
    let picks := fun (b : List (Nat × Bool)) =>
      (scanPicks (scanOp i == 3) (scanExcl i) (scanIdent (ccbFmt (vCcb i)) (scanOp i == 2)) (vals b)).zipIdx.map fun p =>
        match p.1.raw with
        | some x => (x, {}, p.1.poison)
        | none =>
          let r := roundNote (vCcb i) (vFracD i) (s.srU i.core.val i.strand.val p.2) p.1.nanIn p.1.val
          (r.1, { r.2 with lees := bit p.1.lees }, p.1.poison)
    let gives := fun (op : Nat) (k : Instr) (b : List (Nat × Bool)) =>
      (scanOp i = 0 → Runs op i k s (writesR i s w (exact b))) ∧ (scanOp i = 1 → Runs op i k s (writesR i s w (sums b))) ∧
        (2 ≤ scanOp i → Runs op i k s (writesR i s w (picks b)))
    (fits i s [(i.d.val, w), (i.a.val, wa)] → gives 0x78 (.vscan i) (List.replicate (vlen i s) (0, false))) ∧
    (fits i s ([(i.d.val, w), (i.a.val, wa)] ++ if vSb i then [] else [(i.b.val, wb)]) → gives 0x79 (.vsegscan i) (elems i s i.b.val wb (vSb i)))

/-- Register reductions (R209): the scalar sb takes part, and is the result where the vector length is 0. -/
def Sys2Proof.Claims.VectorReductions : Prop :=
  ∀ (i : Issue) (s : State), vready i s → i.d ≠ 0 →
    let c := i.core.val
    let t0 := i.strand.val
    let w := fmtBytes (ccbFmt (vCcb i))
    let wa := fmtBytes (vFa i)
    let wb := fmtBytes (vFb i)
    let a := elems i s i.a.val wa false
    let vals := a.map fun x => decodeVal (vFa i) (vFracA i) x.1
    (vfOk i true = true → fits i s [(i.a.val, wa)] → ∀ p ∈ [((0x7A : Nat), true, Instr.vredmax i), (0x7B, false, .vredmin i)],
      fetched p.1 i s → ∃ t, Does p.2.2 s t ∧
        (vlen i s ≠ 0 → t.sreg c t0 i.d.val = (roundCcb (vCcb i) (vFracD i) (s.srU c t0 0)
          (vals.foldl (fun m v => Val.pick p.2.1 m v) (decodeVal (vFb i) (vFracA i) (s.rb i)))).bits % 2 ^ 64) ∧
        (vlen i s = 0 → t.sreg c t0 i.d.val = s.rb i % 2 ^ 64)) ∧
    (vintOk i true = true → fits i s [(i.a.val, wa)] → fetched 0x7C i s → ∃ t, Does (.vredsumi i) s t ∧
      (vlen i s ≠ 0 → t.sreg c t0 i.d.val =
        wrapInt (8 * w) (a.foldl (fun m v => m + signedOf (8 * wa) v.1) (signedOf (8 * wb) (s.rb i))) % 2 ^ 64) ∧
      (vlen i s = 0 → t.sreg c t0 i.d.val = s.rb i % 2 ^ 64))

/-- Scans and register reductions. -/
def Obligations.VectorScansAndReductions : Prop := Claims.VectorScans ∧ Claims.VectorReductions


/-- The reduction unit (R210 to R213): RUCLR empties an accumulator, RUACC adds the elements' sum, sum of squares and count, RUGET gives each kind of
Table 7.7, RUSAVE writes the 96 bytes of Table 8.8a to the window, RUMERGE adds a saved accumulator. -/
def Obligations.ReductionUnit : Prop :=
  ∀ (i : Issue) (s : State), vready i s → i.spl = [] → i.a.val < 4 →
    let c := i.core.val
    let k := i.a.val
    let wb := fmtBytes (vFb i)
    let x := s.acc c k
    (moveOk i = true → fits i s [] → fetched 0x90 i s → ∃ t, Does (.ruclr i) s t ∧ t.acc c k = {} ∧ ∀ j, j ≠ k → t.acc c j = s.acc c j) ∧
    (valueOk i [vFb i] false = true → fits i s (if vSb i then [] else [(i.b.val, wb)]) →
      let es := elems i s i.b.val wb (vSb i)
      let vs := es.map fun e => decodeVal (vFb i) (vFracA i) e.1
      let must := fun (l : List Val) (a : Option Int) => (ruMust l a (es.any (·.2)) (vs.contains Val.nan)).1
      fetched 0x91 i s → ∃ t, Does (.ruacc i) s t ∧ (t.acc c k).n = (x.n + vlen i s) % 2 ^ 40 ∧ (t.acc c k).c = x.c ∧
        (t.acc c k).s = (VatEl.take x.s (must vs ((largestExp vs).map (· + 12)))).1 ∧
        (t.acc c k).q = (VatEl.take x.q (must (vs.map fun v => Val.mul v v) ((largestExp vs).map (2 * · + 13)))).1) ∧
    (valueOk i [] true = true → fits i s [] → i.d ≠ 0 →
      let gives := fun (n : Nat) => fetched 0x92 i s → ∃ t, Does (.ruget i) s t ∧ t.sreg c i.strand.val i.d.val = n % 2 ^ 64 ∧ t.acc c k = x
      let rnd := fun (v : Val) => (roundCcb (vCcb i) (vFracD i) (s.srU c i.strand.val 0) v).bits
      (vSub i = 0 → gives (rnd (if x.n = 0 then Val.zero else x.s.val 184))) ∧ (vSub i = 1 → gives (rnd (if x.n = 0 then Val.zero else x.q.val 184))) ∧
        (vSub i = 2 → gives x.n) ∧ (vSub i = 3 → gives (rnd (if x.n = 0 then .nan else Val.div (x.s.val 184) (Val.ofInt x.n)))) ∧
        (vSub i = 4 → gives (rnd (x.variance false))) ∧ (vSub i = 5 → gives (rnd (x.variance true))) ∧
        (vSub i = 6 → gives (rnd (x.rstd (f32 (s.rb i % 2 ^ 32))).1)) ∧ (vSub i = 7 → gives x.flags)) ∧
    (moveOk i = true → fits i s [] → s.rb i % 32 = 0 → inWindow c (s.rb i) 96 = true →
      Runs 0x93 i (.rusave i) s ((went i s).windowWrite c (s.rb i) x.save []) ∧
      ∀ ms mq n k' e, savedAcc (s.windowRead c (s.rb i) 96).1 false = some (ms, mq, n, k', e) → (s.windowRead c (s.rb i) 96).2 = [] →
        fetched 0x94 i s → ∃ t, Does (.rumerge i) s t ∧ (t.acc c k).n = (x.n + n) % 2 ^ 40 ∧ (t.acc c k).c = (x.c + k') % 2 ^ 40 ∧
          (t.acc c k).s = (VatEl.take x.s ms).1 ∧ (t.acc c k).q = (VatEl.take x.q mq).1 ∧ (t.acc c k).empty = (x.empty || e))

/-- Softmax (R214 to R216): each element of a row with a finite maximum m becomes exp(x − m) / Σ exp(x − m), of one with the maximum +∞ the reciprocal of the
count of infinities or 0, of an empty row 0, of one with a NaN NaN, rounded once; VSMXACC adds a row's sum to the accumulator, or its count of
infinities, or marks it empty; VSMXOUT gives the outputs of a row whose maximum sb holds from the accumulator's sum or count. -/
def Obligations.SoftmaxResults : Prop :=
  ∀ (i : Issue) (s : State), vready i s →
    let c := i.core.val
    let w := fmtBytes (ccbFmt (vCcb i))
    let wa := fmtBytes (vFa i)
    let a := elems i s i.a.val wa false
    let xs := a.map fun x => decodeVal (vFa i) 0 x.1
    let m := xs.foldl (fun p q => Val.pick true p q) (.inf true)
    let mb := decodeVal (vFb i) 0 (s.rb i)
    let k := vSub i
    let x := s.acc c k
    (vfOk i false = true → isFloat (vFa i) = true → isFloat (ccbFmt (vCcb i)) = true → fits i s [(i.d.val, w), (i.a.val, wa)] → m ≠ .inf true →
      Runs 0x95 i (.vsoftmax i) s (writesR i s w (xs.zipIdx.map fun e =>
        let v := match m with
          | .nan => .nan
          | .inf _ => if e.1 = .inf false then Val.div Val.one (Val.ofInt (xs.count (Val.inf false))) else Val.zero
          | _ => Val.div (smxT e.1 m) (sumVals (xs.map fun y => smxT y m))
        let r := roundNote (vCcb i) 0 (s.srU c i.strand.val e.2) false v
        (r.1, r.2, a.any (·.2))))) ∧
    (vfOk i false = true → isFloat (vFa i) = true → isFloat (ccbFmt (vCcb i)) = true → fits i s [(i.d.val, w), (i.a.val, wa)] → m = .inf true →
      fetched 0x95 i s → ∃ t, Does (.vsoftmax i) s t ∧ (t.core c).velems i.d.val w (vlen i s) = List.replicate (vlen i s) 0 ∧
        (i.b ≠ 0 → t.sreg c i.strand.val i.b.val = (s.rb i + 1) % 2 ^ 64) ∧ Counts F.CORE_VEC_EMPTY c 1 s t) ∧
    (smxOk i = true → fits i s [(i.a.val, wa)] → fetched 0x96 i s →
      (mb = .inf false → ∃ t, Does (.vsmxacc i) s t ∧ (t.acc c k).c = (x.c + xs.count (Val.inf false)) % 2 ^ 40) ∧
      (mb = .inf true → ∃ t, Does (.vsmxacc i) s t ∧ t.acc c k = { x with empty := true }) ∧
      ((∃ neg num den, mb = .fin neg num den) →
        let ts := xs.map fun v => smxT v mb
        ∃ t, Does (.vsmxacc i) s t ∧
          t.acc c k = { x with s := (VatEl.take x.s (ruMust ts ((largestExp ts).map (· + 12)) (a.any (·.2)) (xs.contains Val.nan)).1).1 })) ∧
    (smxOk i = true → fits i s [(i.d.val, w), (i.a.val, wa)] → fetched 0x97 i s →
      let bad := smxUses mb && x.s.poison
      ∃ (t : State) (notes : Nat → Nat → VNote), Does (.vsmxout i) s t ∧
        t = ((writes i s w (mapElems (a.map fun e => (e.1, e.2 || bad)) fun e p =>
          ((roundCcb (vCcb i) 0 (s.srU c i.strand.val e) (smxOut mb x.c (x.s.val 184) (decodeVal (vFa i) 0 p))).bits,
            notes e p))).corePoison c bad).srDone c i.strand.val (ccbRm (vCcb i)))

/-- Vector loads of the own spool window (R202, R203, R205): element k of vd is the element at its address, where every address is aligned
and within the window. -/
def Obligations.VectorLoads : Prop :=
  ∀ (i : Issue) (s : State), vready i s → i.spl = [] → memOk i = true →
    let c := i.core.val
    let w := memBytes i
    let n := vlen i s
    let unit := fun (k : Nat) => (s.ra i : Int) + k * w
    let strided := fun (k : Nat) => (s.ra i : Int) + k * signedOf 64 (s.rb i)
    let gather := fun (k : Nat) => (s.ra i : Int) + signedOf 32 (leNat (((s.core c).vbytes i.b.val ((k + 1) * 4)).drop (k * 4))) * w
    let loads := fun (op : Nat) (k : Instr) (addr : Nat → Int) (bad : Nat → Bool) =>
      (∀ e < n, (elemAddr c w (addr e)).isSome = true) →
      Runs op i k s (((went i s).vecNote c {}).vresult i w ((List.range n).map fun e =>
        let x := (elemAddr c w (addr e)).getD 0; (leNat (s.blockBytes x w), {}, s.blockPoison x || bad e)))
    (fits i s [(i.d.val, w)] → loads 0x80 (.vld i) unit (fun _ => false) ∧ loads 0x8A (.vldv i) unit (fun _ => false) ∧ loads 0x82 (.vlds i) strided (fun _ => false)) ∧
    (fits i s [(i.d.val, w), (i.b.val, 4)] → loads 0x86 (.vgather i) gather fun e => ((s.core c).vpois i.b.val 4 n).getD e false) ∧
    (segOk i = true → n ≤ vregBytes / max 1 w → fits i s [] → (∀ e < n * vSub i, (elemAddr c w (unit e)).isSome = true) →
      fetched 0x84 i s → ∃ t, Does (.vlseg i) s t ∧
        (∀ j < vSub i, (t.core c).velems (i.d.val + j) w n =
          (List.range n).map fun e => leNat (s.blockBytes ((elemAddr c w (unit (e * vSub i + j))).getD 0) w)) ∧
        ∀ r, (r < i.d.val ∨ i.d.val + vSub i ≤ r) → Tab.get? (t.core c).v r = Tab.get? (s.core c).v r)

/-- Vector stores of the own spool window (R202 to R204), with memory in its canonical form (log entry 1; every step keeps it) and every address aligned and
within the window: an element's bytes are the stored element's, of colliding ones the highest (an added element's sum, rounded under the conversion
control byte, where no other element is added there); every other byte of memory stays. -/
def Obligations.VectorStores : Prop :=
  ∀ (i : Issue) (s : State), vready i s → memOk i = true → memWf s.mem = true →
    let c := i.core.val
    let w := memBytes i
    let n := vlen i s
    let f := ccbFmt (vCcb i)
    let unit := fun (k : Nat) => (s.ra i : Int) + k * w
    let strided := fun (k : Nat) => (s.ra i : Int) + k * signedOf 64 (s.rb i)
    let gather := fun (k : Nat) => (s.ra i : Int) + signedOf 32 (leNat (((s.core c).vbytes i.b.val ((k + 1) * 4)).drop (k * 4))) * w
    let el := fun (r e : Nat) => ((elems i s r w false).getD e (0, false)).1
    let stores := fun (op : Nat) (k : Instr) (m : Nat) (addr : Nat → Int) (rivals : Nat → Nat → Prop) (val : Nat → Nat → Nat) =>
      (∀ e < m, (elemAddr c w (addr e)).isSome = true) → fetched op i s →
      ∃ t, Does k s t ∧ (t.core c).v = (s.core c).v ∧
        (∀ x, (∀ e < m, ∀ y, elemAddr c w (addr e) = some y → x < y ∨ y + w ≤ x) → memGet t.mem x = memGet s.mem x) ∧
        ∀ e < m, ∀ y, elemAddr c w (addr e) = some y → (∀ e' < m, rivals e e' → elemAddr c w (addr e') ≠ some y) →
          memRead t.mem y w = toLe w (val e y)
    let old := fun (y : Nat) => leNat (memRead s.mem y w)
    (fits i s [(i.d.val, w)] → stores 0x81 (.vst i) n unit (fun e e' => e < e') (fun e _ => el i.d.val e) ∧
      stores 0x83 (.vsts i) n strided (fun e e' => e < e') (fun e _ => el i.d.val e)) ∧
    (fits i s [(i.d.val, w), (i.b.val, 4)] → stores 0x87 (.vscatter i) n gather (fun e e' => e < e') (fun e _ => el i.d.val e) ∧
      (isInt f = true → stores 0x89 (.vscataddi i) n gather (fun e e' => e' ≠ e)
        fun e y => wrapInt (8 * w) (signedOf (8 * w) (old y) + signedOf (8 * w) (el i.d.val e))) ∧
      (isFloat f = true → ccbOk (vCcb i) = true → stores 0x88 (.vscatadd i) n gather (fun e e' => e' ≠ e)
        fun e y => (roundCcb (vCcb i) 0 (s.srU c i.strand.val e) (Val.add 0 (decodeVal f 0 (old y)) (decodeVal f 0 (el i.d.val e)))).bits)) ∧
    (segOk i = true → n ≤ vregBytes / max 1 w → fits i s [] →
      stores 0x85 (.vsseg i) (n * vSub i) unit (fun e e' => e < e')
        fun e _ => el (i.d.val + e % vSub i) (e / vSub i))

/-- What a vector instruction writes is what its register then holds (R190, R193): elements 0 to n − 1 take their values, cut to their
width; bytes beyond them and every other register stay. -/
def Obligations.VectorResultReadsBack : Prop :=
  ∀ (m : CoreState) (r w : Nat) (vals : List Nat) (pz : List Bool), 1 ≤ w → vals.length * w ≤ vregBytes →
    (m.vput r w vals pz).velems r w vals.length = vals.map (· % 2 ^ (8 * w)) ∧
    (∀ k, vals.length * w ≤ k → k < vregBytes →
      ((m.vput r w vals pz).vbytes r vregBytes).getD k 0 = (m.vbytes r vregBytes).getD k 0) ∧
    ∀ q, q ≠ r → Tab.get [] (m.vput r w vals pz).v q = Tab.get [] m.v q

/-- A vector instruction that moves no data to or from the spool changes no memory, no other core, and no vector register but its
destination's (the frame of R190, R193, R239); a reserved encoding as well (R111). -/
def Obligations.VectorInstructionFrame : Prop :=
  ∀ (i : Issue) (s t : State),
    ∀ k ∈ [Instr.setvl i, .vsrkey i, .vbcast i, .vsel i, .vperm i, .vslide i, .vcompress i, .vextr i, .vadd i, .vsub i, .vmul i, .vdiv i,
        .vrem i, .vand i, .vor i, .vxor i, .vsll i, .vsrl i, .vsra i, .vsadd i, .vssub i, .vsaddu i, .vssubu i, .vrshr i, .vmulq i, .vnsat i,
        .vnwrap i, .vfadd i, .vfsub i, .vfmul i, .vfma i, .vfmin i, .vfmax i, .vcmp i, .vcvt i, .vscvt i, .vfdiv i, .vfrcp i, .vfsqrt i,
        .vfrsqrt i, .vexp i, .vexp2 i, .vlog i, .vlog2 i, .vtanh i, .vsigm i, .vsilu i, .vgelu i, .vscan i, .vsegscan i, .vredmax i, .vredmin i,
        .vredsumi i, .vsmxout i],
      Does k s t →
        t.mem = s.mem ∧ t.poison = s.poison ∧ t.nor = s.nor ∧ t.host.mem = s.host.mem ∧ t.shadow = s.shadow ∧ t.armed = s.armed ∧
        t.pick.num = s.pick.num ∧ t.fab = s.fab ∧ t.links = s.links ∧ t.cellar = s.cellar ∧ t.upd = s.upd ∧
        (∀ c, c ≠ i.core.val → t.core c = s.core c) ∧
        (∀ r, r ≠ i.d.val → r ≠ i.d.val + 1 → Tab.get? (t.core i.core.val).v r = Tab.get? (s.core i.core.val).v r) ∧
        (t.core i.core.val).acc = (s.core i.core.val).acc ∧ (t.core i.core.val).arr = (s.core i.core.val).arr ∧
        (t.core i.core.val).owner = (s.core i.core.val).owner

/-! ### Registers -/
namespace Sys2Proof.Claims

/-- The agent may write the page instance (R29, R39, R42, R43). -/
def mayWrite (ag : Agent) (ty i : Nat) (s : State) : Prop := s.pageGate (s.accessOf ag) ty i true = 0

/-- The RO registers of a page in the offset ranges `rs` read 0, and every other register field is as it was. -/
def clears (ty i : Nat) (rs : List (Nat × Nat)) (s t : State) : Prop :=
  (∀ f ∈ pageFlds ty, ∀ k < f.count, (f.nth k).acc = .ro → (∃ r ∈ rs, r.1 ≤ (f.nth k).off ∧ (f.nth k).off ≤ r.2) → t.fld (f.nth k) i = 0) ∧
    ∀ k, (keyPage k = (ty, i) → ∀ r ∈ rs, keyOff k < r.1 ∨ r.2 < keyOff k) → Tab.get? t.regs k = Tab.get? s.regs k

/-- As `clears`, and nothing but registers changes. -/
def clearsOnly (ty i : Nat) (rs : List (Nat × Nat)) (s t : State) : Prop := clears ty i rs s t ∧ { t with regs := s.regs } = s

/-- A command completes with a next state of which `p` holds. -/
def Gives (c : Instr) (s : State) (p : State → Prop) : Prop := ∃ t, exec c s = .next t ∧ p t

end Sys2Proof.Claims

/-- REGISTER_WRITE at a page address (R42, R44, R46, R57), for a register with one field: an RWS field is staged, an RWL field is written
until the lock and then refused, an RO field ignores the write; an agent that is not privileged is refused as a whole. The register's
actions follow. -/
def Obligations.RegisterWriteByAccessType : Prop :=
  ∀ (ag : Agent) (addr : BitVec 48) (v : Dword) (s : State) (ty i off : Nat) (f : Fld),
    addr.toNat = pageAddr ty i off → off < 4096 → off % 4 = 0 →
    let x := s.accessOf ag
    let w := v.toNat % 2 ^ 32
    let act := fun (t : State) => t.regAct x ty i off w
    let p := bitsOf w f.lo f.w
    (s.pageGate x ty i true = 7 → Does (.registerWrite ag false addr 4 v) s (s.countErr ty i errPriv addr.toNat x.code)) ∧
    (mayWrite ag ty i s → regFlds ty i off = [f] → (ty = 15 ∧ off = 0x098 → thermBad w = false) →
      (f.acc = .rws → s.pageArmed f.ty i = false → Does (.registerWrite ag false addr 4 v) s (act (s.setStaged f i p))) ∧
      (f.acc = .rwl → s.locked = false → Does (.registerWrite ag false addr 4 v) s (act (s.setFld f i p))) ∧
      (f.acc = .rwl → s.locked = true → s.fldRead f i ≠ p →
        Does (.registerWrite ag false addr 4 v) s (act (s.countErr ty i errLocked addr.toNat x.code))) ∧
      (f.acc = .ro → Does (.registerWrite ag false addr 4 v) s (act s)))

/-- EVT_STAT_CLEAR, EVT_EN_WRITE, EVT_SET and ERR_CLR (R45, R51 to R54): bits that are 1 are cleared, what hardware sets in the same cycle
stays set; every implemented bit written to EVT_SET is set; the error registers read 0, or hold the error of the same cycle. -/
def Obligations.EventAndErrorRegisters : Prop :=
  ∀ (ag : Agent) (pt : PageType) (i : Nat) (s : State),
    let ty := typeCode pt
    let stat := F.EVT_STAT ty
    mayWrite ag ty i s →
    (∀ mask : Word, Gives (.evtStatClear ag pt i mask 0) s fun t =>
      (∀ b < 32, bitOf (t.fld stat i) b = (bitOf (s.fld stat i) b && !bitOf mask.toNat b)) ∧
        (∀ k, k ≠ stat.key i → Tab.get? t.regs k = Tab.get? s.regs k) ∧ { t with regs := s.regs } = s) ∧
    (∀ mask hw : Word, Gives (.evtStatClear ag pt i mask hw) s fun t =>
      ∀ b < 32, bitOf hw.toNat b = true → evtImpl ty i b = true → bitOf (t.fld stat i) b = true) ∧
    (∀ v : Word, Gives (.evtEnWrite ag pt i v) s fun t => t.fld (F.EVT_EN ty) i = v.toNat % 2 ^ (F.EVT_EN ty).w) ∧
    (∀ v : Word, Gives (.evtSet ag pt i v) s fun t =>
      ∀ b < 32, bitOf (s.fld stat i) b = true ∨ (bitOf v.toNat b = true ∧ evtImpl ty i b = true) → bitOf (t.fld stat i) b = true) ∧
    (Gives (.errClr ag pt i none) s fun t =>
      t.fld (F.ERR_CNT ty) i = 0 ∧ t.fld (F.ERR_FIRST ty) i = 0 ∧ t.fld (F.ERR_INFO_CODE ty) i = 0 ∧ t.fld (F.ERR_INFO_AGENT ty) i = 0 ∧
        t.fld (F.ERR_INFO_ADDR_HI ty) i = 0) ∧
    ∀ e : ErrObs, Gives (.errClr ag pt i (some e)) s fun t =>
      t.fld (F.ERR_CNT ty) i = 1 ∧ t.fld (F.ERR_FIRST ty) i = e.addr.toNat % 2 ^ 32 ∧ t.fld (F.ERR_INFO_CODE ty) i = e.code.toNat ∧
        t.fld (F.ERR_INFO_ADDR_HI ty) i = e.addr.toNat / 2 ^ 32 ∧ t.fld (F.ERR_INFO_AGENT ty) i = agentCode e.agent ∧
        bitOf (t.fld stat i) 0 = true

/-- CFG_STAGE_WRITE, ARM and CANCEL (R57 to R60, R65). A generation above the committed one is staged and discards the page's earlier staged
values; an armed page and an older generation are errors. -/
def Obligations.StagingAndCommitControl : Prop :=
  (∀ (ag : Agent) (pt : PageType) (i : Nat) (gen : Word) (s : State),
    let ty := typeCode pt
    let a := pageAddr ty i 0x038
    let c := (s.accessOf ag).code
    mayWrite ag ty i s →
    (s.pageArmed ty i = true → Does (.cfgStageWrite ag pt i gen) s (s.countErr ty i errStageBusy a c)) ∧
    (s.pageArmed ty i = false → gen.toNat ≤ s.fld (F.CFG_GEN ty) i →
      Does (.cfgStageWrite ag pt i gen) s (s.countErr ty i errStageOrder a c)) ∧
    (s.pageArmed ty i = false → s.fld (F.CFG_GEN ty) i < gen.toNat → Gives (.cfgStageWrite ag pt i gen) s fun t =>
      t.fld (F.CFG_STAGE ty) i = gen.toNat ∧ (∀ k, keyPage k = (ty, i) → Tab.get? t.shadow k = none) ∧
        ∀ k, keyPage k ≠ (ty, i) → Tab.get? t.shadow k = Tab.get? s.shadow k)) ∧
  (∀ (ag : Agent) (s : State), mayWrite ag 0 0 s →
    let n := s.fld (F.CFG_CMD 0) 0 + s.fld F.DEVICE_COMMIT_PICK_HI 0 * 2 ^ 32
    let g := s.fld F.DEVICE_COMMIT_GEN 0
    s.fld F.DEVICE_COMMIT_CTL_STATE 0 ≠ 1 → s.pwrState = 0 →
    (n < s.pick.num + 2 → Gives (.arm ag) s fun t => t.fld F.DEVICE_COMMIT_CTL_STATE 0 = 4 ∧ t.armed = s.armed) ∧
    (s.pick.num + 2 ≤ n → s.commitFault ⟨g, n, s.stagedPages g⟩ false n 0 = none → Gives (.arm ag) s fun t =>
      t.armed = some ⟨g, n, s.stagedPages g⟩ ∧ t.fld F.DEVICE_COMMIT_CTL_STATE 0 = 1 ∧ t.fld F.DEVICE_COMMIT_CTL_REASON 0 = 0 ∧
        t.shadow = s.shadow)) ∧
  ∀ (ag : Agent) (s : State) (a : Armed), mayWrite ag 0 0 s → s.armed = some a →
    (s.pick.num + 1 < a.pick ∨ (s.pick.num + 1 = a.pick ∧ s.pick.stage = .open) → Gives (.cancel ag) s fun t =>
      t.armed = none ∧ t.fld F.DEVICE_COMMIT_CTL_STATE 0 = 5 ∧ t.shadow = s.shadow) ∧
    (a.pick < s.pick.num + 1 ∨ (s.pick.num + 1 = a.pick ∧ s.pick.stage ≠ .open) → Does (.cancel ag) s s)

/-- SRST and SOFT_RESET_DONE (R464, R498): a block with soft reset loses its work and is not ready until the reset is done; on any other
block the write does nothing. -/
def Obligations.BlockSoftReset : Prop :=
  (∀ (ag : Agent) (pt : PageType) (i : Nat) (s : State),
    let ty := typeCode pt
    mayWrite ag ty i s →
    (ty ≠ 1 → ty ≠ 5 → ty ≠ 6 → ty ≠ 7 → Does (.srst ag pt i) s s) ∧
    (ty = 1 ∨ ty = 5 ∨ ty = 6 ∨ ty = 7 → Gives (.srst ag pt i) s fun t =>
      (ty, i) ∈ t.mgmt.softResets ∧ t.blkReady ty i = false ∧ t.mem = s.mem ∧
        (ty = 1 → t.core i = { mvpHolder := (s.core i).mvpHolder }) ∧ (ty = 5 → t.solver i = {}) ∧ (ty = 6 → t.slice i = {}) ∧
        (ty = 7 → t.coll i = {}))) ∧
  ∀ (pt : PageType) (i : Nat) (s : State), Gives (.softResetDone pt i) s fun t =>
    (typeCode pt, i) ∉ t.mgmt.softResets ∧ (∀ p, p ≠ (typeCode pt, i) → (p ∈ t.mgmt.softResets ↔ p ∈ s.mgmt.softResets)) ∧
      { t with mgmt := s.mgmt } = s

/-- The clear registers (R160, R188, R220, R247, R277, R306, R307, R309, R333, R365, R366, R387, R412, R435, R453, R473, R496): the counters
of their group read 0, and no other register field changes. -/
def Obligations.CounterClears : Prop :=
  ∀ (ag : Agent) (s : State),
    (∀ k : Fin 512, mayWrite ag 1 k.val s →
      Gives (.cntClr ag k) s (clearsOnly 1 k.val [(0x088, 0x0B0)] s) ∧ Gives (.epiCntClr ag k) s (clearsOnly 1 k.val [(0x100, 0x11C)] s) ∧
        Gives (.vecCntClr ag k []) s (clearsOnly 1 k.val [(0x140, 0x164)] s) ∧
        Gives (.strCntClr ag k) s (clearsOnly 1 k.val [(0x18C, 0x1A8)] s)) ∧
    (∀ k : Fin 16, (mayWrite ag 5 k.val s → Gives (.solvCntClr ag k) s (clearsOnly 5 k.val [(0x090, 0x0B0)] s)) ∧
      (mayWrite ag 2 k.val s → Gives (.dieCntClr ag k) s (clearsOnly 2 k.val [(0x084, 0x090)] s)) ∧
      (mayWrite ag 4 k.val s → Gives (.stkCntClr ag k) s fun t => clears 4 k.val [(0x08C, 0x0A8), (0x0E0, 0x0FC)] s t ∧
        (t.stack k.val).rd = 0 ∧ (t.stack k.val).wr = 0)) ∧
    (∀ k : Fin 8, (mayWrite ag 3 k.val s → Gives (.celCntClr ag k) s (clearsOnly 3 k.val [(0x0A4, 0x0C8)] s)) ∧
      (mayWrite ag 6 k.val s → Gives (.updCntClr ag k) s (clearsOnly 6 k.val [(0x0CC, 0x0EC)] s))) ∧
    (∀ k : Fin 36, mayWrite ag 8 k.val s → Gives (.linkCntClr ag k) s (clearsOnly 8 k.val [(0x094, 0x0A8)] s)) ∧
    (∀ k : Fin 9, mayWrite ag 7 k.val s → Gives (.collCntClr ag k) s (clearsOnly 7 k.val [(0x098, 0x0B4)] s)) ∧
    (∀ k : Fin 2, mayWrite ag 11 k.val s → Gives (.portCntClr ag k) s (clearsOnly 11 k.val [(0x0C0, 0x0D0)] s)) ∧
    (mayWrite ag 9 0 s → Gives (.hedCntClr ag) s (clearsOnly 9 0 [(0x0A0, 0x0BC)] s)) ∧
    (mayWrite ag 11 0 s → Gives (.trCntClr ag) s (clearsOnly 11 0 [(0x128, 0x140)] s)) ∧
    (mayWrite ag 10 0 s → Gives (.hostCntClr ag) s (clearsOnly 10 0 [(0x088, 0x094)] s)) ∧
    (mayWrite ag 13 0 s → Gives (.audCntClr ag) s fun t => clears 13 0 [(0x128, 0x138)] s t ∧ t.audit.hashed = 0) ∧
    (mayWrite ag 14 0 s → Gives (.mgmtCntClr ag) s (clearsOnly 14 0 [(0x098, 0x09C)] s)) ∧
    (mayWrite ag 15 0 s → Gives (.pwrCntClr ag) s (clearsOnly 15 0 [(0x094, 0x094), (0x0A4, 0x0B4)] s)) ∧
    (mayWrite ag 16 0 s → Gives (.secCntClr ag) s (clearsOnly 16 0 [(0x0BC, 0x0BC), (0x120, 0x124)] s)) ∧
    (mayWrite ag 17 0 s → Gives (.bookCntClr ag) s (clearsOnly 17 0 [(0x09C, 0x0B0)] s))

/-! ### The pick -/

/-- BEAT_UP_START, VOTE_POINT, CONFIRM_POINT and DECISION_POINT (R92 to R97): each comes after the one before it, at its instant of the pick;
what is not finished is overrun, a reason votes LATE, a missing vote confirms LATE, a missing confirm decides LATE and fences the device. -/
def Obligations.PickInstants : Prop :=
  ∀ s : State,
    (s.pick.stage = .open → Gives .beatUpStart s fun (t : State) => t.pick.stage = .beatUp ∧ t.pick.phase = s.beatUpNs ∧
      (∀ (k : Nat) (x : Task), s.pick.tasks[k]? = some x → t.pick.tasks[k]? = some (if x.st = .finished then x else { x with overrun := true })) ∧
      ((∃ x ∈ s.pick.tasks, x.st ≠ .finished) → bitOf t.pick.causes 0 = true ∧ bitOf (t.fld (F.EVT_STAT 12) 0) 3 = true)) ∧
    (s.pick.stage = .beatUp → Gives .votePoint s fun t => t.pick.stage = .voted ∧
      t.pick.phase = s.periodNs - 2 * s.floodNs - 1000 ∧ (s.unackedOps = true → bitOf t.pick.causes 1 = true) ∧
      (∀ b, bitOf s.pick.causes b = true → bitOf t.pick.causes b = true) ∧
      t.pick.voteOr = (s.pick.voteOr || t.pick.causes % 16 != 0) ∧
      t.fld F.PICK_VOTE_STAT_LOCAL_LATE 0 = bit (t.pick.causes % 16 != 0) ∧ t.fld F.PICK_VOTE_STAT_LOCAL_REASON 0 = t.pick.causes % 32) ∧
    (let missing := s.voteLinks.any fun l => !s.pick.votesFrom.contains l
     s.pick.stage = .voted → Gives .confirmPoint s fun t => t.pick.stage = .confirmed ∧ t.pick.phase = s.periodNs - s.floodNs - 1000 ∧
      t.pick.confirmOr = (s.pick.confirmOr || s.pick.voteOr || missing) ∧
      t.fld F.PICK_VOTE_STAT_CONFIRM_LATE 0 = bit (s.pick.voteOr || missing)) ∧
    (let silent := s.voteLinks.any fun l => !s.pick.confirmsFrom.contains l
     s.pick.stage = .confirmed → Gives .decisionPoint s fun t => t.pick.stage = .decided ∧ t.pick.phase = s.periodNs - 1000 ∧
      t.pick.outcome = some (s.pick.confirmOr || silent) ∧ t.fld F.PICK_VOTE_STAT_OUTCOME 0 = bit (s.pick.confirmOr || silent) ∧
      (silent = true → t.pick.fenced = true ∧ t.pick.sendDissent = true ∧ bitOf (t.fld (F.EVT_STAT 12) 0) Ev.PICK_DISSENT = true) ∧
      (s.pick.confirmOr || silent → bitOf (t.fld (F.EVT_STAT 12) 0) Ev.PICK_VOTE_LATE = true))

/-- PICK_EDGE (R70, R71, R86, R99, R103), with no commit armed: the pick number rises by 1, the work pick with a committed pick alone, no
core carries anything over; a committed pick goes on to the entry it names, a LATE one runs again until the recovery limit. -/
def Obligations.PickEdgeOutcome : Prop :=
  ∀ s : State, s.pick.stage = .decided → s.armed = none → Gives .pickEdge s fun t =>
    let late := s.pick.outcome = some true
    let run := s.fld F.PICK_SCHED_STAT_RECOV_RUN 0
    let lim := s.fld F.PICK_SCHED_CTL_RECOVERY_LIMIT 0
    let st := s.fld F.PICK_SCHED_STAT_STATE 0
    t.pick.stage = .open ∧ t.pick.phase = 0 ∧ t.cores = [] ∧
      (s.pick.pickSet = none → s.pick.adopt = none → t.pick.num = (s.pick.num + 1) % 2 ^ 48 ∧
        (late → t.pick.work = s.pick.work) ∧ (¬late → t.pick.work = (s.pick.work + 1) % 2 ^ 48)) ∧
      (∀ k, s.pick.pickSet = some k → t.pick.num = k ∧ t.pick.work = k) ∧
      (s.pick.fenced = false → s.pick.noTask = false → st = 1 ∨ st = 2 →
        (late → run < lim → t.fld F.PICK_SCHED_STAT_STATE 0 = 2 ∧ t.fld F.PICK_SCHED_STAT_RECOV_RUN 0 = (run + 1) % 16 ∧
          t.pick.recovery = true ∧ t.pick.entry = s.pick.entry ∧ t.pick.tasks = s.pick.entry.tasks.map fun d => { desc := d }) ∧
        (late → lim ≤ run → t.fld F.PICK_SCHED_STAT_STATE 0 = 3 ∧ t.pick.tasks = []) ∧
        (¬late → s.diverged = false → s.pick.entry.halt = true → t.fld F.PICK_SCHED_STAT_STATE 0 = 0 ∧ t.pick.tasks = []) ∧
        (¬late → s.diverged = false → s.pick.entry.halt = false → ∀ e, s.pick.nextEntry = some e → e.idx = s.pick.entry.next →
          t.fld F.PICK_SCHED_STAT_STATE 0 = 1 ∧ t.pick.entry = e ∧ t.pick.tasks = e.tasks.map fun d => { desc := d }))

/-- SCHED_ENTRY_CHECK, TASK_START and TASK_FINISH (R84, R85, R93, R223): an entry that passes its check comes next, one that fails raises
SCHED_BAD and votes LATE; a task that may start runs, and a core's strand 0 begins at its entry point and owns every unit; a task whose
completion rule holds is finished. -/
def Obligations.ScheduleRunsTasks : Prop :=
  (∀ (s : State) (i : Nat), s.pick.stage = .open ∨ s.pick.stage = .beatUp → s.nextIndex = some i →
    (∀ r ∈ s.nextReads, s.accWaits false r.1 r.2 = false) →
    (∀ e, s.loadEntry s.nextConfig i = some e → Does .schedEntryCheck s { s with pick := { s.pick with nextEntry := some e } }) ∧
    (s.loadEntry s.nextConfig i = none → Gives .schedEntryCheck s fun t =>
      t.pick.nextEntry = none ∧ bitOf t.pick.causes 3 = true ∧ bitOf (t.fld (F.EVT_STAT 12) 0) Ev.PICK_SCHED_BAD = true)) ∧
  (∀ (s : State) (k ns : Nat) (x : Task), s.pick.tasks[k]? = some x →
    (s.canStart k x ns = false → Does (.taskStart k ns) s s) ∧
    (s.canStart k x ns = true →
      (∀ r ∈ s.taskReads x.desc, s.accWaits false r.1 r.2 = false) →
      Gives (.taskStart k ns) s fun (t : State) => t.pick.tasks[k]? = some { x with st := .running, startNs := ns } ∧
        ∀ c, x.desc.unitType = 1 → x.desc.unitInst = c →
          (t.core c).task = some k ∧ (t.strand c 0).st = .running ∧ (t.strand c 0).pc = x.desc.entry ∧
            (∀ g, g ≠ 0 → (t.strand c g).st ≠ .running) ∧ ∀ u < 4, t.owns c 0 u = true)) ∧
  ∀ (s : State) (k ns : Nat) (x : Task), s.pick.tasks[k]? = some x →
    x.st = .running → x.startNs ≤ ns → (s.pick.stage ≠ .open ∨ ns ≤ s.beatUpNs) → s.unitDone k x.desc = true →
    Gives (.taskFinish k ns) s fun (t : State) => t.pick.tasks[k]? = some { x with st := .finished } ∧
      (x.overrun = false → (x.desc.start + x.desc.budget) * 1000 < ns →
        t.fld F.PICK_BUDGET_CNT 0 = min (2 ^ 32 - 1) (s.fld F.PICK_BUDGET_CNT 0 + 1))

/-- SOURCE_LOSS, SOURCE_RETURN, PICK_IN_EDGE, PICK_OUT_END and PICK_SET_APPLY (R79 to R81, R108). -/
def Sys2Proof.Claims.PickSources : Prop :=
  ∀ s : State,
    let src := s.fld F.PICK_PICK_SRC_SOURCE 0
    (src = 1 → Does .sourceLoss s s) ∧
    (src ≠ 1 → s.flag F.PICK_SRC_STAT_HOLDOVER 0 = false → s.flag F.PICK_PICK_SRC_ALT_EN 0 = false → Gives .sourceLoss s fun t =>
      t.fld F.PICK_SRC_STAT_HOLDOVER 0 = 1 ∧ t.fld F.PICK_SRC_STAT_LOCKED 0 = 0 ∧ t.fld F.PICK_SRC_STAT_ACTIVE_LINK 0 = 0x3F ∧
        bitOf (t.fld (F.EVT_STAT 12) 0) Ev.PICK_SOURCE_LOST = true) ∧
    (∀ x : Int, s.flag F.PICK_SRC_STAT_HOLDOVER 0 = true → Gives (.sourceReturn x) s fun t =>
      t.fld F.PICK_SRC_STAT_HOLDOVER 0 = 0 ∧ t.fld F.PICK_SRC_STAT_LOCKED 0 = 1 ∧ t.pick.slewNs = x) ∧
    (∀ x : Int, s.flag F.PICK_SRC_STAT_HOLDOVER 0 = false → Does (.sourceReturn x) s s) ∧
    (src = 4 → s.flag F.PICK_SRC_STAT_HOLDOVER 0 = false → ∀ ns p : Nat, s.pick.lastPickInNs = some p →
      (p + s.periodNs ≤ ns + 1000 → ns ≤ p + s.periodNs + 1000 → Gives (.pickInEdge ns) s fun t =>
        t.fld F.PICK_SRC_STAT_LOCKED 0 = 1 ∧ t.pick.lastPickInNs = some ns) ∧
      (p + s.periodNs + 1000 < ns → Gives (.pickInEdge ns) s fun t => t.fld F.PICK_SRC_STAT_HOLDOVER 0 = 1 ∧ t.pick.lastPickInNs = some p)) ∧
    (s.power.pickOut = true → Gives .pickOutEnd s fun t => t.power.pickOut = false ∧ t.sent = .pickOut false :: s.sent) ∧
    ∀ (ag : Agent) (hi : BitVec 16), mayWrite ag 12 0 s →
      (src = 1 ∨ src = 4 → s.fld F.PICK_SCHED_STAT_STATE 0 = 0 → Gives (.pickSetApply ag hi) s fun t =>
        t.pick.pickSet = some (s.fld F.PICK_PICK_SET_LO 0 + hi.toNat * 2 ^ 32)) ∧
      (src ≠ 1 → src ≠ 4 → Gives (.pickSetApply ag hi) s fun t => t.pick.pickSet = s.pick.pickSet ∧
        (s.fld (F.ERR_CNT 12) 0 = 0 → t.fld (F.ERR_INFO_CODE 12) 0 = 0x80))

/-- ALIGN and ALIGN_INTERVAL (R95 to R97, R361): on a link that is UP, a vote or confirm of this pick joins the device's OR, and DISSENT
marks the peer fenced; while no round runs, a flit leaves with the pick number and no vote. On any other link nothing happens. -/
def Sys2Proof.Claims.AlignFlits : Prop :=
  (∀ (l : Fin 36) (f : AlignFlit) (s : State),
    (s.linkState l.val ≠ 4 → Does (.align l f) s s ∧ Does (.alignInterval l) s s) ∧
    (s.linkState l.val = 4 → s.linkLive l.val = true → s.pick.fenced = false → f.edge = false → f.pick.toNat = s.pick.num →
      f.phaseNs.natAbs ≤ s.fld F.PICK_PHASE_TOL 0 → Gives (.align l f) s fun t =>
      let early := s.pick.stage = .open ∨ s.pick.stage = .beatUp ∨ s.pick.stage = .voted
      (t.link l.val).lastTx = f.tx.toNat ∧ t.pick.num = s.pick.num ∧
        t.pick.voteOr = (s.pick.voteOr || (decide early && f.vote == some true)) ∧
        (∀ v, f.vote = some v → early → l.val ∈ t.pick.votesFrom) ∧
        (s.pick.stage ≠ .decided → t.pick.confirmOr = (s.pick.confirmOr || f.confirm == some true)) ∧
        (∀ v, f.confirm = some v → s.pick.stage ≠ .decided → l.val ∈ t.pick.confirmsFrom) ∧
        (f.dissent = true → (t.link l.val).peerFenced = true ∧ bitOf (t.fld (F.EVT_STAT 12) 0) Ev.PICK_DISSENT = true))) ∧
  ∀ (l : Fin 36) (s : State), s.linkState l.val = 4 → s.pick.stage = .open → Gives (.alignInterval l) s fun t =>
    t.sent = .align l.val s.pick.num s.txStamp false none none false (s.link l.val).lastTx (s.fld (F.CFG_GEN 0) 0) s.cfgPrint :: s.sent ∧
      t.fld F.LINK_TX_FLITS l.val = (s.fld F.LINK_TX_FLITS l.val + 1) % 2 ^ F.LINK_TX_FLITS.w

/-- The timing source and the ALIGN flits. -/
def Obligations.PickSourcesAndAlign : Prop := Claims.PickSources ∧ Claims.AlignFlits


/-! ### Solver engines -/

/-- Of memory, a descriptor that ends with `o` has written its record alone, where it asks for no DONE signal: all 64 bytes, where partition `p` may write
there (R252, R272, R273). -/
def Sys2Proof.Claims.recorded (p : Nat) (d : SolveDesc) (o : SolveOut) (s t : State) : Prop :=
  d.done = 0 → d.record % 64 = 0 →
    (d.record = 0 → t.mem = s.mem) ∧
    (∀ x, x < s.place d.record ∨ s.place d.record + 64 ≤ x → memGet t.mem x = memGet s.mem x) ∧
    (d.record ≠ 0 → memWf s.mem = true → regionOf d.record ≠ .host → regionOf d.record ≠ .page → (s.checkAll (some p) true d.record 64).st = 0 →
      memRead t.mem (s.place d.record) 64 = o.bytes d.seq)

/-- QP, QP_ADJ, ADJ, LIN_SYM, LIN_GEN, SOLVE_DEADLINE and SOLVE_WAIT_RELEASE (R251, R253, R254, R256, R269, R272, R275, Table 9.9): the next descriptor of the
engine, once it may be read, where it is of the command's kind: poison in it or in its inputs, its deadline instant and BAD_DESC end it with its record
alone written; it waits for its word and for the path of its core, and else runs to its end, which is counted and gives every path back; a
descriptor of another kind stays. -/
def Obligations.SolverDescriptorsEnd : Prop :=
  ∀ (e : Fin 16) (ns : Nat) (x : Ecc) (s : State),
    let b := s.nextDesc e.val
    let d := solveDescOf b
    let m := s.solver e.val
    let part := s.solvPart e.val
    let u := s.solvCount e.val part (s.nextAt e.val) 256 false
    let v := u.solvCount e.val (u.solvPart e.val) d.wait (if d.wait = 0 then 0 else 8) false
    let ins := v.solvInputs d (workBytes d (liveRows (v.solvRows (v.solvPart e.val) d)))
    let ends := fun (t : State) => (t.solver e.val).next = m.next + 1 ∧ (t.solver e.val).waiting = false ∧
      t.fld F.SOLVER_DONE_CNT e.val = (s.fld F.SOLVER_DONE_CNT e.val + 1) % 2 ^ F.SOLVER_DONE_CNT.w ∧
      t.fld F.SOLVER_LAST_NS e.val = (ns - m.startNs) % 2 ^ F.SOLVER_LAST_NS.w ∧ ∀ c, (t.core c).mvpHolder ≠ some e.val
    (∀ k ∈ [(Instr.qp e ns x, 0), (.qpAdj e ns x, 1), (.adj e ns x, 2), (.linSym e ns x, 3), (.linGen e ns x, 4)],
      (s.solvBusy e.val = false → Does k.1 s s) ∧
      (s.solvBusy e.val = true → s.accWaits false (s.nextAt e.val) 256 = false →
        (d.kind ≠ k.2 → d.kind ≤ 4 → Does k.1 s s) ∧
        (d.kind = k.2 → s.nextPoison e.val = true → Gives k.1 s fun t => ends t ∧ Claims.recorded part d { code := codePoisoned, poison := true } s t) ∧
        (d.kind = k.2 → s.nextPoison e.val = false →
          (u.deadlineNs d < ns → Gives k.1 s fun t => ends t ∧ Claims.recorded part d { code := codeDeadline } s t ∧
            Counts F.SOLVER_DEADLINE_CNT e.val 1 s t) ∧
          (ns ≤ u.deadlineNs d → (∀ r ∈ d.early, u.accWaits false r.1 r.2 = false) →
            (u.descBad e.val b = true → Gives k.1 s fun t => ends t ∧ Claims.recorded part d { code := codeBadDesc } s t ∧
              (u.fld (F.ERR_CNT 5) e.val = 0 → d.record = 0 → d.done = 0 → t.fld (F.ERR_INFO_CODE 5) e.val = 0x80)) ∧
            (u.descBad e.val b = false → v.solvWaitPoison e.val d = false →
              (v.solvWaitMet e.val d = false → Does k.1 s (v.setSolver e.val { v.solver e.val with waiting := true })) ∧
              (v.solvWaitMet e.val d = true → v.pathFree e.val d = false → Does k.1 s v) ∧
              (v.solvWaitMet e.val d = true → v.pathFree e.val d = true → (∀ r ∈ ins, v.accWaits false r.1 r.2 = false) →
                Gives k.1 s fun t => ends t ∧
                  ((0 < x.uncorr ∨ ∃ r ∈ ins, (v.readMem (some part) r.1 r.2).poison ≠ []) →
                    Claims.recorded part d { code := codePoisoned, poison := true } s t))))))) ∧
    (s.solvBusy e.val = true → s.deadlineNs d ≤ ns → Gives (.solveDeadline e ns) s fun t => ends t ∧ Claims.recorded part d { code := codeDeadline } s t ∧
      Counts F.SOLVER_DEADLINE_CNT e.val 1 s t) ∧
    ((s.solvBusy e.val = false ∨ ns < s.deadlineNs d) → Does (.solveDeadline e ns) s s) ∧
    (m.waiting = true → s.solvBusy e.val = true → s.solvWaitMet e.val d = true → s.pathFree e.val d = true → Gives (.solveWaitRelease e ns) s fun t =>
      (t.solver e.val).waiting = false ∧ (t.solver e.val).startNs = ns ∧ (t.solver e.val).next = m.next ∧
        (t.core (d.core e.val)).mvpHolder = some e.val ∧ t.mem = s.mem) ∧
    ((m.waiting = false ∨ s.solvWaitMet e.val d = false ∨ s.pathFree e.val d = false) → Does (.solveWaitRelease e ns) s s)

/-! ### The memory system -/

/-- DRAM_REQUEST_ISSUE and SCRUB_READ (R284 to R289): an unregulated write is issued and its bytes counted, a privileged read takes from its bucket, a
partition without tokens waits and is counted once; scrub counts corrected and uncorrectable errors and poisons an uncorrectable block; with scrub
off, or outside the stack, nothing is read. -/
def Sys2Proof.Claims.DramRequestsAndScrub : Prop :=
  (∀ (k : Fin 16) (ns : Nat) (r : DramReq) (wait : Bool) (s : State),
    let x := (s.refill k.val ns).stack k.val
    let p := r.part.val
    (r.write = true → s.fld (F.STACK_REG_RATE.nth p) k.val = 1024 → Gives (.dramRequestIssue k ns r wait) s fun t =>
      (t.stack k.val).wr = x.wr + r.bytes ∧ (t.stack k.val).rd = x.rd ∧ t.regs = s.regs ∧ t.mem = s.mem) ∧
    (r.write = false → r.cls = 1 → 0 < x.priv → Gives (.dramRequestIssue k ns r wait) s fun t =>
      (t.stack k.val).rd = x.rd + r.bytes ∧ (t.stack k.val).priv = x.priv - 25 * r.bytes ∧ (t.stack k.val).tokens = x.tokens ∧
        t.regs = s.regs ∧ t.mem = s.mem) ∧
    (r.write = true → s.fld (F.STACK_REG_RATE.nth p) k.val ≠ 1024 → (s.refill k.val ns).tokens k.val p ≤ 0 →
      s.flag F.STACK_STK_CTL_WORK_CONSERVE k.val = false → p ∉ x.waited → Gives (.dramRequestIssue k ns r wait) s fun t =>
        (t.stack k.val).wr = x.wr ∧ (t.stack k.val).rd = x.rd ∧ p ∈ (t.stack k.val).waited ∧
          Counts (F.STACK_REG_WAIT.nth p) k.val 1 s t)) ∧
  ∀ (k : Fin 16) (a : BitVec 48) (x : Ecc) (pct : Nat) (s : State),
    ((s.flag F.STACK_STK_CTL_SCRUB_EN k.val = false ∨ regionOf a.toNat ≠ .dram k.val) → Does (.scrubRead k a x pct) s s) ∧
    (s.flag F.STACK_STK_CTL_SCRUB_EN k.val = true → regionOf a.toNat = .dram k.val → Gives (.scrubRead k a x pct) s fun t =>
      t.fld F.STACK_STK_STAT_SCRUB_POS k.val = pct % 2 ^ F.STACK_STK_STAT_SCRUB_POS.w ∧ t.mem = s.mem ∧
        Counts F.STACK_CE_CNT k.val x.corr s t ∧ (0 < x.uncorr → a.toNat / 64 ∈ t.poison ∧ Counts F.STACK_UE_CNT k.val 1 s t) ∧
        (x.uncorr = 0 → t.poison = s.poison))

/-- DIRTY_EVICT, GO_WRITEPULL, GO_WRITEPULLDROP, HOST_SNOOP and BISNP_RESPONSE (R293, R302 to R304): a dirty host half moves to the eviction buffer,
while there is room, and stays there until the host answers; an evicted DRAM line leaves the cache, counted where it was dirty; a snoop is answered
from the buffer, or from the cache; a line that the host gives up leaves the snoop filter, or M in it, with its data. After an answer what waited goes on
(`State.drainAll`). -/
def Obligations.HostCoherence : Prop :=
  (∀ (die : Fin 8) (line : BitVec 48) (s : State) (h : Nat), halfOf die.val line.toNat = some h →
    let m := (s.hostLines h).find? fun e => e.2.half h == .m
    (∀ e, m = some e → (s.evictBuf die.val).length < 64 → Gives (.dirtyEvict die line) s fun t =>
      t.evictBuf die.val = s.evictBuf die.val ++ [{ half := h, data := s.halfData h }] ∧ t.sent = .dirtyEvict line.toNat :: s.sent ∧
        t.fld F.CELLAR_WB_CNT die.val = (s.fld F.CELLAR_WB_CNT die.val + 1) % 2 ^ F.CELLAR_WB_CNT.w ∧ t.host = s.host) ∧
    ((m = none ∨ 64 ≤ (s.evictBuf die.val).length) → Does (.dirtyEvict die line) s s)) ∧
  (∀ (die : Fin 8) (line : BitVec 48) (s : State), regionOf line.toNat ≠ .host → homeDie line.toNat = die.val → Gives (.dirtyEvict die line) s fun t =>
    (∀ e ∈ t.cellar.lines, e.1 / 8 ≠ line.toNat / 128) ∧ (∀ e ∈ s.cellar.lines, e.1 / 8 ≠ line.toNat / 128 → e ∈ t.cellar.lines) ∧
      t.fld F.CELLAR_WB_CNT die.val = (s.fld F.CELLAR_WB_CNT die.val +
        (s.cellar.lines.filter fun e => e.1 / 8 == line.toNat / 128 && e.2.dirty).length) % 2 ^ F.CELLAR_WB_CNT.w ∧ t.mem = s.mem) ∧
  (∀ (die : Fin 8) (line : BitVec 48) (s : State),
    let e := (s.evictBuf die.val).find? fun x => x.half == line.toNat / 64
    (e = none → Does (.goWritePull die line) s s.drainAll ∧ Does (.goWritePullDrop die line) s s.drainAll) ∧
    ∀ y, e = some y → ∃ u v : State, Does (.goWritePull die line) s u.drainAll ∧ Does (.goWritePullDrop die line) s v.drainAll ∧
      u.evictBuf die.val = (s.evictBuf die.val).filter (fun x => x.half != y.half) ∧ v.evictBuf die.val = u.evictBuf die.val ∧
      u.sent = .hostData line.toNat y.forwarded y.data :: s.sent ∧ v.sent = s.sent ∧ u.mem = s.mem ∧ v.mem = s.mem) ∧
  (∀ (die : Fin 8) (line : BitVec 48) (inv : Bool) (s : State),
    let answers := fun (code : Nat) (data : List Byte) => Gives (.hostSnoop die line inv) s fun t =>
      t.sent = .snoopAnswer line.toNat code data :: s.sent ∧ t.host = s.host ∧
        t.fld F.CELLAR_HSNP_CNT die.val = (s.fld F.CELLAR_HSNP_CNT die.val + 1) % 2 ^ F.CELLAR_HSNP_CNT.w
    (halfOf die.val line.toNat = none → answers 0 []) ∧
    ∀ h, halfOf die.val line.toNat = some h →
      (∀ e, (s.evictBuf die.val).find? (fun x => x.half == h) = some e → answers 1 e.data ∧ Gives (.hostSnoop die line inv) s fun t =>
        ∀ y ∈ t.evictBuf die.val, y.half = h → y.forwarded = true) ∧
      ((s.evictBuf die.val).find? (fun x => x.half == h) = none →
        (s.hostLines h = [] → answers 0 []) ∧
        ((s.hostLines h).any (fun e => e.2.half h == .m) = true → answers (if inv then 1 else 4) (s.halfData h)) ∧
        (s.hostLines h ≠ [] → (s.hostLines h).any (fun e => e.2.half h == .m) = false → answers (if inv then 2 else 3) []))) ∧
  ∀ (die : Fin 8) (line : BitVec 48) (data : List Byte) (s : State),
    let h := line.toNat / 64
    let inv := s.cellar.asked.contains (h, true)
    let dirty := (s.filterOf die.val).any fun e => e.1 == h && e.2
    (homeDie (h * 64) = die.val → inv = true ∨ s.cellar.asked.contains (h, false) = true →
      ∃ u : State, Does (.bisnpResponse die line data) s u.drainAll ∧ (∀ e ∈ u.cellar.asked, e.1 ≠ h) ∧
        (inv = true → ∀ e ∈ u.filterOf die.val, e.1 ≠ h) ∧ (inv = false → ∀ e ∈ u.filterOf die.val, e.1 = h → e.2 = false) ∧
        (dirty = true → u.mem = (s.storeBlock (h * 64) (padTo 64 data) false).mem) ∧ (dirty = false → u.mem = s.mem)) ∧
    ((homeDie (h * 64) ≠ die.val ∨ (inv = false ∧ s.cellar.asked.contains (h, false) = false)) → Does (.bisnpResponse die line data) s s)

/-- FLUSH, FLUSH_DONE and GRANULE_FLUSH_COMPLETE (R299, R300): FLUSH reads 1 while the flush runs; at its end no dirty line is homed on the
die, the lines written back are counted and FLUSH_DONE is raised; a granule's flush ends once. -/
def Sys2Proof.Claims.CellarFlushes : Prop :=
  ∀ (ag : Agent) (die : Fin 8) (s : State),
    (mayWrite ag 3 die.val s → Gives (.flush ag die) s fun t =>
      t.fld F.CELLAR_CACHE_CTL die.val = 1 ∧ die.val ∈ t.cellar.flushAll ∧ t.cellar.lines = s.cellar.lines) ∧
    (die.val ∈ s.cellar.flushAll → Gives (.flushDone die) s fun t =>
      die.val ∉ t.cellar.flushAll ∧ t.fld F.CELLAR_CACHE_CTL die.val = 0 ∧
        (∀ e ∈ t.cellar.lines, homeDie (e.1 / 8 * 128) = die.val → e.2.dirty = false) ∧
        (∀ e ∈ s.cellar.lines, homeDie (e.1 / 8 * 128) ≠ die.val → e ∈ t.cellar.lines) ∧
        t.fld F.CELLAR_WB_CNT die.val = (s.fld F.CELLAR_WB_CNT die.val +
          (s.cellar.lines.filter fun e => e.2.dirty && homeDie (e.1 / 8 * 128) == die.val).length) % 2 ^ F.CELLAR_WB_CNT.w ∧
        bitOf (t.fld (F.EVT_STAT 3) die.val) Ev.CELLAR_FLUSH_DONE = true ∧ t.mem = s.mem) ∧
    (die.val ∉ s.cellar.flushAll → Does (.flushDone die) s s) ∧
    ∀ g : Fin 6,
      let n := 6 * die.val + g.val
      ((s.granule n).flushing = true → (s.granule n).flushed = false → Gives (.granuleFlushComplete die g) s fun t =>
        (t.granule n).flushed = true ∧ (t.granule n).flushing = true ∧ (t.granule n).mode = (s.granule n).mode ∧
          bitOf (t.fld (F.EVT_STAT 3) die.val) Ev.CELLAR_FLUSH_DONE = true) ∧
      ((s.granule n).flushing = false ∨ (s.granule n).flushed = true → Does (.granuleFlushComplete die g) s s)

/-- Service of the cellar and the stacks. -/
def Obligations.CellarAndDramService : Prop := Claims.DramRequestsAndScrub ∧ Claims.CellarFlushes


/-! ### The update unit and block repair -/
namespace Sys2Proof.Claims

/-- A chunk of slice `n` is judged now: the tables that the judgement reads, and the ledger that it writes, need not wait (R304, R330). -/
def judgesNow (n : Nat) (k : Chunk) (s : State) : Prop :=
  (s.unitAsk (s.tableReads n k.block.toNat k.step.toNat) [(s.ledgerAddr n k.block.toNat, 16)]).2 = true

/-- The arrival that a message of a repair is. -/
def msgArrival (dev : BitVec 16) (hid : Nat) (seq : Word) (m : RepairMsg) : Arrival :=
  { src := .repair dev hid seq, addr := 0, len := repairMsgBytes m, repairMsg := some m }

/-- A message of a repair is the next operation in order on the repair context of heddle `hid`, which is threaded to its sender; none waits
behind it, and it need not wait (R331, R349). -/
def nextMsg (dev : BitVec 16) (hid : Nat) (seq : Word) (m : RepairMsg) (s : State) : Prop :=
  s.pick.fenced = false ∧ (s.heddle hid).st = .threaded ∧ (s.heddle hid).session = false ∧ (s.heddle hid).peer = dev.toNat ∧
    (permanent hid = true ∨ (s.heddle hid).repairUse = true) ∧ ((s.heddle hid).ctxOf hid true).recvNext = seq.toNat ∧
    ((s.heddle hid).ctxOf hid true).ahead = [] ∧ s.opWaits 7 (msgArrival dev hid seq m) = false

/-- The state once that message is taken: its sequence numbers are used. -/
def taken (dev : BitVec 16) (hid : Nat) (seq : Word) (m : RepairMsg) (s : State) : State :=
  let c := (s.heddle hid).ctxOf hid true
  s.setHeddle hid ((s.heddle hid).setCtx hid true
    { c with recvNext := (c.recvNext + opCount 7 (msgArrival dev hid seq m)) % 2 ^ 32, ahead := [] })

/-- The state once the message has had its effect, which left `u`: it is acknowledged, its credits go back, and what waits goes on. -/
def settled (dev : BitVec 16) (hid : Nat) (seq : Word) (m : RepairMsg) (u : State) : State :=
  let a := msgArrival dev hid seq m
  (State.drainCtx 1024 ((u.answerOp 7 a {}).returnCredits hid true seq.toNat (arrivalFlits 7 a) false) hid true).drainAll

end Sys2Proof.Claims

/-- CHUNK_ARRIVAL and HELD_CHUNK_JUDGE (R315, R320, R321, Table 11.6): a chunk of the next step of a closed block opens it, one of a step
applied already is a duplicate, one for a block under repair is held, one that the block's state or descriptor forbids is rejected; reads of the
tables that fail are counted (`State.unitCount`); a chunk whose judgement has to wait is held. The first held chunk that need not stay leaves
the buffer. -/
def Sys2Proof.Claims.ChunkJudgement : Prop :=
  (∀ (c : Fin 8) (k : Chunk) (s : State),
    let n := c.val
    let b := k.block.toNat
    let st := k.step.toNat
    let u := s.unitCount n false (s.tableReads n b st)
    let l := u.ledger n b
    (chunkFmtOk k.fmt.toNat = false → Does (.chunkArrival c k) s s) ∧
    (chunkFmtOk k.fmt.toNat = true → k.poison = true → Does (.chunkArrival c k) s (s.poisoned 6 n)) ∧
    (chunkFmtOk k.fmt.toNat = true → k.poison = false →
      (¬judgesNow n k s → Gives (.chunkArrival c k) s fun t => (t.slice n).held = (s.slice n).held ++ [{ chunk := k }] ∧ t.mem = s.mem) ∧
      (judgesNow n k s →
        (u.flag F.UPDATE_UPD_CTL_ENABLE n = false ∨ u.blockDesc n b = none → Gives (.chunkArrival c k) s fun t =>
          Counts F.UPDATE_UPD_REJECT n 1 u t ∧ t.mem = s.mem ∧ (t.slice n).held = (s.slice n).held ∧
            (u.fld (F.ERR_CNT 6) n = 0 → t.fld (F.ERR_INFO_CODE 6) n = 0x83 ∧ t.fld (F.ERR_FIRST 6) n = b)) ∧
        (u.flag F.UPDATE_UPD_CTL_ENABLE n = true → ∀ d, u.blockDesc n b = some d →
          (u.blockRo d = true → Gives (.chunkArrival c k) s fun t => Counts F.UPDATE_UPD_REJECT n 1 u t ∧ t.mem = s.mem ∧
            (u.fld (F.ERR_CNT 6) n = 0 → t.fld (F.ERR_INFO_CODE 6) n = 0x81)) ∧
          (u.blockRo d = false → (u.program n d.prog).isSome = true →
            (l.state = 1 → follows32 st l.step = true → (u.stepDesc n st).isSome = true → Tab.get? (s.slice n).blocks b = none →
              (s.slice n).blocks.length < u.fld F.UPDATE_UPD_CTL_OPEN_MAX n → Gives (.chunkArrival c k) s fun t =>
                Tab.get? (t.slice n).blocks b = some { step := st, origin := k.origin.toNat, chunk := k } ∧
                  t.mem = (u.setLedger n b ⟨st, 2, k.origin.toNat % 2 ^ 32⟩).mem ∧
                  (st = (l.step + 1) % 2 ^ 32 → t.fld F.UPDATE_UPD_GAP n = s.fld F.UPDATE_UPD_GAP n) ∧
                  (st ≠ (l.step + 1) % 2 ^ 32 → Counts F.UPDATE_UPD_GAP n 1 s t)) ∧
            (l.state = 1 → follows32 st l.step = false → Gives (.chunkArrival c k) s fun t =>
              Counts F.UPDATE_UPD_DUP n 1 s t ∧ t.mem = s.mem ∧ t.upd = s.upd) ∧
            (l.state = 3 ∨ (l.state = 2 ∧ st ≠ l.step ∧ precedes32 st l.step = false) → Gives (.chunkArrival c k) s fun t =>
              (t.slice n).held = (s.slice n).held ++ [{ chunk := k }] ∧ t.mem = s.mem ∧ t.regs = u.regs)))))) ∧
  ∀ (c : Fin 8) (s : State),
    let n := c.val
    ((s.slice n).held = [] → Does (.heldChunkJudge c) s s.creditsBack) ∧
    (∀ h rest, (s.slice n).held = h :: rest → (s.judgeNow n h).2 = false → ∃ u : State, Does (.heldChunkJudge c) s u.creditsBack ∧
      (u.slice n).held = rest ∧ u.mem = (s.judgeNow n h).1.mem ∧ u.regs = (s.judgeNow n h).1.regs) ∧
    ∀ h g rest, (s.slice n).held = h :: g :: rest → (s.judgeNow n h).2 = true →
      let v := (s.judgeNow n h).1
      (v.judgeNow n g).2 = false → ∃ u : State, Does (.heldChunkJudge c) s u.creditsBack ∧
        (u.slice n).held = h :: rest ∧ u.mem = (v.judgeNow n g).1.mem ∧ u.regs = (v.judgeNow n g).1.regs

/-- GROUP_APPLY, GROUP_COMMIT and GROUP_DONE (R322 to R324): a group that is not done, and of whose block no committed group has steps left,
reads its inputs and holds its outputs; they go to their home addresses when it is committed and not before; the last group done closes the
block, once what that reads and writes need not wait. -/
def Sys2Proof.Claims.UpdateGroups : Prop :=
  ∀ (c : Fin 8) (blk : Word) (g : Fin 256) (s : State) (o : OpenBlock) (d : BlockDesc),
    let n := c.val
    let b := blk.toNat
    Tab.get? (s.slice n).blocks b = some o → s.blockDesc n b = some d →
    (let m := min 256 (d.elems - 256 * g.val)
     let rs := s.groupReads n b d o (256 * g.val) m
     let u := s.unitCount n false rs
     g.val ∉ o.done → (∀ q ∈ o.runs, q.committed = false) → g.val < d.groups → s.repairing n b = false → (s.ledger n b).state = 2 →
      (∀ r ∈ rs, s.accWaits false r.1 r.2 = false) → u.groupPoison d (256 * g.val) m = false →
      ∀ r, u.groupRun n d o b g.val = some r → Gives (.groupApply c blk ⟨g, {}⟩) s fun t =>
        Tab.get? (t.slice n).blocks b = some { o with runs := o.runs.filter (fun q => q.group != g.val) ++ [r] } ∧ t.mem = s.mem) ∧
    (g.val ∈ o.done ∨ (∃ q ∈ o.runs, q.committed = true) → ∀ e, Does (.groupApply c blk ⟨g, e⟩) s s) ∧
    (∀ r, o.runs.find? (fun q => q.group == g.val && !q.committed) = some r → (s.slice n).redoUsed < 512 → s.rangesShared r.ranges = false →
      (∀ w ∈ r.ranges, s.accWaits true w.1 w.2 = false) → Gives (.groupCommit c blk g {}) s fun t =>
        t.mem = (r.writes.foldl (fun u w => u.writeMem none w.1 w.2) (s.unitCount n true r.ranges)).mem ∧
          (∃ o', Tab.get? (t.slice n).blocks b = some o' ∧ o'.done = o.done ∧ ∀ q ∈ o'.runs, q.group = g.val → q.committed = true) ∧
          t.fld F.UPDATE_UPD_GROUPS n = (s.fld F.UPDATE_UPD_GROUPS n + 1) % 2 ^ F.UPDATE_UPD_GROUPS.w) ∧
    (∀ r, o.runs.find? (fun q => q.group == g.val && q.committed) = some r →
      let f := o.finish r
      let now := (s.unitAsk (s.closeReads n d f) (s.closeWrites n b d)).2
      (f.done.length < d.groups → Gives (.groupDone c blk ⟨g, {}⟩) s fun t =>
        Tab.get? (t.slice n).blocks b = some f ∧ g.val ∈ f.done ∧ t.mem = s.mem ∧ t.regs = s.regs) ∧
      (d.groups ≤ f.done.length → now = false → Gives (.groupDone c blk ⟨g, {}⟩) s fun t =>
        Tab.get? (t.slice n).blocks b = some o ∧ t.mem = s.mem) ∧
      (d.groups ≤ f.done.length → now = true → Gives (.groupDone c blk ⟨g, {}⟩) s fun t =>
        Tab.get? (t.slice n).blocks b = none ∧ b ∈ t.audit.dirty ∧ (∃ u : State, t.mem = (u.setLedger n b ⟨o.step, 1, o.origin % 2 ^ 32⟩).mem) ∧
          t.fld F.UPDATE_UPD_CLOSED n = (s.fld F.UPDATE_UPD_CLOSED n + 1) % 2 ^ F.UPDATE_UPD_CLOSED.w))

/-- Arriving chunks and the groups they complete. -/
def Obligations.UpdateChunks : Prop := Claims.ChunkJudgement ∧ Claims.UpdateGroups


/-- REPAIR_REQ, REPAIR_REQUEST and REPAIR_ANSWER (R315, R329 to R331, Table 11.9): a request for a block of the slice is queued, or its
repair begins with a fence on the block's ranges; the replica refuses a request or keeps it until the block is closed at the target step, and then
sends the block's state on the heddle of the request. -/
def Sys2Proof.Claims.RepairRequests : Prop :=
  (∀ (ag : Agent) (c : Fin 8) (blk : Word) (s : State), mayWrite ag 6 c.val s →
    let n := c.val
    let b := blk.toNat
    let x := s.slice n
    (b % 8 ≠ n → Gives (.repairReq ag c blk) s fun t => t.upd = s.upd ∧ t.mem = s.mem ∧
      (s.fld (F.ERR_CNT 6) n = 0 → t.fld (F.ERR_INFO_CODE 6) n = 0x82)) ∧
    (∀ d, b % 8 = n → s.blockDesc n b = some d →
      (∀ r, x.repair = some r → r.block ≠ b → (∀ q ∈ x.queue, q.1 ≠ b) → x.queue.length < 16 → Gives (.repairReq ag c blk) s fun t =>
        t.slice n = { x with queue := x.queue ++ [(b, (s.accessOf ag).code)] } ∧ t.mem = s.mem) ∧
      (∀ k dev rest, x.repair = none → x.queue = [] → d.replicaList = (k, dev) :: rest → Gives (.repairReq ag c blk) s fun t =>
        (∃ r, (t.slice n).repair = some r ∧ r.block = b ∧ r.replica = k ∧ r.verified = false) ∧
          Tab.get? t.upd.fences b = some (false, d.ranges) ∧ (t.slice n).queue = []))) ∧
  (∀ (c : Fin 8) (dev : BitVec 16) (hid : Nat) (seq blk target : Word) (s : State),
    let n := c.val
    let b := blk.toNat
    let m := RepairMsg.request c blk target
    nextMsg dev hid seq m s →
    (s.blockDesc n b = none ∨ (s.ledger n b).noAnswer = true →
      Does (.repairRequest c ⟨dev, hid, seq⟩ blk target) s (settled dev hid seq m ((taken dev hid seq m s).repairRefuse n hid dev.toNat b))) ∧
    ((s.blockDesc n b).isSome = true → (s.ledger n b).noAnswer = false → ∃ u : State,
      Does (.repairRequest c ⟨dev, hid, seq⟩ blk target) s (settled dev hid seq m u) ∧
        (dev.toNat, b, target.toNat, hid) ∈ (u.slice n).answering ∧ u.mem = s.mem ∧ u.regs = s.regs)) ∧
  ∀ (c : Fin 8) (dev : BitVec 16) (blk : Word) (s : State) (e : Nat × Nat × Nat × Nat),
    let n := c.val
    let b := blk.toNat
    let x := s.slice n
    let u := s.setSlice n { x with answering := x.answering.filter fun y => y != e }
    let rest := fun (d : BlockDesc) => (s.digAddr n b, 32) :: d.ranges
    x.answering.find? (fun y => y.1 == dev.toNat && y.2.1 == b) = some e →
    (∀ r ∈ [(s.btAddr n b, 64), (s.ledgerAddr n b, 16)], s.accWaits false r.1 r.2 = false) →
    (s.blockDesc n b = none ∨ (s.ledger n b).noAnswer = true → Does (.repairAnswer c dev blk) s (u.repairRefuse n e.2.2.2 dev.toNat b)) ∧
    ∀ d, s.blockDesc n b = some d →
      ((s.ledger n b).state = 1 → precedes32 (s.ledger n b).step e.2.2.1 = false → (∀ r ∈ rest d, s.accWaits false r.1 r.2 = false) →
        Does (.repairAnswer c dev blk) s ((u.unitCount n false (rest d)).sendState n e.2.2.2 dev.toNat b (s.repairBytes n b d))) ∧
      ((s.ledger n b).state = 2 → Does (.repairAnswer c dev blk) s s)

/-- REPAIR_STATE, REPAIR_WRITE_DONE, REPAIR_TIMEOUT and REPAIR_REFUSAL (R330, R332, Table 11.9): the state from the replica asked that matches its
digest is written, any other passes the replica over (`State.repairPass`), as its refusal and the timeout do; the end closes the block and lifts the
fence; with no replica left the block is unavailable. -/
def Sys2Proof.Claims.RepairCompletes : Prop :=
  (∀ (c : Fin 8) (dev : BitVec 16) (hid : Nat) (seq step origin : Word) (state scales digest : List Byte) (ns : Nat) (s : State) (r : Repair)
      (d : BlockDesc),
    let n := c.val
    let m := RepairMsg.state c step origin state scales digest ns
    let m' := RepairMsg.refusal c ns
    let u := taken dev hid seq m s
    (s.slice n).repair = some r → r.verified = false → s.blockDesc n r.block = some d →
    (r.sent = true → d.replicas.getD r.replica 0xFFFF = dev.toNat →
      (nextMsg dev hid seq m s →
        (∀ arrays, d.splitState state = some arrays → scales.length = 8 * d.rows → precedes32 step.toNat r.target = false →
          d.stateDigest r.block step.toNat arrays scales = digest → ∃ v : State,
            Does (.repairState c ⟨⟨dev, hid, seq⟩, ns⟩ step origin state scales digest) s (settled dev hid seq m v) ∧
            (v.slice n).repair = some { r with verified := true, step := step.toNat, origin := origin.toNat, digest := digest } ∧
              v.mem = (((d.ranges.map (·.1)).zip (arrays ++ [scales])).foldl (fun u w => u.writeFull w.1 w.2) (u.unitCount n true d.ranges)).mem) ∧
        (∀ arrays, d.splitState state = some arrays → d.stateDigest r.block step.toNat arrays scales ≠ digest →
          Does (.repairState c ⟨⟨dev, hid, seq⟩, ns⟩ step origin state scales digest) s (settled dev hid seq m (u.repairPass n r ns)))) ∧
      (nextMsg dev hid seq m' s →
        Does (.repairRefusal c ⟨⟨dev, hid, seq⟩, ns⟩) s (settled dev hid seq m' ((taken dev hid seq m' s).repairPass n r ns)))) ∧
    Does (.repairTimeout c ns) s (s.repairPass n r ns).drainAll ∧
    (d.replicaList.filter (fun x => decide (r.replica < x.1)) = [] → (s.slice n).queue = [] →
      let u := s.repairPass n r ns
      Tab.get? u.upd.fences r.block = some (true, d.ranges) ∧ (u.slice n).repair = none ∧ Counts F.UPDATE_UNAVAIL_CNT n 1 s u ∧
        u.fld F.UPDATE_REPAIR_STAT_RESULT n = 2)) ∧
  ∀ (c : Fin 8) (ns : Nat) (s : State) (r : Repair), (s.slice c.val).repair = some r →
    let w := [(s.digAddr c.val r.block, 32), (s.ledgerAddr c.val r.block, 16)]
    (r.verified = false → Does (.repairWriteDone c ns) s s) ∧
    (r.verified = true → Does (.repairTimeout c ns) s s) ∧
    (r.verified = true → (∀ q ∈ w, s.accWaits true q.1 q.2 = false) → ∃ u : State, Does (.repairWriteDone c ns) s (u.drainAll.repairStart c.val) ∧
      (u.slice c.val).repair = none ∧ Tab.get? u.upd.fences r.block = none ∧ Tab.get? (u.slice c.val).blocks r.block = none ∧
      Counts F.UPDATE_REPAIR_OK c.val 1 s u ∧ u.fld F.UPDATE_REPAIR_STAT_RESULT c.val = 1 ∧ r.block ∈ u.audit.dirty ∧
      u.mem = (((s.unitCount c.val true [(s.digAddr c.val r.block, 32)]).writeMem none (s.digAddr c.val r.block) r.digest).setLedger c.val r.block
        ⟨r.step, 1, r.origin⟩).mem)

/-- Repair of a block from its replicas. -/
def Obligations.RepairProtocol : Prop := Claims.RepairRequests ∧ Claims.RepairCompletes


/-! ### The fabric -/
namespace Sys2Proof.Claims

/-- An operation of this device at itself that can be applied now (R344): `o` is what was issued. -/
def ownOp (code id : Nat) (a : Arrival) (o : IssuedOp) (s : State) : Prop :=
  a.src = .own id ∧ a.ecc = [] ∧ Tab.get? s.fab.issued id = some o ∧ o.desc.heddle = 0 ∧ o.desc.op = code ∧ o.answer = none ∧
    (∀ e ∈ s.fab.heldSigs, e.2.arrival.src ≠ .own id) ∧ s.opWaits code (o.arrival id []) = false

/-- Bytes that the operation may write: in one 64-byte block of DRAM outside every bound range. -/
def openBytes (o : IssuedOp) (b : Arrival) (n : Nat) (s : State) : Prop :=
  let x := b.addr.toNat
  (∃ k, regionOf x = .dram k) ∧ 0 < n ∧ x % 64 + n ≤ 64 ∧ s.boundGran x = none ∧ s.boundGran (x + n - 1) = none ∧
    s.landCheck o.part b.coll true x = 0

/-- The operation has been answered. -/
def answered (id : Nat) (r : OpAnswer) (o : IssuedOp) (t : State) : Prop := Tab.get? t.fab.issued id = some { o with answer := some r }

end Sys2Proof.Claims

/-- PUT, RACK, GET, ACC, SIG, FADD and CAS (R342, Table 12.4) of this device at its own memory: the bytes that each writes, and what it
answers. -/
def Sys2Proof.Claims.OperationsAtMemory : Prop :=
  ∀ (a : Arrival) (id : Nat) (o : IssuedOp) (s : State),
    let b := o.arrival id []
    let x := b.addr.toNat
    let w := atomicWidth b
    let old := leNat (s.blockBytes x 8)
    let oldW := leNat (s.blockBytes x w)
    (ownOp 0 id a o s → openBytes o b b.len s → Gives (.put a) s fun t =>
      t.mem = memWrite s.mem x (padTo b.len b.data) ∧ answered id { addr := x } o t) ∧
    (ownOp 6 id a o s → openBytes o b b.len s → ∃ u : State,
      Does (.rack a) s ((u.rackLanded b.rackStep.toNat).answerOp 6 b { addr := x }) ∧ u.mem = memWrite s.mem x (padTo b.len b.data)) ∧
    (ownOp 1 id a o s → (∃ k, regionOf x = .dram k) → 0 < b.len → x % 64 + b.len ≤ 64 → s.check o.part false x = 0 →
      Gives (.get a) s fun t => t.mem = s.mem ∧ ∃ r, answered id r o t ∧ r.status = 0 ∧ r.data = s.blockBytes x b.len) ∧
    (ownOp 3 id a o s → openBytes o b 8 s → x % 8 = 0 → b.sigWait = false → Gives (.sig a) s fun t =>
      t.mem = memWrite s.mem x (toLe 8 ((old + b.op0.toNat) % 2 ^ 64)) ∧ answered id { addr := x } o t) ∧
    (ownOp 3 id a o s → openBytes o b 8 s → x % 8 = 0 → b.sigWait = true → (old + b.op0.toNat) % 2 ^ 64 < b.op1.toNat → Gives (.sig a) s fun t =>
      t.mem = memWrite s.mem x (toLe 8 ((old + b.op0.toNat) % 2 ^ 64)) ∧ Tab.get? t.fab.issued id = some o ∧
        (Tab.get? t.fab.heldSigs s.fab.nextSig).map (·.arrival) = some b) ∧
    (ownOp 4 id a o s → openBytes o b 8 s → x % 8 = 0 → Gives (.fadd a) s fun t =>
      t.mem = memWrite s.mem x (toLe w ((oldW + b.op0.toNat) % 2 ^ (8 * w))) ∧
        ∃ r, answered id r o t ∧ r.status = 0 ∧ r.data = toLe 8 oldW) ∧
    (ownOp 5 id a o s → openBytes o b 8 s → x % 8 = 0 → Gives (.cas a) s fun t =>
      (oldW = b.op0.toNat % 2 ^ (8 * w) → t.mem = memWrite s.mem x (toLe w (b.op1.toNat % 2 ^ (8 * w)))) ∧
        (oldW ≠ b.op0.toNat % 2 ^ (8 * w) → t.mem = s.mem) ∧ ∃ r, answered id r o t ∧ r.status = 0 ∧ r.data = toLe 8 oldW) ∧
    (let f := ccbFmt b.ccb.toNat
     ownOp 2 id a o s → openBytes o b b.len s → x % max 1 (fmtBytes f) = 0 → b.tag = none → accFormOk b = true → Gives (.acc a) s fun t =>
      t.mem = memWrite s.mem x (bytesOf f (((elemsOf f (s.blockBytes x b.len)).zip (elemsOf f (padTo b.len b.data))).map fun e =>
        combine b.ccb.toNat b.aop.val b.frac.val e.1 e.2)) ∧ answered id { addr := x } o t)

/-- SIG with SIG_WAIT and SIG_WAIT_RELEASE (R342): the answer is held while the word is below OPERAND1, and given once it is not. -/
def Sys2Proof.Claims.SignalWaits : Prop :=
  ∀ (k : Nat) (s : State),
    (Tab.get? s.fab.heldSigs k = none → Does (.sigWaitRelease k) s s) ∧
    ∀ h, Tab.get? s.fab.heldSigs k = some h →
      (s.wordAt h.arrival.addr.toNat < h.arrival.op1.toNat → Does (.sigWaitRelease k) s s) ∧
      (h.arrival.op1.toNat ≤ s.wordAt h.arrival.addr.toNat → Gives (.sigWaitRelease k) s fun t =>
        Tab.get? t.fab.heldSigs k = none ∧ t.mem = s.mem ∧
          ∀ id o, h.arrival.src = .own id → Tab.get? s.fab.issued id = some o → answered id { addr := h.arrival.addr.toNat } o t)

/-- The operations at memory and the waiting signal. -/
def Obligations.FabricOperationsAtMemory : Prop := Claims.OperationsAtMemory ∧ Claims.SignalWaits

/-- Operations from a peer (R347, R349, R351, R409): a fenced device takes none; one of another pick, of a heddle that is not threaded to the
peer, or outside the window is dropped and counted; a duplicate is counted and not applied again; one that comes early waits for its turn; one that
is next and need not wait is applied, its credits are dealt with (`State.returnCredits`), and those behind it follow. -/
def Sys2Proof.Claims.PeerOperationsInOrder : Prop :=
  ∀ (a : Arrival) (dev : BitVec 16) (hid : Nat) (seq : Word) (tag : BitVec 8) (s : State), a.src = .fabric dev hid seq tag →
    let h := s.heddle hid
    let good := h.st = .threaded ∧ h.session = false ∧ h.peer = dev.toNat ∧ (permanent hid = true ∨ h.repairUse = false)
    let d := signedOf 32 (wrapInt 32 ((seq.toNat : Int) - h.ctx.recvNext))
    let u := s.nocRetry a.retries
    ∀ k ∈ [(Instr.put a, 0), (.get a, 1), (.acc a, 2), (.sig a, 3), (.fadd a, 4), (.cas a, 5), (.rack a, 6)],
      (s.pick.fenced = true → Does k.1 s u) ∧
      (s.pick.fenced = false →
        (¬good → Gives k.1 s fun t => Counts F.HEDDLE_SEQ_ERR 0 1 s t ∧ t.mem = s.mem ∧ t.fab = s.fab) ∧
        (good →
          (tag.toNat ≠ s.pick.num % 256 → Gives k.1 s fun t => Counts F.HEDDLE_LATE_DROP 0 1 s t ∧ t.mem = s.mem ∧ t.fab = s.fab) ∧
          (tag.toNat = s.pick.num % 256 →
            (-1024 ≤ d → d < 0 → Gives k.1 s fun t => Counts F.HEDDLE_DUP_CNT 0 1 s t ∧ t.mem = s.mem ∧
              (t.heddle hid).ctx.recvNext = h.ctx.recvNext) ∧
            (1024 ≤ d ∨ d < -1024 → Gives k.1 s fun t => Counts F.HEDDLE_SEQ_ERR 0 1 s t ∧ t.mem = s.mem ∧ t.fab = s.fab) ∧
            (0 < d → d < 1024 → (∀ e ∈ h.ctx.ahead, e.1 ≠ seq.toNat ∧ e.1 ≠ h.ctx.recvNext) → seq.toNat ≠ h.ctx.recvNext →
              Gives k.1 s fun t => (t.heddle hid).ctx.ahead = h.ctx.ahead ++ [(seq.toNat, a, k.2)] ∧
                (t.heddle hid).ctx.recvNext = h.ctx.recvNext ∧ t.mem = s.mem) ∧
            (seq.toNat = h.ctx.recvNext → h.ctx.ahead = [] → a.repairMsg = none → u.opWaits k.2 a = false →
              let v := u.setHeddle hid { h with ctx := { h.ctx with recvNext := (h.ctx.recvNext + 1) % 2 ^ 32, ahead := [] } }
              Does k.1 s (State.drainCtx 1024 ((v.landOp k.2 a (some a.part.val) ⟨0x0C, some a.part.val, none⟩).returnCredits hid false seq.toNat
                (arrivalFlits k.2 a) a.coll) hid false)))))

/-- ACKNOWLEDGEMENT, RESEND and CREDIT (R346, R350, R352): an acknowledged operation is no longer counted as issued; an unknown or
second acknowledgement changes nothing; what is sent again keeps its sequence number; credits that come back are there for what is sent next. -/
def Sys2Proof.Claims.IssuerAccounting : Prop :=
  (∀ (id : Nat) (st : Fin 16) (data : List Byte) (pz : List Nat) (s : State),
    (Tab.get? s.fab.issued id = none → Does (.acknowledgement id st data pz) s s ∧ Does (.resend id) s s) ∧
    ∀ o, Tab.get? s.fab.issued id = some o → o.desc.heddle ≠ 0 →
      (o.sent = true → (∃ c g, o.issuer = .strand c g) → st = 0 → Gives (.acknowledgement id st data pz) s fun t =>
        Tab.get? t.fab.issued id = none ∧ (o.desc.op ≠ 1 → o.desc.op ≠ 4 → o.desc.op ≠ 5 → t.mem = s.mem) ∧
        (∀ c g, o.issuer = .strand c g → o.desc.op = 1 → t.mem = (s.windowWrite c o.desc.localAddr (padTo o.desc.length data) pz).mem)) ∧
      (o.sent = true → Does (.resend id) s ((s.addSat F.HEDDLE_RETX_CNT 0 1).sendOp id o o.seq)) ∧
      (o.sent = false → Does (.resend id) s s)) ∧
  ∀ (hid n : Nat) (rep : Bool) (s : State),
    ((s.heddle hid).st ≠ .threaded → Does (.credit hid rep n) s s) ∧
    ((s.heddle hid).st = .threaded → ∃ u : State, Does (.credit hid rep n) s (u.sendWaiting hid) ∧
      ((u.heddle hid).ctxOf hid rep).credits = ((s.heddle hid).ctxOf hid rep).credits + n ∧ u.regs = s.regs ∧ u.mem = s.mem)

/-- FLIT_FORWARD and RETRY (R339, R340, R360): a flit whose CRC fails asks for a retry, one out of order is discarded, one in order moves the
expected number on and leaves by the next hop; an IDLE flit goes nowhere; a RETRY has every flit sent again that the replay buffer holds from the LSEQ
asked for on; the link fails at its retry limit. -/
def Sys2Proof.Claims.FlitsAndRetries : Prop :=
  (∀ (link : Fin 36) (f : Flit) (s : State),
    let l := link.val
    let x := s.link l
    (s.linkState l < 2 → Does (.flitForward link f) s s) ∧
    (s.linkState l = 4 →
      (flitOk f = false → x.retries + 1 < s.fld F.LINK_LINK_CTL_RETRY_LIMIT l → Gives (.flitForward link f) s fun t =>
        (t.link l).retries = x.retries + 1 ∧ (t.link l).expSeq = x.expSeq ∧ t.linkState l = 4 ∧ .retry l x.expSeq ∈ t.sent) ∧
      (flitOk f = false → s.fld F.LINK_LINK_CTL_RETRY_LIMIT l ≤ x.retries + 1 → Gives (.flitForward link f) s fun t => t.linkState l = 5) ∧
      (flitOk f = true → f.kind = 0 → Gives (.flitForward link f) s fun t => (t.link l).expSeq = x.expSeq ∧ t.sent = s.sent) ∧
      (flitOk f = true → f.kind ≠ 0 →
        (f.lseq.toNat ≠ x.expSeq → Gives (.flitForward link f) s fun t => t.link l = x ∧ t.sent = s.sent) ∧
        (f.lseq.toNat = x.expSeq → s.nextHop f.dest.toNat = none → Gives (.flitForward link f) s fun t =>
          (t.link l).expSeq = (x.expSeq + 1) % 4096 ∧ (t.link l).retries = 0 ∧ t.sent = s.sent) ∧
        (∀ hop k, f.lseq.toNat = x.expSeq → s.nextHop f.dest.toNat = some hop →
          s.chooseLink hop.links f.seq.toNat = some k → k ≠ l → Gives (.flitForward link f) s fun t =>
            (t.link l).expSeq = (x.expSeq + 1) % 4096 ∧ (t.link k).sendSeq = ((s.link k).sendSeq + 1) % 4096 ∧
              ∃ g, t.sent = .flit k g :: s.sent ∧ g.dest = f.dest ∧ g.payload = f.payload ∧ g.lseq.toNat = (s.link k).sendSeq % 4096 ∧
                g.vc.val = vcAfter f.vc.val (some (s.linkRole l).1) hop % 5 ∧ flitOk g = true)))) ∧
  ∀ (link : Fin 36) (q : BitVec 12) (s : State),
    let l := link.val
    let again := (s.link l).unacked.dropWhile fun e => e.1 != q.toNat
    (s.linkState l < 2 → Does (.retry link q) s s) ∧
    (s.linkState l = 4 → (s.link l).lastProgress ≠ q.toNat → 1 < s.fld F.LINK_LINK_CTL_RETRY_LIMIT l → Gives (.retry link q) s fun t =>
      (t.link l).lastProgress = q.toNat ∧ (t.link l).retries = 1 ∧ t.linkState l = 4 ∧
        t.sent = (again.map fun e => Msg.flit l e.2).reverse ++ s.sent) ∧
    (s.linkState l = 4 → (s.link l).lastProgress = q.toNat → (s.link l).retries ≠ 0 →
      s.fld F.LINK_LINK_CTL_RETRY_LIMIT l ≤ (s.link l).retries + 1 → Gives (.retry link q) s fun t => t.linkState l = 5)

/-- Order, acknowledgement and link retry. -/
def Obligations.FabricOrderAndDelivery : Prop := Claims.PeerOperationsInOrder ∧ Claims.IssuerAccounting ∧ Claims.FlitsAndRetries

/-- LINK_TRAINED, TRAINING_TIMEOUT, LINK_LOCK_LOSS and NEG (R362 to R364, Table 12.6): the states of a link; both ends must agree in version
for it to leave NEGOTIATE, and in configuration and peer for it to be UP rather than QUARANTINED. -/
def Sys2Proof.Claims.LinkStates : Prop :=
  ∀ (link : Fin 36) (s : State),
    let l := link.val
    (s.training l = true → (Gives (.linkTrained link) s fun t => t.linkState l = 2) ∧ (Gives (.trainingTimeout link) s fun t => t.linkState l = 5)) ∧
    (s.training l = false → Does (.linkTrained link) s s ∧ Does (.trainingTimeout link) s s) ∧
    (2 ≤ s.linkState l → s.linkState l ≤ 4 → Gives (.linkLockLoss link) s fun t => t.linkState l = 1 ∧ t.linkLive l = false) ∧
    (s.linkState l < 2 → Does (.linkLockLoss link) s s) ∧
    ∀ f : NegFlit,
      (s.linkState l < 2 → Does (.neg link f) s s) ∧
      (s.linkState l = 2 →
        (f.verLo ≤ 0x20 → 0x20 ≤ f.verHi →
          (f.cfgGen.toNat = s.fld (F.CFG_GEN 0) 0 → f.fprint.toNat = s.cfgPrint → f.peerDev.toNat = s.linkPeer l → Gives (.neg link f) s fun t =>
            t.linkState l = 4 ∧ t.fld F.LINK_LINK_STAT_VER_MAJOR l = 2 ∧ t.fld F.LINK_PEER_DEV l = f.peerDev.toNat) ∧
          (f.cfgGen.toNat ≠ s.fld (F.CFG_GEN 0) 0 ∨ f.fprint.toNat ≠ s.cfgPrint ∨ f.peerDev.toNat ≠ s.linkPeer l → Gives (.neg link f) s fun t =>
            t.linkState l = 3 ∧ t.fld F.LINK_LINK_STAT_FPRINT_MISMATCH l = 1)) ∧
        (0x20 < f.verLo ∨ f.verHi < 0x20 → Gives (.neg link f) s fun t =>
          t.linkState l = 5 ∧ t.fld F.LINK_LINK_STAT_VERSION_FAIL l = 1))

/-- THREAD, THREAD_ACCEPT, THREAD_REFUSE, HEDDLE_THREAD_RETRY, RELEASE and RELEASE_ACK (R353 to R355): the life of a shared heddle. -/
def Sys2Proof.Claims.HeddleThreading : Prop :=
  (∀ (dev : BitVec 16) (peerId : BitVec 10) (part : Fin 8) (s : State),
    let d := dev.toNat
    let rec? := s.pick.entry.heds.find? fun r => r.peer == d && r.part == part.val && !s.recThreaded r &&
      ((s.heddle r.hid).st == .free || s.recHeld r)
    (rec? = none → Does (.thread dev peerId false part) s (s.sendMsg d (.thread (.refuse .undeclared) d peerId.toNat))) ∧
    (∀ h, s.repairHeddle = some h → s.audit.comparing = false →
      State.heddleFree { s with fab := { s.fab with heddles := Tab.del s.fab.heddles h } } part.val = true →
      Gives (.thread dev peerId true part) s fun t => (t.heddle h).st = .threaded ∧ (t.heddle h).repairUse = true ∧ (t.heddle h).peer = d) ∧
    (∀ r, rec? = some r → s.audit.comparing = false →
      State.heddleFree { s with fab := { s.fab with heddles := Tab.del s.fab.heddles r.hid } } part.val = true →
      Gives (.thread dev peerId false part) s fun t => (t.heddle r.hid).st = .threaded ∧ (t.heddle r.hid).peer = d ∧
        (t.heddle r.hid).peerId = peerId.toNat ∧ (t.heddle r.hid).part = part.val ∧ (t.heddle r.hid).ctx.sendNext = 0 ∧
        (t.heddle r.hid).ctx.recvNext = 0)) ∧
  ∀ (hid : Nat) (s : State),
    let x := s.heddle hid
    (x.st = .threading → x.repairUse = false → s.audit.comparing = false → ∀ peerId, Gives (.threadAccept hid peerId) s fun t =>
      (t.heddle hid).st = .threaded ∧ (t.heddle hid).peer = x.peer ∧ (t.heddle hid).peerId = peerId.toNat ∧
        (t.heddle hid).ctx.sendNext = 0) ∧
    (x.st = .threading → Gives (.threadRefuse hid) s fun t => Tab.get? t.fab.heddles hid = none ∧ Counts F.HEDDLE_REFUSE_CNT 0 1 s t) ∧
    (x.st ≠ .threading → (∀ peerId, Does (.threadAccept hid peerId) s s) ∧ Does (.threadRefuse hid) s s) ∧
    (sharedId hid = true → x.session = false → x.st = .threaded → Gives (.release hid) s fun t =>
      Tab.get? t.fab.heddles hid = none) ∧
    (x.st = .releasing → s.pick.stage ≠ .open → Does (.releaseAck hid) s
      (State.repairRetryAll { s with fab := { s.fab with heddles := Tab.del s.fab.heddles hid } })) ∧
    (x.st ≠ .releasing → Does (.releaseAck hid) s s) ∧
    ∀ ns r, s.pick.entry.heds = [r] → s.pick.stage = .open → s.pick.noTask = false → ns < s.beatUpNs →
      (s.recHeld r = true → Does (.heddleThreadRetry ns) s s.repairRetryAll) ∧
      (s.recHeld r = false → (s.heddle r.hid).st = .free → s.heddleFree r.part = true → ∃ u : State,
        Does (.heddleThreadRetry ns) s u.repairRetryAll ∧
          (u.heddle r.hid).st = .threading ∧ (u.heddle r.hid).peer = r.peer ∧ (u.heddle r.hid).part = r.part)

/-- Links and shared heddles. -/
def Obligations.LinksAndThreading : Prop := Claims.LinkStates ∧ Claims.HeddleThreading

/-! ### Collectives -/

/-- ALL_REDUCE, REDUCE_SCATTER, ALL_GATHER, BROADCAST, ALL_TO_ALL, BARRIER, BUNDLE and RACK_SCRIPT (R369, R378, R385): the script of
a started task begins once, with every chunk of its slice that can start (`State.chunkStart`); a command of another kind changes nothing; a racking
step that moves and expects nothing, and whose reads and write need not wait, writes its map and is done. -/
def Sys2Proof.Claims.CollectiveScriptsBegin : Prop :=
  ∀ (c : Fin 9) (s : State) (x : Script), (s.coll c.val).script = some x → (s.coll c.val).task.isSome = true →
    (∀ k ∈ [(Instr.allReduce c, 0), (.reduceScatter c, 1), (.allGather c, 2), (.broadcast c, 3), (.allToAll c, 4), (.barrier c, 5),
        (.bundle c, 7)],
      (x.kind ≠ k.2 ∨ (s.coll c.val).begun = true → Does k.1 s s) ∧
      (x.kind = k.2 → (s.coll c.val).begun = false →
        Does k.1 s ((x.chunksOn c.val).foldl (fun t i => t.chunkStart c.val i) (s.setColl c.val { s.coll c.val with begun := true })))) ∧
    (c.val ≠ 8 ∨ x.kind ≠ 6 → Does (.rackScript c) s s) ∧
    (let p := s.rackPlan x (s.coll 8).rackStep
     let map := p.map + 16 * p.shards * (s.pick.work % 2)
     c.val = 8 → x.kind = 6 → (s.coll 8).begun = false → p.moves = 0 → p.expect = 0 → (s.coll 8).rackCounts = [] → (s.coll 8).rackDone = false →
      (∀ e ∈ s.fab.issued, ∀ i q, e.2.issuer ≠ .coll 8 i q) →
      (∀ r ∈ s.rackReads x ++ [(p.map + 16 * p.shards * ((s.pick.work + 1) % 2), 16 * p.shards), (p.updPtr, 16 * p.upds)],
        s.accWaits false r.1 r.2 = false) → s.accWaits true map (16 * p.shards) = false →
      Gives (.rackScript c) s fun t => (t.coll 8).rackDone = true ∧ (t.coll 8).begun = true ∧
        t.mem = (s.writeMem (some x.part) map ((List.range p.shards).flatMap (s.rackRecord x p)) [] true).mem)

/-- CHUNK_START and TRANSFER_LANDED (R376, R378, R381): a chunk that has to wait does not start; one without transfers completes at
once and is counted; a landed transfer is combined in its turn (`State.takeXfer`), its recomputed adds are counted; an add that mismatches more
often than RES_RETRY abandons the chunk and votes LATE. -/
def Sys2Proof.Claims.CollectiveChunks : Prop :=
  (∀ (c : Fin 9) (i : Nat) (s : State) (x : Script), (s.coll c.val).script = some x →
    let m := s.coll c.val
    (Tab.get? m.chunks i = none → m.begun = false ∨ m.mustWait x c.val i = true ∨ x.sliceOf i ≠ c.val → Does (.chunkStart c i) s s) ∧
    (∀ k, Tab.get? m.chunks i = some k → k.complete = true ∨ k.dead = true → Does (.chunkStart c i) s s) ∧
    (m.begun = true → m.compare = false → x.kind ≤ 4 → x.source = 2 → x.deliver = 0 → i < x.chunkCount → x.sliceOf i = c.val →
      Tab.get? m.chunks i = none → m.mustWait x c.val i = false → s.chunkXfers x i = [] →
      (∀ r ∈ s.deliverTo x i, s.accWaits true r.1 r.2 = false) → Gives (.chunkStart c i) s fun t =>
        ((Tab.get? (t.coll c.val).chunks i).map fun k => k.complete) = some true ∧
          t.fld F.COLL_CHUNK_CNT c.val = (s.fld F.COLL_CHUNK_CNT c.val + 1) % 2 ^ F.COLL_CHUNK_CNT.w ∧
          (x.kind = 0 → t.mem = (s.writeMem (some x.part) (x.dst + i * 4096 * x.width)
            ((sliceOf (Tab.get ([], []) m.src i).1 (0, x.chunkLen i)).flatMap (toLe x.width))
            (elemBlocks x.width (poisonIn (Tab.get ([], []) m.src i).2 (0, x.chunkLen i))) true).mem))) ∧
  ∀ (c : Fin 9) (i q : Nat) (bad : List Nat) (s : State) (x : Script) (k : CChunk) (t1 t2 : Xfer) (rest : List Xfer),
    let m := s.coll c.val
    let retry := s.fld F.COLL_COLL_CTL_RES_RETRY c.val
    (s.flag F.COLL_COLL_CTL_ENABLE c.val = false → Does (.transferLanded c i q bad) s s) ∧
    (s.flag F.COLL_COLL_CTL_ENABLE c.val = true → m.compare = false → m.script = some x → m.landed = [] → Tab.get? m.chunks i = some k →
      k.complete = false → k.dead = false → k.accum = false → k.xfers = t1 :: t2 :: rest → t1.send = false → t1.q = q → t1.reduce = true →
      t2.send = false →
      ((∀ n ∈ bad, n ≤ retry) → Gives (.transferLanded c i q bad) s fun t =>
        Tab.get? (t.coll c.val).chunks i = some { s.takeXfer c.val x i k t1 with xfers := t2 :: rest } ∧ (t.coll c.val).landed = [] ∧
          Counts F.COLL_RES_MISMATCH c.val bad.sum s t) ∧
      ((∃ n ∈ bad, retry < n) → Gives (.transferLanded c i q bad) s fun t =>
        Tab.get? (t.coll c.val).chunks i = some { k with dead := true } ∧ Counts F.COLL_RES_FAIL c.val 1 s t ∧ bitOf t.pick.causes 2 = true))

/-- The collective engine. -/
def Obligations.CollectiveEngine : Prop := Claims.CollectiveScriptsBegin ∧ Claims.CollectiveChunks

/-! ### The audit unit -/

/-- TREE_REHASH, SEAL_REQUEST, VERIFY_START and VERIFY_DONE (R395, R398, R400, R401, Table 14.11), where what each reads and writes need not wait: the
root follows the block digests, and the tree is kept in its area; a request whose pick has not committed waits; the next one has its record written,
and the ring's CONSUMER moves on by one; VERIFY loads a matching root into WD_START. -/
def Obligations.AuditUnit : Prop :=
  ∀ s : State,
    let free := fun (rs ws : List (Nat × Nat)) => (∀ r ∈ rs, s.accWaits false r.1 r.2 = false) ∧ ∀ w ∈ ws, s.accWaits true w.1 w.2 = false
    let root := digestNat s.weightsDigest
    (s.audit.dirty = [] → Does .treeRehash s s) ∧
    (s.audit.dirty ≠ [] → free s.treeReads [s.treeArea] → Gives .treeRehash s fun t => t.audit.root = root ∧ t.audit.dirty = [] ∧
      t.mem = (s.keepTree root).mem ∧ t.regs = s.regs) ∧
    (s.audit.producerAtEdge ≤ s.sealConsumer → Does .sealRequest s s) ∧
    (let i := s.sealConsumer
     let b := s.unitRead (s.sealSlot i) 64
     let q := sealReqOf b
     let code := s.sealCode q
     let vs := if code = 0 then s.sealValues q else []
     i < s.audit.producerAtEdge →
      (leAt b 63 1 ≠ s.sealLap i → Does .sealRequest s s) ∧
      (leAt b 63 1 = s.sealLap i → free ((s.sealBase, 16) :: (s.sealSlot i, 64) :: q.ranges) [(q.out, 288), (s.sealBase + 8, 8)] →
        ∃ u : State, Does .sealRequest s (u.writeMem none (u.sealBase + 8) (toLe 8 (i + 1))) ∧
          u.mem = (s.writeMem s.ringOwner q.out (sealRecord code q.tag q.step (if code = 0 then sealOf vs else []) vs)).mem ∧
          u.fld F.AUDIT_SEAL_CNT 0 = (s.fld F.AUDIT_SEAL_CNT 0 + 1) % 2 ^ F.AUDIT_SEAL_CNT.w ∧
          (code ≠ 0 → Counts F.AUDIT_SEAL_ERR 0 1 s u))) ∧
    (∀ ag mode, mayWrite ag 13 0 s → s.audit.verify = false → Gives (.verifyStart ag mode) s fun t => t.audit.verify = true ∧
      t.fld F.AUDIT_VERIFY_CTL_START 0 = 1 ∧ t.fld F.AUDIT_VERIFY_CTL_MODE 0 = bit mode ∧ t.mem = s.mem) ∧
    (s.audit.verify = false → Does .verifyDone s s) ∧
    (s.audit.verify = true → s.flag F.AUDIT_VERIFY_CTL_MODE 0 = false → free s.verifyReads s.verifyWrites → Gives .verifyDone s fun t =>
      t.audit.verify = false ∧ t.fld F.AUDIT_VERIFY_CTL_START 0 = 0 ∧ t.audit.root = root ∧ t.mem = (s.keepTree root).mem ∧
        (digestNat (s.digestReg F.AUDIT_VERIFY_REF) = root → t.fld F.AUDIT_AUD_STAT_VERIFY_RESULT 0 = 1 ∧
          t.digestReg F.AUDIT_WD_START = s.digestReg F.AUDIT_VERIFY_REF) ∧
        (digestNat (s.digestReg F.AUDIT_VERIFY_REF) ≠ root → t.fld F.AUDIT_AUD_STAT_VERIFY_RESULT 0 = 2 ∧
          t.digestReg F.AUDIT_WD_START = s.digestReg F.AUDIT_WD_START))

/-! ### The field service -/

/-- FRAME_RECEIVE, ARP_REQUEST, NEIGHBOR_SOLICITATION, ECHO_REQUEST, PORT_UP and PORT_DOWN (R414, R415, R436): a frame outside Table 15.1 is
dropped and counted; while the management cores run, the port answers for its own addresses and an echo. -/
def Sys2Proof.Claims.PortFrames : Prop :=
  ∀ (p : Fin 2) (s : State),
    let i := p.val
    (∀ f, s.portLive i = false → Does (.frameReceive p f) s s) ∧
    (∀ f, s.portLive i = true → Gives (.frameReceive p f) s fun t =>
      t.fld F.FIELD_RX_FRAMES i = (s.fld F.FIELD_RX_FRAMES i + 1) % 2 ^ F.FIELD_RX_FRAMES.w ∧
        (s.frameUnsupported i f = true → Counts F.FIELD_RX_DROP i 1 s t) ∧
        (s.frameUnsupported i f = false → t.fld F.FIELD_RX_DROP i = s.fld F.FIELD_RX_DROP i)) ∧
    (∀ target sender, s.portLive i = true → s.coresUp = true → s.flag F.FIELD_IP4_CFG_V4_EN i = true →
      (target.toNat = s.fld F.FIELD_IP4_ADDR i → Gives (.arpRequest p target sender) s fun t =>
        t.sent = .frame i 1 (toBe 6 (s.macOf i) ++ toBe 4 target.toNat ++ toBe 6 sender.toNat) :: s.sent) ∧
      (target.toNat ≠ s.fld F.FIELD_IP4_ADDR i → Does (.arpRequest p target sender) s s)) ∧
    (∀ target sender, s.portLive i = true → s.coresUp = true → s.flag F.FIELD_IP6_CFG_V6_EN i = true → target.toNat = s.ip6Of i →
      Gives (.neighborSolicitation p target sender) s fun t =>
        t.sent = .frame i 2 (toBe 6 (s.macOf i) ++ toBe 16 target.toNat ++ toBe 6 sender.toNat) :: s.sent) ∧
    (∀ src data, src.port = p → s.portLive i = true → s.coresUp = true →
      (s.flag F.FIELD_IP4_CFG_V4_EN i = true → Gives (.echoRequest src false data) s fun t =>
        t.sent = .frame i 3 (toBe 4 src.ip.toNat ++ data) :: s.sent) ∧
      (s.flag F.FIELD_IP6_CFG_V6_EN i = true → Gives (.echoRequest src true data) s fun t =>
        t.sent = .frame i 4 (toBe 16 src.ip.toNat ++ data) :: s.sent)) ∧
    (s.coresUp = false → (∀ target sender, Does (.arpRequest p target sender) s s) ∧ (∀ target sender, Does (.neighborSolicitation p target sender) s s) ∧
      ∀ src v6 data, Does (.echoRequest src v6 data) s s) ∧
    (s.flag F.FIELD_PORT_CTL_ENABLE i = true → s.flag F.FIELD_PORT_STAT_LINK_UP i = false → Gives (.portUp p) s fun t =>
      t.fld F.FIELD_PORT_STAT_LINK_UP i = 1 ∧ bitOf (t.fld (F.EVT_STAT 11) i) Ev.FIELD_PORT_UP = true) ∧
    (s.flag F.FIELD_PORT_CTL_ENABLE i = false → Does (.portUp p) s s) ∧
    (s.flag F.FIELD_PORT_STAT_LINK_UP i = true → Gives (.portDown p) s fun t =>
      t.fld F.FIELD_PORT_STAT_LINK_UP i = 0 ∧ bitOf (t.fld (F.EVT_STAT 11) i) Ev.FIELD_PORT_DOWN = true)

/-- The PTP messages (R416, R417): the offset and the path delay, the lock after 16 Syncs within 100 ns, the best grandmaster, and what a
grandmaster and a time receiver send. -/
def Sys2Proof.Claims.PortClock : Prop :=
  ∀ (p : Fin 2) (s : State),
    let i := p.val
    let x := s.ptp i
    (∀ two t1 t2, s.ptpRole i 1 = false → Does (.ptpSync p two t1 t2) s s) ∧
    (s.ptpRole i 1 = true →
      (∀ t1 t2 : Nat, let off : Int := t2 - t1 - x.delay
        Gives (.ptpSync p false t1 t2) s fun t => (t.ptp i).offset = off ∧ (t.ptp i).good = (if off.natAbs ≤ 100 then x.good + 1 else 0) ∧
          (off.natAbs ≤ 100 → 15 ≤ x.good → (t.ptp i).locked = true) ∧ (t.ptp i).t1 = t1 ∧ (t.ptp i).t2 = t2) ∧
      (∀ t1 t2, Gives (.ptpSync p true t1 t2) s fun t => (t.ptp i).t2 = t2 ∧ (t.ptp i).waitFollowUp = true ∧ (t.ptp i).offset = x.offset) ∧
      (∀ t1 : Nat, x.waitFollowUp = true → Gives (.ptpFollowUp p t1) s fun t => (t.ptp i).offset = (x.t2 : Int) - t1 - x.delay ∧
        (t.ptp i).waitFollowUp = false) ∧
      (∀ t3 t4 : Nat, Gives (.ptpDelayResp p t3 t4) s fun t => (t.ptp i).delay = (((x.t2 : Int) - x.t1) + ((t4 : Int) - t3)) / 2) ∧
      (∀ prio clock b, x.best = some b → (prio.toNat < b.1 → Gives (.ptpAnnounce p prio clock) s fun t =>
        (t.ptp i).best = some (prio.toNat, clock.toNat)) ∧ (b.1 < prio.toNat → Does (.ptpAnnounce p prio clock) s s)) ∧
      (∀ ts, Gives (.ptpMessageInterval p 2 ts) s fun t => (t.ptp i).t3 = ts ∧ t.sent = .frame i 7 [] :: s.sent)) ∧
    (s.ptpRole i 2 = true →
      (∀ rx, Gives (.ptpDelayReq p rx) s fun t => t.sent = .frame i 8 (toBe 10 rx) :: s.sent) ∧
      (∀ ts, Gives (.ptpMessageInterval p 0 ts) s fun t => t.sent = .frame i 6 (toBe 10 ts) :: .frame i 5 [] :: s.sent)) ∧
    (x.locked = true → Gives (.ptpLockLost p) s fun t => (t.ptp i).locked = false ∧ (t.ptp i).good = 0 ∧
      bitOf (t.fld (F.EVT_STAT 11) i) Ev.FIELD_PTP_LOCK_LOST = true) ∧
    (x.locked = false → Does (.ptpLockLost p) s s)

/-- The field ports. -/
def Obligations.FieldPorts : Prop := Claims.PortFrames ∧ Claims.PortClock

/-- OPEN, OPEN_FRAGMENT_TIMEOUT, CONFIRM, CONFIRM_TIMEOUT, DATA, KEEPALIVE, CLOSE, REQUEST_FRAGMENT_TIMEOUT and SESSION_IDLE_TIMEOUT (R418 to
R425): fragments join until the body is whole, which is then judged (`State.judgeOpen`); a record of an unknown session fails; a confirmed signature opens the session, a record seen
before is dropped, and a closed session gives its heddle back. -/
def Sys2Proof.Claims.TrellisSessions : Prop :=
  (∀ (r : HsRecord) (s : State), s.trellisOn = true →
    let hs := r.counter.toNat
    let id := r.session.toNat
    (r.session ≠ 0 → s.coresUp = true → Gives (.openSession r) s fun t => Counts F.FIELD_AUTH_FAIL r.src.port.val 1 s t) ∧
    (r.session = 0 → s.coresUp = true → (∀ h ∈ s.field.handshakes, h.hs ≠ hs) → s.handshakesOpen < 64 →
      (r.fragCnt = 2 → Gives (.openSession r) s fun t =>
        t.field.handshakes = s.field.handshakes ++ [{ src := r.src, hs := hs, count := 2, frags := [(r.fragIdx.val, r.body)] }]) ∧
      (r.fragCnt = 1 → r.fragIdx = 0 → Does (.openSession r) s (s.judgeOpen r.src hs r.body))) ∧
    (s.session id = none → (Gives (.confirm r) s fun t => Counts F.FIELD_AUTH_FAIL r.src.port.val 1 s t) ∧
      Gives (.data r) s fun t => Counts F.FIELD_AUTH_FAIL r.src.port.val 1 s t) ∧
    (∀ x sig, s.session id = some x → x.confirmed = false →
      Config.gcmOpen (s.sessionKey x false) (recordHeader 3 id r.counter.toNat) r.body = some sig →
      Config.verifySig x.clientKey (sha384 x.opened) sig = true → Gives (.confirm r) s fun t =>
        t.session id = some { x with confirmed := true, addr := some r.src, recvMax := r.counter.toNat, replay := [r.counter.toNat] }) ∧
    (∀ x msg, s.session id = some x → x.confirmed = true →
      Config.gcmOpen (s.sessionKey x false) (recordHeader 5 id r.counter.toNat) r.body = some msg →
      (r.counter.toNat ∈ x.replay ∨ r.counter.toNat + 64 < x.recvMax → Gives (.data r) s fun t =>
        Counts F.FIELD_REPLAY_DROP r.src.port.val 1 s t ∧ t.field = s.field) ∧
      (r.counter.toNat ∉ x.replay → x.recvMax ≤ r.counter.toNat → r.counter.toNat < 2 ^ 32 → Gives (.data r) s fun t =>
        ∃ y, t.session id = some y ∧ y.recvMax = r.counter.toNat ∧ r.counter.toNat ∈ y.replay ∧ y.addr = some r.src))) ∧
  ∀ (id : Word) (s : State) (x : Session), s.session id.toNat = some x →
    let gone := fun (t : State) => t.session id.toNat = none ∧ Tab.get? t.fab.heddles x.heddle = none
    (x.confirmed = false → Gives (.confirmTimeout id) s gone) ∧
    (x.confirmed = true → Does (.confirmTimeout id) s s ∧ Gives (.close id) s gone ∧ Gives (.sessionIdleTimeout id) s gone ∧
      ∀ a, x.addr = some a → x.sendCtr + 1 < 2 ^ 32 → Gives (.keepalive id) s fun t =>
        t.session id.toNat = some { x with sendCtr := x.sendCtr + 1 } ∧ t.sent = .control id.toNat 3 :: s.sent) ∧
    (∀ (sub : Fin 16) (q : Word), Gives (.requestFragmentTimeout id sub q) s fun t =>
      ∃ y, t.session id.toNat = some y ∧ Tab.get? y.frags (sub.val * 2 ^ 32 + q.toNat) = none) ∧
    ∀ (src : NetAddr) (hs : Dword), Gives (.openFragmentTimeout src hs) s fun t =>
      (∀ h ∈ t.field.handshakes, ¬(h.src.ip = src.ip ∧ h.src.udp = src.udp ∧ h.hs = hs.toNat)) ∧ t.field.sessions = s.field.sessions

/-- SOLVE, EVAL and PLAN (R426 to R430): outside Dormant a request below the window answers STALE, one that was answered is answered again, one
that is malformed or too early answers at once, and any other joins the batch of the next work pick. -/
def Sys2Proof.Claims.TrellisRequests : Prop :=
  ∀ (r : Request) (s : State) (x : Session),
    let id := r.session.toNat
    let q := r.seq.toNat
    let c := x.sub r.sub.val
    ∀ k ∈ [(Instr.solve r, 1), (.eval r, 2), (.plan r, 3)],
      (s.openSession id = none → Does k.1 s s) ∧
      (s.session id = some x → x.confirmed = true → s.fld F.POWER_PWR_STAT_STATE 0 = 0 → s.flag F.POWER_DORM_CTL_WAKE_ON_REQ 0 = false → ∀ a, x.addr = some a →
        x.sendCtr = 0 →
        (∀ h, c.high = some h → follows32 q h = false → inSeqWindow h q = false → Gives k.1 s fun t =>
          t.sent = .reply id r.sub.val q 2 0 [] :: s.sent) ∧
        (∀ h, c.high = some h → follows32 q h = false → inSeqWindow h q = true → q ∈ c.window → Tab.get? c.cache q = none →
          Gives k.1 s fun t => Counts F.FIELD_DUP_PENDING 0 1 s t ∧ t.sent = s.sent) ∧
        (∀ h y, c.high = some h → follows32 q h = false → inSeqWindow h q = true → q ∈ c.window → Tab.get? c.cache q = some y →
          y.2.2 = [] → Gives k.1 s fun t => t.sent = .reply id r.sub.val q y.1 y.2.1 [] :: s.sent ∧ Counts F.FIELD_DUP_REPLY 0 1 s t) ∧
        (c.high = none → r.reservedOk = false → Gives k.1 s fun t => t.sent = .reply id r.sub.val q 4 0 [] :: s.sent ∧
          t.fld F.FIELD_REQ_CNT 0 = (s.fld F.FIELD_REQ_CNT 0 + 1) % 2 ^ F.FIELD_REQ_CNT.w) ∧
        (c.high = none → r.reservedOk = true → (k.2 = 1 → solveBodyOk r.body = true) →
          (k.2 ≠ 1 → r.model.toNat < (s.svcMap x.part).models) → r.deadline.toNat ≤ s.pick.num + 2 ^ 20 → s.pick.stage = .open →
          s.pick.num + 2 ≤ r.deadline.toNat → Tab.get [] s.field.queued x.part = [] →
          (∀ item : PendReq, item.op = k.2 → item.body = r.body →
            (layBatch (s.svcMap x.part) (s.areaBase x.part) (s.pick.work + 1) [item]).full = false) →
          Gives k.1 s fun t => t.sent = s.sent ∧ ∃ item : PendReq, Tab.get [] t.field.queued x.part = [item] ∧ item.session = id ∧
            item.sub = r.sub.val ∧ item.seq = q ∧ item.op = k.2 ∧ item.deadline = r.deadline.toNat ∧ item.body = r.body))

/-- Trellis. -/
def Obligations.TrellisService : Prop := Claims.TrellisSessions ∧ Claims.TrellisRequests


/-! ### The host port -/

/-- QUEUE_ENABLE, SQ_DOORBELL, CQ_DOORBELL and COMMAND_COMPLETE (R446 to R450): a queue starts empty, an index outside its queue stops it, a
command's completion is one 16-byte entry; MSIX_UNMASK (R445): a vector that is unmasked sends its pending message. -/
def Sys2Proof.Claims.QueueRegisters : Prop :=
  (∀ (fn : Fin 9) (q : Fin 16) (s : State),
    let f := fn.val
    let k := q.val
    let x := s.queue f k
    (s.fnLive f = true → queueExists f k = true → s.dormant = false →
      (∀ cfg : Word, let en := bitOf cfg.toNat 31
        (x.enable = true → en = true → Does (.queueEnable fn q cfg) s s) ∧
        (x.enable = true → en = false → Gives (.queueEnable fn q cfg) s fun t => (t.queue f k).enable = false ∧ (t.queue f k).done = none) ∧
        (x.enable = false → en = true → Gives (.queueEnable fn q cfg) s fun t =>
          t.queue f k = { sqBase := x.sqBase, cqBase := x.cqBase, sqLog := bitsOf cfg.toNat 0 4, cqLog := bitsOf cfg.toNat 4 4,
                          vector := bitsOf cfg.toNat 8 10, irqEn := bitOf cfg.toNat 18, enable := true }) ∧
        (x.enable = false → en = false → Gives (.queueEnable fn q cfg) s fun t =>
          t.queue f k = { x with sqLog := bitsOf cfg.toNat 0 4, cqLog := bitsOf cfg.toNat 4 4, vector := bitsOf cfg.toNat 8 10
                                 irqEn := bitOf cfg.toNat 18 })) ∧
      (∀ v : Word, let w := v.toNat % 4096
        (w < 2 ^ x.sqLog → Gives (.sqDoorbell fn q v []) s fun t => t.queue f k = { x with sqTail := w } ∧ t.regs = s.regs) ∧
        (2 ^ x.sqLog ≤ w → Gives (.sqDoorbell fn q v []) s fun t => (t.queue f k).error = true ∧ Counts F.HOST_CMD_ERR 0 1 s t) ∧
        (w < 2 ^ x.cqLog → Gives (.cqDoorbell fn q v) s fun t => (t.queue f k).cqHead = w ∧
          (t.queue f k).cqUsed = x.cqUsed - (w + 2 ^ x.cqLog - x.cqHead) % 2 ^ x.cqLog) ∧
        (2 ^ x.cqLog ≤ w → Gives (.cqDoorbell fn q v) s fun t => (t.queue f k).error = true ∧ Counts F.HOST_CMD_ERR 0 1 s t))) ∧
    (s.fnLive f = false ∨ queueExists f k = false → ∀ v : Word,
      Does (.queueEnable fn q v) s s ∧ Does (.sqDoorbell fn q v []) s s ∧ Does (.cqDoorbell fn q v) s s) ∧
    (x.done = none ∨ x.enable = false ∨ x.error = true ∨ s.fnLive f = false → Does (.commandComplete fn q) s s) ∧
    (∀ d, x.done = some d → x.enable = true → x.error = false → s.fnLive f = true →
      (2 ^ x.cqLog ≤ x.cqUsed → Does (.commandComplete fn q) s s) ∧
      (x.cqUsed < 2 ^ x.cqLog → Gives (.commandComplete fn q) s fun t =>
        let head := (x.sqHead + 1) % 2 ^ x.sqLog
        let tail := (x.cqTail + 1) % 2 ^ x.cqLog
        t.host.mem = memWrite s.host.mem (x.cqBase + 16 * x.cqTail)
            (toLe 2 d.cid ++ toLe 2 head ++ toLe 1 d.status ++ toLe 1 (bit x.phase) ++ toLe 2 0 ++ toLe 8 d.info) ∧
          t.queue f k = { x with done := none, sqHead := head, cqTail := tail, cqUsed := x.cqUsed + 1,
                                 phase := if tail = 0 then !x.phase else x.phase } ∧
          t.fld F.HOST_CMD_CNT 0 = (s.fld F.HOST_CMD_CNT 0 + 1) % 2 ^ F.HOST_CMD_CNT.w ∧
          (d.status ≠ 0 → Counts F.HOST_CMD_ERR 0 1 s t) ∧
          (x.irqEn = true → vectorOf f x.vector ∈ s.host.unmasked → .msix (vectorOf f x.vector) ∈ t.sent) ∧
          (x.irqEn = true → vectorOf f x.vector ∉ s.host.unmasked → vectorOf f x.vector ∈ t.host.pba)))) ∧
  ∀ (vec : Fin 2048) (s : State), Gives (.msixUnmask vec) s fun t =>
    vec.val ∈ t.host.unmasked ∧ vec.val ∉ t.host.pba ∧ t.sent = (if vec.val ∈ s.host.pba then .msix vec.val :: s.sent else s.sent)

/-- QUEUE_NOP, COPY_IN, COPY_OUT, FILL, DIGEST, QUEUE_SIG and QUEUE_WAIT (R449, R450, Tables 16.4 and 16.5): what each writes and how it
completes: BAD_CMD, UNMAPPED with the first failing address, HOST_ERR, POISON, or OK. -/
def Sys2Proof.Claims.QueueCommands : Prop :=
  ∀ (fn : Fin 9) (q : Fin 16) (s : State) (c : QCmd),
    let f := fn.val
    let who := fnPart f
    let ends := fun (status info : Nat) (t : State) => (t.queue f q.val).done = some ⟨c.cid, status, info⟩
    s.nextCmd f q.val = some c →
    (c.bad = true → ∀ r ∈ [Instr.queueNop fn q, .copyIn fn q false, .copyOut fn q false, .fill fn q, .digest fn q false, .queueSig fn q,
      .queueWait fn q], Gives r s fun t => ends 1 0 t ∧ t.mem = s.mem) ∧
    (c.bad = false →
      (c.opc = 0 → Gives (.queueNop fn q) s fun t => ends 0 0 t ∧ t.mem = s.mem ∧ t.host.mem = s.host.mem) ∧
      (∀ r ∈ [(Instr.copyIn fn q true, 1), (.copyOut fn q true, 2), (.digest fn q true, 4)], c.opc = r.2 → Gives r.1 s fun t =>
        ends 3 c.host t ∧ t.mem = s.mem) ∧
      (∀ r ∈ [(Instr.copyIn fn q false, 1, true), (.copyOut fn q false, 2, false), (.fill fn q, 3, true), (.digest fn q false, 4, false),
        (.queueSig fn q, 5, true), (.queueWait fn q, 6, false)], c.opc = r.2.1 → (5 ≤ c.opc → c.dev % 8 = 0) →
        s.accWaits r.2.2 c.dev c.len = false → (s.cmdCheck f r.2.2 c.dev c.len).st ≠ 0 → Gives r.1 s
          (ends 2 (s.cmdCheck f r.2.2 c.dev c.len).addr)) ∧
      (s.accWaits true c.dev c.len = false → (s.cmdCheck f true c.dev c.len).st = 0 →
        let u := s.touch who true c.dev c.len
        (c.opc = 1 → Gives (.copyIn fn q false) s fun t => ends 0 c.len t ∧
          t.mem = (u.writeMem who c.dev (s.hostRead c.host c.len)).mem) ∧
        (c.opc = 3 → Gives (.fill fn q) s fun t => ends 0 c.len t ∧ ∃ b : List Byte, b.length = c.len ∧
          (∀ i < c.len, b[i]? = (toLe 8 c.value)[i % 8]?) ∧ t.mem = (u.writeMem who c.dev b).mem) ∧
        (c.opc = 5 → c.dev % 8 = 0 → Gives (.queueSig fn q) s fun t => ends 0 8 t ∧
          t.mem = (u.writeMem who c.dev (toLe 8 (leNat (u.readMem none c.dev 8).data + c.value))).mem)) ∧
      (s.accWaits false c.dev c.len = false → (s.cmdCheck f false c.dev c.len).st = 0 →
        let u := s.touch who false c.dev c.len
        let r := u.readMem who c.dev c.len
        (c.opc = 2 → memWf s.host.mem → r.poison = [] → Gives (.copyOut fn q false) s fun t => ends 0 c.len t ∧
          t.hostRead c.host c.len = r.data) ∧
        (c.opc = 4 → r.poison = [] → r.acs.st = 0 → Gives (.digest fn q false) s fun t => ends 0 c.len t ∧
          t.host.mem = memWrite s.host.mem c.host (sha256 r.data)) ∧
        (∀ b l, r.poison = b :: l → (c.opc = 2 → Gives (.copyOut fn q false) s (ends 4 (c.dev + 64 * b))) ∧
          (c.opc = 4 → Gives (.digest fn q false) s (ends 4 (c.dev + 64 * b)))) ∧
        (c.opc = 6 → c.dev % 8 = 0 →
          let v := leNat (u.readMem who c.dev 8).data
          (c.value ≤ v → Gives (.queueWait fn q) s (ends 0 8)) ∧
          (v < c.value → Gives (.queueWait fn q) s fun t => (t.queue f q.val).waiting = true ∧ (t.queue f q.val).done = none ∧
            t.mem = s.mem))))

/-- The host port's queues. -/
def Obligations.HostQueues : Prop := Claims.QueueRegisters ∧ Claims.QueueCommands

/-- BAR2_ACCESS and CXL_MEM_REQUEST (R440, R442, R443, R304, R489): the memory and the register page that BAR2 reaches; what the host reads and
writes as CXL memory, and the line's entry in the snoop filter. -/
def Sys2Proof.Claims.HostAccesses : Prop :=
  (∀ (fn : Fin 9) (off len : Nat) (data : List Byte) (s : State),
    let f := fn.val
    let a := s.fld (F.HOST_BAR2_MAP_LO.nth f) 0 * 2 ^ 30 + s.fld (F.HOST_BAR2_MAP_HI.nth f) 0 * 2 ^ 32 + off
    (s.fnLive f = false → ∀ w, Does (.bar2Access fn w off len data false) s (s.emit (.unsupported f))) ∧
    (s.fnLive f = true → s.dormant = false →
      (regionOf a = .page → pageExists a = true →
        Does (.bar2Access fn true off len data false) s (s.regWrite (fnAccess f) a len (leNat (padTo len data)))) ∧
      (regionOf a ≠ .page → s.accWaits true a len = false → (s.landAll (fnPart f) false true a len).st = 0 →
        Gives (.bar2Access fn true off len data false) s fun t =>
          t.mem = ((s.touch (fnPart f) true a len).landBytes (fnPart f) false a (padTo len data) []).mem ∧ t.sent = s.sent) ∧
      (regionOf a ≠ .page → s.accWaits true a len = false → (s.landAll (fnPart f) false true a len).st = 0 →
        (∀ x ∈ pieces a len, regionOf (a + x.1) ≠ .host ∧ regionOf (a + x.1) ≠ .page) →
        Gives (.bar2Access fn true off len data true) s fun t => Counts F.HOST_EP_RX 0 1 s t ∧
          ∀ x ∈ pieces a len, s.place (a + x.1) / 64 ∈ t.poison) ∧
      (regionOf a ≠ .page → s.accWaits false a len = false → (s.landAll (fnPart f) false false a len).st = 0 →
        let r := (s.touch (fnPart f) false a len).readMem (fnPart f) a len
        Gives (.bar2Access fn false off len data false) s fun t =>
          t.mem = s.mem ∧ t.sent = .tlpData f r.data (!r.poison.isEmpty) :: s.sent))) ∧
  ∀ (addr : BitVec 48) (data : List Byte) (own : Bool) (s : State),
    let a := addr.toNat / 64 * 64
    let f := s.filterOf (homeDie a)
    (s.flag F.HOST_LINK_STAT_LINK_UP 0 && s.flag F.HOST_LINK_STAT_MEM_EN 0) = true → s.dormant = false → s.hcached a = true →
    (Gives (.cxlMemRequest true addr data own) s fun t => t.mem = (s.storeBlock a (padTo 64 data) false).mem ∧
      (own = false → ∀ e ∈ t.filterOf (homeDie a), e.1 ≠ a / 64)) ∧
    (s.fenceWaits a 64 = true → Does (.cxlMemRequest false addr data own) s s) ∧
    (s.fenceWaits a 64 = false →
      (f.length < 262144 ∨ (∃ e ∈ f, e.1 = a / 64) → Gives (.cxlMemRequest false addr data own) s fun t =>
        t.sent = .cxlData a (s.readMem none a 64).data :: s.sent ∧ t.mem = s.mem ∧
          ∃ e ∈ t.filterOf (homeDie a), e.1 = a / 64 ∧ (own = true → e.2 = true)) ∧
      (262144 ≤ f.length → (∀ e ∈ f, e.1 ≠ a / 64) → ∀ e l, f = e :: l →
        s.cellar.asked.contains (e.1, true) = false → Gives (.cxlMemRequest false addr data own) s fun t =>
          t.sent = .bisnp (e.1 * 64) true :: s.sent))

/-- HOST_LINK_DOWN, HOST_LINK_UP, FLR and HOST_PERST (R452, R448, R494): a lost link stops every queue; a function reset puts the function's
queues, and for the PF those of every function with BAR2_MAP and EVT_VEC, at their reset values. -/
def Sys2Proof.Claims.HostLinkAndResets : Prop :=
  ∀ s : State,
    (s.flag F.HOST_LINK_STAT_LINK_UP 0 = false → Does .hostLinkDown s s) ∧
    (s.flag F.HOST_LINK_STAT_LINK_UP 0 = true → Gives .hostLinkDown s fun t =>
      t.fld F.HOST_LINK_STAT_LINK_UP 0 = 0 ∧ bitOf (t.fld (F.EVT_STAT 10) 0) Ev.HOST_LINK_DOWN = true ∧
        (∀ e ∈ t.host.queues, e.2.enable = false) ∧ t.mem = s.mem) ∧
    (∀ (speed : Fin 8) (width : Fin 32) (cxl ce me : Bool), Gives (.hostLinkUp speed width cxl ce me) s fun t =>
      t.fld F.HOST_LINK_STAT_LINK_UP 0 = 1 ∧ t.fld F.HOST_LINK_STAT_SPEED 0 = speed.val ∧ t.fld F.HOST_LINK_STAT_WIDTH 0 = width.val ∧
        t.fld F.HOST_LINK_STAT_CXL 0 = bit cxl ∧ t.fld F.HOST_LINK_STAT_CACHE_EN 0 = bit ce ∧ t.fld F.HOST_LINK_STAT_MEM_EN 0 = bit me ∧
        ∀ e ∈ t.host.queues, e.2.enable = false) ∧
    (∀ fn : Fin 9, fn.val ≠ 0 → Gives (.flr fn) s fun t => t.regs = s.regs ∧ ∀ g k : Nat, k < 16 →
      t.queue g k = if g = fn.val then {} else s.queue g k) ∧
    (Gives (.flr 0) s fun t => t.host.queues = [] ∧
      (∀ k < 9, t.fld (F.HOST_BAR2_MAP_LO.nth k) 0 = (F.HOST_BAR2_MAP_LO.nth k).resetOf 0 ∧
        t.fld (F.HOST_BAR2_MAP_HI.nth k) 0 = (F.HOST_BAR2_MAP_HI.nth k).resetOf 0) ∧
      ∀ k < 19, t.fld (F.HOST_EVT_VEC.nth k) 0 = (F.HOST_EVT_VEC.nth k).resetOf 0) ∧
    (Gives (.hostPerst true) s fun t => t.power.perstN = false ∧ t.host.queues = [] ∧ t.host.pba = [] ∧ t.host.unmasked = [] ∧
      (s.fld F.HOST_LINK_STAT_LINK_UP 0 ≤ 1 → t.fld F.HOST_LINK_STAT_LINK_UP 0 = 0)) ∧
    Gives (.hostPerst false) s fun t => t.power.perstN = true ∧ t.host = s.host ∧ t.regs = s.regs

/-- The host's accesses, its link and the resets of its functions. -/
def Obligations.HostAccessesAndResets : Prop := Claims.HostAccesses ∧ Claims.HostLinkAndResets

/-! ### Management, security, sideband, cellar book -/
namespace Sys2Proof.Claims

/-- The event `b` of a page is set. -/
def evtSet (ty i b : Nat) (t : State) : Prop := bitOf (t.fld (F.EVT_STAT ty) i) b = true

/-- What a warm reset leaves (Table 17.4), where the book's queue has a usable entry and no cached line was dirty: every register but the
sideband's own at its reset value, DRAM, fuses, NOR and book kept, the management cores not yet started. -/
def warm (s t : State) : Prop :=
  (∀ f i, standbyKeys.contains (f.key i) = false → t.fld f i = f.resetOf i) ∧ t.mem = s.mem.filter (fun e => decide (e.1 < dramEnd)) ∧
    t.locked = false ∧ t.armed = none ∧ t.cores = [] ∧ t.nor = s.nor ∧ t.host.mem = s.host.mem ∧ t.book.a = s.book.a ∧ t.book.b = s.book.b ∧
    t.mgmt.arbCount = s.mgmt.arbCount ∧ t.mgmt.revoked = s.mgmt.revoked ∧ t.pending = s.pending

end Sys2Proof.Claims

/-- BOOT (R456): the slot with the higher IMG_SEQ is tried first, then the other; one that fails a test or is below the anti-rollback count is
passed over; with neither the device stays in its failed state. BOOT_DONE (R458): taken once, from the management cores alone; it sets the
lock. KICK, WATCHDOG_EXPIRE and MGMT_SRAM_UNCORR (R455). -/
def Sys2Proof.Claims.BootAndWatchdog : Prop :=
  (∀ (s : State) (a b : Nat), s.standby = false → (a, b) = (if (s.slotHdr 0).imgSeq < (s.slotHdr 1).imgSeq then (1, 0) else (0, 1)) →
    let may := fun (k : Nat) => s.slotOk (s.slotHdr k) = true ∧ s.mgmt.arbCount ≤ (s.slotHdr k).svn
    let runs := fun (k : Nat) (t : State) => t.fld F.MGMT_MGMT_STAT_BOOT_STATE 0 = 1 ∧ t.fld F.MGMT_MGMT_STAT_SLOT 0 = k ∧
      t.fld F.MGMT_MGMT_STAT_SVN 0 = (s.slotHdr k).svn % 2 ^ 7 ∧ t.mgmt.keySlot = (s.slotHdr k).keySlot ∧
      t.mgmt.imgHash = (s.slotHdr k).part 32 48 ∧ t.mem = s.mem
    (may a → Gives .boot s (runs a)) ∧
    (¬may a → may b → Gives .boot s fun t => runs b t ∧ evtSet 16 0 Ev.SEC_BOOT_FALLBACK t) ∧
    (¬may a → ¬may b → Gives .boot s fun t => t.fld F.MGMT_MGMT_STAT_BOOT_STATE 0 = 3 ∧ t.fld F.MGMT_MGMT_STAT_CORES_UP 0 = 0)) ∧
  (∀ s : State, s.standby = true → Does .boot s s) ∧
  (∀ (ag : Agent) (s : State), mayWrite ag 14 0 s →
    let c := (s.accessOf ag).code
    (c = 0x0A → s.mgmt.bootAccepted = false → Gives (.bootDone ag) s fun t => t.locked = true ∧ t.mgmt.bootAccepted = true ∧
      t.fld F.MGMT_MGMT_STAT_BOOT_STATE 0 = 2 ∧ t.mem = s.mem ∧ t.shadow = s.shadow) ∧
    (c ≠ 0x0A ∨ s.mgmt.bootAccepted = true → Does (.bootDone ag) s (s.countErr 14 0 errPriv (pageAddr 14 0 0x084) c)) ∧
    (Gives (.kick ag) s fun t => t.mgmt.kicks = s.mgmt.kicks + 1 ∧ { t with mgmt := s.mgmt } = s)) ∧
  ∀ s : State,
    let down := fun (t : State) => t.fld F.MGMT_MGMT_STAT_BOOT_STATE 0 = 0 ∧ t.fld F.MGMT_MGMT_STAT_CORES_UP 0 = 0 ∧ t.mgmt.spdmState = 0 ∧
      t.mem = s.mem ∧ t.locked = s.locked
    (s.fld F.MGMT_WDOG_TIMEOUT_MS 0 = 0 → Does .watchdogExpire s s) ∧
    (s.fld F.MGMT_WDOG_TIMEOUT_MS 0 ≠ 0 → Gives .watchdogExpire s fun t => down t ∧ Counts F.MGMT_WDOG_CNT 0 1 s t) ∧
    Gives .mgmtSramUncorr s fun t => down t ∧ Counts F.MGMT_MGMT_ECC_UNCORR 0 1 s t

/-- WARM_RST, RESET_N_LOW and HELD_WARM_RESET (R463, R486, Table 17.4), PART_RST and PART_RESET_DONE (R464). -/
def Sys2Proof.Claims.Resets : Prop :=
  (∀ s : State, s.standby = false → s.book.queue.length < 240 → (∀ e ∈ s.cellar.lines, e.2.dirty = false) →
    (s.pwrState ≠ 4 → (∀ ag, mayWrite ag 14 0 s → Gives (.warmRst ag) s (warm s)) ∧
      ∀ us, 10 ≤ us → Gives (.resetNLow us) s fun t => warm s t ∧ t.power.resetN = false) ∧
    (s.pwrState = 4 → s.belowThrottle = false → ∀ ag, mayWrite ag 14 0 s → Gives (.warmRst ag) s fun t =>
      t.power.critHeld = true ∧ t.regs = s.regs) ∧
    (∀ (die : Fin 25) (temp : Int), s.power.critHeld = true →
      ((s.setTemp die.val temp).belowThrottle = true → Gives (.heldWarmReset die temp) s (warm s)) ∧
      ((s.setTemp die.val temp).belowThrottle = false → Does (.heldWarmReset die temp) s (s.setTemp die.val temp)))) ∧
  (∀ (us : Nat) (s : State), us < 10 → Does (.resetNLow us) s s) ∧
  (∀ (ag : Agent) (mask : Byte) (s : State), mayWrite ag 14 0 s → Gives (.partRst ag mask) s fun t => t.mem = s.mem ∧
    ∀ p < 8, bitOf mask.toNat p = true → p ∈ t.mgmt.partResets ∧
      (p ∉ s.mgmt.partResets → ∀ k < 16, t.queue (p + 1) k = {})) ∧
  ∀ (p : Fin 8) (s : State), Gives (.partResetDone p) s fun t =>
    p.val ∉ t.mgmt.partResets ∧ (∀ q, q ≠ p.val → (q ∈ t.mgmt.partResets ↔ q ∈ s.mgmt.partResets)) ∧ { t with mgmt := s.mgmt } = s

/-- Boot and resets. -/
def Obligations.BootAndResets : Prop := Claims.BootAndWatchdog ∧ Claims.Resets

/-- ARB_ADVANCE and ARB_FUSE_BLOW (R457): the count rises bit by bit to a target that is at most the running image's SVN and 64; KEY_REVOKE
(R459): a slot that signed the running image is not revoked. -/
def Sys2Proof.Claims.Fuses : Prop :=
  ∀ (ag : Agent) (s : State),
    let c := (s.accessOf ag).code
    let n := s.mgmt.arbCount
    (mayWrite ag 16 0 s →
      (∀ v : BitVec 7, let goal := max n (min 64 (min v.toNat (s.fld F.MGMT_MGMT_STAT_SVN 0)))
        (c ≠ 0x0A → Does (.arbAdvance ag v) s (s.countErr 16 0 errPriv (pageAddr 16 0 0x084) c)) ∧
        (c = 0x0A → v.toNat ≤ n → Does (.arbAdvance ag v) s s) ∧
        (c = 0x0A → n < v.toNat → goal ≠ n → Gives (.arbAdvance ag v) s fun t => t.mgmt.arbTarget = some goal ∧ t.mgmt.arbCount = n) ∧
        (c = 0x0A → n < v.toNat → goal = n → Gives (.arbAdvance ag v) s fun t => t.mgmt.arbTarget = none ∧ t.mgmt.arbCount = n ∧
          evtSet 16 0 Ev.SEC_ARB_ADVANCED t)) ∧
      (Does (.keyRevoke ag 0) s s) ∧
      ∀ mask : BitVec 2, mask ≠ 0 → s.mgmt.revoked ∈ [[], [0], [1], [0, 1]] →
        let bad := (s.fwRuns = true ∧ s.mgmt.keySlot < 2 ∧ bitOf mask.toNat s.mgmt.keySlot = true) ∨
          ∀ k < 2, bitOf mask.toNat k = true ∨ k ∈ s.mgmt.revoked
        (bad → Does (.keyRevoke ag mask) s (s.countErr 16 0 0x80 (pageAddr 16 0 0x088) c)) ∧
        (¬bad → Gives (.keyRevoke ag mask) s fun t => ∀ k, k ∈ t.mgmt.revoked ↔ k ∈ s.mgmt.revoked ∨ (k < 2 ∧ bitOf mask.toNat k = true))) ∧
    (s.mgmt.arbTarget = none → Does .arbFuseBlow s s) ∧
    ∀ g, s.mgmt.arbTarget = some g → Gives .arbFuseBlow s fun t => t.mgmt.arbCount = n + 1 ∧
      (n + 1 = g → t.mgmt.arbTarget = none ∧ evtSet 16 0 Ev.SEC_ARB_ADVANCED t) ∧ (n + 1 ≠ g → t.mgmt.arbTarget = some g ∧ t.regs = s.regs)

/-- The SPDM requests (R460, Tables 17.2 and 17.3): each is answered once those before it have been, and a request out of order or outside the
table is an error. The response codes are the model's (log entry 40). -/
def Sys2Proof.Claims.SpdmRequests : Prop :=
  ∀ s : State,
    let n := s.mgmt.spdmState
    let answers := fun (code : Nat) (data : List Byte) (t : State) => t.sent = .spdm code data :: s.sent
    let fails := fun (t : State) => Counts F.SEC_SPDM_ERR 0 1 s t ∧ t.mgmt.spdmState = n ∧ ∃ l, t.sent = .spdm 0x7F [] :: l
    (s.spdmUp = false → Does .getVersion s s ∧ Does .getDigests s s ∧ ∀ (v i : Byte) (l : List Byte) (k : Fin 8) (off len : Nat) (x : BitVec 256) (g : Bool),
      Does (.getCapabilities v) s s ∧ Does (.negotiateAlgorithms l) s s ∧ Does (.getCertificate k off len) s s ∧ Does (.challenge k x) s s ∧
        Does (.getMeasurements i g x) s s) ∧
    (s.spdmUp = true →
      (Gives .getVersion s fun t => answers 0x04 [0x12, 0x13] t ∧ t.mgmt.spdmState = 1) ∧
      (∀ ver : Byte, (1 ≤ n → ver = 0x12 ∨ ver = 0x13 → Gives (.getCapabilities ver) s fun t => answers 0x61 [ver] t ∧ t.mgmt.spdmState = 2) ∧
        (n = 0 ∨ (ver ≠ 0x12 ∧ ver ≠ 0x13) → Gives (.getCapabilities ver) s fails)) ∧
      (∀ offered : List Byte,
        (2 ≤ n → 1 ∈ offered → 2 ∈ offered → Gives (.negotiateAlgorithms offered) s fun t => answers 0x63 [1, 2] t ∧ t.mgmt.spdmState = 3) ∧
        (n < 2 ∨ 1 ∉ offered ∨ 2 ∉ offered → Gives (.negotiateAlgorithms offered) s fails)) ∧
      (n < 3 → Gives .getDigests s fails ∧ ∀ (k : Fin 8) (off len : Nat) (i : Byte) (g : Bool) (x : BitVec 256),
        Gives (.getCertificate k off len) s fails ∧ Gives (.challenge k x) s fails ∧ Gives (.getMeasurements i g x) s fails) ∧
      (3 ≤ n →
        (Gives .getDigests s (answers 0x01 (sha384 (s.certChain 0) ++ sha384 (s.certChain 1)))) ∧
        (∀ (slot : Fin 8) (off len : Nat) (nonce : BitVec 256),
          (slot.val < 2 → Gives (.getCertificate slot off len) s (answers 0x02 (((s.certChain slot.val).drop off).take len)) ∧
            (let body := sha384 (s.certChain slot.val) ++ toLe 32 nonce.toNat
             Gives (.challenge slot nonce) s (answers 0x03 (body ++ Config.sign (8 + slot.val) (sha384 body))))) ∧
          (2 ≤ slot.val → Gives (.getCertificate slot off len) s fails ∧ Gives (.challenge slot nonce) s fails)) ∧
        (∀ (i : Byte) (nonce : BitVec 256),
          let gives := fun (body : List Byte) => Gives (.getMeasurements i false nonce) s (answers 0x60 body) ∧
            Gives (.getMeasurements i true nonce) s (answers 0x60 (body ++ Config.sign 8 (sha384 (body ++ toLe 32 nonce.toNat))))
          (i = 0 → gives [6]) ∧ (1 ≤ i.toNat → i.toNat ≤ 6 → gives (s.measurement i.toNat)) ∧
          (i = 0xFF → gives (s.measurement 1 ++ s.measurement 2 ++ s.measurement 3 ++ s.measurement 4 ++ s.measurement 5 ++ s.measurement 6)) ∧
          (7 ≤ i.toNat → i.toNat ≠ 0xFF → ∀ g, Gives (.getMeasurements i g nonce) s fails))))

/-- Fuses and SPDM. -/
def Obligations.SecurityUnit : Prop := Claims.Fuses ∧ Claims.SpdmRequests

/-- SPI_NOP, SPI_READ, SPI_WRITE, SPI_BOOK and SPI_FRAME_DISCARD (R465 to R467): a frame returns the status byte and the result of the frame
before it, or 0 where that came late; what is read, and what is written while the management cores run; a frame of another length than 72 edges is
dropped and counted. -/
def Sys2Proof.Claims.SpiFrames : Prop :=
  (∀ (wa : BitVec 28) (v : Word) (s : State),
    let d := s.side
    let u := s.emit (.spi (d.status + 16 * bit s.standby + 64 * (d.fcnt % 4)) (d.result.getD 0))
    let a := pageBase + 4 * wa.toNat
    let p := pageOf a
    let ends := fun (status : Nat) (result : Option Nat) (t : State) =>
      t.side.status = status ∧ t.side.result = result ∧ t.side.fcnt = (d.fcnt + 1) % 4
    (Gives (.spiNop false) s fun t => ends 0 none t ∧ t.sent = u.sent ∧
      t.fld F.BOOK_SPI_FRAMES 0 = (s.fld F.BOOK_SPI_FRAMES 0 + 1) % 2 ^ F.BOOK_SPI_FRAMES.w ∧ t.mem = s.mem) ∧
    (bitOf d.status 0 = true → Gives (.spiNop true) s fun t => ends 0 none t ∧
      t.sent = .spi (d.status - 1 + 8 + 16 * bit s.standby + 64 * (d.fcnt % 4)) 0 :: s.sent) ∧
    (regionOf a = .page → s.standby = false → s.pageGate (s.accessOf .unit) p.1 p.2.1 false = 0 →
      Gives (.spiRead wa false) s fun t => ends 1 (some (u.reg32 p.1 p.2.1 p.2.2)) t ∧ t.sent = u.sent ∧ t.mem = s.mem) ∧
    (s.standby = true → p.1 ≠ 17 → Gives (.spiRead wa false) s fun t => ends 4 none t ∧ t.sent = u.sent) ∧
    (s.standby = true → Gives (.spiWrite wa v false) s (ends 4 none)) ∧
    (s.standby = false → s.flag F.MGMT_SB_CTL 0 = false ∨ s.coresUp = false → Gives (.spiWrite wa v false) s fun t => ends 32 none t ∧ t.mem = s.mem ∧
      ∀ k, k ≠ F.BOOK_SPI_FRAMES.key 0 → Tab.get? t.regs k = Tab.get? s.regs k) ∧
    (s.standby = false → s.coresUp = true → s.flag F.MGMT_SB_CTL 0 = true → regionOf a = .page → p.1 = 14 ∨ p.1 = 15 ∨ p.1 = 17 →
      Gives (.spiWrite wa v false) s fun t => t.mem = (u.regWrite (s.accessOf .mgmt) a 4 v.toNat).mem ∧
        ∀ k, k ≠ F.BOOK_SPI_FRAMES.key 0 → Tab.get? t.regs k = Tab.get? (u.regWrite (s.accessOf .mgmt) a 4 v.toNat).regs k) ∧
    (∀ b, s.sbRecord (bitsOf wa.toNat 4 17) (bitsOf wa.toNat 26 2) = some b → bitsOf wa.toNat 21 5 = 0 →
      Gives (.spiBook wa false) s (ends 1 (some (leNat ((b.drop (4 * (wa.toNat % 16))).take 4))))) ∧
    (s.sbRecord (bitsOf wa.toNat 4 17) (bitsOf wa.toNat 26 2) = none → Gives (.spiBook wa false) s (ends 4 none))) ∧
  ∀ (edges : Nat) (s : State),
    (edges = 72 → Does (.spiFrameDiscard edges) s s) ∧
    (edges < 72 → Gives (.spiFrameDiscard edges) s fun t => Counts F.BOOK_SPI_ABORT 0 1 s t ∧ t.side.status = 2 ∧ t.side.result = none) ∧
    (72 < edges → Gives (.spiFrameDiscard edges) s fun t => Counts F.BOOK_SPI_CLKERR 0 1 s t ∧ t.side.status = 2 ∧ t.side.result = none)

/-- MCTP_CONTROL, READ_REG, WRITE_REG, READ_BOOK and SMBUS_PACKET_DISCARD (R468), and the JTAG instructions (R469). -/
def Sys2Proof.Claims.SmbusAndJtag : Prop :=
  (∀ (a : BitVec 48) (v : Word) (s : State),
    let p := pageOf a.toNat
    (s.standby = true → Does (.readReg a) s s ∧ Does (.writeReg a v) s s) ∧
    (s.standby = false → regionOf a.toNat = .page → a.toNat % 4 = 0 → s.pageGate (s.accessOf .unit) p.1 p.2.1 false = 0 →
      Gives (.readReg a) s fun t => t.sent = .mctp 1 1 (toLe 4 (s.reg32 p.1 p.2.1 p.2.2)) :: s.sent ∧ { t with sent := s.sent } = s) ∧
    (s.standby = false → s.flag F.MGMT_SB_CTL 0 = false ∨ s.coresUp = false → Gives (.writeReg a v) s fun t =>
      t.sent = .mctp 2 32 [] :: s.sent ∧ { t with sent := s.sent } = s) ∧
    (s.standby = false → s.coresUp = true → s.flag F.MGMT_SB_CTL 0 = true → regionOf a.toNat = .page → p.1 = 14 ∨ p.1 = 15 ∨ p.1 = 17 →
      Gives (.writeReg a v) s fun t => t.regs = (s.regWrite (s.accessOf .mgmt) a.toNat 4 v.toNat).regs ∧
        t.mem = (s.regWrite (s.accessOf .mgmt) a.toNat 4 v.toNat).mem)) ∧
  (∀ (index : BitVec 17) (copy : Fin 4) (s : State),
    (∀ b, s.sbRecord index.toNat copy.val = some b → Does (.readBook index copy) s (s.emit (.mctp 3 (1 + 16 * bit s.standby) b))) ∧
    (s.sbRecord index.toNat copy.val = none →
      Does (.readBook index copy) s (s.emit (.mctp 3 (4 + 16 * bit s.standby) (List.replicate 64 0))))) ∧
  ∀ s : State,
    (∀ cmd : Byte, Does (.mctpControl cmd) s (s.emit (.mctp (0x100 + cmd.toNat) 0 []))) ∧
    (Gives .smbusPacketDiscard s fun t => Counts F.BOOK_SMB_ERR 0 1 s t ∧ t.side = s.side ∧ t.mem = s.mem) ∧
    (∀ data : List Bool,
      Does (.extest data) s { s with side := { s.side with jtag := 0x00, boundary := data } } ∧
        Does (.samplePreload data) s { s with side := { s.side with jtag := 0x01, boundary := data } }) ∧
    (Gives .idcode s fun t => t.side = { s.side with jtag := 0x02 } ∧
      ∃ l : List Bool, t.sent = .jtag l :: s.sent ∧ l.length = 32 ∧ ∀ i < 32, l[i]? = some (bitOf 0x0B225E5B i)) ∧
    Does .highz s { s with side := { s.side with jtag := 0x03 } } ∧ Does .clamp s { s with side := { s.side with jtag := 0x04 } } ∧
    Gives .bypass s fun t => t.side = { s.side with jtag := 0xFF } ∧ t.sent = .jtag [false] :: s.sent

/-- The sideband. -/
def Obligations.Sideband : Prop := Claims.SpiFrames ∧ Claims.SmbusAndJtag

/-- APPEND, BOOK_RECORD_WRITE and BOOK_SCAN_DONE (R470 to R472): a firmware record joins the queue; the first ready record goes to copies A and B
at the index of its sequence number; the scan leaves the sequence number after the highest valid one. -/
def Obligations.CellarBook : Prop :=
  (∀ (ag : Agent) (s : State), mayWrite ag 17 0 s → s.book.queue.length < 240 → Gives (.append ag) s fun t =>
    t.regs = s.regs ∧ t.mem = s.mem ∧ ∃ r : QRec, t.book.queue = s.book.queue ++ [r] ∧ r.ty = 0x0C ∧ r.pick = s.pick.num ∧ r.ready = true ∧
      (r.flags = if (s.accessOf ag).code = 1 then 4 else 0) ∧
      ∀ k < 7, (r.data.drop (4 * k)).take 4 = toLe 4 (s.fld (F.BOOK_FW_DATA.nth k) 0)) ∧
  (∀ s : State,
    (s.flag F.BOOK_BOOK_STAT_READY 0 = false ∨ (∀ r ∈ s.book.queue, r.ready = false) → Does .bookRecordWrite s s) ∧
    ∀ pre r rest, s.flag F.BOOK_BOOK_STAT_READY 0 = true → s.book.queue = pre ++ r :: rest → (∀ x ∈ pre, x.ready = false) → r.ready = true →
      Gives .bookRecordWrite s fun t =>
      let n := s.book.nextSeq
      let b := recordBytes n (2 * bit s.book.dropped + r.flags) r
      t.book.queue = pre ++ rest ∧ t.book.nextSeq = (n + 1) % 2 ^ 48 ∧ t.book.dropped = false ∧
        (∀ i, Tab.get? t.book.a i = (if i = bookIndex n then some b else Tab.get? s.book.a i) ∧
          Tab.get? t.book.b i = if i = bookIndex n then some b else Tab.get? s.book.b i) ∧ t.regs = s.regs ∧ t.mem = s.mem) ∧
  ∀ s : State, Gives .bookScanDone s fun t =>
    let copies := fun (x : List Byte) => ∃ i, Tab.get? s.book.a i = some x ∨ Tab.get? s.book.b i = some x
    t.fld F.BOOK_BOOK_STAT_READY 0 = 1 ∧ t.book.a = s.book.a ∧ t.book.b = s.book.b ∧
      ∃ high, t.book.nextSeq = (high + 1) % 2 ^ 48 ∧ (∀ x, copies x → copyValid x = true → copySeq x ≤ high) ∧
        (high = 0 ∨ ∃ x, copies x ∧ copyValid x = true ∧ copySeq x = high)

/-! ### Power -/
namespace Sys2Proof.Claims

/-- What a loss of main power leaves (Table 18.5, R477, R482): a cold reset, the device in standby, and a POWER_LOSS record as the last one in
both copies. -/
def lost (s t : State) : Prop :=
  t.flag F.BOOK_BOOK_STAT_STANDBY 0 = true ∧ t.power.pwrOk = false ∧ t.power.faultHeld = true ∧ t.mem = [] ∧ t.nor = s.nor ∧ t.locked = false ∧
    t.book.bootNum = (s.book.bootNum + 1) % 65536 ∧ t.mgmt.arbCount = s.mgmt.arbCount ∧
    ∃ seq b, t.book.nextSeq = (seq + 1) % 2 ^ 48 ∧ Tab.get? t.book.a (bookIndex seq) = some b ∧ Tab.get? t.book.b (bookIndex seq) = some b ∧
      b[6]? = some 6#8

end Sys2Proof.Claims

/-- VSTBY_RISE, VIN_RISE, PWR_OK_RISE, PWR_OK_FALL, RIDE_THROUGH and LOSS_SEQUENCE (R476, R477, R482). -/
def Sys2Proof.Claims.Supplies : Prop :=
  ∀ s : State,
    (∀ v : Nat, Gives (.vstbyRise v) s fun t => t.power.vstby = v ∧
      (s.vstbyOk = false → 3135 ≤ v → v ≤ 3465 → t.flag F.BOOK_BOOK_STAT_READY 0 = false ∧
        t.standby = (!s.power.pwrPin) ∧ t.power.pwrOk = s.power.pwrPin)) ∧
    (∀ v : Nat, Gives (.vinRise v) s fun t => t.power.vin = max s.power.vin v ∧ t.regs = s.regs ∧
      (40000 < v → t.power.rideThrough = false) ∧ (v ≤ 40000 → t.power.rideThrough = s.power.rideThrough)) ∧
    (s.vstbyOk = true → Gives .pwrOkRise s fun t => t.power.pwrOk = true ∧ t.standby = false) ∧
    (s.vstbyOk = false → Does .pwrOkRise s { s with power := { s.power with pwrPin := true } }) ∧
    (s.standby = true → Does .pwrOkFall s { s with power := { s.power with pwrPin := false } }) ∧
    (s.standby = false → Gives .pwrOkFall s fun t => lost s t ∧ t.book.queue = []) ∧
    (∀ v : Nat, v < 38000 → Gives (.rideThrough v) s fun t => t.power.rideThrough = true ∧ t.power.vin = v ∧ t.power.sagOn = true) ∧
    (∀ v : Nat, 38000 ≤ v → Does (.rideThrough v) s s) ∧
    ∀ n : Nat, (s.power.rideThrough = true → Gives (.lossSequence n) s (lost s)) ∧ (s.power.rideThrough = false → Does (.lossSequence n) s s)

/-- SAG_ONSET, SAG_END and SAG_RECORD_RELEASE (R481, R483): a sag is counted at its onset, its record waits until it ends or 1 ms has passed;
LIMITER_STEP (R479): the limiter's clock goes down in 50 MHz steps above the envelope's power and up again below 97 % of it. -/
def Sys2Proof.Claims.SagsAndLimiter : Prop :=
  (∀ (s : State) (vin ns : Nat),
    let released := fun (t : State) => ∀ r ∈ t.book.queue, r.ty = 4 → r.ready = true
    (vin < 42000 → s.power.sagOn = false → Gives (.sagOnset vin ns) s fun t =>
      t.power.sagOn = true ∧ t.power.sagging = (s.pwrState != 2) ∧ t.power.sagOnsetNs = ns ∧ (0 < vin → t.power.alertN = false) ∧
        Counts F.POWER_SAG_CNT 0 1 s t ∧ evtSet 15 0 Ev.POWER_SAG t ∧
        (s.book.queue.length < 238 → ∃ r ∈ t.book.queue, r.ty = 4 ∧ r.ready = false)) ∧
    (42000 ≤ vin ∨ s.power.sagOn = true → Does (.sagOnset vin ns) s s) ∧
    (43000 < vin → s.power.sagOn = true → Gives (.sagEnd vin ns) s fun t => t.power.sagOn = false ∧ t.power.sagging = false ∧ released t ∧
      t.fld F.POWER_SAG_MAX_NS 0 = max (min 0xFFFFFFFF (ns - s.power.sagOnsetNs)) (s.fld F.POWER_SAG_MAX_NS 0) % 2 ^ 32) ∧
    (vin ≤ 43000 ∨ s.power.sagOn = false → Does (.sagEnd vin ns) s s) ∧
    Gives .sagRecordRelease s fun t => released t ∧ t.power = s.power ∧ t.regs = s.regs ∧ t.mem = s.mem) ∧
  ∀ (s : State) (w : Nat) (e : Bool),
    let top := envWatts s.envelope
    let p := s.power
    Gives (.limiterStep w e) s fun t =>
      t.fld F.POWER_PWR_IN 0 = w % 2 ^ 16 ∧ t.fld F.POWER_PWR_PEAK 0 = max (w % 2 ^ 16) (s.fld F.POWER_PWR_PEAK 0) % 2 ^ 16 ∧
        (top < w → t.power.limitMhz = min p.limitMhz p.envMhz - 50) ∧
        (100 * w < 97 * top → t.power.limitMhz = min p.envMhz (p.limitMhz + 50)) ∧
        (97 * top ≤ 100 * w → w ≤ top → t.power.limitMhz =
          if p.limFalling then min p.limitMhz p.envMhz - 50 else min p.envMhz (p.limitMhz + 50)) ∧
        (e = true → p.limHeld = true → Counts F.POWER_LIMIT_MS 0 1 s t ∧ t.power.limHeld = false) ∧
        (e = false → t.fld F.POWER_LIMIT_MS 0 = s.fld F.POWER_LIMIT_MS 0)

/-- Supplies, sags and the limiter. -/
def Obligations.PowerSupply : Prop := Claims.Supplies ∧ Claims.SagsAndLimiter

/-- THERM_WARN, THERMAL_CLOCK_STEP and THERM_CRIT (R484 to R486), REFCLK_LOST (R492). -/
def Sys2Proof.Claims.ThermalLimits : Prop :=
  (∀ (die : Fin 25) (temp : Int) (s : State),
    let u := (s.setTemp die.val temp).setAlert
    let warn := s.fld F.POWER_THERM_CFG_WARN 0
    let hot := s.fld F.POWER_THERM_CFG_THROTTLE 0
    let p := s.power
    (Gives (.thermWarn die temp) s fun t => t.power = u.power ∧
      (u.atLeast warn = true → s.atLeast warn = false → evtSet 15 0 Ev.POWER_THERM_WARN t)) ∧
    (u.atLeast warn = false ∨ s.atLeast warn = true → Does (.thermWarn die temp) s u) ∧
    (u.atLeast hot = true → Gives (.thermalClockStep die temp) s fun t =>
      t.power.thermMhz = max 500 (min p.thermMhz p.envMhz - 50) ∧ t.power.throttling = true ∧
        (p.throttling = false → Counts F.POWER_THROTTLE_CNT 0 1 s t ∧ evtSet 15 0 Ev.POWER_THROTTLE t)) ∧
    (u.atLeast hot = false → p.throttling = true → u.hottest.1 < 16 * ((hot : Int) - 2) → Gives (.thermalClockStep die temp) s fun t =>
      (p.thermMhz + 50 < p.envMhz → t.power.thermMhz = p.thermMhz + 50 ∧ t.power.throttling = true) ∧
        (p.envMhz ≤ p.thermMhz + 50 → t.power.thermMhz = 1500 ∧ t.power.throttling = false) ∧ t.mem = s.mem) ∧
    (u.atLeast hot = false → p.throttling = false → Does (.thermalClockStep die temp) s u) ∧
    (16 * 112 ≤ temp → s.pwrState ≠ 4 → Gives (.thermCrit die temp) s fun t => t.pwrState = 4 ∧ t.power.thermN = false ∧
      t.power.faultHeld = true ∧ t.power.readyPin = false ∧ t.cores = [] ∧ t.pick.tasks = [] ∧ t.mem = s.mem ∧
        evtSet 15 0 Ev.POWER_THERM_CRIT t) ∧
    (temp < 16 * 112 ∨ s.pwrState = 4 → Does (.thermCrit die temp) s u)) ∧
  ∀ s : State,
    (Gives (.refclkLost 0) s fun t => evtSet 15 0 Ev.POWER_REFCLK_LOST t ∧ t.flag F.HOST_LINK_STAT_LINK_UP 0 = false ∧ t.cores = s.cores) ∧
    (Gives (.refclkLost 1) s fun t => evtSet 15 0 Ev.POWER_REFCLK_LOST t ∧ t.pwrState = 4 ∧ t.cores = [] ∧ t.mem = s.mem) ∧
    Gives (.refclkLost 2) s fun t => evtSet 15 0 Ev.POWER_REFCLK_LOST t ∧ t.flag F.FIELD_PORT_STAT_LINK_UP 0 = false ∧
      t.flag F.FIELD_PORT_STAT_LINK_UP 1 = false ∧ t.cores = s.cores

/-- ENTER, DORMANT_ENTRY_COMPLETE, WAKE, WAKE_N and WAKE_COMPLETE (R488 to R490): Dormant is entered from IDLE alone; a trigger while the device
enters is held; a wake ends in ACTIVE. -/
def Sys2Proof.Claims.Dormancy : Prop :=
  (∀ (ag : Agent) (s : State), mayWrite ag 15 0 s →
    (s.fld F.PICK_SCHED_STAT_STATE 0 ≠ 0 ∨ s.pwrState ≠ 0 ∨ s.fld F.DEVICE_COMMIT_CTL_STATE 0 = 1 →
      Does (.enter ag) s (s.countErr 15 0 0x81 (pageAddr 15 0 0x0A0) (s.accessOf ag).code)) ∧
    (s.fld F.PICK_SCHED_STAT_STATE 0 = 0 → s.pwrState = 0 → s.fld F.DEVICE_COMMIT_CTL_STATE 0 ≠ 1 → Gives (.enter ag) s fun t =>
      t.pwrState = 1 ∧ t.power.readyPin = false ∧ t.flag F.POWER_DORM_CTL_ENTER 0 = true ∧ t.mem = s.mem) ∧
    (s.pwrState = 2 → Gives (.wake ag) s fun t => t.pwrState = 3 ∧ t.flag F.POWER_DORM_CTL_WAKE 0 = true) ∧
    (s.pwrState = 1 → Gives (.wake ag) s fun t => t.pwrState = 1 ∧ t.power.wakeHeld = true) ∧
    (s.pwrState ≠ 1 → s.pwrState ≠ 2 → Does (.wake ag) s s)) ∧
  ∀ s : State,
    (s.pwrState ≠ 1 → Does .dormantEntryComplete s s) ∧
    (s.pwrState = 1 → Gives .dormantEntryComplete s fun t => t.pwrState = (if s.power.wakeHeld then 3 else 2) ∧
      t.flag F.POWER_DORM_CTL_ENTER 0 = false ∧ t.cores = [] ∧ t.cellar.filter = [] ∧ t.power.wakeHeld = false ∧
      evtSet 15 0 Ev.POWER_DORMANT t ∧ (∀ e ∈ t.fab.heddles, e.2.session = true)) ∧
    (∀ ns : Nat, (ns < 1000 ∨ s.flag F.POWER_DORM_CTL_WAKE_ON_PIN 0 = false → Does (.wakeN ns) s s) ∧
      (1000 ≤ ns → s.flag F.POWER_DORM_CTL_WAKE_ON_PIN 0 = true → s.pwrState = 2 → Gives (.wakeN ns) s fun t => t.pwrState = 3 ∧
        t.power = s.power)) ∧
    (s.pwrState = 3 → Gives .wakeComplete s fun t => t.pwrState = 0 ∧ t.flag F.POWER_DORM_CTL_WAKE 0 = false ∧ t.power.readyPin = true ∧
      evtSet 15 0 Ev.POWER_WAKE t) ∧
    (s.pwrState ≠ 3 → Does .wakeComplete s s)

/-- Thermal limits, lost clocks and Dormant. -/
def Obligations.ThermalAndDormant : Prop := Claims.ThermalLimits ∧ Claims.Dormancy

/-! ### The whole device -/
namespace Sys2Proof.Claims

/-- Partition 0 has every core, all DRAM, every cellar granule and the 490 shared heddles; partitions 1 to 7 have nothing (R34). -/
def initialParts (t : State) : Prop :=
  (∀ c < 512, t.corePart c = some 0) ∧
    ∀ p < 8,
      (∀ k < 16, t.fld (F.PART_CORE_MAP.nth k) p = if p = 0 then 0xFFFFFFFF else 0) ∧
      (∀ k < 8, t.fld (F.PART_DRAM_RNG_VALID.nth k) p = if p = 0 ∧ k = 0 then 1 else 0) ∧
      (p = 0 → t.fld (F.PART_DRAM_RNG_BASE.nth 0) p = 0 ∧ t.fld (F.PART_DRAM_RNG_COUNT.nth 0) p = 1536) ∧
      t.fld F.PART_GRAN_OWN0 p = (if p = 0 then 0xFFFFFFFF else 0) ∧ t.fld F.PART_GRAN_OWN1 p = (if p = 0 then 0xFFFF else 0) ∧
      t.fld F.PART_HEDDLE_QUOTA_QUOTA p = if p = 0 then 490 else 0

/-- The canonical form of the three memories. -/
def memoriesWf (s : State) : Prop := memWf s.mem = true ∧ memWf s.nor = true ∧ memWf s.host.mem = true

/-- The RWL lock holds exactly once BOOT_DONE has been accepted (R46, R458). -/
def lockFollowsBoot (s : State) : Prop := s.locked = s.mgmt.bootAccepted

end Sys2Proof.Claims

/-- R34 at State.reset, after a warm reset and after a loss of main power (a cold reset). -/
def Obligations.PartitionsAfterReset : Prop :=
  initialParts State.reset ∧
    ∀ s : State,
      (s.standby = false → s.pwrState ≠ 4 → (∀ ag : Agent, mayWrite ag 14 0 s → Gives (.warmRst ag) s initialParts) ∧
        ∀ us : Nat, 10 ≤ us → Gives (.resetNLow us) s initialParts) ∧
      (∀ (die : Fin 25) (temp : Int), s.power.critHeld = true → (s.setTemp die.val temp).belowThrottle = true →
        Gives (.heldWarmReset die temp) s initialParts) ∧
      (s.standby = false → Gives .pwrOkFall s initialParts) ∧ ∀ n : Nat, s.power.rideThrough = true → Gives (.lossSequence n) s initialParts

/-- The state after a cold reset (R34, R44, R66, R463): every register field holds its Reset column, nothing is staged or armed, no RWL field is
locked, no task runs and no command waits. The values that the spec does not state are log entry 2's. -/
def Obligations.ResetValues : Prop :=
  let s := State.reset
  (∀ f i, s.fld f i = f.resetOf i ∧ s.staged f i = f.resetOf i) ∧ s.locked = false ∧ s.armed = none ∧ s.pick.tasks = [] ∧ s.pending = [] ∧
    s.pwrState = 0 ∧ s.fld F.PICK_SCHED_STAT_STATE 0 = 0 ∧ s.fld F.DEVICE_COMMIT_CTL_STATE 0 = 0 ∧
    s.fld F.POWER_DORM_CTL_WAKE_ON_PIN 0 = 1 ∧ s.fld F.MGMT_MGMT_STAT_BOOT_STATE 0 = 0 ∧ s.book.nextSeq = 1 ∧
    (∀ core strand, s.strand core strand = {})

/-- Reset memory, NOR flash and host memory have their canonical form, and the RWL lock is open. -/
def Obligations.ResetMeetsInvariants : Prop := memoriesWf State.reset ∧ lockFollowsBoot State.reset

/-- Every step keeps the canonical form of device memory, the NOR flash and host memory, whatever command is at the front of the queue. -/
def Obligations.StepKeepsMemoriesCanonical : Prop := ∀ s t : State, memoriesWf s → step s = .next t → memoriesWf t

/-- Every step keeps it that the RWL lock holds exactly once BOOT_DONE has been accepted since the last cold or warm reset (R46, R458). -/
def Obligations.StepKeepsLockWithBoot : Prop := ∀ s t : State, lockFollowsBoot s → step s = .next t → lockFollowsBoot t

/-- The queue is served first in, first out: a step answers a next state, takes the front command and no other, and no command adds one; on an
empty queue the device idles (the model's choices, log entries 3 and 11). -/
def Obligations.QueueServedInOrder : Prop :=
  (∀ (s : State) (c : Instr) (rest : List Instr), s.pending = c :: rest → ∃ t, step s = .next t ∧ t.pending = rest) ∧
    ∀ s : State, s.pending = [] → step s = .next s

/-- The commands of the host's queues but for transfers, of the management cores, SPDM, the sideband's reads, the cellar book, and of supplies, sags,
limits and Dormant but for resets and the entry of Dormant. -/
def Sys2Proof.Claims.leavesMemory : Instr → Prop
  | .queueEnable .. | .cqDoorbell .. | .queueNop .. | .commandComplete .. | .msixUnmask .. | .hostLinkDown | .hostLinkUp .. | .flr ..
  | .hostPerst .. | .kick .. | .boot | .bootDone .. | .partRst .. | .partResetDone .. | .watchdogExpire | .mgmtSramUncorr | .arbAdvance ..
  | .arbFuseBlow | .keyRevoke .. | .getVersion | .getCapabilities .. | .negotiateAlgorithms .. | .getDigests | .getCertificate .. | .challenge ..
  | .getMeasurements .. | .spiNop .. | .spiRead .. | .spiBook .. | .spiFrameDiscard .. | .mctpControl .. | .smbusPacketDiscard | .readReg ..
  | .readBook .. | .extest .. | .samplePreload .. | .idcode | .highz | .clamp | .bypass | .append .. | .bookRecordWrite | .bookScanDone
  | .vstbyRise .. | .vinRise .. | .pwrOkRise | .sagOnset .. | .sagEnd .. | .sagRecordRelease | .rideThrough .. | .limiterStep .. | .thermWarn ..
  | .thermalClockStep .. | .thermCrit .. | .refclkLost .. | .enter .. | .wake .. | .wakeN .. | .wakeComplete => True
  | _ => False

/-- The frame of these commands: device memory, its poison, the NOR flash, the staged values and the queue are as before. -/
def Obligations.ServiceCommandsLeaveMemory : Prop :=
  ∀ (c : Instr) (s t : State), leavesMemory c → exec c s = .next t →
    t.mem = s.mem ∧ t.poison = s.poison ∧ t.nor = s.nor ∧ t.shadow = s.shadow ∧ t.armed = s.armed ∧ t.pending = s.pending
end

