-- ==== Sys2Proof/Laws/State.lean ====
section
/-! SUPPORT. The small lemmas of State: what a table holds after it is set, a register field after a field is written, and, one lemma per
field per update, what an update leaves as it was. -/
namespace Sys2Proof.Machine
open Sys2Proof

/-! ### Tables -/

theorem Tab.get?_set_same {α : Type} (t : Tab α) (k : Nat) (v : α) : Tab.get? (Tab.set t k v) k = some v := by
  induction t with
  | nil => simp [Tab.set, Tab.get?]
  | cons x t ih =>
    obtain ⟨k', v'⟩ := x
    unfold Tab.set
    split
    · simp [Tab.get?]
    · split
      · simp [Tab.get?]
      · simp [Tab.get?, *]

theorem Tab.get?_set_other {α : Type} (t : Tab α) {k j : Nat} (v : α) (h : j ≠ k) : Tab.get? (Tab.set t k v) j = Tab.get? t j := by
  induction t with
  | nil => simp [Tab.set, Tab.get?, Ne.symm h]
  | cons x t ih =>
    obtain ⟨k', v'⟩ := x
    unfold Tab.set
    split
    · subst_vars; simp [Tab.get?, Ne.symm h]
    · split
      · simp [Tab.get?, Ne.symm h]
      · simp [Tab.get?, ih]

@[simp] theorem Tab.get_set_same {α : Type} (d : α) (t : Tab α) (k : Nat) (v : α) : Tab.get d (Tab.set t k v) k = v := by
  simp [Tab.get, Tab.get?_set_same]

theorem Tab.get_set_other {α : Type} (d : α) (t : Tab α) {k j : Nat} (v : α) (h : j ≠ k) : Tab.get d (Tab.set t k v) j = Tab.get d t j := by
  simp [Tab.get, Tab.get?_set_other t v h]

/-! ### Register fields -/

@[simp] theorem State.fld_setFld_same (s : State) (f : Fld) (i v : Nat) : (s.setFld f i v).fld f i = v % 2 ^ f.w := by
  simp [State.fld, State.setFld]

theorem State.fld_setFld_other (s : State) {f g : Fld} {i j : Nat} (v : Nat) (h : g.key j ≠ f.key i) :
    (s.setFld f i v).fld g j = s.fld g j := by
  simp [State.fld, State.setFld, Tab.get_set_other _ _ _ h]

/-- A field reads the register file alone. -/
theorem State.fld_congr {s t : State} (h : t.regs = s.regs) (f : Fld) (i : Nat) : t.fld f i = s.fld f i := by simp [State.fld, h]

/-! ### Parts -/

@[simp] theorem State.core_setCore_same (s : State) (c : Nat) (x : CoreState) : (s.setCore c x).core c = x := by simp [State.core, State.setCore]
theorem State.core_setCore_other (s : State) {c d : Nat} (x : CoreState) (h : d ≠ c) : (s.setCore c x).core d = s.core d := by
  simp [State.core, State.setCore, Tab.get_set_other _ _ _ h]
@[simp] theorem State.link_setLink_same (s : State) (l : Nat) (x : LinkState) : (s.setLink l x).link l = x := by simp [State.link, State.setLink]
@[simp] theorem State.heddle_setHeddle_same (s : State) (h : Nat) (x : Heddle) : (s.setHeddle h x).heddle h = x := by
  simp [State.heddle, State.setHeddle]
@[simp] theorem State.slice_setSlice_same (s : State) (c : Nat) (x : SliceState) : (s.setSlice c x).slice c = x := by
  simp [State.slice, State.setSlice]
@[simp] theorem State.coll_setColl_same (s : State) (c : Nat) (x : CollState) : (s.setColl c x).coll c = x := by simp [State.coll, State.setColl]
@[simp] theorem State.granule_setGranule_same (s : State) (g : Nat) (x : Granule) : (s.setGranule g x).granule g = x := by
  simp [State.granule, State.setGranule]
@[simp] theorem State.solver_setSolver_same (s : State) (e : Nat) (x : SolverState) : (s.setSolver e x).solver e = x := by
  simp [State.solver, State.setSolver]
@[simp] theorem State.strand_setStrand_same (s : State) (c t : Nat) (x : Strand) : (s.setStrand c t x).strand c t = x := by
  simp [State.strand, State.setStrand]
theorem State.strand_congr {s u : State} (h : u.cores = s.cores) (c t : Nat) : u.strand c t = s.strand c t := by simp [State.strand, State.core, h]

/-! ### What an update leaves as it was -/

@[simp] theorem State.setFld_pending (s : State) (f : Fld) (i v : Nat) : (s.setFld f i v).pending = s.pending := rfl
@[simp] theorem State.setFld_sent (s : State) (f : Fld) (i v : Nat) : (s.setFld f i v).sent = s.sent := rfl
@[simp] theorem State.setFld_free (s : State) (f : Fld) (i v : Nat) : (s.setFld f i v).free = s.free := rfl
@[simp] theorem State.setFld_shadow (s : State) (f : Fld) (i v : Nat) : (s.setFld f i v).shadow = s.shadow := rfl
@[simp] theorem State.setFld_mem (s : State) (f : Fld) (i v : Nat) : (s.setFld f i v).mem = s.mem := rfl
@[simp] theorem State.setFld_poison (s : State) (f : Fld) (i v : Nat) : (s.setFld f i v).poison = s.poison := rfl
@[simp] theorem State.setFld_nor (s : State) (f : Fld) (i v : Nat) : (s.setFld f i v).nor = s.nor := rfl
@[simp] theorem State.setFld_pick (s : State) (f : Fld) (i v : Nat) : (s.setFld f i v).pick = s.pick := rfl
@[simp] theorem State.setFld_armed (s : State) (f : Fld) (i v : Nat) : (s.setFld f i v).armed = s.armed := rfl
@[simp] theorem State.setFld_locked (s : State) (f : Fld) (i v : Nat) : (s.setFld f i v).locked = s.locked := rfl
@[simp] theorem State.setFld_cores (s : State) (f : Fld) (i v : Nat) : (s.setFld f i v).cores = s.cores := rfl
@[simp] theorem State.setFld_solvers (s : State) (f : Fld) (i v : Nat) : (s.setFld f i v).solvers = s.solvers := rfl
@[simp] theorem State.setFld_cellar (s : State) (f : Fld) (i v : Nat) : (s.setFld f i v).cellar = s.cellar := rfl
@[simp] theorem State.setFld_stackCtls (s : State) (f : Fld) (i v : Nat) : (s.setFld f i v).stackCtls = s.stackCtls := rfl
@[simp] theorem State.setFld_upd (s : State) (f : Fld) (i v : Nat) : (s.setFld f i v).upd = s.upd := rfl
@[simp] theorem State.setFld_fab (s : State) (f : Fld) (i v : Nat) : (s.setFld f i v).fab = s.fab := rfl
@[simp] theorem State.setFld_links (s : State) (f : Fld) (i v : Nat) : (s.setFld f i v).links = s.links := rfl
@[simp] theorem State.setFld_colls (s : State) (f : Fld) (i v : Nat) : (s.setFld f i v).colls = s.colls := rfl
@[simp] theorem State.setFld_audit (s : State) (f : Fld) (i v : Nat) : (s.setFld f i v).audit = s.audit := rfl
@[simp] theorem State.setFld_field (s : State) (f : Fld) (i v : Nat) : (s.setFld f i v).field = s.field := rfl
@[simp] theorem State.setFld_host (s : State) (f : Fld) (i v : Nat) : (s.setFld f i v).host = s.host := rfl
@[simp] theorem State.setFld_mgmt (s : State) (f : Fld) (i v : Nat) : (s.setFld f i v).mgmt = s.mgmt := rfl
@[simp] theorem State.setFld_book (s : State) (f : Fld) (i v : Nat) : (s.setFld f i v).book = s.book := rfl
@[simp] theorem State.setFld_side (s : State) (f : Fld) (i v : Nat) : (s.setFld f i v).side = s.side := rfl
@[simp] theorem State.setFld_power (s : State) (f : Fld) (i v : Nat) : (s.setFld f i v).power = s.power := rfl

@[simp] theorem State.setStaged_pending (s : State) (f : Fld) (i v : Nat) : (s.setStaged f i v).pending = s.pending := rfl
@[simp] theorem State.setStaged_sent (s : State) (f : Fld) (i v : Nat) : (s.setStaged f i v).sent = s.sent := rfl
@[simp] theorem State.setStaged_free (s : State) (f : Fld) (i v : Nat) : (s.setStaged f i v).free = s.free := rfl
@[simp] theorem State.setStaged_regs (s : State) (f : Fld) (i v : Nat) : (s.setStaged f i v).regs = s.regs := rfl
@[simp] theorem State.setStaged_mem (s : State) (f : Fld) (i v : Nat) : (s.setStaged f i v).mem = s.mem := rfl
@[simp] theorem State.setStaged_poison (s : State) (f : Fld) (i v : Nat) : (s.setStaged f i v).poison = s.poison := rfl
@[simp] theorem State.setStaged_nor (s : State) (f : Fld) (i v : Nat) : (s.setStaged f i v).nor = s.nor := rfl
@[simp] theorem State.setStaged_pick (s : State) (f : Fld) (i v : Nat) : (s.setStaged f i v).pick = s.pick := rfl
@[simp] theorem State.setStaged_armed (s : State) (f : Fld) (i v : Nat) : (s.setStaged f i v).armed = s.armed := rfl
@[simp] theorem State.setStaged_locked (s : State) (f : Fld) (i v : Nat) : (s.setStaged f i v).locked = s.locked := rfl
@[simp] theorem State.setStaged_cores (s : State) (f : Fld) (i v : Nat) : (s.setStaged f i v).cores = s.cores := rfl
@[simp] theorem State.setStaged_solvers (s : State) (f : Fld) (i v : Nat) : (s.setStaged f i v).solvers = s.solvers := rfl
@[simp] theorem State.setStaged_cellar (s : State) (f : Fld) (i v : Nat) : (s.setStaged f i v).cellar = s.cellar := rfl
@[simp] theorem State.setStaged_stackCtls (s : State) (f : Fld) (i v : Nat) : (s.setStaged f i v).stackCtls = s.stackCtls := rfl
@[simp] theorem State.setStaged_upd (s : State) (f : Fld) (i v : Nat) : (s.setStaged f i v).upd = s.upd := rfl
@[simp] theorem State.setStaged_fab (s : State) (f : Fld) (i v : Nat) : (s.setStaged f i v).fab = s.fab := rfl
@[simp] theorem State.setStaged_links (s : State) (f : Fld) (i v : Nat) : (s.setStaged f i v).links = s.links := rfl
@[simp] theorem State.setStaged_colls (s : State) (f : Fld) (i v : Nat) : (s.setStaged f i v).colls = s.colls := rfl
@[simp] theorem State.setStaged_audit (s : State) (f : Fld) (i v : Nat) : (s.setStaged f i v).audit = s.audit := rfl
@[simp] theorem State.setStaged_field (s : State) (f : Fld) (i v : Nat) : (s.setStaged f i v).field = s.field := rfl
@[simp] theorem State.setStaged_host (s : State) (f : Fld) (i v : Nat) : (s.setStaged f i v).host = s.host := rfl
@[simp] theorem State.setStaged_mgmt (s : State) (f : Fld) (i v : Nat) : (s.setStaged f i v).mgmt = s.mgmt := rfl
@[simp] theorem State.setStaged_book (s : State) (f : Fld) (i v : Nat) : (s.setStaged f i v).book = s.book := rfl
@[simp] theorem State.setStaged_side (s : State) (f : Fld) (i v : Nat) : (s.setStaged f i v).side = s.side := rfl
@[simp] theorem State.setStaged_power (s : State) (f : Fld) (i v : Nat) : (s.setStaged f i v).power = s.power := rfl
@[simp] theorem State.setStaged_fld (s : State) (f : Fld) (i v : Nat) (y : Fld) (j : Nat) : (s.setStaged f i v).fld y j = s.fld y j := rfl

@[simp] theorem State.emit_pending (s : State) (m : Msg) : (s.emit m).pending = s.pending := rfl
@[simp] theorem State.emit_free (s : State) (m : Msg) : (s.emit m).free = s.free := rfl
@[simp] theorem State.emit_regs (s : State) (m : Msg) : (s.emit m).regs = s.regs := rfl
@[simp] theorem State.emit_shadow (s : State) (m : Msg) : (s.emit m).shadow = s.shadow := rfl
@[simp] theorem State.emit_mem (s : State) (m : Msg) : (s.emit m).mem = s.mem := rfl
@[simp] theorem State.emit_poison (s : State) (m : Msg) : (s.emit m).poison = s.poison := rfl
@[simp] theorem State.emit_nor (s : State) (m : Msg) : (s.emit m).nor = s.nor := rfl
@[simp] theorem State.emit_pick (s : State) (m : Msg) : (s.emit m).pick = s.pick := rfl
@[simp] theorem State.emit_armed (s : State) (m : Msg) : (s.emit m).armed = s.armed := rfl
@[simp] theorem State.emit_locked (s : State) (m : Msg) : (s.emit m).locked = s.locked := rfl
@[simp] theorem State.emit_cores (s : State) (m : Msg) : (s.emit m).cores = s.cores := rfl
@[simp] theorem State.emit_solvers (s : State) (m : Msg) : (s.emit m).solvers = s.solvers := rfl
@[simp] theorem State.emit_cellar (s : State) (m : Msg) : (s.emit m).cellar = s.cellar := rfl
@[simp] theorem State.emit_stackCtls (s : State) (m : Msg) : (s.emit m).stackCtls = s.stackCtls := rfl
@[simp] theorem State.emit_upd (s : State) (m : Msg) : (s.emit m).upd = s.upd := rfl
@[simp] theorem State.emit_fab (s : State) (m : Msg) : (s.emit m).fab = s.fab := rfl
@[simp] theorem State.emit_links (s : State) (m : Msg) : (s.emit m).links = s.links := rfl
@[simp] theorem State.emit_colls (s : State) (m : Msg) : (s.emit m).colls = s.colls := rfl
@[simp] theorem State.emit_audit (s : State) (m : Msg) : (s.emit m).audit = s.audit := rfl
@[simp] theorem State.emit_field (s : State) (m : Msg) : (s.emit m).field = s.field := rfl
@[simp] theorem State.emit_host (s : State) (m : Msg) : (s.emit m).host = s.host := rfl
@[simp] theorem State.emit_mgmt (s : State) (m : Msg) : (s.emit m).mgmt = s.mgmt := rfl
@[simp] theorem State.emit_book (s : State) (m : Msg) : (s.emit m).book = s.book := rfl
@[simp] theorem State.emit_side (s : State) (m : Msg) : (s.emit m).side = s.side := rfl
@[simp] theorem State.emit_power (s : State) (m : Msg) : (s.emit m).power = s.power := rfl
@[simp] theorem State.emit_fld (s : State) (m : Msg) (y : Fld) (j : Nat) : (s.emit m).fld y j = s.fld y j := rfl

@[simp] theorem State.setCore_pending (s : State) (c : Nat) (x : CoreState) : (s.setCore c x).pending = s.pending := rfl
@[simp] theorem State.setCore_sent (s : State) (c : Nat) (x : CoreState) : (s.setCore c x).sent = s.sent := rfl
@[simp] theorem State.setCore_free (s : State) (c : Nat) (x : CoreState) : (s.setCore c x).free = s.free := rfl
@[simp] theorem State.setCore_regs (s : State) (c : Nat) (x : CoreState) : (s.setCore c x).regs = s.regs := rfl
@[simp] theorem State.setCore_shadow (s : State) (c : Nat) (x : CoreState) : (s.setCore c x).shadow = s.shadow := rfl
@[simp] theorem State.setCore_mem (s : State) (c : Nat) (x : CoreState) : (s.setCore c x).mem = s.mem := rfl
@[simp] theorem State.setCore_poison (s : State) (c : Nat) (x : CoreState) : (s.setCore c x).poison = s.poison := rfl
@[simp] theorem State.setCore_nor (s : State) (c : Nat) (x : CoreState) : (s.setCore c x).nor = s.nor := rfl
@[simp] theorem State.setCore_pick (s : State) (c : Nat) (x : CoreState) : (s.setCore c x).pick = s.pick := rfl
@[simp] theorem State.setCore_armed (s : State) (c : Nat) (x : CoreState) : (s.setCore c x).armed = s.armed := rfl
@[simp] theorem State.setCore_locked (s : State) (c : Nat) (x : CoreState) : (s.setCore c x).locked = s.locked := rfl
@[simp] theorem State.setCore_solvers (s : State) (c : Nat) (x : CoreState) : (s.setCore c x).solvers = s.solvers := rfl
@[simp] theorem State.setCore_cellar (s : State) (c : Nat) (x : CoreState) : (s.setCore c x).cellar = s.cellar := rfl
@[simp] theorem State.setCore_stackCtls (s : State) (c : Nat) (x : CoreState) : (s.setCore c x).stackCtls = s.stackCtls := rfl
@[simp] theorem State.setCore_upd (s : State) (c : Nat) (x : CoreState) : (s.setCore c x).upd = s.upd := rfl
@[simp] theorem State.setCore_fab (s : State) (c : Nat) (x : CoreState) : (s.setCore c x).fab = s.fab := rfl
@[simp] theorem State.setCore_links (s : State) (c : Nat) (x : CoreState) : (s.setCore c x).links = s.links := rfl
@[simp] theorem State.setCore_colls (s : State) (c : Nat) (x : CoreState) : (s.setCore c x).colls = s.colls := rfl
@[simp] theorem State.setCore_audit (s : State) (c : Nat) (x : CoreState) : (s.setCore c x).audit = s.audit := rfl
@[simp] theorem State.setCore_field (s : State) (c : Nat) (x : CoreState) : (s.setCore c x).field = s.field := rfl
@[simp] theorem State.setCore_host (s : State) (c : Nat) (x : CoreState) : (s.setCore c x).host = s.host := rfl
@[simp] theorem State.setCore_mgmt (s : State) (c : Nat) (x : CoreState) : (s.setCore c x).mgmt = s.mgmt := rfl
@[simp] theorem State.setCore_book (s : State) (c : Nat) (x : CoreState) : (s.setCore c x).book = s.book := rfl
@[simp] theorem State.setCore_side (s : State) (c : Nat) (x : CoreState) : (s.setCore c x).side = s.side := rfl
@[simp] theorem State.setCore_power (s : State) (c : Nat) (x : CoreState) : (s.setCore c x).power = s.power := rfl
@[simp] theorem State.setCore_fld (s : State) (c : Nat) (x : CoreState) (y : Fld) (j : Nat) : (s.setCore c x).fld y j = s.fld y j := rfl

@[simp] theorem State.setStrand_pending (s : State) (c t : Nat) (x : Strand) : (s.setStrand c t x).pending = s.pending := rfl
@[simp] theorem State.setStrand_sent (s : State) (c t : Nat) (x : Strand) : (s.setStrand c t x).sent = s.sent := rfl
@[simp] theorem State.setStrand_free (s : State) (c t : Nat) (x : Strand) : (s.setStrand c t x).free = s.free := rfl
@[simp] theorem State.setStrand_regs (s : State) (c t : Nat) (x : Strand) : (s.setStrand c t x).regs = s.regs := rfl
@[simp] theorem State.setStrand_shadow (s : State) (c t : Nat) (x : Strand) : (s.setStrand c t x).shadow = s.shadow := rfl
@[simp] theorem State.setStrand_mem (s : State) (c t : Nat) (x : Strand) : (s.setStrand c t x).mem = s.mem := rfl
@[simp] theorem State.setStrand_poison (s : State) (c t : Nat) (x : Strand) : (s.setStrand c t x).poison = s.poison := rfl
@[simp] theorem State.setStrand_nor (s : State) (c t : Nat) (x : Strand) : (s.setStrand c t x).nor = s.nor := rfl
@[simp] theorem State.setStrand_pick (s : State) (c t : Nat) (x : Strand) : (s.setStrand c t x).pick = s.pick := rfl
@[simp] theorem State.setStrand_armed (s : State) (c t : Nat) (x : Strand) : (s.setStrand c t x).armed = s.armed := rfl
@[simp] theorem State.setStrand_locked (s : State) (c t : Nat) (x : Strand) : (s.setStrand c t x).locked = s.locked := rfl
@[simp] theorem State.setStrand_solvers (s : State) (c t : Nat) (x : Strand) : (s.setStrand c t x).solvers = s.solvers := rfl
@[simp] theorem State.setStrand_cellar (s : State) (c t : Nat) (x : Strand) : (s.setStrand c t x).cellar = s.cellar := rfl
@[simp] theorem State.setStrand_stackCtls (s : State) (c t : Nat) (x : Strand) : (s.setStrand c t x).stackCtls = s.stackCtls := rfl
@[simp] theorem State.setStrand_upd (s : State) (c t : Nat) (x : Strand) : (s.setStrand c t x).upd = s.upd := rfl
@[simp] theorem State.setStrand_fab (s : State) (c t : Nat) (x : Strand) : (s.setStrand c t x).fab = s.fab := rfl
@[simp] theorem State.setStrand_links (s : State) (c t : Nat) (x : Strand) : (s.setStrand c t x).links = s.links := rfl
@[simp] theorem State.setStrand_colls (s : State) (c t : Nat) (x : Strand) : (s.setStrand c t x).colls = s.colls := rfl
@[simp] theorem State.setStrand_audit (s : State) (c t : Nat) (x : Strand) : (s.setStrand c t x).audit = s.audit := rfl
@[simp] theorem State.setStrand_field (s : State) (c t : Nat) (x : Strand) : (s.setStrand c t x).field = s.field := rfl
@[simp] theorem State.setStrand_host (s : State) (c t : Nat) (x : Strand) : (s.setStrand c t x).host = s.host := rfl
@[simp] theorem State.setStrand_mgmt (s : State) (c t : Nat) (x : Strand) : (s.setStrand c t x).mgmt = s.mgmt := rfl
@[simp] theorem State.setStrand_book (s : State) (c t : Nat) (x : Strand) : (s.setStrand c t x).book = s.book := rfl
@[simp] theorem State.setStrand_side (s : State) (c t : Nat) (x : Strand) : (s.setStrand c t x).side = s.side := rfl
@[simp] theorem State.setStrand_power (s : State) (c t : Nat) (x : Strand) : (s.setStrand c t x).power = s.power := rfl
@[simp] theorem State.setStrand_fld (s : State) (c t : Nat) (x : Strand) (y : Fld) (j : Nat) : (s.setStrand c t x).fld y j = s.fld y j := rfl

@[simp] theorem State.setSreg_pending (s : State) (c t n v : Nat) : (s.setSreg c t n v).pending = s.pending := rfl
@[simp] theorem State.setSreg_sent (s : State) (c t n v : Nat) : (s.setSreg c t n v).sent = s.sent := rfl
@[simp] theorem State.setSreg_free (s : State) (c t n v : Nat) : (s.setSreg c t n v).free = s.free := rfl
@[simp] theorem State.setSreg_regs (s : State) (c t n v : Nat) : (s.setSreg c t n v).regs = s.regs := rfl
@[simp] theorem State.setSreg_shadow (s : State) (c t n v : Nat) : (s.setSreg c t n v).shadow = s.shadow := rfl
@[simp] theorem State.setSreg_mem (s : State) (c t n v : Nat) : (s.setSreg c t n v).mem = s.mem := rfl
@[simp] theorem State.setSreg_poison (s : State) (c t n v : Nat) : (s.setSreg c t n v).poison = s.poison := rfl
@[simp] theorem State.setSreg_nor (s : State) (c t n v : Nat) : (s.setSreg c t n v).nor = s.nor := rfl
@[simp] theorem State.setSreg_pick (s : State) (c t n v : Nat) : (s.setSreg c t n v).pick = s.pick := rfl
@[simp] theorem State.setSreg_armed (s : State) (c t n v : Nat) : (s.setSreg c t n v).armed = s.armed := rfl
@[simp] theorem State.setSreg_locked (s : State) (c t n v : Nat) : (s.setSreg c t n v).locked = s.locked := rfl
@[simp] theorem State.setSreg_solvers (s : State) (c t n v : Nat) : (s.setSreg c t n v).solvers = s.solvers := rfl
@[simp] theorem State.setSreg_cellar (s : State) (c t n v : Nat) : (s.setSreg c t n v).cellar = s.cellar := rfl
@[simp] theorem State.setSreg_stackCtls (s : State) (c t n v : Nat) : (s.setSreg c t n v).stackCtls = s.stackCtls := rfl
@[simp] theorem State.setSreg_upd (s : State) (c t n v : Nat) : (s.setSreg c t n v).upd = s.upd := rfl
@[simp] theorem State.setSreg_fab (s : State) (c t n v : Nat) : (s.setSreg c t n v).fab = s.fab := rfl
@[simp] theorem State.setSreg_links (s : State) (c t n v : Nat) : (s.setSreg c t n v).links = s.links := rfl
@[simp] theorem State.setSreg_colls (s : State) (c t n v : Nat) : (s.setSreg c t n v).colls = s.colls := rfl
@[simp] theorem State.setSreg_audit (s : State) (c t n v : Nat) : (s.setSreg c t n v).audit = s.audit := rfl
@[simp] theorem State.setSreg_field (s : State) (c t n v : Nat) : (s.setSreg c t n v).field = s.field := rfl
@[simp] theorem State.setSreg_host (s : State) (c t n v : Nat) : (s.setSreg c t n v).host = s.host := rfl
@[simp] theorem State.setSreg_mgmt (s : State) (c t n v : Nat) : (s.setSreg c t n v).mgmt = s.mgmt := rfl
@[simp] theorem State.setSreg_book (s : State) (c t n v : Nat) : (s.setSreg c t n v).book = s.book := rfl
@[simp] theorem State.setSreg_side (s : State) (c t n v : Nat) : (s.setSreg c t n v).side = s.side := rfl
@[simp] theorem State.setSreg_power (s : State) (c t n v : Nat) : (s.setSreg c t n v).power = s.power := rfl
@[simp] theorem State.setSreg_fld (s : State) (c t n v : Nat) (y : Fld) (j : Nat) : (s.setSreg c t n v).fld y j = s.fld y j := rfl

@[simp] theorem State.wd_pending (s : State) (i : Issue) (v : Nat) : (s.wd i v).pending = s.pending := rfl
@[simp] theorem State.wd_sent (s : State) (i : Issue) (v : Nat) : (s.wd i v).sent = s.sent := rfl
@[simp] theorem State.wd_free (s : State) (i : Issue) (v : Nat) : (s.wd i v).free = s.free := rfl
@[simp] theorem State.wd_regs (s : State) (i : Issue) (v : Nat) : (s.wd i v).regs = s.regs := rfl
@[simp] theorem State.wd_shadow (s : State) (i : Issue) (v : Nat) : (s.wd i v).shadow = s.shadow := rfl
@[simp] theorem State.wd_mem (s : State) (i : Issue) (v : Nat) : (s.wd i v).mem = s.mem := rfl
@[simp] theorem State.wd_poison (s : State) (i : Issue) (v : Nat) : (s.wd i v).poison = s.poison := rfl
@[simp] theorem State.wd_nor (s : State) (i : Issue) (v : Nat) : (s.wd i v).nor = s.nor := rfl
@[simp] theorem State.wd_pick (s : State) (i : Issue) (v : Nat) : (s.wd i v).pick = s.pick := rfl
@[simp] theorem State.wd_armed (s : State) (i : Issue) (v : Nat) : (s.wd i v).armed = s.armed := rfl
@[simp] theorem State.wd_locked (s : State) (i : Issue) (v : Nat) : (s.wd i v).locked = s.locked := rfl
@[simp] theorem State.wd_solvers (s : State) (i : Issue) (v : Nat) : (s.wd i v).solvers = s.solvers := rfl
@[simp] theorem State.wd_cellar (s : State) (i : Issue) (v : Nat) : (s.wd i v).cellar = s.cellar := rfl
@[simp] theorem State.wd_stackCtls (s : State) (i : Issue) (v : Nat) : (s.wd i v).stackCtls = s.stackCtls := rfl
@[simp] theorem State.wd_upd (s : State) (i : Issue) (v : Nat) : (s.wd i v).upd = s.upd := rfl
@[simp] theorem State.wd_fab (s : State) (i : Issue) (v : Nat) : (s.wd i v).fab = s.fab := rfl
@[simp] theorem State.wd_links (s : State) (i : Issue) (v : Nat) : (s.wd i v).links = s.links := rfl
@[simp] theorem State.wd_colls (s : State) (i : Issue) (v : Nat) : (s.wd i v).colls = s.colls := rfl
@[simp] theorem State.wd_audit (s : State) (i : Issue) (v : Nat) : (s.wd i v).audit = s.audit := rfl
@[simp] theorem State.wd_field (s : State) (i : Issue) (v : Nat) : (s.wd i v).field = s.field := rfl
@[simp] theorem State.wd_host (s : State) (i : Issue) (v : Nat) : (s.wd i v).host = s.host := rfl
@[simp] theorem State.wd_mgmt (s : State) (i : Issue) (v : Nat) : (s.wd i v).mgmt = s.mgmt := rfl
@[simp] theorem State.wd_book (s : State) (i : Issue) (v : Nat) : (s.wd i v).book = s.book := rfl
@[simp] theorem State.wd_side (s : State) (i : Issue) (v : Nat) : (s.wd i v).side = s.side := rfl
@[simp] theorem State.wd_power (s : State) (i : Issue) (v : Nat) : (s.wd i v).power = s.power := rfl
@[simp] theorem State.wd_fld (s : State) (i : Issue) (v : Nat) (y : Fld) (j : Nat) : (s.wd i v).fld y j = s.fld y j := rfl

@[simp] theorem State.setLink_pending (s : State) (l : Nat) (x : LinkState) : (s.setLink l x).pending = s.pending := rfl
@[simp] theorem State.setLink_sent (s : State) (l : Nat) (x : LinkState) : (s.setLink l x).sent = s.sent := rfl
@[simp] theorem State.setLink_free (s : State) (l : Nat) (x : LinkState) : (s.setLink l x).free = s.free := rfl
@[simp] theorem State.setLink_regs (s : State) (l : Nat) (x : LinkState) : (s.setLink l x).regs = s.regs := rfl
@[simp] theorem State.setLink_shadow (s : State) (l : Nat) (x : LinkState) : (s.setLink l x).shadow = s.shadow := rfl
@[simp] theorem State.setLink_mem (s : State) (l : Nat) (x : LinkState) : (s.setLink l x).mem = s.mem := rfl
@[simp] theorem State.setLink_poison (s : State) (l : Nat) (x : LinkState) : (s.setLink l x).poison = s.poison := rfl
@[simp] theorem State.setLink_nor (s : State) (l : Nat) (x : LinkState) : (s.setLink l x).nor = s.nor := rfl
@[simp] theorem State.setLink_pick (s : State) (l : Nat) (x : LinkState) : (s.setLink l x).pick = s.pick := rfl
@[simp] theorem State.setLink_armed (s : State) (l : Nat) (x : LinkState) : (s.setLink l x).armed = s.armed := rfl
@[simp] theorem State.setLink_locked (s : State) (l : Nat) (x : LinkState) : (s.setLink l x).locked = s.locked := rfl
@[simp] theorem State.setLink_cores (s : State) (l : Nat) (x : LinkState) : (s.setLink l x).cores = s.cores := rfl
@[simp] theorem State.setLink_solvers (s : State) (l : Nat) (x : LinkState) : (s.setLink l x).solvers = s.solvers := rfl
@[simp] theorem State.setLink_cellar (s : State) (l : Nat) (x : LinkState) : (s.setLink l x).cellar = s.cellar := rfl
@[simp] theorem State.setLink_stackCtls (s : State) (l : Nat) (x : LinkState) : (s.setLink l x).stackCtls = s.stackCtls := rfl
@[simp] theorem State.setLink_upd (s : State) (l : Nat) (x : LinkState) : (s.setLink l x).upd = s.upd := rfl
@[simp] theorem State.setLink_fab (s : State) (l : Nat) (x : LinkState) : (s.setLink l x).fab = s.fab := rfl
@[simp] theorem State.setLink_colls (s : State) (l : Nat) (x : LinkState) : (s.setLink l x).colls = s.colls := rfl
@[simp] theorem State.setLink_audit (s : State) (l : Nat) (x : LinkState) : (s.setLink l x).audit = s.audit := rfl
@[simp] theorem State.setLink_field (s : State) (l : Nat) (x : LinkState) : (s.setLink l x).field = s.field := rfl
@[simp] theorem State.setLink_host (s : State) (l : Nat) (x : LinkState) : (s.setLink l x).host = s.host := rfl
@[simp] theorem State.setLink_mgmt (s : State) (l : Nat) (x : LinkState) : (s.setLink l x).mgmt = s.mgmt := rfl
@[simp] theorem State.setLink_book (s : State) (l : Nat) (x : LinkState) : (s.setLink l x).book = s.book := rfl
@[simp] theorem State.setLink_side (s : State) (l : Nat) (x : LinkState) : (s.setLink l x).side = s.side := rfl
@[simp] theorem State.setLink_power (s : State) (l : Nat) (x : LinkState) : (s.setLink l x).power = s.power := rfl
@[simp] theorem State.setLink_fld (s : State) (l : Nat) (x : LinkState) (y : Fld) (j : Nat) : (s.setLink l x).fld y j = s.fld y j := rfl

@[simp] theorem State.setHeddle_pending (s : State) (h : Nat) (x : Heddle) : (s.setHeddle h x).pending = s.pending := rfl
@[simp] theorem State.setHeddle_sent (s : State) (h : Nat) (x : Heddle) : (s.setHeddle h x).sent = s.sent := rfl
@[simp] theorem State.setHeddle_free (s : State) (h : Nat) (x : Heddle) : (s.setHeddle h x).free = s.free := rfl
@[simp] theorem State.setHeddle_regs (s : State) (h : Nat) (x : Heddle) : (s.setHeddle h x).regs = s.regs := rfl
@[simp] theorem State.setHeddle_shadow (s : State) (h : Nat) (x : Heddle) : (s.setHeddle h x).shadow = s.shadow := rfl
@[simp] theorem State.setHeddle_mem (s : State) (h : Nat) (x : Heddle) : (s.setHeddle h x).mem = s.mem := rfl
@[simp] theorem State.setHeddle_poison (s : State) (h : Nat) (x : Heddle) : (s.setHeddle h x).poison = s.poison := rfl
@[simp] theorem State.setHeddle_nor (s : State) (h : Nat) (x : Heddle) : (s.setHeddle h x).nor = s.nor := rfl
@[simp] theorem State.setHeddle_pick (s : State) (h : Nat) (x : Heddle) : (s.setHeddle h x).pick = s.pick := rfl
@[simp] theorem State.setHeddle_armed (s : State) (h : Nat) (x : Heddle) : (s.setHeddle h x).armed = s.armed := rfl
@[simp] theorem State.setHeddle_locked (s : State) (h : Nat) (x : Heddle) : (s.setHeddle h x).locked = s.locked := rfl
@[simp] theorem State.setHeddle_cores (s : State) (h : Nat) (x : Heddle) : (s.setHeddle h x).cores = s.cores := rfl
@[simp] theorem State.setHeddle_solvers (s : State) (h : Nat) (x : Heddle) : (s.setHeddle h x).solvers = s.solvers := rfl
@[simp] theorem State.setHeddle_cellar (s : State) (h : Nat) (x : Heddle) : (s.setHeddle h x).cellar = s.cellar := rfl
@[simp] theorem State.setHeddle_stackCtls (s : State) (h : Nat) (x : Heddle) : (s.setHeddle h x).stackCtls = s.stackCtls := rfl
@[simp] theorem State.setHeddle_upd (s : State) (h : Nat) (x : Heddle) : (s.setHeddle h x).upd = s.upd := rfl
@[simp] theorem State.setHeddle_links (s : State) (h : Nat) (x : Heddle) : (s.setHeddle h x).links = s.links := rfl
@[simp] theorem State.setHeddle_colls (s : State) (h : Nat) (x : Heddle) : (s.setHeddle h x).colls = s.colls := rfl
@[simp] theorem State.setHeddle_audit (s : State) (h : Nat) (x : Heddle) : (s.setHeddle h x).audit = s.audit := rfl
@[simp] theorem State.setHeddle_field (s : State) (h : Nat) (x : Heddle) : (s.setHeddle h x).field = s.field := rfl
@[simp] theorem State.setHeddle_host (s : State) (h : Nat) (x : Heddle) : (s.setHeddle h x).host = s.host := rfl
@[simp] theorem State.setHeddle_mgmt (s : State) (h : Nat) (x : Heddle) : (s.setHeddle h x).mgmt = s.mgmt := rfl
@[simp] theorem State.setHeddle_book (s : State) (h : Nat) (x : Heddle) : (s.setHeddle h x).book = s.book := rfl
@[simp] theorem State.setHeddle_side (s : State) (h : Nat) (x : Heddle) : (s.setHeddle h x).side = s.side := rfl
@[simp] theorem State.setHeddle_power (s : State) (h : Nat) (x : Heddle) : (s.setHeddle h x).power = s.power := rfl
@[simp] theorem State.setHeddle_fld (s : State) (h : Nat) (x : Heddle) (y : Fld) (j : Nat) : (s.setHeddle h x).fld y j = s.fld y j := rfl

@[simp] theorem State.setSolver_pending (s : State) (e : Nat) (x : SolverState) : (s.setSolver e x).pending = s.pending := rfl
@[simp] theorem State.setSolver_sent (s : State) (e : Nat) (x : SolverState) : (s.setSolver e x).sent = s.sent := rfl
@[simp] theorem State.setSolver_free (s : State) (e : Nat) (x : SolverState) : (s.setSolver e x).free = s.free := rfl
@[simp] theorem State.setSolver_regs (s : State) (e : Nat) (x : SolverState) : (s.setSolver e x).regs = s.regs := rfl
@[simp] theorem State.setSolver_shadow (s : State) (e : Nat) (x : SolverState) : (s.setSolver e x).shadow = s.shadow := rfl
@[simp] theorem State.setSolver_mem (s : State) (e : Nat) (x : SolverState) : (s.setSolver e x).mem = s.mem := rfl
@[simp] theorem State.setSolver_poison (s : State) (e : Nat) (x : SolverState) : (s.setSolver e x).poison = s.poison := rfl
@[simp] theorem State.setSolver_nor (s : State) (e : Nat) (x : SolverState) : (s.setSolver e x).nor = s.nor := rfl
@[simp] theorem State.setSolver_pick (s : State) (e : Nat) (x : SolverState) : (s.setSolver e x).pick = s.pick := rfl
@[simp] theorem State.setSolver_armed (s : State) (e : Nat) (x : SolverState) : (s.setSolver e x).armed = s.armed := rfl
@[simp] theorem State.setSolver_locked (s : State) (e : Nat) (x : SolverState) : (s.setSolver e x).locked = s.locked := rfl
@[simp] theorem State.setSolver_cores (s : State) (e : Nat) (x : SolverState) : (s.setSolver e x).cores = s.cores := rfl
@[simp] theorem State.setSolver_cellar (s : State) (e : Nat) (x : SolverState) : (s.setSolver e x).cellar = s.cellar := rfl
@[simp] theorem State.setSolver_stackCtls (s : State) (e : Nat) (x : SolverState) : (s.setSolver e x).stackCtls = s.stackCtls := rfl
@[simp] theorem State.setSolver_upd (s : State) (e : Nat) (x : SolverState) : (s.setSolver e x).upd = s.upd := rfl
@[simp] theorem State.setSolver_fab (s : State) (e : Nat) (x : SolverState) : (s.setSolver e x).fab = s.fab := rfl
@[simp] theorem State.setSolver_links (s : State) (e : Nat) (x : SolverState) : (s.setSolver e x).links = s.links := rfl
@[simp] theorem State.setSolver_colls (s : State) (e : Nat) (x : SolverState) : (s.setSolver e x).colls = s.colls := rfl
@[simp] theorem State.setSolver_audit (s : State) (e : Nat) (x : SolverState) : (s.setSolver e x).audit = s.audit := rfl
@[simp] theorem State.setSolver_field (s : State) (e : Nat) (x : SolverState) : (s.setSolver e x).field = s.field := rfl
@[simp] theorem State.setSolver_host (s : State) (e : Nat) (x : SolverState) : (s.setSolver e x).host = s.host := rfl
@[simp] theorem State.setSolver_mgmt (s : State) (e : Nat) (x : SolverState) : (s.setSolver e x).mgmt = s.mgmt := rfl
@[simp] theorem State.setSolver_book (s : State) (e : Nat) (x : SolverState) : (s.setSolver e x).book = s.book := rfl
@[simp] theorem State.setSolver_side (s : State) (e : Nat) (x : SolverState) : (s.setSolver e x).side = s.side := rfl
@[simp] theorem State.setSolver_power (s : State) (e : Nat) (x : SolverState) : (s.setSolver e x).power = s.power := rfl
@[simp] theorem State.setSolver_fld (s : State) (e : Nat) (x : SolverState) (y : Fld) (j : Nat) : (s.setSolver e x).fld y j = s.fld y j := rfl

@[simp] theorem State.setSlice_pending (s : State) (c : Nat) (x : SliceState) : (s.setSlice c x).pending = s.pending := rfl
@[simp] theorem State.setSlice_sent (s : State) (c : Nat) (x : SliceState) : (s.setSlice c x).sent = s.sent := rfl
@[simp] theorem State.setSlice_free (s : State) (c : Nat) (x : SliceState) : (s.setSlice c x).free = s.free := rfl
@[simp] theorem State.setSlice_regs (s : State) (c : Nat) (x : SliceState) : (s.setSlice c x).regs = s.regs := rfl
@[simp] theorem State.setSlice_shadow (s : State) (c : Nat) (x : SliceState) : (s.setSlice c x).shadow = s.shadow := rfl
@[simp] theorem State.setSlice_mem (s : State) (c : Nat) (x : SliceState) : (s.setSlice c x).mem = s.mem := rfl
@[simp] theorem State.setSlice_poison (s : State) (c : Nat) (x : SliceState) : (s.setSlice c x).poison = s.poison := rfl
@[simp] theorem State.setSlice_nor (s : State) (c : Nat) (x : SliceState) : (s.setSlice c x).nor = s.nor := rfl
@[simp] theorem State.setSlice_pick (s : State) (c : Nat) (x : SliceState) : (s.setSlice c x).pick = s.pick := rfl
@[simp] theorem State.setSlice_armed (s : State) (c : Nat) (x : SliceState) : (s.setSlice c x).armed = s.armed := rfl
@[simp] theorem State.setSlice_locked (s : State) (c : Nat) (x : SliceState) : (s.setSlice c x).locked = s.locked := rfl
@[simp] theorem State.setSlice_cores (s : State) (c : Nat) (x : SliceState) : (s.setSlice c x).cores = s.cores := rfl
@[simp] theorem State.setSlice_solvers (s : State) (c : Nat) (x : SliceState) : (s.setSlice c x).solvers = s.solvers := rfl
@[simp] theorem State.setSlice_cellar (s : State) (c : Nat) (x : SliceState) : (s.setSlice c x).cellar = s.cellar := rfl
@[simp] theorem State.setSlice_stackCtls (s : State) (c : Nat) (x : SliceState) : (s.setSlice c x).stackCtls = s.stackCtls := rfl
@[simp] theorem State.setSlice_fab (s : State) (c : Nat) (x : SliceState) : (s.setSlice c x).fab = s.fab := rfl
@[simp] theorem State.setSlice_links (s : State) (c : Nat) (x : SliceState) : (s.setSlice c x).links = s.links := rfl
@[simp] theorem State.setSlice_colls (s : State) (c : Nat) (x : SliceState) : (s.setSlice c x).colls = s.colls := rfl
@[simp] theorem State.setSlice_audit (s : State) (c : Nat) (x : SliceState) : (s.setSlice c x).audit = s.audit := rfl
@[simp] theorem State.setSlice_field (s : State) (c : Nat) (x : SliceState) : (s.setSlice c x).field = s.field := rfl
@[simp] theorem State.setSlice_host (s : State) (c : Nat) (x : SliceState) : (s.setSlice c x).host = s.host := rfl
@[simp] theorem State.setSlice_mgmt (s : State) (c : Nat) (x : SliceState) : (s.setSlice c x).mgmt = s.mgmt := rfl
@[simp] theorem State.setSlice_book (s : State) (c : Nat) (x : SliceState) : (s.setSlice c x).book = s.book := rfl
@[simp] theorem State.setSlice_side (s : State) (c : Nat) (x : SliceState) : (s.setSlice c x).side = s.side := rfl
@[simp] theorem State.setSlice_power (s : State) (c : Nat) (x : SliceState) : (s.setSlice c x).power = s.power := rfl
@[simp] theorem State.setSlice_fld (s : State) (c : Nat) (x : SliceState) (y : Fld) (j : Nat) : (s.setSlice c x).fld y j = s.fld y j := rfl

@[simp] theorem State.setColl_pending (s : State) (c : Nat) (x : CollState) : (s.setColl c x).pending = s.pending := rfl
@[simp] theorem State.setColl_sent (s : State) (c : Nat) (x : CollState) : (s.setColl c x).sent = s.sent := rfl
@[simp] theorem State.setColl_free (s : State) (c : Nat) (x : CollState) : (s.setColl c x).free = s.free := rfl
@[simp] theorem State.setColl_regs (s : State) (c : Nat) (x : CollState) : (s.setColl c x).regs = s.regs := rfl
@[simp] theorem State.setColl_shadow (s : State) (c : Nat) (x : CollState) : (s.setColl c x).shadow = s.shadow := rfl
@[simp] theorem State.setColl_mem (s : State) (c : Nat) (x : CollState) : (s.setColl c x).mem = s.mem := rfl
@[simp] theorem State.setColl_poison (s : State) (c : Nat) (x : CollState) : (s.setColl c x).poison = s.poison := rfl
@[simp] theorem State.setColl_nor (s : State) (c : Nat) (x : CollState) : (s.setColl c x).nor = s.nor := rfl
@[simp] theorem State.setColl_pick (s : State) (c : Nat) (x : CollState) : (s.setColl c x).pick = s.pick := rfl
@[simp] theorem State.setColl_armed (s : State) (c : Nat) (x : CollState) : (s.setColl c x).armed = s.armed := rfl
@[simp] theorem State.setColl_locked (s : State) (c : Nat) (x : CollState) : (s.setColl c x).locked = s.locked := rfl
@[simp] theorem State.setColl_cores (s : State) (c : Nat) (x : CollState) : (s.setColl c x).cores = s.cores := rfl
@[simp] theorem State.setColl_solvers (s : State) (c : Nat) (x : CollState) : (s.setColl c x).solvers = s.solvers := rfl
@[simp] theorem State.setColl_cellar (s : State) (c : Nat) (x : CollState) : (s.setColl c x).cellar = s.cellar := rfl
@[simp] theorem State.setColl_stackCtls (s : State) (c : Nat) (x : CollState) : (s.setColl c x).stackCtls = s.stackCtls := rfl
@[simp] theorem State.setColl_upd (s : State) (c : Nat) (x : CollState) : (s.setColl c x).upd = s.upd := rfl
@[simp] theorem State.setColl_fab (s : State) (c : Nat) (x : CollState) : (s.setColl c x).fab = s.fab := rfl
@[simp] theorem State.setColl_links (s : State) (c : Nat) (x : CollState) : (s.setColl c x).links = s.links := rfl
@[simp] theorem State.setColl_audit (s : State) (c : Nat) (x : CollState) : (s.setColl c x).audit = s.audit := rfl
@[simp] theorem State.setColl_field (s : State) (c : Nat) (x : CollState) : (s.setColl c x).field = s.field := rfl
@[simp] theorem State.setColl_host (s : State) (c : Nat) (x : CollState) : (s.setColl c x).host = s.host := rfl
@[simp] theorem State.setColl_mgmt (s : State) (c : Nat) (x : CollState) : (s.setColl c x).mgmt = s.mgmt := rfl
@[simp] theorem State.setColl_book (s : State) (c : Nat) (x : CollState) : (s.setColl c x).book = s.book := rfl
@[simp] theorem State.setColl_side (s : State) (c : Nat) (x : CollState) : (s.setColl c x).side = s.side := rfl
@[simp] theorem State.setColl_power (s : State) (c : Nat) (x : CollState) : (s.setColl c x).power = s.power := rfl
@[simp] theorem State.setColl_fld (s : State) (c : Nat) (x : CollState) (y : Fld) (j : Nat) : (s.setColl c x).fld y j = s.fld y j := rfl

@[simp] theorem State.setGranule_pending (s : State) (g : Nat) (x : Granule) : (s.setGranule g x).pending = s.pending := rfl
@[simp] theorem State.setGranule_sent (s : State) (g : Nat) (x : Granule) : (s.setGranule g x).sent = s.sent := rfl
@[simp] theorem State.setGranule_free (s : State) (g : Nat) (x : Granule) : (s.setGranule g x).free = s.free := rfl
@[simp] theorem State.setGranule_regs (s : State) (g : Nat) (x : Granule) : (s.setGranule g x).regs = s.regs := rfl
@[simp] theorem State.setGranule_shadow (s : State) (g : Nat) (x : Granule) : (s.setGranule g x).shadow = s.shadow := rfl
@[simp] theorem State.setGranule_mem (s : State) (g : Nat) (x : Granule) : (s.setGranule g x).mem = s.mem := rfl
@[simp] theorem State.setGranule_poison (s : State) (g : Nat) (x : Granule) : (s.setGranule g x).poison = s.poison := rfl
@[simp] theorem State.setGranule_nor (s : State) (g : Nat) (x : Granule) : (s.setGranule g x).nor = s.nor := rfl
@[simp] theorem State.setGranule_pick (s : State) (g : Nat) (x : Granule) : (s.setGranule g x).pick = s.pick := rfl
@[simp] theorem State.setGranule_armed (s : State) (g : Nat) (x : Granule) : (s.setGranule g x).armed = s.armed := rfl
@[simp] theorem State.setGranule_locked (s : State) (g : Nat) (x : Granule) : (s.setGranule g x).locked = s.locked := rfl
@[simp] theorem State.setGranule_cores (s : State) (g : Nat) (x : Granule) : (s.setGranule g x).cores = s.cores := rfl
@[simp] theorem State.setGranule_solvers (s : State) (g : Nat) (x : Granule) : (s.setGranule g x).solvers = s.solvers := rfl
@[simp] theorem State.setGranule_stackCtls (s : State) (g : Nat) (x : Granule) : (s.setGranule g x).stackCtls = s.stackCtls := rfl
@[simp] theorem State.setGranule_upd (s : State) (g : Nat) (x : Granule) : (s.setGranule g x).upd = s.upd := rfl
@[simp] theorem State.setGranule_fab (s : State) (g : Nat) (x : Granule) : (s.setGranule g x).fab = s.fab := rfl
@[simp] theorem State.setGranule_links (s : State) (g : Nat) (x : Granule) : (s.setGranule g x).links = s.links := rfl
@[simp] theorem State.setGranule_colls (s : State) (g : Nat) (x : Granule) : (s.setGranule g x).colls = s.colls := rfl
@[simp] theorem State.setGranule_audit (s : State) (g : Nat) (x : Granule) : (s.setGranule g x).audit = s.audit := rfl
@[simp] theorem State.setGranule_field (s : State) (g : Nat) (x : Granule) : (s.setGranule g x).field = s.field := rfl
@[simp] theorem State.setGranule_host (s : State) (g : Nat) (x : Granule) : (s.setGranule g x).host = s.host := rfl
@[simp] theorem State.setGranule_mgmt (s : State) (g : Nat) (x : Granule) : (s.setGranule g x).mgmt = s.mgmt := rfl
@[simp] theorem State.setGranule_book (s : State) (g : Nat) (x : Granule) : (s.setGranule g x).book = s.book := rfl
@[simp] theorem State.setGranule_side (s : State) (g : Nat) (x : Granule) : (s.setGranule g x).side = s.side := rfl
@[simp] theorem State.setGranule_power (s : State) (g : Nat) (x : Granule) : (s.setGranule g x).power = s.power := rfl
@[simp] theorem State.setGranule_fld (s : State) (g : Nat) (x : Granule) (y : Fld) (j : Nat) : (s.setGranule g x).fld y j = s.fld y j := rfl

@[simp] theorem State.modPick_pending (s : State) (f : PickState → PickState) : (s.modPick f).pending = s.pending := rfl
@[simp] theorem State.modPick_sent (s : State) (f : PickState → PickState) : (s.modPick f).sent = s.sent := rfl
@[simp] theorem State.modPick_free (s : State) (f : PickState → PickState) : (s.modPick f).free = s.free := rfl
@[simp] theorem State.modPick_regs (s : State) (f : PickState → PickState) : (s.modPick f).regs = s.regs := rfl
@[simp] theorem State.modPick_shadow (s : State) (f : PickState → PickState) : (s.modPick f).shadow = s.shadow := rfl
@[simp] theorem State.modPick_mem (s : State) (f : PickState → PickState) : (s.modPick f).mem = s.mem := rfl
@[simp] theorem State.modPick_poison (s : State) (f : PickState → PickState) : (s.modPick f).poison = s.poison := rfl
@[simp] theorem State.modPick_nor (s : State) (f : PickState → PickState) : (s.modPick f).nor = s.nor := rfl
@[simp] theorem State.modPick_armed (s : State) (f : PickState → PickState) : (s.modPick f).armed = s.armed := rfl
@[simp] theorem State.modPick_locked (s : State) (f : PickState → PickState) : (s.modPick f).locked = s.locked := rfl
@[simp] theorem State.modPick_cores (s : State) (f : PickState → PickState) : (s.modPick f).cores = s.cores := rfl
@[simp] theorem State.modPick_solvers (s : State) (f : PickState → PickState) : (s.modPick f).solvers = s.solvers := rfl
@[simp] theorem State.modPick_cellar (s : State) (f : PickState → PickState) : (s.modPick f).cellar = s.cellar := rfl
@[simp] theorem State.modPick_stackCtls (s : State) (f : PickState → PickState) : (s.modPick f).stackCtls = s.stackCtls := rfl
@[simp] theorem State.modPick_upd (s : State) (f : PickState → PickState) : (s.modPick f).upd = s.upd := rfl
@[simp] theorem State.modPick_fab (s : State) (f : PickState → PickState) : (s.modPick f).fab = s.fab := rfl
@[simp] theorem State.modPick_links (s : State) (f : PickState → PickState) : (s.modPick f).links = s.links := rfl
@[simp] theorem State.modPick_colls (s : State) (f : PickState → PickState) : (s.modPick f).colls = s.colls := rfl
@[simp] theorem State.modPick_audit (s : State) (f : PickState → PickState) : (s.modPick f).audit = s.audit := rfl
@[simp] theorem State.modPick_field (s : State) (f : PickState → PickState) : (s.modPick f).field = s.field := rfl
@[simp] theorem State.modPick_host (s : State) (f : PickState → PickState) : (s.modPick f).host = s.host := rfl
@[simp] theorem State.modPick_mgmt (s : State) (f : PickState → PickState) : (s.modPick f).mgmt = s.mgmt := rfl
@[simp] theorem State.modPick_book (s : State) (f : PickState → PickState) : (s.modPick f).book = s.book := rfl
@[simp] theorem State.modPick_side (s : State) (f : PickState → PickState) : (s.modPick f).side = s.side := rfl
@[simp] theorem State.modPick_power (s : State) (f : PickState → PickState) : (s.modPick f).power = s.power := rfl
@[simp] theorem State.modPick_fld (s : State) (f : PickState → PickState) (y : Fld) (j : Nat) : (s.modPick f).fld y j = s.fld y j := rfl

@[simp] theorem State.addSat_pending (s : State) (f : Fld) (i n : Nat) : (s.addSat f i n).pending = s.pending := rfl
@[simp] theorem State.addSat_sent (s : State) (f : Fld) (i n : Nat) : (s.addSat f i n).sent = s.sent := rfl
@[simp] theorem State.addSat_free (s : State) (f : Fld) (i n : Nat) : (s.addSat f i n).free = s.free := rfl
@[simp] theorem State.addSat_shadow (s : State) (f : Fld) (i n : Nat) : (s.addSat f i n).shadow = s.shadow := rfl
@[simp] theorem State.addSat_mem (s : State) (f : Fld) (i n : Nat) : (s.addSat f i n).mem = s.mem := rfl
@[simp] theorem State.addSat_poison (s : State) (f : Fld) (i n : Nat) : (s.addSat f i n).poison = s.poison := rfl
@[simp] theorem State.addSat_nor (s : State) (f : Fld) (i n : Nat) : (s.addSat f i n).nor = s.nor := rfl
@[simp] theorem State.addSat_pick (s : State) (f : Fld) (i n : Nat) : (s.addSat f i n).pick = s.pick := rfl
@[simp] theorem State.addSat_armed (s : State) (f : Fld) (i n : Nat) : (s.addSat f i n).armed = s.armed := rfl
@[simp] theorem State.addSat_locked (s : State) (f : Fld) (i n : Nat) : (s.addSat f i n).locked = s.locked := rfl
@[simp] theorem State.addSat_cores (s : State) (f : Fld) (i n : Nat) : (s.addSat f i n).cores = s.cores := rfl
@[simp] theorem State.addSat_solvers (s : State) (f : Fld) (i n : Nat) : (s.addSat f i n).solvers = s.solvers := rfl
@[simp] theorem State.addSat_cellar (s : State) (f : Fld) (i n : Nat) : (s.addSat f i n).cellar = s.cellar := rfl
@[simp] theorem State.addSat_stackCtls (s : State) (f : Fld) (i n : Nat) : (s.addSat f i n).stackCtls = s.stackCtls := rfl
@[simp] theorem State.addSat_upd (s : State) (f : Fld) (i n : Nat) : (s.addSat f i n).upd = s.upd := rfl
@[simp] theorem State.addSat_fab (s : State) (f : Fld) (i n : Nat) : (s.addSat f i n).fab = s.fab := rfl
@[simp] theorem State.addSat_links (s : State) (f : Fld) (i n : Nat) : (s.addSat f i n).links = s.links := rfl
@[simp] theorem State.addSat_colls (s : State) (f : Fld) (i n : Nat) : (s.addSat f i n).colls = s.colls := rfl
@[simp] theorem State.addSat_audit (s : State) (f : Fld) (i n : Nat) : (s.addSat f i n).audit = s.audit := rfl
@[simp] theorem State.addSat_field (s : State) (f : Fld) (i n : Nat) : (s.addSat f i n).field = s.field := rfl
@[simp] theorem State.addSat_host (s : State) (f : Fld) (i n : Nat) : (s.addSat f i n).host = s.host := rfl
@[simp] theorem State.addSat_mgmt (s : State) (f : Fld) (i n : Nat) : (s.addSat f i n).mgmt = s.mgmt := rfl
@[simp] theorem State.addSat_book (s : State) (f : Fld) (i n : Nat) : (s.addSat f i n).book = s.book := rfl
@[simp] theorem State.addSat_side (s : State) (f : Fld) (i n : Nat) : (s.addSat f i n).side = s.side := rfl
@[simp] theorem State.addSat_power (s : State) (f : Fld) (i n : Nat) : (s.addSat f i n).power = s.power := rfl

@[simp] theorem State.addWrap_pending (s : State) (f : Fld) (i n : Nat) : (s.addWrap f i n).pending = s.pending := rfl
@[simp] theorem State.addWrap_sent (s : State) (f : Fld) (i n : Nat) : (s.addWrap f i n).sent = s.sent := rfl
@[simp] theorem State.addWrap_free (s : State) (f : Fld) (i n : Nat) : (s.addWrap f i n).free = s.free := rfl
@[simp] theorem State.addWrap_shadow (s : State) (f : Fld) (i n : Nat) : (s.addWrap f i n).shadow = s.shadow := rfl
@[simp] theorem State.addWrap_mem (s : State) (f : Fld) (i n : Nat) : (s.addWrap f i n).mem = s.mem := rfl
@[simp] theorem State.addWrap_poison (s : State) (f : Fld) (i n : Nat) : (s.addWrap f i n).poison = s.poison := rfl
@[simp] theorem State.addWrap_nor (s : State) (f : Fld) (i n : Nat) : (s.addWrap f i n).nor = s.nor := rfl
@[simp] theorem State.addWrap_pick (s : State) (f : Fld) (i n : Nat) : (s.addWrap f i n).pick = s.pick := rfl
@[simp] theorem State.addWrap_armed (s : State) (f : Fld) (i n : Nat) : (s.addWrap f i n).armed = s.armed := rfl
@[simp] theorem State.addWrap_locked (s : State) (f : Fld) (i n : Nat) : (s.addWrap f i n).locked = s.locked := rfl
@[simp] theorem State.addWrap_cores (s : State) (f : Fld) (i n : Nat) : (s.addWrap f i n).cores = s.cores := rfl
@[simp] theorem State.addWrap_solvers (s : State) (f : Fld) (i n : Nat) : (s.addWrap f i n).solvers = s.solvers := rfl
@[simp] theorem State.addWrap_cellar (s : State) (f : Fld) (i n : Nat) : (s.addWrap f i n).cellar = s.cellar := rfl
@[simp] theorem State.addWrap_stackCtls (s : State) (f : Fld) (i n : Nat) : (s.addWrap f i n).stackCtls = s.stackCtls := rfl
@[simp] theorem State.addWrap_upd (s : State) (f : Fld) (i n : Nat) : (s.addWrap f i n).upd = s.upd := rfl
@[simp] theorem State.addWrap_fab (s : State) (f : Fld) (i n : Nat) : (s.addWrap f i n).fab = s.fab := rfl
@[simp] theorem State.addWrap_links (s : State) (f : Fld) (i n : Nat) : (s.addWrap f i n).links = s.links := rfl
@[simp] theorem State.addWrap_colls (s : State) (f : Fld) (i n : Nat) : (s.addWrap f i n).colls = s.colls := rfl
@[simp] theorem State.addWrap_audit (s : State) (f : Fld) (i n : Nat) : (s.addWrap f i n).audit = s.audit := rfl
@[simp] theorem State.addWrap_field (s : State) (f : Fld) (i n : Nat) : (s.addWrap f i n).field = s.field := rfl
@[simp] theorem State.addWrap_host (s : State) (f : Fld) (i n : Nat) : (s.addWrap f i n).host = s.host := rfl
@[simp] theorem State.addWrap_mgmt (s : State) (f : Fld) (i n : Nat) : (s.addWrap f i n).mgmt = s.mgmt := rfl
@[simp] theorem State.addWrap_book (s : State) (f : Fld) (i n : Nat) : (s.addWrap f i n).book = s.book := rfl
@[simp] theorem State.addWrap_side (s : State) (f : Fld) (i n : Nat) : (s.addWrap f i n).side = s.side := rfl
@[simp] theorem State.addWrap_power (s : State) (f : Fld) (i n : Nat) : (s.addWrap f i n).power = s.power := rfl

@[simp] theorem State.setPtp_pending (s : State) (i : Nat) (p : PtpState) : (s.setPtp i p).pending = s.pending := rfl
@[simp] theorem State.setPtp_sent (s : State) (i : Nat) (p : PtpState) : (s.setPtp i p).sent = s.sent := rfl
@[simp] theorem State.setPtp_free (s : State) (i : Nat) (p : PtpState) : (s.setPtp i p).free = s.free := rfl
@[simp] theorem State.setPtp_regs (s : State) (i : Nat) (p : PtpState) : (s.setPtp i p).regs = s.regs := rfl
@[simp] theorem State.setPtp_shadow (s : State) (i : Nat) (p : PtpState) : (s.setPtp i p).shadow = s.shadow := rfl
@[simp] theorem State.setPtp_mem (s : State) (i : Nat) (p : PtpState) : (s.setPtp i p).mem = s.mem := rfl
@[simp] theorem State.setPtp_poison (s : State) (i : Nat) (p : PtpState) : (s.setPtp i p).poison = s.poison := rfl
@[simp] theorem State.setPtp_nor (s : State) (i : Nat) (p : PtpState) : (s.setPtp i p).nor = s.nor := rfl
@[simp] theorem State.setPtp_pick (s : State) (i : Nat) (p : PtpState) : (s.setPtp i p).pick = s.pick := rfl
@[simp] theorem State.setPtp_armed (s : State) (i : Nat) (p : PtpState) : (s.setPtp i p).armed = s.armed := rfl
@[simp] theorem State.setPtp_locked (s : State) (i : Nat) (p : PtpState) : (s.setPtp i p).locked = s.locked := rfl
@[simp] theorem State.setPtp_cores (s : State) (i : Nat) (p : PtpState) : (s.setPtp i p).cores = s.cores := rfl
@[simp] theorem State.setPtp_solvers (s : State) (i : Nat) (p : PtpState) : (s.setPtp i p).solvers = s.solvers := rfl
@[simp] theorem State.setPtp_cellar (s : State) (i : Nat) (p : PtpState) : (s.setPtp i p).cellar = s.cellar := rfl
@[simp] theorem State.setPtp_stackCtls (s : State) (i : Nat) (p : PtpState) : (s.setPtp i p).stackCtls = s.stackCtls := rfl
@[simp] theorem State.setPtp_upd (s : State) (i : Nat) (p : PtpState) : (s.setPtp i p).upd = s.upd := rfl
@[simp] theorem State.setPtp_fab (s : State) (i : Nat) (p : PtpState) : (s.setPtp i p).fab = s.fab := rfl
@[simp] theorem State.setPtp_links (s : State) (i : Nat) (p : PtpState) : (s.setPtp i p).links = s.links := rfl
@[simp] theorem State.setPtp_colls (s : State) (i : Nat) (p : PtpState) : (s.setPtp i p).colls = s.colls := rfl
@[simp] theorem State.setPtp_audit (s : State) (i : Nat) (p : PtpState) : (s.setPtp i p).audit = s.audit := rfl
@[simp] theorem State.setPtp_host (s : State) (i : Nat) (p : PtpState) : (s.setPtp i p).host = s.host := rfl
@[simp] theorem State.setPtp_mgmt (s : State) (i : Nat) (p : PtpState) : (s.setPtp i p).mgmt = s.mgmt := rfl
@[simp] theorem State.setPtp_book (s : State) (i : Nat) (p : PtpState) : (s.setPtp i p).book = s.book := rfl
@[simp] theorem State.setPtp_side (s : State) (i : Nat) (p : PtpState) : (s.setPtp i p).side = s.side := rfl
@[simp] theorem State.setPtp_power (s : State) (i : Nat) (p : PtpState) : (s.setPtp i p).power = s.power := rfl
@[simp] theorem State.setPtp_fld (s : State) (i : Nat) (p : PtpState) (y : Fld) (j : Nat) : (s.setPtp i p).fld y j = s.fld y j := rfl

end Sys2Proof.Machine
end

