-- ==== Sys2Proof/Laws/Issue.lean ====
section
/-! SUPPORT. Everything that the issue of an instruction can do: what `State.advance`, `State.strEcc` and `State.issue` leave. -/
namespace Sys2Proof.Machine
open Sys2Proof

/-! ### Nothing counted -/

@[simp] theorem State.countEv_zero (s : State) (f : Fld) (i b : Nat) : s.countEv f i 0 b = s := rfl
@[simp] theorem State.strEcc_none (s : State) (c : Nat) : s.strEcc c {} = s := rfl
@[simp] theorem State.vecEcc_none (s : State) (c : Nat) : s.vecEcc c {} = s := rfl
@[simp] theorem State.splEcc_none (s : State) (c : Nat) : s.splEcc c [] = s := rfl
@[simp] theorem State.corePoison_false (s : State) (c : Nat) : s.corePoison c false = s := rfl

/-! ### Moving on -/

theorem State.advance_eq (s : State) (c t : Nat) : s.advance c t =
    ((s.setStrand c t { s.strand c t with pc := ((s.strand c t).pc + 8) % 2 ^ 64, wait := none, ir := none }).setCore c
      { (s.setStrand c t { s.strand c t with pc := ((s.strand c t).pc + 8) % 2 ^ 64, wait := none, ir := none }).core c with
        lastIssue := t }).addWrap F.CORE_STR_ISSUED c 1 := rfl

theorem State.strand_setStrand_other (s : State) {c t d u : Nat} (x : Strand) (h : d ≠ c ∨ u ≠ t) :
    (s.setStrand c t x).strand d u = s.strand d u := by
  unfold State.strand State.setStrand
  by_cases hd : d = c
  · subst hd
    have hu : u ≠ t := by rcases h with h | h; exact absurd rfl h; exact h
    rw [State.core_setCore_same]
    exact Tab.get_set_other _ _ _ hu
  · rw [State.core_setCore_other _ _ hd]

@[simp] theorem State.core_setStrand_same (s : State) (c t : Nat) (x : Strand) :
    (s.setStrand c t x).core c = { s.core c with strands := Tab.set (s.core c).strands t x } := by simp [State.setStrand]

@[simp] theorem State.core_addWrap (s : State) (f : Fld) (i n c : Nat) : (s.addWrap f i n).core c = s.core c := rfl
@[simp] theorem State.core_addSat (s : State) (f : Fld) (i n c : Nat) : (s.addSat f i n).core c = s.core c := rfl
@[simp] theorem State.strand_addWrap (s : State) (f : Fld) (i n c t : Nat) : (s.addWrap f i n).strand c t = s.strand c t := rfl
@[simp] theorem State.strand_addSat (s : State) (f : Fld) (i n c t : Nat) : (s.addSat f i n).strand c t = s.strand c t := rfl
@[simp] theorem State.sreg_addSat (s : State) (f : Fld) (i n c t k : Nat) : (s.addSat f i n).sreg c t k = s.sreg c t k := rfl

/-- The strand that has moved on. -/
@[simp] theorem State.strand_advance_same (s : State) (c t : Nat) : (s.advance c t).strand c t =
    { s.strand c t with pc := ((s.strand c t).pc + 8) % 2 ^ 64, wait := none, ir := none } := by
  simp [State.advance_eq, State.strand]

/-- Other strands stay. -/
theorem State.strand_advance_other (s : State) {c t d u : Nat} (h : d ≠ c ∨ u ≠ t) : (s.advance c t).strand d u = s.strand d u := by
  rw [State.advance_eq, State.strand_addWrap]
  by_cases hd : d = c
  · subst hd
    have hu : u ≠ t := by rcases h with h | h; exact absurd rfl h; exact h
    simp [State.strand, Tab.get_set_other _ _ _ hu]
  · simp [State.strand, State.core_setCore_other _ _ hd, State.setStrand]

/-- What the core holds beside its strands stays. -/
theorem State.core_advance_same (s : State) (c t : Nat) : (s.advance c t).core c =
    { s.core c with
      strands := Tab.set (s.core c).strands t { s.strand c t with pc := ((s.strand c t).pc + 8) % 2 ^ 64, wait := none, ir := none }
      lastIssue := t } := by
  simp [State.advance_eq]

theorem State.core_advance_other (s : State) {c t d : Nat} (h : d ≠ c) : (s.advance c t).core d = s.core d := by
  simp [State.advance_eq, State.core_setCore_other _ _ h, State.setStrand]

/-- The scalar registers stay. -/
@[simp] theorem State.sreg_advance (s : State) (c t d u n : Nat) : (s.advance c t).sreg d u n = s.sreg d u n := by
  unfold State.sreg
  by_cases h : d ≠ c ∨ u ≠ t
  · rw [State.strand_advance_other s h]
  · simp only [not_or, not_not] at h
    obtain ⟨rfl, rfl⟩ := h
    simp [Strand.reg]

@[simp] theorem State.ra_advance (s : State) (c t : Nat) (i : Issue) : (s.advance c t).ra i = s.ra i := by simp [State.ra]
@[simp] theorem State.rb_advance (s : State) (c t : Nat) (i : Issue) : (s.advance c t).rb i = s.rb i := by simp [State.rb]
@[simp] theorem State.aluB_advance (s : State) (c t : Nat) (i : Issue) : (s.advance c t).aluB i = s.aluB i := by simp [State.aluB]

/-- Only STR_ISSUED of the core counts. -/
theorem State.fld_advance (s : State) {c t j : Nat} {f : Fld} (h : f.key j ≠ F.CORE_STR_ISSUED.key c) : (s.advance c t).fld f j = s.fld f j := by
  rw [State.advance_eq]
  exact State.fld_setFld_other _ _ h

/-! ### Writing sd -/

theorem State.sreg_wd_same (s : State) (i : Issue) (v : Nat) (h : i.d ≠ 0) : (s.wd i v).sreg i.core.val i.strand.val i.d.val = v % 2 ^ 64 := by
  have h0 : i.d.val ≠ 0 := fun e => h (Fin.ext e)
  simp [State.wd, State.setSreg, State.sreg, Strand.reg, Strand.setReg, h0]

theorem State.sreg_wd_other (s : State) (i : Issue) (v : Nat) {n : Nat} (h : n ≠ i.d.val) :
    (s.wd i v).sreg i.core.val i.strand.val n = s.sreg i.core.val i.strand.val n := by
  by_cases h0 : i.d.val = 0
  · simp [State.wd, State.setSreg, State.sreg, Strand.reg, Strand.setReg, h0]
  · by_cases hn : n = 0
    · simp [State.sreg, Strand.reg, hn]
    · simp [State.wd, State.setSreg, State.sreg, Strand.reg, Strand.setReg, h0, hn, Tab.get_set_other _ _ _ h]

/-- sd is s0: nothing is written (R222). -/
theorem State.sreg_wd_zero (s : State) (i : Issue) (v : Nat) (h : i.d = 0) (n : Nat) :
    (s.wd i v).sreg i.core.val i.strand.val n = s.sreg i.core.val i.strand.val n := by
  have h0 : i.d.val = 0 := by rw [h]; rfl
  simp [State.wd, State.setSreg, State.sreg, Strand.setReg, h0]

@[simp] theorem State.pc_wd (s : State) (i : Issue) (v : Nat) :
    ((s.wd i v).strand i.core.val i.strand.val).pc = (s.strand i.core.val i.strand.val).pc := by
  simp [State.wd, State.setSreg, Strand.setReg]; split <;> rfl

/-! ### Issue -/

/-- A ready strand whose instruction is no reserved encoding moves on, and the instruction has its effect (R229). -/
theorem State.issue_ready (s : State) (i : Issue) {op : Nat} {ok : Bool} (body : State → State) (hc : s.canIssue op i = true)
    (he : i.ecc = {}) (ho : ok = true) : s.issue op i ok body = body (s.advance i.core.val i.strand.val) := by
  unfold State.issue
  dsimp only
  rw [if_pos hc, he, State.strEcc_none, if_pos ho]

/-- A reserved encoding has no effect but STR_RSVD (R239). -/
theorem State.issue_reserved (s : State) (i : Issue) {op : Nat} {ok : Bool} (body : State → State) (hc : s.canIssue op i = true)
    (he : i.ecc = {}) (ho : ok = false) : s.issue op i ok body = (s.advance i.core.val i.strand.val).strRsvd i.core.val := by
  unfold State.issue
  dsimp only
  rw [if_pos hc, he, State.strEcc_none, ho]
  rfl

/-- A strand that may not issue leaves the state as it was. -/
theorem State.issue_stalled (s : State) (i : Issue) {op : Nat} {ok : Bool} (body : State → State) (hc : s.canIssue op i = false) :
    s.issue op i ok body = s := by
  unfold State.issue
  dsimp only
  rw [hc]
  rfl

end Sys2Proof.Machine
end

