-- ==== Sys2Proof/Laws/Keep.lean ====
section
/-! SUPPORT. What every operation of the device keeps: the queue of waiting commands, the canonical form of the memories, and the lock of
the RWL fields, which holds exactly once BOOT_DONE has been accepted (R46, R458). -/
namespace Sys2Proof.Machine
open Sys2Proof

/-- What every command keeps. -/
structure Ok (q : List Instr) (s : State) : Prop where
  queue : s.pending = q
  mem : memWf s.mem = true
  nor : memWf s.nor = true
  host : memWf s.host.mem = true
  lock : s.locked = s.mgmt.bootAccepted

/-- The same of a command's outcome. -/
def OkOut (q : List Instr) (o : Host.Outcome State Fault Refusal) : Prop :=
  match o with
  | .next t => Ok q t
  | .fault _ => True
  | .refused _ => True

theorem okOut_next {q : List Instr} {t : State} (h : Ok q t) : OkOut q (.next t) := h

theorem Ok.upd {q : List Instr} {s t : State} (h : Ok q s) (h1 : t.pending = s.pending) (h2 : t.mem = s.mem) (h3 : t.nor = s.nor)
    (h4 : t.host.mem = s.host.mem) (h5 : t.locked = s.locked) (h6 : t.mgmt.bootAccepted = s.mgmt.bootAccepted) : Ok q t := by
  exact ⟨h1 ▸ h.queue, h2 ▸ h.mem, h3 ▸ h.nor, h4 ▸ h.host, by rw [h5, h6]; exact h.lock⟩

theorem ok_mk {q : List Instr} {s : State} {xpending : List Instr} {xsent : List Msg} {xfree : Nat} {xregs : Tab Nat} {xshadow : Tab Nat}
    {xmem : List (Nat × Byte)} {xpoison : List Nat} {xnor : List (Nat × Byte)} {xpick : PickState} {xarmed : Option Armed} {xlocked : Bool}
    {xcores : Tab CoreState} {xsolvers : Tab SolverState} {xcellar : CellarState} {xstacks : Tab StackState} {xupd : UpdState} {xfab :
    FabState} {xlinks : Tab LinkState} {xcolls : Tab CollState} {xaudit : AuditState} {xfield : FieldState} {xhost : HostState} {xmgmt :
    MgmtState} {xbook : BookState} {xside : SideState} {xpower : PowerState}
    (h : Ok q s) (h1 : xpending = s.pending) (h2 : xmem = s.mem) (h3 : xnor = s.nor) (h4 : xhost.mem = s.host.mem)
    (h5 : xlocked = s.locked) (h6 : xmgmt.bootAccepted = s.mgmt.bootAccepted) :
    Ok q (State.mk xpending xsent xfree xregs xshadow xmem xpoison xnor xpick xarmed xlocked xcores xsolvers xcellar xstacks xupd xfab
    xlinks xcolls xaudit xfield xhost xmgmt xbook xside xpower) := h.upd h1 h2 h3 h4 h5 h6

theorem ok_id {q : List Instr} {s : State} (h : Ok q s) : Ok q (id s) := h

theorem ok_fst {q : List Instr} {α : Type} {s : State} {b : α} (h : Ok q s) : Ok q (s, b).1 := h

theorem ok_foldl {q : List Instr} {α : Type} {g : State → α → State} (hg : ∀ t x, Ok q t → Ok q (g t x)) {l : List α} {s : State}
    (h : Ok q s) : Ok q (l.foldl g s) := by
  induction l generalizing s with
  | nil => exact h
  | cons x l ih => exact ih (hg s x h)

theorem ok_foldl_fst {q : List Instr} {α β : Type} {g : State × β → α → State × β} (hg : ∀ p x, Ok q p.1 → Ok q (g p x).1) {l : List α}
    {p : State × β} (h : Ok q p.1) : Ok q (l.foldl g p).1 := by
  induction l generalizing p with
  | nil => exact h
  | cons x l ih => exact ih (hg p x h)

/-! ### The canonical form of a memory -/

/-- Every listed address is at least `k`. -/
theorem sorted_head {α : Type} {k : Nat} {v : α} {t : Tab α} (h : Tab.sorted ((k, v) :: t) = true) : ∀ e ∈ t, k < e.1 := by
  induction t generalizing k v with
  | nil => simp
  | cons x t ih =>
    obtain ⟨k', v'⟩ := x
    simp only [Tab.sorted, Bool.and_eq_true, decide_eq_true_eq] at h
    intro e he
    rcases List.mem_cons.1 he with rfl | he
    · exact h.1
    · exact Nat.lt_trans h.1 (ih (k := k') (v := v') (by simpa [Tab.sorted] using h.2) e he)

theorem sorted_cons {α : Type} {k : Nat} {v : α} {t : Tab α} (hk : ∀ e ∈ t, k < e.1) (ht : Tab.sorted t = true) :
    Tab.sorted ((k, v) :: t) = true := by
  cases t with
  | nil => simp [Tab.sorted]
  | cons x t => simp [Tab.sorted, hk x (by simp)] at *; simpa [Tab.sorted] using ht

theorem sorted_tail {α : Type} {x : Nat × α} {t : Tab α} (h : Tab.sorted (x :: t) = true) : Tab.sorted t = true := by
  obtain ⟨k, v⟩ := x
  simp only [Tab.sorted, Bool.and_eq_true] at h
  exact h.2

/-- A byte put in a memory: what is listed was listed, or is the byte. -/
theorem mem_memPut {m : List (Nat × Byte)} {a : Nat} {b : Byte} : ∀ e ∈ memPut m a b, e = (a, b) ∧ b ≠ 0 ∨ e ∈ m := by
  induction m with
  | nil => unfold memPut; split <;> simp_all
  | cons x t ih =>
    obtain ⟨a', b'⟩ := x
    unfold memPut
    intro e he
    split at he
    · split at he
      · exact .inr (List.mem_cons_of_mem _ he)
      · rcases List.mem_cons.1 he with rfl | he
        · exact .inl ⟨rfl, ‹_›⟩
        · exact .inr (List.mem_cons_of_mem _ he)
    · split at he
      · split at he
        · exact .inr he
        · rcases List.mem_cons.1 he with rfl | he
          · exact .inl ⟨rfl, ‹_›⟩
          · exact .inr he
      · rcases List.mem_cons.1 he with rfl | he
        · exact .inr (by simp)
        · rcases ih e he with h | h
          · exact .inl h
          · exact .inr (List.mem_cons_of_mem _ h)

theorem sorted_memPut {m : List (Nat × Byte)} {a : Nat} {b : Byte} (h : Tab.sorted m = true) : Tab.sorted (memPut m a b) = true := by
  induction m with
  | nil => unfold memPut; split <;> simp [Tab.sorted]
  | cons x t ih =>
    obtain ⟨a', b'⟩ := x
    have ht := sorted_tail h
    have hh := sorted_head h
    unfold memPut
    split
    · split
      · exact ht
      · subst_vars; exact sorted_cons hh ht
    · split
      · split
        · exact h
        · refine sorted_cons (fun e he => ?_) h
          rcases List.mem_cons.1 he with rfl | he
          · assumption
          · exact Nat.lt_trans ‹a < a'› (hh e he)
      · refine sorted_cons (fun e he => ?_) (ih ht)
        rcases mem_memPut e he with ⟨rfl, -⟩ | he
        · show a' < a; omega
        · exact hh e he

/-- Putting a byte keeps the canonical form. -/
theorem memPut_wf {m : List (Nat × Byte)} {a : Nat} {b : Byte} (h : memWf m = true) : memWf (memPut m a b) = true := by
  unfold memWf at *
  simp only [Bool.and_eq_true, List.all_eq_true] at *
  refine ⟨sorted_memPut h.1, fun e he => ?_⟩
  rcases mem_memPut e he with ⟨rfl, hb⟩ | he
  · simpa using hb
  · exact h.2 e he

/-- Writing bytes keeps the canonical form. -/
theorem memWrite_wf {bs : List Byte} {m : List (Nat × Byte)} {a : Nat} (h : memWf m = true) : memWf (memWrite m a bs) = true := by
  induction bs generalizing m a with
  | nil => exact h
  | cons b t ih => exact ih (memPut_wf h)

theorem sorted_filter {α : Type} {t : Tab α} {p : Nat × α → Bool} (h : Tab.sorted t = true) : Tab.sorted (t.filter p) = true := by
  induction t with
  | nil => exact h
  | cons x t ih =>
    obtain ⟨k, v⟩ := x
    rw [List.filter_cons]
    split
    · exact sorted_cons (fun e he => sorted_head h e ((List.mem_filter.1 he).1)) (ih (sorted_tail h))
    · exact ih (sorted_tail h)

/-- Leaving bytes out keeps the canonical form. -/
theorem memFilter_wf {m : List (Nat × Byte)} {p : Nat × Byte → Bool} (h : memWf m = true) : memWf (m.filter p) = true := by
  unfold memWf at *
  simp only [Bool.and_eq_true, List.all_eq_true] at *
  exact ⟨sorted_filter h.1, fun e he => h.2 e ((List.mem_filter.1 he).1)⟩

/-- Bytes put one after the other keep the canonical form. -/
theorem memFold_wf {l m : List (Nat × Byte)} (h : memWf m = true) : memWf (l.foldl (fun m e => memPut m e.1 e.2) m) = true := by
  induction l generalizing m with
  | nil => exact h
  | cons x l ih => exact ih (memPut_wf h)

end Sys2Proof.Machine
end

