-- ==== Sys2Proof/Laws/KeepOps.lean ====
section
/-! SUPPORT. Every operation of Machine/Ops.lean keeps what every command keeps. -/
namespace Sys2Proof.Machine
open Sys2Proof
set_option linter.unusedTactic false
set_option linter.unreachableTactic false

theorem State.setFld_ok {qs : List Instr} {s : State} {f : Fld} {i : Nat} {v : Nat} (hOk : Ok qs s)  : Ok qs (State.setFld s f i v) := by
  unfold State.setFld
  repeat'
    first
      | with_reducible assumption | intro _ | split | dsimp only | fail_if_no_progress with_reducible refine ok_mk ?_ rfl rfl rfl rfl rfl rfl

theorem State.addSat_ok {qs : List Instr} {s : State} {f : Fld} {i : Nat} {n : Nat} (hOk : Ok qs s)  : Ok qs (State.addSat s f i n) := by
  unfold State.addSat
  repeat'
    first
      | with_reducible assumption | intro _ | with_reducible apply State.setFld_ok | split | dsimp only
      | fail_if_no_progress with_reducible refine ok_mk ?_ rfl rfl rfl rfl rfl rfl

theorem State.addWrap_ok {qs : List Instr} {s : State} {f : Fld} {i : Nat} {n : Nat} (hOk : Ok qs s)  : Ok qs (State.addWrap s f i n) := by
  unfold State.addWrap
  repeat'
    first
      | with_reducible assumption | intro _ | with_reducible apply State.setFld_ok | split | dsimp only
      | fail_if_no_progress with_reducible refine ok_mk ?_ rfl rfl rfl rfl rfl rfl

theorem State.setStaged_ok {qs : List Instr} {s : State} {f : Fld} {i : Nat} {v : Nat} (hOk : Ok qs s)  : Ok qs (State.setStaged s f i v) := by
  unfold State.setStaged
  repeat'
    first
      | with_reducible assumption | intro _ | split | dsimp only | fail_if_no_progress with_reducible refine ok_mk ?_ rfl rfl rfl rfl rfl rfl

theorem State.emit_ok {qs : List Instr} {s : State} {m : Msg} (hOk : Ok qs s)  : Ok qs (State.emit s m) := by
  unfold State.emit
  repeat'
    first
      | with_reducible assumption | intro _ | split | dsimp only | fail_if_no_progress with_reducible refine ok_mk ?_ rfl rfl rfl rfl rfl rfl

theorem State.clearRange_ok {qs : List Instr} {s : State} {ty : Nat} {i : Nat} {lo : Nat} {hi : Nat} (hOk : Ok qs s)  : Ok qs (State.clearRange s ty
    i lo hi) := by
  unfold State.clearRange
  repeat'
    first
      | with_reducible assumption | intro _ | with_reducible apply State.setFld_ok | with_reducible apply ok_foldl
      | with_reducible apply ok_foldl_fst | split | dsimp only | fail_if_no_progress with_reducible refine ok_mk ?_ rfl rfl rfl rfl rfl rfl

theorem State.bookQueue_ok {qs : List Instr} {s : State} {r : QRec} (hOk : Ok qs s)  : Ok qs (State.bookQueue s r).1 := by
  unfold State.bookQueue
  repeat'
    first
      | with_reducible assumption | intro _ | with_reducible apply State.addSat_ok | split | dsimp only
      | fail_if_no_progress with_reducible refine ok_mk ?_ rfl rfl rfl rfl rfl rfl

theorem State.msix_ok {qs : List Instr} {s : State} {vec : Nat} (hOk : Ok qs s)  : Ok qs (State.msix s vec) := by
  unfold State.msix
  repeat'
    first
      | with_reducible assumption | intro _ | with_reducible apply State.vec_ok | with_reducible apply State.emit_ok | split | dsimp only
      | fail_if_no_progress with_reducible refine ok_mk ?_ rfl rfl rfl rfl rfl rfl

theorem State.deliverIrq_ok {qs : List Instr} {s : State} {ty : Nat} {i : Nat} {b : Nat} {route : Nat} (hOk : Ok qs s)  : Ok qs (State.deliverIrq s
    ty i b route) := by
  unfold State.deliverIrq
  repeat'
    first
      | with_reducible assumption | intro _ | with_reducible apply State.msix_ok | with_reducible apply State.emit_ok | split | dsimp only
      | fail_if_no_progress with_reducible refine ok_mk ?_ rfl rfl rfl rfl rfl rfl

theorem State.raiseCore_ok {qs : List Instr} {s : State} {ty : Nat} {i : Nat} {b : Nat} (hOk : Ok qs s)  : Ok qs (State.raiseCore s ty i b).1 := by
  unfold State.raiseCore
  repeat'
    first
      | with_reducible assumption | intro _ | with_reducible apply State.setFld_ok | with_reducible apply State.deliverIrq_ok
      | with_reducible apply State.bookQueue_ok | split | dsimp only | fail_if_no_progress with_reducible refine ok_mk ?_ rfl rfl rfl rfl rfl rfl

theorem State.raise_ok {qs : List Instr} {s : State} {ty : Nat} {i : Nat} {b : Nat} (hOk : Ok qs s)  : Ok qs (State.raise s ty i b) := by
  unfold State.raise
  repeat'
    first
      | with_reducible assumption | intro _ | with_reducible apply State.raiseCore_ok | split | dsimp only
      | fail_if_no_progress with_reducible refine ok_mk ?_ rfl rfl rfl rfl rfl rfl

theorem State.bookPush_ok {qs : List Instr} {s : State} {r : QRec} (hOk : Ok qs s)  : Ok qs (State.bookPush s r) := by
  unfold State.bookPush
  repeat'
    first
      | with_reducible assumption | intro _ | with_reducible apply State.bookQueue_ok | with_reducible apply State.raise_ok | split | dsimp only
      | fail_if_no_progress with_reducible refine ok_mk ?_ rfl rfl rfl rfl rfl rfl

theorem State.raiseIf_ok {qs : List Instr} {s : State} {c : Bool} {ty : Nat} {i : Nat} {b : Nat} (hOk : Ok qs s)  : Ok qs (State.raiseIf s c ty i b)
    := by
  unfold State.raiseIf
  repeat'
    first
      | with_reducible assumption | intro _ | with_reducible apply State.raise_ok | split | dsimp only
      | fail_if_no_progress with_reducible refine ok_mk ?_ rfl rfl rfl rfl rfl rfl

theorem State.redeliver_ok {qs : List Instr} {s : State} {ty : Nat} {i : Nat} {b : Nat} (hOk : Ok qs s)  : Ok qs (State.redeliver s ty i b) := by
  unfold State.redeliver
  repeat'
    first
      | with_reducible assumption | intro _ | with_reducible apply State.raise_ok | split | dsimp only
      | fail_if_no_progress with_reducible refine ok_mk ?_ rfl rfl rfl rfl rfl rfl

theorem State.countErr_ok {qs : List Instr} {s : State} {ty : Nat} {i : Nat} {code : Nat} {value : Nat} {agent : Nat} (hOk : Ok qs s)  : Ok qs
    (State.countErr s ty i code value agent) := by
  unfold State.countErr
  repeat'
    first
      | with_reducible assumption | intro _ | with_reducible apply State.setFld_ok | with_reducible apply State.raise_ok
      | with_reducible apply State.raiseIf_ok | split | dsimp only | fail_if_no_progress with_reducible refine ok_mk ?_ rfl rfl rfl rfl rfl rfl

theorem State.countEv_ok {qs : List Instr} {s : State} {f : Fld} {i : Nat} {n : Nat} {b : Nat} (hOk : Ok qs s)  : Ok qs (State.countEv s f i n b) :=
    by
  unfold State.countEv
  repeat'
    first
      | with_reducible assumption | intro _ | with_reducible apply State.addSat_ok | with_reducible apply State.raise_ok | split | dsimp only
      | fail_if_no_progress with_reducible refine ok_mk ?_ rfl rfl rfl rfl rfl rfl

theorem State.countBlocked_ok {qs : List Instr} {s : State} {p : Nat} (hOk : Ok qs s) : Ok qs (State.countBlocked s p) := by
  unfold State.countBlocked
  repeat'
    first
      | with_reducible assumption | intro _ | with_reducible apply State.countEv_ok | split | dsimp only
      | fail_if_no_progress with_reducible refine ok_mk ?_ rfl rfl rfl rfl rfl rfl

theorem State.countUnavail_ok {qs : List Instr} {s : State} {page : Nat × Nat} {addr : Nat} {agent : Nat} (hOk : Ok qs s) : Ok qs
    (State.countUnavail s page addr agent) := by
  unfold State.countUnavail
  repeat'
    first
      | with_reducible assumption | intro _ | with_reducible apply State.countErr_ok | with_reducible apply State.countEv_ok | split | dsimp only
      | fail_if_no_progress with_reducible refine ok_mk ?_ rfl rfl rfl rfl rfl rfl

theorem State.countAccess_ok {qs : List Instr} {s : State} {page : Nat × Nat} {status : Nat} {addr : Nat} {agent : Nat} {part : Option Nat} (hOk :
    Ok qs s) : Ok qs (State.countAccess s page status addr agent part) := by
  unfold State.countAccess
  repeat'
    first
      | with_reducible assumption | intro _ | with_reducible apply State.countErr_ok | with_reducible apply State.countBlocked_ok
      | with_reducible apply State.countUnavail_ok | split | dsimp only | fail_if_no_progress with_reducible refine ok_mk ?_ rfl rfl rfl rfl rfl rfl

theorem State.errClear_ok {qs : List Instr} {s : State} {ty : Nat} {i : Nat} (hOk : Ok qs s)  : Ok qs (State.errClear s ty i) := by
  unfold State.errClear
  repeat'
    first
      | with_reducible assumption | intro _ | with_reducible apply State.setFld_ok | split | dsimp only
      | fail_if_no_progress with_reducible refine ok_mk ?_ rfl rfl rfl rfl rfl rfl

theorem State.modPick_ok {qs : List Instr} {s : State} {f : PickState → PickState} (hOk : Ok qs s)  : Ok qs (State.modPick s f) := by
  unfold State.modPick
  repeat'
    first
      | with_reducible assumption | intro _ | split | dsimp only | fail_if_no_progress with_reducible refine ok_mk ?_ rfl rfl rfl rfl rfl rfl

theorem State.cause_ok {qs : List Instr} {s : State} {b : Nat} (hOk : Ok qs s)  : Ok qs (State.cause s b) := by
  unfold State.cause
  repeat'
    first
      | with_reducible assumption | intro _ | split | dsimp only | fail_if_no_progress with_reducible refine ok_mk ?_ rfl rfl rfl rfl rfl rfl

theorem State.fault_ok {qs : List Instr} {s : State} (hOk : Ok qs s)  : Ok qs (State.fault s) := by
  unfold State.fault
  repeat'
    first
      | with_reducible assumption | intro _ | with_reducible apply State.cause_ok | split | dsimp only
      | fail_if_no_progress with_reducible refine ok_mk ?_ rfl rfl rfl rfl rfl rfl

theorem State.poisoned_ok {qs : List Instr} {s : State} {ty : Nat} {i : Nat} (hOk : Ok qs s)  : Ok qs (State.poisoned s ty i) := by
  unfold State.poisoned
  repeat'
    first
      | with_reducible assumption | intro _ | with_reducible apply State.raise_ok | with_reducible apply State.fault_ok | split | dsimp only
      | fail_if_no_progress with_reducible refine ok_mk ?_ rfl rfl rfl rfl rfl rfl

theorem State.setCore_ok {qs : List Instr} {s : State} {c : Nat} {x : CoreState} (hOk : Ok qs s)  : Ok qs (State.setCore s c x) := by
  unfold State.setCore
  repeat'
    first
      | with_reducible assumption | intro _ | split | dsimp only | fail_if_no_progress with_reducible refine ok_mk ?_ rfl rfl rfl rfl rfl rfl

theorem State.setLink_ok {qs : List Instr} {s : State} {l : Nat} {x : LinkState} (hOk : Ok qs s)  : Ok qs (State.setLink s l x) := by
  unfold State.setLink
  repeat'
    first
      | with_reducible assumption | intro _ | split | dsimp only | fail_if_no_progress with_reducible refine ok_mk ?_ rfl rfl rfl rfl rfl rfl

theorem State.setHeddle_ok {qs : List Instr} {s : State} {h : Nat} {x : Heddle} (hOk : Ok qs s)  : Ok qs (State.setHeddle s h x) := by
  unfold State.setHeddle
  repeat'
    first
      | with_reducible assumption | intro _ | split | dsimp only | fail_if_no_progress with_reducible refine ok_mk ?_ rfl rfl rfl rfl rfl rfl

theorem State.setSolver_ok {qs : List Instr} {s : State} {e : Nat} {x : SolverState} (hOk : Ok qs s)  : Ok qs (State.setSolver s e x) := by
  unfold State.setSolver
  repeat'
    first
      | with_reducible assumption | intro _ | split | dsimp only | fail_if_no_progress with_reducible refine ok_mk ?_ rfl rfl rfl rfl rfl rfl

theorem State.releasePath_ok {qs : List Instr} {s : State} {e : Nat} (hOk : Ok qs s) : Ok qs (State.releasePath s e) := by
  unfold State.releasePath
  repeat'
    first
      | with_reducible assumption | intro _ | with_reducible apply State.setCore_ok | with_reducible apply ok_foldl
      | with_reducible apply ok_foldl_fst | split | dsimp only | fail_if_no_progress with_reducible refine ok_mk ?_ rfl rfl rfl rfl rfl rfl

theorem State.setSlice_ok {qs : List Instr} {s : State} {c : Nat} {x : SliceState} (hOk : Ok qs s)  : Ok qs (State.setSlice s c x) := by
  unfold State.setSlice
  repeat'
    first
      | with_reducible assumption | intro _ | split | dsimp only | fail_if_no_progress with_reducible refine ok_mk ?_ rfl rfl rfl rfl rfl rfl

theorem State.setColl_ok {qs : List Instr} {s : State} {c : Nat} {x : CollState} (hOk : Ok qs s)  : Ok qs (State.setColl s c x) := by
  unfold State.setColl
  repeat'
    first
      | with_reducible assumption | intro _ | split | dsimp only | fail_if_no_progress with_reducible refine ok_mk ?_ rfl rfl rfl rfl rfl rfl

theorem State.setGranule_ok {qs : List Instr} {s : State} {g : Nat} {x : Granule} (hOk : Ok qs s)  : Ok qs (State.setGranule s g x) := by
  unfold State.setGranule
  repeat'
    first
      | with_reducible assumption | intro _ | split | dsimp only | fail_if_no_progress with_reducible refine ok_mk ?_ rfl rfl rfl rfl rfl rfl

theorem State.draw_ok {qs : List Instr} {s : State} (hOk : Ok qs s)  : Ok qs (State.draw s).2 := by
  unfold State.draw
  repeat'
    first
      | with_reducible assumption | intro _ | split | dsimp only | fail_if_no_progress with_reducible refine ok_mk ?_ rfl rfl rfl rfl rfl rfl

end Sys2Proof.Machine
end

