-- ==== Sys2Proof/Laws/KeepMemory.lean ====
section
/-! SUPPORT. Every operation of Machine/Memory.lean keeps what every command keeps. -/
namespace Sys2Proof.Machine
open Sys2Proof
set_option linter.unusedTactic false
set_option linter.unreachableTactic false

/-- A store keeps the memories canonical. -/
theorem State.storeBlock_ok {qs : List Instr} {s : State} {a : Nat} {bytes : List Byte} {pz : Bool} (hOk : Ok qs s) :
    Ok qs (State.storeBlock s a bytes pz) := by
  unfold State.storeBlock
  split
  · exact hOk
  · split
    · exact ⟨hOk.queue, hOk.mem, hOk.nor, memWrite_wf hOk.host, hOk.lock⟩
    · exact ⟨hOk.queue, memWrite_wf hOk.mem, hOk.nor, hOk.host, hOk.lock⟩

theorem State.writeBy_ok {qs : List Instr} {s : State} {who : Option Nat} {a : Nat} {bytes : List Byte} {pz : Nat → Nat → Bool} {coll : Bool} (hOk :
    Ok qs s) : Ok qs (State.writeBy s who a bytes pz coll) := by
  unfold State.writeBy
  repeat'
    first
      | with_reducible assumption | intro _ | with_reducible apply State.storeBlock_ok | with_reducible apply ok_foldl
      | with_reducible apply ok_foldl_fst | split | dsimp only | fail_if_no_progress with_reducible refine ok_mk ?_ rfl rfl rfl rfl rfl rfl

theorem State.writeMem_ok {qs : List Instr} {s : State} {who : Option Nat} {a : Nat} {bytes : List Byte} {pz : List Nat} {coll : Bool} (hOk : Ok qs
    s) : Ok qs (State.writeMem s who a bytes pz coll) := by
  unfold State.writeMem
  repeat'
    first
      | with_reducible assumption | intro _ | with_reducible apply State.writeBy_ok | split | dsimp only
      | fail_if_no_progress with_reducible refine ok_mk ?_ rfl rfl rfl rfl rfl rfl

theorem State.setFilter_ok {qs : List Instr} {s : State} {die : Nat} {l : List (Nat × Bool)} (hOk : Ok qs s)  : Ok qs (State.setFilter s die l) := by
  unfold State.setFilter
  repeat'
    first
      | with_reducible assumption | intro _ | split | dsimp only | fail_if_no_progress with_reducible refine ok_mk ?_ rfl rfl rfl rfl rfl rfl

theorem State.backSnoop_ok {qs : List Instr} {s : State} {h : Nat} {inv : Bool} (hOk : Ok qs s)  : Ok qs (State.backSnoop s h inv) := by
  unfold State.backSnoop
  repeat'
    first
      | with_reducible assumption | intro _ | with_reducible apply State.addWrap_ok | with_reducible apply State.emit_ok | split | dsimp only
      | fail_if_no_progress with_reducible refine ok_mk ?_ rfl rfl rfl rfl rfl rfl

theorem State.askHost_ok {qs : List Instr} {s : State} {write : Bool} {a : Nat} {n : Nat} (hOk : Ok qs s)  : Ok qs (State.askHost s write a n) := by
  unfold State.askHost
  repeat'
    first
      | with_reducible assumption | intro _ | with_reducible apply State.backSnoop_ok | with_reducible apply ok_foldl
      | with_reducible apply ok_foldl_fst | split | dsimp only | fail_if_no_progress with_reducible refine ok_mk ?_ rfl rfl rfl rfl rfl rfl

theorem State.whenReadable_ok {qs : List Instr} {s : State} {l : List (Nat × Nat)} {f : State → State} (hOk : Ok qs s) (hf : ∀ t, Ok qs t → Ok qs (f
    t)) : Ok qs (State.whenReadable s l f) := by
  unfold State.whenReadable
  repeat'
    first
      | with_reducible assumption | intro _ | with_reducible apply hf | with_reducible apply State.askHost_ok | with_reducible apply ok_foldl
      | with_reducible apply ok_foldl_fst | split | dsimp only | fail_if_no_progress with_reducible refine ok_mk ?_ rfl rfl rfl rfl rfl rfl

theorem State.whenWritable_ok {qs : List Instr} {s : State} {l : List (Nat × Nat)} {f : State → State} (hOk : Ok qs s) (hf : ∀ t, Ok qs t → Ok qs (f
    t)) : Ok qs (State.whenWritable s l f) := by
  unfold State.whenWritable
  repeat'
    first
      | with_reducible assumption | intro _ | with_reducible apply hf | with_reducible apply State.askHost_ok | with_reducible apply ok_foldl
      | with_reducible apply ok_foldl_fst | split | dsimp only | fail_if_no_progress with_reducible refine ok_mk ?_ rfl rfl rfl rfl rfl rfl

theorem State.poisonBlock_ok {qs : List Instr} {s : State} {a : Nat} (hOk : Ok qs s) : Ok qs (State.poisonBlock s a) := by
  unfold State.poisonBlock
  repeat'
    first
      | with_reducible assumption | intro _ | split | dsimp only | fail_if_no_progress with_reducible refine ok_mk ?_ rfl rfl rfl rfl rfl rfl

theorem State.spoolEcc_ok {qs : List Instr} {s : State} {a : Nat} {e : Ecc} (hOk : Ok qs s) : Ok qs (State.spoolEcc s a e) := by
  unfold State.spoolEcc
  repeat'
    first
      | with_reducible assumption | intro _ | with_reducible apply State.countEv_ok | with_reducible apply State.setFld_ok
      | with_reducible apply State.poisonBlock_ok | split | dsimp only | fail_if_no_progress with_reducible refine ok_mk ?_ rfl rfl rfl rfl rfl rfl

theorem State.stackAddr_ok {qs : List Instr} {s : State} {k : Nat} {a : Nat} (hOk : Ok qs s)  : Ok qs (State.stackAddr s k a) := by
  unfold State.stackAddr
  repeat'
    first
      | with_reducible assumption | intro _ | with_reducible apply State.setFld_ok | split | dsimp only
      | fail_if_no_progress with_reducible refine ok_mk ?_ rfl rfl rfl rfl rfl rfl

theorem State.stackEcc_ok {qs : List Instr} {s : State} {a : Nat} {e : Ecc} {b : Nat} (hOk : Ok qs s) : Ok qs (State.stackEcc s a e b) := by
  unfold State.stackEcc
  repeat'
    first
      | with_reducible assumption | intro _ | with_reducible apply State.countEv_ok | with_reducible apply State.stackAddr_ok
      | with_reducible apply State.poisonBlock_ok | split | dsimp only | fail_if_no_progress with_reducible refine ok_mk ?_ rfl rfl rfl rfl rfl rfl

theorem State.cellarEcc_ok {qs : List Instr} {s : State} {d : Nat} {a : Nat} {e : Ecc} {clean : Bool} (hOk : Ok qs s) : Ok qs (State.cellarEcc s d a
    e clean) := by
  unfold State.cellarEcc
  repeat'
    first
      | with_reducible assumption | intro _ | with_reducible apply State.countEv_ok | with_reducible apply State.poisonBlock_ok | split | dsimp only
      | fail_if_no_progress with_reducible refine ok_mk ?_ rfl rfl rfl rfl rfl rfl

theorem State.touchLine_ok {qs : List Instr} {s : State} {p : Nat} {a : Nat} {n : Nat} {write : Bool} (hOk : Ok qs s)  : Ok qs (State.touchLine s p a
    n write) := by
  unfold State.touchLine
  repeat'
    first
      | with_reducible assumption | intro _ | with_reducible apply State.addWrap_ok | with_reducible apply State.touch_ok | split | dsimp only
      | fail_if_no_progress with_reducible refine ok_mk ?_ rfl rfl rfl rfl rfl rfl

theorem State.touch_ok {qs : List Instr} {s : State} {who : Option Nat} {write : Bool} {a : Nat} {n : Nat} (hOk : Ok qs s)  : Ok qs (State.touch s
    who write a n) := by
  unfold State.touch
  repeat'
    first
      | with_reducible assumption | intro _ | with_reducible apply State.touchLine_ok | with_reducible apply ok_foldl
      | with_reducible apply ok_foldl_fst | split | dsimp only | fail_if_no_progress with_reducible refine ok_mk ?_ rfl rfl rfl rfl rfl rfl

theorem State.eccBlock_ok {qs : List Instr} {s : State} {who : Option Nat} {x : BlockEcc} (hOk : Ok qs s) : Ok qs (State.eccBlock s who x).1 := by
  unfold State.eccBlock
  repeat'
    first
      | with_reducible assumption | intro _ | with_reducible apply State.cellarEcc_ok | with_reducible apply State.spoolEcc_ok
      | with_reducible apply State.stackEcc_ok | split | dsimp only | fail_if_no_progress with_reducible refine ok_mk ?_ rfl rfl rfl rfl rfl rfl

theorem State.eccAt_ok {qs : List Instr} {s : State} {who : Option Nat} {a : Nat} {n : Nat} {l : List BlockEcc} (hOk : Ok qs s) : Ok qs (State.eccAt
    s who a n l).1 := by
  unfold State.eccAt
  repeat'
    first
      | with_reducible assumption | intro _ | with_reducible apply State.eccBlock_ok | with_reducible apply ok_foldl
      | with_reducible apply ok_foldl_fst | split | dsimp only | fail_if_no_progress with_reducible refine ok_mk ?_ rfl rfl rfl rfl rfl rfl

theorem State.nocRetry_ok {qs : List Instr} {s : State} {l : List (Fin 16)} (hOk : Ok qs s) : Ok qs (State.nocRetry s l) := by
  unfold State.nocRetry
  repeat'
    first
      | with_reducible assumption | intro _ | with_reducible apply State.countEv_ok | with_reducible apply ok_foldl
      | with_reducible apply ok_foldl_fst | split | dsimp only | fail_if_no_progress with_reducible refine ok_mk ?_ rfl rfl rfl rfl rfl rfl

theorem State.hwinErr_ok {qs : List Instr} {s : State} {x : Acs} (hOk : Ok qs s)  : Ok qs (State.hwinErr s x) := by
  unfold State.hwinErr
  repeat'
    first
      | with_reducible assumption | intro _ | with_reducible apply State.countEv_ok | split | dsimp only
      | fail_if_no_progress with_reducible refine ok_mk ?_ rfl rfl rfl rfl rfl rfl

theorem State.accessDone_ok {qs : List Instr} {s : State} {page : Nat × Nat} {agent : Nat} {part : Option Nat} {x : Acs} (hOk : Ok qs s)  : Ok qs
    (State.accessDone s page agent part x) := by
  unfold State.accessDone
  repeat'
    first
      | with_reducible assumption | intro _ | with_reducible apply State.hwinErr_ok | with_reducible apply State.countAccess_ok | split
      | dsimp only | fail_if_no_progress with_reducible refine ok_mk ?_ rfl rfl rfl rfl rfl rfl

end Sys2Proof.Machine
end

