-- ==== Sys2Proof/Laws/KeepAccess.lean ====
section
/-! SUPPORT. Every operation of Machine/Access.lean keeps what every command keeps. -/
namespace Sys2Proof.Machine
open Sys2Proof
set_option linter.unusedTactic false
set_option linter.unreachableTactic false

theorem State.countGate_ok {qs : List Instr} {s : State} {x : Access} {g : Nat} {ty : Nat} {i : Nat} {off : Nat} (hOk : Ok qs s)  : Ok qs
    (State.countGate s x g ty i off) := by
  unfold State.countGate
  repeat'
    first
      | with_reducible assumption | intro _ | with_reducible apply State.countErr_ok | with_reducible apply State.countAccess_ok | split
      | dsimp only | fail_if_no_progress with_reducible refine ok_mk ?_ rfl rfl rfl rfl rfl rfl

theorem State.pageAct_ok {qs : List Instr} {s : State} {ag : Agent} {ty : Nat} {i : Nat} {off : Nat} {act : State → State} (hOk : Ok qs s) (hact : ∀
    t, Ok qs t → Ok qs (act t)) : Ok qs (State.pageAct s ag ty i off act) := by
  unfold State.pageAct
  repeat'
    first
      | with_reducible assumption | intro _ | with_reducible apply hact | with_reducible apply State.countGate_ok | split | dsimp only
      | fail_if_no_progress with_reducible refine ok_mk ?_ rfl rfl rfl rfl rfl rfl

end Sys2Proof.Machine
end

