-- ==== Sys2Proof/Laws/KeepRoute.lean ====
section
/-! SUPPORT. Every operation of Machine/Route.lean keeps what every command keeps. -/
namespace Sys2Proof.Machine
open Sys2Proof
set_option linter.unusedTactic false
set_option linter.unreachableTactic false

theorem State.linkSend_ok {qs : List Instr} {s : State} {l : Nat} {f : Flit} (hOk : Ok qs s)  : Ok qs (State.linkSend s l f) := by
  unfold State.linkSend
  repeat'
    first
      | with_reducible assumption | intro _ | with_reducible apply State.setLink_ok | with_reducible apply State.addWrap_ok | split | dsimp only
      | fail_if_no_progress with_reducible refine ok_mk ?_ rfl rfl rfl rfl rfl rfl

theorem State.sendFlits_ok {qs : List Instr} {s : State} {dest : Nat} {seq : Nat} {vc : Nat} {n : Nat} {x : FlitLoad} {m : Msg} (hOk : Ok qs s) : Ok
    qs (State.sendFlits s dest seq vc n x m) := by
  unfold State.sendFlits
  repeat'
    first
      | with_reducible assumption | intro _ | with_reducible apply State.emit_ok | with_reducible apply State.countEv_ok
      | with_reducible apply State.linkSend_ok | with_reducible apply ok_foldl | with_reducible apply ok_foldl_fst | split | dsimp only
      | fail_if_no_progress with_reducible refine ok_mk ?_ rfl rfl rfl rfl rfl rfl

theorem State.sendMsg_ok {qs : List Instr} {s : State} {dest : Nat} {m : Msg} (hOk : Ok qs s)  : Ok qs (State.sendMsg s dest m) := by
  unfold State.sendMsg
  repeat'
    first
      | with_reducible assumption | intro _ | with_reducible apply State.sendFlits_ok | split | dsimp only
      | fail_if_no_progress with_reducible refine ok_mk ?_ rfl rfl rfl rfl rfl rfl

end Sys2Proof.Machine
end

