-- ==== Sys2Proof/Laws/KeepFabric.lean ====
section
/-! SUPPORT. Every operation of Machine/Fabric.lean keeps what every command keeps. -/
namespace Sys2Proof.Machine
open Sys2Proof
set_option linter.unusedTactic false
set_option linter.unreachableTactic false

theorem State.threadTo_ok {qs : List Instr} {s : State} {h : Nat} {peer : Nat} {peerId : Nat} {part : Nat} {repairUse : Bool} {session : Bool} (hOk :
    Ok qs s)  : Ok qs (State.threadTo s h peer peerId part repairUse session) := by
  unfold State.threadTo
  repeat'
    first
      | with_reducible assumption | intro _ | with_reducible apply State.setHeddle_ok | with_reducible apply State.addWrap_ok | split | dsimp only
      | fail_if_no_progress with_reducible refine ok_mk ?_ rfl rfl rfl rfl rfl rfl

theorem State.beginThread_ok {qs : List Instr} {s : State} {h : Nat} {peer : Nat} {part : Nat} {repairUse : Bool} (hOk : Ok qs s)  : Ok qs
    (State.beginThread s h peer part repairUse) := by
  unfold State.beginThread
  repeat'
    first
      | with_reducible assumption | intro _ | with_reducible apply State.setHeddle_ok | with_reducible apply State.sendMsg_ok | split | dsimp only
      | fail_if_no_progress with_reducible refine ok_mk ?_ rfl rfl rfl rfl rfl rfl

theorem State.beginRelease_ok {qs : List Instr} {s : State} {h : Nat} (hOk : Ok qs s)  : Ok qs (State.beginRelease s h) := by
  unfold State.beginRelease
  repeat'
    first
      | with_reducible assumption | intro _ | with_reducible apply State.setHeddle_ok | with_reducible apply State.sendMsg_ok
      | with_reducible apply State.release_ok | split | dsimp only | fail_if_no_progress with_reducible refine ok_mk ?_ rfl rfl rfl rfl rfl rfl

theorem State.setIssued_ok {qs : List Instr} {s : State} {id : Nat} {o : IssuedOp} (hOk : Ok qs s)  : Ok qs (State.setIssued s id o) := by
  unfold State.setIssued
  repeat'
    first
      | with_reducible assumption | intro _ | with_reducible apply ok_id | split | dsimp only
      | fail_if_no_progress with_reducible refine ok_mk ?_ rfl rfl rfl rfl rfl rfl

theorem State.sendOp_ok {qs : List Instr} {s : State} {id : Nat} {o : IssuedOp} {seq : Nat} (hOk : Ok qs s) : Ok qs (State.sendOp s id o seq) := by
  unfold State.sendOp
  repeat'
    first
      | with_reducible assumption | intro _ | with_reducible apply State.sendFlits_ok | split | dsimp only
      | fail_if_no_progress with_reducible refine ok_mk ?_ rfl rfl rfl rfl rfl rfl

theorem State.trySend_ok {qs : List Instr} {s : State} {id : Nat} (hOk : Ok qs s) : Ok qs (State.trySend s id) := by
  unfold State.trySend
  repeat'
    first
      | with_reducible assumption | intro _ | with_reducible apply State.setIssued_ok | with_reducible apply State.setHeddle_ok
      | with_reducible apply State.sendOp_ok | split | dsimp only | fail_if_no_progress with_reducible refine ok_mk ?_ rfl rfl rfl rfl rfl rfl

theorem State.sendWaiting_ok {qs : List Instr} {s : State} {h : Nat} (hOk : Ok qs s)  : Ok qs (State.sendWaiting s h) := by
  unfold State.sendWaiting
  repeat'
    first
      | with_reducible assumption | intro _ | with_reducible apply State.trySend_ok | with_reducible apply ok_foldl
      | with_reducible apply ok_foldl_fst | split | dsimp only | fail_if_no_progress with_reducible refine ok_mk ?_ rfl rfl rfl rfl rfl rfl

theorem State.issueOp_ok {qs : List Instr} {s : State} {who : Issuer} {d : OpDesc} {part : Option Nat} {data : List Byte} {pz : List Nat} {repair :
    Option RepairOp} (hOk : Ok qs s) : Ok qs (State.issueOp s who d part data pz repair).1 := by
  unfold State.issueOp
  repeat'
    first
      | with_reducible assumption | intro _ | with_reducible apply State.trySend_ok | split | dsimp only
      | fail_if_no_progress with_reducible refine ok_mk ?_ rfl rfl rfl rfl rfl rfl

theorem State.countStatus_ok {qs : List Instr} {s : State} {o : IssuedOp} {status : Nat} {addr : Nat} (hOk : Ok qs s) : Ok qs (State.countStatus s o
    status addr) := by
  unfold State.countStatus
  repeat'
    first
      | with_reducible assumption | intro _ | with_reducible apply State.countAccess_ok | with_reducible apply State.countUnavail_ok
      | with_reducible apply State.countErr_ok | split | dsimp only | fail_if_no_progress with_reducible refine ok_mk ?_ rfl rfl rfl rfl rfl rfl

theorem State.retire_ok {qs : List Instr} {s : State} {id : Nat} (hOk : Ok qs s)  : Ok qs (State.retire s id) := by
  unfold State.retire
  repeat'
    first
      | with_reducible assumption | intro _ | with_reducible apply State.sendWaiting_ok | with_reducible apply ok_id | split | dsimp only
      | fail_if_no_progress with_reducible refine ok_mk ?_ rfl rfl rfl rfl rfl rfl

theorem State.dropRepairOps_ok {qs : List Instr} {s : State} {h : Nat} (hOk : Ok qs s) : Ok qs (State.dropRepairOps s h) := by
  unfold State.dropRepairOps
  repeat'
    first
      | with_reducible assumption | intro _ | split | dsimp only | fail_if_no_progress with_reducible refine ok_mk ?_ rfl rfl rfl rfl rfl rfl

end Sys2Proof.Machine
end

