-- ==== Sys2Proof/Laws/KeepOperands.lean ====
section
/-! SUPPORT. Every operation of Machine/Operands.lean keeps what every command keeps. -/
namespace Sys2Proof.Machine
open Sys2Proof
set_option linter.unusedTactic false
set_option linter.unreachableTactic false

theorem State.setStrand_ok {qs : List Instr} {s : State} {c : Nat} {t : Nat} {x : Strand} (hOk : Ok qs s)  : Ok qs (State.setStrand s c t x) := by
  unfold State.setStrand
  repeat'
    first
      | with_reducible assumption | intro _ | with_reducible apply State.setCore_ok | split | dsimp only
      | fail_if_no_progress with_reducible refine ok_mk ?_ rfl rfl rfl rfl rfl rfl

theorem State.setSreg_ok {qs : List Instr} {s : State} {c : Nat} {t : Nat} {n : Nat} {v : Nat} (hOk : Ok qs s)  : Ok qs (State.setSreg s c t n v) :=
    by
  unfold State.setSreg
  repeat'
    first
      | with_reducible assumption | intro _ | with_reducible apply State.setStrand_ok | split | dsimp only
      | fail_if_no_progress with_reducible refine ok_mk ?_ rfl rfl rfl rfl rfl rfl

theorem State.wd_ok {qs : List Instr} {s : State} {i : Issue} {v : Nat} (hOk : Ok qs s)  : Ok qs (State.wd s i v) := by
  unfold State.wd
  repeat'
    first
      | with_reducible assumption | intro _ | with_reducible apply State.setSreg_ok | split | dsimp only
      | fail_if_no_progress with_reducible refine ok_mk ?_ rfl rfl rfl rfl rfl rfl

theorem State.advance_ok {qs : List Instr} {s : State} {c : Nat} {t : Nat} (hOk : Ok qs s)  : Ok qs (State.advance s c t) := by
  unfold State.advance
  repeat'
    first
      | with_reducible assumption | intro _ | with_reducible apply State.setStrand_ok | with_reducible apply State.setCore_ok
      | with_reducible apply State.addWrap_ok | split | dsimp only | fail_if_no_progress with_reducible refine ok_mk ?_ rfl rfl rfl rfl rfl rfl

theorem State.strEcc_ok {qs : List Instr} {s : State} {c : Nat} {e : Ecc} (hOk : Ok qs s)  : Ok qs (State.strEcc s c e) := by
  unfold State.strEcc
  repeat'
    first
      | with_reducible assumption | intro _ | with_reducible apply State.countEv_ok | with_reducible apply State.fault_ok | split | dsimp only
      | fail_if_no_progress with_reducible refine ok_mk ?_ rfl rfl rfl rfl rfl rfl

theorem State.vecEcc_ok {qs : List Instr} {s : State} {c : Nat} {e : Ecc} (hOk : Ok qs s)  : Ok qs (State.vecEcc s c e) := by
  unfold State.vecEcc
  repeat'
    first
      | with_reducible assumption | intro _ | with_reducible apply State.countEv_ok | with_reducible apply State.fault_ok | split | dsimp only
      | fail_if_no_progress with_reducible refine ok_mk ?_ rfl rfl rfl rfl rfl rfl

theorem State.strRsvd_ok {qs : List Instr} {s : State} {c : Nat} (hOk : Ok qs s)  : Ok qs (State.strRsvd s c) := by
  unfold State.strRsvd
  repeat'
    first
      | with_reducible assumption | intro _ | with_reducible apply State.countEv_ok | split | dsimp only
      | fail_if_no_progress with_reducible refine ok_mk ?_ rfl rfl rfl rfl rfl rfl

theorem State.vecRsvd_ok {qs : List Instr} {s : State} {c : Nat} (hOk : Ok qs s)  : Ok qs (State.vecRsvd s c) := by
  unfold State.vecRsvd
  repeat'
    first
      | with_reducible assumption | intro _ | with_reducible apply State.countEv_ok | split | dsimp only
      | fail_if_no_progress with_reducible refine ok_mk ?_ rfl rfl rfl rfl rfl rfl

theorem State.arrRsvd_ok {qs : List Instr} {s : State} {c : Nat} (hOk : Ok qs s)  : Ok qs (State.arrRsvd s c) := by
  unfold State.arrRsvd
  repeat'
    first
      | with_reducible assumption | intro _ | with_reducible apply State.countEv_ok | split | dsimp only
      | fail_if_no_progress with_reducible refine ok_mk ?_ rfl rfl rfl rfl rfl rfl

theorem State.issue_ok {qs : List Instr} {s : State} {op : Nat} {i : Issue} {ok : Bool} {body : State → State} (hOk : Ok qs s) (hbody : ∀ x0, Ok qs
    x0 → Ok qs (body x0)) : Ok qs (State.issue s op i ok body) := by
  unfold State.issue
  repeat'
    first
      | with_reducible assumption | intro _ | with_reducible apply hbody | with_reducible apply State.advance_ok
      | with_reducible apply State.strEcc_ok | with_reducible apply State.strRsvd_ok | split | dsimp only
      | fail_if_no_progress with_reducible refine ok_mk ?_ rfl rfl rfl rfl rfl rfl

theorem State.windowWriteBy_ok {qs : List Instr} {s : State} {c : Nat} {a : Nat} {bytes : List Byte} {pz : Nat → Nat → Bool} (hOk : Ok qs s) : Ok qs
    (State.windowWriteBy s c a bytes pz) := by
  unfold State.windowWriteBy
  repeat'
    first
      | with_reducible assumption | intro _ | with_reducible apply State.writeBy_ok | split | dsimp only
      | fail_if_no_progress with_reducible refine ok_mk ?_ rfl rfl rfl rfl rfl rfl

theorem State.windowWrite_ok {qs : List Instr} {s : State} {c : Nat} {a : Nat} {bytes : List Byte} {pz : List Nat} (hOk : Ok qs s) : Ok qs
    (State.windowWrite s c a bytes pz) := by
  unfold State.windowWrite
  repeat'
    first
      | with_reducible assumption | intro _ | with_reducible apply State.windowWriteBy_ok | split | dsimp only
      | fail_if_no_progress with_reducible refine ok_mk ?_ rfl rfl rfl rfl rfl rfl

theorem State.strOow_ok {qs : List Instr} {s : State} {c : Nat} {n : Nat} (hOk : Ok qs s)  : Ok qs (State.strOow s c n) := by
  unfold State.strOow
  repeat'
    first
      | with_reducible assumption | intro _ | with_reducible apply State.addSat_ok | split | dsimp only
      | fail_if_no_progress with_reducible refine ok_mk ?_ rfl rfl rfl rfl rfl rfl

theorem State.oowAccess_ok {qs : List Instr} {s : State} {c : Nat} {a : Nat} {n : Nat} {write : Bool} (hOk : Ok qs s)  : Ok qs (State.oowAccess s c a
    n write) := by
  unfold State.oowAccess
  repeat'
    first
      | with_reducible assumption | intro _ | with_reducible apply State.countAccess_ok | with_reducible apply State.accessDone_ok | split
      | dsimp only | fail_if_no_progress with_reducible refine ok_mk ?_ rfl rfl rfl rfl rfl rfl

theorem State.corePoison_ok {qs : List Instr} {s : State} {c : Nat} {p : Bool} (hOk : Ok qs s)  : Ok qs (State.corePoison s c p) := by
  unfold State.corePoison
  repeat'
    first
      | with_reducible assumption | intro _ | with_reducible apply State.poisoned_ok | split | dsimp only
      | fail_if_no_progress with_reducible refine ok_mk ?_ rfl rfl rfl rfl rfl rfl

theorem State.splEcc_ok {qs : List Instr} {s : State} {c : Nat} {l : List BlockEcc} (hOk : Ok qs s) : Ok qs (State.splEcc s c l) := by
  unfold State.splEcc
  repeat'
    first
      | with_reducible assumption | intro _ | with_reducible apply State.eccBlock_ok | with_reducible apply ok_foldl
      | with_reducible apply ok_foldl_fst | split | dsimp only | fail_if_no_progress with_reducible refine ok_mk ?_ rfl rfl rfl rfl rfl rfl

theorem State.srDone_ok {qs : List Instr} {s : State} {c : Nat} {t : Nat} {rm : Nat} (hOk : Ok qs s)  : Ok qs (State.srDone s c t rm) := by
  unfold State.srDone
  repeat'
    first
      | with_reducible assumption | intro _ | with_reducible apply State.setStrand_ok | split | dsimp only
      | fail_if_no_progress with_reducible refine ok_mk ?_ rfl rfl rfl rfl rfl rfl

end Sys2Proof.Machine
end

