-- ==== Sys2Proof/Laws/KeepStrand.lean ====
section
/-! SUPPORT. Every operation of Machine/Strand.lean keeps what every command keeps. -/
namespace Sys2Proof.Machine
open Sys2Proof
set_option linter.unusedTactic false
set_option linter.unreachableTactic false

theorem State.alu_ok {qs : List Instr} {s : State} {op : Nat} {i : Issue} {f : Nat → Nat → Nat} (hOk : Ok qs s) : Ok qs (State.alu s op i f) := by
  unfold State.alu
  repeat'
    first
      | with_reducible assumption | intro _ | with_reducible apply State.issue_ok | with_reducible apply State.wd_ok | split | dsimp only
      | fail_if_no_progress with_reducible refine ok_mk ?_ rfl rfl rfl rfl rfl rfl

theorem State.aluDiv_ok {qs : List Instr} {s : State} {op : Nat} {i : Issue} {f : Nat → Nat → Nat} (hOk : Ok qs s) : Ok qs (State.aluDiv s op i f)
    := by
  unfold State.aluDiv
  repeat'
    first
      | with_reducible assumption | intro _ | with_reducible apply State.issue_ok | with_reducible apply State.wd_ok
      | with_reducible apply State.addSat_ok | split | dsimp only | fail_if_no_progress with_reducible refine ok_mk ?_ rfl rfl rfl rfl rfl rfl

theorem execNop_ok {qs : List Instr} {i : Issue} {s : State} (hOk : Ok qs s)  : OkOut qs (execNop i s) := by
  unfold execNop
  repeat'
    first
      | with_reducible assumption | intro _ | with_reducible apply okOut_next | with_reducible apply State.issue_ok | with_reducible apply ok_id
      | split | dsimp only | fail_if_no_progress with_reducible refine ok_mk ?_ rfl rfl rfl rfl rfl rfl

theorem execAdd_ok {qs : List Instr} {i : Issue} {s : State} (hOk : Ok qs s)  : OkOut qs (execAdd i s) := by
  unfold execAdd
  repeat'
    first
      | with_reducible assumption | intro _ | with_reducible apply okOut_next | with_reducible apply State.alu_ok | split | dsimp only
      | fail_if_no_progress with_reducible refine ok_mk ?_ rfl rfl rfl rfl rfl rfl

theorem execSub_ok {qs : List Instr} {i : Issue} {s : State} (hOk : Ok qs s)  : OkOut qs (execSub i s) := by
  unfold execSub
  repeat'
    first
      | with_reducible assumption | intro _ | with_reducible apply okOut_next | with_reducible apply State.alu_ok | split | dsimp only
      | fail_if_no_progress with_reducible refine ok_mk ?_ rfl rfl rfl rfl rfl rfl

theorem execMul_ok {qs : List Instr} {i : Issue} {s : State} (hOk : Ok qs s)  : OkOut qs (execMul i s) := by
  unfold execMul
  repeat'
    first
      | with_reducible assumption | intro _ | with_reducible apply okOut_next | with_reducible apply State.alu_ok | split | dsimp only
      | fail_if_no_progress with_reducible refine ok_mk ?_ rfl rfl rfl rfl rfl rfl

theorem execMulh_ok {qs : List Instr} {i : Issue} {s : State} (hOk : Ok qs s)  : OkOut qs (execMulh i s) := by
  unfold execMulh
  repeat'
    first
      | with_reducible assumption | intro _ | with_reducible apply okOut_next | with_reducible apply State.alu_ok | split | dsimp only
      | fail_if_no_progress with_reducible refine ok_mk ?_ rfl rfl rfl rfl rfl rfl

theorem execDiv_ok {qs : List Instr} {i : Issue} {s : State} (hOk : Ok qs s)  : OkOut qs (execDiv i s) := by
  unfold execDiv
  repeat'
    first
      | with_reducible assumption | intro _ | with_reducible apply okOut_next | with_reducible apply State.aluDiv_ok | split | dsimp only
      | fail_if_no_progress with_reducible refine ok_mk ?_ rfl rfl rfl rfl rfl rfl

theorem execRem_ok {qs : List Instr} {i : Issue} {s : State} (hOk : Ok qs s)  : OkOut qs (execRem i s) := by
  unfold execRem
  repeat'
    first
      | with_reducible assumption | intro _ | with_reducible apply okOut_next | with_reducible apply State.aluDiv_ok | split | dsimp only
      | fail_if_no_progress with_reducible refine ok_mk ?_ rfl rfl rfl rfl rfl rfl

theorem execAnd_ok {qs : List Instr} {i : Issue} {s : State} (hOk : Ok qs s)  : OkOut qs (execAnd i s) := by
  unfold execAnd
  repeat'
    first
      | with_reducible assumption | intro _ | with_reducible apply okOut_next | with_reducible apply State.alu_ok | split | dsimp only
      | fail_if_no_progress with_reducible refine ok_mk ?_ rfl rfl rfl rfl rfl rfl

theorem execOr_ok {qs : List Instr} {i : Issue} {s : State} (hOk : Ok qs s)  : OkOut qs (execOr i s) := by
  unfold execOr
  repeat'
    first
      | with_reducible assumption | intro _ | with_reducible apply okOut_next | with_reducible apply State.alu_ok | split | dsimp only
      | fail_if_no_progress with_reducible refine ok_mk ?_ rfl rfl rfl rfl rfl rfl

theorem execXor_ok {qs : List Instr} {i : Issue} {s : State} (hOk : Ok qs s)  : OkOut qs (execXor i s) := by
  unfold execXor
  repeat'
    first
      | with_reducible assumption | intro _ | with_reducible apply okOut_next | with_reducible apply State.alu_ok | split | dsimp only
      | fail_if_no_progress with_reducible refine ok_mk ?_ rfl rfl rfl rfl rfl rfl

theorem execSll_ok {qs : List Instr} {i : Issue} {s : State} (hOk : Ok qs s)  : OkOut qs (execSll i s) := by
  unfold execSll
  repeat'
    first
      | with_reducible assumption | intro _ | with_reducible apply okOut_next | with_reducible apply State.alu_ok | split | dsimp only
      | fail_if_no_progress with_reducible refine ok_mk ?_ rfl rfl rfl rfl rfl rfl

theorem execSrl_ok {qs : List Instr} {i : Issue} {s : State} (hOk : Ok qs s)  : OkOut qs (execSrl i s) := by
  unfold execSrl
  repeat'
    first
      | with_reducible assumption | intro _ | with_reducible apply okOut_next | with_reducible apply State.alu_ok | split | dsimp only
      | fail_if_no_progress with_reducible refine ok_mk ?_ rfl rfl rfl rfl rfl rfl

theorem execSra_ok {qs : List Instr} {i : Issue} {s : State} (hOk : Ok qs s)  : OkOut qs (execSra i s) := by
  unfold execSra
  repeat'
    first
      | with_reducible assumption | intro _ | with_reducible apply okOut_next | with_reducible apply State.alu_ok | split | dsimp only
      | fail_if_no_progress with_reducible refine ok_mk ?_ rfl rfl rfl rfl rfl rfl

theorem execSlt_ok {qs : List Instr} {i : Issue} {s : State} (hOk : Ok qs s)  : OkOut qs (execSlt i s) := by
  unfold execSlt
  repeat'
    first
      | with_reducible assumption | intro _ | with_reducible apply okOut_next | with_reducible apply State.alu_ok | split | dsimp only
      | fail_if_no_progress with_reducible refine ok_mk ?_ rfl rfl rfl rfl rfl rfl

theorem execSltu_ok {qs : List Instr} {i : Issue} {s : State} (hOk : Ok qs s)  : OkOut qs (execSltu i s) := by
  unfold execSltu
  repeat'
    first
      | with_reducible assumption | intro _ | with_reducible apply okOut_next | with_reducible apply State.alu_ok | split | dsimp only
      | fail_if_no_progress with_reducible refine ok_mk ?_ rfl rfl rfl rfl rfl rfl

theorem execLi_ok {qs : List Instr} {i : Issue} {s : State} (hOk : Ok qs s)  : OkOut qs (execLi i s) := by
  unfold execLi
  repeat'
    first
      | with_reducible assumption | intro _ | with_reducible apply okOut_next | with_reducible apply State.issue_ok
      | with_reducible apply State.wd_ok | split | dsimp only | fail_if_no_progress with_reducible refine ok_mk ?_ rfl rfl rfl rfl rfl rfl

theorem State.jumpTo_ok {qs : List Instr} {s : State} {i : Issue} {base : Nat} (hOk : Ok qs s)  : Ok qs (State.jumpTo s i base) := by
  unfold State.jumpTo
  repeat'
    first
      | with_reducible assumption | intro _ | with_reducible apply State.setStrand_ok | split | dsimp only
      | fail_if_no_progress with_reducible refine ok_mk ?_ rfl rfl rfl rfl rfl rfl

theorem State.branch_ok {qs : List Instr} {s : State} {op : Nat} {i : Issue} {cond : Nat → Nat → Bool} (hOk : Ok qs s) : Ok qs (State.branch s op i
    cond) := by
  unfold State.branch
  repeat'
    first
      | with_reducible assumption | intro _ | with_reducible apply State.issue_ok | with_reducible apply State.jumpTo_ok | split | dsimp only
      | fail_if_no_progress with_reducible refine ok_mk ?_ rfl rfl rfl rfl rfl rfl

theorem execBeq_ok {qs : List Instr} {i : Issue} {s : State} (hOk : Ok qs s)  : OkOut qs (execBeq i s) := by
  unfold execBeq
  repeat'
    first
      | with_reducible assumption | intro _ | with_reducible apply okOut_next | with_reducible apply State.branch_ok | split | dsimp only
      | fail_if_no_progress with_reducible refine ok_mk ?_ rfl rfl rfl rfl rfl rfl

theorem execBne_ok {qs : List Instr} {i : Issue} {s : State} (hOk : Ok qs s)  : OkOut qs (execBne i s) := by
  unfold execBne
  repeat'
    first
      | with_reducible assumption | intro _ | with_reducible apply okOut_next | with_reducible apply State.branch_ok | split | dsimp only
      | fail_if_no_progress with_reducible refine ok_mk ?_ rfl rfl rfl rfl rfl rfl

theorem execBlt_ok {qs : List Instr} {i : Issue} {s : State} (hOk : Ok qs s)  : OkOut qs (execBlt i s) := by
  unfold execBlt
  repeat'
    first
      | with_reducible assumption | intro _ | with_reducible apply okOut_next | with_reducible apply State.branch_ok | split | dsimp only
      | fail_if_no_progress with_reducible refine ok_mk ?_ rfl rfl rfl rfl rfl rfl

theorem execBge_ok {qs : List Instr} {i : Issue} {s : State} (hOk : Ok qs s)  : OkOut qs (execBge i s) := by
  unfold execBge
  repeat'
    first
      | with_reducible assumption | intro _ | with_reducible apply okOut_next | with_reducible apply State.branch_ok | split | dsimp only
      | fail_if_no_progress with_reducible refine ok_mk ?_ rfl rfl rfl rfl rfl rfl

theorem execBltu_ok {qs : List Instr} {i : Issue} {s : State} (hOk : Ok qs s)  : OkOut qs (execBltu i s) := by
  unfold execBltu
  repeat'
    first
      | with_reducible assumption | intro _ | with_reducible apply okOut_next | with_reducible apply State.branch_ok | split | dsimp only
      | fail_if_no_progress with_reducible refine ok_mk ?_ rfl rfl rfl rfl rfl rfl

theorem execBgeu_ok {qs : List Instr} {i : Issue} {s : State} (hOk : Ok qs s)  : OkOut qs (execBgeu i s) := by
  unfold execBgeu
  repeat'
    first
      | with_reducible assumption | intro _ | with_reducible apply okOut_next | with_reducible apply State.branch_ok | split | dsimp only
      | fail_if_no_progress with_reducible refine ok_mk ?_ rfl rfl rfl rfl rfl rfl

theorem execJal_ok {qs : List Instr} {i : Issue} {s : State} (hOk : Ok qs s)  : OkOut qs (execJal i s) := by
  unfold execJal
  repeat'
    first
      | with_reducible assumption | intro _ | with_reducible apply okOut_next | with_reducible apply State.issue_ok
      | with_reducible apply State.wd_ok | with_reducible apply State.jumpTo_ok | split | dsimp only
      | fail_if_no_progress with_reducible refine ok_mk ?_ rfl rfl rfl rfl rfl rfl

theorem execJalr_ok {qs : List Instr} {i : Issue} {s : State} (hOk : Ok qs s)  : OkOut qs (execJalr i s) := by
  unfold execJalr
  repeat'
    first
      | with_reducible assumption | intro _ | with_reducible apply okOut_next | with_reducible apply State.issue_ok
      | with_reducible apply State.wd_ok | with_reducible apply State.jumpTo_ok | split | dsimp only
      | fail_if_no_progress with_reducible refine ok_mk ?_ rfl rfl rfl rfl rfl rfl

theorem State.sfOp_ok {qs : List Instr} {s : State} {op : Nat} {i : Issue} {two : Bool} {f : State → Val → Val → Val} (hOk : Ok qs s) : Ok qs
    (State.sfOp s op i two f) := by
  unfold State.sfOp
  repeat'
    first
      | with_reducible assumption | intro _ | with_reducible apply State.issue_ok | with_reducible apply State.wd_ok
      | with_reducible apply State.srDone_ok | with_reducible apply State.strRsvd_ok | split | dsimp only
      | fail_if_no_progress with_reducible refine ok_mk ?_ rfl rfl rfl rfl rfl rfl

theorem execSfadd_ok {qs : List Instr} {i : Issue} {s : State} (hOk : Ok qs s)  : OkOut qs (execSfadd i s) := by
  unfold execSfadd
  repeat'
    first
      | with_reducible assumption | intro _ | with_reducible apply okOut_next | with_reducible apply State.sfOp_ok | split | dsimp only
      | fail_if_no_progress with_reducible refine ok_mk ?_ rfl rfl rfl rfl rfl rfl

theorem execSfsub_ok {qs : List Instr} {i : Issue} {s : State} (hOk : Ok qs s)  : OkOut qs (execSfsub i s) := by
  unfold execSfsub
  repeat'
    first
      | with_reducible assumption | intro _ | with_reducible apply okOut_next | with_reducible apply State.sfOp_ok | split | dsimp only
      | fail_if_no_progress with_reducible refine ok_mk ?_ rfl rfl rfl rfl rfl rfl

theorem execSfmul_ok {qs : List Instr} {i : Issue} {s : State} (hOk : Ok qs s)  : OkOut qs (execSfmul i s) := by
  unfold execSfmul
  repeat'
    first
      | with_reducible assumption | intro _ | with_reducible apply okOut_next | with_reducible apply State.sfOp_ok | split | dsimp only
      | fail_if_no_progress with_reducible refine ok_mk ?_ rfl rfl rfl rfl rfl rfl

theorem execSfma_ok {qs : List Instr} {i : Issue} {s : State} (hOk : Ok qs s)  : OkOut qs (execSfma i s) := by
  unfold execSfma
  repeat'
    first
      | with_reducible assumption | intro _ | with_reducible apply okOut_next | with_reducible apply State.sfOp_ok | split | dsimp only
      | fail_if_no_progress with_reducible refine ok_mk ?_ rfl rfl rfl rfl rfl rfl

theorem execSfdiv_ok {qs : List Instr} {i : Issue} {s : State} (hOk : Ok qs s)  : OkOut qs (execSfdiv i s) := by
  unfold execSfdiv
  repeat'
    first
      | with_reducible assumption | intro _ | with_reducible apply okOut_next | with_reducible apply State.sfOp_ok | split | dsimp only
      | fail_if_no_progress with_reducible refine ok_mk ?_ rfl rfl rfl rfl rfl rfl

theorem execSfsqrt_ok {qs : List Instr} {i : Issue} {s : State} (hOk : Ok qs s)  : OkOut qs (execSfsqrt i s) := by
  unfold execSfsqrt
  repeat'
    first
      | with_reducible assumption | intro _ | with_reducible apply okOut_next | with_reducible apply State.sfOp_ok | split | dsimp only
      | fail_if_no_progress with_reducible refine ok_mk ?_ rfl rfl rfl rfl rfl rfl

theorem execSfcvt_ok {qs : List Instr} {i : Issue} {s : State} (hOk : Ok qs s)  : OkOut qs (execSfcvt i s) := by
  unfold execSfcvt
  repeat'
    first
      | with_reducible assumption | intro _ | with_reducible apply okOut_next | with_reducible apply State.sfOp_ok | split | dsimp only
      | fail_if_no_progress with_reducible refine ok_mk ?_ rfl rfl rfl rfl rfl rfl

theorem execSfcmp_ok {qs : List Instr} {i : Issue} {s : State} (hOk : Ok qs s)  : OkOut qs (execSfcmp i s) := by
  unfold execSfcmp
  repeat'
    first
      | with_reducible assumption | intro _ | with_reducible apply okOut_next | with_reducible apply State.issue_ok
      | with_reducible apply State.wd_ok | with_reducible apply State.srDone_ok | with_reducible apply State.strRsvd_ok | split | dsimp only
      | fail_if_no_progress with_reducible refine ok_mk ?_ rfl rfl rfl rfl rfl rfl

theorem State.endAt_ok {qs : List Instr} {s : State} {c : Nat} {t : Nat} (hOk : Ok qs s)  : Ok qs (State.endAt s c t) := by
  unfold State.endAt
  repeat'
    first
      | with_reducible assumption | intro _ | with_reducible apply State.setStrand_ok | with_reducible apply State.setCore_ok | split | dsimp only
      | fail_if_no_progress with_reducible refine ok_mk ?_ rfl rfl rfl rfl rfl rfl

theorem execEndStrand_ok {qs : List Instr} {i : Issue} {s : State} (hOk : Ok qs s)  : OkOut qs (execEndStrand i s) := by
  unfold execEndStrand
  repeat'
    first
      | with_reducible assumption | intro _ | with_reducible apply okOut_next | with_reducible apply State.issue_ok
      | with_reducible apply State.endAt_ok | split | dsimp only | fail_if_no_progress with_reducible refine ok_mk ?_ rfl rfl rfl rfl rfl rfl

theorem State.spawn_ok {qs : List Instr} {s : State} {i : Issue} {pc : Nat} (hOk : Ok qs s)  : Ok qs (State.spawn s i pc) := by
  unfold State.spawn
  repeat'
    first
      | with_reducible assumption | intro _ | with_reducible apply State.setStrand_ok | with_reducible apply State.setCore_ok
      | with_reducible apply ok_foldl | with_reducible apply ok_foldl_fst | split | dsimp only
      | fail_if_no_progress with_reducible refine ok_mk ?_ rfl rfl rfl rfl rfl rfl

theorem State.waitIssue_ok {qs : List Instr} {s : State} {op : WaitOp} {i : Issue} {ok : Bool} (hOk : Ok qs s)  : Ok qs (State.waitIssue s op i ok)
    := by
  unfold State.waitIssue
  repeat'
    first
      | with_reducible assumption | intro _ | with_reducible apply State.setStrand_ok | with_reducible apply State.issue_ok
      | with_reducible apply State.spawn_ok | split | dsimp only | fail_if_no_progress with_reducible refine ok_mk ?_ rfl rfl rfl rfl rfl rfl

theorem execSpawn_ok {qs : List Instr} {i : Issue} {s : State} (hOk : Ok qs s)  : OkOut qs (execSpawn i s) := by
  unfold execSpawn
  repeat'
    first
      | with_reducible assumption | intro _ | with_reducible apply okOut_next | with_reducible apply State.waitIssue_ok
      | with_reducible apply State.spawn_ok | split | dsimp only | fail_if_no_progress with_reducible refine ok_mk ?_ rfl rfl rfl rfl rfl rfl

theorem execSync_ok {qs : List Instr} {i : Issue} {s : State} (hOk : Ok qs s)  : OkOut qs (execSync i s) := by
  unfold execSync
  repeat'
    first
      | with_reducible assumption | intro _ | with_reducible apply okOut_next | with_reducible apply State.waitIssue_ok | split | dsimp only
      | fail_if_no_progress with_reducible refine ok_mk ?_ rfl rfl rfl rfl rfl rfl

theorem execWaits_ok {qs : List Instr} {i : Issue} {s : State} (hOk : Ok qs s)  : OkOut qs (execWaits i s) := by
  unfold execWaits
  repeat'
    first
      | with_reducible assumption | intro _ | with_reducible apply okOut_next | with_reducible apply State.waitIssue_ok | split | dsimp only
      | fail_if_no_progress with_reducible refine ok_mk ?_ rfl rfl rfl rfl rfl rfl

theorem execSigwait_ok {qs : List Instr} {i : Issue} {s : State} (hOk : Ok qs s)  : OkOut qs (execSigwait i s) := by
  unfold execSigwait
  repeat'
    first
      | with_reducible assumption | intro _ | with_reducible apply okOut_next | with_reducible apply State.waitIssue_ok | split | dsimp only
      | fail_if_no_progress with_reducible refine ok_mk ?_ rfl rfl rfl rfl rfl rfl

theorem execStrandWaitRelease_ok {qs : List Instr} {core : Fin 512} {strand : Fin 8} {s : State} (hOk : Ok qs s)  : OkOut qs (execStrandWaitRelease
    core strand s) := by
  unfold execStrandWaitRelease
  repeat'
    first
      | with_reducible assumption | intro _ | with_reducible apply okOut_next | with_reducible apply State.setStrand_ok
      | with_reducible apply State.waitIssue_ok | split | dsimp only | fail_if_no_progress with_reducible refine ok_mk ?_ rfl rfl rfl rfl rfl rfl

theorem execRdid_ok {qs : List Instr} {i : Issue} {s : State} (hOk : Ok qs s)  : OkOut qs (execRdid i s) := by
  unfold execRdid
  repeat'
    first
      | with_reducible assumption | intro _ | with_reducible apply okOut_next | with_reducible apply State.issue_ok
      | with_reducible apply State.wd_ok | split | dsimp only | fail_if_no_progress with_reducible refine ok_mk ?_ rfl rfl rfl rfl rfl rfl

theorem execRdcyc_ok {qs : List Instr} {i : Issue} {s : State} (hOk : Ok qs s)  : OkOut qs (execRdcyc i s) := by
  unfold execRdcyc
  repeat'
    first
      | with_reducible assumption | intro _ | with_reducible apply okOut_next | with_reducible apply State.issue_ok
      | with_reducible apply State.wd_ok | split | dsimp only | fail_if_no_progress with_reducible refine ok_mk ?_ rfl rfl rfl rfl rfl rfl

theorem execRdtemp_ok {qs : List Instr} {i : Issue} {s : State} (hOk : Ok qs s)  : OkOut qs (execRdtemp i s) := by
  unfold execRdtemp
  repeat'
    first
      | with_reducible assumption | intro _ | with_reducible apply okOut_next | with_reducible apply State.issue_ok
      | with_reducible apply State.wd_ok | split | dsimp only | fail_if_no_progress with_reducible refine ok_mk ?_ rfl rfl rfl rfl rfl rfl

theorem execInstructionFetch_ok {qs : List Instr} {core : Fin 512} {strand : Fin 8} {ecc : UnitEcc} {s : State} (hOk : Ok qs s) : OkOut qs
    (execInstructionFetch core strand ecc s) := by
  unfold execInstructionFetch
  repeat'
    first
      | with_reducible assumption | intro _ | with_reducible apply okOut_next | with_reducible apply State.askHost_ok
      | with_reducible apply State.strEcc_ok | with_reducible apply State.accessDone_ok | with_reducible apply State.countEv_ok
      | with_reducible apply State.endAt_ok | with_reducible apply State.eccAt_ok | with_reducible apply State.touch_ok
      | with_reducible apply State.poisoned_ok | with_reducible apply State.setStrand_ok | with_reducible apply State.advance_ok
      | with_reducible apply State.strRsvd_ok | split | dsimp only | fail_if_no_progress with_reducible refine ok_mk ?_ rfl rfl rfl rfl rfl rfl

end Sys2Proof.Machine
end

