-- ==== Sys2Proof/Laws/KeepRunAhead.lean ====
section
/-! SUPPORT. Every operation of Machine/RunAhead.lean keeps what every command keeps. -/
namespace Sys2Proof.Machine
open Sys2Proof
set_option linter.unusedTactic false
set_option linter.unreachableTactic false

theorem execFetch_ok {qs : List Instr} {i : Issue} {s : State} (hOk : Ok qs s)  : OkOut qs (execFetch i s) := by
  unfold execFetch
  repeat'
    first
      | with_reducible assumption | intro _ | with_reducible apply okOut_next | with_reducible apply State.issue_ok
      | with_reducible apply State.splEcc_ok | with_reducible apply State.strRsvd_ok | with_reducible apply State.corePoison_ok
      | with_reducible apply State.setCore_ok | split | dsimp only | fail_if_no_progress with_reducible refine ok_mk ?_ rfl rfl rfl rfl rfl rfl

theorem execRels_ok {qs : List Instr} {i : Issue} {s : State} (hOk : Ok qs s)  : OkOut qs (execRels i s) := by
  unfold execRels
  repeat'
    first
      | with_reducible assumption | intro _ | with_reducible apply okOut_next | with_reducible apply State.issue_ok
      | with_reducible apply State.setCore_ok | split | dsimp only | fail_if_no_progress with_reducible refine ok_mk ?_ rfl rfl rfl rfl rfl rfl

theorem State.askLine_ok {qs : List Instr} {c slot : Nat} {d : FDesc} {l : List (Nat × Nat)} {s : State} {dst : Nat} (hOk : Ok qs s) :
    Ok qs (s.askLine c slot d dst l).1 := by
  induction l generalizing s dst with
  | nil => exact hOk
  | cons p t ih =>
    unfold State.askLine
    exact ih (State.issueOp_ok hOk)

theorem execRaLineIssue_ok {qs : List Instr} {core : Fin 512} {s : State} (hOk : Ok qs s) : OkOut qs (execRaLineIssue core s) := by
  unfold execRaLineIssue
  repeat'
    first
      | with_reducible assumption | intro _ | with_reducible apply okOut_next | with_reducible apply State.addSat_ok
      | with_reducible apply State.setCore_ok | with_reducible apply State.askLine_ok | split | dsimp only
      | fail_if_no_progress with_reducible refine ok_mk ?_ rfl rfl rfl rfl rfl rfl

theorem State.pageSizeErr_ok {qs : List Instr} {s : State} {a : Nat} {agent : Nat} (hOk : Ok qs s)  : Ok qs (State.pageSizeErr s a agent) := by
  unfold State.pageSizeErr
  repeat'
    first
      | with_reducible assumption | intro _ | with_reducible apply State.countErr_ok | split | dsimp only
      | fail_if_no_progress with_reducible refine ok_mk ?_ rfl rfl rfl rfl rfl rfl

theorem State.engineRead_ok {qs : List Instr} {s : State} {c : Nat} {a : Nat} {n : Nat} {ecc : List BlockEcc} (hOk : Ok qs s) : Ok qs
    (State.engineRead s c a n ecc).1 := by
  unfold State.engineRead
  repeat'
    first
      | with_reducible assumption | intro _ | with_reducible apply State.eccAt_ok | with_reducible apply State.touch_ok
      | with_reducible apply State.pageSizeErr_ok | with_reducible apply ok_foldl | with_reducible apply ok_foldl_fst | split | dsimp only
      | fail_if_no_progress with_reducible refine ok_mk ?_ rfl rfl rfl rfl rfl rfl

theorem State.readParts_ok {qs : List Instr} {c : Nat} {ecc : List BlockEcc} {l : List (Nat × Nat)} {s : State} (hOk : Ok qs s) :
    Ok qs (s.readParts c ecc l).1 := by
  induction l generalizing s with
  | nil => exact hOk
  | cons p t ih =>
    unfold State.readParts
    exact ih (State.engineRead_ok hOk)

theorem State.lineRead_ok {qs : List Instr} {s : State} {c : Nat} {parts : List (Nat × Nat)} {ecc : List BlockEcc} (hOk : Ok qs s) : Ok qs
    (State.lineRead s c parts ecc).1 := by
  unfold State.lineRead
  repeat'
    first
      | with_reducible assumption | intro _ | with_reducible apply State.readParts_ok | with_reducible apply State.accessDone_ok | split
      | dsimp only | fail_if_no_progress with_reducible refine ok_mk ?_ rfl rfl rfl rfl rfl rfl

theorem State.landLine_ok {qs : List Instr} {s : State} {c : Nat} {slot : Nat} {r : RaSlot} {bytes : List Byte} {pz : List Nat} (hOk : Ok qs s) : Ok
    qs (State.landLine s c slot r bytes pz) := by
  unfold State.landLine
  repeat'
    first
      | with_reducible assumption | intro _ | with_reducible apply State.windowWrite_ok | with_reducible apply State.strOow_ok
      | with_reducible apply State.setCore_ok | with_reducible apply State.addWrap_ok | split | dsimp only
      | fail_if_no_progress with_reducible refine ok_mk ?_ rfl rfl rfl rfl rfl rfl

theorem State.landRemote_ok {qs : List Instr} {s : State} {c : Nat} {slot : Nat} {r : RaSlot} {part : Nat} {x : LineResponse} (hOk : Ok qs s) : Ok
    qs (State.landRemote s c slot r part x) := by
  unfold State.landRemote
  repeat'
    first
      | with_reducible assumption | intro _ | with_reducible apply State.countStatus_ok | with_reducible apply State.retire_ok
      | with_reducible apply State.landLine_ok | with_reducible apply State.setCore_ok | split | dsimp only
      | fail_if_no_progress with_reducible refine ok_mk ?_ rfl rfl rfl rfl rfl rfl

theorem State.coreOp_ok {qs : List Instr} {s : State} {c : Nat} {t : Nat} {d : OpDesc} (hOk : Ok qs s)  : Ok qs (State.coreOp s c t d) := by
  unfold State.coreOp
  repeat'
    first
      | with_reducible assumption | intro _ | with_reducible apply State.strOow_ok | with_reducible apply State.issueOp_ok | split | dsimp only
      | fail_if_no_progress with_reducible refine ok_mk ?_ rfl rfl rfl rfl rfl rfl

theorem State.rmoOp_ok {qs : List Instr} {s : State} {op : Nat} {i : Issue} {unord : Bool} (hOk : Ok qs s) : Ok qs (State.rmoOp s op i unord) := by
  unfold State.rmoOp
  repeat'
    first
      | with_reducible assumption | intro _ | with_reducible apply State.issue_ok | with_reducible apply State.splEcc_ok
      | with_reducible apply State.strRsvd_ok | with_reducible apply State.corePoison_ok | with_reducible apply State.coreOp_ok | split | dsimp only
      | fail_if_no_progress with_reducible refine ok_mk ?_ rfl rfl rfl rfl rfl rfl

theorem execRmo_ok {qs : List Instr} {i : Issue} {s : State} (hOk : Ok qs s)  : OkOut qs (execRmo i s) := by
  unfold execRmo
  repeat'
    first
      | with_reducible assumption | intro _ | with_reducible apply okOut_next | with_reducible apply State.rmoOp_ok | split | dsimp only
      | fail_if_no_progress with_reducible refine ok_mk ?_ rfl rfl rfl rfl rfl rfl

theorem execRaccu_ok {qs : List Instr} {i : Issue} {s : State} (hOk : Ok qs s)  : OkOut qs (execRaccu i s) := by
  unfold execRaccu
  repeat'
    first
      | with_reducible assumption | intro _ | with_reducible apply okOut_next | with_reducible apply State.rmoOp_ok | split | dsimp only
      | fail_if_no_progress with_reducible refine ok_mk ?_ rfl rfl rfl rfl rfl rfl

end Sys2Proof.Machine
end

