-- ==== Sys2Proof/Laws/KeepArray.lean ====
section
/-! SUPPORT. Every operation of Machine/Array.lean keeps what every command keeps. -/
namespace Sys2Proof.Machine
open Sys2Proof
set_option linter.unusedTactic false
set_option linter.unreachableTactic false

theorem State.setArr_ok {qs : List Instr} {s : State} {c : Nat} {n : Nat} {x : ArrState} (hOk : Ok qs s)  : Ok qs (State.setArr s c n x) := by
  unfold State.setArr
  repeat'
    first
      | with_reducible assumption | intro _ | with_reducible apply State.setCore_ok | split | dsimp only
      | fail_if_no_progress with_reducible refine ok_mk ?_ rfl rfl rfl rfl rfl rfl

theorem State.arrEcc_ok {qs : List Instr} {s : State} {c : Nat} {e : Ecc} (hOk : Ok qs s)  : Ok qs (State.arrEcc s c e) := by
  unfold State.arrEcc
  repeat'
    first
      | with_reducible assumption | intro _ | with_reducible apply State.countEv_ok | with_reducible apply State.fault_ok | split | dsimp only
      | fail_if_no_progress with_reducible refine ok_mk ?_ rfl rfl rfl rfl rfl rfl

theorem State.unitOow_ok {qs : List Instr} {s : State} {c : Nat} {a : Nat} {n : Nat} (hOk : Ok qs s)  : Ok qs (State.unitOow s c a n) := by
  unfold State.unitOow
  repeat'
    first
      | with_reducible assumption | intro _ | with_reducible apply State.strOow_ok | split | dsimp only
      | fail_if_no_progress with_reducible refine ok_mk ?_ rfl rfl rfl rfl rfl rfl

theorem State.loadOow_ok {qs : List Instr} {s : State} {c : Nat} {j : LoadJob} (hOk : Ok qs s)  : Ok qs (State.loadOow s c j) := by
  unfold State.loadOow
  repeat'
    first
      | with_reducible assumption | intro _ | with_reducible apply State.strOow_ok | with_reducible apply ok_foldl
      | with_reducible apply ok_foldl_fst | split | dsimp only | fail_if_no_progress with_reducible refine ok_mk ?_ rfl rfl rfl rfl rfl rfl

theorem State.startLoad_ok {qs : List Instr} {s : State} {c : Nat} {n : Nat} (hOk : Ok qs s)  : Ok qs (State.startLoad s c n) := by
  unfold State.startLoad
  repeat'
    first
      | with_reducible assumption | intro _ | with_reducible apply State.issue_ok | with_reducible apply State.loadOow_ok
      | with_reducible apply State.setArr_ok | split | dsimp only | fail_if_no_progress with_reducible refine ok_mk ?_ rfl rfl rfl rfl rfl rfl

theorem State.loadCmd_ok {qs : List Instr} {s : State} {op : Nat} {i : Issue} (hOk : Ok qs s) : Ok qs (State.loadCmd s op i) := by
  unfold State.loadCmd
  repeat'
    first
      | with_reducible assumption | intro _ | with_reducible apply State.issue_ok | with_reducible apply State.setArr_ok
      | with_reducible apply State.startLoad_ok | with_reducible apply State.arrRsvd_ok | split | dsimp only
      | fail_if_no_progress with_reducible refine ok_mk ?_ rfl rfl rfl rfl rfl rfl

theorem execWload_ok {qs : List Instr} {i : Issue} {s : State} (hOk : Ok qs s)  : OkOut qs (execWload i s) := by
  unfold execWload
  repeat'
    first
      | with_reducible assumption | intro _ | with_reducible apply okOut_next | with_reducible apply State.loadCmd_ok | split | dsimp only
      | fail_if_no_progress with_reducible refine ok_mk ?_ rfl rfl rfl rfl rfl rfl

theorem execEdgeLoad_ok {qs : List Instr} {i : Issue} {s : State} (hOk : Ok qs s)  : OkOut qs (execEdgeLoad i s) := by
  unfold execEdgeLoad
  repeat'
    first
      | with_reducible assumption | intro _ | with_reducible apply okOut_next | with_reducible apply State.loadCmd_ok | split | dsimp only
      | fail_if_no_progress with_reducible refine ok_mk ?_ rfl rfl rfl rfl rfl rfl

theorem execWloadComplete_ok {qs : List Instr} {core : Fin 512} {arr : Fin 2} {cyc : Nat} {s : State} (hOk : Ok qs s)  : OkOut qs (execWloadComplete
    core arr cyc s) := by
  unfold execWloadComplete
  repeat'
    first
      | with_reducible assumption | intro _ | with_reducible apply okOut_next | with_reducible apply State.setArr_ok
      | with_reducible apply State.startLoad_ok | split | dsimp only | fail_if_no_progress with_reducible refine ok_mk ?_ rfl rfl rfl rfl rfl rfl

theorem State.spoolRow_ok {qs : List Instr} {s : State} {c : Nat} {a : Nat} {w : Nat} {bytes : List Byte} {pz : List Bool} (hOk : Ok qs s) : Ok qs
    (State.spoolRow s c a w bytes pz) := by
  unfold State.spoolRow
  repeat'
    first
      | with_reducible assumption | intro _ | with_reducible apply State.writeBy_ok | with_reducible apply State.countErr_ok | split | dsimp only
      | fail_if_no_progress with_reducible refine ok_mk ?_ rfl rfl rfl rfl rfl rfl

theorem State.emitRow_ok {qs : List Instr} {s : State} {c : Nat} {n : Nat} {d : Drain} {i : Nat} {bytes : List Byte} {pz : List Bool} (hOk : Ok qs
    s) : Ok qs (State.emitRow s c n d i bytes pz) := by
  unfold State.emitRow
  repeat'
    first
      | with_reducible assumption | intro _ | with_reducible apply State.spoolRow_ok | with_reducible apply State.arrRsvd_ok
      | with_reducible apply State.issueOp_ok | split | dsimp only | fail_if_no_progress with_reducible refine ok_mk ?_ rfl rfl rfl rfl rfl rfl

theorem State.passCmd_ok {qs : List Instr} {s : State} {op : Nat} {i : Issue} (hOk : Ok qs s) : Ok qs (State.passCmd s op i) := by
  unfold State.passCmd
  repeat'
    first
      | with_reducible assumption | intro _ | with_reducible apply State.issue_ok | with_reducible apply State.splEcc_ok
      | with_reducible apply State.arrRsvd_ok | with_reducible apply State.corePoison_ok | with_reducible apply State.setArr_ok
      | with_reducible apply ok_foldl | with_reducible apply ok_foldl_fst | split | dsimp only
      | fail_if_no_progress with_reducible refine ok_mk ?_ rfl rfl rfl rfl rfl rfl

theorem execApass_ok {qs : List Instr} {i : Issue} {s : State} (hOk : Ok qs s)  : OkOut qs (execApass i s) := by
  unfold execApass
  repeat'
    first
      | with_reducible assumption | intro _ | with_reducible apply okOut_next | with_reducible apply State.passCmd_ok | split | dsimp only
      | fail_if_no_progress with_reducible refine ok_mk ?_ rfl rfl rfl rfl rfl rfl

theorem execApassv_ok {qs : List Instr} {i : Issue} {s : State} (hOk : Ok qs s)  : OkOut qs (execApassv i s) := by
  unfold execApassv
  repeat'
    first
      | with_reducible assumption | intro _ | with_reducible apply okOut_next | with_reducible apply State.passCmd_ok | split | dsimp only
      | fail_if_no_progress with_reducible refine ok_mk ?_ rfl rfl rfl rfl rfl rfl

theorem State.readWeft_ok {qs : List Instr} {s : State} {c : Nat} {n : Nat} (hOk : Ok qs s) : Ok qs (State.readWeft s c n) := by
  unfold State.readWeft
  repeat'
    first
      | with_reducible assumption | intro _ | with_reducible apply State.unitOow_ok | with_reducible apply State.setArr_ok | split | dsimp only
      | fail_if_no_progress with_reducible refine ok_mk ?_ rfl rfl rfl rfl rfl rfl

theorem State.readWefts_ok {qs : List Instr} {s : State} {c : Nat} {n : Nat} {k : Nat} (hOk : Ok qs s) : Ok qs (State.readWefts s c n k) := by
  unfold State.readWefts
  repeat'
    first
      | with_reducible assumption | intro _ | with_reducible apply State.readWeft_ok | with_reducible apply ok_foldl
      | with_reducible apply ok_foldl_fst | split | dsimp only | fail_if_no_progress with_reducible refine ok_mk ?_ rfl rfl rfl rfl rfl rfl

theorem State.release_ok {qs : List Instr} {s : State} {c : Nat} {n : Nat} {p : PassJob} {v : Weft} {cyc : Nat} (hOk : Ok qs s) : Ok qs
    (State.release s c n p v cyc) := by
  unfold State.release
  repeat'
    first
      | with_reducible assumption | intro _ | with_reducible apply State.setArr_ok | with_reducible apply State.startLoad_ok
      | with_reducible apply State.addWrap_ok | with_reducible apply State.setFld_ok | split | dsimp only
      | fail_if_no_progress with_reducible refine ok_mk ?_ rfl rfl rfl rfl rfl rfl

theorem execBeatRelease_ok {qs : List Instr} {core : Fin 512} {arr : Fin 2} {cyc : Nat} {reads : Nat} {ecc : UnitEcc} {s : State} (hOk : Ok qs s) :
    OkOut qs (execBeatRelease core arr cyc reads ecc s) := by
  unfold execBeatRelease
  repeat'
    first
      | with_reducible assumption | intro _ | with_reducible apply okOut_next | with_reducible apply State.arrEcc_ok
      | with_reducible apply State.splEcc_ok | with_reducible apply State.readWefts_ok | with_reducible apply State.addSat_ok
      | with_reducible apply State.release_ok | split | dsimp only | fail_if_no_progress with_reducible refine ok_mk ?_ rfl rfl rfl rfl rfl rfl

theorem execRowClockStop_ok {qs : List Instr} {core : Fin 512} {arr : Fin 2} {cyc : Nat} {s : State} (hOk : Ok qs s)  : OkOut qs (execRowClockStop
    core arr cyc s) := by
  unfold execRowClockStop
  repeat'
    first
      | with_reducible assumption | intro _ | with_reducible apply okOut_next | with_reducible apply State.setFld_ok | split | dsimp only
      | fail_if_no_progress with_reducible refine ok_mk ?_ rfl rfl rfl rfl rfl rfl

theorem execVatRowComplete_ok {qs : List Instr} {core : Fin 512} {arr : Fin 2} {cyc : Nat} {ecc : Ecc} {s : State} (hOk : Ok qs s)  : OkOut qs
    (execVatRowComplete core arr cyc ecc s) := by
  unfold execVatRowComplete
  repeat'
    first
      | with_reducible assumption | intro _ | with_reducible apply okOut_next | with_reducible apply State.setArr_ok
      | with_reducible apply State.arrEcc_ok | with_reducible apply ok_foldl | with_reducible apply ok_foldl_fst | with_reducible apply ok_id
      | split | dsimp only | fail_if_no_progress with_reducible refine ok_mk ?_ rfl rfl rfl rfl rfl rfl

end Sys2Proof.Machine
end

