-- ==== Sys2Proof/Laws/KeepVecOps.lean ====
section
/-! SUPPORT. Every operation of Machine/VecOps.lean keeps what every command keeps. -/
namespace Sys2Proof.Machine
open Sys2Proof
set_option linter.unusedTactic false
set_option linter.unreachableTactic false

theorem State.vecNote_ok {qs : List Instr} {s : State} {c : Nat} {n : VNote} (hOk : Ok qs s)  : Ok qs (State.vecNote s c n) := by
  unfold State.vecNote
  repeat'
    first
      | with_reducible assumption | intro _ | with_reducible apply State.countEv_ok | with_reducible apply State.addSat_ok | split | dsimp only
      | fail_if_no_progress with_reducible refine ok_mk ?_ rfl rfl rfl rfl rfl rfl

theorem State.vzero_ok {qs : List Instr} {s : State} {c : Nat} {n : Nat} {dst : Nat × Nat} (hOk : Ok qs s) : Ok qs (State.vzero s c n dst) := by
  unfold State.vzero
  repeat'
    first
      | with_reducible assumption | intro _ | with_reducible apply State.setCore_ok | split | dsimp only
      | fail_if_no_progress with_reducible refine ok_mk ?_ rfl rfl rfl rfl rfl rfl

theorem State.vzeros_ok {qs : List Instr} {s : State} {c : Nat} {n : Nat} {dst : List (Nat × Nat)} (hOk : Ok qs s) : Ok qs (State.vzeros s c n dst)
    := by
  unfold State.vzeros
  repeat'
    first
      | with_reducible assumption | intro _ | with_reducible apply State.vzero_ok | with_reducible apply ok_foldl
      | with_reducible apply ok_foldl_fst | split | dsimp only | fail_if_no_progress with_reducible refine ok_mk ?_ rfl rfl rfl rfl rfl rfl

theorem State.vec_ok {qs : List Instr} {s : State} {op : Nat} {i : Issue} {ok : Bool} {ops : List (Nat × Nat)} {dst : List (Nat × Nat)} {sd : Bool}
    {body : State → Nat → State} (hOk : Ok qs s) (hbody : ∀ x0 x1, Ok qs x0 → Ok qs (body x0 x1)) : Ok qs (State.vec s op i ok ops dst sd body) :=
    by
  unfold State.vec
  repeat'
    first
      | with_reducible assumption | intro _ | with_reducible apply hbody | with_reducible apply State.advance_ok
      | with_reducible apply State.strEcc_ok | with_reducible apply State.vecEcc_ok | with_reducible apply State.addSat_ok
      | with_reducible apply State.vzeros_ok | with_reducible apply State.wd_ok | with_reducible apply State.vecRsvd_ok
      | with_reducible apply State.strRsvd_ok | split | dsimp only | fail_if_no_progress with_reducible refine ok_mk ?_ rfl rfl rfl rfl rfl rfl

theorem State.vresult_ok {qs : List Instr} {s : State} {i : Issue} {w : Nat} {res : List (Nat × VNote × Bool)} (hOk : Ok qs s)  : Ok qs
    (State.vresult s i w res) := by
  unfold State.vresult
  repeat'
    first
      | with_reducible assumption | intro _ | with_reducible apply State.setCore_ok | with_reducible apply State.vecNote_ok
      | with_reducible apply State.corePoison_ok | with_reducible apply ok_foldl | with_reducible apply ok_foldl_fst | split | dsimp only
      | fail_if_no_progress with_reducible refine ok_mk ?_ rfl rfl rfl rfl rfl rfl

end Sys2Proof.Machine
end

