-- ==== Sys2Proof/Laws/KeepVecFloat.lean ====
section
/-! SUPPORT. Every operation of Machine/VecFloat.lean keeps what every command keeps. -/
namespace Sys2Proof.Machine
open Sys2Proof
set_option linter.unusedTactic false
set_option linter.unreachableTactic false

theorem State.vf2_ok {qs : List Instr} {s : State} {op : Nat} {i : Issue} {f : Val → Val → Val} {note : Val → Val → VNote} (hOk : Ok qs s) : Ok qs
    (State.vf2 s op i f note) := by
  unfold State.vf2
  repeat'
    first
      | with_reducible assumption | intro _ | with_reducible apply State.vec_ok | with_reducible apply State.vresult_ok
      | with_reducible apply State.srDone_ok | split | dsimp only | fail_if_no_progress with_reducible refine ok_mk ?_ rfl rfl rfl rfl rfl rfl

theorem State.vf1_ok {qs : List Instr} {s : State} {op : Nat} {i : Issue} {f : Val → Val} {note : Val → VNote} (hOk : Ok qs s) : Ok qs (State.vf1 s
    op i f note) := by
  unfold State.vf1
  repeat'
    first
      | with_reducible assumption | intro _ | with_reducible apply State.vec_ok | with_reducible apply State.vresult_ok
      | with_reducible apply State.srDone_ok | split | dsimp only | fail_if_no_progress with_reducible refine ok_mk ?_ rfl rfl rfl rfl rfl rfl

theorem execVfadd_ok {qs : List Instr} {i : Issue} {s : State} (hOk : Ok qs s)  : OkOut qs (execVfadd i s) := by
  unfold execVfadd
  repeat'
    first
      | with_reducible assumption | intro _ | with_reducible apply okOut_next | with_reducible apply State.vf2_ok | split | dsimp only
      | fail_if_no_progress with_reducible refine ok_mk ?_ rfl rfl rfl rfl rfl rfl

theorem execVfsub_ok {qs : List Instr} {i : Issue} {s : State} (hOk : Ok qs s)  : OkOut qs (execVfsub i s) := by
  unfold execVfsub
  repeat'
    first
      | with_reducible assumption | intro _ | with_reducible apply okOut_next | with_reducible apply State.vf2_ok | split | dsimp only
      | fail_if_no_progress with_reducible refine ok_mk ?_ rfl rfl rfl rfl rfl rfl

theorem execVfmul_ok {qs : List Instr} {i : Issue} {s : State} (hOk : Ok qs s)  : OkOut qs (execVfmul i s) := by
  unfold execVfmul
  repeat'
    first
      | with_reducible assumption | intro _ | with_reducible apply okOut_next | with_reducible apply State.vf2_ok | split | dsimp only
      | fail_if_no_progress with_reducible refine ok_mk ?_ rfl rfl rfl rfl rfl rfl

theorem execVfmin_ok {qs : List Instr} {i : Issue} {s : State} (hOk : Ok qs s)  : OkOut qs (execVfmin i s) := by
  unfold execVfmin
  repeat'
    first
      | with_reducible assumption | intro _ | with_reducible apply okOut_next | with_reducible apply State.vf2_ok | split | dsimp only
      | fail_if_no_progress with_reducible refine ok_mk ?_ rfl rfl rfl rfl rfl rfl

theorem execVfmax_ok {qs : List Instr} {i : Issue} {s : State} (hOk : Ok qs s)  : OkOut qs (execVfmax i s) := by
  unfold execVfmax
  repeat'
    first
      | with_reducible assumption | intro _ | with_reducible apply okOut_next | with_reducible apply State.vf2_ok | split | dsimp only
      | fail_if_no_progress with_reducible refine ok_mk ?_ rfl rfl rfl rfl rfl rfl

theorem execVfdiv_ok {qs : List Instr} {i : Issue} {s : State} (hOk : Ok qs s)  : OkOut qs (execVfdiv i s) := by
  unfold execVfdiv
  repeat'
    first
      | with_reducible assumption | intro _ | with_reducible apply okOut_next | with_reducible apply State.vf2_ok | split | dsimp only
      | fail_if_no_progress with_reducible refine ok_mk ?_ rfl rfl rfl rfl rfl rfl

theorem execVfrcp_ok {qs : List Instr} {i : Issue} {s : State} (hOk : Ok qs s)  : OkOut qs (execVfrcp i s) := by
  unfold execVfrcp
  repeat'
    first
      | with_reducible assumption | intro _ | with_reducible apply okOut_next | with_reducible apply State.vf1_ok | split | dsimp only
      | fail_if_no_progress with_reducible refine ok_mk ?_ rfl rfl rfl rfl rfl rfl

theorem execVfsqrt_ok {qs : List Instr} {i : Issue} {s : State} (hOk : Ok qs s)  : OkOut qs (execVfsqrt i s) := by
  unfold execVfsqrt
  repeat'
    first
      | with_reducible assumption | intro _ | with_reducible apply okOut_next | with_reducible apply State.vf1_ok | split | dsimp only
      | fail_if_no_progress with_reducible refine ok_mk ?_ rfl rfl rfl rfl rfl rfl

theorem execVfrsqrt_ok {qs : List Instr} {i : Issue} {s : State} (hOk : Ok qs s)  : OkOut qs (execVfrsqrt i s) := by
  unfold execVfrsqrt
  repeat'
    first
      | with_reducible assumption | intro _ | with_reducible apply okOut_next | with_reducible apply State.vf1_ok | split | dsimp only
      | fail_if_no_progress with_reducible refine ok_mk ?_ rfl rfl rfl rfl rfl rfl

theorem execVcvt_ok {qs : List Instr} {i : Issue} {s : State} (hOk : Ok qs s)  : OkOut qs (execVcvt i s) := by
  unfold execVcvt
  repeat'
    first
      | with_reducible assumption | intro _ | with_reducible apply okOut_next | with_reducible apply State.vf1_ok | with_reducible apply ok_id
      | split | dsimp only | fail_if_no_progress with_reducible refine ok_mk ?_ rfl rfl rfl rfl rfl rfl

theorem execVfma_ok {qs : List Instr} {i : Issue} {s : State} (hOk : Ok qs s)  : OkOut qs (execVfma i s) := by
  unfold execVfma
  repeat'
    first
      | with_reducible assumption | intro _ | with_reducible apply okOut_next | with_reducible apply State.vec_ok
      | with_reducible apply State.vresult_ok | with_reducible apply State.srDone_ok | split | dsimp only
      | fail_if_no_progress with_reducible refine ok_mk ?_ rfl rfl rfl rfl rfl rfl

theorem execVcmp_ok {qs : List Instr} {i : Issue} {s : State} (hOk : Ok qs s)  : OkOut qs (execVcmp i s) := by
  unfold execVcmp
  repeat'
    first
      | with_reducible assumption | intro _ | with_reducible apply okOut_next | with_reducible apply State.vec_ok
      | with_reducible apply State.vresult_ok | with_reducible apply State.srDone_ok | split | dsimp only
      | fail_if_no_progress with_reducible refine ok_mk ?_ rfl rfl rfl rfl rfl rfl

theorem execVscvt_ok {qs : List Instr} {i : Issue} {s : State} (hOk : Ok qs s)  : OkOut qs (execVscvt i s) := by
  unfold execVscvt
  repeat'
    first
      | with_reducible assumption | intro _ | with_reducible apply okOut_next | with_reducible apply State.vec_ok
      | with_reducible apply State.vresult_ok | with_reducible apply State.srDone_ok | split | dsimp only
      | fail_if_no_progress with_reducible refine ok_mk ?_ rfl rfl rfl rfl rfl rfl

theorem State.vfn_ok {qs : List Instr} {s : State} {op : Nat} {i : Issue} {f : Fn} (hOk : Ok qs s) : Ok qs (State.vfn s op i f) := by
  unfold State.vfn
  repeat'
    first
      | with_reducible assumption | intro _ | with_reducible apply State.vec_ok | with_reducible apply State.vresult_ok
      | with_reducible apply State.srDone_ok | split | dsimp only | fail_if_no_progress with_reducible refine ok_mk ?_ rfl rfl rfl rfl rfl rfl

theorem execVexp_ok {qs : List Instr} {i : Issue} {s : State} (hOk : Ok qs s)  : OkOut qs (execVexp i s) := by
  unfold execVexp
  repeat'
    first
      | with_reducible assumption | intro _ | with_reducible apply okOut_next | with_reducible apply State.vfn_ok | split | dsimp only
      | fail_if_no_progress with_reducible refine ok_mk ?_ rfl rfl rfl rfl rfl rfl

theorem execVexp2_ok {qs : List Instr} {i : Issue} {s : State} (hOk : Ok qs s)  : OkOut qs (execVexp2 i s) := by
  unfold execVexp2
  repeat'
    first
      | with_reducible assumption | intro _ | with_reducible apply okOut_next | with_reducible apply State.vfn_ok | split | dsimp only
      | fail_if_no_progress with_reducible refine ok_mk ?_ rfl rfl rfl rfl rfl rfl

theorem execVlog_ok {qs : List Instr} {i : Issue} {s : State} (hOk : Ok qs s)  : OkOut qs (execVlog i s) := by
  unfold execVlog
  repeat'
    first
      | with_reducible assumption | intro _ | with_reducible apply okOut_next | with_reducible apply State.vfn_ok | split | dsimp only
      | fail_if_no_progress with_reducible refine ok_mk ?_ rfl rfl rfl rfl rfl rfl

theorem execVlog2_ok {qs : List Instr} {i : Issue} {s : State} (hOk : Ok qs s)  : OkOut qs (execVlog2 i s) := by
  unfold execVlog2
  repeat'
    first
      | with_reducible assumption | intro _ | with_reducible apply okOut_next | with_reducible apply State.vfn_ok | split | dsimp only
      | fail_if_no_progress with_reducible refine ok_mk ?_ rfl rfl rfl rfl rfl rfl

theorem execVtanh_ok {qs : List Instr} {i : Issue} {s : State} (hOk : Ok qs s)  : OkOut qs (execVtanh i s) := by
  unfold execVtanh
  repeat'
    first
      | with_reducible assumption | intro _ | with_reducible apply okOut_next | with_reducible apply State.vfn_ok | split | dsimp only
      | fail_if_no_progress with_reducible refine ok_mk ?_ rfl rfl rfl rfl rfl rfl

theorem execVsigm_ok {qs : List Instr} {i : Issue} {s : State} (hOk : Ok qs s)  : OkOut qs (execVsigm i s) := by
  unfold execVsigm
  repeat'
    first
      | with_reducible assumption | intro _ | with_reducible apply okOut_next | with_reducible apply State.vfn_ok | split | dsimp only
      | fail_if_no_progress with_reducible refine ok_mk ?_ rfl rfl rfl rfl rfl rfl

theorem execVsilu_ok {qs : List Instr} {i : Issue} {s : State} (hOk : Ok qs s)  : OkOut qs (execVsilu i s) := by
  unfold execVsilu
  repeat'
    first
      | with_reducible assumption | intro _ | with_reducible apply okOut_next | with_reducible apply State.vfn_ok | split | dsimp only
      | fail_if_no_progress with_reducible refine ok_mk ?_ rfl rfl rfl rfl rfl rfl

theorem execVgelu_ok {qs : List Instr} {i : Issue} {s : State} (hOk : Ok qs s)  : OkOut qs (execVgelu i s) := by
  unfold execVgelu
  repeat'
    first
      | with_reducible assumption | intro _ | with_reducible apply okOut_next | with_reducible apply State.vfn_ok | split | dsimp only
      | fail_if_no_progress with_reducible refine ok_mk ?_ rfl rfl rfl rfl rfl rfl

end Sys2Proof.Machine
end

