-- ==== Sys2Proof/Laws/KeepCollBase.lean ====
section
/-! SUPPORT. Every operation of Machine/CollBase.lean keeps what every command keeps. -/
namespace Sys2Proof.Machine
open Sys2Proof
set_option linter.unusedTactic false
set_option linter.unreachableTactic false

theorem State.collErr_ok {qs : List Instr} {s : State} {c : Nat} {code : Nat} {idx : Nat} {chunk : Nat} (hOk : Ok qs s)  : Ok qs (State.collErr s c
    code idx chunk) := by
  unfold State.collErr
  repeat'
    first
      | with_reducible assumption | intro _ | with_reducible apply State.countEv_ok | with_reducible apply State.countErr_ok | split | dsimp only
      | fail_if_no_progress with_reducible refine ok_mk ?_ rfl rfl rfl rfl rfl rfl

theorem State.handTileTo_ok {qs : List Instr} {s : State} {k : Tile} {o : Option Script} (hOk : Ok qs s) : Ok qs (State.handTileTo s k o) := by
  cases o with
  | none => exact hOk
  | some x =>
  unfold State.handTileTo
  repeat'
    first
      | with_reducible assumption | intro _ | with_reducible apply State.collErr_ok | with_reducible apply State.setColl_ok | split | dsimp only
      | fail_if_no_progress with_reducible refine ok_mk ?_ rfl rfl rfl rfl rfl rfl

theorem State.handTile_ok {qs : List Instr} {s : State} {k : Tile} (hOk : Ok qs s)  : Ok qs (State.handTile s k) := by
  unfold State.handTile
  repeat'
    first
      | with_reducible assumption | intro _ | with_reducible apply State.handTileTo_ok | split | dsimp only
      | fail_if_no_progress with_reducible refine ok_mk ?_ rfl rfl rfl rfl rfl rfl

end Sys2Proof.Machine
end

