-- ==== Sys2Proof/Laws/KeepUpdate.lean ====
section
/-! SUPPORT. Every operation of Machine/Update.lean keeps what every command keeps. -/
namespace Sys2Proof.Machine
open Sys2Proof
set_option linter.unusedTactic false
set_option linter.unreachableTactic false

theorem State.setLedger_ok {qs : List Instr} {s : State} {c : Nat} {b : Nat} {l : Ledger} (hOk : Ok qs s)  : Ok qs (State.setLedger s c b l) := by
  unfold State.setLedger
  repeat'
    first
      | with_reducible assumption | intro _ | with_reducible apply State.writeMem_ok | split | dsimp only
      | fail_if_no_progress with_reducible refine ok_mk ?_ rfl rfl rfl rfl rfl rfl

theorem State.unitCount_ok {qs : List Instr} {s : State} {c : Nat} {write : Bool} {l : List (Nat × Nat)} (hOk : Ok qs s) : Ok qs (State.unitCount s
    c write l) := by
  unfold State.unitCount
  repeat'
    first
      | with_reducible assumption | intro _ | with_reducible apply State.accessDone_ok | with_reducible apply ok_foldl
      | with_reducible apply ok_foldl_fst | split | dsimp only | fail_if_no_progress with_reducible refine ok_mk ?_ rfl rfl rfl rfl rfl rfl

theorem State.unitAsk_ok {qs : List Instr} {s : State} {l : List (Nat × Nat)} {w : List (Nat × Nat)} (hOk : Ok qs s) : Ok qs (State.unitAsk s l w).1
    := by
  unfold State.unitAsk
  repeat'
    first
      | with_reducible assumption | intro _ | with_reducible apply State.askHost_ok | with_reducible apply ok_foldl
      | with_reducible apply ok_foldl_fst | split | dsimp only | fail_if_no_progress with_reducible refine ok_mk ?_ rfl rfl rfl rfl rfl rfl

theorem State.updErr_ok {qs : List Instr} {s : State} {c : Nat} {code : Nat} {block : Nat} {step : Nat} {agent : Nat} (hOk : Ok qs s)  : Ok qs
    (State.updErr s c code block step agent) := by
  unfold State.updErr
  repeat'
    first
      | with_reducible assumption | intro _ | with_reducible apply State.countErr_ok | split | dsimp only
      | fail_if_no_progress with_reducible refine ok_mk ?_ rfl rfl rfl rfl rfl rfl

theorem State.chunkReject_ok {qs : List Instr} {s : State} {c : Nat} {code : Nat} {k : Chunk} {agent : Nat} (hOk : Ok qs s)  : Ok qs
    (State.chunkReject s c code k agent) := by
  unfold State.chunkReject
  repeat'
    first
      | with_reducible assumption | intro _ | with_reducible apply State.updErr_ok | with_reducible apply State.countEv_ok | split | dsimp only
      | fail_if_no_progress with_reducible refine ok_mk ?_ rfl rfl rfl rfl rfl rfl

theorem State.queueRepair_ok {qs : List Instr} {s : State} {c : Nat} {b : Nat} {agent : Nat} (hOk : Ok qs s)  : Ok qs (State.queueRepair s c b agent)
    := by
  unfold State.queueRepair
  repeat'
    first
      | with_reducible assumption | intro _ | with_reducible apply State.updErr_ok | with_reducible apply State.setSlice_ok | split | dsimp only
      | fail_if_no_progress with_reducible refine ok_mk ?_ rfl rfl rfl rfl rfl rfl

theorem State.taskBlockDone_ok {qs : List Instr} {s : State} {c : Nat} {b : Nat} {task : Bool} (hOk : Ok qs s)  : Ok qs (State.taskBlockDone s c b
    task) := by
  unfold State.taskBlockDone
  repeat'
    first
      | with_reducible assumption | intro _ | with_reducible apply State.setSlice_ok | split | dsimp only
      | fail_if_no_progress with_reducible refine ok_mk ?_ rfl rfl rfl rfl rfl rfl

theorem State.chunkDup_ok {qs : List Instr} {s : State} {c : Nat} {h : HeldChunk} (hOk : Ok qs s)  : Ok qs (State.chunkDup s c h) := by
  unfold State.chunkDup
  repeat'
    first
      | with_reducible assumption | intro _ | with_reducible apply State.addSat_ok | with_reducible apply State.taskBlockDone_ok | split
      | dsimp only | fail_if_no_progress with_reducible refine ok_mk ?_ rfl rfl rfl rfl rfl rfl

theorem State.chunkUnavail_ok {qs : List Instr} {s : State} {c : Nat} {h : HeldChunk} (hOk : Ok qs s)  : Ok qs (State.chunkUnavail s c h) := by
  unfold State.chunkUnavail
  repeat'
    first
      | with_reducible assumption | intro _ | with_reducible apply State.updErr_ok | with_reducible apply State.countErr_ok | split | dsimp only
      | fail_if_no_progress with_reducible refine ok_mk ?_ rfl rfl rfl rfl rfl rfl

theorem State.openChunk_ok {qs : List Instr} {s : State} {c : Nat} {k : Chunk} {gap : Bool} (hOk : Ok qs s)  : Ok qs (State.openChunk s c k gap) := by
  unfold State.openChunk
  repeat'
    first
      | with_reducible assumption | intro _ | with_reducible apply State.setSlice_ok | with_reducible apply State.setLedger_ok
      | with_reducible apply State.countEv_ok | split | dsimp only | fail_if_no_progress with_reducible refine ok_mk ?_ rfl rfl rfl rfl rfl rfl

theorem State.judge_ok {qs : List Instr} {s : State} {c : Nat} {h : HeldChunk} (hOk : Ok qs s) : Ok qs (State.judge s c h).1 := by
  rw [State.judge]
  extract_lets l isOpen start
  split
  · exact State.chunkReject_ok hOk
  · split
    · exact State.chunkReject_ok hOk
    · split
      · exact State.chunkReject_ok hOk
      · split
        · exact State.chunkReject_ok hOk
        · have hs : ∀ g, Ok qs (start g).1 := by
            intro g
            simp only [start]
            split
            · exact hOk
            · exact State.openChunk_ok hOk
          repeat' first | apply hs | exact hOk | exact State.chunkReject_ok hOk | exact State.chunkDup_ok hOk | exact State.chunkUnavail_ok hOk |
      split

theorem State.judgeNow_ok {qs : List Instr} {s : State} {c : Nat} {h : HeldChunk} (hOk : Ok qs s) : Ok qs (State.judgeNow s c h).1 := by
  unfold State.judgeNow
  repeat'
    first
      | with_reducible assumption | intro _ | with_reducible apply State.unitAsk_ok | with_reducible apply State.unitCount_ok
      | with_reducible apply State.judge_ok | split | dsimp only | fail_if_no_progress with_reducible refine ok_mk ?_ rfl rfl rfl rfl rfl rfl

theorem State.chunkArrive_ok {qs : List Instr} {s : State} {c : Nat} {h : HeldChunk} (hOk : Ok qs s) : Ok qs (State.chunkArrive s c h) := by
  unfold State.chunkArrive
  repeat'
    first
      | with_reducible assumption | intro _ | with_reducible apply State.poisoned_ok | with_reducible apply State.judgeNow_ok
      | with_reducible apply State.setSlice_ok | split | dsimp only | fail_if_no_progress with_reducible refine ok_mk ?_ rfl rfl rfl rfl rfl rfl

theorem execChunkArrival_ok {qs : List Instr} {slice : Fin 8} {c : Chunk} {s : State} (hOk : Ok qs s)  : OkOut qs (execChunkArrival slice c s) := by
  unfold execChunkArrival
  repeat'
    first
      | with_reducible assumption | intro _ | with_reducible apply okOut_next | with_reducible apply State.chunkArrive_ok | split | dsimp only
      | fail_if_no_progress with_reducible refine ok_mk ?_ rfl rfl rfl rfl rfl rfl

theorem State.judgeHeld_ok {qs : List Instr} {s : State} {c : Nat} {a l : List HeldChunk} (hOk : Ok qs s) :
    Ok qs (State.judgeHeld s c a l) := by
  induction l generalizing s a with
  | nil => unfold State.judgeHeld; exact hOk
  | cons e t ih =>
  unfold State.judgeHeld
  repeat'
    first
      | with_reducible assumption | intro _ | with_reducible apply ih | with_reducible apply State.judgeNow_ok
      | with_reducible apply State.setSlice_ok | split | dsimp only | fail_if_no_progress with_reducible refine ok_mk ?_ rfl rfl rfl rfl rfl rfl

theorem State.setBlock_ok {qs : List Instr} {s : State} {c : Nat} {b : Nat} {o : OpenBlock} (hOk : Ok qs s)  : Ok qs (State.setBlock s c b o) := by
  unfold State.setBlock
  repeat'
    first
      | with_reducible assumption | intro _ | with_reducible apply State.setSlice_ok | split | dsimp only
      | fail_if_no_progress with_reducible refine ok_mk ?_ rfl rfl rfl rfl rfl rfl

theorem State.closeBlock_ok {qs : List Instr} {s : State} {c : Nat} {b : Nat} {d : BlockDesc} {o : OpenBlock} (hOk : Ok qs s)  : Ok qs
    (State.closeBlock s c b d o) := by
  unfold State.closeBlock
  repeat'
    first
      | with_reducible assumption | intro _ | with_reducible apply State.writeMem_ok | with_reducible apply State.setLedger_ok
      | with_reducible apply State.addWrap_ok | with_reducible apply State.setSlice_ok | split | dsimp only
      | fail_if_no_progress with_reducible refine ok_mk ?_ rfl rfl rfl rfl rfl rfl

theorem State.updTask_ok {qs : List Instr} {s : State} {c : Nat} {task : Nat} {entry : Nat} (hOk : Ok qs s) : Ok qs (State.updTask s c task entry)
    := by
  unfold State.updTask
  repeat'
    first
      | with_reducible assumption | intro _ | with_reducible apply State.setSlice_ok | with_reducible apply State.updErr_ok
      | with_reducible apply State.countEv_ok | with_reducible apply State.chunkArrive_ok | with_reducible apply State.unitCount_ok
      | with_reducible apply ok_foldl | with_reducible apply ok_foldl_fst | split | dsimp only
      | fail_if_no_progress with_reducible refine ok_mk ?_ rfl rfl rfl rfl rfl rfl

end Sys2Proof.Machine
end

