-- ==== Sys2Proof/Laws/KeepColl.lean ====
section
/-! SUPPORT. Every operation of Machine/Coll.lean keeps what every command keeps. -/
namespace Sys2Proof.Machine
open Sys2Proof
set_option linter.unusedTactic false
set_option linter.unreachableTactic false

theorem State.collCount_ok {qs : List Instr} {s : State} {c : Nat} {part : Nat} {a : Nat} {n : Nat} {write : Bool} (hOk : Ok qs s)  : Ok qs
    (State.collCount s c part a n write) := by
  unfold State.collCount
  repeat'
    first
      | with_reducible assumption | intro _ | with_reducible apply State.touch_ok | with_reducible apply State.accessDone_ok | split | dsimp only
      | fail_if_no_progress with_reducible refine ok_mk ?_ rfl rfl rfl rfl rfl rfl

theorem State.collWrite_ok {qs : List Instr} {s : State} {c : Nat} {part : Nat} {a : Nat} {w : Nat} {els : List Nat} {pz : List Nat} (hOk : Ok qs s) 
    : Ok qs (State.collWrite s c part a w els pz) := by
  unfold State.collWrite
  repeat'
    first
      | with_reducible assumption | intro _ | with_reducible apply State.collCount_ok | with_reducible apply State.writeMem_ok | split | dsimp only
      | fail_if_no_progress with_reducible refine ok_mk ?_ rfl rfl rfl rfl rfl rfl

theorem State.scriptBegin_ok {qs : List Instr} {s : State} {c : Nat} {task : Nat} {arg : Nat} {x : Script} (hOk : Ok qs s) : Ok qs
    (State.scriptBegin s c task arg x) := by
  unfold State.scriptBegin
  repeat'
    first
      | with_reducible assumption | intro _ | with_reducible apply State.collCount_ok | with_reducible apply State.setColl_ok
      | with_reducible apply ok_foldl | with_reducible apply ok_foldl_fst | split | dsimp only
      | fail_if_no_progress with_reducible refine ok_mk ?_ rfl rfl rfl rfl rfl rfl

theorem State.scriptTake_ok {qs : List Instr} {s : State} {c : Nat} {task : Nat} {idx : Nat} {arg : Nat} {script : Option Script} (hOk : Ok qs s) :
    Ok qs (State.scriptTake s c task idx arg script) := by
  unfold State.scriptTake
  repeat'
    first
      | with_reducible assumption | intro _ | with_reducible apply State.setColl_ok | with_reducible apply State.collErr_ok
      | with_reducible apply State.scriptBegin_ok | split | dsimp only | fail_if_no_progress with_reducible refine ok_mk ?_ rfl rfl rfl rfl rfl rfl

theorem State.collTask_ok {qs : List Instr} {s : State} {c : Nat} {task : Nat} {idx : Nat} {arg : Nat} (hOk : Ok qs s) : Ok qs (State.collTask s c
    task idx arg) := by
  unfold State.collTask
  repeat'
    first
      | with_reducible assumption | intro _ | with_reducible apply State.accessDone_ok | with_reducible apply State.scriptTake_ok | split
      | dsimp only | fail_if_no_progress with_reducible refine ok_mk ?_ rfl rfl rfl rfl rfl rfl

theorem State.deliverMemory_ok {qs : List Instr} {s : State} {c : Nat} {x : Script} {i : Nat} {k : CChunk} (hOk : Ok qs s)  : Ok qs
    (State.deliverMemory s c x i k) := by
  unfold State.deliverMemory
  repeat'
    first
      | with_reducible assumption | intro _ | with_reducible apply State.collWrite_ok | with_reducible apply ok_foldl
      | with_reducible apply ok_foldl_fst | split | dsimp only | fail_if_no_progress with_reducible refine ok_mk ?_ rfl rfl rfl rfl rfl rfl

theorem State.deliverBlock_ok {qs : List Instr} {s : State} {c : Nat} {x : Script} {i : Nat} (hOk : Ok qs s)  : Ok qs (State.deliverBlock s c x i) :=
    by
  unfold State.deliverBlock
  repeat'
    first
      | with_reducible assumption | intro _ | with_reducible apply State.poisoned_ok | with_reducible apply State.setColl_ok
      | with_reducible apply State.addWrap_ok | with_reducible apply State.chunkArrive_ok | split | dsimp only
      | fail_if_no_progress with_reducible refine ok_mk ?_ rfl rfl rfl rfl rfl rfl

theorem State.setChunk_ok {qs : List Instr} {s : State} {c : Nat} {i : Nat} {k : CChunk} (hOk : Ok qs s)  : Ok qs (State.setChunk s c i k) := by
  unfold State.setChunk
  repeat'
    first
      | with_reducible assumption | intro _ | with_reducible apply State.setColl_ok | split | dsimp only
      | fail_if_no_progress with_reducible refine ok_mk ?_ rfl rfl rfl rfl rfl rfl

theorem State.sendXfer_ok {qs : List Instr} {s : State} {c : Nat} {x : Script} {i : Nat} {k : CChunk} {t : Xfer} {h : Nat} (hOk : Ok qs s)  : Ok qs
    (State.sendXfer s c x i k t h) := by
  unfold State.sendXfer
  repeat'
    first
      | with_reducible assumption | intro _ | with_reducible apply State.issueOp_ok | with_reducible apply ok_foldl
      | with_reducible apply ok_foldl_fst | split | dsimp only | fail_if_no_progress with_reducible refine ok_mk ?_ rfl rfl rfl rfl rfl rfl

theorem State.chunkDone_ok {qs : List Instr} {s : State} {c : Nat} {x : Script} {i : Nat} {k : CChunk} (hOk : Ok qs s) : Ok qs (State.chunkDone s c
    x i k) := by
  unfold State.chunkDone
  repeat'
    first
      | with_reducible assumption | intro _ | with_reducible apply State.whenWritable_ok | with_reducible apply State.setChunk_ok
      | with_reducible apply State.addWrap_ok | with_reducible apply State.deliverBlock_ok | with_reducible apply State.deliverMemory_ok | split
      | dsimp only | fail_if_no_progress with_reducible refine ok_mk ?_ rfl rfl rfl rfl rfl rfl

theorem State.runChunk_ok {qs : List Instr} {fuel : Nat} {s : State} {c : Nat} {x : Script} {i : Nat} (hOk : Ok qs s) :
    Ok qs (State.runChunk fuel s c x i) := by
  induction fuel generalizing s with
  | zero => exact hOk
  | succ n ih =>
  unfold State.runChunk
  repeat'
    first
      | with_reducible assumption | intro _ | with_reducible apply ih | with_reducible apply State.chunkDone_ok
      | with_reducible apply State.setChunk_ok | with_reducible apply State.collErr_ok | with_reducible apply State.sendXfer_ok
      | with_reducible apply State.setColl_ok | with_reducible apply State.countEv_ok | with_reducible apply State.fault_ok | split | dsimp only
      | fail_if_no_progress with_reducible refine ok_mk ?_ rfl rfl rfl rfl rfl rfl

theorem State.pushChunk_ok {qs : List Instr} {s : State} {c : Nat} {i : Nat} (hOk : Ok qs s)  : Ok qs (State.pushChunk s c i) := by
  unfold State.pushChunk
  repeat'
    first
      | with_reducible assumption | intro _ | with_reducible apply State.runChunk_ok | split | dsimp only
      | fail_if_no_progress with_reducible refine ok_mk ?_ rfl rfl rfl rfl rfl rfl

theorem State.compareStep_ok {qs : List Instr} {s : State} (hOk : Ok qs s)  : Ok qs (State.compareStep s) := by
  unfold State.compareStep
  repeat'
    first
      | with_reducible assumption | intro _ | with_reducible apply State.setChunk_ok | with_reducible apply State.pushChunk_ok | split | dsimp only
      | fail_if_no_progress with_reducible refine ok_mk ?_ rfl rfl rfl rfl rfl rfl

theorem State.moveChunk_ok {qs : List Instr} {s : State} {c : Nat} {i : Nat} (hOk : Ok qs s)  : Ok qs (State.moveChunk s c i) := by
  unfold State.moveChunk
  repeat'
    first
      | with_reducible assumption | intro _ | with_reducible apply State.pushChunk_ok | with_reducible apply State.compareStep_ok | split
      | dsimp only | fail_if_no_progress with_reducible refine ok_mk ?_ rfl rfl rfl rfl rfl rfl

theorem State.compareBegin_ok {qs : List Instr} {s : State} (hOk : Ok qs s)  : Ok qs (State.compareBegin s) := by
  unfold State.compareBegin
  repeat'
    first
      | with_reducible assumption | intro _ | with_reducible apply State.setColl_ok | with_reducible apply State.setChunk_ok
      | with_reducible apply State.moveChunk_ok | split | dsimp only | fail_if_no_progress with_reducible refine ok_mk ?_ rfl rfl rfl rfl rfl rfl

theorem State.accumTile_ok {qs : List Instr} {s : State} {c : Nat} {x : Script} {i : Nat} {k : Tile} (hOk : Ok qs s)  : Ok qs (State.accumTile s c x
    i k) := by
  unfold State.accumTile
  repeat'
    first
      | with_reducible assumption | intro _ | with_reducible apply State.issueOp_ok | with_reducible apply ok_foldl
      | with_reducible apply ok_foldl_fst | split | dsimp only | fail_if_no_progress with_reducible refine ok_mk ?_ rfl rfl rfl rfl rfl rfl

theorem State.chunkBegin_ok {qs : List Instr} {s : State} {c : Nat} {i : Nat} (hOk : Ok qs s) : Ok qs (State.chunkBegin s c i) := by
  unfold State.chunkBegin
  repeat'
    first
      | with_reducible assumption | intro _ | with_reducible apply State.setColl_ok | with_reducible apply State.setChunk_ok
      | with_reducible apply State.moveChunk_ok | with_reducible apply State.accumTile_ok | split | dsimp only
      | fail_if_no_progress with_reducible refine ok_mk ?_ rfl rfl rfl rfl rfl rfl

theorem State.tileAcked_ok {qs : List Instr} {s : State} {c : Nat} {i : Nat} (hOk : Ok qs s) : Ok qs (State.tileAcked s c i) := by
  unfold State.tileAcked
  repeat'
    first
      | with_reducible assumption | intro _ | with_reducible apply State.whenReadable_ok | with_reducible apply State.collCount_ok
      | with_reducible apply State.setChunk_ok | with_reducible apply State.moveChunk_ok | split | dsimp only
      | fail_if_no_progress with_reducible refine ok_mk ?_ rfl rfl rfl rfl rfl rfl

theorem State.chunkStart_ok {qs : List Instr} {s : State} {c : Nat} {i : Nat} (hOk : Ok qs s) : Ok qs (State.chunkStart s c i) := by
  unfold State.chunkStart
  repeat'
    first
      | with_reducible assumption | intro _ | with_reducible apply State.tileAcked_ok | with_reducible apply State.moveChunk_ok
      | with_reducible apply State.chunkBegin_ok | split | dsimp only | fail_if_no_progress with_reducible refine ok_mk ?_ rfl rfl rfl rfl rfl rfl

theorem State.rackStray_ok {qs : List Instr} {s : State} {n : Nat} (hOk : Ok qs s)  : Ok qs (State.rackStray s n) := by
  unfold State.rackStray
  repeat'
    first
      | with_reducible assumption | intro _ | with_reducible apply State.countEv_ok | split | dsimp only
      | fail_if_no_progress with_reducible refine ok_mk ?_ rfl rfl rfl rfl rfl rfl

theorem State.issueMove_ok {qs : List Instr} {s : State} {x : Script} {k : Nat} {v : Move} (hOk : Ok qs s)  : Ok qs (State.issueMove s x k v).1 := by
  unfold State.issueMove
  repeat'
    first
      | with_reducible assumption | intro _ | with_reducible apply State.collCount_ok | with_reducible apply State.issueOp_ok
      | with_reducible apply ok_foldl | with_reducible apply ok_foldl_fst | split | dsimp only
      | fail_if_no_progress with_reducible refine ok_mk ?_ rfl rfl rfl rfl rfl rfl

theorem State.rackTry_ok {qs : List Instr} {s : State} (hOk : Ok qs s) : Ok qs (State.rackTry s) := by
  unfold State.rackTry
  repeat'
    first
      | with_reducible assumption | intro _ | with_reducible apply State.whenReadable_ok | with_reducible apply State.whenWritable_ok
      | with_reducible apply State.collCount_ok | with_reducible apply State.writeMem_ok | with_reducible apply State.setColl_ok | split
      | dsimp only | fail_if_no_progress with_reducible refine ok_mk ?_ rfl rfl rfl rfl rfl rfl

theorem State.rackLanded_ok {qs : List Instr} {s : State} {k : Nat} (hOk : Ok qs s)  : Ok qs (State.rackLanded s k) := by
  unfold State.rackLanded
  repeat'
    first
      | with_reducible assumption | intro _ | with_reducible apply State.addWrap_ok | with_reducible apply State.rackStray_ok
      | with_reducible apply State.setColl_ok | with_reducible apply State.rackTry_ok | split | dsimp only
      | fail_if_no_progress with_reducible refine ok_mk ?_ rfl rfl rfl rfl rfl rfl

theorem State.rackBegin_ok {qs : List Instr} {s : State} {x : Script} (hOk : Ok qs s)  : Ok qs (State.rackBegin s x) := by
  unfold State.rackBegin
  repeat'
    first
      | with_reducible assumption | intro _ | with_reducible apply State.setColl_ok | with_reducible apply State.rackStray_ok
      | with_reducible apply State.collErr_ok | with_reducible apply State.issueMove_ok | with_reducible apply State.rackTry_ok
      | with_reducible apply ok_foldl | with_reducible apply ok_foldl_fst | split | dsimp only
      | fail_if_no_progress with_reducible refine ok_mk ?_ rfl rfl rfl rfl rfl rfl

theorem State.scriptRun_ok {qs : List Instr} {s : State} {c : Nat} {kind : Nat} (hOk : Ok qs s) : Ok qs (State.scriptRun s c kind) := by
  unfold State.scriptRun
  repeat'
    first
      | with_reducible assumption | intro _ | with_reducible apply State.rackTry_ok | with_reducible apply State.whenReadable_ok
      | with_reducible apply State.rackBegin_ok | with_reducible apply State.chunkStart_ok | with_reducible apply State.setColl_ok
      | with_reducible apply ok_foldl | with_reducible apply ok_foldl_fst | split | dsimp only
      | fail_if_no_progress with_reducible refine ok_mk ?_ rfl rfl rfl rfl rfl rfl

theorem execAllReduce_ok {qs : List Instr} {slice : Fin 9} {s : State} (hOk : Ok qs s)  : OkOut qs (execAllReduce slice s) := by
  unfold execAllReduce
  repeat'
    first
      | with_reducible assumption | intro _ | with_reducible apply okOut_next | with_reducible apply State.scriptRun_ok | split | dsimp only
      | fail_if_no_progress with_reducible refine ok_mk ?_ rfl rfl rfl rfl rfl rfl

theorem execReduceScatter_ok {qs : List Instr} {slice : Fin 9} {s : State} (hOk : Ok qs s)  : OkOut qs (execReduceScatter slice s) := by
  unfold execReduceScatter
  repeat'
    first
      | with_reducible assumption | intro _ | with_reducible apply okOut_next | with_reducible apply State.scriptRun_ok | split | dsimp only
      | fail_if_no_progress with_reducible refine ok_mk ?_ rfl rfl rfl rfl rfl rfl

theorem execAllGather_ok {qs : List Instr} {slice : Fin 9} {s : State} (hOk : Ok qs s)  : OkOut qs (execAllGather slice s) := by
  unfold execAllGather
  repeat'
    first
      | with_reducible assumption | intro _ | with_reducible apply okOut_next | with_reducible apply State.scriptRun_ok | split | dsimp only
      | fail_if_no_progress with_reducible refine ok_mk ?_ rfl rfl rfl rfl rfl rfl

theorem execBroadcast_ok {qs : List Instr} {slice : Fin 9} {s : State} (hOk : Ok qs s)  : OkOut qs (execBroadcast slice s) := by
  unfold execBroadcast
  repeat'
    first
      | with_reducible assumption | intro _ | with_reducible apply okOut_next | with_reducible apply State.scriptRun_ok | split | dsimp only
      | fail_if_no_progress with_reducible refine ok_mk ?_ rfl rfl rfl rfl rfl rfl

theorem execAllToAll_ok {qs : List Instr} {slice : Fin 9} {s : State} (hOk : Ok qs s)  : OkOut qs (execAllToAll slice s) := by
  unfold execAllToAll
  repeat'
    first
      | with_reducible assumption | intro _ | with_reducible apply okOut_next | with_reducible apply State.scriptRun_ok | split | dsimp only
      | fail_if_no_progress with_reducible refine ok_mk ?_ rfl rfl rfl rfl rfl rfl

theorem execBarrier_ok {qs : List Instr} {slice : Fin 9} {s : State} (hOk : Ok qs s)  : OkOut qs (execBarrier slice s) := by
  unfold execBarrier
  repeat'
    first
      | with_reducible assumption | intro _ | with_reducible apply okOut_next | with_reducible apply State.scriptRun_ok | split | dsimp only
      | fail_if_no_progress with_reducible refine ok_mk ?_ rfl rfl rfl rfl rfl rfl

theorem execRackScript_ok {qs : List Instr} {slice : Fin 9} {s : State} (hOk : Ok qs s)  : OkOut qs (execRackScript slice s) := by
  unfold execRackScript
  repeat'
    first
      | with_reducible assumption | intro _ | with_reducible apply okOut_next | with_reducible apply State.scriptRun_ok | split | dsimp only
      | fail_if_no_progress with_reducible refine ok_mk ?_ rfl rfl rfl rfl rfl rfl

theorem execBundle_ok {qs : List Instr} {slice : Fin 9} {s : State} (hOk : Ok qs s)  : OkOut qs (execBundle slice s) := by
  unfold execBundle
  repeat'
    first
      | with_reducible assumption | intro _ | with_reducible apply okOut_next | with_reducible apply State.scriptRun_ok | split | dsimp only
      | fail_if_no_progress with_reducible refine ok_mk ?_ rfl rfl rfl rfl rfl rfl

theorem execChunkStart_ok {qs : List Instr} {slice : Fin 9} {chunk : Nat} {s : State} (hOk : Ok qs s)  : OkOut qs (execChunkStart slice chunk s) := by
  unfold execChunkStart
  repeat'
    first
      | with_reducible assumption | intro _ | with_reducible apply okOut_next | with_reducible apply State.chunkStart_ok | split | dsimp only
      | fail_if_no_progress with_reducible refine ok_mk ?_ rfl rfl rfl rfl rfl rfl

theorem execTransferLanded_ok {qs : List Instr} {slice : Fin 9} {chunk : Nat} {q : Nat} {mismatches : List Nat} {s : State} (hOk : Ok qs s) : OkOut
    qs (execTransferLanded slice chunk q mismatches s) := by
  unfold execTransferLanded
  repeat'
    first
      | with_reducible assumption | intro _ | with_reducible apply okOut_next | with_reducible apply State.setColl_ok
      | with_reducible apply State.moveChunk_ok | split | dsimp only | fail_if_no_progress with_reducible refine ok_mk ?_ rfl rfl rfl rfl rfl rfl

end Sys2Proof.Machine
end

