-- ==== Sys2Proof/Laws/KeepMatrix.lean ====
section
/-! SUPPORT. Every operation of Machine/Matrix.lean keeps what every command keeps. -/
namespace Sys2Proof.Machine
open Sys2Proof
set_option linter.unusedTactic false
set_option linter.unreachableTactic false

theorem State.mvStatus_ok {qs : List Instr} {s : State} {c : Nat} {m : MvBlock} {outs : List (EOut × Bool)} (hOk : Ok qs s)  : Ok qs (State.mvStatus
    s c m outs) := by
  unfold State.mvStatus
  repeat'
    first
      | with_reducible assumption | intro _ | with_reducible apply State.unitOow_ok | with_reducible apply State.windowWrite_ok
      | with_reducible apply ok_foldl | with_reducible apply ok_foldl_fst | split | dsimp only
      | fail_if_no_progress with_reducible refine ok_mk ?_ rfl rfl rfl rfl rfl rfl

theorem State.mvRun_ok {qs : List Instr} {s : State} {c : Nat} {m : MvBlock} {j : MvJob} (hOk : Ok qs s) : Ok qs (State.mvRun s c m j) := by
  unfold State.mvRun
  repeat'
    first
      | with_reducible assumption | intro _ | with_reducible apply State.draw_ok | with_reducible apply State.unitOow_ok
      | with_reducible apply State.addWrap_ok | with_reducible apply State.windowWriteBy_ok | with_reducible apply State.countEv_ok
      | with_reducible apply State.addSat_ok | with_reducible apply State.mvStatus_ok | with_reducible apply State.corePoison_ok | split
      | dsimp only | fail_if_no_progress with_reducible refine ok_mk ?_ rfl rfl rfl rfl rfl rfl

theorem State.mvStep_ok {qs : List Instr} {s : State} {c : Nat} {j : MvJob} (hOk : Ok qs s) : Ok qs (State.mvStep s c j).1 := by
  unfold State.mvStep
  repeat'
    first
      | with_reducible assumption | intro _ | with_reducible apply State.mvRun_ok | split | dsimp only
      | fail_if_no_progress with_reducible refine ok_mk ?_ rfl rfl rfl rfl rfl rfl

theorem State.mvStart_ok {qs : List Instr} {s : State} {t : Nat} {i : Issue} {a : Nat} (hOk : Ok qs s) : Ok qs (State.mvStart s t i a) := by
  unfold State.mvStart
  repeat'
    first
      | with_reducible assumption | intro _ | with_reducible apply State.splEcc_ok | with_reducible apply State.arrRsvd_ok
      | with_reducible apply State.corePoison_ok | with_reducible apply State.mvStep_ok | with_reducible apply State.setCore_ok
      | with_reducible apply State.windowWrite_ok | split | dsimp only | fail_if_no_progress with_reducible refine ok_mk ?_ rfl rfl rfl rfl rfl rfl

theorem State.mvDrain_ok {qs : List Instr} {s : State} {c : Nat} {l : List (Nat × Issue × Nat)} (hOk : Ok qs s) : Ok qs (State.mvDrain s c l) := by
  induction l generalizing s with
  | nil => exact State.setCore_ok hOk
  | cons e t ih =>
    unfold State.mvDrain
    dsimp only
    split
    · exact State.setCore_ok (State.mvStart_ok hOk)
    · exact ih (State.mvStart_ok hOk)

theorem State.mvTry_ok {qs : List Instr} {s : State} {c : Nat} (hOk : Ok qs s) : Ok qs (State.mvTry s c) := by
  unfold State.mvTry
  repeat'
    first
      | with_reducible assumption | intro _ | with_reducible apply State.mvDrain_ok | split | dsimp only
      | fail_if_no_progress with_reducible refine ok_mk ?_ rfl rfl rfl rfl rfl rfl

theorem State.mvWaited_ok {qs : List Instr} {s : State} {c : Nat} {cyc : Nat} (hOk : Ok qs s) : Ok qs (State.mvWaited s c cyc) := by
  unfold State.mvWaited
  repeat'
    first
      | with_reducible assumption | intro _ | with_reducible apply State.addSat_ok | with_reducible apply State.setCore_ok | split | dsimp only
      | fail_if_no_progress with_reducible refine ok_mk ?_ rfl rfl rfl rfl rfl rfl

theorem State.mvRelease_ok {qs : List Instr} {s : State} {c : Nat} {cyc : Nat} (hOk : Ok qs s) : Ok qs (State.mvRelease s c cyc) := by
  unfold State.mvRelease
  repeat'
    first
      | with_reducible assumption | intro _ | with_reducible apply State.mvWaited_ok | with_reducible apply State.mvTry_ok | split | dsimp only
      | fail_if_no_progress with_reducible refine ok_mk ?_ rfl rfl rfl rfl rfl rfl

theorem State.mvCmd_ok {qs : List Instr} {s : State} {op : Nat} {i : Issue} (hOk : Ok qs s) : Ok qs (State.mvCmd s op i) := by
  unfold State.mvCmd
  repeat'
    first
      | with_reducible assumption | intro _ | with_reducible apply State.issue_ok | with_reducible apply State.setCore_ok
      | with_reducible apply State.mvRelease_ok | with_reducible apply State.mvTry_ok | split | dsimp only
      | fail_if_no_progress with_reducible refine ok_mk ?_ rfl rfl rfl rfl rfl rfl

theorem execMv_ok {qs : List Instr} {i : Issue} {s : State} (hOk : Ok qs s)  : OkOut qs (execMv i s) := by
  unfold execMv
  repeat'
    first
      | with_reducible assumption | intro _ | with_reducible apply okOut_next | with_reducible apply State.mvCmd_ok | split | dsimp only
      | fail_if_no_progress with_reducible refine ok_mk ?_ rfl rfl rfl rfl rfl rfl

theorem execMvt_ok {qs : List Instr} {i : Issue} {s : State} (hOk : Ok qs s)  : OkOut qs (execMvt i s) := by
  unfold execMvt
  repeat'
    first
      | with_reducible assumption | intro _ | with_reducible apply okOut_next | with_reducible apply State.mvCmd_ok | split | dsimp only
      | fail_if_no_progress with_reducible refine ok_mk ?_ rfl rfl rfl rfl rfl rfl

theorem execResid_ok {qs : List Instr} {i : Issue} {s : State} (hOk : Ok qs s)  : OkOut qs (execResid i s) := by
  unfold execResid
  repeat'
    first
      | with_reducible assumption | intro _ | with_reducible apply okOut_next | with_reducible apply State.mvCmd_ok | split | dsimp only
      | fail_if_no_progress with_reducible refine ok_mk ?_ rfl rfl rfl rfl rfl rfl

theorem execCsr_ok {qs : List Instr} {i : Issue} {s : State} (hOk : Ok qs s)  : OkOut qs (execCsr i s) := by
  unfold execCsr
  repeat'
    first
      | with_reducible assumption | intro _ | with_reducible apply okOut_next | with_reducible apply State.mvCmd_ok | split | dsimp only
      | fail_if_no_progress with_reducible refine ok_mk ?_ rfl rfl rfl rfl rfl rfl

theorem execMvpReservationEnd_ok {qs : List Instr} {engine : Fin 16} {cyc : Nat} {s : State} (hOk : Ok qs s)  : OkOut qs (execMvpReservationEnd
    engine cyc s) := by
  unfold execMvpReservationEnd
  repeat'
    first
      | with_reducible assumption | intro _ | with_reducible apply okOut_next | with_reducible apply State.mvRelease_ok
      | with_reducible apply ok_foldl | with_reducible apply ok_foldl_fst | split | dsimp only
      | fail_if_no_progress with_reducible refine ok_mk ?_ rfl rfl rfl rfl rfl rfl

theorem State.landMatrix_ok {qs : List Instr} {s : State} {c : Nat} {slot : Nat} {a : Nat} {n : Nat} {stall : Nat} {x : LineResponse} (hOk : Ok qs
    s) : Ok qs (State.landMatrix s c slot a n stall x) := by
  unfold State.landMatrix
  repeat'
    first
      | with_reducible assumption | intro _ | with_reducible apply State.engineRead_ok | with_reducible apply State.accessDone_ok
      | with_reducible apply State.addSat_ok | with_reducible apply State.addWrap_ok | with_reducible apply State.setCore_ok
      | with_reducible apply State.mvStep_ok | with_reducible apply State.mvTry_ok | with_reducible apply ok_foldl
      | with_reducible apply ok_foldl_fst | split | dsimp only | fail_if_no_progress with_reducible refine ok_mk ?_ rfl rfl rfl rfl rfl rfl

theorem execRaLineLand_ok {qs : List Instr} {core : Fin 512} {slot : Nat} {part : Nat} {stall : Nat} {x : LineResponse} {s : State} (hOk : Ok qs s)
    : OkOut qs (execRaLineLand core slot part stall x s) := by
  unfold execRaLineLand
  repeat'
    first
      | with_reducible assumption | intro _ | with_reducible apply okOut_next | with_reducible apply State.nocRetry_ok
      | with_reducible apply State.whenReadable_ok | with_reducible apply State.landMatrix_ok | with_reducible apply State.landRemote_ok
      | with_reducible apply State.lineRead_ok | with_reducible apply State.landLine_ok | split | dsimp only
      | fail_if_no_progress with_reducible refine ok_mk ?_ rfl rfl rfl rfl rfl rfl

end Sys2Proof.Machine
end

