-- ==== Sys2Proof/Laws/KeepAudit.lean ====
section
/-! SUPPORT. Every operation of Machine/Audit.lean keeps what every command keeps. -/
namespace Sys2Proof.Machine
open Sys2Proof
set_option linter.unusedTactic false
set_option linter.unreachableTactic false

theorem State.setDigestReg_ok {qs : List Instr} {s : State} {f : Fld} {b : List Byte} (hOk : Ok qs s)  : Ok qs (State.setDigestReg s f b) := by
  unfold State.setDigestReg
  repeat'
    first
      | with_reducible assumption | intro _ | with_reducible apply State.setFld_ok | with_reducible apply ok_foldl
      | with_reducible apply ok_foldl_fst | split | dsimp only | fail_if_no_progress with_reducible refine ok_mk ?_ rfl rfl rfl rfl rfl rfl

theorem State.hashed_ok {qs : List Instr} {s : State} {n : Nat} (hOk : Ok qs s)  : Ok qs (State.hashed s n) := by
  unfold State.hashed
  repeat'
    first
      | with_reducible assumption | intro _ | split | dsimp only | fail_if_no_progress with_reducible refine ok_mk ?_ rfl rfl rfl rfl rfl rfl

theorem State.keepTree_ok {qs : List Instr} {s : State} {root : Nat} (hOk : Ok qs s) : Ok qs (State.keepTree s root) := by
  unfold State.keepTree
  repeat'
    first
      | with_reducible assumption | intro _ | with_reducible apply State.writeMem_ok | with_reducible apply State.draw_ok | split | dsimp only
      | fail_if_no_progress with_reducible refine ok_mk ?_ rfl rfl rfl rfl rfl rfl

theorem State.rehash_ok {qs : List Instr} {s : State} (hOk : Ok qs s) : Ok qs (State.rehash s) := by
  unfold State.rehash
  repeat'
    first
      | with_reducible assumption | intro _ | with_reducible apply State.hashed_ok | with_reducible apply State.keepTree_ok | split | dsimp only
      | fail_if_no_progress with_reducible refine ok_mk ?_ rfl rfl rfl rfl rfl rfl

theorem State.whenFree_ok {qs : List Instr} {s : State} {l : List (Nat × Nat)} {w : List (Nat × Nat)} {f : State → State} (hOk : Ok qs s) (hf : ∀
    x0, Ok qs x0 → Ok qs (f x0)) : Ok qs (State.whenFree s l w f) := by
  unfold State.whenFree
  repeat'
    first
      | with_reducible assumption | intro _ | with_reducible apply hf | with_reducible apply State.whenReadable_ok
      | with_reducible apply State.whenWritable_ok | split | dsimp only | fail_if_no_progress with_reducible refine ok_mk ?_ rfl rfl rfl rfl rfl rfl

theorem execTreeRehash_ok {qs : List Instr} {s : State} (hOk : Ok qs s) : OkOut qs (execTreeRehash s) := by
  unfold execTreeRehash
  repeat'
    first
      | with_reducible assumption | intro _ | with_reducible apply okOut_next | with_reducible apply State.whenFree_ok
      | with_reducible apply State.rehash_ok | split | dsimp only | fail_if_no_progress with_reducible refine ok_mk ?_ rfl rfl rfl rfl rfl rfl

theorem State.comparePick_ok {qs : List Instr} {s : State} (hOk : Ok qs s)  : Ok qs (State.comparePick s) := by
  unfold State.comparePick
  repeat'
    first
      | with_reducible assumption | intro _ | with_reducible apply State.raise_ok | with_reducible apply State.rehash_ok | split | dsimp only
      | fail_if_no_progress with_reducible refine ok_mk ?_ rfl rfl rfl rfl rfl rfl

theorem State.compareResult_ok {qs : List Instr} {s : State} {flag : Bool} (hOk : Ok qs s)  : Ok qs (State.compareResult s flag) := by
  unfold State.compareResult
  repeat'
    first
      | with_reducible assumption | intro _ | with_reducible apply State.addWrap_ok | with_reducible apply State.setFld_ok
      | with_reducible apply State.addSat_ok | with_reducible apply State.raise_ok | with_reducible apply State.bookPush_ok
      | with_reducible apply State.setDigestReg_ok | split | dsimp only | fail_if_no_progress with_reducible refine ok_mk ?_ rfl rfl rfl rfl rfl rfl

theorem State.sealRun_ok {qs : List Instr} {s : State} {i : Nat} {q : SealReq} (hOk : Ok qs s) : Ok qs (State.sealRun s i q) := by
  unfold State.sealRun
  repeat'
    first
      | with_reducible assumption | intro _ | with_reducible apply State.accessDone_ok | with_reducible apply State.writeMem_ok
      | with_reducible apply State.addWrap_ok | with_reducible apply State.hashed_ok | with_reducible apply State.raise_ok
      | with_reducible apply State.countErr_ok | with_reducible apply State.countEv_ok | with_reducible apply State.issueOp_ok | split | dsimp only
      | fail_if_no_progress with_reducible refine ok_mk ?_ rfl rfl rfl rfl rfl rfl

theorem execSealRequest_ok {qs : List Instr} {s : State} (hOk : Ok qs s) : OkOut qs (execSealRequest s) := by
  unfold execSealRequest
  repeat'
    first
      | with_reducible assumption | intro _ | with_reducible apply okOut_next | with_reducible apply State.whenFree_ok
      | with_reducible apply State.sealRun_ok | split | dsimp only | fail_if_no_progress with_reducible refine ok_mk ?_ rfl rfl rfl rfl rfl rfl

theorem State.sealCommit_ok {qs : List Instr} {s : State} (hOk : Ok qs s)  : Ok qs (State.sealCommit s) := by
  unfold State.sealCommit
  repeat'
    first
      | with_reducible assumption | intro _ | split | dsimp only | fail_if_no_progress with_reducible refine ok_mk ?_ rfl rfl rfl rfl rfl rfl

theorem State.sealRestore_ok {qs : List Instr} {s : State} (hOk : Ok qs s)  : Ok qs (State.sealRestore s) := by
  unfold State.sealRestore
  repeat'
    first
      | with_reducible assumption | intro _ | with_reducible apply State.writeMem_ok | with_reducible apply ok_foldl
      | with_reducible apply ok_foldl_fst | split | dsimp only | fail_if_no_progress with_reducible refine ok_mk ?_ rfl rfl rfl rfl rfl rfl

theorem State.rehashBlocks_ok {qs : List Instr} {s : State} (hOk : Ok qs s)  : Ok qs (State.rehashBlocks s) := by
  unfold State.rehashBlocks
  repeat'
    first
      | with_reducible assumption | intro _ | with_reducible apply State.writeMem_ok | with_reducible apply State.hashed_ok
      | with_reducible apply ok_foldl | with_reducible apply ok_foldl_fst | split | dsimp only
      | fail_if_no_progress with_reducible refine ok_mk ?_ rfl rfl rfl rfl rfl rfl

theorem State.verifyBegin_ok {qs : List Instr} {s : State} (hOk : Ok qs s)  : Ok qs (State.verifyBegin s) := by
  unfold State.verifyBegin
  repeat'
    first
      | with_reducible assumption | intro _ | with_reducible apply State.setFld_ok | split | dsimp only
      | fail_if_no_progress with_reducible refine ok_mk ?_ rfl rfl rfl rfl rfl rfl

theorem State.verifyEnd_ok {qs : List Instr} {s : State} (hOk : Ok qs s) : Ok qs (State.verifyEnd s) := by
  unfold State.verifyEnd
  repeat'
    first
      | with_reducible assumption | intro _ | with_reducible apply State.rehashBlocks_ok | with_reducible apply State.rehash_ok
      | with_reducible apply State.setFld_ok | with_reducible apply State.setDigestReg_ok | with_reducible apply State.raise_ok | split | dsimp only
      | fail_if_no_progress with_reducible refine ok_mk ?_ rfl rfl rfl rfl rfl rfl

theorem execVerifyDone_ok {qs : List Instr} {s : State} (hOk : Ok qs s) : OkOut qs (execVerifyDone s) := by
  unfold execVerifyDone
  repeat'
    first
      | with_reducible assumption | intro _ | with_reducible apply okOut_next | with_reducible apply State.whenFree_ok
      | with_reducible apply State.verifyEnd_ok | split | dsimp only | fail_if_no_progress with_reducible refine ok_mk ?_ rfl rfl rfl rfl rfl rfl

end Sys2Proof.Machine
end

