-- ==== Sys2Proof/Laws/KeepLinks.lean ====
section
/-! SUPPORT. Every operation of Machine/Links.lean keeps what every command keeps. -/
namespace Sys2Proof.Machine
open Sys2Proof
set_option linter.unusedTactic false
set_option linter.unreachableTactic false

theorem State.permStep_ok {qs : List Instr} {s : State} {h : Nat} (hOk : Ok qs s)  : Ok qs (State.permStep s h) := by
  unfold State.permStep
  repeat'
    first
      | with_reducible assumption | intro _ | with_reducible apply State.setHeddle_ok | with_reducible apply State.addWrap_ok
      | with_reducible apply State.sendWaiting_ok | with_reducible apply State.threadTo_ok | split | dsimp only
      | fail_if_no_progress with_reducible refine ok_mk ?_ rfl rfl rfl rfl rfl rfl

theorem State.permSync_ok {qs : List Instr} {s : State} (hOk : Ok qs s)  : Ok qs (State.permSync s) := by
  unfold State.permSync
  repeat'
    first
      | with_reducible assumption | intro _ | with_reducible apply State.permStep_ok | with_reducible apply ok_foldl
      | with_reducible apply ok_foldl_fst | split | dsimp only | fail_if_no_progress with_reducible refine ok_mk ?_ rfl rfl rfl rfl rfl rfl

theorem State.setLinkState_ok {qs : List Instr} {s : State} {l : Nat} {st : Nat} (hOk : Ok qs s)  : Ok qs (State.setLinkState s l st) := by
  unfold State.setLinkState
  repeat'
    first
      | with_reducible assumption | intro _ | with_reducible apply State.setFld_ok | with_reducible apply State.addSat_ok
      | with_reducible apply State.raise_ok | with_reducible apply State.setLink_ok | with_reducible apply State.permSync_ok | split | dsimp only
      | fail_if_no_progress with_reducible refine ok_mk ?_ rfl rfl rfl rfl rfl rfl

theorem State.linkDown_ok {qs : List Instr} {s : State} {l : Nat} (hOk : Ok qs s)  : Ok qs (State.linkDown s l) := by
  unfold State.linkDown
  repeat'
    first
      | with_reducible assumption | intro _ | with_reducible apply State.setLinkState_ok | split | dsimp only
      | fail_if_no_progress with_reducible refine ok_mk ?_ rfl rfl rfl rfl rfl rfl

theorem State.linkTrain_ok {qs : List Instr} {s : State} {l : Nat} (hOk : Ok qs s) : Ok qs (State.linkTrain s l) := by
  unfold State.linkTrain
  repeat'
    first
      | with_reducible assumption | intro _ | with_reducible apply State.setLinkState_ok | split | dsimp only
      | fail_if_no_progress with_reducible refine ok_mk ?_ rfl rfl rfl rfl rfl rfl

theorem State.linkCommit_ok {qs : List Instr} {s : State} {l : Nat} {changed : Bool} (hOk : Ok qs s) : Ok qs (State.linkCommit s l changed) := by
  unfold State.linkCommit
  repeat'
    first
      | with_reducible assumption | intro _ | with_reducible apply State.setLinkState_ok | with_reducible apply State.linkTrain_ok | split
      | dsimp only | fail_if_no_progress with_reducible refine ok_mk ?_ rfl rfl rfl rfl rfl rfl

theorem State.sendNeg_ok {qs : List Instr} {s : State} {l : Nat} (hOk : Ok qs s)  : Ok qs (State.sendNeg s l) := by
  unfold State.sendNeg
  repeat'
    first
      | with_reducible assumption | intro _ | with_reducible apply State.addWrap_ok | with_reducible apply State.emit_ok | split | dsimp only
      | fail_if_no_progress with_reducible refine ok_mk ?_ rfl rfl rfl rfl rfl rfl

theorem execLinkTrained_ok {qs : List Instr} {link : Fin 36} {s : State} (hOk : Ok qs s)  : OkOut qs (execLinkTrained link s) := by
  unfold execLinkTrained
  repeat'
    first
      | with_reducible assumption | intro _ | with_reducible apply okOut_next | with_reducible apply State.setLinkState_ok
      | with_reducible apply State.sendNeg_ok | split | dsimp only | fail_if_no_progress with_reducible refine ok_mk ?_ rfl rfl rfl rfl rfl rfl

theorem execTrainingTimeout_ok {qs : List Instr} {link : Fin 36} {s : State} (hOk : Ok qs s)  : OkOut qs (execTrainingTimeout link s) := by
  unfold execTrainingTimeout
  repeat'
    first
      | with_reducible assumption | intro _ | with_reducible apply okOut_next | with_reducible apply State.setLinkState_ok | split | dsimp only
      | fail_if_no_progress with_reducible refine ok_mk ?_ rfl rfl rfl rfl rfl rfl

theorem execLinkLockLoss_ok {qs : List Instr} {link : Fin 36} {s : State} (hOk : Ok qs s)  : OkOut qs (execLinkLockLoss link s) := by
  unfold execLinkLockLoss
  repeat'
    first
      | with_reducible assumption | intro _ | with_reducible apply okOut_next | with_reducible apply State.setLinkState_ok | split | dsimp only
      | fail_if_no_progress with_reducible refine ok_mk ?_ rfl rfl rfl rfl rfl rfl

theorem State.linkJudge_ok {qs : List Instr} {s : State} {l : Nat} (hOk : Ok qs s)  : Ok qs (State.linkJudge s l) := by
  unfold State.linkJudge
  repeat'
    first
      | with_reducible assumption | intro _ | with_reducible apply State.setFld_ok | with_reducible apply State.setLinkState_ok | split
      | dsimp only | fail_if_no_progress with_reducible refine ok_mk ?_ rfl rfl rfl rfl rfl rfl

theorem execNeg_ok {qs : List Instr} {link : Fin 36} {f : NegFlit} {s : State} (hOk : Ok qs s)  : OkOut qs (execNeg link f s) := by
  unfold execNeg
  repeat'
    first
      | with_reducible assumption | intro _ | with_reducible apply okOut_next | with_reducible apply State.addWrap_ok
      | with_reducible apply State.setFld_ok | with_reducible apply State.setLink_ok | with_reducible apply State.linkJudge_ok
      | with_reducible apply State.raise_ok | with_reducible apply State.setLinkState_ok | split | dsimp only
      | fail_if_no_progress with_reducible refine ok_mk ?_ rfl rfl rfl rfl rfl rfl

theorem State.linkRetry_ok {qs : List Instr} {s : State} {l : Nat} {n : Nat} (hOk : Ok qs s)  : Ok qs (State.linkRetry s l n) := by
  unfold State.linkRetry
  repeat'
    first
      | with_reducible assumption | intro _ | with_reducible apply State.countEv_ok | with_reducible apply State.setLink_ok
      | with_reducible apply State.setLinkState_ok | split | dsimp only | fail_if_no_progress with_reducible refine ok_mk ?_ rfl rfl rfl rfl rfl rfl

theorem State.sendRetry_ok {qs : List Instr} {s : State} {l : Nat} (hOk : Ok qs s) : Ok qs (State.sendRetry s l) := by
  unfold State.sendRetry
  repeat'
    first
      | with_reducible assumption | intro _ | with_reducible apply State.addWrap_ok | with_reducible apply State.emit_ok | split | dsimp only
      | fail_if_no_progress with_reducible refine ok_mk ?_ rfl rfl rfl rfl rfl rfl

theorem State.flitSeen_ok {qs : List Instr} {s : State} {l : Nat} {f : Flit} (hOk : Ok qs s) : Ok qs (State.flitSeen s l f) := by
  unfold State.flitSeen
  repeat'
    first
      | with_reducible assumption | intro _ | with_reducible apply State.addWrap_ok | with_reducible apply State.addSat_ok | split | dsimp only
      | fail_if_no_progress with_reducible refine ok_mk ?_ rfl rfl rfl rfl rfl rfl

theorem State.forward_ok {qs : List Instr} {s : State} {l : Nat} {f : Flit} (hOk : Ok qs s) : Ok qs (State.forward s l f) := by
  unfold State.forward
  repeat'
    first
      | with_reducible assumption | intro _ | with_reducible apply State.countEv_ok | with_reducible apply State.linkSend_ok
      | with_reducible apply State.emit_ok | split | dsimp only | fail_if_no_progress with_reducible refine ok_mk ?_ rfl rfl rfl rfl rfl rfl

theorem execFlitForward_ok {qs : List Instr} {link : Fin 36} {f : Flit} {s : State} (hOk : Ok qs s) : OkOut qs (execFlitForward link f s) := by
  unfold execFlitForward
  repeat'
    first
      | with_reducible assumption | intro _ | with_reducible apply okOut_next | with_reducible apply State.flitSeen_ok
      | with_reducible apply State.sendRetry_ok | with_reducible apply State.linkRetry_ok | with_reducible apply State.setLink_ok
      | with_reducible apply State.forward_ok | split | dsimp only | fail_if_no_progress with_reducible refine ok_mk ?_ rfl rfl rfl rfl rfl rfl

theorem State.resendFlit_ok {qs : List Instr} {s : State} {l : Nat} {f : Flit} (hOk : Ok qs s) : Ok qs (State.resendFlit s l f) := by
  unfold State.resendFlit
  repeat'
    first
      | with_reducible assumption | intro _ | with_reducible apply State.addWrap_ok | with_reducible apply State.emit_ok | split | dsimp only
      | fail_if_no_progress with_reducible refine ok_mk ?_ rfl rfl rfl rfl rfl rfl

theorem execRetry_ok {qs : List Instr} {link : Fin 36} {lseq : BitVec 12} {s : State} (hOk : Ok qs s) : OkOut qs (execRetry link lseq s) := by
  unfold execRetry
  repeat'
    first
      | with_reducible assumption | intro _ | with_reducible apply okOut_next | with_reducible apply State.addWrap_ok
      | with_reducible apply State.setLink_ok | with_reducible apply State.resendFlit_ok | with_reducible apply State.linkRetry_ok
      | with_reducible apply ok_foldl | with_reducible apply ok_foldl_fst | split | dsimp only
      | fail_if_no_progress with_reducible refine ok_mk ?_ rfl rfl rfl rfl rfl rfl

theorem execCredit_ok {qs : List Instr} {hid : Nat} {rep : Bool} {n : Nat} {s : State} (hOk : Ok qs s)  : OkOut qs (execCredit hid rep n s) := by
  unfold execCredit
  repeat'
    first
      | with_reducible assumption | intro _ | with_reducible apply okOut_next | with_reducible apply State.setHeddle_ok
      | with_reducible apply State.sendWaiting_ok | split | dsimp only | fail_if_no_progress with_reducible refine ok_mk ?_ rfl rfl rfl rfl rfl rfl

theorem State.compareGo_ok {qs : List Instr} {s : State} (hOk : Ok qs s)  : Ok qs (State.compareGo s) := by
  unfold State.compareGo
  repeat'
    first
      | with_reducible assumption | intro _ | with_reducible apply State.compareBegin_ok | split | dsimp only
      | fail_if_no_progress with_reducible refine ok_mk ?_ rfl rfl rfl rfl rfl rfl

theorem State.countExhaust_ok {qs : List Instr} {s : State} {k : Nat} (hOk : Ok qs s)  : Ok qs (State.countExhaust s k) := by
  unfold State.countExhaust
  repeat'
    first
      | with_reducible assumption | intro _ | with_reducible apply State.addSat_ok | with_reducible apply State.raise_ok | split | dsimp only
      | fail_if_no_progress with_reducible refine ok_mk ?_ rfl rfl rfl rfl rfl rfl

theorem State.threadFrom_ok {qs : List Instr} {s : State} {l : List HedRec} {k : Nat} {stuck : List Nat} (hOk : Ok qs s) :
    Ok qs (State.threadFrom s l k stuck) := by
  induction l generalizing s k stuck with
  | nil => exact hOk
  | cons r t ih =>
  unfold State.threadFrom
  repeat'
    first
      | with_reducible assumption | intro _ | with_reducible apply ih | with_reducible apply State.beginThread_ok
      | with_reducible apply State.countExhaust_ok | split | dsimp only | fail_if_no_progress with_reducible refine ok_mk ?_ rfl rfl rfl rfl rfl rfl

theorem State.threadSet_ok {qs : List Instr} {s : State} (hOk : Ok qs s)  : Ok qs (State.threadSet s) := by
  unfold State.threadSet
  repeat'
    first
      | with_reducible assumption | intro _ | with_reducible apply State.threadFrom_ok | split | dsimp only
      | fail_if_no_progress with_reducible refine ok_mk ?_ rfl rfl rfl rfl rfl rfl

theorem execThread_ok {qs : List Instr} {dev : BitVec 16} {peerId : BitVec 10} {rep : Bool} {part : Fin 8} {s : State} (hOk : Ok qs s) :
    OkOut qs (execThread dev peerId rep part s) := by
  unfold execThread
  extract_lets p d hid
  clear_value hid p d
  repeat'
    first
      | with_reducible assumption | intro _ | with_reducible apply okOut_next | with_reducible apply State.sendMsg_ok
      | with_reducible apply State.refuse_ok | with_reducible apply State.threadTo_ok | with_reducible apply State.compareGo_ok | split
      | dsimp only | fail_if_no_progress with_reducible refine ok_mk ?_ rfl rfl rfl rfl rfl rfl

theorem execRelease_ok {qs : List Instr} {hid : Nat} {s : State} (hOk : Ok qs s) : OkOut qs (execRelease hid s) := by
  unfold execRelease
  repeat'
    first
      | with_reducible assumption | intro _ | with_reducible apply okOut_next | with_reducible apply State.dropRepairOps_ok
      | with_reducible apply State.sendMsg_ok | split | dsimp only | fail_if_no_progress with_reducible refine ok_mk ?_ rfl rfl rfl rfl rfl rfl

end Sys2Proof.Machine
end

