-- ==== Sys2Proof/Laws/KeepCellar.lean ====
section
/-! SUPPORT. Every operation of Machine/Cellar.lean keeps what every command keeps. -/
namespace Sys2Proof.Machine
open Sys2Proof
set_option linter.unusedTactic false
set_option linter.unreachableTactic false

theorem State.setStack_ok {qs : List Instr} {s : State} {k : Nat} {x : StackState} (hOk : Ok qs s)  : Ok qs (State.setStack s k x) := by
  unfold State.setStack
  repeat'
    first
      | with_reducible assumption | intro _ | split | dsimp only | fail_if_no_progress with_reducible refine ok_mk ?_ rfl rfl rfl rfl rfl rfl

theorem State.refill_ok {qs : List Instr} {s : State} {k : Nat} {ns : Nat} (hOk : Ok qs s)  : Ok qs (State.refill s k ns) := by
  unfold State.refill
  repeat'
    first
      | with_reducible assumption | intro _ | with_reducible apply State.setStack_ok | split | dsimp only
      | fail_if_no_progress with_reducible refine ok_mk ?_ rfl rfl rfl rfl rfl rfl

theorem State.stackIssued_ok {qs : List Instr} {s : State} {k : Nat} {r : DramReq} (hOk : Ok qs s)  : Ok qs (State.stackIssued s k r) := by
  unfold State.stackIssued
  repeat'
    first
      | with_reducible assumption | intro _ | with_reducible apply State.setStack_ok | split | dsimp only
      | fail_if_no_progress with_reducible refine ok_mk ?_ rfl rfl rfl rfl rfl rfl

theorem State.ordinary_ok {qs : List Instr} {s : State} {k : Nat} {p : Nat} {r : DramReq} {tokensWaiting : Bool} (hOk : Ok qs s)  : Ok qs
    (State.ordinary s k p r tokensWaiting).1 := by
  unfold State.ordinary
  repeat'
    first
      | with_reducible assumption | intro _ | with_reducible apply State.stackIssued_ok | with_reducible apply State.setStack_ok
      | with_reducible apply State.addSat_ok | split | dsimp only | fail_if_no_progress with_reducible refine ok_mk ?_ rfl rfl rfl rfl rfl rfl

theorem execDramRequestIssue_ok {qs : List Instr} {stack : Fin 16} {ns : Nat} {r : DramReq} {tokensWaiting : Bool} {s : State} (hOk : Ok qs s)  :
    OkOut qs (execDramRequestIssue stack ns r tokensWaiting s) := by
  unfold execDramRequestIssue
  repeat'
    first
      | with_reducible assumption | intro _ | with_reducible apply okOut_next | with_reducible apply State.refill_ok
      | with_reducible apply State.ordinary_ok | with_reducible apply State.setStack_ok | with_reducible apply State.stackIssued_ok
      | with_reducible apply State.countEv_ok | split | dsimp only | fail_if_no_progress with_reducible refine ok_mk ?_ rfl rfl rfl rfl rfl rfl

theorem execScrubRead_ok {qs : List Instr} {stack : Fin 16} {addr : BitVec 48} {ecc : Ecc} {pct : Nat} {s : State} (hOk : Ok qs s)  : OkOut qs
    (execScrubRead stack addr ecc pct s) := by
  unfold execScrubRead
  repeat'
    first
      | with_reducible assumption | intro _ | with_reducible apply okOut_next | with_reducible apply State.addWrap_ok
      | with_reducible apply State.setFld_ok | with_reducible apply State.countEv_ok | with_reducible apply State.stackAddr_ok
      | with_reducible apply State.addSat_ok | with_reducible apply State.raise_ok | split | dsimp only
      | fail_if_no_progress with_reducible refine ok_mk ?_ rfl rfl rfl rfl rfl rfl

theorem State.setEvict_ok {qs : List Instr} {s : State} {die : Nat} {l : List EvictEntry} (hOk : Ok qs s)  : Ok qs (State.setEvict s die l) := by
  unfold State.setEvict
  repeat'
    first
      | with_reducible assumption | intro _ | split | dsimp only | fail_if_no_progress with_reducible refine ok_mk ?_ rfl rfl rfl rfl rfl rfl

theorem State.setHalf_ok {qs : List Instr} {s : State} {key : Nat} {l : CacheLine} {half : Nat} {x : Mesi} (hOk : Ok qs s)  : Ok qs (State.setHalf s
    key l half x) := by
  unfold State.setHalf
  repeat'
    first
      | with_reducible assumption | intro _ | split | dsimp only | fail_if_no_progress with_reducible refine ok_mk ?_ rfl rfl rfl rfl rfl rfl

theorem execDirtyEvict_ok {qs : List Instr} {die : Fin 8} {line : BitVec 48} {s : State} (hOk : Ok qs s)  : OkOut qs (execDirtyEvict die line s) := by
  unfold execDirtyEvict
  repeat'
    first
      | with_reducible assumption | intro _ | with_reducible apply okOut_next | with_reducible apply State.setHalf_ok
      | with_reducible apply State.setEvict_ok | with_reducible apply State.addWrap_ok | with_reducible apply State.emit_ok | split | dsimp only
      | fail_if_no_progress with_reducible refine ok_mk ?_ rfl rfl rfl rfl rfl rfl

theorem execHostSnoop_ok {qs : List Instr} {die : Fin 8} {line : BitVec 48} {inv : Bool} {s : State} (hOk : Ok qs s) : OkOut qs (execHostSnoop die
    line inv s) := by
  unfold execHostSnoop
  repeat'
    first
      | with_reducible assumption | intro _ | with_reducible apply okOut_next | with_reducible apply State.addWrap_ok
      | with_reducible apply State.emit_ok | with_reducible apply State.setEvict_ok | with_reducible apply State.addSat_ok
      | with_reducible apply State.setHalf_ok | with_reducible apply ok_foldl | with_reducible apply ok_foldl_fst | split | dsimp only
      | fail_if_no_progress with_reducible refine ok_mk ?_ rfl rfl rfl rfl rfl rfl

theorem State.writeBack_ok {qs : List Instr} {s : State} {die : Nat} {f : Nat → Bool} (hOk : Ok qs s)  : Ok qs (State.writeBack s die f) := by
  unfold State.writeBack
  repeat'
    first
      | with_reducible assumption | intro _ | with_reducible apply State.addWrap_ok | split | dsimp only
      | fail_if_no_progress with_reducible refine ok_mk ?_ rfl rfl rfl rfl rfl rfl

theorem State.startFlush_ok {qs : List Instr} {s : State} {die : Nat} (hOk : Ok qs s)  : Ok qs (State.startFlush s die) := by
  unfold State.startFlush
  repeat'
    first
      | with_reducible assumption | intro _ | with_reducible apply State.setFld_ok | split | dsimp only
      | fail_if_no_progress with_reducible refine ok_mk ?_ rfl rfl rfl rfl rfl rfl

theorem execFlush_ok {qs : List Instr} {ag : Agent} {die : Fin 8} {s : State} (hOk : Ok qs s)  : OkOut qs (execFlush ag die s) := by
  unfold execFlush
  repeat'
    first
      | with_reducible assumption | intro _ | with_reducible apply okOut_next | with_reducible apply State.pageAct_ok
      | with_reducible apply State.startFlush_ok | split | dsimp only | fail_if_no_progress with_reducible refine ok_mk ?_ rfl rfl rfl rfl rfl rfl

theorem execFlushDone_ok {qs : List Instr} {die : Fin 8} {s : State} (hOk : Ok qs s)  : OkOut qs (execFlushDone die s) := by
  unfold execFlushDone
  repeat'
    first
      | with_reducible assumption | intro _ | with_reducible apply okOut_next | with_reducible apply State.writeBack_ok
      | with_reducible apply State.setFld_ok | with_reducible apply State.raise_ok | split | dsimp only
      | fail_if_no_progress with_reducible refine ok_mk ?_ rfl rfl rfl rfl rfl rfl

theorem execGranuleFlushComplete_ok {qs : List Instr} {die : Fin 8} {gran : Fin 6} {s : State} (hOk : Ok qs s)  : OkOut qs (execGranuleFlushComplete
    die gran s) := by
  unfold execGranuleFlushComplete
  repeat'
    first
      | with_reducible assumption | intro _ | with_reducible apply okOut_next | with_reducible apply State.writeBack_ok
      | with_reducible apply State.setGranule_ok | with_reducible apply State.raise_ok | split | dsimp only
      | fail_if_no_progress with_reducible refine ok_mk ?_ rfl rfl rfl rfl rfl rfl

theorem State.unbind_ok {qs : List Instr} {s : State} {g bind : Nat} (hOk : Ok qs s) : Ok qs (State.unbind s g bind) :=
  ⟨hOk.queue, memFold_wf (memFilter_wf hOk.mem), hOk.nor, hOk.host, hOk.lock⟩

theorem State.enterMode_ok {qs : List Instr} {s : State} {g : Nat} {mode : Nat} {bind : Nat} (hOk : Ok qs s)  : Ok qs (State.enterMode s g mode bind)
    := by
  unfold State.enterMode
  repeat'
    first
      | with_reducible assumption | intro _ | with_reducible apply State.accBytes_ok | with_reducible apply State.setGranule_ok | split
      | dsimp only | fail_if_no_progress with_reducible refine ok_mk ?_ rfl rfl rfl rfl rfl rfl

theorem State.granCommit_ok {qs : List Instr} {s : State} {g : Nat} (hOk : Ok qs s)  : Ok qs (State.granCommit s g) := by
  unfold State.granCommit
  repeat'
    first
      | with_reducible assumption | intro _ | with_reducible apply State.enterMode_ok | with_reducible apply State.setGranule_ok | split
      | dsimp only | fail_if_no_progress with_reducible refine ok_mk ?_ rfl rfl rfl rfl rfl rfl

theorem State.granEdge_ok {qs : List Instr} {s : State} {g : Nat} (hOk : Ok qs s)  : Ok qs (State.granEdge s g) := by
  unfold State.granEdge
  repeat'
    first
      | with_reducible assumption | intro _ | with_reducible apply State.unbind_ok | with_reducible apply State.enterMode_ok | split | dsimp only
      | fail_if_no_progress with_reducible refine ok_mk ?_ rfl rfl rfl rfl rfl rfl

theorem State.granEdges_ok {qs : List Instr} {s : State} (hOk : Ok qs s)  : Ok qs (State.granEdges s) := by
  unfold State.granEdges
  repeat'
    first
      | with_reducible assumption | intro _ | with_reducible apply State.granEdge_ok | with_reducible apply ok_foldl
      | with_reducible apply ok_foldl_fst | split | dsimp only | fail_if_no_progress with_reducible refine ok_mk ?_ rfl rfl rfl rfl rfl rfl

theorem State.flushLate_ok {qs : List Instr} {s : State} (hOk : Ok qs s)  : Ok qs (State.flushLate s) := by
  unfold State.flushLate
  repeat'
    first
      | with_reducible assumption | intro _ | with_reducible apply State.raise_ok | with_reducible apply State.fault_ok
      | with_reducible apply ok_foldl | with_reducible apply ok_foldl_fst | split | dsimp only
      | fail_if_no_progress with_reducible refine ok_mk ?_ rfl rfl rfl rfl rfl rfl

end Sys2Proof.Machine
end

