-- ==== Sys2Proof/Laws/KeepPorts.lean ====
section
/-! SUPPORT. Every operation of Machine/Ports.lean keeps what every command keeps. -/
namespace Sys2Proof.Machine
open Sys2Proof
set_option linter.unusedTactic false
set_option linter.unreachableTactic false

theorem State.txFrames_ok {qs : List Instr} {s : State} {i : Nat} {n : Nat} (hOk : Ok qs s)  : Ok qs (State.txFrames s i n) := by
  unfold State.txFrames
  repeat'
    first
      | with_reducible assumption | intro _ | with_reducible apply State.addWrap_ok | split | dsimp only
      | fail_if_no_progress with_reducible refine ok_mk ?_ rfl rfl rfl rfl rfl rfl

theorem State.sendFrame_ok {qs : List Instr} {s : State} {i : Nat} {kind : Nat} {data : List Byte} (hOk : Ok qs s)  : Ok qs (State.sendFrame s i kind
    data) := by
  unfold State.sendFrame
  repeat'
    first
      | with_reducible assumption | intro _ | with_reducible apply State.txFrames_ok | with_reducible apply State.emit_ok | split | dsimp only
      | fail_if_no_progress with_reducible refine ok_mk ?_ rfl rfl rfl rfl rfl rfl

theorem execFrameReceive_ok {qs : List Instr} {port : Fin 2} {f : FrameInfo} {s : State} (hOk : Ok qs s)  : OkOut qs (execFrameReceive port f s) := by
  unfold execFrameReceive
  repeat'
    first
      | with_reducible assumption | intro _ | with_reducible apply okOut_next | with_reducible apply State.addWrap_ok
      | with_reducible apply State.addSat_ok | split | dsimp only | fail_if_no_progress with_reducible refine ok_mk ?_ rfl rfl rfl rfl rfl rfl

theorem execArpRequest_ok {qs : List Instr} {port : Fin 2} {target : Word} {sender : BitVec 48} {s : State} (hOk : Ok qs s)  : OkOut qs
    (execArpRequest port target sender s) := by
  unfold execArpRequest
  repeat'
    first
      | with_reducible assumption | intro _ | with_reducible apply okOut_next | with_reducible apply State.sendFrame_ok | split | dsimp only
      | fail_if_no_progress with_reducible refine ok_mk ?_ rfl rfl rfl rfl rfl rfl

theorem execNeighborSolicitation_ok {qs : List Instr} {port : Fin 2} {target : BitVec 128} {sender : BitVec 48} {s : State} (hOk : Ok qs s)  : OkOut
    qs (execNeighborSolicitation port target sender s) := by
  unfold execNeighborSolicitation
  repeat'
    first
      | with_reducible assumption | intro _ | with_reducible apply okOut_next | with_reducible apply State.sendFrame_ok | split | dsimp only
      | fail_if_no_progress with_reducible refine ok_mk ?_ rfl rfl rfl rfl rfl rfl

theorem execEchoRequest_ok {qs : List Instr} {src : NetAddr} {v6 : Bool} {data : List Byte} {s : State} (hOk : Ok qs s)  : OkOut qs (execEchoRequest
    src v6 data s) := by
  unfold execEchoRequest
  repeat'
    first
      | with_reducible assumption | intro _ | with_reducible apply okOut_next | with_reducible apply State.sendFrame_ok | split | dsimp only
      | fail_if_no_progress with_reducible refine ok_mk ?_ rfl rfl rfl rfl rfl rfl

theorem State.setPtp_ok {qs : List Instr} {s : State} {i : Nat} {p : PtpState} (hOk : Ok qs s)  : Ok qs (State.setPtp s i p) := by
  unfold State.setPtp
  repeat'
    first
      | with_reducible assumption | intro _ | split | dsimp only | fail_if_no_progress with_reducible refine ok_mk ?_ rfl rfl rfl rfl rfl rfl

theorem State.syncDone_ok {qs : List Instr} {s : State} {i : Nat} {t1 : Nat} {t2 : Nat} (hOk : Ok qs s)  : Ok qs (State.syncDone s i t1 t2) := by
  unfold State.syncDone
  repeat'
    first
      | with_reducible assumption | intro _ | with_reducible apply State.setPtp_ok | with_reducible apply State.setFld_ok | split | dsimp only
      | fail_if_no_progress with_reducible refine ok_mk ?_ rfl rfl rfl rfl rfl rfl

theorem execPtpSync_ok {qs : List Instr} {port : Fin 2} {twoStep : Bool} {t1 : Nat} {t2 : Nat} {s : State} (hOk : Ok qs s)  : OkOut qs (execPtpSync
    port twoStep t1 t2 s) := by
  unfold execPtpSync
  repeat'
    first
      | with_reducible assumption | intro _ | with_reducible apply okOut_next | with_reducible apply State.setPtp_ok
      | with_reducible apply State.syncDone_ok | split | dsimp only | fail_if_no_progress with_reducible refine ok_mk ?_ rfl rfl rfl rfl rfl rfl

theorem execPtpFollowUp_ok {qs : List Instr} {port : Fin 2} {t1 : Nat} {s : State} (hOk : Ok qs s)  : OkOut qs (execPtpFollowUp port t1 s) := by
  unfold execPtpFollowUp
  repeat'
    first
      | with_reducible assumption | intro _ | with_reducible apply okOut_next | with_reducible apply State.syncDone_ok | split | dsimp only
      | fail_if_no_progress with_reducible refine ok_mk ?_ rfl rfl rfl rfl rfl rfl

theorem execPtpDelayReq_ok {qs : List Instr} {port : Fin 2} {rx : Nat} {s : State} (hOk : Ok qs s)  : OkOut qs (execPtpDelayReq port rx s) := by
  unfold execPtpDelayReq
  repeat'
    first
      | with_reducible assumption | intro _ | with_reducible apply okOut_next | with_reducible apply State.sendFrame_ok | split | dsimp only
      | fail_if_no_progress with_reducible refine ok_mk ?_ rfl rfl rfl rfl rfl rfl

theorem execPtpDelayResp_ok {qs : List Instr} {port : Fin 2} {t3 : Nat} {t4 : Nat} {s : State} (hOk : Ok qs s)  : OkOut qs (execPtpDelayResp port t3
    t4 s) := by
  unfold execPtpDelayResp
  repeat'
    first
      | with_reducible assumption | intro _ | with_reducible apply okOut_next | with_reducible apply State.setPtp_ok
      | with_reducible apply State.setFld_ok | split | dsimp only | fail_if_no_progress with_reducible refine ok_mk ?_ rfl rfl rfl rfl rfl rfl

theorem execPtpAnnounce_ok {qs : List Instr} {port : Fin 2} {priority1 : BitVec 8} {clock : Dword} {s : State} (hOk : Ok qs s)  : OkOut qs
    (execPtpAnnounce port priority1 clock s) := by
  unfold execPtpAnnounce
  repeat'
    first
      | with_reducible assumption | intro _ | with_reducible apply okOut_next | with_reducible apply State.setPtp_ok | split | dsimp only
      | fail_if_no_progress with_reducible refine ok_mk ?_ rfl rfl rfl rfl rfl rfl

theorem execPtpLockLost_ok {qs : List Instr} {port : Fin 2} {s : State} (hOk : Ok qs s)  : OkOut qs (execPtpLockLost port s) := by
  unfold execPtpLockLost
  repeat'
    first
      | with_reducible assumption | intro _ | with_reducible apply okOut_next | with_reducible apply State.setPtp_ok
      | with_reducible apply State.raise_ok | split | dsimp only | fail_if_no_progress with_reducible refine ok_mk ?_ rfl rfl rfl rfl rfl rfl

theorem execPtpMessageInterval_ok {qs : List Instr} {port : Fin 2} {kind : Fin 3} {ts : Nat} {s : State} (hOk : Ok qs s)  : OkOut qs
    (execPtpMessageInterval port kind ts s) := by
  unfold execPtpMessageInterval
  repeat'
    first
      | with_reducible assumption | intro _ | with_reducible apply okOut_next | with_reducible apply State.sendFrame_ok
      | with_reducible apply State.setPtp_ok | split | dsimp only | fail_if_no_progress with_reducible refine ok_mk ?_ rfl rfl rfl rfl rfl rfl

theorem execPortUp_ok {qs : List Instr} {port : Fin 2} {s : State} (hOk : Ok qs s)  : OkOut qs (execPortUp port s) := by
  unfold execPortUp
  repeat'
    first
      | with_reducible assumption | intro _ | with_reducible apply okOut_next | with_reducible apply State.setFld_ok
      | with_reducible apply State.raise_ok | split | dsimp only | fail_if_no_progress with_reducible refine ok_mk ?_ rfl rfl rfl rfl rfl rfl

theorem State.portDown_ok {qs : List Instr} {s : State} {i : Nat} (hOk : Ok qs s)  : Ok qs (State.portDown s i) := by
  unfold State.portDown
  repeat'
    first
      | with_reducible assumption | intro _ | with_reducible apply State.setFld_ok | with_reducible apply State.raise_ok | split | dsimp only
      | fail_if_no_progress with_reducible refine ok_mk ?_ rfl rfl rfl rfl rfl rfl

theorem execPortDown_ok {qs : List Instr} {port : Fin 2} {s : State} (hOk : Ok qs s)  : OkOut qs (execPortDown port s) := by
  unfold execPortDown
  repeat'
    first
      | with_reducible assumption | intro _ | with_reducible apply okOut_next | with_reducible apply State.portDown_ok | split | dsimp only
      | fail_if_no_progress with_reducible refine ok_mk ?_ rfl rfl rfl rfl rfl rfl

end Sys2Proof.Machine
end

