-- ==== Sys2Proof/Laws/KeepBook.lean ====
section
/-! SUPPORT. Every operation of Machine/Book.lean keeps what every command keeps. -/
namespace Sys2Proof.Machine
open Sys2Proof
set_option linter.unusedTactic false
set_option linter.unreachableTactic false

theorem State.writeRecord_ok {qs : List Instr} {s : State} {holdup : Bool} {r : QRec} (hOk : Ok qs s)  : Ok qs (State.writeRecord s holdup r) := by
  unfold State.writeRecord
  repeat'
    first
      | with_reducible assumption | intro _ | split | dsimp only | fail_if_no_progress with_reducible refine ok_mk ?_ rfl rfl rfl rfl rfl rfl

theorem State.bookWriteNext_ok {qs : List Instr} {s : State} {holdup : Bool} (hOk : Ok qs s)  : Ok qs (State.bookWriteNext s holdup) := by
  unfold State.bookWriteNext
  repeat'
    first
      | with_reducible assumption | intro _ | with_reducible apply State.writeRecord_ok | split | dsimp only
      | fail_if_no_progress with_reducible refine ok_mk ?_ rfl rfl rfl rfl rfl rfl

theorem execBookRecordWrite_ok {qs : List Instr} {s : State} (hOk : Ok qs s)  : OkOut qs (execBookRecordWrite s) := by
  unfold execBookRecordWrite
  repeat'
    first
      | with_reducible assumption | intro _ | with_reducible apply okOut_next | with_reducible apply State.bookWriteNext_ok | split | dsimp only
      | fail_if_no_progress with_reducible refine ok_mk ?_ rfl rfl rfl rfl rfl rfl

theorem execBookScanDone_ok {qs : List Instr} {s : State} (hOk : Ok qs s)  : OkOut qs (execBookScanDone s) := by
  unfold execBookScanDone
  repeat'
    first
      | with_reducible assumption | intro _ | with_reducible apply okOut_next | with_reducible apply State.countEv_ok
      | with_reducible apply State.setFld_ok | with_reducible apply ok_foldl | with_reducible apply ok_foldl_fst | split | dsimp only
      | fail_if_no_progress with_reducible refine ok_mk ?_ rfl rfl rfl rfl rfl rfl

theorem State.append_ok {qs : List Instr} {s : State} {pf : Bool} (hOk : Ok qs s)  : Ok qs (State.append s pf) := by
  unfold State.append
  repeat'
    first
      | with_reducible assumption | intro _ | with_reducible apply State.bookPush_ok | split | dsimp only
      | fail_if_no_progress with_reducible refine ok_mk ?_ rfl rfl rfl rfl rfl rfl

theorem State.resetRec_ok {qs : List Instr} {s : State} {kind : Nat} {ty : Nat} {inst : Nat} (hOk : Ok qs s)  : Ok qs (State.resetRec s kind ty inst)
    := by
  unfold State.resetRec
  repeat'
    first
      | with_reducible assumption | intro _ | with_reducible apply State.bookPush_ok | split | dsimp only
      | fail_if_no_progress with_reducible refine ok_mk ?_ rfl rfl rfl rfl rfl rfl

theorem State.secRec_ok {qs : List Instr} {s : State} {code : Nat} (hOk : Ok qs s)  : Ok qs (State.secRec s code) := by
  unfold State.secRec
  repeat'
    first
      | with_reducible assumption | intro _ | with_reducible apply State.draw_ok | with_reducible apply State.bookPush_ok | split | dsimp only
      | fail_if_no_progress with_reducible refine ok_mk ?_ rfl rfl rfl rfl rfl rfl

end Sys2Proof.Machine
end

