-- ==== Sys2Proof/Laws/KeepHostQueue.lean ====
section
/-! SUPPORT. Every operation of Machine/HostQueue.lean keeps what every command keeps. -/
namespace Sys2Proof.Machine
open Sys2Proof
set_option linter.unusedTactic false
set_option linter.unreachableTactic false

theorem State.hostCount_ok {qs : List Instr} {s : State} {fn : Nat} {x : Acs} (hOk : Ok qs s)  : Ok qs (State.hostCount s fn x) := by
  unfold State.hostCount
  repeat'
    first
      | with_reducible assumption | intro _ | with_reducible apply State.accessDone_ok | split | dsimp only
      | fail_if_no_progress with_reducible refine ok_mk ?_ rfl rfl rfl rfl rfl rfl

theorem State.hostWrite_ok {qs : List Instr} {s : State} {a : Nat} {b : List Byte} {pz : Bool} (hOk : Ok qs s) :
    Ok qs (State.hostWrite s a b pz) := ⟨hOk.queue, hOk.mem, hOk.nor, memWrite_wf hOk.host, hOk.lock⟩

theorem State.msixUnmask_ok {qs : List Instr} {s : State} {vec : Nat} (hOk : Ok qs s)  : Ok qs (State.msixUnmask s vec) := by
  unfold State.msixUnmask
  repeat'
    first
      | with_reducible assumption | intro _ | with_reducible apply State.vec_ok | with_reducible apply State.emit_ok
      | with_reducible apply State.msix_ok | split | dsimp only | fail_if_no_progress with_reducible refine ok_mk ?_ rfl rfl rfl rfl rfl rfl

theorem execMsixUnmask_ok {qs : List Instr} {vec : Fin 2048} {s : State} (hOk : Ok qs s)  : OkOut qs (execMsixUnmask vec s) := by
  unfold execMsixUnmask
  repeat'
    first
      | with_reducible assumption | intro _ | with_reducible apply okOut_next | with_reducible apply State.msixUnmask_ok
      | with_reducible apply State.vec_ok | split | dsimp only | fail_if_no_progress with_reducible refine ok_mk ?_ rfl rfl rfl rfl rfl rfl

theorem State.msixWrite_ok {qs : List Instr} {s : State} {fn : Nat} {off : Nat} {v : Nat} (hOk : Ok qs s)  : Ok qs (State.msixWrite s fn off v) := by
  unfold State.msixWrite
  repeat'
    first
      | with_reducible assumption | intro _ | with_reducible apply State.vec_ok | with_reducible apply State.msixUnmask_ok
      | with_reducible apply State.msix_ok | split | dsimp only | fail_if_no_progress with_reducible refine ok_mk ?_ rfl rfl rfl rfl rfl rfl

theorem State.setQueue_ok {qs : List Instr} {s : State} {fn : Nat} {q : Nat} {x : QueueState} (hOk : Ok qs s)  : Ok qs (State.setQueue s fn q x) := by
  unfold State.setQueue
  repeat'
    first
      | with_reducible assumption | intro _ | split | dsimp only | fail_if_no_progress with_reducible refine ok_mk ?_ rfl rfl rfl rfl rfl rfl

theorem State.queueCfg_ok {qs : List Instr} {s : State} {fn : Nat} {q : Nat} {cfg : Nat} (hOk : Ok qs s)  : Ok qs (State.queueCfg s fn q cfg) := by
  unfold State.queueCfg
  repeat'
    first
      | with_reducible assumption | intro _ | with_reducible apply State.setQueue_ok | split | dsimp only
      | fail_if_no_progress with_reducible refine ok_mk ?_ rfl rfl rfl rfl rfl rfl

theorem State.cmdErr_ok {qs : List Instr} {s : State} (hOk : Ok qs s)  : Ok qs (State.cmdErr s) := by
  unfold State.cmdErr
  repeat'
    first
      | with_reducible assumption | intro _ | with_reducible apply State.countEv_ok | split | dsimp only
      | fail_if_no_progress with_reducible refine ok_mk ?_ rfl rfl rfl rfl rfl rfl

theorem State.sqTailWrite_ok {qs : List Instr} {s : State} {fn : Nat} {q : Nat} {tail : Nat} (hOk : Ok qs s)  : Ok qs (State.sqTailWrite s fn q tail)
    := by
  unfold State.sqTailWrite
  repeat'
    first
      | with_reducible assumption | intro _ | with_reducible apply State.setQueue_ok | with_reducible apply State.cmdErr_ok | split | dsimp only
      | fail_if_no_progress with_reducible refine ok_mk ?_ rfl rfl rfl rfl rfl rfl

theorem State.cqHeadWrite_ok {qs : List Instr} {s : State} {fn : Nat} {q : Nat} {head : Nat} (hOk : Ok qs s)  : Ok qs (State.cqHeadWrite s fn q head)
    := by
  unfold State.cqHeadWrite
  repeat'
    first
      | with_reducible assumption | intro _ | with_reducible apply State.setQueue_ok | with_reducible apply State.cmdErr_ok | split | dsimp only
      | fail_if_no_progress with_reducible refine ok_mk ?_ rfl rfl rfl rfl rfl rfl

theorem State.queueWrite_ok {qs : List Instr} {s : State} {fn : Nat} {q : Nat} {off : Nat} {v : Nat} (hOk : Ok qs s)  : Ok qs (State.queueWrite s fn
    q off v) := by
  unfold State.queueWrite
  repeat'
    first
      | with_reducible assumption | intro _ | with_reducible apply State.setQueue_ok | with_reducible apply State.queueCfg_ok
      | with_reducible apply State.sqTailWrite_ok | with_reducible apply State.cqHeadWrite_ok | split | dsimp only
      | fail_if_no_progress with_reducible refine ok_mk ?_ rfl rfl rfl rfl rfl rfl

theorem State.bar4Write_ok {qs : List Instr} {s : State} {fn : Nat} {off : Nat} {size : Nat} {v : Nat} (hOk : Ok qs s)  : Ok qs (State.bar4Write s fn
    off size v) := by
  unfold State.bar4Write
  repeat'
    first
      | with_reducible assumption | intro _ | with_reducible apply State.emit_ok | with_reducible apply State.hostCount_ok
      | with_reducible apply State.msixWrite_ok | with_reducible apply State.queueWrite_ok | split | dsimp only
      | fail_if_no_progress with_reducible refine ok_mk ?_ rfl rfl rfl rfl rfl rfl

theorem State.queueGate_ok {qs : List Instr} {s : State} {fn : Nat} {q : Nat} {act : State → State} (hOk : Ok qs s) (hact : ∀ t, Ok qs t → Ok qs (act
    t)) : Ok qs (State.queueGate s fn q act) := by
  unfold State.queueGate
  repeat'
    first
      | with_reducible assumption | intro _ | with_reducible apply hact | with_reducible apply State.hostCount_ok | split | dsimp only
      | fail_if_no_progress with_reducible refine ok_mk ?_ rfl rfl rfl rfl rfl rfl

theorem execQueueEnable_ok {qs : List Instr} {fn : Fin 9} {q : Fin 16} {cfg : Word} {s : State} (hOk : Ok qs s)  : OkOut qs (execQueueEnable fn q cfg
    s) := by
  unfold execQueueEnable
  repeat'
    first
      | with_reducible assumption | intro _ | with_reducible apply okOut_next | with_reducible apply State.queueGate_ok
      | with_reducible apply State.queueCfg_ok | split | dsimp only | fail_if_no_progress with_reducible refine ok_mk ?_ rfl rfl rfl rfl rfl rfl

theorem execSqDoorbell_ok {qs : List Instr} {fn : Fin 9} {q : Fin 16} {tail : Word} {hostWrites : List (Nat × List Byte)} {s : State} (hOk : Ok qs s)
     : OkOut qs (execSqDoorbell fn q tail hostWrites s) := by
  unfold execSqDoorbell
  repeat'
    first
      | with_reducible assumption | intro _ | with_reducible apply okOut_next | with_reducible apply State.hostWrite_ok
      | with_reducible apply State.queueGate_ok | with_reducible apply State.sqTailWrite_ok | with_reducible apply ok_foldl
      | with_reducible apply ok_foldl_fst | split | dsimp only | fail_if_no_progress with_reducible refine ok_mk ?_ rfl rfl rfl rfl rfl rfl

theorem execCqDoorbell_ok {qs : List Instr} {fn : Fin 9} {q : Fin 16} {head : Word} {s : State} (hOk : Ok qs s)  : OkOut qs (execCqDoorbell fn q head
    s) := by
  unfold execCqDoorbell
  repeat'
    first
      | with_reducible assumption | intro _ | with_reducible apply okOut_next | with_reducible apply State.queueGate_ok
      | with_reducible apply State.cqHeadWrite_ok | split | dsimp only | fail_if_no_progress with_reducible refine ok_mk ?_ rfl rfl rfl rfl rfl rfl

theorem State.cmdDone_ok {qs : List Instr} {s : State} {fn : Nat} {q : Nat} {c : QCmd} {status : Nat} {info : Nat} (hOk : Ok qs s)  : Ok qs
    (State.cmdDone s fn q c status info) := by
  unfold State.cmdDone
  repeat'
    first
      | with_reducible assumption | intro _ | with_reducible apply State.setQueue_ok | split | dsimp only
      | fail_if_no_progress with_reducible refine ok_mk ?_ rfl rfl rfl rfl rfl rfl

theorem State.queueCmd_ok {qs : List Instr} {s : State} {fn : Nat} {q : Nat} {opc : Nat} {body : QCmd → State} (hOk : Ok qs s) (hbody : ∀ x0, Ok qs
    (body x0)) : Ok qs (State.queueCmd s fn q opc body) := by
  unfold State.queueCmd
  repeat'
    first
      | with_reducible assumption | intro _ | with_reducible apply hbody | with_reducible apply State.cmdDone_ok | split | dsimp only
      | fail_if_no_progress with_reducible refine ok_mk ?_ rfl rfl rfl rfl rfl rfl

theorem State.devSide_ok {qs : List Instr} {s : State} {fn : Nat} {q : Nat} {c : QCmd} {write : Bool} {go : State → State} (hOk : Ok qs s) (hgo : ∀
    t, Ok qs t → Ok qs (go t)) : Ok qs (State.devSide s fn q c write go) := by
  unfold State.devSide
  repeat'
    first
      | with_reducible assumption | intro _ | with_reducible apply hgo | with_reducible apply State.askHost_ok
      | with_reducible apply State.hostCount_ok | with_reducible apply State.touch_ok | with_reducible apply State.cmdDone_ok | split | dsimp only
      | fail_if_no_progress with_reducible refine ok_mk ?_ rfl rfl rfl rfl rfl rfl

theorem execQueueNop_ok {qs : List Instr} {fn : Fin 9} {q : Fin 16} {s : State} (hOk : Ok qs s)  : OkOut qs (execQueueNop fn q s) := by
  unfold execQueueNop
  repeat'
    first
      | with_reducible assumption | intro _ | with_reducible apply okOut_next | with_reducible apply State.queueCmd_ok
      | with_reducible apply State.cmdDone_ok | split | dsimp only | fail_if_no_progress with_reducible refine ok_mk ?_ rfl rfl rfl rfl rfl rfl

theorem execCopyIn_ok {qs : List Instr} {fn : Fin 9} {q : Fin 16} {hostErr : Bool} {s : State} (hOk : Ok qs s)  : OkOut qs (execCopyIn fn q hostErr
    s) := by
  unfold execCopyIn
  repeat'
    first
      | with_reducible assumption | intro _ | with_reducible apply okOut_next | with_reducible apply State.queueCmd_ok
      | with_reducible apply State.cmdDone_ok | with_reducible apply State.devSide_ok | with_reducible apply State.writeMem_ok | split | dsimp only
      | fail_if_no_progress with_reducible refine ok_mk ?_ rfl rfl rfl rfl rfl rfl

theorem execCopyOut_ok {qs : List Instr} {fn : Fin 9} {q : Fin 16} {hostErr : Bool} {s : State} (hOk : Ok qs s)  : OkOut qs (execCopyOut fn q hostErr
    s) := by
  unfold execCopyOut
  repeat'
    first
      | with_reducible assumption | intro _ | with_reducible apply okOut_next | with_reducible apply State.queueCmd_ok
      | with_reducible apply State.cmdDone_ok | with_reducible apply State.devSide_ok | with_reducible apply State.hostWrite_ok
      | with_reducible apply ok_foldl | with_reducible apply ok_foldl_fst | split | dsimp only
      | fail_if_no_progress with_reducible refine ok_mk ?_ rfl rfl rfl rfl rfl rfl

theorem execFill_ok {qs : List Instr} {fn : Fin 9} {q : Fin 16} {s : State} (hOk : Ok qs s)  : OkOut qs (execFill fn q s) := by
  unfold execFill
  repeat'
    first
      | with_reducible assumption | intro _ | with_reducible apply okOut_next | with_reducible apply State.queueCmd_ok
      | with_reducible apply State.devSide_ok | with_reducible apply State.writeMem_ok | with_reducible apply State.cmdDone_ok | split | dsimp only
      | fail_if_no_progress with_reducible refine ok_mk ?_ rfl rfl rfl rfl rfl rfl

theorem execDigest_ok {qs : List Instr} {fn : Fin 9} {q : Fin 16} {hostErr : Bool} {s : State} (hOk : Ok qs s)  : OkOut qs (execDigest fn q hostErr
    s) := by
  unfold execDigest
  repeat'
    first
      | with_reducible assumption | intro _ | with_reducible apply okOut_next | with_reducible apply State.queueCmd_ok
      | with_reducible apply State.cmdDone_ok | with_reducible apply State.devSide_ok | with_reducible apply State.hostWrite_ok | split
      | dsimp only | fail_if_no_progress with_reducible refine ok_mk ?_ rfl rfl rfl rfl rfl rfl

theorem State.wordCmd_ok {qs : List Instr} {s : State} {fn : Nat} {q : Nat} {c : QCmd} {write : Bool} {go : State → State} (hOk : Ok qs s) (hgo : ∀
    t, Ok qs t → Ok qs (go t)) : Ok qs (State.wordCmd s fn q c write go) := by
  unfold State.wordCmd
  repeat'
    first
      | with_reducible assumption | intro _ | with_reducible apply hgo | with_reducible apply State.devSide_ok
      | with_reducible apply State.hostCount_ok | with_reducible apply State.cmdDone_ok | split | dsimp only
      | fail_if_no_progress with_reducible refine ok_mk ?_ rfl rfl rfl rfl rfl rfl

theorem execQueueSig_ok {qs : List Instr} {fn : Fin 9} {q : Fin 16} {s : State} (hOk : Ok qs s)  : OkOut qs (execQueueSig fn q s) := by
  unfold execQueueSig
  repeat'
    first
      | with_reducible assumption | intro _ | with_reducible apply okOut_next | with_reducible apply State.queueCmd_ok
      | with_reducible apply State.wordCmd_ok | with_reducible apply State.writeMem_ok | with_reducible apply State.cmdDone_ok | split | dsimp only
      | fail_if_no_progress with_reducible refine ok_mk ?_ rfl rfl rfl rfl rfl rfl

theorem execQueueWait_ok {qs : List Instr} {fn : Fin 9} {q : Fin 16} {s : State} (hOk : Ok qs s)  : OkOut qs (execQueueWait fn q s) := by
  unfold execQueueWait
  repeat'
    first
      | with_reducible assumption | intro _ | with_reducible apply okOut_next | with_reducible apply State.queueCmd_ok
      | with_reducible apply State.wordCmd_ok | with_reducible apply State.cmdDone_ok | with_reducible apply State.setQueue_ok | split | dsimp only
      | fail_if_no_progress with_reducible refine ok_mk ?_ rfl rfl rfl rfl rfl rfl

theorem execCommandComplete_ok {qs : List Instr} {fn : Fin 9} {q : Fin 16} {s : State} (hOk : Ok qs s)  : OkOut qs (execCommandComplete fn q s) := by
  unfold execCommandComplete
  repeat'
    first
      | with_reducible assumption | intro _ | with_reducible apply okOut_next | with_reducible apply State.hostWrite_ok
      | with_reducible apply State.setQueue_ok | with_reducible apply State.addWrap_ok | with_reducible apply State.cmdErr_ok
      | with_reducible apply State.msix_ok | split | dsimp only | fail_if_no_progress with_reducible refine ok_mk ?_ rfl rfl rfl rfl rfl rfl

theorem State.stopQueues_ok {qs : List Instr} {s : State} {f : Nat → Bool} (hOk : Ok qs s)  : Ok qs (State.stopQueues s f) := by
  unfold State.stopQueues
  repeat'
    first
      | with_reducible assumption | intro _ | split | dsimp only | fail_if_no_progress with_reducible refine ok_mk ?_ rfl rfl rfl rfl rfl rfl

theorem State.resetQueues_ok {qs : List Instr} {s : State} {f : Nat → Bool} (hOk : Ok qs s)  : Ok qs (State.resetQueues s f) := by
  unfold State.resetQueues
  repeat'
    first
      | with_reducible assumption | intro _ | split | dsimp only | fail_if_no_progress with_reducible refine ok_mk ?_ rfl rfl rfl rfl rfl rfl

theorem State.linkDownHost_ok {qs : List Instr} {s : State} (hOk : Ok qs s)  : Ok qs (State.linkDownHost s) := by
  unfold State.linkDownHost
  repeat'
    first
      | with_reducible assumption | intro _ | with_reducible apply State.setFld_ok | with_reducible apply State.stopQueues_ok
      | with_reducible apply State.raise_ok | split | dsimp only | fail_if_no_progress with_reducible refine ok_mk ?_ rfl rfl rfl rfl rfl rfl

theorem execHostLinkDown_ok {qs : List Instr} {s : State} (hOk : Ok qs s)  : OkOut qs (execHostLinkDown s) := by
  unfold execHostLinkDown
  repeat'
    first
      | with_reducible assumption | intro _ | with_reducible apply okOut_next | with_reducible apply State.linkDownHost_ok | split | dsimp only
      | fail_if_no_progress with_reducible refine ok_mk ?_ rfl rfl rfl rfl rfl rfl

theorem execHostLinkUp_ok {qs : List Instr} {speed : Fin 8} {width : Fin 32} {cxl : Bool} {cacheEn : Bool} {memEn : Bool} {s : State} (hOk : Ok qs s)
     : OkOut qs (execHostLinkUp speed width cxl cacheEn memEn s) := by
  unfold execHostLinkUp
  repeat'
    first
      | with_reducible assumption | intro _ | with_reducible apply okOut_next | with_reducible apply State.setFld_ok
      | with_reducible apply State.stopQueues_ok | split | dsimp only | fail_if_no_progress with_reducible refine ok_mk ?_ rfl rfl rfl rfl rfl rfl

theorem State.flrRegs_ok {qs : List Instr} {s : State} (hOk : Ok qs s)  : Ok qs (State.flrRegs s) := by
  unfold State.flrRegs
  repeat'
    first
      | with_reducible assumption | intro _ | with_reducible apply ok_foldl | with_reducible apply ok_foldl_fst | split | dsimp only
      | fail_if_no_progress with_reducible refine ok_mk ?_ rfl rfl rfl rfl rfl rfl

theorem execFlr_ok {qs : List Instr} {fn : Fin 9} {s : State} (hOk : Ok qs s)  : OkOut qs (execFlr fn s) := by
  unfold execFlr
  repeat'
    first
      | with_reducible assumption | intro _ | with_reducible apply okOut_next | with_reducible apply State.resetQueues_ok
      | with_reducible apply State.flrRegs_ok | split | dsimp only | fail_if_no_progress with_reducible refine ok_mk ?_ rfl rfl rfl rfl rfl rfl

end Sys2Proof.Machine
end

