-- ==== Sys2Proof/Laws/KeepSolver.lean ====
section
/-! SUPPORT. Every operation of Machine/Solver.lean keeps what every command keeps. -/
namespace Sys2Proof.Machine
open Sys2Proof
set_option linter.unusedTactic false
set_option linter.unreachableTactic false

theorem State.solvCount_ok {qs : List Instr} {s : State} {e : Nat} {part : Nat} {a : Nat} {n : Nat} {write : Bool} (hOk : Ok qs s)  : Ok qs
    (State.solvCount s e part a n write) := by
  unfold State.solvCount
  repeat'
    first
      | with_reducible assumption | intro _ | with_reducible apply State.touch_ok | with_reducible apply State.accessDone_ok | split | dsimp only
      | fail_if_no_progress with_reducible refine ok_mk ?_ rfl rfl rfl rfl rfl rfl

theorem State.solvWrite_ok {qs : List Instr} {s : State} {e : Nat} {part : Nat} {a : Nat} {b : List Byte} (hOk : Ok qs s)  : Ok qs (State.solvWrite s
    e part a b) := by
  unfold State.solvWrite
  repeat'
    first
      | with_reducible assumption | intro _ | with_reducible apply State.solvCount_ok | with_reducible apply State.writeMem_ok | split | dsimp only
      | fail_if_no_progress with_reducible refine ok_mk ?_ rfl rfl rfl rfl rfl rfl

theorem State.holdPath_ok {qs : List Instr} {s : State} {e : Nat} {d : SolveDesc} (hOk : Ok qs s)  : Ok qs (State.holdPath s e d) := by
  unfold State.holdPath
  repeat'
    first
      | with_reducible assumption | intro _ | with_reducible apply State.setCore_ok | split | dsimp only
      | fail_if_no_progress with_reducible refine ok_mk ?_ rfl rfl rfl rfl rfl rfl

theorem State.solveEnd_ok {qs : List Instr} {s : State} {e : Nat} {ns : Nat} {d : SolveDesc} {o : SolveOut} (hOk : Ok qs s) : Ok qs (State.solveEnd
    s e ns d o) := by
  unfold State.solveEnd
  repeat'
    first
      | with_reducible assumption | intro _ | with_reducible apply State.solvWrite_ok | with_reducible apply State.issueOp_ok
      | with_reducible apply State.addWrap_ok | with_reducible apply State.addSat_ok | with_reducible apply State.countEv_ok
      | with_reducible apply State.cause_ok | with_reducible apply State.setFld_ok | with_reducible apply State.countErr_ok
      | with_reducible apply State.poisoned_ok | with_reducible apply State.releasePath_ok | with_reducible apply State.setSolver_ok | split
      | dsimp only | fail_if_no_progress with_reducible refine ok_mk ?_ rfl rfl rfl rfl rfl rfl

theorem State.solvEcc_ok {qs : List Instr} {s : State} {e : Nat} {x : Ecc} (hOk : Ok qs s)  : Ok qs (State.solvEcc s e x) := by
  unfold State.solvEcc
  repeat'
    first
      | with_reducible assumption | intro _ | with_reducible apply State.countEv_ok | split | dsimp only
      | fail_if_no_progress with_reducible refine ok_mk ?_ rfl rfl rfl rfl rfl rfl

theorem State.storeFactor_ok {qs : List Instr} {s : State} {e : Nat} {f : Factored} (hOk : Ok qs s) : Ok qs (State.storeFactor s e f) := by
  unfold State.storeFactor
  repeat'
    first
      | with_reducible assumption | intro _ | with_reducible apply State.setSolver_ok | split | dsimp only
      | fail_if_no_progress with_reducible refine ok_mk ?_ rfl rfl rfl rfl rfl rfl

theorem State.qpOutputs_ok {qs : List Instr} {s : State} {e : Nat} {ns : Nat} {d : SolveDesc} {key : List Byte} {cls : List RowClass} {size : Nat}
    {xbar : List Val} {q : QpData} {r : QpEnd} (hOk : Ok qs s) : Ok qs (State.qpOutputs s e ns d key cls size xbar q r) := by
  unfold State.qpOutputs
  repeat'
    first
      | with_reducible assumption | intro _ | with_reducible apply State.storeFactor_ok | with_reducible apply State.solvWrite_ok
      | with_reducible apply State.solveEnd_ok | split | dsimp only | fail_if_no_progress with_reducible refine ok_mk ?_ rfl rfl rfl rfl rfl rfl

theorem State.qpRun_ok {qs : List Instr} {s : State} {e : Nat} {ns : Nat} {d : SolveDesc} {key : List Byte} {cls : List RowClass} {size : Nat} (hOk
    : Ok qs s) : Ok qs (State.qpRun s e ns d key cls size) := by
  unfold State.qpRun
  repeat'
    first
      | with_reducible assumption | intro _ | with_reducible apply State.solveEnd_ok | with_reducible apply State.qpOutputs_ok | split | dsimp only
      | fail_if_no_progress with_reducible refine ok_mk ?_ rfl rfl rfl rfl rfl rfl

theorem State.adjRun_ok {qs : List Instr} {s : State} {e : Nat} {ns : Nat} {d : SolveDesc} {key : List Byte} {cls : List RowClass} {size : Nat} (hOk
    : Ok qs s) : Ok qs (State.adjRun s e ns d key cls size) := by
  unfold State.adjRun
  repeat'
    first
      | with_reducible assumption | intro _ | with_reducible apply State.solveEnd_ok | with_reducible apply State.storeFactor_ok
      | with_reducible apply State.solvWrite_ok | split | dsimp only | fail_if_no_progress with_reducible refine ok_mk ?_ rfl rfl rfl rfl rfl rfl

theorem State.linRun_ok {qs : List Instr} {s : State} {e : Nat} {ns : Nat} {d : SolveDesc} {key : List Byte} {size : Nat} (hOk : Ok qs s)  : Ok qs
    (State.linRun s e ns d key size) := by
  unfold State.linRun
  repeat'
    first
      | with_reducible assumption | intro _ | with_reducible apply State.workInternal_ok | with_reducible apply State.solvWrite_ok
      | with_reducible apply State.solveEnd_ok | split | dsimp only | fail_if_no_progress with_reducible refine ok_mk ?_ rfl rfl rfl rfl rfl rfl

theorem State.solveRun_ok {qs : List Instr} {s : State} {e : Nat} {ns : Nat} {b : List Byte} {x : Ecc} (hOk : Ok qs s)  : Ok qs (State.solveRun s e
    ns b x) := by
  unfold State.solveRun
  repeat'
    first
      | with_reducible assumption | intro _ | with_reducible apply State.solvCount_ok | with_reducible apply State.holdPath_ok
      | with_reducible apply State.solvEcc_ok | with_reducible apply State.solveEnd_ok | with_reducible apply State.adjRun_ok
      | with_reducible apply State.linRun_ok | with_reducible apply State.qpRun_ok | with_reducible apply ok_foldl
      | with_reducible apply ok_foldl_fst | split | dsimp only | fail_if_no_progress with_reducible refine ok_mk ?_ rfl rfl rfl rfl rfl rfl

theorem State.solveBegin_ok {qs : List Instr} {s : State} {e : Nat} {ns : Nat} {b : List Byte} {x : Ecc} (hOk : Ok qs s) : Ok qs (State.solveBegin s
    e ns b x) := by
  unfold State.solveBegin
  repeat'
    first
      | with_reducible assumption | intro _ | with_reducible apply State.solveEnd_ok | with_reducible apply State.solvCount_ok
      | with_reducible apply State.setSolver_ok | with_reducible apply State.whenReadable_ok | with_reducible apply State.solveRun_ok | split
      | dsimp only | fail_if_no_progress with_reducible refine ok_mk ?_ rfl rfl rfl rfl rfl rfl

theorem State.solveCmd_ok {qs : List Instr} {s : State} {e : Nat} {ns : Nat} {kind : Nat} {x : Ecc} (hOk : Ok qs s) : Ok qs (State.solveCmd s e ns
    kind x) := by
  unfold State.solveCmd
  repeat'
    first
      | with_reducible assumption | intro _ | with_reducible apply State.whenReadable_ok | with_reducible apply State.solvCount_ok
      | with_reducible apply State.solveEnd_ok | with_reducible apply State.solveBegin_ok | split | dsimp only
      | fail_if_no_progress with_reducible refine ok_mk ?_ rfl rfl rfl rfl rfl rfl

theorem execQp_ok {qs : List Instr} {e : Fin 16} {ns : Nat} {ecc : Ecc} {s : State} (hOk : Ok qs s)  : OkOut qs (execQp e ns ecc s) := by
  unfold execQp
  repeat'
    first
      | with_reducible assumption | intro _ | with_reducible apply okOut_next | with_reducible apply State.solveCmd_ok | split | dsimp only
      | fail_if_no_progress with_reducible refine ok_mk ?_ rfl rfl rfl rfl rfl rfl

theorem execQpAdj_ok {qs : List Instr} {e : Fin 16} {ns : Nat} {ecc : Ecc} {s : State} (hOk : Ok qs s)  : OkOut qs (execQpAdj e ns ecc s) := by
  unfold execQpAdj
  repeat'
    first
      | with_reducible assumption | intro _ | with_reducible apply okOut_next | with_reducible apply State.solveCmd_ok | split | dsimp only
      | fail_if_no_progress with_reducible refine ok_mk ?_ rfl rfl rfl rfl rfl rfl

theorem execAdj_ok {qs : List Instr} {e : Fin 16} {ns : Nat} {ecc : Ecc} {s : State} (hOk : Ok qs s)  : OkOut qs (execAdj e ns ecc s) := by
  unfold execAdj
  repeat'
    first
      | with_reducible assumption | intro _ | with_reducible apply okOut_next | with_reducible apply State.solveCmd_ok | split | dsimp only
      | fail_if_no_progress with_reducible refine ok_mk ?_ rfl rfl rfl rfl rfl rfl

theorem execLinSym_ok {qs : List Instr} {e : Fin 16} {ns : Nat} {ecc : Ecc} {s : State} (hOk : Ok qs s)  : OkOut qs (execLinSym e ns ecc s) := by
  unfold execLinSym
  repeat'
    first
      | with_reducible assumption | intro _ | with_reducible apply okOut_next | with_reducible apply State.solveCmd_ok | split | dsimp only
      | fail_if_no_progress with_reducible refine ok_mk ?_ rfl rfl rfl rfl rfl rfl

theorem execLinGen_ok {qs : List Instr} {e : Fin 16} {ns : Nat} {ecc : Ecc} {s : State} (hOk : Ok qs s)  : OkOut qs (execLinGen e ns ecc s) := by
  unfold execLinGen
  repeat'
    first
      | with_reducible assumption | intro _ | with_reducible apply okOut_next | with_reducible apply State.solveCmd_ok | split | dsimp only
      | fail_if_no_progress with_reducible refine ok_mk ?_ rfl rfl rfl rfl rfl rfl

theorem execSolveDeadline_ok {qs : List Instr} {e : Fin 16} {ns : Nat} {s : State} (hOk : Ok qs s)  : OkOut qs (execSolveDeadline e ns s) := by
  unfold execSolveDeadline
  repeat'
    first
      | with_reducible assumption | intro _ | with_reducible apply okOut_next | with_reducible apply State.solveEnd_ok | split | dsimp only
      | fail_if_no_progress with_reducible refine ok_mk ?_ rfl rfl rfl rfl rfl rfl

theorem execSolveWaitRelease_ok {qs : List Instr} {e : Fin 16} {ns : Nat} {s : State} (hOk : Ok qs s)  : OkOut qs (execSolveWaitRelease e ns s) := by
  unfold execSolveWaitRelease
  repeat'
    first
      | with_reducible assumption | intro _ | with_reducible apply okOut_next | with_reducible apply State.setSolver_ok
      | with_reducible apply State.holdPath_ok | split | dsimp only | fail_if_no_progress with_reducible refine ok_mk ?_ rfl rfl rfl rfl rfl rfl

theorem State.solvTask_ok {qs : List Instr} {s : State} {e : Nat} {task : Nat} {entry : Nat} {arg : Nat} {ns : Nat} (hOk : Ok qs s)  : Ok qs
    (State.solvTask s e task entry arg ns) := by
  unfold State.solvTask
  repeat'
    first
      | with_reducible assumption | intro _ | with_reducible apply State.setSolver_ok | split | dsimp only
      | fail_if_no_progress with_reducible refine ok_mk ?_ rfl rfl rfl rfl rfl rfl

end Sys2Proof.Machine
end

