-- ==== Sys2Proof/Laws/KeepTrellis.lean ====
section
/-! SUPPORT. Every operation of Machine/Trellis.lean keeps what every command keeps. -/
namespace Sys2Proof.Machine
open Sys2Proof
set_option linter.unusedTactic false
set_option linter.unreachableTactic false

theorem State.setSession_ok {qs : List Instr} {s : State} {id : Nat} {x : Session} (hOk : Ok qs s)  : Ok qs (State.setSession s id x) := by
  unfold State.setSession
  repeat'
    first
      | with_reducible assumption | intro _ | with_reducible apply ok_id | split | dsimp only
      | fail_if_no_progress with_reducible refine ok_mk ?_ rfl rfl rfl rfl rfl rfl

theorem State.authFail_ok {qs : List Instr} {s : State} {port : Nat} (hOk : Ok qs s)  : Ok qs (State.authFail s port) := by
  unfold State.authFail
  repeat'
    first
      | with_reducible assumption | intro _ | with_reducible apply State.countEv_ok | split | dsimp only
      | fail_if_no_progress with_reducible refine ok_mk ?_ rfl rfl rfl rfl rfl rfl

theorem State.closeSession_ok {qs : List Instr} {s : State} {id : Nat} (hOk : Ok qs s)  : Ok qs (State.closeSession s id) := by
  unfold State.closeSession
  repeat'
    first
      | with_reducible assumption | intro _ | with_reducible apply State.txFrames_ok | with_reducible apply State.emit_ok
      | with_reducible apply ok_id | split | dsimp only | fail_if_no_progress with_reducible refine ok_mk ?_ rfl rfl rfl rfl rfl rfl

theorem State.closeSessions_ok {qs : List Instr} {s : State} {f : Session → Bool} (hOk : Ok qs s)  : Ok qs (State.closeSessions s f) := by
  unfold State.closeSessions
  repeat'
    first
      | with_reducible assumption | intro _ | with_reducible apply State.closeSession_ok | with_reducible apply ok_foldl
      | with_reducible apply ok_foldl_fst | split | dsimp only | fail_if_no_progress with_reducible refine ok_mk ?_ rfl rfl rfl rfl rfl rfl

theorem State.sendRecords_ok {qs : List Instr} {s : State} {id : Nat} {n : Nat} {m : Msg} (hOk : Ok qs s)  : Ok qs (State.sendRecords s id n m) := by
  unfold State.sendRecords
  repeat'
    first
      | with_reducible assumption | intro _ | with_reducible apply State.setSession_ok | with_reducible apply State.txFrames_ok
      | with_reducible apply State.emit_ok | with_reducible apply State.closeSession_ok | with_reducible apply ok_id | split | dsimp only
      | fail_if_no_progress with_reducible refine ok_mk ?_ rfl rfl rfl rfl rfl rfl

theorem State.sendReply_ok {qs : List Instr} {s : State} {id : Nat} {sub : Nat} {seq : Nat} {status : Nat} {run : Nat} {body : List Byte} (hOk : Ok
    qs s)  : Ok qs (State.sendReply s id sub seq status run body) := by
  unfold State.sendReply
  repeat'
    first
      | with_reducible assumption | intro _ | with_reducible apply State.sendRecords_ok | with_reducible apply ok_id | split | dsimp only
      | fail_if_no_progress with_reducible refine ok_mk ?_ rfl rfl rfl rfl rfl rfl

theorem State.refuse_ok {qs : List Instr} {s : State} {src : NetAddr} {hs : Nat} {reason : Nat} (hOk : Ok qs s)  : Ok qs (State.refuse s src hs
    reason) := by
  unfold State.refuse
  repeat'
    first
      | with_reducible assumption | intro _ | with_reducible apply State.txFrames_ok | with_reducible apply State.emit_ok
      | with_reducible apply State.countEv_ok | split | dsimp only | fail_if_no_progress with_reducible refine ok_mk ?_ rfl rfl rfl rfl rfl rfl

theorem State.judgeOpen_ok {qs : List Instr} {s : State} {src : NetAddr} {hs : Nat} {body : List Byte} (hOk : Ok qs s)  : Ok qs (State.judgeOpen s
    src hs body) := by
  unfold State.judgeOpen
  repeat'
    first
      | with_reducible assumption | intro _ | with_reducible apply State.refuse_ok | with_reducible apply State.countEv_ok
      | with_reducible apply State.addSat_ok | with_reducible apply State.draw_ok | with_reducible apply State.threadTo_ok
      | with_reducible apply State.setHeddle_ok | with_reducible apply State.setSession_ok | with_reducible apply State.txFrames_ok
      | with_reducible apply State.emit_ok | with_reducible apply ok_id | split | dsimp only
      | fail_if_no_progress with_reducible refine ok_mk ?_ rfl rfl rfl rfl rfl rfl

theorem execOpenSession_ok {qs : List Instr} {r : HsRecord} {s : State} (hOk : Ok qs s)  : OkOut qs (execOpenSession r s) := by
  unfold execOpenSession
  repeat'
    first
      | with_reducible assumption | intro _ | with_reducible apply okOut_next | with_reducible apply State.authFail_ok
      | with_reducible apply State.refuse_ok | with_reducible apply State.judgeOpen_ok | split | dsimp only
      | fail_if_no_progress with_reducible refine ok_mk ?_ rfl rfl rfl rfl rfl rfl

theorem execOpenFragmentTimeout_ok {qs : List Instr} {src : NetAddr} {hs : Dword} {s : State} (hOk : Ok qs s)  : OkOut qs (execOpenFragmentTimeout
    src hs s) := by
  unfold execOpenFragmentTimeout
  repeat'
    first
      | with_reducible assumption | intro _ | with_reducible apply okOut_next | split | dsimp only
      | fail_if_no_progress with_reducible refine ok_mk ?_ rfl rfl rfl rfl rfl rfl

theorem execConfirm_ok {qs : List Instr} {r : HsRecord} {s : State} (hOk : Ok qs s)  : OkOut qs (execConfirm r s) := by
  unfold execConfirm
  repeat'
    first
      | with_reducible assumption | intro _ | with_reducible apply okOut_next | with_reducible apply State.authFail_ok
      | with_reducible apply State.setSession_ok | with_reducible apply ok_id | split | dsimp only
      | fail_if_no_progress with_reducible refine ok_mk ?_ rfl rfl rfl rfl rfl rfl

theorem execConfirmTimeout_ok {qs : List Instr} {session : Word} {s : State} (hOk : Ok qs s)  : OkOut qs (execConfirmTimeout session s) := by
  unfold execConfirmTimeout
  repeat'
    first
      | with_reducible assumption | intro _ | with_reducible apply okOut_next | with_reducible apply State.setSession_ok
      | with_reducible apply State.closeSession_ok | split | dsimp only | fail_if_no_progress with_reducible refine ok_mk ?_ rfl rfl rfl rfl rfl rfl

theorem execData_ok {qs : List Instr} {r : HsRecord} {s : State} (hOk : Ok qs s)  : OkOut qs (execData r s) := by
  unfold execData
  repeat'
    first
      | with_reducible assumption | intro _ | with_reducible apply okOut_next | with_reducible apply State.authFail_ok
      | with_reducible apply State.addSat_ok | with_reducible apply State.setSession_ok | with_reducible apply State.closeSession_ok
      | with_reducible apply ok_id | split | dsimp only | fail_if_no_progress with_reducible refine ok_mk ?_ rfl rfl rfl rfl rfl rfl

theorem execRequestFragmentTimeout_ok {qs : List Instr} {session : Word} {sub : Fin 16} {seq : Word} {s : State} (hOk : Ok qs s)  : OkOut qs
    (execRequestFragmentTimeout session sub seq s) := by
  unfold execRequestFragmentTimeout
  repeat'
    first
      | with_reducible assumption | intro _ | with_reducible apply okOut_next | with_reducible apply State.setSession_ok | split | dsimp only
      | fail_if_no_progress with_reducible refine ok_mk ?_ rfl rfl rfl rfl rfl rfl

theorem execKeepalive_ok {qs : List Instr} {session : Word} {s : State} (hOk : Ok qs s)  : OkOut qs (execKeepalive session s) := by
  unfold execKeepalive
  repeat'
    first
      | with_reducible assumption | intro _ | with_reducible apply okOut_next | with_reducible apply State.sendRecords_ok | split | dsimp only
      | fail_if_no_progress with_reducible refine ok_mk ?_ rfl rfl rfl rfl rfl rfl

theorem execClose_ok {qs : List Instr} {session : Word} {s : State} (hOk : Ok qs s)  : OkOut qs (execClose session s) := by
  unfold execClose
  repeat'
    first
      | with_reducible assumption | intro _ | with_reducible apply okOut_next | with_reducible apply State.closeSession_ok | split | dsimp only
      | fail_if_no_progress with_reducible refine ok_mk ?_ rfl rfl rfl rfl rfl rfl

theorem execSessionIdleTimeout_ok {qs : List Instr} {session : Word} {s : State} (hOk : Ok qs s)  : OkOut qs (execSessionIdleTimeout session s) := by
  unfold execSessionIdleTimeout
  repeat'
    first
      | with_reducible assumption | intro _ | with_reducible apply okOut_next | with_reducible apply State.closeSession_ok | split | dsimp only
      | fail_if_no_progress with_reducible refine ok_mk ?_ rfl rfl rfl rfl rfl rfl

theorem State.writeBatch_ok {qs : List Instr} {s : State} {p : Nat} {v : Nat} {l : Layout} (hOk : Ok qs s)  : Ok qs (State.writeBatch s p v l) := by
  unfold State.writeBatch
  repeat'
    first
      | with_reducible assumption | intro _ | with_reducible apply State.writeMem_ok | with_reducible apply ok_foldl
      | with_reducible apply ok_foldl_fst | split | dsimp only | fail_if_no_progress with_reducible refine ok_mk ?_ rfl rfl rfl rfl rfl rfl

theorem State.startBatches_ok {qs : List Instr} {s : State} {v : Nat} (hOk : Ok qs s)  : Ok qs (State.startBatches s v) := by
  unfold State.startBatches
  repeat'
    first
      | with_reducible assumption | intro _ | with_reducible apply State.writeBatch_ok | with_reducible apply ok_foldl
      | with_reducible apply ok_foldl_fst | split | dsimp only | fail_if_no_progress with_reducible refine ok_mk ?_ rfl rfl rfl rfl rfl rfl

theorem State.replyNow_ok {qs : List Instr} {s : State} {id : Nat} {x : Session} {r : Request} {status : Nat} (hOk : Ok qs s)  : Ok qs
    (State.replyNow s id x r status) := by
  unfold State.replyNow
  repeat'
    first
      | with_reducible assumption | intro _ | with_reducible apply State.setSession_ok | with_reducible apply State.addWrap_ok
      | with_reducible apply State.sendReply_ok | with_reducible apply ok_id | split | dsimp only
      | fail_if_no_progress with_reducible refine ok_mk ?_ rfl rfl rfl rfl rfl rfl

theorem State.newRequest_ok {qs : List Instr} {s : State} {id : Nat} {x : Session} {op : Nat} {r : Request} (hOk : Ok qs s)  : Ok qs
    (State.newRequest s id x op r) := by
  unfold State.newRequest
  repeat'
    first
      | with_reducible assumption | intro _ | with_reducible apply State.replyNow_ok | with_reducible apply State.countEv_ok
      | with_reducible apply State.addSat_ok | with_reducible apply State.sendReply_ok | with_reducible apply State.setSession_ok
      | with_reducible apply State.addWrap_ok | with_reducible apply ok_id | split | dsimp only
      | fail_if_no_progress with_reducible refine ok_mk ?_ rfl rfl rfl rfl rfl rfl

theorem State.wakeRequest_ok {qs : List Instr} {s : State} (hOk : Ok qs s)  : Ok qs (State.wakeRequest s) := by
  unfold State.wakeRequest
  repeat'
    first
      | with_reducible assumption | intro _ | with_reducible apply State.setFld_ok | split | dsimp only
      | fail_if_no_progress with_reducible refine ok_mk ?_ rfl rfl rfl rfl rfl rfl

theorem State.judgeRequest_ok {qs : List Instr} {s : State} {op : Nat} {r : Request} (hOk : Ok qs s)  : Ok qs (State.judgeRequest s op r) := by
  unfold State.judgeRequest
  repeat'
    first
      | with_reducible assumption | intro _ | with_reducible apply State.wakeRequest_ok | with_reducible apply State.addSat_ok
      | with_reducible apply State.sendReply_ok | with_reducible apply State.setSession_ok | with_reducible apply State.newRequest_ok
      | with_reducible apply ok_id | split | dsimp only | fail_if_no_progress with_reducible refine ok_mk ?_ rfl rfl rfl rfl rfl rfl

theorem execSolve_ok {qs : List Instr} {r : Request} {s : State} (hOk : Ok qs s)  : OkOut qs (execSolve r s) := by
  unfold execSolve
  repeat'
    first
      | with_reducible assumption | intro _ | with_reducible apply okOut_next | with_reducible apply State.judgeRequest_ok | split | dsimp only
      | fail_if_no_progress with_reducible refine ok_mk ?_ rfl rfl rfl rfl rfl rfl

theorem execEval_ok {qs : List Instr} {r : Request} {s : State} (hOk : Ok qs s)  : OkOut qs (execEval r s) := by
  unfold execEval
  repeat'
    first
      | with_reducible assumption | intro _ | with_reducible apply okOut_next | with_reducible apply State.judgeRequest_ok | split | dsimp only
      | fail_if_no_progress with_reducible refine ok_mk ?_ rfl rfl rfl rfl rfl rfl

theorem execPlan_ok {qs : List Instr} {r : Request} {s : State} (hOk : Ok qs s)  : OkOut qs (execPlan r s) := by
  unfold execPlan
  repeat'
    first
      | with_reducible assumption | intro _ | with_reducible apply okOut_next | with_reducible apply State.judgeRequest_ok | split | dsimp only
      | fail_if_no_progress with_reducible refine ok_mk ?_ rfl rfl rfl rfl rfl rfl

theorem State.releaseOne_ok {qs : List Instr} {s : State} {p : Nat} {v : Nat} {e : Nat} {k : Nat} {q : PendReq} (hOk : Ok qs s)  : Ok qs
    (State.releaseOne s p v e k q) := by
  unfold State.releaseOne
  repeat'
    first
      | with_reducible assumption | intro _ | with_reducible apply State.countEv_ok | with_reducible apply State.setSession_ok
      | with_reducible apply State.sendReply_ok | split | dsimp only | fail_if_no_progress with_reducible refine ok_mk ?_ rfl rfl rfl rfl rfl rfl

theorem State.releaseReplies_ok {qs : List Instr} {s : State} {v : Nat} {e : Nat} (hOk : Ok qs s)  : Ok qs (State.releaseReplies s v e) := by
  unfold State.releaseReplies
  repeat'
    first
      | with_reducible assumption | intro _ | with_reducible apply State.releaseOne_ok | with_reducible apply ok_foldl
      | with_reducible apply ok_foldl_fst | split | dsimp only | fail_if_no_progress with_reducible refine ok_mk ?_ rfl rfl rfl rfl rfl rfl

end Sys2Proof.Machine
end

