-- ==== Sys2Proof/Laws/KeepReset.lean ====
section
/-! SUPPORT. Every operation of Machine/Reset.lean keeps what every command keeps. -/
namespace Sys2Proof.Machine
open Sys2Proof
set_option linter.unusedTactic false
set_option linter.unreachableTactic false

theorem State.resetAll_ok {qs : List Instr} {s : State} (hOk : Ok qs s) : Ok qs (State.resetAll s) :=
  ⟨hOk.queue, rfl, hOk.nor, hOk.host, rfl⟩

theorem State.freeBytes_ok {qs : List Instr} {s : State} {a n : Nat} (hOk : Ok qs s) : Ok qs (State.freeBytes s a n) := by
  unfold State.freeBytes
  dsimp only
  split
  · exact ⟨hOk.queue, hOk.mem, hOk.nor, memWrite_wf hOk.host, hOk.lock⟩
  · exact ⟨hOk.queue, memWrite_wf hOk.mem, hOk.nor, hOk.host, hOk.lock⟩

theorem State.loseDirty_ok {qs : List Instr} {s : State} (hOk : Ok qs s)  : Ok qs (State.loseDirty s) := by
  unfold State.loseDirty
  repeat'
    first
      | with_reducible assumption | intro _ | with_reducible apply State.freeBytes_ok | with_reducible apply ok_foldl
      | with_reducible apply ok_foldl_fst | split | dsimp only | fail_if_no_progress with_reducible refine ok_mk ?_ rfl rfl rfl rfl rfl rfl

theorem State.warmReset_ok {qs : List Instr} {s : State} (hOk : Ok qs s) : Ok qs (State.warmReset s) := by
  have h := State.loseDirty_ok hOk
  have h1 := State.resetAll_ok h
  exact State.resetRec_ok ⟨h1.queue, memFilter_wf h.mem, h1.nor, h1.host, h1.lock⟩

theorem State.coldReset_ok {qs : List Instr} {s : State} (hOk : Ok qs s)  : Ok qs (State.coldReset s) := by
  unfold State.coldReset
  repeat'
    first
      | with_reducible assumption | intro _ | with_reducible apply State.resetAll_ok | split | dsimp only
      | fail_if_no_progress with_reducible refine ok_mk ?_ rfl rfl rfl rfl rfl rfl

theorem State.askWarm_ok {qs : List Instr} {s : State} (hOk : Ok qs s)  : Ok qs (State.askWarm s) := by
  unfold State.askWarm
  repeat'
    first
      | with_reducible assumption | intro _ | with_reducible apply State.warmReset_ok | split | dsimp only
      | fail_if_no_progress with_reducible refine ok_mk ?_ rfl rfl rfl rfl rfl rfl

theorem State.setTemp_ok {qs : List Instr} {s : State} {die : Nat} {t : Int} (hOk : Ok qs s)  : Ok qs (State.setTemp s die t) := by
  unfold State.setTemp
  repeat'
    first
      | with_reducible assumption | intro _ | split | dsimp only | fail_if_no_progress with_reducible refine ok_mk ?_ rfl rfl rfl rfl rfl rfl

theorem execResetNLow_ok {qs : List Instr} {us : Nat} {s : State} (hOk : Ok qs s)  : OkOut qs (execResetNLow us s) := by
  unfold execResetNLow
  repeat'
    first
      | with_reducible assumption | intro _ | with_reducible apply okOut_next | with_reducible apply State.askWarm_ok | split | dsimp only
      | fail_if_no_progress with_reducible refine ok_mk ?_ rfl rfl rfl rfl rfl rfl

theorem execHeldWarmReset_ok {qs : List Instr} {die : Fin 25} {temp : Int} {s : State} (hOk : Ok qs s)  : OkOut qs (execHeldWarmReset die temp s) :=
    by
  unfold execHeldWarmReset
  repeat'
    first
      | with_reducible assumption | intro _ | with_reducible apply okOut_next | with_reducible apply State.setTemp_ok
      | with_reducible apply State.warmReset_ok | split | dsimp only | fail_if_no_progress with_reducible refine ok_mk ?_ rfl rfl rfl rfl rfl rfl

theorem State.abandon_ok {qs : List Instr} {s : State} (hOk : Ok qs s)  : Ok qs (State.abandon s) := by
  unfold State.abandon
  repeat'
    first
      | with_reducible assumption | intro _ | split | dsimp only | fail_if_no_progress with_reducible refine ok_mk ?_ rfl rfl rfl rfl rfl rfl

theorem State.partReset_ok {qs : List Instr} {s : State} {p : Nat} (hOk : Ok qs s) : Ok qs (State.partReset s p) := by
  unfold State.partReset
  repeat'
    first
      | with_reducible assumption | intro _ | with_reducible apply State.closeSessions_ok | with_reducible apply State.resetQueues_ok
      | with_reducible apply State.releasePath_ok | with_reducible apply State.setSolver_ok | with_reducible apply State.resetRec_ok
      | with_reducible apply ok_foldl | with_reducible apply ok_foldl_fst | split | dsimp only
      | fail_if_no_progress with_reducible refine ok_mk ?_ rfl rfl rfl rfl rfl rfl

theorem execPartResetDone_ok {qs : List Instr} {p : Fin 8} {s : State} (hOk : Ok qs s)  : OkOut qs (execPartResetDone p s) := by
  unfold execPartResetDone
  repeat'
    first
      | with_reducible assumption | intro _ | with_reducible apply okOut_next | with_reducible apply State.partResets_ok | split | dsimp only
      | fail_if_no_progress with_reducible refine ok_mk ?_ rfl rfl rfl rfl rfl rfl

theorem State.mgmtRestart_ok {qs : List Instr} {s : State} (hOk : Ok qs s)  : Ok qs (State.mgmtRestart s) := by
  unfold State.mgmtRestart
  repeat'
    first
      | with_reducible assumption | intro _ | with_reducible apply State.closeSessions_ok | with_reducible apply State.setFld_ok
      | with_reducible apply State.resetRec_ok | split | dsimp only | fail_if_no_progress with_reducible refine ok_mk ?_ rfl rfl rfl rfl rfl rfl

theorem execWatchdogExpire_ok {qs : List Instr} {s : State} (hOk : Ok qs s)  : OkOut qs (execWatchdogExpire s) := by
  unfold execWatchdogExpire
  repeat'
    first
      | with_reducible assumption | intro _ | with_reducible apply okOut_next | with_reducible apply State.countEv_ok
      | with_reducible apply State.mgmtRestart_ok | split | dsimp only | fail_if_no_progress with_reducible refine ok_mk ?_ rfl rfl rfl rfl rfl rfl

theorem execMgmtSramUncorr_ok {qs : List Instr} {s : State} (hOk : Ok qs s)  : OkOut qs (execMgmtSramUncorr s) := by
  unfold execMgmtSramUncorr
  repeat'
    first
      | with_reducible assumption | intro _ | with_reducible apply okOut_next | with_reducible apply State.countEv_ok
      | with_reducible apply State.mgmtRestart_ok | split | dsimp only | fail_if_no_progress with_reducible refine ok_mk ?_ rfl rfl rfl rfl rfl rfl

end Sys2Proof.Machine
end

