-- ==== Sys2Proof/Laws/KeepSource.lean ====
section
/-! SUPPORT. Every operation of Machine/Source.lean keeps what every command keeps. -/
namespace Sys2Proof.Machine
open Sys2Proof
set_option linter.unusedTactic false
set_option linter.unreachableTactic false

theorem State.sourceLost_ok {qs : List Instr} {s : State} (hOk : Ok qs s)  : Ok qs (State.sourceLost s) := by
  unfold State.sourceLost
  repeat'
    first
      | with_reducible assumption | intro _ | with_reducible apply State.setFld_ok | with_reducible apply State.raise_ok | split | dsimp only
      | fail_if_no_progress with_reducible refine ok_mk ?_ rfl rfl rfl rfl rfl rfl

theorem execSourceLoss_ok {qs : List Instr} {s : State} (hOk : Ok qs s)  : OkOut qs (execSourceLoss s) := by
  unfold execSourceLoss
  repeat'
    first
      | with_reducible assumption | intro _ | with_reducible apply okOut_next | with_reducible apply State.sourceLost_ok | split | dsimp only
      | fail_if_no_progress with_reducible refine ok_mk ?_ rfl rfl rfl rfl rfl rfl

theorem execSourceReturn_ok {qs : List Instr} {offsetNs : Int} {s : State} (hOk : Ok qs s)  : OkOut qs (execSourceReturn offsetNs s) := by
  unfold execSourceReturn
  repeat'
    first
      | with_reducible assumption | intro _ | with_reducible apply okOut_next | with_reducible apply State.setFld_ok | split | dsimp only
      | fail_if_no_progress with_reducible refine ok_mk ?_ rfl rfl rfl rfl rfl rfl

theorem execPickInEdge_ok {qs : List Instr} {ns : Nat} {s : State} (hOk : Ok qs s)  : OkOut qs (execPickInEdge ns s) := by
  unfold execPickInEdge
  repeat'
    first
      | with_reducible assumption | intro _ | with_reducible apply okOut_next | with_reducible apply State.setFld_ok
      | with_reducible apply State.sourceLost_ok | split | dsimp only | fail_if_no_progress with_reducible refine ok_mk ?_ rfl rfl rfl rfl rfl rfl

theorem execPickOutEnd_ok {qs : List Instr} {s : State} (hOk : Ok qs s)  : OkOut qs (execPickOutEnd s) := by
  unfold execPickOutEnd
  repeat'
    first
      | with_reducible assumption | intro _ | with_reducible apply okOut_next | with_reducible apply State.emit_ok | split | dsimp only
      | fail_if_no_progress with_reducible refine ok_mk ?_ rfl rfl rfl rfl rfl rfl

theorem State.pickSetApply_ok {qs : List Instr} {s : State} {code : Nat} (hOk : Ok qs s)  : Ok qs (State.pickSetApply s code) := by
  unfold State.pickSetApply
  repeat'
    first
      | with_reducible assumption | intro _ | with_reducible apply State.countErr_ok | split | dsimp only
      | fail_if_no_progress with_reducible refine ok_mk ?_ rfl rfl rfl rfl rfl rfl

theorem execPickSetApply_ok {qs : List Instr} {ag : Agent} {hi : BitVec 16} {s : State} (hOk : Ok qs s)  : OkOut qs (execPickSetApply ag hi s) := by
  unfold execPickSetApply
  repeat'
    first
      | with_reducible assumption | intro _ | with_reducible apply okOut_next | with_reducible apply State.pageAct_ok
      | with_reducible apply State.setFld_ok | with_reducible apply State.pickSetApply_ok | split | dsimp only
      | fail_if_no_progress with_reducible refine ok_mk ?_ rfl rfl rfl rfl rfl rfl

end Sys2Proof.Machine
end

