-- ==== Sys2Proof/Laws/KeepPower.lean ====
section
/-! SUPPORT. Every operation of Machine/Power.lean keeps what every command keeps. -/
namespace Sys2Proof.Machine
open Sys2Proof
set_option linter.unusedTactic false
set_option linter.unreachableTactic false

theorem State.applyEnvelope_ok {qs : List Instr} {s : State} (hOk : Ok qs s)  : Ok qs (State.applyEnvelope s) := by
  unfold State.applyEnvelope
  repeat'
    first
      | with_reducible assumption | intro _ | split | dsimp only | fail_if_no_progress with_reducible refine ok_mk ?_ rfl rfl rfl rfl rfl rfl

theorem State.setAlert_ok {qs : List Instr} {s : State} (hOk : Ok qs s)  : Ok qs (State.setAlert s) := by
  unfold State.setAlert
  repeat'
    first
      | with_reducible assumption | intro _ | split | dsimp only | fail_if_no_progress with_reducible refine ok_mk ?_ rfl rfl rfl rfl rfl rfl

theorem State.setPwrState_ok {qs : List Instr} {s : State} {k : Nat} (hOk : Ok qs s)  : Ok qs (State.setPwrState s k) := by
  unfold State.setPwrState
  repeat'
    first
      | with_reducible assumption | intro _ | with_reducible apply State.setFld_ok | split | dsimp only
      | fail_if_no_progress with_reducible refine ok_mk ?_ rfl rfl rfl rfl rfl rfl

theorem execVstbyRise_ok {qs : List Instr} {vstby : Nat} {s : State} (hOk : Ok qs s)  : OkOut qs (execVstbyRise vstby s) := by
  unfold execVstbyRise
  repeat'
    first
      | with_reducible assumption | intro _ | with_reducible apply okOut_next | with_reducible apply State.setFld_ok | split | dsimp only
      | fail_if_no_progress with_reducible refine ok_mk ?_ rfl rfl rfl rfl rfl rfl

theorem execVinRise_ok {qs : List Instr} {vin : Nat} {s : State} (hOk : Ok qs s)  : OkOut qs (execVinRise vin s) := by
  unfold execVinRise
  repeat'
    first
      | with_reducible assumption | intro _ | with_reducible apply okOut_next | with_reducible apply State.setAlert_ok | split | dsimp only
      | fail_if_no_progress with_reducible refine ok_mk ?_ rfl rfl rfl rfl rfl rfl

theorem execPwrOkRise_ok {qs : List Instr} {s : State} (hOk : Ok qs s)  : OkOut qs (execPwrOkRise s) := by
  unfold execPwrOkRise
  repeat'
    first
      | with_reducible assumption | intro _ | with_reducible apply okOut_next | with_reducible apply State.setFld_ok | split | dsimp only
      | fail_if_no_progress with_reducible refine ok_mk ?_ rfl rfl rfl rfl rfl rfl

theorem State.releaseSag_ok {qs : List Instr} {s : State} {duration : Nat} {outcome : Nat} (hOk : Ok qs s)  : Ok qs (State.releaseSag s duration
    outcome) := by
  unfold State.releaseSag
  repeat'
    first
      | with_reducible assumption | intro _ | with_reducible apply State.outcome_ok | split | dsimp only
      | fail_if_no_progress with_reducible refine ok_mk ?_ rfl rfl rfl rfl rfl rfl

theorem State.sagBegin_ok {qs : List Instr} {s : State} {vin : Nat} {ns : Nat} (hOk : Ok qs s)  : Ok qs (State.sagBegin s vin ns) := by
  unfold State.sagBegin
  repeat'
    first
      | with_reducible assumption | intro _ | with_reducible apply State.countEv_ok | with_reducible apply State.setAlert_ok
      | with_reducible apply State.bookPush_ok | split | dsimp only | fail_if_no_progress with_reducible refine ok_mk ?_ rfl rfl rfl rfl rfl rfl

theorem execSagOnset_ok {qs : List Instr} {vin : Nat} {ns : Nat} {s : State} (hOk : Ok qs s)  : OkOut qs (execSagOnset vin ns s) := by
  unfold execSagOnset
  repeat'
    first
      | with_reducible assumption | intro _ | with_reducible apply okOut_next | with_reducible apply State.sagBegin_ok | split | dsimp only
      | fail_if_no_progress with_reducible refine ok_mk ?_ rfl rfl rfl rfl rfl rfl

theorem execSagEnd_ok {qs : List Instr} {vin : Nat} {ns : Nat} {s : State} (hOk : Ok qs s)  : OkOut qs (execSagEnd vin ns s) := by
  unfold execSagEnd
  repeat'
    first
      | with_reducible assumption | intro _ | with_reducible apply okOut_next | with_reducible apply State.releaseSag_ok
      | with_reducible apply State.setFld_ok | with_reducible apply State.setAlert_ok | split | dsimp only
      | fail_if_no_progress with_reducible refine ok_mk ?_ rfl rfl rfl rfl rfl rfl

theorem execSagRecordRelease_ok {qs : List Instr} {s : State} (hOk : Ok qs s)  : OkOut qs (execSagRecordRelease s) := by
  unfold execSagRecordRelease
  repeat'
    first
      | with_reducible assumption | intro _ | with_reducible apply okOut_next | with_reducible apply State.releaseSag_ok | split | dsimp only
      | fail_if_no_progress with_reducible refine ok_mk ?_ rfl rfl rfl rfl rfl rfl

theorem execRideThrough_ok {qs : List Instr} {vin : Nat} {s : State} (hOk : Ok qs s)  : OkOut qs (execRideThrough vin s) := by
  unfold execRideThrough
  repeat'
    first
      | with_reducible assumption | intro _ | with_reducible apply okOut_next | with_reducible apply State.sagBegin_ok
      | with_reducible apply State.setAlert_ok | split | dsimp only | fail_if_no_progress with_reducible refine ok_mk ?_ rfl rfl rfl rfl rfl rfl

theorem State.flushBook_ok {qs : List Instr} {s : State} {n : Nat} (hOk : Ok qs s) : Ok qs (State.flushBook s n) := by
  induction n generalizing s with
  | zero => exact hOk
  | succ n ih =>
  unfold State.flushBook
  repeat'
    first
      | with_reducible assumption | intro _ | with_reducible apply ih | with_reducible apply State.bookWriteNext_ok | split | dsimp only
      | fail_if_no_progress with_reducible refine ok_mk ?_ rfl rfl rfl rfl rfl rfl

theorem State.loss_ok {qs : List Instr} {s : State} {writable : Nat} (hOk : Ok qs s)  : Ok qs (State.loss s writable) := by
  unfold State.loss
  repeat'
    first
      | with_reducible assumption | intro _ | with_reducible apply State.releaseSag_ok | with_reducible apply State.coldReset_ok
      | with_reducible apply State.flushBook_ok | with_reducible apply State.countEv_ok | with_reducible apply State.writeRecord_ok
      | with_reducible apply State.setFld_ok | split | dsimp only | fail_if_no_progress with_reducible refine ok_mk ?_ rfl rfl rfl rfl rfl rfl

theorem execLossSequence_ok {qs : List Instr} {writable : Nat} {s : State} (hOk : Ok qs s)  : OkOut qs (execLossSequence writable s) := by
  unfold execLossSequence
  repeat'
    first
      | with_reducible assumption | intro _ | with_reducible apply okOut_next | with_reducible apply State.loss_ok | split | dsimp only
      | fail_if_no_progress with_reducible refine ok_mk ?_ rfl rfl rfl rfl rfl rfl

theorem execPwrOkFall_ok {qs : List Instr} {s : State} (hOk : Ok qs s)  : OkOut qs (execPwrOkFall s) := by
  unfold execPwrOkFall
  repeat'
    first
      | with_reducible assumption | intro _ | with_reducible apply okOut_next | with_reducible apply State.loss_ok | split | dsimp only
      | fail_if_no_progress with_reducible refine ok_mk ?_ rfl rfl rfl rfl rfl rfl

theorem execLimiterStep_ok {qs : List Instr} {watts : Nat} {windowEnd : Bool} {s : State} (hOk : Ok qs s)  : OkOut qs (execLimiterStep watts
    windowEnd s) := by
  unfold execLimiterStep
  repeat'
    first
      | with_reducible assumption | intro _ | with_reducible apply okOut_next | with_reducible apply State.setFld_ok
      | with_reducible apply State.countEv_ok | split | dsimp only | fail_if_no_progress with_reducible refine ok_mk ?_ rfl rfl rfl rfl rfl rfl

theorem State.thermalRec_ok {qs : List Instr} {s : State} {kind : Nat} {die : Nat} {temp : Int} (hOk : Ok qs s)  : Ok qs (State.thermalRec s kind die
    temp) := by
  unfold State.thermalRec
  repeat'
    first
      | with_reducible assumption | intro _ | with_reducible apply State.bookPush_ok | split | dsimp only
      | fail_if_no_progress with_reducible refine ok_mk ?_ rfl rfl rfl rfl rfl rfl

theorem execThermWarn_ok {qs : List Instr} {die : Fin 25} {temp : Int} {s : State} (hOk : Ok qs s)  : OkOut qs (execThermWarn die temp s) := by
  unfold execThermWarn
  repeat'
    first
      | with_reducible assumption | intro _ | with_reducible apply okOut_next | with_reducible apply State.setTemp_ok
      | with_reducible apply State.setAlert_ok | with_reducible apply State.raise_ok | with_reducible apply State.thermalRec_ok | split
      | dsimp only | fail_if_no_progress with_reducible refine ok_mk ?_ rfl rfl rfl rfl rfl rfl

theorem execThermalClockStep_ok {qs : List Instr} {die : Fin 25} {temp : Int} {s : State} (hOk : Ok qs s)  : OkOut qs (execThermalClockStep die temp
    s) := by
  unfold execThermalClockStep
  repeat'
    first
      | with_reducible assumption | intro _ | with_reducible apply okOut_next | with_reducible apply State.setTemp_ok
      | with_reducible apply State.setAlert_ok | with_reducible apply State.countEv_ok | with_reducible apply State.thermalRec_ok | split
      | dsimp only | fail_if_no_progress with_reducible refine ok_mk ?_ rfl rfl rfl rfl rfl rfl

theorem State.shutdown_ok {qs : List Instr} {s : State} (hOk : Ok qs s) : Ok qs (State.shutdown s) := by
  unfold State.shutdown
  repeat'
    first
      | with_reducible assumption | intro _ | with_reducible apply State.abandon_ok | with_reducible apply State.modPick_ok
      | with_reducible apply State.setPwrState_ok | split | dsimp only | fail_if_no_progress with_reducible refine ok_mk ?_ rfl rfl rfl rfl rfl rfl

theorem execThermCrit_ok {qs : List Instr} {die : Fin 25} {temp : Int} {s : State} (hOk : Ok qs s)  : OkOut qs (execThermCrit die temp s) := by
  unfold execThermCrit
  repeat'
    first
      | with_reducible assumption | intro _ | with_reducible apply okOut_next | with_reducible apply State.setTemp_ok
      | with_reducible apply State.setAlert_ok | with_reducible apply State.shutdown_ok | with_reducible apply State.raise_ok
      | with_reducible apply State.thermalRec_ok | split | dsimp only | fail_if_no_progress with_reducible refine ok_mk ?_ rfl rfl rfl rfl rfl rfl

theorem execRefclkLost_ok {qs : List Instr} {clk : Fin 3} {s : State} (hOk : Ok qs s)  : OkOut qs (execRefclkLost clk s) := by
  unfold execRefclkLost
  repeat'
    first
      | with_reducible assumption | intro _ | with_reducible apply okOut_next | with_reducible apply State.linkDownHost_ok
      | with_reducible apply State.shutdown_ok | with_reducible apply State.linkDown_ok | with_reducible apply State.portDown_ok
      | with_reducible apply State.raise_ok | with_reducible apply ok_foldl | with_reducible apply ok_foldl_fst | split | dsimp only
      | fail_if_no_progress with_reducible refine ok_mk ?_ rfl rfl rfl rfl rfl rfl

theorem State.dormEnter_ok {qs : List Instr} {s : State} {code : Nat} (hOk : Ok qs s)  : Ok qs (State.dormEnter s code) := by
  unfold State.dormEnter
  repeat'
    first
      | with_reducible assumption | intro _ | with_reducible apply State.countErr_ok | with_reducible apply State.setPwrState_ok
      | with_reducible apply State.setFld_ok | with_reducible apply State.backSnoop_ok | with_reducible apply ok_foldl
      | with_reducible apply ok_foldl_fst | split | dsimp only | fail_if_no_progress with_reducible refine ok_mk ?_ rfl rfl rfl rfl rfl rfl

theorem execEnter_ok {qs : List Instr} {ag : Agent} {s : State} (hOk : Ok qs s)  : OkOut qs (execEnter ag s) := by
  unfold execEnter
  repeat'
    first
      | with_reducible assumption | intro _ | with_reducible apply okOut_next | with_reducible apply State.pageAct_ok
      | with_reducible apply State.dormEnter_ok | split | dsimp only | fail_if_no_progress with_reducible refine ok_mk ?_ rfl rfl rfl rfl rfl rfl

theorem State.wakeStart_ok {qs : List Instr} {s : State} (hOk : Ok qs s)  : Ok qs (State.wakeStart s) := by
  unfold State.wakeStart
  repeat'
    first
      | with_reducible assumption | intro _ | with_reducible apply State.setPwrState_ok | split | dsimp only
      | fail_if_no_progress with_reducible refine ok_mk ?_ rfl rfl rfl rfl rfl rfl

theorem State.wake_ok {qs : List Instr} {s : State} (hOk : Ok qs s)  : Ok qs (State.wake s) := by
  unfold State.wake
  repeat'
    first
      | with_reducible assumption | intro _ | with_reducible apply State.wakeStart_ok | split | dsimp only
      | fail_if_no_progress with_reducible refine ok_mk ?_ rfl rfl rfl rfl rfl rfl

theorem State.loseCores_ok {qs : List Instr} {s : State} (hOk : Ok qs s) : Ok qs (State.loseCores s) :=
  ⟨hOk.queue, memFilter_wf hOk.mem, hOk.nor, hOk.host, hOk.lock⟩

theorem execDormantEntryComplete_ok {qs : List Instr} {s : State} (hOk : Ok qs s)  : OkOut qs (execDormantEntryComplete s) := by
  unfold execDormantEntryComplete
  repeat'
    first
      | with_reducible assumption | intro _ | with_reducible apply okOut_next | with_reducible apply State.writeBack_ok
      | with_reducible apply State.setLinkState_ok | with_reducible apply State.sourceLost_ok | with_reducible apply State.loseCores_ok
      | with_reducible apply State.setPwrState_ok | with_reducible apply State.setFld_ok | with_reducible apply State.addWrap_ok
      | with_reducible apply State.raise_ok | with_reducible apply State.wakeStart_ok | with_reducible apply ok_foldl
      | with_reducible apply ok_foldl_fst | split | dsimp only | fail_if_no_progress with_reducible refine ok_mk ?_ rfl rfl rfl rfl rfl rfl

theorem State.wakeReg_ok {qs : List Instr} {s : State} (hOk : Ok qs s)  : Ok qs (State.wakeReg s) := by
  unfold State.wakeReg
  repeat'
    first
      | with_reducible assumption | intro _ | with_reducible apply State.wake_ok | with_reducible apply State.setFld_ok | split | dsimp only
      | fail_if_no_progress with_reducible refine ok_mk ?_ rfl rfl rfl rfl rfl rfl

theorem execWake_ok {qs : List Instr} {ag : Agent} {s : State} (hOk : Ok qs s)  : OkOut qs (execWake ag s) := by
  unfold execWake
  repeat'
    first
      | with_reducible assumption | intro _ | with_reducible apply okOut_next | with_reducible apply State.pageAct_ok
      | with_reducible apply State.wakeReg_ok | split | dsimp only | fail_if_no_progress with_reducible refine ok_mk ?_ rfl rfl rfl rfl rfl rfl

theorem execWakeN_ok {qs : List Instr} {ns : Nat} {s : State} (hOk : Ok qs s)  : OkOut qs (execWakeN ns s) := by
  unfold execWakeN
  repeat'
    first
      | with_reducible assumption | intro _ | with_reducible apply okOut_next | with_reducible apply State.wake_ok | split | dsimp only
      | fail_if_no_progress with_reducible refine ok_mk ?_ rfl rfl rfl rfl rfl rfl

theorem execWakeComplete_ok {qs : List Instr} {s : State} (hOk : Ok qs s) : OkOut qs (execWakeComplete s) := by
  unfold execWakeComplete
  repeat'
    first
      | with_reducible assumption | intro _ | with_reducible apply okOut_next | with_reducible apply State.setPwrState_ok
      | with_reducible apply State.setFld_ok | with_reducible apply State.linkTrain_ok | with_reducible apply State.raise_ok
      | with_reducible apply ok_foldl | with_reducible apply ok_foldl_fst | split | dsimp only
      | fail_if_no_progress with_reducible refine ok_mk ?_ rfl rfl rfl rfl rfl rfl

end Sys2Proof.Machine
end

