-- ==== Sys2Proof/Laws/KeepCommit.lean ====
section
/-! SUPPORT. Every operation of Machine/Commit.lean keeps what every command keeps. -/
namespace Sys2Proof.Machine
open Sys2Proof
set_option linter.unusedTactic false
set_option linter.unreachableTactic false

theorem State.resulting_ok {qs : List Instr} {s : State} {pages : List (Nat × Nat)} (hOk : Ok qs s)  : Ok qs (State.resulting s pages) := by
  unfold State.resulting
  repeat'
    first
      | with_reducible assumption | intro _ | with_reducible apply ok_foldl | with_reducible apply ok_foldl_fst | split | dsimp only
      | fail_if_no_progress with_reducible refine ok_mk ?_ rfl rfl rfl rfl rfl rfl

theorem State.commitRec_ok {qs : List Instr} {s : State} {a : Armed} (hOk : Ok qs s)  : Ok qs (State.commitRec s a) := by
  unfold State.commitRec
  repeat'
    first
      | with_reducible assumption | intro _ | with_reducible apply State.bookPush_ok | split | dsimp only
      | fail_if_no_progress with_reducible refine ok_mk ?_ rfl rfl rfl rfl rfl rfl

theorem State.setCommit_ok {qs : List Instr} {s : State} {st : Nat} {reason : Nat} (hOk : Ok qs s)  : Ok qs (State.setCommit s st reason) := by
  unfold State.setCommit
  repeat'
    first
      | with_reducible assumption | intro _ | with_reducible apply State.setFld_ok | split | dsimp only
      | fail_if_no_progress with_reducible refine ok_mk ?_ rfl rfl rfl rfl rfl rfl

theorem State.commitReject_ok {qs : List Instr} {s : State} {a : Armed} {reason : Nat} {p : Nat × Nat} (hOk : Ok qs s)  : Ok qs (State.commitReject s
    a reason p) := by
  unfold State.commitReject
  repeat'
    first
      | with_reducible assumption | intro _ | with_reducible apply State.setCommit_ok | with_reducible apply State.setFld_ok
      | with_reducible apply State.raise_ok | with_reducible apply State.commitRec_ok | with_reducible apply ok_foldl
      | with_reducible apply ok_foldl_fst | split | dsimp only | fail_if_no_progress with_reducible refine ok_mk ?_ rfl rfl rfl rfl rfl rfl

theorem State.arm_ok {qs : List Instr} {s : State} {code : Nat} (hOk : Ok qs s)  : Ok qs (State.arm s code) := by
  unfold State.arm
  repeat'
    first
      | with_reducible assumption | intro _ | with_reducible apply State.countErr_ok | with_reducible apply State.setCommit_ok
      | with_reducible apply State.raise_ok | with_reducible apply State.commitReject_ok | split | dsimp only
      | fail_if_no_progress with_reducible refine ok_mk ?_ rfl rfl rfl rfl rfl rfl

theorem State.cancel_ok {qs : List Instr} {s : State} (hOk : Ok qs s)  : Ok qs (State.cancel s) := by
  unfold State.cancel
  repeat'
    first
      | with_reducible assumption | intro _ | with_reducible apply State.setCommit_ok | with_reducible apply State.raise_ok
      | with_reducible apply State.commitRec_ok | split | dsimp only | fail_if_no_progress with_reducible refine ok_mk ?_ rfl rfl rfl rfl rfl rfl

theorem execArm_ok {qs : List Instr} {ag : Agent} {s : State} (hOk : Ok qs s)  : OkOut qs (execArm ag s) := by
  unfold execArm
  repeat'
    first
      | with_reducible assumption | intro _ | with_reducible apply okOut_next | with_reducible apply State.pageAct_ok
      | with_reducible apply State.arm_ok | split | dsimp only | fail_if_no_progress with_reducible refine ok_mk ?_ rfl rfl rfl rfl rfl rfl

theorem execCancel_ok {qs : List Instr} {ag : Agent} {s : State} (hOk : Ok qs s)  : OkOut qs (execCancel ag s) := by
  unfold execCancel
  repeat'
    first
      | with_reducible assumption | intro _ | with_reducible apply okOut_next | with_reducible apply State.pageAct_ok
      | with_reducible apply State.cancel_ok | split | dsimp only | fail_if_no_progress with_reducible refine ok_mk ?_ rfl rfl rfl rfl rfl rfl

theorem State.sourceCommit_ok {qs : List Instr} {s : State} {changed : List Nat} (hOk : Ok qs s) : Ok qs (State.sourceCommit s changed) := by
  unfold State.sourceCommit
  repeat'
    first
      | with_reducible assumption | intro _ | with_reducible apply State.setFld_ok | with_reducible apply State.modPick_ok | split | dsimp only
      | fail_if_no_progress with_reducible refine ok_mk ?_ rfl rfl rfl rfl rfl rfl

theorem State.commitUnits_ok {qs : List Instr} {s : State} {changed : List Nat} (hOk : Ok qs s) : Ok qs (State.commitUnits s changed) := by
  unfold State.commitUnits
  repeat'
    first
      | with_reducible assumption | intro _ | with_reducible apply State.linkCommit_ok | with_reducible apply State.sourceCommit_ok
      | with_reducible apply State.applyEnvelope_ok | with_reducible apply State.granCommit_ok | with_reducible apply State.closeSessions_ok
      | with_reducible apply State.stopQueues_ok | with_reducible apply State.permSync_ok | with_reducible apply ok_foldl
      | with_reducible apply ok_foldl_fst | split | dsimp only | fail_if_no_progress with_reducible refine ok_mk ?_ rfl rfl rfl rfl rfl rfl

theorem State.commitApply_ok {qs : List Instr} {s : State} {a : Armed} (hOk : Ok qs s)  : Ok qs (State.commitApply s a) := by
  unfold State.commitApply
  repeat'
    first
      | with_reducible assumption | intro _ | with_reducible apply State.resulting_ok | with_reducible apply State.setFld_ok
      | with_reducible apply State.raise_ok | with_reducible apply State.setCommit_ok | with_reducible apply State.commitRec_ok
      | with_reducible apply State.commitUnits_ok | with_reducible apply ok_foldl | with_reducible apply ok_foldl_fst | split | dsimp only
      | fail_if_no_progress with_reducible refine ok_mk ?_ rfl rfl rfl rfl rfl rfl

theorem State.commitEdge_ok {qs : List Instr} {s : State} (hOk : Ok qs s)  : Ok qs (State.commitEdge s) := by
  unfold State.commitEdge
  repeat'
    first
      | with_reducible assumption | intro _ | with_reducible apply State.commitReject_ok | with_reducible apply State.commitApply_ok | split
      | dsimp only | fail_if_no_progress with_reducible refine ok_mk ?_ rfl rfl rfl rfl rfl rfl

end Sys2Proof.Machine
end

