-- ==== Sys2Proof/Laws/KeepCounters.lean ====
section
/-! SUPPORT. Every operation of Machine/Counters.lean keeps what every command keeps. -/
namespace Sys2Proof.Machine
open Sys2Proof
set_option linter.unusedTactic false
set_option linter.unreachableTactic false

theorem State.coreClr_ok {qs : List Instr} {s : State} {i : Nat} (hOk : Ok qs s)  : Ok qs (State.coreClr s i) := by
  unfold State.coreClr
  repeat'
    first
      | with_reducible assumption | intro _ | with_reducible apply State.clearRange_ok | split | dsimp only
      | fail_if_no_progress with_reducible refine ok_mk ?_ rfl rfl rfl rfl rfl rfl

theorem State.epiClr_ok {qs : List Instr} {s : State} {i : Nat} (hOk : Ok qs s)  : Ok qs (State.epiClr s i) := by
  unfold State.epiClr
  repeat'
    first
      | with_reducible assumption | intro _ | with_reducible apply State.clearRange_ok | split | dsimp only
      | fail_if_no_progress with_reducible refine ok_mk ?_ rfl rfl rfl rfl rfl rfl

theorem State.vecCoin_ok {qs : List Instr} {s : State} {i : Nat} {k : Nat} (hOk : Ok qs s)  : Ok qs (State.vecCoin s i k) := by
  unfold State.vecCoin
  repeat'
    first
      | with_reducible assumption | intro _ | with_reducible apply State.setFld_ok | with_reducible apply State.raise_ok
      | with_reducible apply State.fault_ok | split | dsimp only | fail_if_no_progress with_reducible refine ok_mk ?_ rfl rfl rfl rfl rfl rfl

theorem State.vecClr_ok {qs : List Instr} {s : State} {i : Nat} {coin : List Nat} (hOk : Ok qs s)  : Ok qs (State.vecClr s i coin) := by
  unfold State.vecClr
  repeat'
    first
      | with_reducible assumption | intro _ | with_reducible apply State.vecCoin_ok | with_reducible apply State.clearRange_ok
      | with_reducible apply ok_foldl | with_reducible apply ok_foldl_fst | split | dsimp only
      | fail_if_no_progress with_reducible refine ok_mk ?_ rfl rfl rfl rfl rfl rfl

theorem State.strClr_ok {qs : List Instr} {s : State} {i : Nat} (hOk : Ok qs s)  : Ok qs (State.strClr s i) := by
  unfold State.strClr
  repeat'
    first
      | with_reducible assumption | intro _ | with_reducible apply State.clearRange_ok | split | dsimp only
      | fail_if_no_progress with_reducible refine ok_mk ?_ rfl rfl rfl rfl rfl rfl

theorem State.solvClr_ok {qs : List Instr} {s : State} {i : Nat} (hOk : Ok qs s)  : Ok qs (State.solvClr s i) := by
  unfold State.solvClr
  repeat'
    first
      | with_reducible assumption | intro _ | with_reducible apply State.clearRange_ok | split | dsimp only
      | fail_if_no_progress with_reducible refine ok_mk ?_ rfl rfl rfl rfl rfl rfl

theorem State.dieClr_ok {qs : List Instr} {s : State} {i : Nat} (hOk : Ok qs s)  : Ok qs (State.dieClr s i) := by
  unfold State.dieClr
  repeat'
    first
      | with_reducible assumption | intro _ | with_reducible apply State.clearRange_ok | split | dsimp only
      | fail_if_no_progress with_reducible refine ok_mk ?_ rfl rfl rfl rfl rfl rfl

theorem State.celClr_ok {qs : List Instr} {s : State} {i : Nat} (hOk : Ok qs s)  : Ok qs (State.celClr s i) := by
  unfold State.celClr
  repeat'
    first
      | with_reducible assumption | intro _ | with_reducible apply State.clearRange_ok | split | dsimp only
      | fail_if_no_progress with_reducible refine ok_mk ?_ rfl rfl rfl rfl rfl rfl

theorem State.stkClr_ok {qs : List Instr} {s : State} {i : Nat} (hOk : Ok qs s)  : Ok qs (State.stkClr s i) := by
  unfold State.stkClr
  repeat'
    first
      | with_reducible assumption | intro _ | with_reducible apply State.clearRange_ok | split | dsimp only
      | fail_if_no_progress with_reducible refine ok_mk ?_ rfl rfl rfl rfl rfl rfl

theorem State.updClr_ok {qs : List Instr} {s : State} {i : Nat} (hOk : Ok qs s)  : Ok qs (State.updClr s i) := by
  unfold State.updClr
  repeat'
    first
      | with_reducible assumption | intro _ | with_reducible apply State.clearRange_ok | split | dsimp only
      | fail_if_no_progress with_reducible refine ok_mk ?_ rfl rfl rfl rfl rfl rfl

theorem State.linkClr_ok {qs : List Instr} {s : State} {i : Nat} (hOk : Ok qs s)  : Ok qs (State.linkClr s i) := by
  unfold State.linkClr
  repeat'
    first
      | with_reducible assumption | intro _ | with_reducible apply State.clearRange_ok | split | dsimp only
      | fail_if_no_progress with_reducible refine ok_mk ?_ rfl rfl rfl rfl rfl rfl

theorem State.hedClr_ok {qs : List Instr} {s : State} (hOk : Ok qs s)  : Ok qs (State.hedClr s) := by
  unfold State.hedClr
  repeat'
    first
      | with_reducible assumption | intro _ | with_reducible apply State.clearRange_ok | split | dsimp only
      | fail_if_no_progress with_reducible refine ok_mk ?_ rfl rfl rfl rfl rfl rfl

theorem State.collClr_ok {qs : List Instr} {s : State} {i : Nat} (hOk : Ok qs s)  : Ok qs (State.collClr s i) := by
  unfold State.collClr
  repeat'
    first
      | with_reducible assumption | intro _ | with_reducible apply State.clearRange_ok | split | dsimp only
      | fail_if_no_progress with_reducible refine ok_mk ?_ rfl rfl rfl rfl rfl rfl

theorem State.audClr_ok {qs : List Instr} {s : State} (hOk : Ok qs s)  : Ok qs (State.audClr s) := by
  unfold State.audClr
  repeat'
    first
      | with_reducible assumption | intro _ | with_reducible apply State.clearRange_ok | with_reducible apply State.hashed_ok | split | dsimp only
      | fail_if_no_progress with_reducible refine ok_mk ?_ rfl rfl rfl rfl rfl rfl

theorem State.portClr_ok {qs : List Instr} {s : State} {i : Nat} (hOk : Ok qs s)  : Ok qs (State.portClr s i) := by
  unfold State.portClr
  repeat'
    first
      | with_reducible assumption | intro _ | with_reducible apply State.clearRange_ok | split | dsimp only
      | fail_if_no_progress with_reducible refine ok_mk ?_ rfl rfl rfl rfl rfl rfl

theorem State.trClr_ok {qs : List Instr} {s : State} (hOk : Ok qs s)  : Ok qs (State.trClr s) := by
  unfold State.trClr
  repeat'
    first
      | with_reducible assumption | intro _ | with_reducible apply State.clearRange_ok | split | dsimp only
      | fail_if_no_progress with_reducible refine ok_mk ?_ rfl rfl rfl rfl rfl rfl

theorem State.hostClr_ok {qs : List Instr} {s : State} (hOk : Ok qs s)  : Ok qs (State.hostClr s) := by
  unfold State.hostClr
  repeat'
    first
      | with_reducible assumption | intro _ | with_reducible apply State.clearRange_ok | split | dsimp only
      | fail_if_no_progress with_reducible refine ok_mk ?_ rfl rfl rfl rfl rfl rfl

theorem State.mgmtClr_ok {qs : List Instr} {s : State} (hOk : Ok qs s)  : Ok qs (State.mgmtClr s) := by
  unfold State.mgmtClr
  repeat'
    first
      | with_reducible assumption | intro _ | with_reducible apply State.clearRange_ok | split | dsimp only
      | fail_if_no_progress with_reducible refine ok_mk ?_ rfl rfl rfl rfl rfl rfl

theorem State.secClr_ok {qs : List Instr} {s : State} (hOk : Ok qs s)  : Ok qs (State.secClr s) := by
  unfold State.secClr
  repeat'
    first
      | with_reducible assumption | intro _ | with_reducible apply State.clearRange_ok | split | dsimp only
      | fail_if_no_progress with_reducible refine ok_mk ?_ rfl rfl rfl rfl rfl rfl

theorem State.bookClr_ok {qs : List Instr} {s : State} (hOk : Ok qs s)  : Ok qs (State.bookClr s) := by
  unfold State.bookClr
  repeat'
    first
      | with_reducible assumption | intro _ | with_reducible apply State.clearRange_ok | split | dsimp only
      | fail_if_no_progress with_reducible refine ok_mk ?_ rfl rfl rfl rfl rfl rfl

theorem State.pwrClr_ok {qs : List Instr} {s : State} (hOk : Ok qs s)  : Ok qs (State.pwrClr s) := by
  unfold State.pwrClr
  repeat'
    first
      | with_reducible assumption | intro _ | with_reducible apply State.clearRange_ok | split | dsimp only
      | fail_if_no_progress with_reducible refine ok_mk ?_ rfl rfl rfl rfl rfl rfl

theorem execCntClr_ok {qs : List Instr} {ag : Agent} {inst : Fin 512} {s : State} (hOk : Ok qs s)  : OkOut qs (execCntClr ag inst s) := by
  unfold execCntClr
  repeat'
    first
      | with_reducible assumption | intro _ | with_reducible apply okOut_next | with_reducible apply State.pageAct_ok
      | with_reducible apply State.coreClr_ok | split | dsimp only | fail_if_no_progress with_reducible refine ok_mk ?_ rfl rfl rfl rfl rfl rfl

theorem execEpiCntClr_ok {qs : List Instr} {ag : Agent} {inst : Fin 512} {s : State} (hOk : Ok qs s)  : OkOut qs (execEpiCntClr ag inst s) := by
  unfold execEpiCntClr
  repeat'
    first
      | with_reducible assumption | intro _ | with_reducible apply okOut_next | with_reducible apply State.pageAct_ok
      | with_reducible apply State.epiClr_ok | split | dsimp only | fail_if_no_progress with_reducible refine ok_mk ?_ rfl rfl rfl rfl rfl rfl

theorem execVecCntClr_ok {qs : List Instr} {ag : Agent} {inst : Fin 512} {coin : List (Fin 11)} {s : State} (hOk : Ok qs s)  : OkOut qs
    (execVecCntClr ag inst coin s) := by
  unfold execVecCntClr
  repeat'
    first
      | with_reducible assumption | intro _ | with_reducible apply okOut_next | with_reducible apply State.pageAct_ok
      | with_reducible apply State.vecClr_ok | split | dsimp only | fail_if_no_progress with_reducible refine ok_mk ?_ rfl rfl rfl rfl rfl rfl

theorem execStrCntClr_ok {qs : List Instr} {ag : Agent} {inst : Fin 512} {s : State} (hOk : Ok qs s)  : OkOut qs (execStrCntClr ag inst s) := by
  unfold execStrCntClr
  repeat'
    first
      | with_reducible assumption | intro _ | with_reducible apply okOut_next | with_reducible apply State.pageAct_ok
      | with_reducible apply State.strClr_ok | split | dsimp only | fail_if_no_progress with_reducible refine ok_mk ?_ rfl rfl rfl rfl rfl rfl

theorem execSolvCntClr_ok {qs : List Instr} {ag : Agent} {inst : Fin 16} {s : State} (hOk : Ok qs s)  : OkOut qs (execSolvCntClr ag inst s) := by
  unfold execSolvCntClr
  repeat'
    first
      | with_reducible assumption | intro _ | with_reducible apply okOut_next | with_reducible apply State.pageAct_ok
      | with_reducible apply State.solvClr_ok | split | dsimp only | fail_if_no_progress with_reducible refine ok_mk ?_ rfl rfl rfl rfl rfl rfl

theorem execDieCntClr_ok {qs : List Instr} {ag : Agent} {inst : Fin 16} {s : State} (hOk : Ok qs s)  : OkOut qs (execDieCntClr ag inst s) := by
  unfold execDieCntClr
  repeat'
    first
      | with_reducible assumption | intro _ | with_reducible apply okOut_next | with_reducible apply State.pageAct_ok
      | with_reducible apply State.dieClr_ok | split | dsimp only | fail_if_no_progress with_reducible refine ok_mk ?_ rfl rfl rfl rfl rfl rfl

theorem execCelCntClr_ok {qs : List Instr} {ag : Agent} {inst : Fin 8} {s : State} (hOk : Ok qs s)  : OkOut qs (execCelCntClr ag inst s) := by
  unfold execCelCntClr
  repeat'
    first
      | with_reducible assumption | intro _ | with_reducible apply okOut_next | with_reducible apply State.pageAct_ok
      | with_reducible apply State.celClr_ok | split | dsimp only | fail_if_no_progress with_reducible refine ok_mk ?_ rfl rfl rfl rfl rfl rfl

theorem execStkCntClr_ok {qs : List Instr} {ag : Agent} {inst : Fin 16} {s : State} (hOk : Ok qs s)  : OkOut qs (execStkCntClr ag inst s) := by
  unfold execStkCntClr
  repeat'
    first
      | with_reducible assumption | intro _ | with_reducible apply okOut_next | with_reducible apply State.pageAct_ok
      | with_reducible apply State.stkClr_ok | split | dsimp only | fail_if_no_progress with_reducible refine ok_mk ?_ rfl rfl rfl rfl rfl rfl

theorem execUpdCntClr_ok {qs : List Instr} {ag : Agent} {inst : Fin 8} {s : State} (hOk : Ok qs s)  : OkOut qs (execUpdCntClr ag inst s) := by
  unfold execUpdCntClr
  repeat'
    first
      | with_reducible assumption | intro _ | with_reducible apply okOut_next | with_reducible apply State.pageAct_ok
      | with_reducible apply State.updClr_ok | split | dsimp only | fail_if_no_progress with_reducible refine ok_mk ?_ rfl rfl rfl rfl rfl rfl

theorem execLinkCntClr_ok {qs : List Instr} {ag : Agent} {inst : Fin 36} {s : State} (hOk : Ok qs s)  : OkOut qs (execLinkCntClr ag inst s) := by
  unfold execLinkCntClr
  repeat'
    first
      | with_reducible assumption | intro _ | with_reducible apply okOut_next | with_reducible apply State.pageAct_ok
      | with_reducible apply State.linkClr_ok | split | dsimp only | fail_if_no_progress with_reducible refine ok_mk ?_ rfl rfl rfl rfl rfl rfl

theorem execHedCntClr_ok {qs : List Instr} {ag : Agent} {s : State} (hOk : Ok qs s)  : OkOut qs (execHedCntClr ag s) := by
  unfold execHedCntClr
  repeat'
    first
      | with_reducible assumption | intro _ | with_reducible apply okOut_next | with_reducible apply State.pageAct_ok
      | with_reducible apply State.hedClr_ok | split | dsimp only | fail_if_no_progress with_reducible refine ok_mk ?_ rfl rfl rfl rfl rfl rfl

theorem execCollCntClr_ok {qs : List Instr} {ag : Agent} {inst : Fin 9} {s : State} (hOk : Ok qs s)  : OkOut qs (execCollCntClr ag inst s) := by
  unfold execCollCntClr
  repeat'
    first
      | with_reducible assumption | intro _ | with_reducible apply okOut_next | with_reducible apply State.pageAct_ok
      | with_reducible apply State.collClr_ok | split | dsimp only | fail_if_no_progress with_reducible refine ok_mk ?_ rfl rfl rfl rfl rfl rfl

theorem execAudCntClr_ok {qs : List Instr} {ag : Agent} {s : State} (hOk : Ok qs s)  : OkOut qs (execAudCntClr ag s) := by
  unfold execAudCntClr
  repeat'
    first
      | with_reducible assumption | intro _ | with_reducible apply okOut_next | with_reducible apply State.pageAct_ok
      | with_reducible apply State.audClr_ok | split | dsimp only | fail_if_no_progress with_reducible refine ok_mk ?_ rfl rfl rfl rfl rfl rfl

theorem execPortCntClr_ok {qs : List Instr} {ag : Agent} {port : Fin 2} {s : State} (hOk : Ok qs s)  : OkOut qs (execPortCntClr ag port s) := by
  unfold execPortCntClr
  repeat'
    first
      | with_reducible assumption | intro _ | with_reducible apply okOut_next | with_reducible apply State.pageAct_ok
      | with_reducible apply State.portClr_ok | split | dsimp only | fail_if_no_progress with_reducible refine ok_mk ?_ rfl rfl rfl rfl rfl rfl

theorem execTrCntClr_ok {qs : List Instr} {ag : Agent} {s : State} (hOk : Ok qs s)  : OkOut qs (execTrCntClr ag s) := by
  unfold execTrCntClr
  repeat'
    first
      | with_reducible assumption | intro _ | with_reducible apply okOut_next | with_reducible apply State.pageAct_ok
      | with_reducible apply State.trClr_ok | split | dsimp only | fail_if_no_progress with_reducible refine ok_mk ?_ rfl rfl rfl rfl rfl rfl

theorem execHostCntClr_ok {qs : List Instr} {ag : Agent} {s : State} (hOk : Ok qs s)  : OkOut qs (execHostCntClr ag s) := by
  unfold execHostCntClr
  repeat'
    first
      | with_reducible assumption | intro _ | with_reducible apply okOut_next | with_reducible apply State.pageAct_ok
      | with_reducible apply State.hostClr_ok | split | dsimp only | fail_if_no_progress with_reducible refine ok_mk ?_ rfl rfl rfl rfl rfl rfl

theorem execMgmtCntClr_ok {qs : List Instr} {ag : Agent} {s : State} (hOk : Ok qs s)  : OkOut qs (execMgmtCntClr ag s) := by
  unfold execMgmtCntClr
  repeat'
    first
      | with_reducible assumption | intro _ | with_reducible apply okOut_next | with_reducible apply State.pageAct_ok
      | with_reducible apply State.mgmtClr_ok | split | dsimp only | fail_if_no_progress with_reducible refine ok_mk ?_ rfl rfl rfl rfl rfl rfl

theorem execSecCntClr_ok {qs : List Instr} {ag : Agent} {s : State} (hOk : Ok qs s)  : OkOut qs (execSecCntClr ag s) := by
  unfold execSecCntClr
  repeat'
    first
      | with_reducible assumption | intro _ | with_reducible apply okOut_next | with_reducible apply State.pageAct_ok
      | with_reducible apply State.secClr_ok | split | dsimp only | fail_if_no_progress with_reducible refine ok_mk ?_ rfl rfl rfl rfl rfl rfl

theorem execBookCntClr_ok {qs : List Instr} {ag : Agent} {s : State} (hOk : Ok qs s)  : OkOut qs (execBookCntClr ag s) := by
  unfold execBookCntClr
  repeat'
    first
      | with_reducible assumption | intro _ | with_reducible apply okOut_next | with_reducible apply State.pageAct_ok
      | with_reducible apply State.bookClr_ok | split | dsimp only | fail_if_no_progress with_reducible refine ok_mk ?_ rfl rfl rfl rfl rfl rfl

theorem execPwrCntClr_ok {qs : List Instr} {ag : Agent} {s : State} (hOk : Ok qs s)  : OkOut qs (execPwrCntClr ag s) := by
  unfold execPwrCntClr
  repeat'
    first
      | with_reducible assumption | intro _ | with_reducible apply okOut_next | with_reducible apply State.pageAct_ok
      | with_reducible apply State.pwrClr_ok | split | dsimp only | fail_if_no_progress with_reducible refine ok_mk ?_ rfl rfl rfl rfl rfl rfl

end Sys2Proof.Machine
end

