-- ==== Sys2Proof/Laws/KeepBoot.lean ====
section
/-! SUPPORT. Every operation of Machine/Boot.lean keeps what every command keeps. -/
namespace Sys2Proof.Machine
open Sys2Proof
set_option linter.unusedTactic false
set_option linter.unreachableTactic false

theorem State.bootRec_ok {qs : List Instr} {s : State} {slot : Nat} {result : Nat} {svn : Nat} {seq : Nat} (hOk : Ok qs s)  : Ok qs (State.bootRec s
    slot result svn seq) := by
  unfold State.bootRec
  repeat'
    first
      | with_reducible assumption | intro _ | with_reducible apply State.bookPush_ok | split | dsimp only
      | fail_if_no_progress with_reducible refine ok_mk ?_ rfl rfl rfl rfl rfl rfl

theorem State.startSlot_ok {qs : List Instr} {s : State} {slot : Nat} {h : SlotHdr} {second : Bool} (hOk : Ok qs s)  : Ok qs (State.startSlot s slot
    h second) := by
  unfold State.startSlot
  repeat'
    first
      | with_reducible assumption | intro _ | with_reducible apply State.bootRec_ok | with_reducible apply State.setFld_ok
      | with_reducible apply State.raiseIf_ok | split | dsimp only | fail_if_no_progress with_reducible refine ok_mk ?_ rfl rfl rfl rfl rfl rfl

theorem State.trySlots_ok {qs : List Instr} {s : State} {l : List Nat} {second : Bool} (hOk : Ok qs s) :
    Ok qs (State.trySlots s l second) := by
  induction l generalizing s second with
  | nil =>
  unfold State.trySlots
  repeat'
    first
      | with_reducible assumption | intro _ | with_reducible apply ih | with_reducible apply State.bootRec_ok
      | with_reducible apply State.setFld_ok | with_reducible apply State.secRec_ok | with_reducible apply State.startSlot_ok | split | dsimp only
      | fail_if_no_progress with_reducible refine ok_mk ?_ rfl rfl rfl rfl rfl rfl
  | cons k t ih =>
  unfold State.trySlots
  repeat'
    first
      | with_reducible assumption | intro _ | with_reducible apply ih | with_reducible apply State.bootRec_ok
      | with_reducible apply State.setFld_ok | with_reducible apply State.secRec_ok | with_reducible apply State.startSlot_ok | split | dsimp only
      | fail_if_no_progress with_reducible refine ok_mk ?_ rfl rfl rfl rfl rfl rfl

theorem State.boot_ok {qs : List Instr} {s : State} (hOk : Ok qs s)  : Ok qs (State.boot s) := by
  unfold State.boot
  repeat'
    first
      | with_reducible assumption | intro _ | with_reducible apply State.resetRec_ok | with_reducible apply State.trySlots_ok | split | dsimp only
      | fail_if_no_progress with_reducible refine ok_mk ?_ rfl rfl rfl rfl rfl rfl

theorem execBoot_ok {qs : List Instr} {s : State} (hOk : Ok qs s)  : OkOut qs (execBoot s) := by
  unfold execBoot
  repeat'
    first
      | with_reducible assumption | intro _ | with_reducible apply okOut_next | with_reducible apply State.boot_ok | split | dsimp only
      | fail_if_no_progress with_reducible refine ok_mk ?_ rfl rfl rfl rfl rfl rfl

theorem State.bootDone_ok {qs : List Instr} {s : State} {x : Access} (hOk : Ok qs s) : Ok qs (State.bootDone s x) := by
  unfold State.bootDone
  split
  · have h := State.setFld_ok (f := F.MGMT_MGMT_STAT_BOOT_STATE) (i := 0) (v := 2) hOk
    exact ⟨h.queue, h.mem, h.nor, h.host, rfl⟩
  · exact State.countErr_ok hOk

theorem execBootDone_ok {qs : List Instr} {ag : Agent} {s : State} (hOk : Ok qs s)  : OkOut qs (execBootDone ag s) := by
  unfold execBootDone
  repeat'
    first
      | with_reducible assumption | intro _ | with_reducible apply okOut_next | with_reducible apply State.pageAct_ok
      | with_reducible apply State.bootDone_ok | split | dsimp only | fail_if_no_progress with_reducible refine ok_mk ?_ rfl rfl rfl rfl rfl rfl

theorem execWarmRst_ok {qs : List Instr} {ag : Agent} {s : State} (hOk : Ok qs s)  : OkOut qs (execWarmRst ag s) := by
  unfold execWarmRst
  repeat'
    first
      | with_reducible assumption | intro _ | with_reducible apply okOut_next | with_reducible apply State.pageAct_ok
      | with_reducible apply State.askWarm_ok | split | dsimp only | fail_if_no_progress with_reducible refine ok_mk ?_ rfl rfl rfl rfl rfl rfl

theorem State.partResets_ok {qs : List Instr} {s : State} {mask : Nat} (hOk : Ok qs s)  : Ok qs (State.partResets s mask) := by
  unfold State.partResets
  repeat'
    first
      | with_reducible assumption | intro _ | with_reducible apply State.partReset_ok | with_reducible apply ok_foldl
      | with_reducible apply ok_foldl_fst | split | dsimp only | fail_if_no_progress with_reducible refine ok_mk ?_ rfl rfl rfl rfl rfl rfl

theorem execPartRst_ok {qs : List Instr} {ag : Agent} {mask : Byte} {s : State} (hOk : Ok qs s)  : OkOut qs (execPartRst ag mask s) := by
  unfold execPartRst
  repeat'
    first
      | with_reducible assumption | intro _ | with_reducible apply okOut_next | with_reducible apply State.pageAct_ok
      | with_reducible apply State.partResets_ok | split | dsimp only | fail_if_no_progress with_reducible refine ok_mk ?_ rfl rfl rfl rfl rfl rfl

theorem State.kick_ok {qs : List Instr} {s : State} (hOk : Ok qs s)  : Ok qs (State.kick s) := by
  unfold State.kick
  repeat'
    first
      | with_reducible assumption | intro _ | split | dsimp only | fail_if_no_progress with_reducible refine ok_mk ?_ rfl rfl rfl rfl rfl rfl

theorem execKick_ok {qs : List Instr} {ag : Agent} {s : State} (hOk : Ok qs s)  : OkOut qs (execKick ag s) := by
  unfold execKick
  repeat'
    first
      | with_reducible assumption | intro _ | with_reducible apply okOut_next | with_reducible apply State.pageAct_ok
      | with_reducible apply State.kick_ok | split | dsimp only | fail_if_no_progress with_reducible refine ok_mk ?_ rfl rfl rfl rfl rfl rfl

theorem State.arbReached_ok {qs : List Instr} {s : State} (hOk : Ok qs s)  : Ok qs (State.arbReached s) := by
  unfold State.arbReached
  repeat'
    first
      | with_reducible assumption | intro _ | with_reducible apply State.raise_ok | with_reducible apply State.secRec_ok | split | dsimp only
      | fail_if_no_progress with_reducible refine ok_mk ?_ rfl rfl rfl rfl rfl rfl

theorem State.arbAdvance_ok {qs : List Instr} {s : State} {x : Access} {v : Nat} (hOk : Ok qs s)  : Ok qs (State.arbAdvance s x v) := by
  unfold State.arbAdvance
  repeat'
    first
      | with_reducible assumption | intro _ | with_reducible apply State.countErr_ok | with_reducible apply State.arbReached_ok | split
      | dsimp only | fail_if_no_progress with_reducible refine ok_mk ?_ rfl rfl rfl rfl rfl rfl

theorem execArbAdvance_ok {qs : List Instr} {ag : Agent} {target : BitVec 7} {s : State} (hOk : Ok qs s)  : OkOut qs (execArbAdvance ag target s) :=
    by
  unfold execArbAdvance
  repeat'
    first
      | with_reducible assumption | intro _ | with_reducible apply okOut_next | with_reducible apply State.pageAct_ok
      | with_reducible apply State.arbAdvance_ok | split | dsimp only | fail_if_no_progress with_reducible refine ok_mk ?_ rfl rfl rfl rfl rfl rfl

theorem execArbFuseBlow_ok {qs : List Instr} {s : State} (hOk : Ok qs s)  : OkOut qs (execArbFuseBlow s) := by
  unfold execArbFuseBlow
  repeat'
    first
      | with_reducible assumption | intro _ | with_reducible apply okOut_next | with_reducible apply State.arbReached_ok | split | dsimp only
      | fail_if_no_progress with_reducible refine ok_mk ?_ rfl rfl rfl rfl rfl rfl

theorem State.keyRevoke_ok {qs : List Instr} {s : State} {x : Access} {mask : Nat} (hOk : Ok qs s)  : Ok qs (State.keyRevoke s x mask) := by
  unfold State.keyRevoke
  repeat'
    first
      | with_reducible assumption | intro _ | with_reducible apply State.countErr_ok | with_reducible apply State.raise_ok
      | with_reducible apply State.secRec_ok | with_reducible apply ok_foldl | with_reducible apply ok_foldl_fst | split | dsimp only
      | fail_if_no_progress with_reducible refine ok_mk ?_ rfl rfl rfl rfl rfl rfl

theorem execKeyRevoke_ok {qs : List Instr} {ag : Agent} {mask : BitVec 2} {s : State} (hOk : Ok qs s)  : OkOut qs (execKeyRevoke ag mask s) := by
  unfold execKeyRevoke
  repeat'
    first
      | with_reducible assumption | intro _ | with_reducible apply okOut_next | with_reducible apply State.pageAct_ok
      | with_reducible apply State.keyRevoke_ok | split | dsimp only | fail_if_no_progress with_reducible refine ok_mk ?_ rfl rfl rfl rfl rfl rfl

theorem execAppend_ok {qs : List Instr} {ag : Agent} {s : State} (hOk : Ok qs s)  : OkOut qs (execAppend ag s) := by
  unfold execAppend
  repeat'
    first
      | with_reducible assumption | intro _ | with_reducible apply okOut_next | with_reducible apply State.pageAct_ok
      | with_reducible apply State.append_ok | split | dsimp only | fail_if_no_progress with_reducible refine ok_mk ?_ rfl rfl rfl rfl rfl rfl

end Sys2Proof.Machine
end

