-- ==== Sys2Proof/Laws/KeepRegView.lean ====
section
/-! SUPPORT. Every operation of Machine/RegView.lean keeps what every command keeps. -/
namespace Sys2Proof.Machine
open Sys2Proof
set_option linter.unusedTactic false
set_option linter.unreachableTactic false

theorem State.regRead_ok {qs : List Instr} {s : State} {x : Access} {addr size : Nat} (hOk : Ok qs s) :
    Ok qs (State.regRead s x addr size).1 := by
  suffices h : ∀ r, State.regRead s x addr size = r → Ok qs r.1 from h _ rfl
  intro r hr
  unfold State.regRead at hr
  dsimp only at hr
  split at hr
  · subst hr; exact State.countGate_ok hOk
  · split at hr
    · subst hr; exact State.countErr_ok hOk
    · subst hr; exact hOk

end Sys2Proof.Machine
end

