-- ==== Sys2Proof/Laws/KeepRepairBase.lean ====
section
/-! SUPPORT. Every operation of Machine/RepairBase.lean keeps what every command keeps. -/
namespace Sys2Proof.Machine
open Sys2Proof
set_option linter.unusedTactic false
set_option linter.unreachableTactic false

theorem State.setRepair_ok {qs : List Instr} {s : State} {c : Nat} {r : Option Repair} (hOk : Ok qs s)  : Ok qs (State.setRepair s c r) := by
  unfold State.setRepair
  repeat'
    first
      | with_reducible assumption | intro _ | with_reducible apply State.setSlice_ok | split | dsimp only
      | fail_if_no_progress with_reducible refine ok_mk ?_ rfl rfl rfl rfl rfl rfl

theorem State.repairSend_ok {qs : List Instr} {s : State} {c : Nat} {hid : Nat} {dev : Nat} {data : List Byte} {m : RepairOp} (hOk : Ok qs s) : Ok
    qs (State.repairSend s c hid dev data m) := by
  unfold State.repairSend
  repeat'
    first
      | with_reducible assumption | intro _ | with_reducible apply State.issueOp_ok | split | dsimp only
      | fail_if_no_progress with_reducible refine ok_mk ?_ rfl rfl rfl rfl rfl rfl

theorem State.repairAskOn_ok {qs : List Instr} {s : State} {c : Nat} {hid : Nat} {dev : Nat} {r : Repair} (hOk : Ok qs s) : Ok qs (State.repairAskOn
    s c hid dev r) := by
  unfold State.repairAskOn
  repeat'
    first
      | with_reducible assumption | intro _ | with_reducible apply State.setRepair_ok | with_reducible apply State.repairSend_ok | split
      | dsimp only | fail_if_no_progress with_reducible refine ok_mk ?_ rfl rfl rfl rfl rfl rfl

theorem State.askReplica_ok {qs : List Instr} {s : State} {c : Nat} {d : BlockDesc} {r : Repair} {dev : Nat} (hOk : Ok qs s) : Ok qs
    (State.askReplica s c d r dev) := by
  unfold State.askReplica
  repeat'
    first
      | with_reducible assumption | intro _ | with_reducible apply State.repairAskOn_ok | with_reducible apply State.setRepair_ok
      | with_reducible apply State.beginThread_ok | split | dsimp only | fail_if_no_progress with_reducible refine ok_mk ?_ rfl rfl rfl rfl rfl rfl

theorem State.repairRetry_ok {qs : List Instr} {s : State} {c : Nat} (hOk : Ok qs s) : Ok qs (State.repairRetry s c) := by
  unfold State.repairRetry
  repeat'
    first
      | with_reducible assumption | intro _ | with_reducible apply State.askReplica_ok | split | dsimp only
      | fail_if_no_progress with_reducible refine ok_mk ?_ rfl rfl rfl rfl rfl rfl

theorem State.repairRetryAll_ok {qs : List Instr} {s : State} (hOk : Ok qs s) : Ok qs (State.repairRetryAll s) := by
  unfold State.repairRetryAll
  repeat'
    first
      | with_reducible assumption | intro _ | with_reducible apply State.repairRetry_ok | with_reducible apply ok_foldl
      | with_reducible apply ok_foldl_fst | split | dsimp only | fail_if_no_progress with_reducible refine ok_mk ?_ rfl rfl rfl rfl rfl rfl

theorem execHeddleThreadRetry_ok {qs : List Instr} {ns : Nat} {s : State} (hOk : Ok qs s) : OkOut qs (execHeddleThreadRetry ns s) := by
  unfold execHeddleThreadRetry
  repeat'
    first
      | with_reducible assumption | intro _ | with_reducible apply okOut_next | with_reducible apply State.threadSet_ok
      | with_reducible apply State.repairRetryAll_ok | split | dsimp only
      | fail_if_no_progress with_reducible refine ok_mk ?_ rfl rfl rfl rfl rfl rfl

theorem execReleaseAck_ok {qs : List Instr} {hid : Nat} {s : State} (hOk : Ok qs s) : OkOut qs (execReleaseAck hid s) := by
  unfold execReleaseAck
  repeat'
    first
      | with_reducible assumption | intro _ | with_reducible apply okOut_next | with_reducible apply State.threadSet_ok
      | with_reducible apply State.repairRetryAll_ok | split | dsimp only
      | fail_if_no_progress with_reducible refine ok_mk ?_ rfl rfl rfl rfl rfl rfl

theorem State.repairBegin_ok {qs : List Instr} {s : State} {c : Nat} {r : Repair} {d : BlockDesc} {rest : List (Nat × Nat)} (hOk : Ok qs s)  : Ok qs
    (State.repairBegin s c r d rest) := by
  unfold State.repairBegin
  repeat'
    first
      | with_reducible assumption | intro _ | with_reducible apply State.setSlice_ok | with_reducible apply State.setLedger_ok
      | with_reducible apply ok_foldl | with_reducible apply ok_foldl_fst | split | dsimp only
      | fail_if_no_progress with_reducible refine ok_mk ?_ rfl rfl rfl rfl rfl rfl

theorem State.repairRec_ok {qs : List Instr} {s : State} {c : Nat} {block : Nat} {result : Nat} {idx : Nat} {dev : Nat} {ns : Nat} (hOk : Ok qs s)  :
    Ok qs (State.repairRec s c block result idx dev ns) := by
  unfold State.repairRec
  repeat'
    first
      | with_reducible assumption | intro _ | with_reducible apply State.bookPush_ok | split | dsimp only
      | fail_if_no_progress with_reducible refine ok_mk ?_ rfl rfl rfl rfl rfl rfl

theorem State.repairShow_ok {qs : List Instr} {s : State} {c : Nat} {block : Nat} {result : Nat} {ns : Nat} (hOk : Ok qs s)  : Ok qs
    (State.repairShow s c block result ns) := by
  unfold State.repairShow
  repeat'
    first
      | with_reducible assumption | intro _ | with_reducible apply State.setFld_ok | split | dsimp only
      | fail_if_no_progress with_reducible refine ok_mk ?_ rfl rfl rfl rfl rfl rfl

theorem State.unavailable_ok {qs : List Instr} {s : State} {c : Nat} {r : Repair} {ranges : List (Nat × Nat)} {dev : Nat} {ns : Nat} (hOk : Ok qs s) 
    : Ok qs (State.unavailable s c r ranges dev ns) := by
  unfold State.unavailable
  repeat'
    first
      | with_reducible assumption | intro _ | with_reducible apply State.setRepair_ok | with_reducible apply State.setLedger_ok
      | with_reducible apply State.countEv_ok | with_reducible apply State.repairShow_ok | with_reducible apply State.repairRec_ok | split
      | dsimp only | fail_if_no_progress with_reducible refine ok_mk ?_ rfl rfl rfl rfl rfl rfl

theorem State.repairRun_ok {qs : List Instr} {s : State} {c : Nat} {l : List (Nat × Nat)} (hOk : Ok qs s) :
    Ok qs (State.repairRun s c l) := by
  induction l generalizing s with
  | nil =>
  unfold State.repairRun
  repeat'
    first
      | with_reducible assumption | intro _ | with_reducible apply ih | with_reducible apply State.setSlice_ok
      | with_reducible apply State.updErr_ok | with_reducible apply State.repairBegin_ok | with_reducible apply State.unavailable_ok
      | with_reducible apply State.askReplica_ok | split | dsimp only | fail_if_no_progress with_reducible refine ok_mk ?_ rfl rfl rfl rfl rfl rfl
  | cons e t ih =>
  unfold State.repairRun
  repeat'
    first
      | with_reducible assumption | intro _ | with_reducible apply ih | with_reducible apply State.setSlice_ok
      | with_reducible apply State.updErr_ok | with_reducible apply State.repairBegin_ok | with_reducible apply State.unavailable_ok
      | with_reducible apply State.askReplica_ok | split | dsimp only | fail_if_no_progress with_reducible refine ok_mk ?_ rfl rfl rfl rfl rfl rfl

theorem State.repairStart_ok {qs : List Instr} {s : State} {c : Nat} (hOk : Ok qs s)  : Ok qs (State.repairStart s c) := by
  unfold State.repairStart
  repeat'
    first
      | with_reducible assumption | intro _ | with_reducible apply State.repairRun_ok | split | dsimp only
      | fail_if_no_progress with_reducible refine ok_mk ?_ rfl rfl rfl rfl rfl rfl

theorem State.repairRelease_ok {qs : List Instr} {s : State} {r : Repair} (hOk : Ok qs s) : Ok qs (State.repairRelease s r) := by
  unfold State.repairRelease
  repeat'
    first
      | with_reducible assumption | intro _ | with_reducible apply State.dropRepairOps_ok | with_reducible apply State.beginRelease_ok | split
      | dsimp only | fail_if_no_progress with_reducible refine ok_mk ?_ rfl rfl rfl rfl rfl rfl

theorem State.repairPass_ok {qs : List Instr} {s : State} {c : Nat} {r : Repair} {ns : Nat} (hOk : Ok qs s)  : Ok qs (State.repairPass s c r ns) := by
  unfold State.repairPass
  repeat'
    first
      | with_reducible assumption | intro _ | with_reducible apply State.repairRelease_ok | with_reducible apply State.unavailable_ok
      | with_reducible apply State.repairStart_ok | with_reducible apply State.askReplica_ok | split | dsimp only
      | fail_if_no_progress with_reducible refine ok_mk ?_ rfl rfl rfl rfl rfl rfl

theorem State.repairAsk_ok {qs : List Instr} {s : State} {c : Nat} {b : Nat} {agent : Nat} (hOk : Ok qs s)  : Ok qs (State.repairAsk s c b agent) :=
    by
  unfold State.repairAsk
  repeat'
    first
      | with_reducible assumption | intro _ | with_reducible apply State.updErr_ok | with_reducible apply State.queueRepair_ok
      | with_reducible apply State.repairStart_ok | split | dsimp only | fail_if_no_progress with_reducible refine ok_mk ?_ rfl rfl rfl rfl rfl rfl

theorem execRepairReq_ok {qs : List Instr} {ag : Agent} {slice : Fin 8} {block : Word} {s : State} (hOk : Ok qs s)  : OkOut qs (execRepairReq ag
    slice block s) := by
  unfold execRepairReq
  repeat'
    first
      | with_reducible assumption | intro _ | with_reducible apply okOut_next | with_reducible apply State.pageAct_ok
      | with_reducible apply State.repairAsk_ok | split | dsimp only | fail_if_no_progress with_reducible refine ok_mk ?_ rfl rfl rfl rfl rfl rfl

theorem State.updEcc_ok {qs : List Instr} {s : State} {c : Nat} {b : Nat} {e : UpdEcc} (hOk : Ok qs s) : Ok qs (State.updEcc s c b e) := by
  unfold State.updEcc
  repeat'
    first
      | with_reducible assumption | intro _ | with_reducible apply State.countEv_ok | with_reducible apply State.queueRepair_ok
      | with_reducible apply State.repairStart_ok | with_reducible apply ok_foldl | with_reducible apply ok_foldl_fst | split | dsimp only
      | fail_if_no_progress with_reducible refine ok_mk ?_ rfl rfl rfl rfl rfl rfl

theorem State.groupStart_ok {qs : List Instr} {s : State} {c : Nat} {b : Nat} {g : Nat} {d : BlockDesc} {o : OpenBlock} (hOk : Ok qs s) : Ok qs
    (State.groupStart s c b g d o) := by
  unfold State.groupStart
  repeat'
    first
      | with_reducible assumption | intro _ | with_reducible apply State.raise_ok | with_reducible apply State.fault_ok
      | with_reducible apply State.queueRepair_ok | with_reducible apply State.repairStart_ok | with_reducible apply State.setBlock_ok
      | with_reducible apply State.countEv_ok | split | dsimp only | fail_if_no_progress with_reducible refine ok_mk ?_ rfl rfl rfl rfl rfl rfl

theorem execGroupApply_ok {qs : List Instr} {slice : Fin 8} {block : Word} {step : GroupStep} {s : State} (hOk : Ok qs s) : OkOut qs (execGroupApply
    slice block step s) := by
  unfold execGroupApply
  repeat'
    first
      | with_reducible assumption | intro _ | with_reducible apply okOut_next | with_reducible apply State.updEcc_ok
      | with_reducible apply State.whenReadable_ok | with_reducible apply State.unitCount_ok | with_reducible apply State.groupStart_ok | split
      | dsimp only | fail_if_no_progress with_reducible refine ok_mk ?_ rfl rfl rfl rfl rfl rfl

theorem execGroupCommit_ok {qs : List Instr} {slice : Fin 8} {block : Word} {group : Fin 256} {ecc : UpdEcc} {s : State} (hOk : Ok qs s) : OkOut qs
    (execGroupCommit slice block group ecc s) := by
  unfold execGroupCommit
  repeat'
    first
      | with_reducible assumption | intro _ | with_reducible apply okOut_next | with_reducible apply State.whenWritable_ok
      | with_reducible apply State.setBlock_ok | with_reducible apply State.writeMem_ok | with_reducible apply State.unitCount_ok
      | with_reducible apply State.addWrap_ok | with_reducible apply State.updEcc_ok | with_reducible apply ok_foldl
      | with_reducible apply ok_foldl_fst | split | dsimp only | fail_if_no_progress with_reducible refine ok_mk ?_ rfl rfl rfl rfl rfl rfl

theorem State.groupDone_ok {qs : List Instr} {s : State} {c : Nat} {b : Nat} {d : BlockDesc} {o : OpenBlock} (hOk : Ok qs s) : Ok qs
    (State.groupDone s c b d o) := by
  unfold State.groupDone
  repeat'
    first
      | with_reducible assumption | intro _ | with_reducible apply State.unitAsk_ok | with_reducible apply State.unitCount_ok
      | with_reducible apply State.closeBlock_ok | with_reducible apply State.setBlock_ok | split | dsimp only
      | fail_if_no_progress with_reducible refine ok_mk ?_ rfl rfl rfl rfl rfl rfl

theorem execGroupDone_ok {qs : List Instr} {slice : Fin 8} {block : Word} {step : GroupStep} {s : State} (hOk : Ok qs s) : OkOut qs (execGroupDone
    slice block step s) := by
  unfold execGroupDone
  repeat'
    first
      | with_reducible assumption | intro _ | with_reducible apply okOut_next | with_reducible apply State.groupDone_ok
      | with_reducible apply State.updEcc_ok | split | dsimp only | fail_if_no_progress with_reducible refine ok_mk ?_ rfl rfl rfl rfl rfl rfl

theorem State.creditBack_ok {qs : List Instr} {s : State} {h : Nat} {rep : Bool} (hOk : Ok qs s) : Ok qs (State.creditBack s h rep) := by
  unfold State.creditBack
  repeat'
    first
      | with_reducible assumption | intro _ | with_reducible apply State.setHeddle_ok | with_reducible apply State.sendFlits_ok | split | dsimp only
      | fail_if_no_progress with_reducible refine ok_mk ?_ rfl rfl rfl rfl rfl rfl

theorem State.creditsBack_ok {qs : List Instr} {s : State} (hOk : Ok qs s) : Ok qs (State.creditsBack s) := by
  unfold State.creditsBack
  repeat'
    first
      | with_reducible assumption | intro _ | with_reducible apply State.creditBack_ok | with_reducible apply ok_foldl
      | with_reducible apply ok_foldl_fst | split | dsimp only | fail_if_no_progress with_reducible refine ok_mk ?_ rfl rfl rfl rfl rfl rfl

theorem execHeldChunkJudge_ok {qs : List Instr} {slice : Fin 8} {s : State} (hOk : Ok qs s) : OkOut qs (execHeldChunkJudge slice s) := by
  unfold execHeldChunkJudge
  repeat'
    first
      | with_reducible assumption | intro _ | with_reducible apply okOut_next | with_reducible apply State.judgeHeld_ok
      | with_reducible apply State.creditsBack_ok | split | dsimp only | fail_if_no_progress with_reducible refine ok_mk ?_ rfl rfl rfl rfl rfl rfl

theorem State.repairRefuse_ok {qs : List Instr} {s : State} {c : Nat} {hid : Nat} {dev : Nat} {block : Nat} (hOk : Ok qs s) : Ok qs
    (State.repairRefuse s c hid dev block) := by
  unfold State.repairRefuse
  repeat'
    first
      | with_reducible assumption | intro _ | with_reducible apply State.repairSend_ok | split | dsimp only
      | fail_if_no_progress with_reducible refine ok_mk ?_ rfl rfl rfl rfl rfl rfl

theorem State.repairRequested_ok {qs : List Instr} {s : State} {c : Nat} {hid : Nat} {dev : Nat} {b : Nat} {target : Nat} (hOk : Ok qs s) : Ok qs
    (State.repairRequested s c hid dev b target) := by
  unfold State.repairRequested
  repeat'
    first
      | with_reducible assumption | intro _ | with_reducible apply State.repairRefuse_ok | with_reducible apply State.setSlice_ok | split
      | dsimp only | fail_if_no_progress with_reducible refine ok_mk ?_ rfl rfl rfl rfl rfl rfl

theorem State.writeFull_ok {qs : List Instr} {s : State} {a : Nat} {bytes : List Byte} (hOk : Ok qs s) : Ok qs (State.writeFull s a bytes) := by
  unfold State.writeFull
  repeat'
    first
      | with_reducible assumption | intro _ | with_reducible apply State.writeMem_ok | split | dsimp only
      | fail_if_no_progress with_reducible refine ok_mk ?_ rfl rfl rfl rfl rfl rfl

theorem State.repairLanded_ok {qs : List Instr} {s : State} {c : Nat} {dev : Nat} {step : Nat} {origin : Nat} {state : List Byte} {scales : List
    Byte} {digest : List Byte} {ns : Nat} (hOk : Ok qs s) : Ok qs (State.repairLanded s c dev step origin state scales digest ns) := by
  unfold State.repairLanded
  repeat'
    first
      | with_reducible assumption | intro _ | with_reducible apply State.repairPass_ok | with_reducible apply State.writeFull_ok
      | with_reducible apply State.unitCount_ok | with_reducible apply State.setRepair_ok | with_reducible apply ok_foldl
      | with_reducible apply ok_foldl_fst | split | dsimp only | fail_if_no_progress with_reducible refine ok_mk ?_ rfl rfl rfl rfl rfl rfl

theorem State.repairRefused_ok {qs : List Instr} {s : State} {c : Nat} {dev : Nat} {ns : Nat} (hOk : Ok qs s) : Ok qs (State.repairRefused s c dev
    ns) := by
  unfold State.repairRefused
  repeat'
    first
      | with_reducible assumption | intro _ | with_reducible apply State.repairPass_ok | split | dsimp only
      | fail_if_no_progress with_reducible refine ok_mk ?_ rfl rfl rfl rfl rfl rfl

theorem State.repairLand_ok {qs : List Instr} {s : State} {dev hid : Nat} {m : RepairMsg} (hOk : Ok qs s) : Ok qs (s.repairLand dev hid m) := by
  cases m with
  | request c b t => exact State.repairRequested_ok hOk
  | state c st o data scales digest ns => exact State.repairLanded_ok hOk
  | refusal c ns => exact State.repairRefused_ok hOk

end Sys2Proof.Machine
end

