-- ==== Sys2Proof/Laws/KeepRegisters.lean ====
section
/-! SUPPORT. Every operation of Machine/Registers.lean keeps what every command keeps. -/
namespace Sys2Proof.Machine
open Sys2Proof
set_option linter.unusedTactic false
set_option linter.unreachableTactic false

theorem State.evtSet_ok {qs : List Instr} {s : State} {ty : Nat} {i : Nat} {v : Nat} (hOk : Ok qs s)  : Ok qs (State.evtSet s ty i v) := by
  unfold State.evtSet
  repeat'
    first
      | with_reducible assumption | intro _ | with_reducible apply State.raise_ok | with_reducible apply ok_foldl
      | with_reducible apply ok_foldl_fst | split | dsimp only | fail_if_no_progress with_reducible refine ok_mk ?_ rfl rfl rfl rfl rfl rfl

theorem State.evtClear_ok {qs : List Instr} {s : State} {ty : Nat} {i : Nat} {mask : Nat} {hw : Nat} (hOk : Ok qs s)  : Ok qs (State.evtClear s ty i
    mask hw) := by
  unfold State.evtClear
  repeat'
    first
      | with_reducible assumption | intro _ | with_reducible apply State.setFld_ok | with_reducible apply State.evtSet_ok | split | dsimp only
      | fail_if_no_progress with_reducible refine ok_mk ?_ rfl rfl rfl rfl rfl rfl

theorem State.evtEnable_ok {qs : List Instr} {s : State} {ty : Nat} {i : Nat} {v : Nat} (hOk : Ok qs s)  : Ok qs (State.evtEnable s ty i v) := by
  unfold State.evtEnable
  repeat'
    first
      | with_reducible assumption | intro _ | with_reducible apply State.redeliver_ok | with_reducible apply State.setFld_ok
      | with_reducible apply ok_foldl | with_reducible apply ok_foldl_fst | split | dsimp only
      | fail_if_no_progress with_reducible refine ok_mk ?_ rfl rfl rfl rfl rfl rfl

theorem State.dropRepairFence_ok {qs : List Instr} {s : State} {c : Nat} (hOk : Ok qs s)  : Ok qs (State.dropRepairFence s c) := by
  unfold State.dropRepairFence
  repeat'
    first
      | with_reducible assumption | intro _ | split | dsimp only | fail_if_no_progress with_reducible refine ok_mk ?_ rfl rfl rfl rfl rfl rfl

theorem State.softReset_ok {qs : List Instr} {s : State} {ty : Nat} {i : Nat} (hOk : Ok qs s) : Ok qs (State.softReset s ty i) := by
  unfold State.softReset
  repeat'
    first
      | with_reducible assumption | intro _ | with_reducible apply State.setCore_ok | with_reducible apply State.releasePath_ok
      | with_reducible apply State.setSolver_ok | with_reducible apply State.dropRepairFence_ok | with_reducible apply State.setSlice_ok
      | with_reducible apply State.setColl_ok | with_reducible apply State.resetRec_ok | split | dsimp only
      | fail_if_no_progress with_reducible refine ok_mk ?_ rfl rfl rfl rfl rfl rfl

theorem State.onBit_ok {qs : List Instr} {s : State} {v : Nat} {b : Nat} {f : State → State} (hOk : Ok qs s) (hf : ∀ t, Ok qs t → Ok qs (f t)) : Ok
    qs (State.onBit s v b f) := by
  unfold State.onBit
  repeat'
    first
      | with_reducible assumption | intro _ | with_reducible apply hf | split | dsimp only
      | fail_if_no_progress with_reducible refine ok_mk ?_ rfl rfl rfl rfl rfl rfl

theorem State.blockAct_ok {qs : List Instr} {s : State} {x : Access} {ty : Nat} {i : Nat} {off : Nat} {v : Nat} (hOk : Ok qs s)  : Ok qs
    (State.blockAct s x ty i off v) := by
  unfold State.blockAct
  repeat'
    first
      | with_reducible assumption | intro _ | with_reducible apply State.onBit_ok | with_reducible apply State.arm_ok
      | with_reducible apply State.cancel_ok | with_reducible apply State.coreClr_ok | with_reducible apply State.epiClr_ok
      | with_reducible apply State.vecClr_ok | with_reducible apply State.strClr_ok | with_reducible apply State.dieClr_ok
      | with_reducible apply State.startFlush_ok | with_reducible apply State.celClr_ok | with_reducible apply State.stkClr_ok
      | with_reducible apply State.solvClr_ok | with_reducible apply State.repairAsk_ok | with_reducible apply State.updClr_ok
      | with_reducible apply State.collClr_ok | with_reducible apply State.linkClr_ok | with_reducible apply State.hedClr_ok
      | with_reducible apply State.hostClr_ok | with_reducible apply State.portClr_ok | with_reducible apply State.trClr_ok
      | with_reducible apply State.pickSetApply_ok | with_reducible apply State.verifyBegin_ok | with_reducible apply State.audClr_ok
      | with_reducible apply State.bootDone_ok | with_reducible apply State.askWarm_ok | with_reducible apply State.partResets_ok
      | with_reducible apply State.kick_ok | with_reducible apply State.mgmtClr_ok | with_reducible apply State.dormEnter_ok
      | with_reducible apply State.wakeReg_ok | with_reducible apply State.pwrClr_ok | with_reducible apply State.arbAdvance_ok
      | with_reducible apply State.keyRevoke_ok | with_reducible apply State.secClr_ok | with_reducible apply State.append_ok
      | with_reducible apply State.bookClr_ok | split | dsimp only | fail_if_no_progress with_reducible refine ok_mk ?_ rfl rfl rfl rfl rfl rfl

theorem State.regAct_ok {qs : List Instr} {s : State} {x : Access} {ty : Nat} {i : Nat} {off : Nat} {v : Nat} (hOk : Ok qs s)  : Ok qs (State.regAct
    s x ty i off v) := by
  unfold State.regAct
  repeat'
    first
      | with_reducible assumption | intro _ | with_reducible apply State.onBit_ok | with_reducible apply State.softReset_ok
      | with_reducible apply State.errClear_ok | with_reducible apply State.evtSet_ok | with_reducible apply State.blockAct_ok | split | dsimp only
      | fail_if_no_progress with_reducible refine ok_mk ?_ rfl rfl rfl rfl rfl rfl

theorem State.stageWrite_ok {qs : List Instr} {s : State} {code : Nat} {ty : Nat} {i : Nat} {g : Nat} (hOk : Ok qs s)  : Ok qs (State.stageWrite s
    code ty i g) := by
  unfold State.stageWrite
  repeat'
    first
      | with_reducible assumption | intro _ | with_reducible apply State.countErr_ok | with_reducible apply State.setFld_ok | split | dsimp only
      | fail_if_no_progress with_reducible refine ok_mk ?_ rfl rfl rfl rfl rfl rfl

theorem State.rwWrite_ok {qs : List Instr} {s : State} {code : Nat} {f : Fld} {i : Nat} {v : Nat} (hOk : Ok qs s)  : Ok qs (State.rwWrite s code f i
    v) := by
  unfold State.rwWrite
  repeat'
    first
      | with_reducible assumption | intro _ | with_reducible apply State.evtEnable_ok | with_reducible apply State.stageWrite_ok
      | with_reducible apply State.countErr_ok | with_reducible apply State.setFld_ok | split | dsimp only
      | fail_if_no_progress with_reducible refine ok_mk ?_ rfl rfl rfl rfl rfl rfl

theorem State.fldWrite_ok {qs : List Instr} {s : State} {code : Nat} {f : Fld} {i : Nat} {v : Nat} (hOk : Ok qs s)  : Ok qs (State.fldWrite s code f
    i v) := by
  unfold State.fldWrite
  repeat'
    first
      | with_reducible assumption | intro _ | with_reducible apply State.rwWrite_ok | with_reducible apply State.setStaged_ok
      | with_reducible apply State.setFld_ok | with_reducible apply State.evtClear_ok | split | dsimp only
      | fail_if_no_progress with_reducible refine ok_mk ?_ rfl rfl rfl rfl rfl rfl

theorem State.regWrite32_ok {qs : List Instr} {s : State} {x : Access} {ty : Nat} {i : Nat} {off : Nat} {v : Nat} (hOk : Ok qs s)  : Ok qs
    (State.regWrite32 s x ty i off v) := by
  unfold State.regWrite32
  repeat'
    first
      | with_reducible assumption | intro _ | with_reducible apply State.countErr_ok | with_reducible apply State.fldWrite_ok
      | with_reducible apply State.regAct_ok | with_reducible apply ok_foldl | with_reducible apply ok_foldl_fst | split | dsimp only
      | fail_if_no_progress with_reducible refine ok_mk ?_ rfl rfl rfl rfl rfl rfl

theorem State.regWrite_ok {qs : List Instr} {s : State} {x : Access} {addr : Nat} {size : Nat} {v : Nat} (hOk : Ok qs s)  : Ok qs (State.regWrite s x
    addr size v) := by
  unfold State.regWrite
  repeat'
    first
      | with_reducible assumption | intro _ | with_reducible apply State.countGate_ok | with_reducible apply State.countErr_ok
      | with_reducible apply State.regWrite32_ok | split | dsimp only | fail_if_no_progress with_reducible refine ok_mk ?_ rfl rfl rfl rfl rfl rfl

theorem execRegisterWrite_ok {qs : List Instr} {ag : Agent} {bar4 : Bool} {addr : BitVec 48} {size : Nat} {v : Dword} {s : State} (hOk : Ok qs s)  :
    OkOut qs (execRegisterWrite ag bar4 addr size v s) := by
  unfold execRegisterWrite
  repeat'
    first
      | with_reducible assumption | intro _ | with_reducible apply okOut_next | with_reducible apply State.bar4Write_ok
      | with_reducible apply State.regWrite_ok | split | dsimp only | fail_if_no_progress with_reducible refine ok_mk ?_ rfl rfl rfl rfl rfl rfl

theorem execSrst_ok {qs : List Instr} {ag : Agent} {ty : PageType} {inst : Nat} {s : State} (hOk : Ok qs s)  : OkOut qs (execSrst ag ty inst s) := by
  unfold execSrst
  repeat'
    first
      | with_reducible assumption | intro _ | with_reducible apply okOut_next | with_reducible apply State.pageAct_ok
      | with_reducible apply State.softReset_ok | split | dsimp only | fail_if_no_progress with_reducible refine ok_mk ?_ rfl rfl rfl rfl rfl rfl

theorem execErrClr_ok {qs : List Instr} {ag : Agent} {ty : PageType} {inst : Nat} {coin : Option ErrObs} {s : State} (hOk : Ok qs s)  : OkOut qs
    (execErrClr ag ty inst coin s) := by
  unfold execErrClr
  repeat'
    first
      | with_reducible assumption | intro _ | with_reducible apply okOut_next | with_reducible apply State.pageAct_ok
      | with_reducible apply State.errClear_ok | with_reducible apply State.countErr_ok | split | dsimp only
      | fail_if_no_progress with_reducible refine ok_mk ?_ rfl rfl rfl rfl rfl rfl

theorem execEvtStatClear_ok {qs : List Instr} {ag : Agent} {ty : PageType} {inst : Nat} {mask : Word} {hwSet : Word} {s : State} (hOk : Ok qs s)  :
    OkOut qs (execEvtStatClear ag ty inst mask hwSet s) := by
  unfold execEvtStatClear
  repeat'
    first
      | with_reducible assumption | intro _ | with_reducible apply okOut_next | with_reducible apply State.pageAct_ok
      | with_reducible apply State.evtClear_ok | split | dsimp only | fail_if_no_progress with_reducible refine ok_mk ?_ rfl rfl rfl rfl rfl rfl

theorem execEvtEnWrite_ok {qs : List Instr} {ag : Agent} {ty : PageType} {inst : Nat} {v : Word} {s : State} (hOk : Ok qs s)  : OkOut qs
    (execEvtEnWrite ag ty inst v s) := by
  unfold execEvtEnWrite
  repeat'
    first
      | with_reducible assumption | intro _ | with_reducible apply okOut_next | with_reducible apply State.pageAct_ok
      | with_reducible apply State.evtEnable_ok | split | dsimp only | fail_if_no_progress with_reducible refine ok_mk ?_ rfl rfl rfl rfl rfl rfl

theorem execEvtSet_ok {qs : List Instr} {ag : Agent} {ty : PageType} {inst : Nat} {v : Word} {s : State} (hOk : Ok qs s)  : OkOut qs (execEvtSet ag
    ty inst v s) := by
  unfold execEvtSet
  repeat'
    first
      | with_reducible assumption | intro _ | with_reducible apply okOut_next | with_reducible apply State.pageAct_ok
      | with_reducible apply State.evtSet_ok | split | dsimp only | fail_if_no_progress with_reducible refine ok_mk ?_ rfl rfl rfl rfl rfl rfl

theorem execCfgStageWrite_ok {qs : List Instr} {ag : Agent} {ty : PageType} {inst : Nat} {gen : Word} {s : State} (hOk : Ok qs s)  : OkOut qs
    (execCfgStageWrite ag ty inst gen s) := by
  unfold execCfgStageWrite
  repeat'
    first
      | with_reducible assumption | intro _ | with_reducible apply okOut_next | with_reducible apply State.pageAct_ok
      | with_reducible apply State.stageWrite_ok | split | dsimp only | fail_if_no_progress with_reducible refine ok_mk ?_ rfl rfl rfl rfl rfl rfl

theorem execVerifyStart_ok {qs : List Instr} {ag : Agent} {mode : Bool} {s : State} (hOk : Ok qs s)  : OkOut qs (execVerifyStart ag mode s) := by
  unfold execVerifyStart
  repeat'
    first
      | with_reducible assumption | intro _ | with_reducible apply okOut_next | with_reducible apply State.pageAct_ok
      | with_reducible apply State.setFld_ok | with_reducible apply State.verifyBegin_ok | split | dsimp only
      | fail_if_no_progress with_reducible refine ok_mk ?_ rfl rfl rfl rfl rfl rfl

theorem execSoftResetDone_ok {qs : List Instr} {ty : PageType} {inst : Nat} {s : State} (hOk : Ok qs s)  : OkOut qs (execSoftResetDone ty inst s) :=
    by
  unfold execSoftResetDone
  repeat'
    first
      | with_reducible assumption | intro _ | with_reducible apply okOut_next | split | dsimp only
      | fail_if_no_progress with_reducible refine ok_mk ?_ rfl rfl rfl rfl rfl rfl

end Sys2Proof.Machine
end

