-- ==== Sys2Proof/Laws/KeepArrivals.lean ====
section
/-! SUPPORT. Every operation of Machine/Arrivals.lean keeps what every command keeps. -/
namespace Sys2Proof.Machine
open Sys2Proof
set_option linter.unusedTactic false
set_option linter.unreachableTactic false

theorem State.clearLedger_ok {qs : List Instr} {s : State} {who : Option Nat} {coll : Bool} {a : Nat} {n : Nat} (hOk : Ok qs s)  : Ok qs
    (State.clearLedger s who coll a n) := by
  unfold State.clearLedger
  repeat'
    first
      | with_reducible assumption | intro _ | split | dsimp only | fail_if_no_progress with_reducible refine ok_mk ?_ rfl rfl rfl rfl rfl rfl

theorem State.landBytes_ok {qs : List Instr} {s : State} {who : Option Nat} {coll : Bool} {a : Nat} {bytes : List Byte} {pz : List Nat} (hOk : Ok qs
    s)  : Ok qs (State.landBytes s who coll a bytes pz) := by
  unfold State.landBytes
  repeat'
    first
      | with_reducible assumption | intro _ | with_reducible apply State.storeBlock_ok | with_reducible apply ok_foldl
      | with_reducible apply ok_foldl_fst | split | dsimp only | fail_if_no_progress with_reducible refine ok_mk ?_ rfl rfl rfl rfl rfl rfl

theorem State.landPage_ok {qs : List Instr} {s : State} {ac : Access} {write : Bool} {a : Arrival} (hOk : Ok qs s)  : Ok qs (State.landPage s ac
    write a).1 := by
  suffices h : ∀ r, State.landPage s ac write a = r → Ok qs r.1 from h _ rfl
  intro r hr
  unfold State.landPage at hr
  dsimp only at hr
  repeat' (split at hr)
  all_goals subst hr
  all_goals first | exact ok_fst hOk | exact ok_fst (State.regWrite_ok hOk) | exact ok_fst (State.regRead_ok hOk)

theorem State.landPut_ok {qs : List Instr} {s : State} {who : Option Nat} {ac : Access} {a : Arrival} (hOk : Ok qs s)  : Ok qs (State.landPut s who
    ac a).1 := by
  unfold State.landPut
  repeat'
    first
      | with_reducible assumption | intro _ | with_reducible apply State.landPage_ok | with_reducible apply State.hwinErr_ok
      | with_reducible apply State.touch_ok | with_reducible apply State.clearLedger_ok | with_reducible apply State.landBytes_ok | split
      | dsimp only | fail_if_no_progress with_reducible refine ok_mk ?_ rfl rfl rfl rfl rfl rfl

theorem State.landGet_ok {qs : List Instr} {s : State} {who : Option Nat} {ac : Access} {a : Arrival} (hOk : Ok qs s) : Ok qs (State.landGet s who
    ac a).1 := by
  unfold State.landGet
  repeat'
    first
      | with_reducible assumption | intro _ | with_reducible apply State.landPage_ok | with_reducible apply State.eccAt_ok
      | with_reducible apply State.hwinErr_ok | with_reducible apply State.touch_ok | with_reducible apply ok_foldl
      | with_reducible apply ok_foldl_fst | split | dsimp only | fail_if_no_progress with_reducible refine ok_mk ?_ rfl rfl rfl rfl rfl rfl

theorem State.accPiece_ok {qs : List Instr} {s : State} {a : Arrival} {o : Nat} {n : Nat} (hOk : Ok qs s)  : Ok qs (State.accPiece s a o n) := by
  unfold State.accPiece
  repeat'
    first
      | with_reducible assumption | intro _ | with_reducible apply State.storeBlock_ok | split | dsimp only
      | fail_if_no_progress with_reducible refine ok_mk ?_ rfl rfl rfl rfl rfl rfl

theorem State.accBytes_ok {qs : List Instr} {s : State} {a : Arrival} {o : Nat} {n : Nat} (hOk : Ok qs s)  : Ok qs (State.accBytes s a o n) := by
  unfold State.accBytes
  repeat'
    first
      | with_reducible assumption | intro _ | with_reducible apply State.accPiece_ok | with_reducible apply ok_foldl
      | with_reducible apply ok_foldl_fst | split | dsimp only | fail_if_no_progress with_reducible refine ok_mk ?_ rfl rfl rfl rfl rfl rfl

theorem State.accLine_ok {qs : List Instr} {s : State} {a : Arrival} {t : Tag} {die : Nat} {o : Nat} {n : Nat} (hOk : Ok qs s)  : Ok qs
    (State.accLine s a t die o n) := by
  unfold State.accLine
  repeat'
    first
      | with_reducible assumption | intro _ | with_reducible apply State.accBytes_ok | with_reducible apply State.addSat_ok
      | with_reducible apply State.countEv_ok | split | dsimp only | fail_if_no_progress with_reducible refine ok_mk ?_ rfl rfl rfl rfl rfl rfl

theorem State.accGranule_ok {qs : List Instr} {s : State} {a : Arrival} {g : Nat} (hOk : Ok qs s)  : Ok qs (State.accGranule s a g) := by
  unfold State.accGranule
  repeat'
    first
      | with_reducible assumption | intro _ | with_reducible apply State.accBytes_ok | with_reducible apply State.accLine_ok
      | with_reducible apply ok_foldl | with_reducible apply ok_foldl_fst | split | dsimp only
      | fail_if_no_progress with_reducible refine ok_mk ?_ rfl rfl rfl rfl rfl rfl

theorem State.landAcc_ok {qs : List Instr} {s : State} {who : Option Nat} {a : Arrival} (hOk : Ok qs s)  : Ok qs (State.landAcc s who a).1 := by
  unfold State.landAcc
  repeat'
    first
      | with_reducible assumption | intro _ | with_reducible apply State.hwinErr_ok | with_reducible apply State.eccAt_ok
      | with_reducible apply State.touch_ok | with_reducible apply State.accBytes_ok | with_reducible apply State.accGranule_ok
      | with_reducible apply State.countEv_ok | split | dsimp only | fail_if_no_progress with_reducible refine ok_mk ?_ rfl rfl rfl rfl rfl rfl

theorem State.atomic_ok {qs : List Instr} {s : State} {who : Option Nat} {a : Arrival} {w : Nat} {f : Nat → Option Nat} (hOk : Ok qs s)  : Ok qs
    (State.atomic s who a w f).1 := by
  unfold State.atomic
  repeat'
    first
      | with_reducible assumption | intro _ | with_reducible apply State.hwinErr_ok | with_reducible apply State.eccAt_ok
      | with_reducible apply State.touch_ok | with_reducible apply State.storeBlock_ok | split | dsimp only
      | fail_if_no_progress with_reducible refine ok_mk ?_ rfl rfl rfl rfl rfl rfl

theorem State.landSig_ok {qs : List Instr} {s : State} {who : Option Nat} {a : Arrival} (hOk : Ok qs s)  : Ok qs (State.landSig s who a).1 := by
  unfold State.landSig
  repeat'
    first
      | with_reducible assumption | intro _ | with_reducible apply State.atomic_ok | split | dsimp only
      | fail_if_no_progress with_reducible refine ok_mk ?_ rfl rfl rfl rfl rfl rfl

theorem State.landFadd_ok {qs : List Instr} {s : State} {who : Option Nat} {a : Arrival} (hOk : Ok qs s)  : Ok qs (State.landFadd s who a).1 := by
  unfold State.landFadd
  repeat'
    first
      | with_reducible assumption | intro _ | with_reducible apply State.atomic_ok | split | dsimp only
      | fail_if_no_progress with_reducible refine ok_mk ?_ rfl rfl rfl rfl rfl rfl

theorem State.landCas_ok {qs : List Instr} {s : State} {who : Option Nat} {a : Arrival} (hOk : Ok qs s)  : Ok qs (State.landCas s who a).1 := by
  unfold State.landCas
  repeat'
    first
      | with_reducible assumption | intro _ | with_reducible apply State.atomic_ok | split | dsimp only
      | fail_if_no_progress with_reducible refine ok_mk ?_ rfl rfl rfl rfl rfl rfl

theorem State.applyOp_ok {qs : List Instr} {s : State} {op : Nat} {a : Arrival} {who : Option Nat} {ac : Access} (hOk : Ok qs s) : Ok qs
    (State.applyOp s op a who ac).1 := by
  unfold State.applyOp
  repeat'
    first
      | with_reducible assumption | intro _ | with_reducible apply State.landPut_ok | with_reducible apply State.landGet_ok
      | with_reducible apply State.landAcc_ok | with_reducible apply State.landSig_ok | with_reducible apply State.landFadd_ok
      | with_reducible apply State.landCas_ok | with_reducible apply State.repairLand_ok | with_reducible apply State.rackLanded_ok | split
      | dsimp only | fail_if_no_progress with_reducible refine ok_mk ?_ rfl rfl rfl rfl rfl rfl

theorem State.opAsk_ok {qs : List Instr} {s : State} {op : Nat} {a : Arrival} (hOk : Ok qs s) : Ok qs (State.opAsk s op a) := by
  unfold State.opAsk
  repeat'
    first
      | with_reducible assumption | intro _ | with_reducible apply State.askHost_ok | with_reducible apply ok_foldl
      | with_reducible apply ok_foldl_fst | split | dsimp only | fail_if_no_progress with_reducible refine ok_mk ?_ rfl rfl rfl rfl rfl rfl

theorem State.ackSend_ok {qs : List Instr} {s : State} {h : Nat} {rep : Bool} {seq : Nat} {op : Nat} {a : Arrival} {r : OpAnswer} (hOk : Ok qs s)  :
    Ok qs (State.ackSend s h rep seq op a r) := by
  unfold State.ackSend
  repeat'
    first
      | with_reducible assumption | intro _ | with_reducible apply State.setHeddle_ok | with_reducible apply State.sendFlits_ok | split
      | dsimp only | fail_if_no_progress with_reducible refine ok_mk ?_ rfl rfl rfl rfl rfl rfl

theorem State.answerOp_ok {qs : List Instr} {s : State} {op : Nat} {a : Arrival} {r : OpAnswer} (hOk : Ok qs s) : Ok qs (State.answerOp s op a r) :=
    by
  unfold State.answerOp
  repeat'
    first
      | with_reducible assumption | intro _ | with_reducible apply State.setIssued_ok | with_reducible apply State.ackSend_ok
      | with_reducible apply ok_foldl | with_reducible apply ok_foldl_fst | split | dsimp only
      | fail_if_no_progress with_reducible refine ok_mk ?_ rfl rfl rfl rfl rfl rfl

theorem State.landOp_ok {qs : List Instr} {s : State} {op : Nat} {a : Arrival} {who : Option Nat} {ac : Access} (hOk : Ok qs s)  : Ok qs
    (State.landOp s op a who ac) := by
  unfold State.landOp
  repeat'
    first
      | with_reducible assumption | intro _ | with_reducible apply State.applyOp_ok | with_reducible apply State.answerOp_ok | split | dsimp only
      | fail_if_no_progress with_reducible refine ok_mk ?_ rfl rfl rfl rfl rfl rfl

theorem execSigWaitRelease_ok {qs : List Instr} {idx : Nat} {s : State} (hOk : Ok qs s)  : OkOut qs (execSigWaitRelease idx s) := by
  unfold execSigWaitRelease
  repeat'
    first
      | with_reducible assumption | intro _ | with_reducible apply okOut_next | with_reducible apply State.answerOp_ok | split | dsimp only
      | fail_if_no_progress with_reducible refine ok_mk ?_ rfl rfl rfl rfl rfl rfl

theorem State.returnCredits_ok {qs : List Instr} {s : State} {h : Nat} {rep : Bool} {seq : Nat} {n : Nat} {coll : Bool} (hOk : Ok qs s) : Ok qs
    (State.returnCredits s h rep seq n coll) := by
  unfold State.returnCredits
  repeat'
    first
      | with_reducible assumption | intro _ | with_reducible apply State.setHeddle_ok | with_reducible apply State.sendFlits_ok | split | dsimp only
      | fail_if_no_progress with_reducible refine ok_mk ?_ rfl rfl rfl rfl rfl rfl

theorem State.drainCtx_ok {qs : List Instr} {fuel : Nat} {s : State} {h : Nat} {rep : Bool} (hOk : Ok qs s) :
    Ok qs (State.drainCtx fuel s h rep) := by
  induction fuel generalizing s with
  | zero => exact hOk
  | succ n ih =>
  unfold State.drainCtx
  repeat'
    first
      | with_reducible assumption | intro _ | with_reducible apply ih | with_reducible apply State.opAsk_ok
      | with_reducible apply State.setHeddle_ok | with_reducible apply State.landOp_ok | with_reducible apply State.returnCredits_ok | split
      | dsimp only | fail_if_no_progress with_reducible refine ok_mk ?_ rfl rfl rfl rfl rfl rfl

theorem State.drainHeddle_ok {qs : List Instr} {s : State} {h : Nat} {rep : Bool} (hOk : Ok qs s)  : Ok qs (State.drainHeddle s h rep) := by
  unfold State.drainHeddle
  repeat'
    first
      | with_reducible assumption | intro _ | with_reducible apply State.drainCtx_ok | split | dsimp only
      | fail_if_no_progress with_reducible refine ok_mk ?_ rfl rfl rfl rfl rfl rfl

theorem State.drainAll_ok {qs : List Instr} {s : State} (hOk : Ok qs s)  : Ok qs (State.drainAll s) := by
  unfold State.drainAll
  repeat'
    first
      | with_reducible assumption | intro _ | with_reducible apply State.drainHeddle_ok | with_reducible apply ok_foldl
      | with_reducible apply ok_foldl_fst | split | dsimp only | fail_if_no_progress with_reducible refine ok_mk ?_ rfl rfl rfl rfl rfl rfl

theorem State.ackAgain_ok {qs : List Instr} {s : State} {h : Nat} {rep : Bool} {seq : Nat} (hOk : Ok qs s)  : Ok qs (State.ackAgain s h rep seq) := by
  unfold State.ackAgain
  repeat'
    first
      | with_reducible assumption | intro _ | with_reducible apply State.applyOp_ok | with_reducible apply State.ackSend_ok | split | dsimp only
      | fail_if_no_progress with_reducible refine ok_mk ?_ rfl rfl rfl rfl rfl rfl

theorem State.judgeOp_ok {qs : List Instr} {s : State} {op : Nat} {a : Arrival} {dev : Nat} {hid : Nat} {seq : Nat} {tag : Option Nat} (hOk : Ok qs
    s)  : Ok qs (State.judgeOp s op a dev hid seq tag) := by
  unfold State.judgeOp
  repeat'
    first
      | with_reducible assumption | intro _ | with_reducible apply State.countEv_ok | with_reducible apply State.ackAgain_ok
      | with_reducible apply State.addSat_ok | with_reducible apply State.drainCtx_ok | with_reducible apply State.setHeddle_ok | split
      | dsimp only | fail_if_no_progress with_reducible refine ok_mk ?_ rfl rfl rfl rfl rfl rfl

theorem State.landOwn_ok {qs : List Instr} {s : State} {op : Nat} {id : Nat} {ecc : List BlockEcc} (hOk : Ok qs s) : Ok qs (State.landOwn s op id
    ecc) := by
  unfold State.landOwn
  repeat'
    first
      | with_reducible assumption | intro _ | with_reducible apply State.opAsk_ok | with_reducible apply State.landOp_ok | split | dsimp only
      | fail_if_no_progress with_reducible refine ok_mk ?_ rfl rfl rfl rfl rfl rfl

theorem State.arrive_ok {qs : List Instr} {s : State} {op : Nat} {a : Arrival} (hOk : Ok qs s) : Ok qs (State.arrive s op a) := by
  unfold State.arrive
  repeat'
    first
      | with_reducible assumption | intro _ | with_reducible apply State.nocRetry_ok | with_reducible apply State.landOwn_ok
      | with_reducible apply State.judgeOp_ok | with_reducible apply State.drainAll_ok | split | dsimp only
      | fail_if_no_progress with_reducible refine ok_mk ?_ rfl rfl rfl rfl rfl rfl

theorem State.arriveRepair_ok {qs : List Instr} {s : State} {x : RepairSrc} {m : RepairMsg} (hOk : Ok qs s) : Ok qs (State.arriveRepair s x m) := by
  unfold State.arriveRepair
  repeat'
    first
      | with_reducible assumption | intro _ | with_reducible apply State.arrive_ok | split | dsimp only
      | fail_if_no_progress with_reducible refine ok_mk ?_ rfl rfl rfl rfl rfl rfl

theorem execPut_ok {qs : List Instr} {a : Arrival} {s : State} (hOk : Ok qs s)  : OkOut qs (execPut a s) := by
  unfold execPut
  repeat'
    first
      | with_reducible assumption | intro _ | with_reducible apply okOut_next | with_reducible apply State.arrive_ok | split | dsimp only
      | fail_if_no_progress with_reducible refine ok_mk ?_ rfl rfl rfl rfl rfl rfl

theorem execGet_ok {qs : List Instr} {a : Arrival} {s : State} (hOk : Ok qs s)  : OkOut qs (execGet a s) := by
  unfold execGet
  repeat'
    first
      | with_reducible assumption | intro _ | with_reducible apply okOut_next | with_reducible apply State.arrive_ok | split | dsimp only
      | fail_if_no_progress with_reducible refine ok_mk ?_ rfl rfl rfl rfl rfl rfl

theorem execAcc_ok {qs : List Instr} {a : Arrival} {s : State} (hOk : Ok qs s)  : OkOut qs (execAcc a s) := by
  unfold execAcc
  repeat'
    first
      | with_reducible assumption | intro _ | with_reducible apply okOut_next | with_reducible apply State.arrive_ok | split | dsimp only
      | fail_if_no_progress with_reducible refine ok_mk ?_ rfl rfl rfl rfl rfl rfl

theorem execSig_ok {qs : List Instr} {a : Arrival} {s : State} (hOk : Ok qs s)  : OkOut qs (execSig a s) := by
  unfold execSig
  repeat'
    first
      | with_reducible assumption | intro _ | with_reducible apply okOut_next | with_reducible apply State.arrive_ok | split | dsimp only
      | fail_if_no_progress with_reducible refine ok_mk ?_ rfl rfl rfl rfl rfl rfl

theorem execFadd_ok {qs : List Instr} {a : Arrival} {s : State} (hOk : Ok qs s)  : OkOut qs (execFadd a s) := by
  unfold execFadd
  repeat'
    first
      | with_reducible assumption | intro _ | with_reducible apply okOut_next | with_reducible apply State.arrive_ok | split | dsimp only
      | fail_if_no_progress with_reducible refine ok_mk ?_ rfl rfl rfl rfl rfl rfl

theorem execCas_ok {qs : List Instr} {a : Arrival} {s : State} (hOk : Ok qs s)  : OkOut qs (execCas a s) := by
  unfold execCas
  repeat'
    first
      | with_reducible assumption | intro _ | with_reducible apply okOut_next | with_reducible apply State.arrive_ok | split | dsimp only
      | fail_if_no_progress with_reducible refine ok_mk ?_ rfl rfl rfl rfl rfl rfl

theorem execRack_ok {qs : List Instr} {a : Arrival} {s : State} (hOk : Ok qs s)  : OkOut qs (execRack a s) := by
  unfold execRack
  repeat'
    first
      | with_reducible assumption | intro _ | with_reducible apply okOut_next | with_reducible apply State.arrive_ok | split | dsimp only
      | fail_if_no_progress with_reducible refine ok_mk ?_ rfl rfl rfl rfl rfl rfl

theorem State.opReturn_ok {qs : List Instr} {s : State} {o : IssuedOp} {r : OpAnswer} (hOk : Ok qs s)  : Ok qs (State.opReturn s o r) := by
  unfold State.opReturn
  repeat'
    first
      | with_reducible assumption | intro _ | with_reducible apply State.windowWrite_ok | split | dsimp only
      | fail_if_no_progress with_reducible refine ok_mk ?_ rfl rfl rfl rfl rfl rfl

theorem State.opAcked_ok {qs : List Instr} {s : State} {o : IssuedOp} (hOk : Ok qs s)  : Ok qs (State.opAcked s o) := by
  unfold State.opAcked
  repeat'
    first
      | with_reducible assumption | intro _ | with_reducible apply State.tileAcked_ok | with_reducible apply State.rackTry_ok | split | dsimp only
      | fail_if_no_progress with_reducible refine ok_mk ?_ rfl rfl rfl rfl rfl rfl

theorem execAcknowledgement_ok {qs : List Instr} {id : Nat} {status : Fin 16} {data : List Byte} {poison : List Nat} {s : State} (hOk : Ok qs s)  :
    OkOut qs (execAcknowledgement id status data poison s) := by
  unfold execAcknowledgement
  repeat'
    first
      | with_reducible assumption | intro _ | with_reducible apply okOut_next | with_reducible apply State.opReturn_ok
      | with_reducible apply State.countStatus_ok | with_reducible apply State.retire_ok | with_reducible apply State.opAcked_ok
      | with_reducible apply ok_id | split | dsimp only | fail_if_no_progress with_reducible refine ok_mk ?_ rfl rfl rfl rfl rfl rfl

theorem execResend_ok {qs : List Instr} {id : Nat} {s : State} (hOk : Ok qs s) : OkOut qs (execResend id s) := by
  unfold execResend
  repeat'
    first
      | with_reducible assumption | intro _ | with_reducible apply okOut_next | with_reducible apply State.addSat_ok
      | with_reducible apply State.sendOp_ok | split | dsimp only | fail_if_no_progress with_reducible refine ok_mk ?_ rfl rfl rfl rfl rfl rfl

theorem execBisnpResponse_ok {qs : List Instr} {die : Fin 8} {line : BitVec 48} {data : List Byte} {s : State} (hOk : Ok qs s)  : OkOut qs
    (execBisnpResponse die line data s) := by
  unfold execBisnpResponse
  repeat'
    first
      | with_reducible assumption | intro _ | with_reducible apply okOut_next | with_reducible apply State.storeBlock_ok
      | with_reducible apply State.setFilter_ok | with_reducible apply State.drainAll_ok | with_reducible apply State.mvRetry_ok | split
      | dsimp only | fail_if_no_progress with_reducible refine ok_mk ?_ rfl rfl rfl rfl rfl rfl

theorem State.goAnswer_ok {qs : List Instr} {s : State} {die : Nat} {line : Nat} {pull : Bool} (hOk : Ok qs s) : Ok qs (State.goAnswer s die line
    pull) := by
  unfold State.goAnswer
  repeat'
    first
      | with_reducible assumption | intro _ | with_reducible apply State.setEvict_ok | with_reducible apply State.emit_ok | split | dsimp only
      | fail_if_no_progress with_reducible refine ok_mk ?_ rfl rfl rfl rfl rfl rfl

theorem execGoWritePullDrop_ok {qs : List Instr} {die : Fin 8} {line : BitVec 48} {s : State} (hOk : Ok qs s) : OkOut qs (execGoWritePullDrop die
    line s) := by
  unfold execGoWritePullDrop
  repeat'
    first
      | with_reducible assumption | intro _ | with_reducible apply okOut_next | with_reducible apply State.goAnswer_ok
      | with_reducible apply State.drainAll_ok | split | dsimp only | fail_if_no_progress with_reducible refine ok_mk ?_ rfl rfl rfl rfl rfl rfl

theorem execGoWritePull_ok {qs : List Instr} {die : Fin 8} {line : BitVec 48} {s : State} (hOk : Ok qs s) : OkOut qs (execGoWritePull die line s) :=
    by
  unfold execGoWritePull
  repeat'
    first
      | with_reducible assumption | intro _ | with_reducible apply okOut_next | with_reducible apply State.goAnswer_ok
      | with_reducible apply State.drainAll_ok | split | dsimp only | fail_if_no_progress with_reducible refine ok_mk ?_ rfl rfl rfl rfl rfl rfl

theorem execCxlMemRequest_ok {qs : List Instr} {write : Bool} {addr : BitVec 48} {data : List Byte} {own : Bool} {s : State} (hOk : Ok qs s)  : OkOut
    qs (execCxlMemRequest write addr data own s) := by
  unfold execCxlMemRequest
  repeat'
    first
      | with_reducible assumption | intro _ | with_reducible apply okOut_next | with_reducible apply State.hostCount_ok
      | with_reducible apply State.emit_ok | with_reducible apply State.storeBlock_ok | with_reducible apply State.setFilter_ok
      | with_reducible apply State.backSnoop_ok | split | dsimp only | fail_if_no_progress with_reducible refine ok_mk ?_ rfl rfl rfl rfl rfl rfl

end Sys2Proof.Machine
end

