-- ==== Sys2Proof/Laws/KeepEpilogue.lean ====
section
/-! SUPPORT. Every operation of Machine/Epilogue.lean keeps what every command keeps. -/
namespace Sys2Proof.Machine
open Sys2Proof
set_option linter.unusedTactic false
set_option linter.unreachableTactic false

theorem State.drainRow_ok {qs : List Instr} {s : State} {c : Nat} {n : Nat} {d : Drain} (hOk : Ok qs s)  : Ok qs (State.drainRow s c n d).1 := by
  unfold State.drainRow
  repeat'
    first
      | with_reducible assumption | intro _ | with_reducible apply State.setArr_ok | with_reducible apply State.emitRow_ok
      | with_reducible apply State.countEv_ok | with_reducible apply State.addSat_ok | with_reducible apply State.corePoison_ok
      | with_reducible apply ok_foldl | with_reducible apply ok_foldl_fst | with_reducible apply ok_id | split | dsimp only
      | fail_if_no_progress with_reducible refine ok_mk ?_ rfl rfl rfl rfl rfl rfl

theorem State.drained_ok {qs : List Instr} {s : State} {c : Nat} {n : Nat} {d : Drain} (hOk : Ok qs s) : Ok qs (State.drained s c n d) := by
  unfold State.drained
  repeat'
    first
      | with_reducible assumption | intro _ | with_reducible apply State.setArr_ok | split | dsimp only
      | fail_if_no_progress with_reducible refine ok_mk ?_ rfl rfl rfl rfl rfl rfl

theorem State.drainZeros_ok {qs : List Instr} {s : State} {c : Nat} {n : Nat} {d : Drain} {rest : List Drain} (hOk : Ok qs s) : Ok qs
    (State.drainZeros s c n d rest) := by
  unfold State.drainZeros
  repeat'
    first
      | with_reducible assumption | intro _ | with_reducible apply State.emitRow_ok | with_reducible apply State.setArr_ok
      | with_reducible apply State.drained_ok | with_reducible apply State.startLoad_ok | split | dsimp only
      | fail_if_no_progress with_reducible refine ok_mk ?_ rfl rfl rfl rfl rfl rfl

theorem State.drainEnd_ok {qs : List Instr} {s : State} {c : Nat} {n : Nat} {d : Drain} (hOk : Ok qs s) : Ok qs (State.drainEnd s c n d) := by
  unfold State.drainEnd
  repeat'
    first
      | with_reducible assumption | intro _ | with_reducible apply State.unitOow_ok | with_reducible apply State.windowWrite_ok
      | with_reducible apply State.countEv_ok | with_reducible apply State.addSat_ok | with_reducible apply State.setFld_ok
      | with_reducible apply State.handTile_ok | with_reducible apply State.drained_ok | with_reducible apply State.startLoad_ok | split
      | dsimp only | fail_if_no_progress with_reducible refine ok_mk ?_ rfl rfl rfl rfl rfl rfl

theorem execEpilogueDrain_ok {qs : List Instr} {core : Fin 512} {arr : Fin 2} {_cyc : Nat} {accept : Bool} {ecc : Ecc} {s : State} (hOk : Ok qs s) :
    OkOut qs (execEpilogueDrain core arr _cyc accept ecc s) := by
  unfold execEpilogueDrain
  repeat'
    first
      | with_reducible assumption | intro _ | with_reducible apply okOut_next | with_reducible apply State.addSat_ok
      | with_reducible apply State.drainZeros_ok | with_reducible apply State.arrEcc_ok | with_reducible apply State.drainRow_ok
      | with_reducible apply State.setArr_ok | with_reducible apply State.drainEnd_ok | split | dsimp only
      | fail_if_no_progress with_reducible refine ok_mk ?_ rfl rfl rfl rfl rfl rfl

end Sys2Proof.Machine
end

