-- ==== Sys2Proof/Laws/KeepHostMem.lean ====
section
/-! SUPPORT. Every operation of Machine/HostMem.lean keeps what every command keeps. -/
namespace Sys2Proof.Machine
open Sys2Proof
set_option linter.unusedTactic false
set_option linter.unreachableTactic false

theorem State.bar2Reply_ok {qs : List Instr} {s : State} {fn : Nat} {write : Bool} {bytes : List Byte} {pz : Bool} (hOk : Ok qs s)  : Ok qs
    (State.bar2Reply s fn write bytes pz) := by
  unfold State.bar2Reply
  repeat'
    first
      | with_reducible assumption | intro _ | with_reducible apply State.emit_ok | split | dsimp only
      | fail_if_no_progress with_reducible refine ok_mk ?_ rfl rfl rfl rfl rfl rfl

theorem State.bar2Page_ok {qs : List Instr} {s : State} {fn : Nat} {write : Bool} {a : Nat} {len : Nat} {data : List Byte} (hOk : Ok qs s)  : Ok qs
    (State.bar2Page s fn write a len data) := by
  unfold State.bar2Page
  repeat'
    first
      | with_reducible assumption | intro _ | with_reducible apply State.regWrite_ok | with_reducible apply State.regRead_ok
      | with_reducible apply State.bar2Reply_ok | split | dsimp only | fail_if_no_progress with_reducible refine ok_mk ?_ rfl rfl rfl rfl rfl rfl

theorem State.bar2Mem_ok {qs : List Instr} {s : State} {fn : Nat} {write : Bool} {a : Nat} {len : Nat} {data : List Byte} {poisoned : Bool} (hOk : Ok
    qs s)  : Ok qs (State.bar2Mem s fn write a len data poisoned) := by
  unfold State.bar2Mem
  repeat'
    first
      | with_reducible assumption | intro _ | with_reducible apply State.hostCount_ok | with_reducible apply State.touch_ok
      | with_reducible apply State.landBytes_ok | with_reducible apply State.poisoned_ok | with_reducible apply State.countEv_ok
      | with_reducible apply State.bar2Reply_ok | split | dsimp only | fail_if_no_progress with_reducible refine ok_mk ?_ rfl rfl rfl rfl rfl rfl

theorem execBar2Access_ok {qs : List Instr} {fn : Fin 9} {write : Bool} {off : Nat} {len : Nat} {data : List Byte} {poisoned : Bool} {s : State} (hOk
    : Ok qs s)  : OkOut qs (execBar2Access fn write off len data poisoned s) := by
  unfold execBar2Access
  repeat'
    first
      | with_reducible assumption | intro _ | with_reducible apply okOut_next | with_reducible apply State.emit_ok
      | with_reducible apply State.hostCount_ok | with_reducible apply State.bar2Reply_ok | with_reducible apply State.bar2Page_ok
      | with_reducible apply State.askHost_ok | with_reducible apply State.bar2Mem_ok | with_reducible apply State.poisoned_ok | split | dsimp only
      | fail_if_no_progress with_reducible refine ok_mk ?_ rfl rfl rfl rfl rfl rfl

end Sys2Proof.Machine
end

