-- ==== Sys2Proof/Laws/KeepPageMem.lean ====
section
/-! SUPPORT. Every operation of Machine/PageMem.lean keeps what every command keeps. -/
namespace Sys2Proof.Machine
open Sys2Proof
set_option linter.unusedTactic false
set_option linter.unreachableTactic false

theorem State.scalarOow_ok {qs : List Instr} {s : State} {c : Nat} {a : Nat} {n : Nat} {write : Bool} (hOk : Ok qs s)  : Ok qs (State.scalarOow s c a
    n write) := by
  unfold State.scalarOow
  repeat'
    first
      | with_reducible assumption | intro _ | with_reducible apply State.strOow_ok | with_reducible apply State.oowAccess_ok
      | with_reducible apply State.countErr_ok | split | dsimp only | fail_if_no_progress with_reducible refine ok_mk ?_ rfl rfl rfl rfl rfl rfl

theorem State.strandLoad_ok {qs : List Instr} {s : State} {op : Nat} {i : Issue} (hOk : Ok qs s) : Ok qs (State.strandLoad s op i) := by
  unfold State.strandLoad
  repeat'
    first
      | with_reducible assumption | intro _ | with_reducible apply State.issue_ok | with_reducible apply State.scalarOow_ok
      | with_reducible apply State.wd_ok | with_reducible apply State.splEcc_ok | with_reducible apply State.corePoison_ok
      | with_reducible apply State.regRead_ok | split | dsimp only | fail_if_no_progress with_reducible refine ok_mk ?_ rfl rfl rfl rfl rfl rfl

theorem execLd_ok {qs : List Instr} {i : Issue} {s : State} (hOk : Ok qs s)  : OkOut qs (execLd i s) := by
  unfold execLd
  repeat'
    first
      | with_reducible assumption | intro _ | with_reducible apply okOut_next | with_reducible apply State.strandLoad_ok | split | dsimp only
      | fail_if_no_progress with_reducible refine ok_mk ?_ rfl rfl rfl rfl rfl rfl

theorem execLdv_ok {qs : List Instr} {i : Issue} {s : State} (hOk : Ok qs s)  : OkOut qs (execLdv i s) := by
  unfold execLdv
  repeat'
    first
      | with_reducible assumption | intro _ | with_reducible apply okOut_next | with_reducible apply State.strandLoad_ok | split | dsimp only
      | fail_if_no_progress with_reducible refine ok_mk ?_ rfl rfl rfl rfl rfl rfl

theorem execSt_ok {qs : List Instr} {i : Issue} {s : State} (hOk : Ok qs s)  : OkOut qs (execSt i s) := by
  unfold execSt
  repeat'
    first
      | with_reducible assumption | intro _ | with_reducible apply okOut_next | with_reducible apply State.issue_ok
      | with_reducible apply State.scalarOow_ok | with_reducible apply State.windowWrite_ok | with_reducible apply State.regWrite_ok | split
      | dsimp only | fail_if_no_progress with_reducible refine ok_mk ?_ rfl rfl rfl rfl rfl rfl

theorem execLdp_ok {qs : List Instr} {i : Issue} {s : State} (hOk : Ok qs s)  : OkOut qs (execLdp i s) := by
  unfold execLdp
  repeat'
    first
      | with_reducible assumption | intro _ | with_reducible apply okOut_next | with_reducible apply State.issue_ok
      | with_reducible apply State.regRead_ok | with_reducible apply State.wd_ok | with_reducible apply State.strOow_ok | split | dsimp only
      | fail_if_no_progress with_reducible refine ok_mk ?_ rfl rfl rfl rfl rfl rfl

theorem execStp_ok {qs : List Instr} {i : Issue} {s : State} (hOk : Ok qs s)  : OkOut qs (execStp i s) := by
  unfold execStp
  repeat'
    first
      | with_reducible assumption | intro _ | with_reducible apply okOut_next | with_reducible apply State.issue_ok
      | with_reducible apply State.regWrite_ok | with_reducible apply State.strOow_ok | split | dsimp only
      | fail_if_no_progress with_reducible refine ok_mk ?_ rfl rfl rfl rfl rfl rfl

end Sys2Proof.Machine
end

