-- ==== Sys2Proof/Laws/KeepSched.lean ====
section
/-! SUPPORT. Every operation of Machine/Sched.lean keeps what every command keeps. -/
namespace Sys2Proof.Machine
open Sys2Proof
set_option linter.unusedTactic false
set_option linter.unreachableTactic false

theorem State.seqCount_ok {qs : List Instr} {s : State} {l : List (Nat × Nat)} (hOk : Ok qs s) : Ok qs (State.seqCount s l) := by
  unfold State.seqCount
  repeat'
    first
      | with_reducible assumption | intro _ | with_reducible apply State.accessDone_ok | with_reducible apply ok_foldl
      | with_reducible apply ok_foldl_fst | split | dsimp only | fail_if_no_progress with_reducible refine ok_mk ?_ rfl rfl rfl rfl rfl rfl

theorem State.nextConfig_ok {qs : List Instr} {s : State} (hOk : Ok qs s)  : Ok qs (State.nextConfig s) := by
  unfold State.nextConfig
  repeat'
    first
      | with_reducible assumption | intro _ | with_reducible apply State.resulting_ok | split | dsimp only
      | fail_if_no_progress with_reducible refine ok_mk ?_ rfl rfl rfl rfl rfl rfl

theorem State.schedBad_ok {qs : List Instr} {s : State} (hOk : Ok qs s)  : Ok qs (State.schedBad s) := by
  unfold State.schedBad
  repeat'
    first
      | with_reducible assumption | intro _ | with_reducible apply State.raise_ok | with_reducible apply State.cause_ok | split | dsimp only
      | fail_if_no_progress with_reducible refine ok_mk ?_ rfl rfl rfl rfl rfl rfl

theorem State.entryChecked_ok {qs : List Instr} {s : State} {o : Option Entry} (hOk : Ok qs s) : Ok qs (State.entryChecked s o) := by
  cases o with
  | none =>
  unfold State.entryChecked
  repeat'
    first
      | with_reducible assumption | intro _ | with_reducible apply State.schedBad_ok | split | dsimp only
      | fail_if_no_progress with_reducible refine ok_mk ?_ rfl rfl rfl rfl rfl rfl
  | some e =>
  unfold State.entryChecked
  repeat'
    first
      | with_reducible assumption | intro _ | with_reducible apply State.schedBad_ok | split | dsimp only
      | fail_if_no_progress with_reducible refine ok_mk ?_ rfl rfl rfl rfl rfl rfl

theorem State.entryCheckAt_ok {qs : List Instr} {s : State} {o : Option Nat} (hOk : Ok qs s) : Ok qs (State.entryCheckAt s o) := by
  cases o with
  | none => exact hOk
  | some e => exact State.entryChecked_ok (State.seqCount_ok hOk)

theorem State.entryCheck_ok {qs : List Instr} {s : State} (hOk : Ok qs s)  : Ok qs (State.entryCheck s) := by
  unfold State.entryCheck
  repeat'
    first
      | with_reducible assumption | intro _ | with_reducible apply State.entryCheckAt_ok | split | dsimp only
      | fail_if_no_progress with_reducible refine ok_mk ?_ rfl rfl rfl rfl rfl rfl

theorem execSchedEntryCheck_ok {qs : List Instr} {s : State} (hOk : Ok qs s) : OkOut qs (execSchedEntryCheck s) := by
  unfold execSchedEntryCheck
  repeat'
    first
      | with_reducible assumption | intro _ | with_reducible apply okOut_next | with_reducible apply State.whenReadable_ok
      | with_reducible apply State.entryCheck_ok | split | dsimp only | fail_if_no_progress with_reducible refine ok_mk ?_ rfl rfl rfl rfl rfl rfl

theorem State.coreTask_ok {qs : List Instr} {s : State} {c : Nat} {task : Nat} {entry : Nat} {arg : Nat} (hOk : Ok qs s)  : Ok qs (State.coreTask s c
    task entry arg) := by
  unfold State.coreTask
  repeat'
    first
      | with_reducible assumption | intro _ | with_reducible apply State.setCore_ok | split | dsimp only
      | fail_if_no_progress with_reducible refine ok_mk ?_ rfl rfl rfl rfl rfl rfl

theorem State.argCount_ok {qs : List Instr} {s : State} {t : TaskRec} (hOk : Ok qs s) : Ok qs (State.argCount s t) := by
  unfold State.argCount
  repeat'
    first
      | with_reducible assumption | intro _ | with_reducible apply State.accessDone_ok | split | dsimp only
      | fail_if_no_progress with_reducible refine ok_mk ?_ rfl rfl rfl rfl rfl rfl

theorem State.startUnit_ok {qs : List Instr} {s : State} {idx : Nat} {t : TaskRec} {ns : Nat} (hOk : Ok qs s) : Ok qs (State.startUnit s idx t ns)
    := by
  unfold State.startUnit
  repeat'
    first
      | with_reducible assumption | intro _ | with_reducible apply State.argCount_ok | with_reducible apply State.coreTask_ok
      | with_reducible apply State.solvTask_ok | with_reducible apply State.updTask_ok | with_reducible apply State.collTask_ok | split | dsimp only
      | fail_if_no_progress with_reducible refine ok_mk ?_ rfl rfl rfl rfl rfl rfl

theorem State.setTask_ok {qs : List Instr} {s : State} {idx : Nat} {t : Task} {ns : Nat} (hOk : Ok qs s)  : Ok qs (State.setTask s idx t ns) := by
  unfold State.setTask
  repeat'
    first
      | with_reducible assumption | intro _ | with_reducible apply State.modPick_ok | split | dsimp only
      | fail_if_no_progress with_reducible refine ok_mk ?_ rfl rfl rfl rfl rfl rfl

theorem State.taskStart_ok {qs : List Instr} {s : State} {idx : Nat} {ns : Nat} (hOk : Ok qs s)  : Ok qs (State.taskStart s idx ns) := by
  unfold State.taskStart
  repeat'
    first
      | with_reducible assumption | intro _ | with_reducible apply State.whenReadable_ok | with_reducible apply State.startUnit_ok
      | with_reducible apply State.setTask_ok | split | dsimp only | fail_if_no_progress with_reducible refine ok_mk ?_ rfl rfl rfl rfl rfl rfl

theorem execTaskStart_ok {qs : List Instr} {idx : Nat} {ns : Nat} {s : State} (hOk : Ok qs s)  : OkOut qs (execTaskStart idx ns s) := by
  unfold execTaskStart
  repeat'
    first
      | with_reducible assumption | intro _ | with_reducible apply okOut_next | with_reducible apply State.taskStart_ok | split | dsimp only
      | fail_if_no_progress with_reducible refine ok_mk ?_ rfl rfl rfl rfl rfl rfl

theorem State.endUnit_ok {qs : List Instr} {s : State} {t : TaskRec} (hOk : Ok qs s)  : Ok qs (State.endUnit s t) := by
  unfold State.endUnit
  repeat'
    first
      | with_reducible assumption | intro _ | with_reducible apply State.setCore_ok | with_reducible apply State.setSolver_ok
      | with_reducible apply State.setSlice_ok | with_reducible apply State.setColl_ok | split | dsimp only
      | fail_if_no_progress with_reducible refine ok_mk ?_ rfl rfl rfl rfl rfl rfl

theorem State.taskFinish_ok {qs : List Instr} {s : State} {idx : Nat} {ns : Nat} (hOk : Ok qs s)  : Ok qs (State.taskFinish s idx ns) := by
  unfold State.taskFinish
  repeat'
    first
      | with_reducible assumption | intro _ | with_reducible apply State.overrun_ok | with_reducible apply State.addSat_ok
      | with_reducible apply State.endUnit_ok | with_reducible apply State.setTask_ok | split | dsimp only
      | fail_if_no_progress with_reducible refine ok_mk ?_ rfl rfl rfl rfl rfl rfl

theorem execTaskFinish_ok {qs : List Instr} {idx : Nat} {ns : Nat} {s : State} (hOk : Ok qs s)  : OkOut qs (execTaskFinish idx ns s) := by
  unfold execTaskFinish
  repeat'
    first
      | with_reducible assumption | intro _ | with_reducible apply okOut_next | with_reducible apply State.taskFinish_ok | split | dsimp only
      | fail_if_no_progress with_reducible refine ok_mk ?_ rfl rfl rfl rfl rfl rfl

end Sys2Proof.Machine
end

