-- ==== Sys2Proof/Laws/KeepVote.lean ====
section
/-! SUPPORT. Every operation of Machine/Vote.lean keeps what every command keeps. -/
namespace Sys2Proof.Machine
open Sys2Proof
set_option linter.unusedTactic false
set_option linter.unreachableTactic false

theorem State.sendAlign_ok {qs : List Instr} {s : State} {l : Nat} {edge : Bool} (hOk : Ok qs s)  : Ok qs (State.sendAlign s l edge) := by
  unfold State.sendAlign
  repeat'
    first
      | with_reducible assumption | intro _ | with_reducible apply State.addWrap_ok | with_reducible apply State.emit_ok
      | with_reducible apply State.align_ok | split | dsimp only | fail_if_no_progress with_reducible refine ok_mk ?_ rfl rfl rfl rfl rfl rfl

theorem State.flood_ok {qs : List Instr} {s : State} (hOk : Ok qs s)  : Ok qs (State.flood s) := by
  unfold State.flood
  repeat'
    first
      | with_reducible assumption | intro _ | with_reducible apply State.sendAlign_ok | with_reducible apply ok_foldl
      | with_reducible apply ok_foldl_fst | split | dsimp only | fail_if_no_progress with_reducible refine ok_mk ?_ rfl rfl rfl rfl rfl rfl

theorem execAlignInterval_ok {qs : List Instr} {link : Fin 36} {s : State} (hOk : Ok qs s)  : OkOut qs (execAlignInterval link s) := by
  unfold execAlignInterval
  repeat'
    first
      | with_reducible assumption | intro _ | with_reducible apply okOut_next | with_reducible apply State.sendAlign_ok | split | dsimp only
      | fail_if_no_progress with_reducible refine ok_mk ?_ rfl rfl rfl rfl rfl rfl

theorem State.fenceRec_ok {qs : List Instr} {s : State} {cause : Nat} {l : Nat} (hOk : Ok qs s)  : Ok qs (State.fenceRec s cause l) := by
  unfold State.fenceRec
  repeat'
    first
      | with_reducible assumption | intro _ | with_reducible apply State.bookPush_ok | with_reducible apply State.cause_ok | split | dsimp only
      | fail_if_no_progress with_reducible refine ok_mk ?_ rfl rfl rfl rfl rfl rfl

theorem State.fenceSelf_ok {qs : List Instr} {s : State} {cause : Nat} {l : Nat} (hOk : Ok qs s)  : Ok qs (State.fenceSelf s cause l) := by
  unfold State.fenceSelf
  repeat'
    first
      | with_reducible assumption | intro _ | with_reducible apply State.fenceRec_ok | with_reducible apply State.cause_ok
      | with_reducible apply State.modPick_ok | split | dsimp only | fail_if_no_progress with_reducible refine ok_mk ?_ rfl rfl rfl rfl rfl rfl

theorem State.fencePeer_ok {qs : List Instr} {s : State} {l : Nat} (hOk : Ok qs s)  : Ok qs (State.fencePeer s l) := by
  unfold State.fencePeer
  repeat'
    first
      | with_reducible assumption | intro _ | with_reducible apply State.fenceRec_ok | with_reducible apply State.setLink_ok
      | with_reducible apply State.permSync_ok | split | dsimp only | fail_if_no_progress with_reducible refine ok_mk ?_ rfl rfl rfl rfl rfl rfl

theorem State.overrun_ok {qs : List Instr} {s : State} {idx : Nat} {t : Task} (hOk : Ok qs s)  : Ok qs (State.overrun s idx t) := by
  unfold State.overrun
  repeat'
    first
      | with_reducible assumption | intro _ | with_reducible apply State.raise_ok | with_reducible apply State.addSat_ok
      | with_reducible apply State.cause_ok | with_reducible apply State.modPick_ok | split | dsimp only
      | fail_if_no_progress with_reducible refine ok_mk ?_ rfl rfl rfl rfl rfl rfl

theorem State.compareLate_ok {qs : List Instr} {s : State} (hOk : Ok qs s)  : Ok qs (State.compareLate s) := by
  unfold State.compareLate
  repeat'
    first
      | with_reducible assumption | intro _ | with_reducible apply State.raise_ok | with_reducible apply State.addSat_ok
      | with_reducible apply State.cause_ok | split | dsimp only | fail_if_no_progress with_reducible refine ok_mk ?_ rfl rfl rfl rfl rfl rfl

theorem State.beatUp_ok {qs : List Instr} {s : State} (hOk : Ok qs s)  : Ok qs (State.beatUp s) := by
  unfold State.beatUp
  repeat'
    first
      | with_reducible assumption | intro _ | with_reducible apply State.modPick_ok | with_reducible apply State.overrun_ok
      | with_reducible apply State.compareLate_ok | with_reducible apply State.flushLate_ok | with_reducible apply ok_foldl
      | with_reducible apply ok_foldl_fst | split | dsimp only | fail_if_no_progress with_reducible refine ok_mk ?_ rfl rfl rfl rfl rfl rfl

theorem execBeatUpStart_ok {qs : List Instr} {s : State} (hOk : Ok qs s)  : OkOut qs (execBeatUpStart s) := by
  unfold execBeatUpStart
  repeat'
    first
      | with_reducible assumption | intro _ | with_reducible apply okOut_next | with_reducible apply State.beatUp_ok | split | dsimp only
      | fail_if_no_progress with_reducible refine ok_mk ?_ rfl rfl rfl rfl rfl rfl

theorem State.votePoint_ok {qs : List Instr} {s : State} (hOk : Ok qs s)  : Ok qs (State.votePoint s) := by
  unfold State.votePoint
  repeat'
    first
      | with_reducible assumption | intro _ | with_reducible apply State.entryCheck_ok | with_reducible apply State.cause_ok
      | with_reducible apply State.setFld_ok | with_reducible apply State.modPick_ok | with_reducible apply State.flood_ok | split | dsimp only
      | fail_if_no_progress with_reducible refine ok_mk ?_ rfl rfl rfl rfl rfl rfl

theorem execVotePoint_ok {qs : List Instr} {s : State} (hOk : Ok qs s)  : OkOut qs (execVotePoint s) := by
  unfold execVotePoint
  repeat'
    first
      | with_reducible assumption | intro _ | with_reducible apply okOut_next | with_reducible apply State.beatUp_ok
      | with_reducible apply State.votePoint_ok | split | dsimp only | fail_if_no_progress with_reducible refine ok_mk ?_ rfl rfl rfl rfl rfl rfl

theorem State.confirmPoint_ok {qs : List Instr} {s : State} (hOk : Ok qs s)  : Ok qs (State.confirmPoint s) := by
  unfold State.confirmPoint
  repeat'
    first
      | with_reducible assumption | intro _ | with_reducible apply State.cause_ok | with_reducible apply State.setFld_ok
      | with_reducible apply State.modPick_ok | with_reducible apply State.flood_ok | split | dsimp only
      | fail_if_no_progress with_reducible refine ok_mk ?_ rfl rfl rfl rfl rfl rfl

theorem execConfirmPoint_ok {qs : List Instr} {s : State} (hOk : Ok qs s)  : OkOut qs (execConfirmPoint s) := by
  unfold execConfirmPoint
  repeat'
    first
      | with_reducible assumption | intro _ | with_reducible apply okOut_next | with_reducible apply State.confirmPoint_ok | split | dsimp only
      | fail_if_no_progress with_reducible refine ok_mk ?_ rfl rfl rfl rfl rfl rfl

theorem State.dissent_ok {qs : List Instr} {s : State} {l : Nat} (hOk : Ok qs s)  : Ok qs (State.dissent s l) := by
  unfold State.dissent
  repeat'
    first
      | with_reducible assumption | intro _ | with_reducible apply State.raise_ok | with_reducible apply State.fenceSelf_ok
      | with_reducible apply State.modPick_ok | split | dsimp only | fail_if_no_progress with_reducible refine ok_mk ?_ rfl rfl rfl rfl rfl rfl

theorem State.lateOutcome_ok {qs : List Instr} {s : State} (hOk : Ok qs s)  : Ok qs (State.lateOutcome s) := by
  unfold State.lateOutcome
  repeat'
    first
      | with_reducible assumption | intro _ | with_reducible apply State.setFld_ok | with_reducible apply State.raise_ok
      | with_reducible apply State.bookPush_ok | split | dsimp only | fail_if_no_progress with_reducible refine ok_mk ?_ rfl rfl rfl rfl rfl rfl

theorem State.decisionPoint_ok {qs : List Instr} {s : State} (hOk : Ok qs s)  : Ok qs (State.decisionPoint s) := by
  unfold State.decisionPoint
  repeat'
    first
      | with_reducible assumption | intro _ | with_reducible apply State.dissent_ok | with_reducible apply State.setFld_ok
      | with_reducible apply State.modPick_ok | with_reducible apply State.outcome_ok | with_reducible apply State.lateOutcome_ok | split
      | dsimp only | fail_if_no_progress with_reducible refine ok_mk ?_ rfl rfl rfl rfl rfl rfl

theorem execDecisionPoint_ok {qs : List Instr} {s : State} (hOk : Ok qs s)  : OkOut qs (execDecisionPoint s) := by
  unfold execDecisionPoint
  repeat'
    first
      | with_reducible assumption | intro _ | with_reducible apply okOut_next | with_reducible apply State.decisionPoint_ok | split | dsimp only
      | fail_if_no_progress with_reducible refine ok_mk ?_ rfl rfl rfl rfl rfl rfl

theorem State.alignConfig_ok {qs : List Instr} {s : State} {l : Nat} {f : AlignFlit} (hOk : Ok qs s)  : Ok qs (State.alignConfig s l f) := by
  unfold State.alignConfig
  repeat'
    first
      | with_reducible assumption | intro _ | with_reducible apply State.setLink_ok | with_reducible apply State.linkJudge_ok | split | dsimp only
      | fail_if_no_progress with_reducible refine ok_mk ?_ rfl rfl rfl rfl rfl rfl

theorem State.alignPhase_ok {qs : List Instr} {s : State} {l : Nat} {f : AlignFlit} (hOk : Ok qs s)  : Ok qs (State.alignPhase s l f) := by
  unfold State.alignPhase
  repeat'
    first
      | with_reducible assumption | intro _ | with_reducible apply State.setFld_ok | with_reducible apply State.raise_ok | split | dsimp only
      | fail_if_no_progress with_reducible refine ok_mk ?_ rfl rfl rfl rfl rfl rfl

theorem State.alignLock_ok {qs : List Instr} {s : State} {l : Nat} {f : AlignFlit} (hOk : Ok qs s)  : Ok qs (State.alignLock s l f) := by
  unfold State.alignLock
  repeat'
    first
      | with_reducible assumption | intro _ | with_reducible apply State.setFld_ok | with_reducible apply State.modPick_ok | split | dsimp only
      | fail_if_no_progress with_reducible refine ok_mk ?_ rfl rfl rfl rfl rfl rfl

theorem State.alignFenced_ok {qs : List Instr} {s : State} {l : Nat} {f : AlignFlit} (hOk : Ok qs s)  : Ok qs (State.alignFenced s l f) := by
  unfold State.alignFenced
  repeat'
    first
      | with_reducible assumption | intro _ | with_reducible apply State.modPick_ok | split | dsimp only
      | fail_if_no_progress with_reducible refine ok_mk ?_ rfl rfl rfl rfl rfl rfl

theorem State.alignTime_ok {qs : List Instr} {s : State} {l : Nat} {f : AlignFlit} (hOk : Ok qs s)  : Ok qs (State.alignTime s l f) := by
  unfold State.alignTime
  repeat'
    first
      | with_reducible assumption | intro _ | with_reducible apply State.setLink_ok | with_reducible apply State.permSync_ok
      | with_reducible apply State.fenceSelf_ok | with_reducible apply State.fencePeer_ok | split | dsimp only
      | fail_if_no_progress with_reducible refine ok_mk ?_ rfl rfl rfl rfl rfl rfl

theorem State.alignVote_ok {qs : List Instr} {s : State} {l : Nat} {f : AlignFlit} (hOk : Ok qs s)  : Ok qs (State.alignVote s l f) := by
  unfold State.alignVote
  repeat'
    first
      | with_reducible assumption | intro _ | with_reducible apply State.beatUp_ok | with_reducible apply State.modPick_ok
      | with_reducible apply State.flood_ok | split | dsimp only | fail_if_no_progress with_reducible refine ok_mk ?_ rfl rfl rfl rfl rfl rfl

theorem State.alignDissent_ok {qs : List Instr} {s : State} {l : Nat} {f : AlignFlit} (hOk : Ok qs s)  : Ok qs (State.alignDissent s l f) := by
  unfold State.alignDissent
  repeat'
    first
      | with_reducible assumption | intro _ | with_reducible apply State.dissent_ok | with_reducible apply State.raise_ok
      | with_reducible apply State.fencePeer_ok | split | dsimp only | fail_if_no_progress with_reducible refine ok_mk ?_ rfl rfl rfl rfl rfl rfl

theorem State.align_ok {qs : List Instr} {s : State} {l : Nat} {f : AlignFlit} (hOk : Ok qs s)  : Ok qs (State.align s l f) := by
  unfold State.align
  repeat'
    first
      | with_reducible assumption | intro _ | with_reducible apply State.addWrap_ok | with_reducible apply State.setFld_ok
      | with_reducible apply State.setLink_ok | with_reducible apply State.alignConfig_ok | with_reducible apply State.alignPhase_ok
      | with_reducible apply State.alignFenced_ok | with_reducible apply State.alignLock_ok | with_reducible apply State.alignTime_ok
      | with_reducible apply State.alignVote_ok | with_reducible apply State.alignDissent_ok | split | dsimp only
      | fail_if_no_progress with_reducible refine ok_mk ?_ rfl rfl rfl rfl rfl rfl

theorem execAlign_ok {qs : List Instr} {link : Fin 36} {f : AlignFlit} {s : State} (hOk : Ok qs s)  : OkOut qs (execAlign link f s) := by
  unfold execAlign
  repeat'
    first
      | with_reducible assumption | intro _ | with_reducible apply okOut_next | with_reducible apply State.align_ok | split | dsimp only
      | fail_if_no_progress with_reducible refine ok_mk ?_ rfl rfl rfl rfl rfl rfl

end Sys2Proof.Machine
end

