-- ==== Sys2Proof/Laws/KeepPickEdge.lean ====
section
/-! SUPPORT. Every operation of Machine/PickEdge.lean keeps what every command keeps. -/
namespace Sys2Proof.Machine
open Sys2Proof
set_option linter.unusedTactic false
set_option linter.unreachableTactic false

theorem State.mvpWaitEdge_ok {qs : List Instr} {s : State} (hOk : Ok qs s) : Ok qs (State.mvpWaitEdge s) := by
  unfold State.mvpWaitEdge
  repeat'
    first
      | with_reducible assumption | intro _ | with_reducible apply State.addSat_ok | with_reducible apply ok_foldl
      | with_reducible apply ok_foldl_fst | split | dsimp only | fail_if_no_progress with_reducible refine ok_mk ?_ rfl rfl rfl rfl rfl rfl

theorem State.abortWork_ok {qs : List Instr} {s : State} (hOk : Ok qs s)  : Ok qs (State.abortWork s) := by
  unfold State.abortWork
  repeat'
    first
      | with_reducible assumption | intro _ | split | dsimp only | fail_if_no_progress with_reducible refine ok_mk ?_ rfl rfl rfl rfl rfl rfl

theorem State.heddleRestore_ok {qs : List Instr} {s : State} (hOk : Ok qs s)  : Ok qs (State.heddleRestore s) := by
  unfold State.heddleRestore
  repeat'
    first
      | with_reducible assumption | intro _ | with_reducible apply State.permSync_ok | with_reducible apply ok_foldl
      | with_reducible apply ok_foldl_fst | split | dsimp only | fail_if_no_progress with_reducible refine ok_mk ?_ rfl rfl rfl rfl rfl rfl

theorem State.committedEnd_ok {qs : List Instr} {s : State} (hOk : Ok qs s)  : Ok qs (State.committedEnd s) := by
  unfold State.committedEnd
  repeat'
    first
      | with_reducible assumption | intro _ | with_reducible apply State.compareResult_ok | with_reducible apply State.sealCommit_ok
      | with_reducible apply State.releaseReplies_ok | split | dsimp only | fail_if_no_progress with_reducible refine ok_mk ?_ rfl rfl rfl rfl rfl rfl

theorem State.turnPick_ok {qs : List Instr} {s : State} {old : State} (hOk : Ok qs s)  : Ok qs (State.turnPick s old) := by
  unfold State.turnPick
  repeat'
    first
      | with_reducible assumption | intro _ | with_reducible apply State.setFld_ok | with_reducible apply State.addSat_ok
      | with_reducible apply State.raiseIf_ok | split | dsimp only | fail_if_no_progress with_reducible refine ok_mk ?_ rfl rfl rfl rfl rfl rfl

theorem State.runChange_ok {qs : List Instr} {s : State} {was : Bool} (hOk : Ok qs s)  : Ok qs (State.runChange s was) := by
  unfold State.runChange
  repeat'
    first
      | with_reducible assumption | intro _ | with_reducible apply State.setFld_ok | split | dsimp only
      | fail_if_no_progress with_reducible refine ok_mk ?_ rfl rfl rfl rfl rfl rfl

theorem State.noEntry_ok {qs : List Instr} {s : State} {idx : Nat} (hOk : Ok qs s)  : Ok qs (State.noEntry s idx) := by
  unfold State.noEntry
  repeat'
    first
      | with_reducible assumption | intro _ | with_reducible apply State.modPick_ok | split | dsimp only
      | fail_if_no_progress with_reducible refine ok_mk ?_ rfl rfl rfl rfl rfl rfl

theorem State.runEntry_ok {qs : List Instr} {s : State} {e : Entry} (hOk : Ok qs s)  : Ok qs (State.runEntry s e) := by
  unfold State.runEntry
  repeat'
    first
      | with_reducible assumption | intro _ | with_reducible apply State.modPick_ok | split | dsimp only
      | fail_if_no_progress with_reducible refine ok_mk ?_ rfl rfl rfl rfl rfl rfl

theorem State.enterLoaded_ok {qs : List Instr} {s : State} {i : Nat} {o : Option Entry} (hOk : Ok qs s) : Ok qs (State.enterLoaded s i o) := by
  cases o with
  | none => exact State.schedBad_ok (State.noEntry_ok hOk)
  | some e => exact State.runEntry_ok hOk

theorem State.enterEntry_ok {qs : List Instr} {s : State} {i : Nat} {ready : Option Entry} (hOk : Ok qs s) : Ok qs (State.enterEntry s i ready) :=
    by
  unfold State.enterEntry
  repeat'
    first
      | with_reducible assumption | intro _ | with_reducible apply State.seqCount_ok | with_reducible apply State.enterLoaded_ok | split
      | dsimp only | fail_if_no_progress with_reducible refine ok_mk ?_ rfl rfl rfl rfl rfl rfl

theorem State.pickEntry_ok {qs : List Instr} {s : State} {old : State} {same : Bool} (hOk : Ok qs s)  : Ok qs (State.pickEntry s old same) := by
  unfold State.pickEntry
  repeat'
    first
      | with_reducible assumption | intro _ | with_reducible apply State.noEntry_ok | with_reducible apply State.enterEntry_ok | split | dsimp only
      | fail_if_no_progress with_reducible refine ok_mk ?_ rfl rfl rfl rfl rfl rfl

theorem State.releaseUndeclared_ok {qs : List Instr} {s : State} (hOk : Ok qs s)  : Ok qs (State.releaseUndeclared s) := by
  unfold State.releaseUndeclared
  repeat'
    first
      | with_reducible assumption | intro _ | with_reducible apply State.beginRelease_ok | with_reducible apply ok_foldl
      | with_reducible apply ok_foldl_fst | split | dsimp only | fail_if_no_progress with_reducible refine ok_mk ?_ rfl rfl rfl rfl rfl rfl

theorem State.heddleRecord_ok {qs : List Instr} {s : State} (hOk : Ok qs s)  : Ok qs (State.heddleRecord s) := by
  unfold State.heddleRecord
  repeat'
    first
      | with_reducible assumption | intro _ | split | dsimp only | fail_if_no_progress with_reducible refine ok_mk ?_ rfl rfl rfl rfl rfl rfl

theorem State.linkEdges_ok {qs : List Instr} {s : State} {left : Bool} (hOk : Ok qs s)  : Ok qs (State.linkEdges s left) := by
  unfold State.linkEdges
  repeat'
    first
      | with_reducible assumption | intro _ | with_reducible apply State.linkJudge_ok | with_reducible apply State.sendNeg_ok
      | with_reducible apply State.sendAlign_ok | with_reducible apply State.modPick_ok | with_reducible apply ok_foldl
      | with_reducible apply ok_foldl_fst | split | dsimp only | fail_if_no_progress with_reducible refine ok_mk ?_ rfl rfl rfl rfl rfl rfl

theorem State.pickOutPulse_ok {qs : List Instr} {s : State} (hOk : Ok qs s)  : Ok qs (State.pickOutPulse s) := by
  unfold State.pickOutPulse
  repeat'
    first
      | with_reducible assumption | intro _ | with_reducible apply State.emit_ok | split | dsimp only
      | fail_if_no_progress with_reducible refine ok_mk ?_ rfl rfl rfl rfl rfl rfl

theorem State.outcome_ok {qs : List Instr} {s : State} (hOk : Ok qs s)  : Ok qs (State.outcome s) := by
  unfold State.outcome
  repeat'
    first
      | with_reducible assumption | intro _ | with_reducible apply State.abortWork_ok | with_reducible apply State.heddleRestore_ok
      | with_reducible apply State.sealRestore_ok | with_reducible apply State.committedEnd_ok | split | dsimp only
      | fail_if_no_progress with_reducible refine ok_mk ?_ rfl rfl rfl rfl rfl rfl

theorem State.compareNext_ok {qs : List Instr} {s : State} {old : State} (hOk : Ok qs s)  : Ok qs (State.compareNext s old) := by
  unfold State.compareNext
  repeat'
    first
      | with_reducible assumption | intro _ | with_reducible apply State.comparePick_ok | split | dsimp only
      | fail_if_no_progress with_reducible refine ok_mk ?_ rfl rfl rfl rfl rfl rfl

theorem State.pickEdge_ok {qs : List Instr} {s : State} (hOk : Ok qs s) : Ok qs (State.pickEdge s) := by
  unfold State.pickEdge
  repeat'
    first
      | with_reducible assumption | intro _ | with_reducible apply State.mvpWaitEdge_ok | with_reducible apply State.outcome_ok
      | with_reducible apply State.turnPick_ok | with_reducible apply State.granEdges_ok | with_reducible apply State.commitEdge_ok
      | with_reducible apply State.runChange_ok | with_reducible apply State.pickEntry_ok | with_reducible apply State.releaseUndeclared_ok
      | with_reducible apply State.threadSet_ok | with_reducible apply State.heddleRecord_ok | with_reducible apply State.compareNext_ok
      | with_reducible apply State.compareGo_ok | with_reducible apply State.startBatches_ok | with_reducible apply State.linkEdges_ok
      | with_reducible apply State.pickOutPulse_ok | split | dsimp only | fail_if_no_progress with_reducible refine ok_mk ?_ rfl rfl rfl rfl rfl rfl

theorem execPickEdge_ok {qs : List Instr} {s : State} (hOk : Ok qs s)  : OkOut qs (execPickEdge s) := by
  unfold execPickEdge
  repeat'
    first
      | with_reducible assumption | intro _ | with_reducible apply okOut_next | with_reducible apply State.pickEdge_ok | split | dsimp only
      | fail_if_no_progress with_reducible refine ok_mk ?_ rfl rfl rfl rfl rfl rfl

end Sys2Proof.Machine
end

