-- ==== Sys2Proof/Laws/KeepRepair.lean ====
section
/-! SUPPORT. Every operation of Machine/Repair.lean keeps what every command keeps. -/
namespace Sys2Proof.Machine
open Sys2Proof
set_option linter.unusedTactic false
set_option linter.unreachableTactic false

theorem execRepairRequest_ok {qs : List Instr} {slice : Fin 8} {src : RepairSrc} {block : Word} {target : Word} {s : State} (hOk : Ok qs s) : OkOut
    qs (execRepairRequest slice src block target s) := by
  unfold execRepairRequest
  repeat'
    first
      | with_reducible assumption | intro _ | with_reducible apply okOut_next | with_reducible apply State.arriveRepair_ok | split | dsimp only
      | fail_if_no_progress with_reducible refine ok_mk ?_ rfl rfl rfl rfl rfl rfl

theorem State.sendState_ok {qs : List Instr} {s : State} {c : Nat} {hid : Nat} {dev : Nat} {b : Nat} {bytes : List Byte} (hOk : Ok qs s) : Ok qs
    (State.sendState s c hid dev b bytes) := by
  unfold State.sendState
  repeat'
    first
      | with_reducible assumption | intro _ | with_reducible apply State.repairSend_ok | with_reducible apply ok_foldl
      | with_reducible apply ok_foldl_fst | split | dsimp only | fail_if_no_progress with_reducible refine ok_mk ?_ rfl rfl rfl rfl rfl rfl

theorem State.repairAnswerTo_ok {qs : List Instr} {s : State} {c : Nat} {dev : Nat} {b : Nat} {target : Nat} {hid : Nat} (hOk : Ok qs s) : Ok qs
    (State.repairAnswerTo s c dev b target hid) := by
  unfold State.repairAnswerTo
  repeat'
    first
      | with_reducible assumption | intro _ | with_reducible apply State.setSlice_ok | with_reducible apply State.repairRefuse_ok
      | with_reducible apply State.whenReadable_ok | with_reducible apply State.unitCount_ok | with_reducible apply State.sendState_ok | split
      | dsimp only | fail_if_no_progress with_reducible refine ok_mk ?_ rfl rfl rfl rfl rfl rfl

theorem execRepairAnswer_ok {qs : List Instr} {slice : Fin 8} {fromDev : BitVec 16} {block : Word} {s : State} (hOk : Ok qs s) : OkOut qs
    (execRepairAnswer slice fromDev block s) := by
  unfold execRepairAnswer
  repeat'
    first
      | with_reducible assumption | intro _ | with_reducible apply okOut_next | with_reducible apply State.whenReadable_ok
      | with_reducible apply State.repairAnswerTo_ok | split | dsimp only
      | fail_if_no_progress with_reducible refine ok_mk ?_ rfl rfl rfl rfl rfl rfl

theorem execRepairState_ok {qs : List Instr} {slice : Fin 8} {reply : RepairReply} {step : Word} {origin : Word} {state : List Byte} {scales : List
    Byte} {digest : List Byte} {s : State} (hOk : Ok qs s) : OkOut qs (execRepairState slice reply step origin state scales digest s) := by
  unfold execRepairState
  repeat'
    first
      | with_reducible assumption | intro _ | with_reducible apply okOut_next | with_reducible apply State.arriveRepair_ok | split | dsimp only
      | fail_if_no_progress with_reducible refine ok_mk ?_ rfl rfl rfl rfl rfl rfl

theorem execRepairRefusal_ok {qs : List Instr} {slice : Fin 8} {reply : RepairReply} {s : State} (hOk : Ok qs s) : OkOut qs (execRepairRefusal slice
    reply s) := by
  unfold execRepairRefusal
  repeat'
    first
      | with_reducible assumption | intro _ | with_reducible apply okOut_next | with_reducible apply State.arriveRepair_ok | split | dsimp only
      | fail_if_no_progress with_reducible refine ok_mk ?_ rfl rfl rfl rfl rfl rfl

theorem State.repairEnd_ok {qs : List Instr} {s : State} {c : Nat} {r : Repair} {ns : Nat} (hOk : Ok qs s) : Ok qs (State.repairEnd s c r ns) := by
  unfold State.repairEnd
  repeat'
    first
      | with_reducible assumption | intro _ | with_reducible apply State.unitCount_ok | with_reducible apply State.writeMem_ok
      | with_reducible apply State.setLedger_ok | with_reducible apply State.setSlice_ok | with_reducible apply State.countEv_ok
      | with_reducible apply State.repairShow_ok | with_reducible apply State.setFld_ok | with_reducible apply State.repairRec_ok
      | with_reducible apply State.repairRelease_ok | with_reducible apply State.drainAll_ok | with_reducible apply State.repairStart_ok | split
      | dsimp only | fail_if_no_progress with_reducible refine ok_mk ?_ rfl rfl rfl rfl rfl rfl

theorem execRepairWriteDone_ok {qs : List Instr} {slice : Fin 8} {ns : Nat} {s : State} (hOk : Ok qs s) : OkOut qs (execRepairWriteDone slice ns s)
    := by
  unfold execRepairWriteDone
  repeat'
    first
      | with_reducible assumption | intro _ | with_reducible apply okOut_next | with_reducible apply State.whenWritable_ok
      | with_reducible apply State.repairEnd_ok | split | dsimp only | fail_if_no_progress with_reducible refine ok_mk ?_ rfl rfl rfl rfl rfl rfl

theorem execRepairTimeout_ok {qs : List Instr} {slice : Fin 8} {ns : Nat} {s : State} (hOk : Ok qs s)  : OkOut qs (execRepairTimeout slice ns s) := by
  unfold execRepairTimeout
  repeat'
    first
      | with_reducible assumption | intro _ | with_reducible apply okOut_next | with_reducible apply State.repairPass_ok
      | with_reducible apply State.drainAll_ok | with_reducible apply State.mvRetry_ok | split | dsimp only
      | fail_if_no_progress with_reducible refine ok_mk ?_ rfl rfl rfl rfl rfl rfl

theorem State.repairThreaded_ok {qs : List Instr} {s : State} {h : Nat} (hOk : Ok qs s) : Ok qs (State.repairThreaded s h) := by
  unfold State.repairThreaded
  repeat'
    first
      | with_reducible assumption | intro _ | with_reducible apply State.repairAskOn_ok | split | dsimp only
      | fail_if_no_progress with_reducible refine ok_mk ?_ rfl rfl rfl rfl rfl rfl

theorem execThreadAccept_ok {qs : List Instr} {hid : Nat} {peerId : BitVec 10} {s : State} (hOk : Ok qs s)  : OkOut qs (execThreadAccept hid peerId
    s) := by
  unfold execThreadAccept
  repeat'
    first
      | with_reducible assumption | intro _ | with_reducible apply okOut_next | with_reducible apply State.threadTo_ok
      | with_reducible apply State.repairThreaded_ok | with_reducible apply State.compareGo_ok | split | dsimp only
      | fail_if_no_progress with_reducible refine ok_mk ?_ rfl rfl rfl rfl rfl rfl

theorem execThreadRefuse_ok {qs : List Instr} {hid : Nat} {s : State} (hOk : Ok qs s)  : OkOut qs (execThreadRefuse hid s) := by
  unfold execThreadRefuse
  repeat'
    first
      | with_reducible assumption | intro _ | with_reducible apply okOut_next | with_reducible apply State.countEv_ok
      | with_reducible apply State.setRepair_ok | with_reducible apply State.countExhaust_ok | with_reducible apply ok_foldl
      | with_reducible apply ok_foldl_fst | split | dsimp only | fail_if_no_progress with_reducible refine ok_mk ?_ rfl rfl rfl rfl rfl rfl

end Sys2Proof.Machine
end

