-- ==== Sys2Proof/Laws/KeepSideband.lean ====
section
/-! SUPPORT. Every operation of Machine/Sideband.lean keeps what every command keeps. -/
namespace Sys2Proof.Machine
open Sys2Proof
set_option linter.unusedTactic false
set_option linter.unreachableTactic false

theorem State.sbRead_ok {qs : List Instr} {s : State} {addr : Nat} (hOk : Ok qs s)  : Ok qs (State.sbRead s addr).1 := by
  suffices h : ∀ r, State.sbRead s addr = r → Ok qs r.1 from h _ rfl
  intro r hr
  unfold State.sbRead at hr
  dsimp only at hr
  repeat' (split at hr)
  all_goals subst hr
  all_goals first | exact ok_fst hOk | exact ok_fst (State.countAccess_ok hOk) | exact ok_fst (State.regRead_ok hOk)

theorem State.sbWrite_ok {qs : List Instr} {s : State} {addr : Nat} {v : Nat} (hOk : Ok qs s)  : Ok qs (State.sbWrite s addr v).1 := by
  suffices h : ∀ r, State.sbWrite s addr v = r → Ok qs r.1 from h _ rfl
  intro r hr
  unfold State.sbWrite at hr
  dsimp only at hr
  repeat' (split at hr)
  all_goals subst hr
  all_goals first | exact ok_fst hOk | exact ok_fst (State.regWrite_ok hOk)

theorem State.spiFrame_ok {qs : List Instr} {s : State} {late : Bool} {act : State → State × SbRes} (hOk : Ok qs s) (hact : ∀ t, Ok qs t → Ok qs (act
    t).1) : Ok qs (State.spiFrame s late act) := by
  unfold State.spiFrame
  repeat'
    first
      | with_reducible assumption | intro _ | with_reducible apply hact | with_reducible apply State.emit_ok
      | with_reducible apply State.addWrap_ok | split | dsimp only | fail_if_no_progress with_reducible refine ok_mk ?_ rfl rfl rfl rfl rfl rfl

theorem execSpiNop_ok {qs : List Instr} {late : Bool} {s : State} (hOk : Ok qs s)  : OkOut qs (execSpiNop late s) := by
  unfold execSpiNop
  repeat'
    first
      | with_reducible assumption | intro _ | with_reducible apply okOut_next | with_reducible apply State.spiFrame_ok | split | dsimp only
      | fail_if_no_progress with_reducible refine ok_mk ?_ rfl rfl rfl rfl rfl rfl

theorem execSpiRead_ok {qs : List Instr} {waddr : BitVec 28} {late : Bool} {s : State} (hOk : Ok qs s)  : OkOut qs (execSpiRead waddr late s) := by
  unfold execSpiRead
  repeat'
    first
      | with_reducible assumption | intro _ | with_reducible apply okOut_next | with_reducible apply State.spiFrame_ok
      | with_reducible apply State.sbRead_ok | split | dsimp only | fail_if_no_progress with_reducible refine ok_mk ?_ rfl rfl rfl rfl rfl rfl

theorem execSpiWrite_ok {qs : List Instr} {waddr : BitVec 28} {v : Word} {late : Bool} {s : State} (hOk : Ok qs s)  : OkOut qs (execSpiWrite waddr v
    late s) := by
  unfold execSpiWrite
  repeat'
    first
      | with_reducible assumption | intro _ | with_reducible apply okOut_next | with_reducible apply State.spiFrame_ok
      | with_reducible apply State.sbWrite_ok | split | dsimp only | fail_if_no_progress with_reducible refine ok_mk ?_ rfl rfl rfl rfl rfl rfl

theorem execSpiBook_ok {qs : List Instr} {waddr : BitVec 28} {late : Bool} {s : State} (hOk : Ok qs s)  : OkOut qs (execSpiBook waddr late s) := by
  unfold execSpiBook
  repeat'
    first
      | with_reducible assumption | intro _ | with_reducible apply okOut_next | with_reducible apply State.spiFrame_ok | split | dsimp only
      | fail_if_no_progress with_reducible refine ok_mk ?_ rfl rfl rfl rfl rfl rfl

theorem execSpiFrameDiscard_ok {qs : List Instr} {edges : Nat} {s : State} (hOk : Ok qs s)  : OkOut qs (execSpiFrameDiscard edges s) := by
  unfold execSpiFrameDiscard
  repeat'
    first
      | with_reducible assumption | intro _ | with_reducible apply okOut_next | with_reducible apply State.countEv_ok | split | dsimp only
      | fail_if_no_progress with_reducible refine ok_mk ?_ rfl rfl rfl rfl rfl rfl

theorem State.mctpReply_ok {qs : List Instr} {s : State} {cmd : Nat} {r : SbRes} {data : List Byte} (hOk : Ok qs s)  : Ok qs (State.mctpReply s cmd r
    data) := by
  unfold State.mctpReply
  repeat'
    first
      | with_reducible assumption | intro _ | with_reducible apply State.emit_ok | split | dsimp only
      | fail_if_no_progress with_reducible refine ok_mk ?_ rfl rfl rfl rfl rfl rfl

theorem execMctpControl_ok {qs : List Instr} {cmd : Byte} {s : State} (hOk : Ok qs s)  : OkOut qs (execMctpControl cmd s) := by
  unfold execMctpControl
  repeat'
    first
      | with_reducible assumption | intro _ | with_reducible apply okOut_next | with_reducible apply State.emit_ok | split | dsimp only
      | fail_if_no_progress with_reducible refine ok_mk ?_ rfl rfl rfl rfl rfl rfl

theorem execReadReg_ok {qs : List Instr} {addr : BitVec 48} {s : State} (hOk : Ok qs s)  : OkOut qs (execReadReg addr s) := by
  unfold execReadReg
  repeat'
    first
      | with_reducible assumption | intro _ | with_reducible apply okOut_next | with_reducible apply State.sbRead_ok
      | with_reducible apply State.mctpReply_ok | split | dsimp only | fail_if_no_progress with_reducible refine ok_mk ?_ rfl rfl rfl rfl rfl rfl

theorem execWriteReg_ok {qs : List Instr} {addr : BitVec 48} {v : Word} {s : State} (hOk : Ok qs s)  : OkOut qs (execWriteReg addr v s) := by
  unfold execWriteReg
  repeat'
    first
      | with_reducible assumption | intro _ | with_reducible apply okOut_next | with_reducible apply State.sbWrite_ok
      | with_reducible apply State.mctpReply_ok | split | dsimp only | fail_if_no_progress with_reducible refine ok_mk ?_ rfl rfl rfl rfl rfl rfl

theorem execReadBook_ok {qs : List Instr} {index : BitVec 17} {copy : Fin 4} {s : State} (hOk : Ok qs s)  : OkOut qs (execReadBook index copy s) := by
  unfold execReadBook
  repeat'
    first
      | with_reducible assumption | intro _ | with_reducible apply okOut_next | with_reducible apply State.mctpReply_ok | split | dsimp only
      | fail_if_no_progress with_reducible refine ok_mk ?_ rfl rfl rfl rfl rfl rfl

theorem execSmbusPacketDiscard_ok {qs : List Instr} {s : State} (hOk : Ok qs s)  : OkOut qs (execSmbusPacketDiscard s) := by
  unfold execSmbusPacketDiscard
  repeat'
    first
      | with_reducible assumption | intro _ | with_reducible apply okOut_next | with_reducible apply State.countEv_ok | split | dsimp only
      | fail_if_no_progress with_reducible refine ok_mk ?_ rfl rfl rfl rfl rfl rfl

theorem State.jtagSelect_ok {qs : List Instr} {s : State} {code : Nat} (hOk : Ok qs s)  : Ok qs (State.jtagSelect s code) := by
  unfold State.jtagSelect
  repeat'
    first
      | with_reducible assumption | intro _ | split | dsimp only | fail_if_no_progress with_reducible refine ok_mk ?_ rfl rfl rfl rfl rfl rfl

theorem State.jtagLoad_ok {qs : List Instr} {s : State} {data : List Bool} (hOk : Ok qs s)  : Ok qs (State.jtagLoad s data) := by
  unfold State.jtagLoad
  repeat'
    first
      | with_reducible assumption | intro _ | split | dsimp only | fail_if_no_progress with_reducible refine ok_mk ?_ rfl rfl rfl rfl rfl rfl

theorem execExtest_ok {qs : List Instr} {data : List Bool} {s : State} (hOk : Ok qs s)  : OkOut qs (execExtest data s) := by
  unfold execExtest
  repeat'
    first
      | with_reducible assumption | intro _ | with_reducible apply okOut_next | with_reducible apply State.jtagSelect_ok
      | with_reducible apply State.jtagLoad_ok | split | dsimp only | fail_if_no_progress with_reducible refine ok_mk ?_ rfl rfl rfl rfl rfl rfl

theorem execSamplePreload_ok {qs : List Instr} {data : List Bool} {s : State} (hOk : Ok qs s)  : OkOut qs (execSamplePreload data s) := by
  unfold execSamplePreload
  repeat'
    first
      | with_reducible assumption | intro _ | with_reducible apply okOut_next | with_reducible apply State.jtagSelect_ok
      | with_reducible apply State.jtagLoad_ok | split | dsimp only | fail_if_no_progress with_reducible refine ok_mk ?_ rfl rfl rfl rfl rfl rfl

theorem execIdcode_ok {qs : List Instr} {s : State} (hOk : Ok qs s)  : OkOut qs (execIdcode s) := by
  unfold execIdcode
  repeat'
    first
      | with_reducible assumption | intro _ | with_reducible apply okOut_next | with_reducible apply State.jtagSelect_ok
      | with_reducible apply State.emit_ok | split | dsimp only | fail_if_no_progress with_reducible refine ok_mk ?_ rfl rfl rfl rfl rfl rfl

theorem execHighz_ok {qs : List Instr} {s : State} (hOk : Ok qs s)  : OkOut qs (execHighz s) := by
  unfold execHighz
  repeat'
    first
      | with_reducible assumption | intro _ | with_reducible apply okOut_next | with_reducible apply State.jtagSelect_ok | split | dsimp only
      | fail_if_no_progress with_reducible refine ok_mk ?_ rfl rfl rfl rfl rfl rfl

theorem execClamp_ok {qs : List Instr} {s : State} (hOk : Ok qs s)  : OkOut qs (execClamp s) := by
  unfold execClamp
  repeat'
    first
      | with_reducible assumption | intro _ | with_reducible apply okOut_next | with_reducible apply State.jtagSelect_ok | split | dsimp only
      | fail_if_no_progress with_reducible refine ok_mk ?_ rfl rfl rfl rfl rfl rfl

theorem execBypass_ok {qs : List Instr} {s : State} (hOk : Ok qs s)  : OkOut qs (execBypass s) := by
  unfold execBypass
  repeat'
    first
      | with_reducible assumption | intro _ | with_reducible apply okOut_next | with_reducible apply State.jtagSelect_ok
      | with_reducible apply State.emit_ok | split | dsimp only | fail_if_no_progress with_reducible refine ok_mk ?_ rfl rfl rfl rfl rfl rfl

theorem execHostPerst_ok {qs : List Instr} {low : Bool} {s : State} (hOk : Ok qs s)  : OkOut qs (execHostPerst low s) := by
  unfold execHostPerst
  repeat'
    first
      | with_reducible assumption | intro _ | with_reducible apply okOut_next | with_reducible apply State.linkDownHost_ok
      | with_reducible apply State.resetQueues_ok | with_reducible apply State.flrRegs_ok | with_reducible apply State.msix_ok | split | dsimp only
      | fail_if_no_progress with_reducible refine ok_mk ?_ rfl rfl rfl rfl rfl rfl

end Sys2Proof.Machine
end

