-- ==== Sys2Proof/Laws/KeepSpdm.lean ====
section
/-! SUPPORT. Every operation of Machine/Spdm.lean keeps what every command keeps. -/
namespace Sys2Proof.Machine
open Sys2Proof
set_option linter.unusedTactic false
set_option linter.unreachableTactic false

theorem State.spdmError_ok {qs : List Instr} {s : State} (hOk : Ok qs s)  : Ok qs (State.spdmError s) := by
  unfold State.spdmError
  repeat'
    first
      | with_reducible assumption | intro _ | with_reducible apply State.countEv_ok | with_reducible apply State.secRec_ok
      | with_reducible apply State.emit_ok | split | dsimp only | fail_if_no_progress with_reducible refine ok_mk ?_ rfl rfl rfl rfl rfl rfl

theorem State.spdmReply_ok {qs : List Instr} {s : State} {need : Nat} {ok : Bool} {code : Nat} {data : List Byte} (hOk : Ok qs s)  : Ok qs
    (State.spdmReply s need ok code data) := by
  unfold State.spdmReply
  repeat'
    first
      | with_reducible assumption | intro _ | with_reducible apply State.emit_ok | with_reducible apply State.spdmError_ok | split | dsimp only
      | fail_if_no_progress with_reducible refine ok_mk ?_ rfl rfl rfl rfl rfl rfl

theorem State.spdmTo_ok {qs : List Instr} {s : State} {need : Nat} {ok : Bool} {st : Nat} (hOk : Ok qs s)  : Ok qs (State.spdmTo s need ok st) := by
  unfold State.spdmTo
  repeat'
    first
      | with_reducible assumption | intro _ | split | dsimp only | fail_if_no_progress with_reducible refine ok_mk ?_ rfl rfl rfl rfl rfl rfl

theorem execGetVersion_ok {qs : List Instr} {s : State} (hOk : Ok qs s)  : OkOut qs (execGetVersion s) := by
  unfold execGetVersion
  repeat'
    first
      | with_reducible assumption | intro _ | with_reducible apply okOut_next | with_reducible apply State.spdmReply_ok
      | with_reducible apply State.spdmTo_ok | split | dsimp only | fail_if_no_progress with_reducible refine ok_mk ?_ rfl rfl rfl rfl rfl rfl

theorem execGetCapabilities_ok {qs : List Instr} {ver : Byte} {s : State} (hOk : Ok qs s)  : OkOut qs (execGetCapabilities ver s) := by
  unfold execGetCapabilities
  repeat'
    first
      | with_reducible assumption | intro _ | with_reducible apply okOut_next | with_reducible apply State.spdmReply_ok
      | with_reducible apply State.spdmTo_ok | split | dsimp only | fail_if_no_progress with_reducible refine ok_mk ?_ rfl rfl rfl rfl rfl rfl

theorem execNegotiateAlgorithms_ok {qs : List Instr} {offered : List Byte} {s : State} (hOk : Ok qs s)  : OkOut qs (execNegotiateAlgorithms offered
    s) := by
  unfold execNegotiateAlgorithms
  repeat'
    first
      | with_reducible assumption | intro _ | with_reducible apply okOut_next | with_reducible apply State.spdmReply_ok
      | with_reducible apply State.spdmTo_ok | split | dsimp only | fail_if_no_progress with_reducible refine ok_mk ?_ rfl rfl rfl rfl rfl rfl

theorem execGetDigests_ok {qs : List Instr} {s : State} (hOk : Ok qs s)  : OkOut qs (execGetDigests s) := by
  unfold execGetDigests
  repeat'
    first
      | with_reducible assumption | intro _ | with_reducible apply okOut_next | with_reducible apply State.spdmReply_ok | split | dsimp only
      | fail_if_no_progress with_reducible refine ok_mk ?_ rfl rfl rfl rfl rfl rfl

theorem execGetCertificate_ok {qs : List Instr} {slot : Fin 8} {off : Nat} {len : Nat} {s : State} (hOk : Ok qs s)  : OkOut qs (execGetCertificate
    slot off len s) := by
  unfold execGetCertificate
  repeat'
    first
      | with_reducible assumption | intro _ | with_reducible apply okOut_next | with_reducible apply State.spdmReply_ok | split | dsimp only
      | fail_if_no_progress with_reducible refine ok_mk ?_ rfl rfl rfl rfl rfl rfl

theorem execChallenge_ok {qs : List Instr} {slot : Fin 8} {nonce : BitVec 256} {s : State} (hOk : Ok qs s)  : OkOut qs (execChallenge slot nonce s)
    := by
  unfold execChallenge
  repeat'
    first
      | with_reducible assumption | intro _ | with_reducible apply okOut_next | with_reducible apply State.spdmReply_ok | split | dsimp only
      | fail_if_no_progress with_reducible refine ok_mk ?_ rfl rfl rfl rfl rfl rfl

theorem execGetMeasurements_ok {qs : List Instr} {index : Byte} {signed : Bool} {nonce : BitVec 256} {s : State} (hOk : Ok qs s)  : OkOut qs
    (execGetMeasurements index signed nonce s) := by
  unfold execGetMeasurements
  repeat'
    first
      | with_reducible assumption | intro _ | with_reducible apply okOut_next | with_reducible apply State.spdmReply_ok | split | dsimp only
      | fail_if_no_progress with_reducible refine ok_mk ?_ rfl rfl rfl rfl rfl rfl

end Sys2Proof.Machine
end

