-- ==== Sys2Proof/Laws/KeepVecMem.lean ====
section
/-! SUPPORT. Every operation of Machine/VecMem.lean keeps what every command keeps. -/
namespace Sys2Proof.Machine
open Sys2Proof
set_option linter.unusedTactic false
set_option linter.unreachableTactic false

theorem State.vecOow_ok {qs : List Instr} {s : State} {c : Nat} {w : Nat} {write : Bool} {as : List Int} (hOk : Ok qs s)  : Ok qs (State.vecOow s c w
    write as) := by
  unfold State.vecOow
  repeat'
    first
      | with_reducible assumption | intro _ | with_reducible apply State.oowAccess_ok | with_reducible apply State.countErr_ok
      | with_reducible apply State.vecNote_ok | with_reducible apply ok_foldl | with_reducible apply ok_foldl_fst | split | dsimp only
      | fail_if_no_progress with_reducible refine ok_mk ?_ rfl rfl rfl rfl rfl rfl

theorem State.vstoreAt_ok {qs : List Instr} {s : State} {c : Nat} {w : Nat} {as : List Int} {vals : List (Nat × Bool)} (hOk : Ok qs s)  : Ok qs
    (State.vstoreAt s c w as vals) := by
  unfold State.vstoreAt
  repeat'
    first
      | with_reducible assumption | intro _ | with_reducible apply State.storeBlock_ok | with_reducible apply ok_foldl
      | with_reducible apply ok_foldl_fst | split | dsimp only | fail_if_no_progress with_reducible refine ok_mk ?_ rfl rfl rfl rfl rfl rfl

theorem State.vstoreRun_ok {qs : List Instr} {s : State} {c : Nat} {a : Nat} {w : Nat} {vals : List (Nat × Bool)} (hOk : Ok qs s)  : Ok qs
    (State.vstoreRun s c a w vals) := by
  unfold State.vstoreRun
  repeat'
    first
      | with_reducible assumption | intro _ | with_reducible apply State.writeBy_ok | split | dsimp only
      | fail_if_no_progress with_reducible refine ok_mk ?_ rfl rfl rfl rfl rfl rfl

theorem State.vload_ok {qs : List Instr} {s : State} {op : Nat} {i : Issue} {addr : State → Nat → Int} (hOk : Ok qs s) : Ok qs (State.vload s op i
    addr) := by
  unfold State.vload
  repeat'
    first
      | with_reducible assumption | intro _ | with_reducible apply State.vec_ok | with_reducible apply State.splEcc_ok
      | with_reducible apply State.vecOow_ok | with_reducible apply State.vresult_ok | split | dsimp only
      | fail_if_no_progress with_reducible refine ok_mk ?_ rfl rfl rfl rfl rfl rfl

theorem execVld_ok {qs : List Instr} {i : Issue} {s : State} (hOk : Ok qs s)  : OkOut qs (execVld i s) := by
  unfold execVld
  repeat'
    first
      | with_reducible assumption | intro _ | with_reducible apply okOut_next | with_reducible apply State.vload_ok | split | dsimp only
      | fail_if_no_progress with_reducible refine ok_mk ?_ rfl rfl rfl rfl rfl rfl

theorem execVldv_ok {qs : List Instr} {i : Issue} {s : State} (hOk : Ok qs s)  : OkOut qs (execVldv i s) := by
  unfold execVldv
  repeat'
    first
      | with_reducible assumption | intro _ | with_reducible apply okOut_next | with_reducible apply State.vload_ok | split | dsimp only
      | fail_if_no_progress with_reducible refine ok_mk ?_ rfl rfl rfl rfl rfl rfl

theorem execVlds_ok {qs : List Instr} {i : Issue} {s : State} (hOk : Ok qs s)  : OkOut qs (execVlds i s) := by
  unfold execVlds
  repeat'
    first
      | with_reducible assumption | intro _ | with_reducible apply okOut_next | with_reducible apply State.vload_ok | split | dsimp only
      | fail_if_no_progress with_reducible refine ok_mk ?_ rfl rfl rfl rfl rfl rfl

theorem execVgather_ok {qs : List Instr} {i : Issue} {s : State} (hOk : Ok qs s) : OkOut qs (execVgather i s) := by
  unfold execVgather
  repeat'
    first
      | with_reducible assumption | intro _ | with_reducible apply okOut_next | with_reducible apply State.vec_ok
      | with_reducible apply State.splEcc_ok | with_reducible apply State.vecOow_ok | with_reducible apply State.vresult_ok | split | dsimp only
      | fail_if_no_progress with_reducible refine ok_mk ?_ rfl rfl rfl rfl rfl rfl

theorem execVst_ok {qs : List Instr} {i : Issue} {s : State} (hOk : Ok qs s)  : OkOut qs (execVst i s) := by
  unfold execVst
  repeat'
    first
      | with_reducible assumption | intro _ | with_reducible apply okOut_next | with_reducible apply State.vec_ok
      | with_reducible apply State.vecOow_ok | with_reducible apply State.vstoreRun_ok | with_reducible apply State.corePoison_ok | split
      | dsimp only | fail_if_no_progress with_reducible refine ok_mk ?_ rfl rfl rfl rfl rfl rfl

theorem execVsts_ok {qs : List Instr} {i : Issue} {s : State} (hOk : Ok qs s)  : OkOut qs (execVsts i s) := by
  unfold execVsts
  repeat'
    first
      | with_reducible assumption | intro _ | with_reducible apply okOut_next | with_reducible apply State.vec_ok
      | with_reducible apply State.vecOow_ok | with_reducible apply State.vstoreAt_ok | with_reducible apply State.corePoison_ok | split
      | dsimp only | fail_if_no_progress with_reducible refine ok_mk ?_ rfl rfl rfl rfl rfl rfl

theorem segN_ok {qs : List Instr} {t : State} {c : Nat} {w : Nat} {n : Nat} (hOk : Ok qs t)  : Ok qs (segN t c w n).2 := by
  unfold segN
  repeat'
    first
      | with_reducible assumption | intro _ | with_reducible apply State.addSat_ok | split | dsimp only
      | fail_if_no_progress with_reducible refine ok_mk ?_ rfl rfl rfl rfl rfl rfl

theorem execVlseg_ok {qs : List Instr} {i : Issue} {s : State} (hOk : Ok qs s)  : OkOut qs (execVlseg i s) := by
  unfold execVlseg
  repeat'
    first
      | with_reducible assumption | intro _ | with_reducible apply okOut_next | with_reducible apply State.vec_ok | with_reducible apply segN_ok
      | with_reducible apply State.splEcc_ok | with_reducible apply State.setCore_ok | with_reducible apply State.corePoison_ok
      | with_reducible apply State.vecOow_ok | with_reducible apply ok_foldl | with_reducible apply ok_foldl_fst | split | dsimp only
      | fail_if_no_progress with_reducible refine ok_mk ?_ rfl rfl rfl rfl rfl rfl

theorem execVsseg_ok {qs : List Instr} {i : Issue} {s : State} (hOk : Ok qs s)  : OkOut qs (execVsseg i s) := by
  unfold execVsseg
  repeat'
    first
      | with_reducible assumption | intro _ | with_reducible apply okOut_next | with_reducible apply State.vec_ok | with_reducible apply segN_ok
      | with_reducible apply State.vecOow_ok | with_reducible apply State.vstoreRun_ok | with_reducible apply State.corePoison_ok | split
      | dsimp only | fail_if_no_progress with_reducible refine ok_mk ?_ rfl rfl rfl rfl rfl rfl

theorem execVscatter_ok {qs : List Instr} {i : Issue} {s : State} (hOk : Ok qs s)  : OkOut qs (execVscatter i s) := by
  unfold execVscatter
  repeat'
    first
      | with_reducible assumption | intro _ | with_reducible apply okOut_next | with_reducible apply State.vec_ok
      | with_reducible apply State.vecOow_ok | with_reducible apply State.vstoreAt_ok | with_reducible apply State.corePoison_ok | split
      | dsimp only | fail_if_no_progress with_reducible refine ok_mk ?_ rfl rfl rfl rfl rfl rfl

theorem execVscataddi_ok {qs : List Instr} {i : Issue} {s : State} (hOk : Ok qs s)  : OkOut qs (execVscataddi i s) := by
  unfold execVscataddi
  repeat'
    first
      | with_reducible assumption | intro _ | with_reducible apply okOut_next | with_reducible apply State.vec_ok
      | with_reducible apply State.storeBlock_ok | with_reducible apply State.vecNote_ok | with_reducible apply State.corePoison_ok
      | with_reducible apply State.vecOow_ok | with_reducible apply ok_foldl | with_reducible apply ok_foldl_fst | split | dsimp only
      | fail_if_no_progress with_reducible refine ok_mk ?_ rfl rfl rfl rfl rfl rfl

theorem execVscatadd_ok {qs : List Instr} {i : Issue} {s : State} (hOk : Ok qs s) : OkOut qs (execVscatadd i s) := by
  unfold execVscatadd
  repeat'
    first
      | with_reducible assumption | intro _ | with_reducible apply okOut_next | with_reducible apply State.vec_ok
      | with_reducible apply State.draw_ok | with_reducible apply State.storeBlock_ok | with_reducible apply State.vecNote_ok
      | with_reducible apply State.corePoison_ok | with_reducible apply State.vecOow_ok | with_reducible apply State.srDone_ok
      | with_reducible apply ok_foldl | with_reducible apply ok_foldl_fst | split | dsimp only
      | fail_if_no_progress with_reducible refine ok_mk ?_ rfl rfl rfl rfl rfl rfl

end Sys2Proof.Machine
end

