-- ==== Sys2Proof/Laws/KeepVecRed.lean ====
section
/-! SUPPORT. Every operation of Machine/VecRed.lean keeps what every command keeps. -/
namespace Sys2Proof.Machine
open Sys2Proof
set_option linter.unusedTactic false
set_option linter.unreachableTactic false

theorem State.scan_ok {qs : List Instr} {s : State} {op : Nat} {i : Issue} {seg : Bool} (hOk : Ok qs s) : Ok qs (State.scan s op i seg) := by
  unfold State.scan
  repeat'
    first
      | with_reducible assumption | intro _ | with_reducible apply State.vec_ok | with_reducible apply State.vresult_ok
      | with_reducible apply State.srDone_ok | split | dsimp only | fail_if_no_progress with_reducible refine ok_mk ?_ rfl rfl rfl rfl rfl rfl

theorem execVscan_ok {qs : List Instr} {i : Issue} {s : State} (hOk : Ok qs s)  : OkOut qs (execVscan i s) := by
  unfold execVscan
  repeat'
    first
      | with_reducible assumption | intro _ | with_reducible apply okOut_next | with_reducible apply State.scan_ok | split | dsimp only
      | fail_if_no_progress with_reducible refine ok_mk ?_ rfl rfl rfl rfl rfl rfl

theorem execVsegscan_ok {qs : List Instr} {i : Issue} {s : State} (hOk : Ok qs s)  : OkOut qs (execVsegscan i s) := by
  unfold execVsegscan
  repeat'
    first
      | with_reducible assumption | intro _ | with_reducible apply okOut_next | with_reducible apply State.scan_ok | split | dsimp only
      | fail_if_no_progress with_reducible refine ok_mk ?_ rfl rfl rfl rfl rfl rfl

theorem State.redPick_ok {qs : List Instr} {s : State} {op : Nat} {i : Issue} {big : Bool} (hOk : Ok qs s) : Ok qs (State.redPick s op i big) := by
  unfold State.redPick
  repeat'
    first
      | with_reducible assumption | intro _ | with_reducible apply State.vec_ok | with_reducible apply State.wd_ok
      | with_reducible apply State.vecNote_ok | with_reducible apply State.corePoison_ok | with_reducible apply State.srDone_ok
      | with_reducible apply ok_foldl | with_reducible apply ok_foldl_fst | split | dsimp only
      | fail_if_no_progress with_reducible refine ok_mk ?_ rfl rfl rfl rfl rfl rfl

theorem execVredmax_ok {qs : List Instr} {i : Issue} {s : State} (hOk : Ok qs s)  : OkOut qs (execVredmax i s) := by
  unfold execVredmax
  repeat'
    first
      | with_reducible assumption | intro _ | with_reducible apply okOut_next | with_reducible apply State.redPick_ok | split | dsimp only
      | fail_if_no_progress with_reducible refine ok_mk ?_ rfl rfl rfl rfl rfl rfl

theorem execVredmin_ok {qs : List Instr} {i : Issue} {s : State} (hOk : Ok qs s)  : OkOut qs (execVredmin i s) := by
  unfold execVredmin
  repeat'
    first
      | with_reducible assumption | intro _ | with_reducible apply okOut_next | with_reducible apply State.redPick_ok | split | dsimp only
      | fail_if_no_progress with_reducible refine ok_mk ?_ rfl rfl rfl rfl rfl rfl

theorem execVredsumi_ok {qs : List Instr} {i : Issue} {s : State} (hOk : Ok qs s)  : OkOut qs (execVredsumi i s) := by
  unfold execVredsumi
  repeat'
    first
      | with_reducible assumption | intro _ | with_reducible apply okOut_next | with_reducible apply State.vec_ok
      | with_reducible apply State.wd_ok | with_reducible apply State.vecNote_ok | with_reducible apply State.corePoison_ok
      | with_reducible apply ok_foldl | with_reducible apply ok_foldl_fst | split | dsimp only
      | fail_if_no_progress with_reducible refine ok_mk ?_ rfl rfl rfl rfl rfl rfl

theorem State.setAcc_ok {qs : List Instr} {s : State} {c : Nat} {n : Nat} {x : RuAcc} (hOk : Ok qs s)  : Ok qs (State.setAcc s c n x) := by
  unfold State.setAcc
  repeat'
    first
      | with_reducible assumption | intro _ | with_reducible apply State.setCore_ok | split | dsimp only
      | fail_if_no_progress with_reducible refine ok_mk ?_ rfl rfl rfl rfl rfl rfl

theorem execRuclr_ok {qs : List Instr} {i : Issue} {s : State} (hOk : Ok qs s)  : OkOut qs (execRuclr i s) := by
  unfold execRuclr
  repeat'
    first
      | with_reducible assumption | intro _ | with_reducible apply okOut_next | with_reducible apply State.vec_ok
      | with_reducible apply State.setAcc_ok | split | dsimp only | fail_if_no_progress with_reducible refine ok_mk ?_ rfl rfl rfl rfl rfl rfl

theorem execRuacc_ok {qs : List Instr} {i : Issue} {s : State} (hOk : Ok qs s)  : OkOut qs (execRuacc i s) := by
  unfold execRuacc
  repeat'
    first
      | with_reducible assumption | intro _ | with_reducible apply okOut_next | with_reducible apply State.vec_ok
      | with_reducible apply State.setAcc_ok | with_reducible apply State.vecNote_ok | with_reducible apply State.corePoison_ok | split
      | dsimp only | fail_if_no_progress with_reducible refine ok_mk ?_ rfl rfl rfl rfl rfl rfl

theorem execRuget_ok {qs : List Instr} {i : Issue} {s : State} (hOk : Ok qs s)  : OkOut qs (execRuget i s) := by
  unfold execRuget
  repeat'
    first
      | with_reducible assumption | intro _ | with_reducible apply okOut_next | with_reducible apply State.vec_ok
      | with_reducible apply State.wd_ok | with_reducible apply State.vecNote_ok | with_reducible apply State.srDone_ok
      | with_reducible apply State.corePoison_ok | split | dsimp only | fail_if_no_progress with_reducible refine ok_mk ?_ rfl rfl rfl rfl rfl rfl

theorem execRusave_ok {qs : List Instr} {i : Issue} {s : State} (hOk : Ok qs s)  : OkOut qs (execRusave i s) := by
  unfold execRusave
  repeat'
    first
      | with_reducible assumption | intro _ | with_reducible apply okOut_next | with_reducible apply State.vec_ok
      | with_reducible apply State.windowWrite_ok | with_reducible apply State.vecOow_ok | split | dsimp only
      | fail_if_no_progress with_reducible refine ok_mk ?_ rfl rfl rfl rfl rfl rfl

theorem execRumerge_ok {qs : List Instr} {i : Issue} {s : State} (hOk : Ok qs s)  : OkOut qs (execRumerge i s) := by
  unfold execRumerge
  repeat'
    first
      | with_reducible assumption | intro _ | with_reducible apply okOut_next | with_reducible apply State.vec_ok
      | with_reducible apply State.splEcc_ok | with_reducible apply State.vecOow_ok | with_reducible apply State.vecRsvd_ok
      | with_reducible apply State.setAcc_ok | with_reducible apply State.vecNote_ok | with_reducible apply State.corePoison_ok | split
      | dsimp only | fail_if_no_progress with_reducible refine ok_mk ?_ rfl rfl rfl rfl rfl rfl

theorem execVsoftmax_ok {qs : List Instr} {i : Issue} {s : State} (hOk : Ok qs s)  : OkOut qs (execVsoftmax i s) := by
  unfold execVsoftmax
  repeat'
    first
      | with_reducible assumption | intro _ | with_reducible apply okOut_next | with_reducible apply State.vec_ok
      | with_reducible apply State.vresult_ok | with_reducible apply State.setSreg_ok | with_reducible apply State.addSat_ok
      | with_reducible apply State.srDone_ok | with_reducible apply ok_foldl | with_reducible apply ok_foldl_fst | split | dsimp only
      | fail_if_no_progress with_reducible refine ok_mk ?_ rfl rfl rfl rfl rfl rfl

theorem execVsmxacc_ok {qs : List Instr} {i : Issue} {s : State} (hOk : Ok qs s)  : OkOut qs (execVsmxacc i s) := by
  unfold execVsmxacc
  repeat'
    first
      | with_reducible assumption | intro _ | with_reducible apply okOut_next | with_reducible apply State.vec_ok
      | with_reducible apply State.setAcc_ok | with_reducible apply State.vecNote_ok | with_reducible apply State.corePoison_ok | split
      | dsimp only | fail_if_no_progress with_reducible refine ok_mk ?_ rfl rfl rfl rfl rfl rfl

theorem execVsmxout_ok {qs : List Instr} {i : Issue} {s : State} (hOk : Ok qs s)  : OkOut qs (execVsmxout i s) := by
  unfold execVsmxout
  repeat'
    first
      | with_reducible assumption | intro _ | with_reducible apply okOut_next | with_reducible apply State.vec_ok
      | with_reducible apply State.vresult_ok | with_reducible apply State.corePoison_ok | with_reducible apply State.srDone_ok | split
      | dsimp only | fail_if_no_progress with_reducible refine ok_mk ?_ rfl rfl rfl rfl rfl rfl

end Sys2Proof.Machine
end

