-- ==== Sys2Proof/Tests/Slice0.lean ====
section
/-! SUPPORT. The model's own tests: what is ill formed, a few steps with results worked out from the spec, and for every statement that has
hypotheses states and operands that meet them. Clauses whose hypotheses ask for a signature, a key or a ciphertext have at most a witness that assumes it: what
those give is open (log entry 9). -/
namespace Sys2Proof.Tests
set_option Elab.async false -- one evaluation at a time: together they take too much memory
open Sys2Proof Sys2Proof.Machine Sys2Proof.Claims

/-! ### States and operands -/

/-- Strand 0 of core 0 runs and holds `regs`; it owns every unit. -/
def strandState (regs : Tab Nat) (core : CoreState := {}) : State :=
  { cores := [(0, { core with owner := [(0, 0), (1, 0), (2, 0), (3, 0)], strands := [(0, { st := .running, regs := regs })] })] }

/-- An instruction of strand 0 of core 0. -/
def at0 (d a b : Fin 32) (mod : Fin 512 := 0) (imm : Word := 0) : Issue :=
  { core := 0, strand := 0, d := d, a := a, b := b, mod := mod, imm := imm }

/-- The strand has fetched the word of opcode `op` with the fields of `i`. -/
def holding (op : Nat) (i : Issue) (s : State) : State :=
  s.setStrand i.core.val i.strand.val { s.strand i.core.val i.strand.val with ir := some (wordOf op i) }

/-- The first bytes of core 0's spool hold a list of bytes. -/
def spoolWith (s : State) (b : List Byte) : State := { s with mem := memWrite s.mem (spoolAddr 0 0) b }

/-! ### Witnesses: the strand engine -/

theorem witness_ScalarArithmetic :
    ∀ op ∈ List.range' 1 14,
      (let i := at0 0 0 0
       let s := holding op i (strandState [])
       fetched op i s ∧ ready i s ∧ aluOk i = true ∧ s.aluB i = 0 ∧ i.d = 0) ∧
      (let i := at0 1 0 0 1 64
       let s := holding op i (strandState [])
       fetched op i s ∧ ready i s ∧ aluOk i = true ∧ 64 ≤ s.aluB i ∧ s.aluB i % 2 ^ 64 ≠ 0) := by
  unfold ready fetched; decide +kernel

theorem witness_ScalarMovesAndBranches :
    (∀ x ∈ [(0x00, at0 0 0 0), (0x2F, at0 1 0 0), (0x30, at0 1 0 0)],
      let s := holding x.1 x.2 (strandState [])
      fetched x.1 x.2 s ∧ ready x.2 s ∧ unusedZero x.2 (x.1 != 0) false false 0 0 = true) ∧
    (∀ x ∈ [(0x0F, at0 1 0 0 0 0xFFFFFFFF), (0x2E, at0 1 0 0), (0x2E, at0 1 0 0 0 1), (0x2E, at0 1 0 0 0 2), (0x2E, at0 1 0 0 0 3),
        (0x2E, at0 1 0 0 0 4), (0x2E, at0 1 0 0 0 5), (0x1B, at0 31 0 0 0 0x80000000)],
      let s := holding x.1 x.2 (strandState [])
      fetched x.1 x.2 s ∧ ready x.2 s ∧ unusedZero x.2 true false false 0 32 = true) ∧
    (let i := at0 1 1 0 1 0xFFFFFFFF
     let s := holding 0x0F i (strandState [])
     fetched 0x0F i s ∧ ready i s ∧ unusedZero i true true false 1 32 = true ∧ i.mod = 1) ∧
    (∀ op ∈ List.range' 0x15 6, ∀ regs ∈ [([] : Tab Nat), [(1, 1)], [(1, 2 ^ 64 - 1)]],
      let i := at0 0 1 2 0 0xFFFFFFFF
      let s := holding op i (strandState regs)
      fetched op i s ∧ ready i s ∧ unusedZero i false true true 0 32 = true) ∧
    (let i := at0 31 31 0 0 1
     let s := holding 0x1C i (strandState [])
     fetched 0x1C i s ∧ ready i s ∧ unusedZero i true true false 0 32 = true ∧ i.d ≠ 0) := by
  unfold ready fetched; decide +kernel

theorem witness_ScalarFloatResults :
    (∀ op ∈ List.range' 0x20 5, let i := at0 1 2 3
      let s := holding op i (strandState [])
      fetched op i s ∧ ready i s ∧ sfUnused i true false = true ∧ sfOk i true false = true) ∧
    (∀ op ∈ [0x25, 0x26], let i := at0 1 2 0
      let s := holding op i (strandState [])
      fetched op i s ∧ ready i s ∧ sfUnused i false false = true ∧ sfOk i false false = true) ∧
    (let i := at0 1 2 3
     let s := holding 0x27 i (strandState [])
     fetched 0x27 i s ∧ ready i s ∧ sfUnused i true true = true ∧ sfOk i true true = true) := by
  unfold ready fetched; decide +kernel

/-- The window's last 8 bytes. -/
def windowTop : State := strandState [(1, spoolAddr 0 0 + spoolBytes - 8), (2, 7)]

theorem witness_StrandWindowLoadsAndStores :
    (∀ op ∈ [0x10, 0x12], let i := at0 2 1 0 3
      let s := holding op i windowTop
      fetched op i s ∧ ready i s ∧ i.spl = [] ∧ s.ea i % accWidth i = 0 ∧ inWindow 0 (s.ea i) (accWidth i) = true ∧
      unusedZero i true true false 3 32 = true ∧ i.d ≠ 0) ∧
    (let i := at0 0 1 2 3
     let s := holding 0x11 i windowTop
     fetched 0x11 i s ∧ ready i s ∧ s.ea i % accWidth i = 0 ∧ inWindow 0 (s.ea i) (accWidth i) = true ∧ memWf s.mem = true ∧
      unusedZero i false true true 3 32 = true) ∧
    (∀ x ∈ [(0x10, at0 2 1 0 3), (0x12, at0 2 1 0 3), (0x11, at0 0 1 2 3)],
      (let s := holding x.1 x.2 (strandState [(1, pageBase)])
       fetched x.1 x.2 s ∧ ready x.2 s ∧ s.ea x.2 % accWidth x.2 = 0 ∧ inWindow 0 (s.ea x.2) (accWidth x.2) = false ∧ regionOf (s.ea x.2) = .page) ∧
      (let s := holding x.1 x.2 (strandState [(1, 1)])
       fetched x.1 x.2 s ∧ ready x.2 s ∧ s.ea x.2 % accWidth x.2 ≠ 0)) := by
  unfold ready fetched; decide +kernel

theorem witness_StrandPageAccess :
    ∀ x ∈ [(0x13, at0 2 1 0), (0x14, at0 0 1 2)],
      (let s := holding x.1 x.2 (strandState [(1, pageBase)])
       fetched x.1 x.2 s ∧ ready x.2 s ∧ pageWord (s.ea x.2) = true ∧
        unusedZero x.2 (x.1 == 0x13) true (x.1 == 0x14) 0 32 = true) ∧
      (let s := holding x.1 x.2 (strandState [])
       fetched x.1 x.2 s ∧ ready x.2 s ∧ pageWord (s.ea x.2) = false) := by
  unfold ready fetched; decide +kernel

/-- Strand 7 runs too. -/
def twoStrands : State := (strandState []).setStrand 0 7 { st := .running }

theorem witness_StrandControl :
    (let i := at0 0 1 0 (7 * 16 + 15)
     (let s := holding 0x28 i (strandState [])
      fetched 0x28 i s ∧ ready i s ∧ s.spawnOk i = true ∧ (s.strand 0 7).st ≠ .running) ∧
     (let s := holding 0x28 i twoStrands
      fetched 0x28 i s ∧ ready i s ∧ s.spawnOk i = true ∧ (s.strand 0 7).st = .running)) ∧
    (let i := at0 0 0 0
     let s := holding 0x29 i ((strandState []).setStrand 0 0 { st := .running, inst := 1, chain := [(7, 0)] } |>.setStrand 0 7 { st := .running })
     let t := (s.endAt 0 0)
     fetched 0x29 i s ∧ ready i s ∧ unusedZero i false false false 0 0 = true ∧ s.owns 0 0 0 = true ∧ t.heir 0 0 = some 7) ∧
    (∀ q ∈ [([] : List (Nat × Issue × Nat)), [(0, at0 0 0 0 63, 0)]],
      let i := at0 0 0 0 63
      let s := holding 0x2A i (strandState [] { mvpQueue := q })
      fetched 0x2A i s ∧ ready i s ∧ unusedZero i false false false 6 32 = true ∧ s.waitMet .sync i = q.isEmpty) ∧
    (∀ regs ∈ [([] : Tab Nat), [(1, 1)]],
      let i := at0 0 1 0 0 15
      let s := holding 0x2B i (strandState regs)
      fetched 0x2B i s ∧ ready i s ∧ unusedZero i false true false 0 4 = true ∧ s.waitMet .waits i = regs.isEmpty) ∧
    (∀ x ∈ [(at0 0 1 0, true), (at0 0 1 2, false)],
      let s := holding 0x2D x.1 windowTop
      fetched 0x2D x.1 s ∧ ready x.1 s ∧ unusedZero x.1 false true true 0 0 = true ∧ s.ra x.1 % 8 = 0 ∧ inWindow 0 (s.ra x.1) 8 = true ∧
        s.waitMet .sigwait x.1 = x.2) ∧
    (let i := at0 0 1 0 0 15
     let s := holding 0x2C i (strandState [])
     fetched 0x2C i s ∧ ready i s ∧ unusedZero i false true false 0 4 = true) := by
  unfold ready fetched; decide +kernel

/-- Strand 0 waits at an instruction, a matrix-vector command of its own being incomplete or not. -/
def waiting (op : WaitOp) (i : Issue) (q : List (Nat × Issue × Nat)) : State :=
  (strandState [] { mvpQueue := q }).setStrand 0 0 { st := .running, wait := some (op, i), ir := some (wordOf op.code i) }

theorem witness_StrandWaitEnds :
    (∀ q ∈ [([] : List (Nat × Issue × Nat)), [(0, at0 0 0 0 63, 0)]],
      let i := at0 0 0 0 63
      let s := waiting .sync i q
      i.ecc = {} ∧ (s.strand 0 0).st = .running ∧ (s.strand 0 0).wait = some (.sync, i) ∧ fetched WaitOp.sync.code i s ∧
        s.waitMet .sync i = q.isEmpty) ∧
    (let i := at0 0 1 0 (7 * 16 + 15)
     let s := waiting .spawn i []
     i.ecc = {} ∧ (s.strand 0 0).st = .running ∧ (s.strand 0 0).wait = some (.spawn, i) ∧ fetched WaitOp.spawn.code i s ∧
      s.waitMet .spawn i = true ∧ modBits i 4 3 ≠ 0) := by
  unfold fetched; decide +kernel

theorem witness_InstructionFetchResult :
    (∀ op ∈ [(0x01 : Nat), 0xFF],
      let s := { strandState [] with mem := memWrite [] 0 (toLe 8 (wordOf op (at0 3 1 2))) }
      let r := s.readMem (some 0) 0 8
      (s.strand 0 0).st = .running ∧ (s.strand 0 0).ir = none ∧ (s.strand 0 0).wait = none ∧ s.accWaits false 0 8 = false ∧ r.acs.st = 0 ∧
        r.poison = [] ∧ listedOp (leNat r.data / 2 ^ 56) = (op == 1)) ∧
    (let u := (strandState []).setStrand 0 0 { st := .running, pc := 4 }
     (u.strand 0 0).st = .running ∧ (u.strand 0 0).ir = none ∧ (u.strand 0 0).wait = none ∧ (u.strand 0 0).pc % 8 ≠ 0 ∧
      u.accWaits false 4 8 = false) := by
  decide +kernel

/-- A fetch descriptor of one row of 64 bytes from DRAM into the window. -/
def oneRow : List Byte := toLe 8 0 ++ toLe 4 0 ++ toLe 4 64 ++ toLe 4 1 ++ toLe 6 (spoolAddr 0 0) ++ toLe 6 0

theorem witness_FetchJoinsStream :
    let i := at0 0 1 0
    let s := holding 0x31 i (spoolWith (strandState [(1, spoolAddr 0 0)]) oneRow)
    fetched 0x31 i s ∧ ready i s ∧ i.spl = [] ∧ s.fetchFull 0 = false ∧ unusedZero i false true false 0 0 = true ∧
      (went i s).descRead 0 (s.ra i) 32 32 = some (oneRow, false) ∧ (went i s).fdescBad 0 oneRow = false ∧ (fdescOf oneRow).lines ≠ 0 := by
  unfold ready fetched went; decide +kernel

theorem witness_RunAheadIssue :
    (let s := strandState [] { mvp := some { reads := [(0, 128)] } }
     (s.core 0).mvp = some { reads := [(0, 128)] } ∧ (s.core 0).freeSlot = some 0) ∧
    (let s := strandState [] { streams := [(0, { queue := [fdescOf oneRow] })] }
     (s.core 0).mvp = none ∧ (s.core 0).nextStream = some 0 ∧ (s.core 0).freeSlot = some 0) ∧
    (let s := strandState [] { streams := [(0, { queue := [fdescOf oneRow] })], slots := (List.range 256).map fun k => (k, {}) }
     (s.core 0).mvp = none ∧ (s.core 0).nextStream = some 0 ∧ (s.core 0).freeSlot = none) ∧
    ((strandState []).core 0).nextStream = none := by
  decide +kernel

/-- A line of `oneRow` on its way to slot 0: of this device, or as one GET to another. -/
def lineComing (parts : List (Nat × Option (List Byte × List Nat))) : State :=
  { strandState [] { streams := [(0, { issued := 1, queue := [{ fdescOf oneRow with first := some 0, next := 1 }] })]
                     slots := [(0, { dst := spoolAddr 0 0, parts := parts })] } with
    fab := { issued := [(5, { issuer := .runAhead 0 0, desc := { op := 1, heddle := 23 }, dest := 7, sent := true })] } }

theorem witness_RunAheadLand :
    Tab.get? ((strandState []).core 0).slots 0 = none ∧
    (let s := lineComing []
     let r : RaSlot := { dst := spoolAddr 0 0 }
     Tab.get? (s.core 0).slots 0 = some r ∧ r.mv = none ∧ r.parts = [] ∧
      (∀ p ∈ ((s.core 0).slotDesc r).lineSrc ((r.line + 2 ^ 32 - ((s.core 0).slotDesc r).first.getD 0) % 2 ^ 32), s.accWaits false p.1 p.2 = false) ∧
      r.dst % 128 = 0 ∧ inWindow 0 r.dst 64 = true ∧ memWf s.mem = true ∧
      (Tab.get ({} : Stream) (s.core 0).streams 0).landed = r.line ∧ (Tab.get ({} : Stream) (s.core 0).streams 0).ahead = []) ∧
    (let s := lineComing [(5, none)]
     let r : RaSlot := { dst := spoolAddr 0 0, parts := [(5, none)] }
     Tab.get? (s.core 0).slots 0 = some r ∧ r.mv = none ∧ (Tab.get? s.fab.issued 5).isSome = true ∧ ({} : LineResponse).retries = []) := by
  decide +kernel

/-- A SIG descriptor to a word of DRAM; with `op` 2, an ACC of 8 bytes. -/
def opBytes (op : Nat) : List Byte := toLe 20 op ++ toLe 4 8 ++ toLe 8 (spoolAddr 0 0) ++ toLe 32 0

theorem witness_RemoteOperationIssue :
    ∀ x ∈ [(0x33, 2), (0x32, 3)],
      let i := at0 0 1 0
      let s := holding x.1 i (spoolWith (strandState [(1, spoolAddr 0 0)]) (opBytes x.2))
      fetched x.1 i s ∧ ready i s ∧ i.spl = [] ∧ s.rmoFull 0 = false ∧ unusedZero i false true false 0 0 = true ∧
        (went i s).descRead 0 (s.ra i) 64 64 = some (opBytes x.2, false) ∧ (opDescOf (opBytes x.2)).op = x.2 ∧
        (went i s).opBad { opDescOf (opBytes x.2) with unord := x.2 == 2 } = false := by
  unfold ready fetched went; decide +kernel

/-- A step of a strand with one command: NOP. -/
theorem witness_ScalarInstructionFrame : ∃ t, Does (.nop (at0 0 0 0)) (strandState []) t := ⟨_, rfl⟩

theorem witness_StorageErrorFaults :
    ∀ op ∈ [0x00, 0x01, 0x02, 0x03, 0x07, 0x08, 0x09, 0x0F, 0x15, 0x1B, 0x2F],
      let i : Issue := { at0 0 0 0 with ecc := { uncorr := 1 } }
      let s := holding op i (strandState [])
      fetched op i s ∧ (s.strand 0 0).st = .running ∧ (s.strand 0 0).wait = none ∧ i.ecc.uncorr ≠ 0 := by
  unfold fetched; decide +kernel


/-! ### Witnesses: arrays and the matrix-vector path -/

/-- Core 0 with array 0 in a state. -/
def arrState (x : ArrState) (regs : Tab Nat := []) : State := strandState regs { arr := [(0, x)] }

theorem witness_ArrayLoadJoinsLoader :
    ∀ mod ∈ [(0 : Fin 512), 2, 4, 6],
      let i := at0 0 1 0 mod 0
      let s := holding 0x38 i (arrState {})
      fetched 0x38 i s ∧ ready i s ∧ (s.arr 0 0).waiting < 8 ∧
      unusedZero i false true (!(bitOf i.mod.val 1 && bitOf i.mod.val 2)) 3 10 = true ∧ s.owns 0 0 1 = true ∧
      arrayFmt (immBits i 0 4) = true ∧ fracOk (immBits i 0 4) (immBits i 4 6) = true := by
  unfold ready fetched; decide +kernel

/-- A load under way. -/
def loading : State := arrState { loader := [{ start := some 10 }] }

theorem witness_ArrayLoadCompletes :
    ∃ j, (loading.arr 0 0).loader = [j] ∧ j.start = some 10 ∧ 10 + j.cycles ≤ 73 + 1 ∧ 72 + 1 < 10 + j.cycles := by
  refine ⟨{ start := some 10 }, by decide +kernel, rfl, by decide +kernel, by decide +kernel⟩

/-- A pass block: one vector of M vectors of E4M3, INIT; epilogue descriptor at `epi`. -/
def passBytes (m : Nat) (epi : Nat := 0) : List Byte := toLe 12 0 ++ toLe 2 m ++ toLe 3 0 ++ toLe 1 4 ++ toLe 14 0 ++ toLe 6 epi ++ toLe 26 0

theorem witness_ArrayPassJoinsQueue :
    (∀ x ∈ [(0x39, 1), (0x3A, 1), (0x39, 257), (0x3A, 257)],
      let i := at0 0 1 0
      let s := holding x.1 i (spoolWith (arrState { ordActive := some 0 } [(1, spoolAddr 0 0)]) (passBytes x.2))
      fetched x.1 i s ∧ ready i s ∧ i.spl = [] ∧ (s.arr 0 0).waiting < 8 ∧ (s.arr 0 0).unwritten (s.arr 0 0).order (s.ra i) 64 = false ∧
        unusedZero i false true false 1 0 = true ∧ s.owns 0 0 1 = true ∧
        (went i s).descRead 0 (s.ra i) 64 64 = some (passBytes x.2, false) ∧ passReservedZero (passBytes x.2) = true ∧
        fieldOf (passBytes x.2) 32 6 = 0 ∧ (s.arr 0 0).passOk (passOf (passBytes x.2)) = decide (x.2 = 1)) ∧
    (let i := at0 0 1 0
     let b := passBytes 1 (spoolAddr 0 0 + 128)
     let s := holding 0x39 i (spoolWith (arrState { ordActive := some 0 } [(1, spoolAddr 0 0)]) (b ++ toLe 80 0 ++ toLe 48 64))
     (went i s).descRead 0 (s.ra i) 64 64 = some (b, false) ∧ fieldOf b 32 6 ≠ 0 ∧
      ((went i s).epiRead 0 (fieldOf b 32 6)).map (·.2) = some false) := by
  unfold ready fetched went; decide +kernel

/-- A pass that is releasing its beats, its vector in the bobbin queues or not, with and without a bank that still drains. -/
def releasing (q : List Weft) (d : List Drain) : State := arrState { passes := [{ m := 1, read := 1 }], queue := q, drains := d }

theorem witness_ArrayBeatRelease :
    (arrState {}).arr 0 0 = {} ∧ ({} : ArrState).releasing = none ∧
    ∀ x ∈ [([], [], false), ([({} : Weft)], [], false), ([{}], [({} : Drain)], true)],
      let s := releasing x.1 x.2.1
      let u := (s.readWefts 0 0 0).arr 0 0
      (s.arr 0 0).releasing = some { m := 1, read := 1 } ∧ (s.arr 0 0).relFree ≤ 0 ∧ u.headFor { m := 1, read := 1 } = x.1.head? ∧
        u.held { m := 1, read := 1 } 0 = x.2.2 := by
  decide +kernel

theorem witness_ArrayClocksAndVat :
    let s := arrState { flights := [{ last := true, rel := 5 }] }
    (let u := s.setFld F.CORE_ARR_CTL_GATE_MODE 0 1
     u.flag F.CORE_ARR_CTL_GATE_MODE 0 = true ∧ (u.arr 0 0).relFree + u.fld F.CORE_ARR_CTL_IDLE_THRESH 0 ≤ 1000 + 1) ∧
    s.flag F.CORE_ARR_CTL_GATE_MODE 0 = false ∧ (takeVector (s.arr 0 0).flights).1.getLast? = some { last := true, rel := 5 } ∧
    5 + 68 ≤ 73 ∧ 72 < 5 + 68 := by
  decide +kernel

/-- Array 0 with a bank to drain: row `row` of `rows`, to the spool or as a tile to slice 0, of a pass or a reserved one. -/
def draining (row rows : Nat) (dest : Nat := 0) (zero : Bool := false) : State :=
  arrState { drains := [{ rows := rows, row := row, epi := { dest := dest }, zero := zero }] }

/-- The drain that it holds. -/
def bankOf (row rows : Nat) (dest : Nat := 0) (zero : Bool := false) : Drain := { rows := rows, row := row, epi := { dest := dest }, zero := zero }

theorem witness_EpilogueDrainsOneRow :
    ((arrState {}).arr 0 0).drains = [] ∧
    (let s := draining 0 2
     (s.arr 0 0).drains = [bankOf 0 2] ∧ s.canAccept 0 0 (bankOf 0 2) false = false) ∧
    (∀ x ∈ [(0, 2, false), (62, 2, false), (63, 64, false), (63, 2, false), (0, 2, true), (1, 2, true)],
      let s := draining x.1 x.2.1 0 x.2.2
      (s.arr 0 0).drains = [bankOf x.1 x.2.1 0 x.2.2] ∧ (bankOf x.1 x.2.1 0 x.2.2).epi.dest ≠ 5 ∧
        s.canAccept 0 0 (bankOf x.1 x.2.1 0 x.2.2) true = true) ∧
    (let s : State := { draining 63 64 5 with
       mem := [(28, 1)], colls := [(0, { script := some {}, chunks := (List.range 32).map fun k => (k, {}) })] }
     (s.arr 0 0).drains = [bankOf 63 64 5] ∧ s.tileWaits 0 0 = some 0) := by
  decide +kernel

/-- A matrix-vector block: MV of `rows` rows of one column, E4M3, from DRAM. -/
def mvBytes (rows : Nat) : List Byte := toLe 8 0 ++ toLe 4 rows ++ toLe 4 1 ++ toLe 80 1

/-- Core 0's spool begins with that block; register 1 holds its address. -/
def mvState (rows : Nat) (core : CoreState := {}) : State := spoolWith (strandState [(1, spoolAddr 0 0)] core) (mvBytes rows)

theorem witness_MatrixVectorCommands :
    let i := at0 0 1 0
    let free := fun (s : State) => fetched 0x3B i s ∧ ready i s ∧ i.spl = [] ∧ unusedZero i false true false 0 0 = true ∧ s.owns 0 0 3 = true
    (let s := mvState 0 { mvpQueue := List.replicate 4 (0, i, 0) }
     ready i s ∧ 4 ≤ (s.core 0).mvpQueue.length) ∧
    (∀ m ∈ [{ mvpHolder := some 0 }, { mvp := some ({} : MvJob) }, ({} : CoreState)],
      let s := holding 0x3B i (mvState 0 m)
      free s ∧ (s.core 0).mvpQueue.length < 4 ∧ (s.core 0).mvpHolder = m.mvpHolder ∧ (s.core 0).mvpWait = none ∧ (s.core 0).mvp = m.mvp) ∧
    ∀ rows ∈ [0, 1],
      let s := holding 0x3B i (mvState rows)
      let l := mvBytes rows
      free s ∧ (s.core 0).mvpQueue = [] ∧ (went i s).descRead 0 (s.ra i) 96 32 = some (l, false) ∧ mvReservedZero l = true ∧
        (mvBlockOf l).ok = true ∧ (mvBlockOf l).kind ≠ 3 ∧ (mvBlockOf l).lines [] = if rows = 0 then [] else [(0, 1)] := by
  unfold ready fetched went; decide +kernel

/-- The matrix's line of a running command comes in slot 0, with `more` to be read. -/
def lineToCome (more : List (Nat × Nat)) : State :=
  strandState [] { mvp := some { block := mvBytes 1, reads := more, out := 1 }, slots := [(0, { mv := some 1 })] }

theorem witness_MatrixLineLands :
    ∀ more ∈ [([] : List (Nat × Nat)), [(64, 1)]],
      let s := lineToCome more
      Tab.get? (s.core 0).slots 0 = some { mv := some 1 } ∧ s.accWaits false 0 1 = false ∧ (s.core 0).mvpQueue = [] ∧
        (s.core 0).mvp = some { block := mvBytes 1, reads := more, out := 1 } ∧ (mvBlockOf (mvBytes 1)).kind ≠ 3 ∧
        ({} : LineResponse).ecc = [] ∧ ({} : LineResponse).retries = [] := by
  decide +kernel

theorem witness_ReservationEnd :
    (({} : State).cores.filter fun e => e.1 / 32 == 0 && e.2.mvpHolder.isNone && e.2.mvpWait.isSome) = [] ∧
    (let s := strandState [] { mvpWait := some 7 }
     (s.cores.filter fun e => e.1 / 32 == 0 && e.2.mvpHolder.isNone && e.2.mvpWait.isSome) = [(0, s.core 0)] ∧ (s.core 0).mvpWait = some 7) := by
  decide +kernel

/-! ### Witnesses: the vector engine -/

/-- Core 0 with `vl` elements. -/
def vecState (vl : Nat) (regs : Tab Nat := []) (core : CoreState := {}) : State := strandState regs { core with vl := vl }

/-- A vector instruction of v1, v2 and v3: the destination's format, the sources', K and SUB. -/
def vec (ccb : Fin 512) (fa fb : Nat) (k : Nat := 0) (sub : Nat := 0) (d : Fin 32 := 1) : Issue :=
  at0 d 2 3 ccb (BitVec.ofNat 32 (fa + 16 * fb + 2 ^ 20 * k + 2 ^ 27 * sub))

theorem witness_VectorIntegerResults :
    ∀ op ∈ List.range' 0x48 11 ++ List.range' 0x54 4,
      let i := vec 8 8 8
      let s := holding op i (vecState 2048)
      fetched op i s ∧ vready i s ∧ vintOk i true = true ∧ fits i s (vops2 i (dstBytes i) (fmtBytes (vFa i)) (fmtBytes (vFb i))) := by
  unfold vready ready fetched fits; decide +kernel

theorem witness_VectorFixedPointResults :
    (let i := vec 8 8 8
     let s := holding 0x59 i (vecState 2048)
     fetched 0x59 i s ∧ vready i s ∧ vintOk i true = true ∧ vK i < 16 * dstBytes i ∧
      fits i s (vops2 i (dstBytes i) (fmtBytes (vFa i)) (fmtBytes (vFb i)))) ∧
    (∀ op ∈ [0x5A, 0x5B, 0x58], let i := vec 8 9 0 7
      let s := holding op i (vecState 1024)
      fetched op i s ∧ vready i s ∧ vintOk i false = true ∧ fmtBytes (vFa i) = 2 * dstBytes i ∧ isInt (vFb i) = false ∧ vK i < 8 * dstBytes i ∧
        fits i s [(i.d.val, dstBytes i), (i.a.val, fmtBytes (vFa i))]) ∧
    (let i := vec 8 9 8
     let s := holding 0x58 i (vecState 1024)
     fetched 0x58 i s ∧ vready i s ∧ vintOk i false = true ∧ isInt (vFb i) = true ∧
      (∀ x ∈ elems i s i.b.val (fmtBytes (vFb i)) (vSb i), x.1 < 8 * dstBytes i) ∧
      fits i s (vops2 i (dstBytes i) (fmtBytes (vFa i)) (fmtBytes (vFb i)))) := by
  unfold vready ready fetched fits; decide +kernel

theorem witness_VectorMoves :
    (∀ x ∈ [(0x40, at0 1 2 0 3), (0x41, at0 0 1 2)],
      let s := holding x.1 x.2 (vecState 1)
      fetched x.1 x.2 s ∧ vready x.2 s ∧ unusedZero x.2 (x.1 == 0x40) true (x.1 == 0x41) (if x.1 = 0x40 then 2 else 0) 0 = true) ∧
    (∀ x ∈ [(0x42, vec 8 8 8), (0x43, vec 8 8 8), (0x44, vec 8 8 8), (0x45, vec 8 8 8), (0x47, vec 8 8 8)],
      let i := x.2
      let s := holding x.1 i (vecState 4)
      let w := dstBytes i
      fetched x.1 i s ∧ vready i s ∧ moveOk i = true ∧ fits i s [(i.d.val, w)] ∧ fits i s (vops2 i w w w) ∧ isInt (vFb i) = true ∧
        fits i s (vops2 i w w (fmtBytes (vFb i))) ∧ fits i s [(i.d.val, w), (i.a.val, w)] ∧ fits i s [(i.a.val, w)] ∧
        s.rb i < vcap (vlen i s) w) ∧
    (let i := vec 8 1 0
     let s := holding 0x46 i (vecState 4)
     fetched 0x46 i s ∧ vready i s ∧ ccbOk (vCcb i) = true ∧ i.imm.toNat < 32 ∧
      fits i s [(i.d.val, dstBytes i), (i.a.val, dstBytes i), (i.b.val, dstBytes i)]) := by
  unfold vready ready fetched fits; decide +kernel

theorem witness_VectorFloatTwoSources :
    (∀ op ∈ [0x60, 0x61, 0x62, 0x63, 0x64, 0x65, 0x69], let i := vec 4 4 4
      let s := holding op i (vecState 512)
      fetched op i s ∧ vready i s ∧ vfOk i true = true ∧
        fits i s (vops2 i (fmtBytes (ccbFmt (vCcb i))) (fmtBytes (vFa i)) (fmtBytes (vFb i)))) ∧
    (let i := vec 8 4 4 0 5
     let s := holding 0x66 i (vecState 512)
     fetched 0x66 i s ∧ vready i s ∧ vfOk i true = true ∧ isInt (ccbFmt (vCcb i)) = true ∧ vSub i ≤ 5 ∧
      fits i s (vops2 i (fmtBytes (ccbFmt (vCcb i))) (fmtBytes (vFa i)) (fmtBytes (vFb i)))) := by
  unfold vready ready fetched fits; decide +kernel

theorem witness_VectorFloatOneSource :
    ∀ op ∈ [0x67, 0x68, 0x6A, 0x6B, 0x6C] ++ List.range' 0x70 8, let i := vec 4 4 4
      let s := holding op i (vecState 512)
      fetched op i s ∧ vready i s ∧ vfOk i false = true ∧ vFa i ≠ 5 ∧ ccbFmt (vCcb i) ≠ 5 ∧
        fits i s [(i.d.val, fmtBytes (ccbFmt (vCcb i))), (i.a.val, fmtBytes (vFa i))] := by
  unfold vready ready fetched fits; decide +kernel

theorem witness_VectorScans :
    ∀ op ∈ [0x78, 0x79], ∀ sub ∈ [0, 1, 2, 3], let i := vec 8 8 8 0 sub
      let s := holding op i (vecState 2048)
      fetched op i s ∧ vready i s ∧ scanOk i = true ∧ scanOp i = sub ∧ vSb i = false ∧
        fits i s [(i.d.val, fmtBytes (ccbFmt (vCcb i))), (i.a.val, fmtBytes (vFa i)), (i.b.val, fmtBytes (vFb i))] ∧
        fits i s [(i.d.val, fmtBytes (ccbFmt (vCcb i))), (i.a.val, fmtBytes (vFa i))] := by
  unfold vready ready fetched fits; decide +kernel

theorem witness_VectorReductions :
    ∀ op ∈ [0x7A, 0x7B, 0x7C], ∀ n ∈ [0, 2048], let i := vec 8 8 8
      let s := holding op i (vecState n)
      fetched op i s ∧ vready i s ∧ i.d ≠ 0 ∧ vfOk i true = true ∧ vintOk i true = true ∧ fits i s [(i.a.val, fmtBytes (vFa i))] ∧ vlen i s = n := by
  unfold vready ready fetched fits; decide +kernel

theorem witness_ReductionUnit :
    (∀ op ∈ [0x90, 0x93, 0x94], let i := at0 0 2 3
      let s := holding op i (vecState 512 [(3, spoolAddr 0 0 + spoolBytes - 96)])
      fetched op i s ∧ vready i s ∧ i.spl = [] ∧ i.a.val < 4 ∧ moveOk i = true ∧ fits i s [] ∧ s.rb i % 32 = 0 ∧
        inWindow 0 (s.rb i) 96 = true ∧ (savedAcc (s.windowRead 0 (s.rb i) 96).1 false).isSome = true ∧ (s.windowRead 0 (s.rb i) 96).2 = []) ∧
    (let i := vec 0 4 4
     let s := holding 0x91 i (vecState 512)
     fetched 0x91 i s ∧ vready i s ∧ i.spl = [] ∧ i.a.val < 4 ∧ valueOk i [vFb i] false = true ∧ fits i s (if vSb i then [] else [(i.b.val, fmtBytes (vFb i))])) ∧
    ∀ sub ∈ List.range 8, let i := vec 4 0 0 0 sub
      let s := holding 0x92 i (vecState 512)
      fetched 0x92 i s ∧ vready i s ∧ i.spl = [] ∧ i.a.val < 4 ∧ valueOk i [] true = true ∧ fits i s [] ∧ i.d ≠ 0 ∧ vSub i = sub := by
  unfold vready ready fetched fits; decide +kernel

theorem witness_SoftmaxResults :
    (∀ n ∈ [0, 2], let i := vec 4 4 4
      let s := holding 0x95 i (vecState n)
      let xs := (elems i s 2 4 false).map fun x => decodeVal 4 0 x.1
      fetched 0x95 i s ∧ vready i s ∧ vfOk i false = true ∧ isFloat (vFa i) = true ∧ isFloat (ccbFmt (vCcb i)) = true ∧
        fits i s [(i.d.val, fmtBytes (ccbFmt (vCcb i))), (i.a.val, fmtBytes (vFa i))] ∧
        xs.foldl (fun p q => Val.pick true p q) (.inf true) = if n = 0 then .inf true else .fin false 0 (2 ^ 149)) ∧
    (∀ v ∈ [(0x7F800000, Val.inf false), (0xFF800000, Val.inf true), (0, .fin false 0 (2 ^ 149))], let i := vec 4 4 4
      let s := holding 0x96 i (vecState 2 [(3, v.1)])
      fetched 0x96 i s ∧ vready i s ∧ smxOk i = true ∧ fits i s [(i.a.val, fmtBytes (vFa i))] ∧ decodeVal (vFb i) 0 (s.rb i) = v.2) ∧
    (let i := vec 4 4 4
     let s := holding 0x97 i (vecState 2)
     fetched 0x97 i s ∧ vready i s ∧ smxOk i = true ∧ fits i s [(i.d.val, fmtBytes (ccbFmt (vCcb i))), (i.a.val, fmtBytes (vFa i))]) := by
  unfold vready ready fetched fits; decide +kernel

theorem witness_VectorLoads :
    ∀ op ∈ [0x80, 0x8A, 0x82, 0x86, 0x84],
      let i := vec 8 0 0 0 4
      let s := holding op i (vecState 1 [(2, spoolAddr 0 0), (3, 1)])
      fetched op i s ∧ vready i s ∧ i.spl = [] ∧ memOk i = true ∧ fits i s [(i.d.val, memBytes i)] ∧ fits i s [(i.d.val, memBytes i), (i.b.val, 4)] ∧
        segOk i = true ∧ vlen i s ≤ vregBytes / max 1 (memBytes i) ∧ fits i s [] ∧
        (∀ e < 1 * vSub i, (elemAddr 0 1 ((s.ra i : Int) + e * 1)).isSome = true) ∧
        (elemAddr 0 1 ((s.ra i : Int) + (0 : Nat) * signedOf 64 (s.rb i))).isSome = true ∧
        (elemAddr 0 1 ((s.ra i : Int) + signedOf 32 (leNat (((s.core 0).vbytes i.b.val ((0 + 1) * 4)).drop (0 * 4))) * 1)).isSome = true := by
  unfold vready ready fetched fits; decide +kernel

theorem witness_VectorStores :
    ∀ op ∈ [0x81, 0x83, 0x87, 0x88, 0x89, 0x85],
      let i := vec (if op = 0x89 then 10 else 4) 0 0 0 2
      let s := holding op i (vecState 1 [(2, spoolAddr 0 0), (3, 4)])
      fetched op i s ∧ vready i s ∧ memOk i = true ∧ memWf s.mem = true ∧ memBytes i = 4 ∧ fits i s [(i.d.val, 4)] ∧
        fits i s [(i.d.val, 4), (i.b.val, 4)] ∧ fits i s [] ∧ segOk i = true ∧ vlen i s ≤ vregBytes / max 1 4 ∧
        (if op = 0x89 then isInt else isFloat) (ccbFmt (vCcb i)) = true ∧ ccbOk (vCcb i) = true ∧
        (∀ e < 1 * vSub i, (elemAddr 0 4 ((s.ra i : Int) + e * 4)).isSome = true) ∧
        (elemAddr 0 4 ((s.ra i : Int) + (0 : Nat) * signedOf 64 (s.rb i))).isSome = true ∧
        (elemAddr 0 4 ((s.ra i : Int) + signedOf 32 (leNat (((s.core 0).vbytes i.b.val ((0 + 1) * 4)).drop (0 * 4))) * 4)).isSome = true := by
  unfold vready ready fetched fits; decide +kernel

theorem witness_VectorResultReadsBack : 1 ≤ 1 ∧ (List.replicate 2048 0).length * 1 ≤ vregBytes := by decide +kernel

theorem witness_VectorInstructionFrame : ∃ t, Does (.vadd (vec 8 8 8)) (vecState 1) t := ⟨_, rfl⟩

/-! ### Witnesses: registers and the pick -/

/-- The state after reset with register fields written. -/
def withFlds (l : List (Fld × Nat × Nat)) (s : State := {}) : State := l.foldl (fun t x => t.setFld x.1 x.2.1 x.2.2) s

theorem witness_RegisterWriteByAccessType :
    (pageAddr 15 0 0x080 < 2 ^ 48 ∧ mayWrite .mgmt 15 0 {} ∧ regFlds 15 0 0x080 = [F.POWER_ENV_CTL] ∧ F.POWER_ENV_CTL.acc = .rws ∧
      ({} : State).pageArmed 15 0 = false) ∧
    (mayWrite .mgmt 14 0 {} ∧ regFlds 14 0 0x090 = (pageFlds 14).filter (fun f => f.off == 0x090) ∧
      ((pageFlds 14).filter fun f => f.off == 0x090).map (·.acc) = [.rwl] ∧ ({} : State).locked = false) ∧
    (((pageFlds 14).filter fun f => f.off == 0x090).all fun f => ({ locked := true } : State).fldRead f 0 != 5) = true ∧
    (regFlds 15 0 0x094 = [F.POWER_PWR_PEAK] ∧ F.POWER_PWR_PEAK.acc = .ro) ∧
    ({} : State).pageGate (({} : State).accessOf (.vf 7)) 15 0 true = 7 := by
  unfold mayWrite; decide +kernel

theorem witness_EventAndErrorRegisters :
    mayWrite .pf 0 0 {} ∧ mayWrite .mgmt 8 35 {} ∧ (let s := withFlds [(F.EVT_STAT 8, 35, 1)]
      bitOf (s.fld (F.EVT_STAT 8) 35) 0 = true ∧ evtImpl 8 35 0 = true) ∧ ({} : State).fld (F.ERR_CNT 12) 0 = 0 := by
  unfold mayWrite; decide +kernel

theorem witness_StagingAndCommitControl :
    (mayWrite .mgmt 15 0 {} ∧ ({} : State).pageArmed 15 0 = false ∧ (0 : Nat) ≤ ({} : State).fld (F.CFG_GEN 15) 0 ∧
      ({} : State).fld (F.CFG_GEN 15) 0 < 1) ∧
    (let s : State := { armed := some ⟨1, 9, [(15, 0)]⟩ }
     mayWrite .mgmt 15 0 s ∧ s.pageArmed 15 0 = true) ∧
    (let s := withFlds [(F.CFG_STAGE 15, 0, 1), (F.CFG_STAGE 0, 0, 1), (F.DEVICE_COMMIT_GEN, 0, 1), (F.CFG_CMD 0, 0, 2)]
     mayWrite .mgmt 0 0 s ∧ s.fld F.DEVICE_COMMIT_CTL_STATE 0 ≠ 1 ∧ s.pwrState = 0 ∧ s.pick.num + 2 ≤ s.fld (F.CFG_CMD 0) 0 ∧
      s.commitFault ⟨1, 2, s.stagedPages 1⟩ false 2 0 = none ∧ ({} : State).fld (F.CFG_CMD 0) 0 < ({} : State).pick.num + 2) ∧
    (∀ n ∈ [(1, Stage.open), (2, .beatUp), (0, .open), (1, .beatUp)],
      let s : State := { armed := some ⟨1, 2, []⟩, pick := { num := n.1, stage := n.2 } }
      mayWrite .mgmt 0 0 s) := by
  unfold mayWrite; decide +kernel

theorem witness_BlockSoftReset : mayWrite .pf 15 0 {} ∧ mayWrite .pf 7 8 {} ∧ typeCode .power = 15 ∧ typeCode .coll = 7 := by
  unfold mayWrite; decide +kernel

theorem witness_CounterClears :
    ∀ p ∈ [(1, 511), (5, 15), (2, 15), (4, 15), (3, 7), (6, 7), (8, 35), (7, 8), (11, 1), (9, 0), (11, 0), (10, 0), (13, 0), (14, 0), (15, 0), (16, 0),
      (17, 0)], mayWrite .pf p.1 p.2 {} := by
  unfold mayWrite; decide +kernel

theorem witness_PickInstants :
    (({} : State).pick.stage = .open ∧ ({ pick := { tasks := [{ desc := {}, st := .running }] } } : State).pick.stage = .open) ∧
    (∀ st ∈ [Stage.beatUp, .voted, .confirmed], ({ pick := { stage := st } } : State).pick.stage = st) := by
  decide +kernel

/-- A decided pick, LATE or committed, of a device that runs. -/
def decided (late halt : Bool) (run : Nat := 0) (pick : PickState := {}) : State :=
  withFlds [(F.PICK_SCHED_STAT_STATE, 0, 1), (F.PICK_SCHED_STAT_RECOV_RUN, 0, run), (F.PICK_SCHED_CTL_RECOVERY_LIMIT, 0, 3)]
    { pick := { pick with stage := .decided, outcome := some late, noTask := false, entry := { flags := if halt then 2 else 0, next := 7 }
                          nextEntry := some { idx := 7 } } }

theorem witness_PickEdgeOutcome :
    (let s := decided true false 2
     s.pick.stage = .decided ∧ s.armed = none ∧ s.pick.pickSet = none ∧ s.pick.adopt = none ∧ s.pick.fenced = false ∧ s.pick.noTask = false ∧
      s.fld F.PICK_SCHED_STAT_STATE 0 = 1 ∧ s.pick.outcome = some true ∧
      s.fld F.PICK_SCHED_STAT_RECOV_RUN 0 < s.fld F.PICK_SCHED_CTL_RECOVERY_LIMIT 0) ∧
    (let s := decided true false 3
     s.fld F.PICK_SCHED_CTL_RECOVERY_LIMIT 0 ≤ s.fld F.PICK_SCHED_STAT_RECOV_RUN 0) ∧
    (∀ halt ∈ [true, false], let s := decided false halt
     ¬s.pick.outcome = some true ∧ s.diverged = false ∧ s.pick.entry.halt = halt ∧ (s.pick.nextEntry.map (·.idx)) = some s.pick.entry.next) ∧
    (decided false false 0 { pickSet := some 9 }).pick.pickSet = some 9 := by
  decide +kernel

/-- A CORE task that may start, and one that runs. -/
def oneTask (st : TaskSt) : State :=
  withFlds [(F.PICK_SCHED_STAT_STATE, 0, 1)]
    { pick := { noTask := false, tasks := [{ desc := { unitType := 1 }, st := st }] }, mgmt := { bootAccepted := true },
      cores := [(0, { task := some 0 })] }

theorem witness_ScheduleRunsTasks :
    (let s := withFlds [(F.PICK_SCHED_STAT_STATE, 0, 1), (F.PICK_SCHED_CTL_RUN, 0, 1)] { pick := { noTask := false } }
     s.pick.stage = .open ∧ s.nextIndex = some 0 ∧ (∀ r ∈ s.nextReads, s.accWaits false r.1 r.2 = false) ∧
      (s.loadEntry s.nextConfig 0).isSome = true) ∧
    (let s : State := (withFlds [(F.PICK_SCHED_STAT_STATE, 0, 1), (F.PICK_SCHED_CTL_RUN, 0, 1)] { pick := { noTask := false }, mem := [(0, 0xFF), (8, 1)] })
     s.nextIndex = some 0 ∧ (∀ r ∈ s.nextReads, s.accWaits false r.1 r.2 = false) ∧ s.loadEntry s.nextConfig 0 = none) ∧
    ((oneTask .waiting).pick.tasks[0]?.isSome = true ∧ (oneTask .waiting).canStart 0 { desc := { unitType := 1 }, st := .waiting } 0 = true ∧
      (∀ r ∈ (oneTask .waiting).taskReads { unitType := 1 }, (oneTask .waiting).accWaits false r.1 r.2 = false) ∧
      (oneTask .running).canStart 0 { desc := { unitType := 1 }, st := .running } 0 = false) ∧
    (oneTask .running).unitDone 0 { unitType := 1 } = true := by
  decide +kernel

theorem witness_PickSourcesAndAlign :
    (∀ v ∈ [1, 4, 2], (withFlds [(F.PICK_PICK_SRC_SOURCE, 0, v)]).fld F.PICK_PICK_SRC_SOURCE 0 = v) ∧
    (let s := withFlds [(F.PICK_PICK_SRC_SOURCE, 0, 4)] { pick := { lastPickInNs := some 5 } }
     s.flag F.PICK_SRC_STAT_HOLDOVER 0 = false ∧ s.flag F.PICK_PICK_SRC_ALT_EN 0 = false ∧ s.pick.lastPickInNs = some 5 ∧
      5 + s.periodNs ≤ (s.periodNs + 1005) + 1000 ∧ s.periodNs + 1005 ≤ 5 + s.periodNs + 1000 ∧ 5 + s.periodNs + 1000 < s.periodNs + 1006 ∧
      mayWrite .mgmt 12 0 s ∧ s.fld F.PICK_SCHED_STAT_STATE 0 = 0 ∧ s.fld (F.ERR_CNT 12) 0 = 0) ∧
    (withFlds [(F.PICK_SRC_STAT_HOLDOVER, 0, 1)]).flag F.PICK_SRC_STAT_HOLDOVER 0 = true ∧
    ({ power := { pickOut := true } } : State).power.pickOut = true ∧
    (({} : State).linkState 35 ≠ 4 ∧ (let s := withFlds [(F.LINK_LINK_STAT_STATE, 35, 4)]
      s.linkState 35 = 4 ∧ s.linkLive 35 = true ∧ s.pick.fenced = false ∧ s.pick.stage = .open ∧ (0 : Nat) ≤ s.fld F.PICK_PHASE_TOL 0)) := by
  unfold mayWrite; decide +kernel

/-! ### Witnesses: solver engines and the memory system -/

/-- Engine 0 with one descriptor to run, at address 0: kind `kind`, FP32, 1 by `m`, one iteration at most, DELTA and EPS 1.0, the work area
at the start of core 0's spool, the record at 64; `wait`: WAIT_ADDR 0x80 and WAIT_VAL 1. -/
def solveState (kind m iter : Nat) (wait : Byte := 0) : State :=
  { solvers := [(0, { task := some 0, last := 1 })]
    mem := ([(0, BitVec.ofNat 8 kind), (1, 0x44), (2, 1), (4, BitVec.ofNat 8 m), (8, BitVec.ofNat 8 iter), (18, 0x80), (19, 0x3F), (22, 0x80), (23, 0x3F), (85, 0x10), (96, 0x40),
      (104, wait), (112, if wait = 0 then 0 else 1)] : List (Nat × Byte)).filter fun e => e.2 != 0 }

/-- Engine 0 with a descriptor of zeros. -/
def solveZero : State := { solvers := [(0, { task := some 0, last := 1 })] }

/-- Engine 0's next descriptor may be read and is of kind `k` without poison, its deadline later; `u`, `v`: once it, and the word that it
waits on, have been read. -/
def solveOk (k : Nat) (s : State) : Bool :=
  let b := s.nextDesc 0
  let d := solveDescOf b
  let u := s.solvCount 0 (s.solvPart 0) (s.nextAt 0) 256 false
  s.solvBusy 0 && !s.accWaits false (s.nextAt 0) 256 && d.kind == k && !s.nextPoison 0 && decide (0 ≤ u.deadlineNs d) &&
    d.early.all fun r => !u.accWaits false r.1 r.2

def solveSeen (s : State) : State :=
  let d := solveDescOf (s.nextDesc 0)
  let u := s.solvCount 0 (s.solvPart 0) (s.nextAt 0) 256 false
  u.solvCount 0 (u.solvPart 0) d.wait (if d.wait = 0 then 0 else 8) false

/-- That descriptor is no bad one, and no poison comes with the word that it waits on. -/
def solveBegins (s : State) : Bool :=
  let b := s.nextDesc 0
  !(s.solvCount 0 (s.solvPart 0) (s.nextAt 0) 256 false).descBad 0 b && !(solveSeen s).solvWaitPoison 0 (solveDescOf b)

theorem witness_SolverDescriptorsEnd :
    ({} : State).solvBusy 0 = false ∧
    (∀ k ∈ [(0, 0, 1), (1, 0, 1), (2, 0, 0), (3, 1, 0), (4, 1, 0)],
      (let s := solveState k.1 k.2.1 k.2.2
       let v := solveSeen s
       let d := solveDescOf (s.nextDesc 0)
       solveOk k.1 s = true ∧ solveBegins s = true ∧ v.solvWaitMet 0 d = true ∧ v.pathFree 0 d = true ∧
        (∀ r ∈ v.solvInputs d (workBytes d (liveRows (v.solvRows (v.solvPart 0) d))), v.accWaits false r.1 r.2 = false)) ∧
      (let s := solveState k.1 k.2.1 k.2.2 0x80
       solveOk k.1 s = true ∧ solveBegins s = true ∧ (solveSeen s).solvWaitMet 0 (solveDescOf (s.nextDesc 0)) = false) ∧
      (let s := { solveState k.1 k.2.1 k.2.2 with cores := [(0, { mvp := some {} })] }
       solveOk k.1 s = true ∧ solveBegins s = true ∧ (solveSeen s).solvWaitMet 0 (solveDescOf (s.nextDesc 0)) = true ∧
        (solveSeen s).pathFree 0 (solveDescOf (s.nextDesc 0)) = false) ∧
      (let s := { solveState k.1 k.2.1 k.2.2 with poison := [0] }
       s.solvBusy 0 = true ∧ (solveDescOf (s.nextDesc 0)).kind = k.1 ∧ s.nextPoison 0 = true)) ∧
    (solveOk 0 solveZero = true ∧ solveZero.descBad 0 (solveZero.nextDesc 0) = true ∧ (solveDescOf (solveZero.nextDesc 0)).record = 0 ∧
      (solveDescOf (solveZero.nextDesc 0)).done = 0 ∧ solveZero.fld (F.ERR_CNT 5) 0 = 0) ∧
    solveZero.deadlineNs (solveDescOf (solveZero.nextDesc 0)) < 10 ^ 9 ∧
    (let s := (solveState 0 0 1).setSolver 0 { task := some 0, last := 1, waiting := true }
     s.solvBusy 0 = true ∧ (s.solver 0).waiting = true ∧ s.solvWaitMet 0 (solveDescOf (s.nextDesc 0)) = true ∧
      s.pathFree 0 (solveDescOf (s.nextDesc 0)) = true) ∧ ((solveState 0 0 1).solver 0).waiting = false := by
  decide +kernel

theorem witness_DramRequestsAndScrub :
    ({} : State).fld (F.STACK_REG_RATE.nth 0) 0 = 1024 ∧ 0 < ((({} : State).refill 0 0).stack 0).priv ∧
    (let s := withFlds [(F.STACK_REG_RATE.nth 7, 15, 1), (F.STACK_STK_CTL_WORK_CONSERVE, 15, 0)] { stackCtls := [(15, { tokens := [(7, 0)] })] }
     s.fld (F.STACK_REG_RATE.nth 7) 15 ≠ 1024 ∧ (s.refill 15 0).tokens 15 7 ≤ 0 ∧ s.flag F.STACK_STK_CTL_WORK_CONSERVE 15 = false ∧
      7 ∉ ((s.refill 15 0).stack 15).waited) ∧
    (withFlds [(F.STACK_STK_CTL_SCRUB_EN, 3, 0)]).flag F.STACK_STK_CTL_SCRUB_EN 3 = false ∧
    (withFlds [(F.STACK_STK_CTL_SCRUB_EN, 3, 1)]).flag F.STACK_STK_CTL_SCRUB_EN 3 = true ∧ regionOf (3 * stackBytes) = .dram 3 := by
  decide +kernel

/-- The half-line at the start of the host's address space, and its line in the cache with that half modified. -/
def firstHalf : Nat := hostBase / 64
def hostModified (evict : List EvictEntry) : State :=
  { cellar := { lines := [(8 * (hostBase / 128), { dirty := true, lo := .m })], evict := [(0, evict)] } }

theorem witness_HostCoherence :
    (let s := hostModified []
     let e : Nat × CacheLine := (8 * (hostBase / 128), { dirty := true, lo := .m })
     halfOf 0 hostBase = some firstHalf ∧ s.hostLines firstHalf = [e] ∧ (s.hostLines firstHalf).find? (fun e => e.2.half firstHalf == .m) = some e ∧
      (s.hostLines firstHalf).any (fun e => e.2.half firstHalf == .m) = true ∧ (s.evictBuf 0).length < 64 ∧
      (s.evictBuf 0).find? (fun x => x.half == firstHalf) = none) ∧
    (({} : State).hostLines firstHalf = [] ∧
      ({ cellar := { lines := [(8 * (hostBase / 128), { lo := .s })] } } : State).hostLines firstHalf = [(8 * (hostBase / 128), { lo := .s })]) ∧
    (regionOf 0 ≠ .host ∧ homeDie 0 = 0 ∧ halfOf 0 0 = none) ∧
    ((hostModified [{ half := firstHalf, data := [] }]).evictBuf 0).find? (fun x => x.half == hostBase / 64) =
      some { half := firstHalf, data := [] } ∧
    homeDie 0 = 0 ∧
    (∀ f ∈ [[(0, true)], [(0, false)]], let s : State := { cellar := { asked := [(0, true)], filter := [(0, f)] } }
      s.cellar.asked.contains (0, true) = true ∧ (s.filterOf 0).any (fun e => e.1 == 0 && e.2) = f.any (·.2)) := by
  decide +kernel

theorem witness_CellarFlushes :
    mayWrite .mgmt 3 7 {} ∧ (7 : Nat) ∈ ({ cellar := { flushAll := [7] } } : State).cellar.flushAll ∧
    (7 : Nat) ∉ ({} : State).cellar.flushAll ∧
    (let s : State := { cellar := { granules := [(47, { flushing := true })] } }
     (s.granule 47).flushing = true ∧ (s.granule 47).flushed = false ∧ (s.granule 0).flushing = false) := by
  unfold mayWrite; decide +kernel

/-! ### Witnesses: the update unit -/

/-- Slice 0 with block 0: one element of a row of 1, FP8, replicas 7 and `rep`; its ledger entry at 0x1000, step descriptors at 0x2000,
programs at 0x3000; `step`, `st`: what the ledger holds; `ro`: VALID and SHARED_RO; `slice`: the slice. -/
def updState (step st : Byte) (slice : SliceState := {}) (ro : Byte := 1) (rep : Byte := 8) (blocks : Nat := 1) : State :=
  withFlds [(F.UPDATE_UPD_CTL_ENABLE, 0, 1), (F.UPDATE_BLOCKS, 0, blocks), (F.UPDATE_LEDGER_BASE_LO, 0, 0x100), (F.UPDATE_STEP_BASE_LO, 0, 0x80),
      (F.UPDATE_PROG_BASE_LO, 0, 0x30)]
    { upd := { slices := [(0, slice)] }
      mem := ([(2, 1), (10, 2), (18, 3), (26, 4), (34, 5), (40, 1), (44, 1), (48, 7), (50, rep), (52, 0xFF), (53, 0xFF), (54, ro),
        (0x1000, step), (0x1004, st), (0x2000 + 64 + 52, 1), (0x2000 + 128 + 52, 2)] : List (Nat × Byte)).filter fun e => e.2 != 0 }

/-- A chunk of block 0 for a step. -/
def chunkOf (step : Word) : Chunk := { block := 0, step := step, origin := 0, fmt := 4, data := [0, 0, 0x80, 0x3F] }

/-- The state once the tables that a chunk of block 0 reads have been read. -/
def tablesRead (step : Word) (s : State) : State := s.unitCount 0 false (s.tableReads 0 0 step.toNat)

theorem witness_ChunkJudgement :
    chunkFmtOk 15 = false ∧ chunkFmtOk (chunkOf 1).fmt.toNat = true ∧ (chunkOf 1).poison = false ∧
    (let s : State := { updState 0 1 with upd := { slices := [], fences := [(8, false, [(0, 64)])] } }
     ¬judgesNow 0 (chunkOf 1) s) ∧
    (let u := tablesRead 1 {}
     judgesNow 0 (chunkOf 1) {} ∧ u.flag F.UPDATE_UPD_CTL_ENABLE 0 = false ∧ u.blockDesc 0 0 = none ∧ u.fld (F.ERR_CNT 6) 0 = 0) ∧
    (let s := updState 0 1 {} 3
     let u := tablesRead 1 s
     judgesNow 0 (chunkOf 1) s ∧ u.flag F.UPDATE_UPD_CTL_ENABLE 0 = true ∧ (u.blockDesc 0 0).map u.blockRo = some true ∧ u.fld (F.ERR_CNT 6) 0 = 0) ∧
    (judgesNow 0 (chunkOf 2) (updState 0 3) ∧ (tablesRead 2 (updState 0 3)).ledger 0 0 = { state := 3 }) ∧
    (judgesNow 0 (chunkOf 2) (updState 1 2) ∧ (tablesRead 2 (updState 1 2)).ledger 0 0 = { state := 2, step := 1 } ∧ precedes32 2 1 = false) ∧
    (({} : State).slice 0).held = [] ∧
    (let s := updState 0 1 { held := [{ chunk := chunkOf 1 }] }
     (s.slice 0).held = [{ chunk := chunkOf 1 }] ∧ (s.judgeNow 0 { chunk := chunkOf 1 }).2 = false) := by
  unfold judgesNow; decide +kernel

/-- A chunk of block 0 for step `st` is judged by the block's own state: it follows the ledger's step, or does not. -/
def judgedAt (st : Word) (follows : Bool) : Prop :=
  let s := updState 0 1
  let u := tablesRead st s
  judgesNow 0 (chunkOf st) s ∧ u.flag F.UPDATE_UPD_CTL_ENABLE 0 = true ∧ u.blockDesc 0 0 = some (blockDescOf (memRead s.mem 0 64)) ∧
    u.blockRo (blockDescOf (memRead s.mem 0 64)) = false ∧ (u.program 0 (blockDescOf (memRead s.mem 0 64)).prog).isSome = true ∧
    (u.ledger 0 0).state = 1 ∧ follows32 st.toNat (u.ledger 0 0).step = follows ∧ (u.stepDesc 0 st.toNat).isSome = true ∧
    Tab.get? (s.slice 0).blocks 0 = none ∧ (s.slice 0).blocks.length < u.fld F.UPDATE_UPD_CTL_OPEN_MAX 0

theorem witness_ChunkJudgement_next : judgedAt 1 true := by
  have h : tablesRead 1 (updState 0 1) = updState 0 1 := by decide +kernel
  simp only [judgedAt, h]; unfold judgesNow; decide +kernel

theorem witness_ChunkJudgement_later : judgedAt 2 true := by
  have h : tablesRead 2 (updState 0 1) = updState 0 1 := by decide +kernel
  simp only [judgedAt, h]; unfold judgesNow; decide +kernel

theorem witness_ChunkJudgement_again : judgedAt 0 false := by
  have h : tablesRead 0 (updState 0 1) = updState 0 1 := by decide +kernel
  simp only [judgedAt, h]; unfold judgesNow; decide +kernel

/-- A held chunk of a block whose table a repair fences, and one that need not wait behind it. -/
def heldTwo : State :=
  let u := updState 0 1 { held := [{ chunk := { chunkOf 1 with block := 8 } }, { chunk := chunkOf 1 }] } 1 8 9
  { u with upd := { u.upd with fences := [(16, false, [(512, 64)])] } }

theorem witness_ChunkJudgement_held :
    (heldTwo.slice 0).held = [{ chunk := { chunkOf 1 with block := 8 } }, { chunk := chunkOf 1 }] ∧
    (heldTwo.judgeNow 0 { chunk := { chunkOf 1 with block := 8 } }).2 = true ∧
    ((heldTwo.judgeNow 0 { chunk := { chunkOf 1 with block := 8 } }).1.judgeNow 0 { chunk := chunkOf 1 }).2 = false := by
  have h : heldTwo.judgeNow 0 { chunk := { chunkOf 1 with block := 8 } } = (heldTwo, true) := by decide +kernel
  rw [h]
  decide +kernel

/-- Block 0 is open at step 1. -/
def openAt (done : List Nat := []) (runs : List GroupRun := []) : State :=
  updState 1 2 { blocks := [(0, { step := 1, origin := 0, chunk := chunkOf 1, done := done, runs := runs })] }

/-- Block 0's descriptor. -/
def descOf (s : State) : BlockDesc := blockDescOf (memRead s.mem 0 64)

theorem witness_UpdateGroups_apply :
    let s := openAt
    let d := descOf s
    let o : OpenBlock := { step := 1, origin := 0, chunk := chunkOf 1 }
    let m := min 256 d.elems
    let rs := s.groupReads 0 0 d o 0 m
    let u := s.unitCount 0 false rs
    Tab.get? (s.slice 0).blocks 0 = some o ∧ s.blockDesc 0 0 = some d ∧ 0 < d.groups ∧ s.repairing 0 0 = false ∧ (s.ledger 0 0).state = 2 ∧
      (∀ r ∈ rs, s.accWaits false r.1 r.2 = false) ∧ u.groupPoison d 0 m = false ∧ (u.groupRun 0 d o 0 0).isSome = true := by
  decide +kernel

theorem witness_UpdateGroups_commit :
    ((openAt [0]).blockDesc 0 0).isSome = true ∧
    (let r : GroupRun := { group := 0, writes := [(0x20000, [1, 2, 3, 4])] }
     let s := openAt [] [r]
     (s.blockDesc 0 0).isSome = true ∧ (s.slice 0).redoUsed < 512 ∧ s.rangesShared r.ranges = false ∧
      ∀ w ∈ r.ranges, s.accWaits true w.1 w.2 = false) := by
  decide +kernel

/-- The last group of block 0 is committed; a repair of another block fences `f` or nothing. -/
def lastGroup (f : List (Nat × Nat)) : State :=
  let s := openAt [] [{ group := 0, committed := true }]
  { s with upd := { s.upd with fences := [(8, false, f)] } }

theorem witness_UpdateGroups_done :
    ∀ f ∈ [([] : List (Nat × Nat)), [(0x10000, 1)]],
      let r : GroupRun := { group := 0, committed := true }
      let o : OpenBlock := { step := 1, origin := 0, chunk := chunkOf 1, runs := [r] }
      let s := lastGroup f
      Tab.get? (s.slice 0).blocks 0 = some o ∧ s.blockDesc 0 0 = some (descOf s) ∧ o.runs.find? (fun q => q.group == 0 && q.committed) = some r ∧
        (descOf s).groups ≤ (o.finish r).done.length ∧
        (s.unitAsk (s.closeReads 0 (descOf s) (o.finish r)) (s.closeWrites 0 0 (descOf s))).2 = f.isEmpty := by
  decide +kernel

/-- Permanent heddle 1 is threaded to device `dev`. -/
def repairHeddle (dev : Nat) (s : State) : State := { s with fab := { heddles := [(1, { st := .threaded, peer := dev })] } }

theorem witness_RepairRequests_queued :
    mayWrite .mgmt 6 0 {} ∧ 9 % 8 ≠ 0 ∧ ({} : State).fld (F.ERR_CNT 6) 0 = 0 ∧
    (let s := updState 0 1 { repair := some { block := 8, target := 0 } }
     mayWrite .mgmt 6 0 s ∧ (s.blockDesc 0 0).isSome = true ∧ (s.slice 0).repair = some { block := 8, target := 0 } ∧
      (s.slice 0).queue.length < 16) ∧
    (let s := updState 0 1
     mayWrite .mgmt 6 0 s ∧ (s.blockDesc 0 0).map (·.replicaList) = some [(0, 7), (1, 8)] ∧ (s.slice 0).repair = none ∧
      (s.slice 0).queue = []) := by
  unfold mayWrite; decide +kernel

theorem witness_RepairRequests_asked :
    ∀ st ∈ [(1 : Byte), 3], let s := repairHeddle 7 (updState 0 st)
      nextMsg 7 1 0 (.request 0 0 1) s ∧ (s.blockDesc 0 0).isSome = true ∧ (s.ledger 0 0).noAnswer = decide (st = 3) := by
  unfold nextMsg; decide +kernel

theorem witness_RepairRequests_answered :
    ∀ st ∈ [(1 : Byte), 2, 3], let s := updState 1 st { answering := [(7, 0, 1, 1)] }
      (s.slice 0).answering.find? (fun y => y.1 == 7 && y.2.1 == 0) = some (7, 0, 1, 1) ∧ (s.blockDesc 0 0).isSome = true ∧
        (s.ledger 0 0).state = st.toNat ∧ precedes32 (s.ledger 0 0).step 1 = false ∧ (s.ledger 0 0).noAnswer = decide (st = 3) ∧
        ∀ r ∈ (s.btAddr 0 0, 64) :: (s.ledgerAddr 0 0, 16) :: (s.digAddr 0 0, 32) :: (descOf s).ranges, s.accWaits false r.1 r.2 = false := by
  decide +kernel

theorem witness_RepairCompletes :
    (let r : Repair := { block := 0, target := 1, sent := true }
     let s := repairHeddle 7 (updState 0 1 { repair := some r })
     let state : List Byte := List.replicate 13 0
     let m := RepairMsg.state 0 1 0 state (List.replicate 8 0) [] 5
     (s.slice 0).repair = some r ∧ precedes32 1 r.target = false ∧ nextMsg 7 1 0 m s ∧ nextMsg 7 1 0 (.refusal 0 5) s ∧ (descOf s).replicas.getD 0 0xFFFF = 7 ∧
      (s.blockDesc 0 0).map (fun d => (d.splitState state, d.rows, (d.stateDigest 0 1 [] []).length)) =
        some (some [[0], [0, 0, 0, 0], [0, 0, 0, 0], [0, 0, 0, 0]], 1, 32)) ∧
    (let r : Repair := { block := 0, target := 1, replica := 1, sent := true }
     let s := updState 0 1 { repair := some r }
     (s.slice 0).repair = some r ∧ (s.slice 0).queue = [] ∧
      (s.blockDesc 0 0).map (fun d => d.replicaList.filter (fun x => decide (r.replica < x.1))) = some []) ∧
    (let r : Repair := { block := 0, target := 1, verified := true }
     let s := updState 0 1 { repair := some r }
     (s.slice 0).repair = some r ∧ ∀ q ∈ [(s.digAddr 0 0, 32), (s.ledgerAddr 0 0, 16)], s.accWaits true q.1 q.2 = false) := by
  unfold nextMsg; decide +kernel

/-! ### Witnesses: the fabric -/

/-- An operation of this device at itself. -/
def ownIssued (d : OpDesc) (data : List Byte := []) : State :=
  { fab := { issued := [(5, { issuer := .strand 0 0, desc := d, dest := 0, data := data })] } }

/-- Its arrival. -/
def ownArrival : Arrival := { src := .own 5, addr := 0 }

theorem witness_OperationsAtMemory :
    (∀ op ∈ [0, 1, 2, 3, 4, 5, 6],
      let d : OpDesc := { op := op, destAddr := 0x38, length := 8, ccb := if op = 2 then 4 else 0 }
      let s := ownIssued d
      let o : IssuedOp := { issuer := .strand 0 0, desc := d, dest := 0 }
      let b := o.arrival 5 []
      let x := b.addr.toNat
      (ownArrival.src = .own 5 ∧ ownArrival.ecc = [] ∧ Tab.get? s.fab.issued 5 = some o ∧ o.desc.heddle = 0 ∧ o.desc.op = op ∧ o.answer = none ∧
        (∀ e ∈ s.fab.heldSigs, e.2.arrival.src ≠ .own 5) ∧ s.opWaits op (o.arrival 5 []) = false) ∧
      (regionOf x = .dram 0 ∧ 0 < b.len ∧ x % 64 + b.len ≤ 64 ∧ s.boundGran x = none ∧ s.boundGran (x + b.len - 1) = none ∧
        s.landCheck o.part b.coll true x = 0 ∧ s.check o.part false x = 0 ∧ x % 8 = 0 ∧ b.sigWait = false) ∧
      (op = 2 → x % max 1 (fmtBytes (ccbFmt b.ccb.toNat)) = 0 ∧ b.tag = none ∧ accFormOk b = true)) := by
  decide +kernel

theorem witness_OperationsAtMemory_wait :
    let d : OpDesc := { op := 3, length := 8, sigWait := true, op0 := 1, op1 := 2 }
    let o : IssuedOp := { issuer := .strand 0 0, desc := d, dest := 0 }
    let b := o.arrival 5 []
    b.sigWait = true ∧ b.addr.toNat = 0 ∧ (leNat ((ownIssued d).blockBytes 0 8) + b.op0.toNat) % 2 ^ 64 < b.op1.toNat := by
  decide +kernel

/-- A SIG at address 0 that waits for `n`. -/
def heldFor (n : Dword) : State :=
  { fab := { heldSigs := [(3, { arrival := { src := .own 5, addr := 0, op1 := n }, part := none, tagged := false })]
             issued := [(5, { issuer := .strand 0 0, desc := { op := 3 }, dest := 0 })] } }

theorem witness_SignalWaits :
    Tab.get? ({} : State).fab.heldSigs 3 = none ∧
    (heldFor 1).wordAt 0 < (1 : Dword).toNat ∧ (Tab.get? (heldFor 1).fab.heldSigs 3).isSome = true ∧
    ((heldFor 0).wordAt 0 = (0 : Dword).toNat ∧ (Tab.get? (heldFor 0).fab.issued 5).isSome = true) := by
  decide +kernel

/-- Shared heddle 23 is threaded to device 7. -/
def threaded23 (next : Nat := 5) : State :=
  { fab := { heddles := [(23, { st := .threaded, peer := 7, ctx := { recvNext := next } })] } }

theorem witness_PeerOperationsInOrder :
    ({ pick := { fenced := true } } : State).pick.fenced = true ∧ (({} : State).heddle 23).st ≠ .threaded ∧
    (let h := threaded23.heddle 23
     (h.st = .threaded ∧ h.session = false ∧ h.peer = (7 : BitVec 16).toNat ∧ h.repairUse = false) ∧ threaded23.pick.fenced = false ∧
      (1 : BitVec 8).toNat ≠ threaded23.pick.num % 256 ∧ (0 : BitVec 8).toNat = threaded23.pick.num % 256 ∧
      (∀ p ∈ [((4 : Word), (-1 : Int)), (6, 1), (1028, 1023), (1029, 1024)],
        signedOf 32 (wrapInt 32 ((p.1.toNat : Int) - h.ctx.recvNext)) = p.2) ∧ h.ctx.ahead = [] ∧ h.ctx.recvNext = 5) ∧
    (∀ op ∈ List.range 7, ∀ r ∈ [([] : List (Fin 16)), [0]],
      let a : Arrival := { src := .fabric 7 23 5 0, addr := 0, retries := r }
      a.repairMsg = none ∧ (threaded23.nocRetry a.retries).opWaits op a = false) := by
  decide +kernel

theorem witness_IssuerAccounting :
    Tab.get? ({} : State).fab.issued 5 = none ∧
    (∀ op ∈ [0, 1], ∀ sent ∈ [true, false],
      let s : State := { fab := { issued := [(5, { issuer := .strand 0 0, desc := { op := op, heddle := 23 }, dest := 7, sent := sent })] } }
      (Tab.get? s.fab.issued 5).map (fun o => (o.desc.op, decide (o.desc.heddle ≠ 0), o.sent, o.issuer)) =
        some (op, true, sent, .strand 0 0)) ∧
    (({} : State).heddle 23).st ≠ .threaded ∧ (threaded23.heddle 23).st = .threaded := by
  decide +kernel

/-- Device 0 of three on axis S, whose links 0 and 2 lead to devices 1 and 2; both are in a state `st`. -/
def threeDevices (st : Nat) (link : LinkState := {}) : State :=
  withFlds [(F.HEDDLE_AXIS_CFG_N_S, 0, 3), (F.LINK_ROLE_OFFSET, 0, 1), (F.LINK_ROLE_OFFSET, 2, 2), (F.LINK_ROLE_VALID, 0, 1),
      (F.LINK_ROLE_VALID, 2, 1), (F.LINK_LINK_STAT_STATE, 0, st), (F.LINK_LINK_STAT_STATE, 2, st)] { links := [(0, link)] }

theorem foldl_lt {α : Type} {b : Nat} (f : Nat → α → Nat) (hf : ∀ c a, c < b → f c a < b) : ∀ (l : List α) (c : Nat), c < b → l.foldl f c < b
  | [], _, h => h
  | a :: l, c, h => foldl_lt f hf l (f c a) (hf c a h)

theorem crcStep_lt (c : Nat) (h : c < 2 ^ 32) : crcStep 0x82F63B78 c < 2 ^ 32 := by
  unfold crcStep
  split
  · exact Nat.xor_lt_two_pow (by omega) (by decide)
  · omega

theorem flitCrc_lt (f : Flit) : flitCrc f < 2 ^ 32 := by
  unfold flitCrc
  refine Nat.xor_lt_two_pow ?_ (by decide)
  refine foldl_lt _ (fun c b h => ?_) _ _ (foldl_lt _ (fun c k h => ?_) _ _ (by decide))
  · exact foldl_lt _ (fun x _ hx => crcStep_lt x hx) _ _ (Nat.xor_lt_two_pow h (by have := b.isLt; omega))
  · exact crcStep_lt _ (Nat.xor_lt_two_pow h (by cases (flitHeader f).testBit k <;> decide))

/-- A flit with the CRC of what it carries. -/
def withCrc (f : Flit) : Flit := { f with crc := BitVec.ofNat 32 (flitCrc f) }

theorem flitOk_withCrc (f : Flit) : flitOk (withCrc f) = true := by
  simp only [flitOk, withCrc, BitVec.toNat_ofNat, Nat.mod_eq_of_lt (flitCrc_lt f), beq_iff_eq]
  rfl

theorem not_flitOk_withCrc (f : Flit) : flitOk { withCrc f with crc := (withCrc f).crc + 1 } = false := by
  have h : (withCrc f).crc + 1 ≠ (withCrc f).crc := by
    intro h
    have := congrArg BitVec.toNat h
    simp only [BitVec.toNat_add] at this
    have hl := (withCrc f).crc.isLt
    simp at this
    omega
  have he : (withCrc f).crc.toNat = flitCrc { withCrc f with crc := (withCrc f).crc + 1 } := by
    simp only [withCrc, BitVec.toNat_ofNat, Nat.mod_eq_of_lt (flitCrc_lt f)]; rfl
  simp only [flitOk, ← he, beq_eq_false_iff_ne, ne_eq]
  exact fun h' => h (BitVec.eq_of_toNat_eq h')

theorem threeDevices_exp1 : (1 : BitVec 12).toNat = ((threeDevices 4).link 0).expSeq ↔ (1 : BitVec 12) = 0 := by decide +kernel
theorem threeDevices_exp0 : (0 : BitVec 12).toNat = ((threeDevices 4).link 0).expSeq ↔ (0 : BitVec 12) = 0 := by decide +kernel
theorem threeDevices_hop2 : ((threeDevices 4).nextHop (2 : BitVec 16).toNat).isNone = true ↔ (2 : BitVec 16) = 0 := by decide +kernel
theorem threeDevices_hop0 : ((threeDevices 4).nextHop (0 : BitVec 16).toNat).isNone = true ↔ (0 : BitVec 16) = 0 := by decide +kernel

theorem witness_FlitsAndRetries :
    ({} : State).linkState 0 < 2 ∧
    (let s := threeDevices 4
     s.linkState 0 = 4 ∧ (s.link 0).retries + 1 < s.fld F.LINK_LINK_CTL_RETRY_LIMIT 0 ∧
      flitOk (withCrc { dest := 2, kind := 0 }) = true ∧
      (∀ p ∈ [((1 : BitVec 12), (2 : BitVec 16)), (0, 0), (0, 2)],
        let f := withCrc { dest := p.2, lseq := p.1 }
        flitOk f = true ∧ f.kind ≠ 0 ∧ flitOk { f with crc := f.crc + 1 } = false ∧
          (f.lseq.toNat = (s.link 0).expSeq ↔ p.1 = 0) ∧ ((s.nextHop f.dest.toNat).isNone = true ↔ p.2 = 0)) ∧
      (s.nextHop (2 : BitVec 16).toNat).map (fun h => (h.links, s.chooseLink h.links 0)) =
        some ([some 2, some 3], some 2) ∧ (2 : Nat) ≠ 0 ∧
      (s.link 0).lastProgress ≠ (1 : BitVec 12).toNat ∧ 1 < s.fld F.LINK_LINK_CTL_RETRY_LIMIT 0) ∧
    (let s := threeDevices 4 { retries := 15 }
     s.linkState 0 = 4 ∧ s.fld F.LINK_LINK_CTL_RETRY_LIMIT 0 ≤ (s.link 0).retries + 1 ∧ (s.link 0).lastProgress = (s.link 0).lastProgress ∧
      (s.link 0).retries ≠ 0) := by
  refine ⟨by decide +kernel, ⟨by decide +kernel, by decide +kernel, flitOk_withCrc _,
    fun p hp => ⟨flitOk_withCrc _, (by decide : (1 : Fin 16) ≠ 0), not_flitOk_withCrc _,
      (List.forall_mem_cons.2 ⟨threeDevices_exp1, List.forall_mem_cons.2 ⟨threeDevices_exp0,
        List.forall_mem_cons.2 ⟨threeDevices_exp0, fun _ h => nomatch h⟩⟩⟩ :
        ∀ p ∈ [((1 : BitVec 12), (2 : BitVec 16)), (0, 0), (0, 2)], (p.1.toNat = ((threeDevices 4).link 0).expSeq ↔ p.1 = 0)) p hp,
      (List.forall_mem_cons.2 ⟨threeDevices_hop2, List.forall_mem_cons.2 ⟨threeDevices_hop0,
        List.forall_mem_cons.2 ⟨threeDevices_hop2, fun _ h => nomatch h⟩⟩⟩ :
        ∀ p ∈ [((1 : BitVec 12), (2 : BitVec 16)), (0, 0), (0, 2)], (((threeDevices 4).nextHop p.2.toNat).isNone = true ↔ p.2 = 0)) p hp⟩,
    by decide +kernel, by decide +kernel, by decide +kernel, by decide +kernel⟩, by decide +kernel⟩

theorem witness_LinkStates :
    ((threeDevices 1).training 0 = true ∧ (threeDevices 4).training 0 = false ∧ (threeDevices 1).linkState 0 < 2) ∧
    (∀ st ∈ [2, 4], 2 ≤ (threeDevices st).linkState 0 ∧ (threeDevices st).linkState 0 ≤ 4) ∧
    (let s := threeDevices 2
     s.linkState 0 = 2 ∧ (0 : Word).toNat = s.fld (F.CFG_GEN 0) 0 ∧ (0 : Digest).toNat = s.cfgPrint ∧ (1 : BitVec 16).toNat = s.linkPeer 0 ∧
      (1 : Word).toNat ≠ s.fld (F.CFG_GEN 0) 0 ∧ (1 : Digest).toNat ≠ s.cfgPrint ∧ (2 : BitVec 16).toNat ≠ s.linkPeer 0) := by
  decide +kernel

/-- An entry that asks for shared heddle 23 to device 7, which is in a state. -/
def asks23 (st : HedSt) : State :=
  withFlds [(F.PART_HEDDLE_QUOTA_QUOTA, 0, 1)]
    { pick := { noTask := false, entry := { heds := [{ peer := 7, part := 0, hid := 23 }] } }
      fab := { heddles := if st = .free then [] else [(23, { st := st, peer := 7 })] } }

theorem witness_HeddleThreading :
    (({} : State).pick.entry.heds.find? (fun r => r.peer == 7) = none) ∧
    (let s := asks23 .free
     (s.pick.entry.heds.find? fun r => r.peer == 7 && r.part == 0 && !s.recThreaded r && ((s.heddle r.hid).st == .free || s.recHeld r)) =
        some { peer := 7, part := 0, hid := 23 } ∧ s.audit.comparing = false ∧ s.repairHeddle = some 512 ∧
      State.heddleFree { s with fab := { s.fab with heddles := Tab.del s.fab.heddles 512 } } 0 = true ∧
      State.heddleFree { s with fab := { s.fab with heddles := Tab.del s.fab.heddles 23 } } 0 = true) ∧
    (let s := asks23 .threading
     (s.heddle 23).st = .threading ∧ (s.heddle 23).repairUse = false ∧ s.audit.comparing = false ∧ s.recHeld { peer := 7, part := 0, hid := 23 } = true) ∧
    ((({} : State).heddle 23).st ≠ .threading ∧ (({} : State).heddle 23).st ≠ .releasing) ∧
    (sharedId 23 = true ∧ (threaded23.heddle 23).session = false ∧ (threaded23.heddle 23).st = .threaded) ∧
    (let s : State := { fab := { heddles := [(23, { st := .releasing })] }, pick := { stage := .beatUp } }
     (s.heddle 23).st = .releasing ∧ s.pick.stage ≠ .open) ∧
    (let s := asks23 .free
     s.pick.entry.heds = [{ peer := 7, part := 0, hid := 23 }] ∧ s.pick.stage = .open ∧ s.pick.noTask = false ∧ 0 < s.beatUpNs ∧
      s.recHeld { peer := 7, part := 0, hid := 23 } = false ∧ (s.heddle 23).st = .free ∧ s.heddleFree 0 = true) := by
  decide +kernel

/-! ### Witnesses: collectives, the audit unit, the field service -/

/-- Slice `c` with a task and a script. -/
def scripted (c : Nat) (x : Script) (begun : Bool) (m : CollState := {}) : State :=
  withFlds [(F.COLL_COLL_CTL_ENABLE, c, 1)] { colls := [(c, { m with task := some 0, script := some x, begun := begun })] }

theorem witness_CollectiveScriptsBegin :
    (∀ k ∈ [0, 1, 2, 3, 4, 5, 6, 7], let s := scripted 3 { kind := k, slice := 3, elems := 4097 } false
      (s.coll 3).script = some { kind := k, slice := 3, elems := 4097 } ∧ (s.coll 3).task.isSome = true ∧ (s.coll 3).begun = false) ∧
    (let x : Script := { kind := 6, slice := 8 }
     let s := scripted 8 x false
     (s.coll 8).script = some x ∧ (s.coll 8).begun = false ∧ (s.rackPlan x (s.coll 8).rackStep).moves = 0 ∧
      (s.rackPlan x (s.coll 8).rackStep).expect = 0 ∧ (s.coll 8).rackCounts = [] ∧ (s.coll 8).rackDone = false ∧ s.fab.issued = [] ∧
      (let p := s.rackPlan x (s.coll 8).rackStep
       (∀ r ∈ s.rackReads x ++ [(p.map + 16 * p.shards * ((s.pick.work + 1) % 2), 16 * p.shards), (p.updPtr, 16 * p.upds)],
         s.accWaits false r.1 r.2 = false) ∧ s.accWaits true (p.map + 16 * p.shards * (s.pick.work % 2)) (16 * p.shards) = false)) ∧
    ((scripted 3 {} false).coll 3).script = some {} ∧ (3 : Fin 9).val ≠ 8 := by
  decide +kernel

/-- Two receptions with a reduction. -/
def receiving : CChunk := { data := [1], xfers := [{ q := 0, reduce := true }, { q := 1, reduce := true }] }

theorem witness_CollectiveChunks :
    (let x : Script := { kind := 0, source := 2, slice := 3, elems := 4097 }
     let s := scripted 3 x true
     (s.coll 3).script = some x ∧ (scripted 3 x false).coll 3 = { s.coll 3 with begun := false } ∧ (s.coll 3).begun = true ∧
      (s.coll 3).compare = false ∧ 1 < x.chunkCount ∧ x.sliceOf 1 = 3 ∧ Tab.get? (s.coll 3).chunks 1 = none ∧ (s.coll 3).mustWait x 3 1 = false ∧
      s.chunkXfers x 1 = [] ∧ x.kind ≤ 4 ∧ x.source = 2 ∧ x.deliver = 0 ∧ (∀ r ∈ s.deliverTo x 1, s.accWaits true r.1 r.2 = false)) ∧
    (let s := scripted 3 { slice := 3, elems := 1 } true { chunks := [(0, { complete := true })] }
     (s.coll 3).script = some { slice := 3, elems := 1 } ∧ Tab.get? (s.coll 3).chunks 0 = some { complete := true }) ∧
    (let x : Script := { kind := 0, slice := 3, elems := 1 }
     let s := scripted 3 x true { chunks := [(0, receiving)] }
     s.flag F.COLL_COLL_CTL_ENABLE 3 = true ∧ (s.coll 3).compare = false ∧ (s.coll 3).script = some x ∧ (s.coll 3).landed = [] ∧
      Tab.get? (s.coll 3).chunks 0 = some receiving ∧ receiving.complete = false ∧ receiving.dead = false ∧ receiving.accum = false ∧
      (∀ n ∈ [0], n ≤ s.fld F.COLL_COLL_CTL_RES_RETRY 3) ∧ ∃ n ∈ [100], s.fld F.COLL_COLL_CTL_RES_RETRY 3 < n) ∧
    (withFlds [(F.COLL_COLL_CTL_ENABLE, 3, 0)]).flag F.COLL_COLL_CTL_ENABLE 3 = false := by
  decide +kernel

/-- None of the ranges waits. -/
def freeAt (s : State) (rs ws : List (Nat × Nat)) : Bool := (rs.all fun r => !s.accWaits false r.1 r.2) && ws.all fun w => !s.accWaits true w.1 w.2

/-- VERIFY runs; the reference is the root or not. -/
def verifying (match_ : Bool) : State :=
  let s : State := { audit := { verify := true } }
  if match_ then s.setDigestReg F.AUDIT_VERIFY_REF s.weightsDigest else s

theorem witness_AuditUnit :
    ({} : State).audit.dirty = [] ∧
    (let s : State := { audit := { dirty := [3] } }
     s.audit.dirty ≠ [] ∧ freeAt s s.treeReads [s.treeArea] = true) ∧
    ({} : State).audit.producerAtEdge ≤ ({} : State).sealConsumer ∧
    (∀ lap ∈ [(1 : Byte), 2],
     let s : State := { audit := { producerAtEdge := 1 }, mem := [(0, 1), (64 + 40, 2), (64 + 63, lap)] }
     let q := sealReqOf (s.unitRead (s.sealSlot s.sealConsumer) 64)
     s.sealConsumer < s.audit.producerAtEdge ∧
      (leAt (s.unitRead (s.sealSlot s.sealConsumer) 64) 63 1 = s.sealLap s.sealConsumer ↔ lap = 1) ∧
      freeAt s ((s.sealBase, 16) :: (s.sealSlot s.sealConsumer, 64) :: q.ranges) [(q.out, 288), (s.sealBase + 8, 8)] = true ∧ s.sealCode q ≠ 0) ∧
    (mayWrite .pf 13 0 {} ∧ ({} : State).audit.verify = false) ∧
    (∀ m ∈ [true, false], let s := verifying m
     s.audit.verify = true ∧ s.flag F.AUDIT_VERIFY_CTL_MODE 0 = false ∧ freeAt s s.verifyReads s.verifyWrites = true ∧
      decide (digestNat (s.digestReg F.AUDIT_VERIFY_REF) = digestNat s.weightsDigest) = m) := by
  unfold mayWrite; decide +kernel

/-- Both ports are up, with IPv4 and IPv6, in a PTP role. -/
def portsUp (role : Nat := 0) (ptp : PtpState := {}) : State :=
  withFlds ([0, 1].flatMap fun i => [(F.FIELD_PORT_CTL_ENABLE, i, 1), (F.FIELD_PORT_STAT_LINK_UP, i, 1), (F.FIELD_IP4_CFG_V4_EN, i, 1),
      (F.FIELD_IP6_CFG_V6_EN, i, 1), (F.FIELD_PTP_CTL_ROLE, i, role)]) { field := { ptp := [(1, ptp)] } }

theorem witness_PortFrames :
    (({} : State).portLive 1 = false ∧ ({} : State).flag F.FIELD_PORT_CTL_ENABLE 1 = false) ∧
    (let s := portsUp
     s.portLive 1 = true ∧ s.coresUp = true ∧ s.frameUnsupported 1 { bytes := 9001, dstPort := 319 } = true ∧ s.frameUnsupported 1 { bytes := 64, dstPort := 319 } = false ∧
      s.flag F.FIELD_IP4_CFG_V4_EN 1 = true ∧ (0 : Word).toNat = s.fld F.FIELD_IP4_ADDR 1 ∧ (1 : Word).toNat ≠ s.fld F.FIELD_IP4_ADDR 1 ∧
      s.flag F.FIELD_IP6_CFG_V6_EN 1 = true ∧ (0 : BitVec 128).toNat = s.ip6Of 1 ∧ ({ port := 1, ip := 0, udp := 0 } : NetAddr).port = 1 ∧
      s.flag F.FIELD_PORT_STAT_LINK_UP 1 = true) ∧
    (let s := withFlds [(F.FIELD_PORT_CTL_ENABLE, 0, 1)]
     s.flag F.FIELD_PORT_CTL_ENABLE 0 = true ∧ s.flag F.FIELD_PORT_STAT_LINK_UP 0 = false) ∧
    (withFlds [(F.MGMT_MGMT_STAT_BOOT_STATE, 0, 3)]).coresUp = false := by
  decide +kernel

theorem witness_PortClock :
    ({} : State).ptpRole 1 1 = false ∧
    (let s := portsUp 1 { waitFollowUp := true, good := 15, best := some (3, 9) }
     s.ptpRole 1 1 = true ∧ (s.ptp 1).waitFollowUp = true ∧ 15 ≤ (s.ptp 1).good ∧ (s.ptp 1).best = some (3, 9) ∧ (2 : BitVec 8).toNat < 3 ∧
      3 < (4 : BitVec 8).toNat) ∧
    (portsUp 2).ptpRole 1 2 = true ∧ ((portsUp 1 { locked := true }).ptp 1).locked = true ∧ (({} : State).ptp 1).locked = false := by
  decide +kernel

/-- Trellis is served and session 5 is open or not. -/
def trellis (x : Session := {}) : State :=
  withFlds [(F.FIELD_TR_CTL_ENABLE, 0, 1)] { field := { sessions := [(5, x)] }, fab := { heddles := [(0, { st := .threaded, session := true })] } }

/-- A client's address. -/
def client : NetAddr := { port := 0, ip := 1, udp := 2 }

theorem witness_TrellisSessions :
    (let s := trellis
     s.trellisOn = true ∧ s.coresUp = true ∧ (5 : Word) ≠ 0 ∧ (∀ h ∈ s.field.handshakes, h.hs ≠ 3) ∧ s.handshakesOpen < 64 ∧ s.session 6 = none ∧
      s.session 5 = some {} ∧ ({} : Session).confirmed = false) ∧
    (let x : Session := { confirmed := true, addr := some client }
     (trellis x).session 5 = some x ∧ x.sendCtr + 1 < 2 ^ 32) := by
  decide +kernel

/-- A SOLVE body of N = 1, M = 0 in FP32, one iteration at most, DELTA and EPS 1.0. -/
def solveBody : List Byte :=
  [1, 0, 0, 0, 4, 4, 0, 0, 1, 0, 0, 0, 0, 0, 0x80, 0x3F, 0, 0, 0, 0, 0, 0, 0x80, 0x3F] ++ List.replicate 8 0

/-- The trellis service of partition 0 has a model, a batch of two requests and an engine with one slot. -/
def trellisService (c : SubClient := {}) : State :=
  { trellis { confirmed := true, addr := some client, subs := [(0, c)] } with mem := [(0, 1), (2, 2), (4, 1), (66, 1)] }

theorem witness_TrellisRequests :
    ({} : State).openSession 5 = none ∧
    (let s := trellisService
     (s.session 5).map (fun x => (x.confirmed, x.addr, x.sendCtr, x.sub 0)) = some (true, some client, 0, {}) ∧ s.fld F.POWER_PWR_STAT_STATE 0 = 0 ∧
      s.flag F.POWER_DORM_CTL_WAKE_ON_REQ 0 = false ∧ solveBodyOk solveBody = true ∧ 0 < (s.svcMap 0).models ∧ 2 ≤ s.pick.num + 2 ^ 20 ∧
      s.pick.stage = .open ∧ s.pick.num + 2 ≤ 2 ∧ Tab.get [] s.field.queued 0 = []) ∧
    (follows32 5 9 = false ∧ inSeqWindow 9 5 = false ∧ inSeqWindow 9 6 = true) ∧
    (let c : SubClient := { high := some 9, window := [6, 9], cache := [(6, (0, 3, []))] }
     ((trellisService c).session 5).map (·.sub 0) = some c ∧ 6 ∈ c.window ∧ Tab.get? c.cache 6 = some (0, 3, []) ∧ Tab.get? c.cache 9 = none) := by
  decide +kernel

theorem witness_TrellisRequests_batch :
    ∀ k ∈ [1, 2, 3], ∀ item : PendReq, item.op = k → item.body = solveBody →
      (layBatch (trellisService.svcMap 0) (trellisService.areaBase 0) (trellisService.pick.work + 1) [item]).full = false := by
  have h : ∀ k ∈ [1, 2, 3],
      (layBatch (trellisService.svcMap 0) (trellisService.areaBase 0) (trellisService.pick.work + 1) [{ op := k, body := solveBody }]).full = false := by
    decide +kernel
  intro k hk item hop hb
  have e : (layBatch (trellisService.svcMap 0) (trellisService.areaBase 0) (trellisService.pick.work + 1) [item]).full =
      (layBatch (trellisService.svcMap 0) (trellisService.areaBase 0) (trellisService.pick.work + 1) [{ op := k, body := solveBody }]).full := by
    simp only [layBatch, List.foldl, layOne, hop, hb]
    split
    · split <;> rfl
    · rfl
  exact e.trans (h k hk)

/-! ### Witnesses: the host port -/

/-- The host's link is up. -/
def linkUp (s : State := {}) : State := withFlds [(F.HOST_LINK_STAT_LINK_UP, 0, 1), (F.HOST_LINK_STAT_MEM_EN, 0, 1)] s

/-- Queue 0 of the physical function. -/
def queue0 (x : QueueState) (mem : List (Nat × Byte) := []) (poison : List Nat := []) : State :=
  linkUp { host := { queues := [(0, x)], mem := mem }, poison := poison }

/-- Queue 0 holds a command: its code, DEVICE_ADDR's last byte, LENGTH 8 and VALUE. -/
def queueWith (opc : Byte) (devTop : Byte := 0) (len : Byte := 8) (value : Byte := 0) (poison : List Nat := []) : State :=
  queue0 { enable := true, sqTail := 1 } (([(0, opc), (2, 5), (21, devTop), (24, len), (32, value)] : List (Nat × Byte)).filter fun e => e.2 != 0) poison

theorem witness_QueueRegisters :
    (∀ en ∈ [true, false], let s := queue0 { enable := en }
      s.fnLive 0 = true ∧ queueExists 0 15 = true ∧ s.dormant = false ∧ (s.queue 0 0).enable = en ∧ (15 : Word).toNat % 4096 < 2 ^ (s.queue 0 0).sqLog ∧
        2 ^ (s.queue 0 0).sqLog ≤ (16 : Word).toNat % 4096 ∧ (15 : Word).toNat % 4096 < 2 ^ (s.queue 0 0).cqLog) ∧
    (bitOf (0x80000000 : Word).toNat 31 = true ∧ bitOf (0 : Word).toNat 31 = false) ∧
    (({} : State).fnLive 0 = false ∧ queueExists 8 8 = false) ∧ (({} : State).queue 0 0).done = none ∧
    (let d : QDone := { cid := 5, status := 1 }
     let s := queue0 { enable := true, irqEn := true, done := some d }
     (s.queue 0 0).done = some d ∧ (s.queue 0 0).error = false ∧ s.fnLive 0 = true ∧ (s.queue 0 0).cqUsed < 2 ^ (s.queue 0 0).cqLog ∧
      vectorOf 0 (s.queue 0 0).vector ∉ s.host.unmasked ∧
      vectorOf 0 0 ∈ ({ s with host := { s.host with unmasked := [vectorOf 0 0] } } : State).host.unmasked) ∧
    2 ^ ({ cqUsed := 16 } : QueueState).cqLog ≤ ({ cqUsed := 16 } : QueueState).cqUsed := by
  decide +kernel

theorem witness_QueueCommands :
    (∀ opc ∈ List.range 7, ((queueWith (BitVec.ofNat 8 opc)).nextCmd 0 0).map (fun c => (c.opc, c.cid, c.dev, c.len, c.bad)) =
      some (opc, 5, 0, 8, false)) ∧
    ((queueWith 7).nextCmd 0 0).map (·.bad) = some true ∧ ((queueWith 1 0 0).nextCmd 0 0).map (·.bad) = some true ∧
    (((queueWith 2 0 8 0 [0]).touch none false 0 8).readMem none 0 8).poison = [0] ∧
    ((queueWith 6 0 8 1).nextCmd 0 0).map (·.value) = some 1 ∧ ((queueWith 6).nextCmd 0 0).map (·.value) = some 0 := by
  decide +kernel

theorem witness_QueueCommands_access :
    (let s := queueWith 1 0x40
     s.accWaits true 0x400000000000 8 = false ∧ s.accWaits false 0x400000000000 8 = false ∧ (s.cmdCheck 0 true 0x400000000000 8).st ≠ 0 ∧
      (s.cmdCheck 0 false 0x400000000000 8).st ≠ 0 ∧ 0x400000000000 % 8 = 0) ∧
    (let s := queueWith 1
     s.accWaits true 0 8 = false ∧ (s.cmdCheck 0 true 0 8).st = 0 ∧ s.accWaits false 0 8 = false ∧ (s.cmdCheck 0 false 0 8).st = 0 ∧
      memWf s.host.mem = true ∧ ((s.touch none false 0 8).readMem none 0 8).poison = [] ∧ ((s.touch none false 0 8).readMem none 0 8).acs.st = 0 ∧
      leNat ((s.touch none false 0 8).readMem none 0 8).data = 0) := by
  decide +kernel

theorem witness_HostAccesses :
    ({} : State).fnLive 0 = false ∧
    (let s := withFlds [(F.HOST_BAR2_MAP_HI.nth 0, 0, 0x2000)] linkUp
     s.fnLive 0 = true ∧ s.dormant = false ∧ regionOf pageBase = .page ∧ pageExists pageBase = true ∧
      s.fld (F.HOST_BAR2_MAP_LO.nth 0) 0 * 2 ^ 30 + s.fld (F.HOST_BAR2_MAP_HI.nth 0) 0 * 2 ^ 32 = pageBase) ∧
    (let s := linkUp
     regionOf 0 = .dram 0 ∧ s.accWaits true 0 8 = false ∧ (s.landAll none false true 0 8).st = 0 ∧
      (∀ x ∈ pieces 0 8, regionOf (0 + x.1) ≠ .host ∧ regionOf (0 + x.1) ≠ .page) ∧ s.accWaits false 0 8 = false ∧
      (s.landAll none false false 0 8).st = 0) ∧
    (let s := withFlds [(F.HOST_HCACHE_VALID.nth 0, 0, 1), (F.HOST_HCACHE_COUNT.nth 0, 0, 1)] linkUp
     (s.flag F.HOST_LINK_STAT_LINK_UP 0 && s.flag F.HOST_LINK_STAT_MEM_EN 0) = true ∧ s.dormant = false ∧ s.hcached 0 = true ∧
      s.fenceWaits 0 64 = false ∧ (s.filterOf 0).length < 262144 ∧
      ({ s with upd := { fences := [(0, false, [(0, 64)])] } } : State).fenceWaits 0 64 = true) := by
  decide +kernel

/-- A snoop filter of die 0 without line 0, with `n + 1` lines. -/
def filledFilter (n : Nat) : State :=
  withFlds [(F.HOST_HCACHE_VALID.nth 0, 0, 1), (F.HOST_HCACHE_COUNT.nth 0, 0, 1)]
    (linkUp { cellar := { filter := [(0, (1, false) :: List.replicate n (2, false))] } })

theorem filledFilter_die0 (n : Nat) : (filledFilter n).filterOf 0 = (1, false) :: List.replicate n (2, false) := rfl

theorem filledFilter_length (n : Nat) : ((filledFilter n).filterOf 0).length = n + 1 := by simp [filledFilter_die0]

theorem witness_HostAccesses_full :
    262144 ≤ ((filledFilter 262143).filterOf 0).length ∧ (∀ e ∈ (filledFilter 262143).filterOf 0, e.1 ≠ 0 / 64) ∧
      (∃ l, (filledFilter 262143).filterOf 0 = (1, false) :: l) ∧ ∀ n, (filledFilter n).cellar.asked.contains (1, true) = false := by
  refine ⟨?_, ?_, ⟨_, filledFilter_die0 _⟩, fun _ => rfl⟩
  · exact Nat.le_of_eq (filledFilter_length 262143).symm
  · rw [filledFilter_die0]
    intro e he
    rcases List.mem_cons.1 he with rfl | he
    · decide
    · rw [List.eq_of_mem_replicate he]; decide

theorem witness_HostLinkAndResets :
    ({} : State).flag F.HOST_LINK_STAT_LINK_UP 0 = false ∧ linkUp.flag F.HOST_LINK_STAT_LINK_UP 0 = true ∧ (8 : Nat) ≠ 0 ∧
      linkUp.fld F.HOST_LINK_STAT_LINK_UP 0 ≤ 1 := by
  decide +kernel

/-! ### Witnesses: management, security, the sideband, the cellar book -/

/-- Slot A with a header of format version 1, an image of one byte and its hash, and an all-zero key and signature. -/
def bootable : State :=
  { nor := memWrite [(0, 0x59), (1, 0x42), (2, 0x32), (3, 0x46), (4, 1), (16, 1)] 32 (sha384 [0]) }

theorem witness_BootAndWatchdog_slot (key : Config.keyHash 0 = sha384 (List.replicate 96 0))
    (sig : Config.verifySig (List.replicate 96 0) (sha384 (memRead bootable.nor 0 176)) (List.replicate 96 0) = true) :
    bootable.standby = false ∧ (0, 1) = (if (bootable.slotHdr 0).imgSeq < (bootable.slotHdr 1).imgSeq then (1, 0) else (0, 1)) ∧
      bootable.slotOk (bootable.slotHdr 0) = true ∧ bootable.mgmt.arbCount ≤ (bootable.slotHdr 0).svn := by
  have a : (bootable.slotHdr 0).part 80 96 = List.replicate 96 0 ∧ (bootable.slotHdr 0).part 0 176 = memRead bootable.nor 0 176 ∧
      (bootable.slotHdr 0).part 176 96 = List.replicate 96 0 ∧ (bootable.slotHdr 0).keySlot = 0 := by decide +kernel
  have b : ((bootable.slotHdr 0).at_ 0 4 == 0x46324259) = true ∧ ((bootable.slotHdr 0).at_ 4 4 == 1) = true ∧
      ((bootable.slotHdr 0).part 25 3).all (· == 0) = true ∧ ((bootable.slotHdr 0).part 272 240).all (· == 0) = true ∧
      (bootable.slotHdr 0).at_ 16 4 = 1 ∧
      (sha384 (memRead bootable.nor ((bootable.slotHdr 0).base + 512) 1) == (bootable.slotHdr 0).part 32 48) = true ∧
      bootable.mgmt.revoked.contains 0 = false := by decide +kernel
  refine ⟨by decide +kernel, by decide +kernel, ?_, by decide +kernel⟩
  obtain ⟨a1, a2, a3, a4⟩ := a
  obtain ⟨b1, b2, b3, b4, b5, b6, b7⟩ := b
  simp only [State.slotOk]
  rw [a1, a2, a3, a4, b1, b2, b3, b4, b5, b6, b7, key, sig, beq_self_eq_true]
  rfl

theorem witness_BootAndWatchdog :
    (({} : State).standby = false ∧ ({} : State).slotOk (({} : State).slotHdr 0) = false ∧ ({} : State).slotOk (({} : State).slotHdr 1) = false) ∧
    (withFlds [(F.BOOK_BOOK_STAT_STANDBY, 0, 1)]).standby = true ∧
    (∀ ag ∈ [Agent.mgmt, .pf], mayWrite ag 14 0 {}) ∧ (({} : State).accessOf .mgmt).code = 0x0A ∧ ({} : State).mgmt.bootAccepted = false ∧
    (({} : State).accessOf .pf).code ≠ 0x0A ∧ ({} : State).fld F.MGMT_WDOG_TIMEOUT_MS 0 = 0 ∧
    (withFlds [(F.MGMT_WDOG_TIMEOUT_MS, 0, 5)]).fld F.MGMT_WDOG_TIMEOUT_MS 0 ≠ 0 := by
  unfold mayWrite; decide +kernel

/-- SHUTDOWN with one die at a temperature, 1/16 °C. -/
def shutDown (t : Int) : State := withFlds [(F.POWER_PWR_STAT_STATE, 0, 4)] { power := { dies := [(0, t)], critHeld := true } }

theorem witness_Resets :
    (({} : State).standby = false ∧ ({} : State).book.queue.length < 240 ∧ ({} : State).cellar.lines = [] ∧ ({} : State).pwrState ≠ 4 ∧
      mayWrite .mgmt 14 0 {}) ∧
    (let s := shutDown (16 * 112)
     s.standby = false ∧ s.pwrState = 4 ∧ s.belowThrottle = false ∧ mayWrite .mgmt 14 0 s ∧ s.power.critHeld = true ∧
      (s.setTemp 0 (16 * 102)).belowThrottle = true ∧ (s.setTemp 0 (16 * 103)).belowThrottle = false) ∧
    bitOf (0x80 : Byte).toNat 7 = true ∧ 7 ∉ ({} : State).mgmt.partResets := by
  unfold mayWrite; decide +kernel

theorem witness_Fuses :
    (∀ ag ∈ [Agent.mgmt, .pf], mayWrite ag 16 0 {}) ∧ (({} : State).accessOf .pf).code ≠ 0x0A ∧ (({} : State).accessOf .mgmt).code = 0x0A ∧
    (let s := withFlds [(F.MGMT_MGMT_STAT_SVN, 0, 9), (F.MGMT_MGMT_STAT_BOOT_STATE, 0, 2)] { mgmt := { arbCount := 3, keySlot := 1 } }
     s.mgmt.arbCount < (9 : BitVec 7).toNat ∧ max s.mgmt.arbCount (min 64 (min (9 : BitVec 7).toNat (s.fld F.MGMT_MGMT_STAT_SVN 0))) ≠ s.mgmt.arbCount ∧
      (3 : BitVec 7).toNat ≤ s.mgmt.arbCount ∧ s.fwRuns = true ∧ s.mgmt.keySlot < 2 ∧ bitOf (2 : BitVec 2).toNat s.mgmt.keySlot = true ∧
      bitOf (1 : BitVec 2).toNat s.mgmt.keySlot = false ∧ 1 ∉ s.mgmt.revoked) ∧
    (let s : State := { mgmt := { arbCount := 3 } }
     s.mgmt.arbCount < (9 : BitVec 7).toNat ∧ max s.mgmt.arbCount (min 64 (min (9 : BitVec 7).toNat (s.fld F.MGMT_MGMT_STAT_SVN 0))) = s.mgmt.arbCount) ∧
    (2 : BitVec 2) ≠ 0 ∧ ({} : State).mgmt.revoked ∈ [[], [0], [1], [0, 1]] ∧ ({} : State).mgmt.arbTarget = none ∧
    ({ mgmt := { arbTarget := some 4 } } : State).mgmt.arbTarget = some 4 := by
  unfold mayWrite; decide +kernel

theorem witness_SpdmRequests :
    (withFlds [(F.MGMT_MGMT_STAT_BOOT_STATE, 0, 3)]).spdmUp = false ∧
    (∀ n ∈ List.range 4, let s : State := { mgmt := { spdmState := n } }
      s.spdmUp = true ∧ s.mgmt.spdmState = n) ∧
    (1 ∈ ([1, 2] : List Byte) ∧ 2 ∈ ([1, 2] : List Byte)) ∧ ((1 : Fin 8).val < 2 ∧ 2 ≤ (2 : Fin 8).val) ∧
    (1 ≤ (6 : Byte).toNat ∧ (6 : Byte).toNat ≤ 6 ∧ 7 ≤ (7 : Byte).toNat ∧ (7 : Byte).toNat ≠ 0xFF) := by
  decide +kernel

/-- A device whose cellar book holds one record at index 1. -/
def withRecord : State := { book := { a := [(1, recordBytes 1 0 { ty := 7 })] } }

theorem witness_SpiFrames :
    (({} : State).standby = false ∧ regionOf (pageBase + 4 * (0 : BitVec 28).toNat) = .page ∧
      ({} : State).pageGate (({} : State).accessOf .unit) 0 0 false = 0) ∧
    (let s := withFlds [(F.BOOK_BOOK_STAT_STANDBY, 0, 1)]
     s.standby = true ∧ (pageOf pageBase).1 ≠ 17) ∧
    ({} : State).flag F.MGMT_SB_CTL 0 = false ∧
    bitOf ({ side := { status := 1 } } : State).side.status 0 = true ∧ ({} : State).coresUp = true ∧
    ((withFlds [(F.MGMT_SB_CTL, 0, 1)]).flag F.MGMT_SB_CTL 0 = true ∧ (withFlds [(F.MGMT_SB_CTL, 0, 1)]).coresUp = true ∧ (pageOf (pageBase + 4 * (0xE00000 : BitVec 28).toNat)).1 = 14) ∧
    (withRecord.sbRecord 1 1).isSome = true ∧ (bitsOf (0x4000010 : BitVec 28).toNat 4 17 = 1 ∧ bitsOf (0x4000010 : BitVec 28).toNat 26 2 = 1 ∧
      bitsOf (0x4000010 : BitVec 28).toNat 21 5 = 0) ∧ ({} : State).sbRecord 1 1 = none := by
  decide +kernel

theorem witness_SmbusAndJtag :
    (withFlds [(F.BOOK_BOOK_STAT_STANDBY, 0, 1)]).standby = true ∧
    (({} : State).standby = false ∧ regionOf pageBase = .page ∧ pageBase % 4 = 0 ∧ ({} : State).pageGate (({} : State).accessOf .unit) 0 0 false = 0 ∧
      ({} : State).flag F.MGMT_SB_CTL 0 = false) ∧
    ((withFlds [(F.MGMT_SB_CTL, 0, 1)]).flag F.MGMT_SB_CTL 0 = true ∧ (withFlds [(F.MGMT_SB_CTL, 0, 1)]).coresUp = true ∧ regionOf (pageAddr 17 0 0) = .page ∧ (pageOf (pageAddr 17 0 0)).1 = 17) ∧
    (withRecord.sbRecord 1 0).isSome = true ∧ ({} : State).sbRecord 1 3 = none := by
  decide +kernel

theorem witness_CellarBook :
    (mayWrite .pf 17 0 {} ∧ ({} : State).book.queue.length < 240 ∧ ({} : State).book.queue = []) ∧
    (let s := withFlds [(F.BOOK_BOOK_STAT_READY, 0, 1)] { book := { queue := [{ ty := 4, ready := false }, { ty := 7 }] } }
     s.flag F.BOOK_BOOK_STAT_READY 0 = true ∧ s.book.queue = [{ ty := 4, ready := false }] ++ { ty := 7 } :: [] ∧ ({ ty := 7 } : QRec).ready = true) ∧
    (withFlds [(F.BOOK_BOOK_STAT_READY, 0, 0)]).flag F.BOOK_BOOK_STAT_READY 0 = false ∧
    copyValid (recordBytes 1 0 { ty := 7 }) = true := by
  unfold mayWrite; decide +kernel

/-! ### Witnesses: power -/

/-- A device in a power state. -/
def inPower (k : Nat) (p : PowerState := {}) : State := withFlds [(F.POWER_PWR_STAT_STATE, 0, k)] { power := p }

theorem witness_Supplies :
    (({} : State).vstbyOk = false ∧ ({} : State).power.pwrOk = false ∧ ({} : State).standby = false ∧ ({} : State).power.rideThrough = false) ∧
    ({ power := { vstby := 3300 } } : State).vstbyOk = true ∧ (withFlds [(F.BOOK_BOOK_STAT_STANDBY, 0, 1)]).standby = true ∧
    ({ power := { rideThrough := true } } : State).power.rideThrough = true := by
  decide +kernel

theorem witness_SagsAndLimiter :
    (({} : State).power.sagOn = false ∧ ({} : State).book.queue.length < 238 ∧ ({ power := { sagOn := true } } : State).power.sagOn = true) ∧
    (envWatts ({} : State).envelope < 3601 ∧ 100 * 3491 < 97 * envWatts ({} : State).envelope ∧ 97 * envWatts ({} : State).envelope ≤ 100 * 3492 ∧
      3492 ≤ envWatts ({} : State).envelope) ∧
    ({ power := { limHeld := true } } : State).power.limHeld = true := by
  decide +kernel

theorem witness_ThermalLimits :
    (let s : State := {}
     let u := (s.setTemp 24 (16 * 103)).setAlert
     u.atLeast (s.fld F.POWER_THERM_CFG_WARN 0) = true ∧ s.atLeast (s.fld F.POWER_THERM_CFG_WARN 0) = false ∧
      u.atLeast (s.fld F.POWER_THERM_CFG_THROTTLE 0) = true ∧ s.power.throttling = false ∧ s.pwrState ≠ 4 ∧ (16 * 112 : Int) ≤ 16 * 112 ∧
      ((s.setTemp 24 0).setAlert).atLeast (s.fld F.POWER_THERM_CFG_WARN 0) = false) ∧
    (let s := inPower 0 { throttling := true, thermMhz := 1400 }
     let u := (s.setTemp 24 (16 * 100)).setAlert
     u.atLeast (s.fld F.POWER_THERM_CFG_THROTTLE 0) = false ∧ s.power.throttling = true ∧
      u.hottest.1 < 16 * ((s.fld F.POWER_THERM_CFG_THROTTLE 0 : Int) - 2) ∧ s.power.thermMhz + 50 < s.power.envMhz) ∧
    (inPower 0 { throttling := true, thermMhz := 1450 }).power.envMhz ≤ 1450 + 50 ∧ (inPower 4).pwrState = 4 := by
  decide +kernel

theorem witness_Dormancy :
    (mayWrite .pf 15 0 {} ∧ ({} : State).fld F.PICK_SCHED_STAT_STATE 0 = 0 ∧ ({} : State).pwrState = 0 ∧ ({} : State).fld F.DEVICE_COMMIT_CTL_STATE 0 ≠ 1) ∧
    (withFlds [(F.PICK_SCHED_STAT_STATE, 0, 1)]).fld F.PICK_SCHED_STAT_STATE 0 ≠ 0 ∧
    (∀ k ∈ [1, 2, 3], (inPower k).pwrState = k ∧ mayWrite .mgmt 15 0 (inPower k)) ∧
    ((inPower 2).flag F.POWER_DORM_CTL_WAKE_ON_PIN 0 = true ∧ (withFlds [(F.POWER_DORM_CTL_WAKE_ON_PIN, 0, 0)]).flag F.POWER_DORM_CTL_WAKE_ON_PIN 0 = false) := by
  unfold mayWrite; decide +kernel

/-! ### Witnesses: the whole device -/

theorem witness_PartitionsAfterReset :
    (({} : State).standby = false ∧ ({} : State).pwrState ≠ 4 ∧ mayWrite .mgmt 14 0 {}) ∧
    (shutDown (16 * 112)).power.critHeld = true ∧ ((shutDown (16 * 112)).setTemp 0 (16 * 102)).belowThrottle = true ∧
    ({ power := { rideThrough := true } } : State).power.rideThrough = true := by
  unfold mayWrite; decide +kernel

theorem witness_StepKeepsMemoriesCanonical :
    let s : State := { State.reset with mem := [(7, 1)] }
    memoriesWf s ∧ step s = .next s := ⟨⟨rfl, rfl, rfl⟩, rfl⟩

theorem witness_StepKeepsLockWithBoot :
    let s : State := { State.reset with locked := true, mgmt := { bootAccepted := true } }
    lockFollowsBoot s ∧ step s = .next s := ⟨rfl, rfl⟩

theorem witness_QueueServedInOrder :
    ({ pending := [.bypass, .idcode] } : State).pending = .bypass :: [.idcode] ∧ ({} : State).pending = [] := by decide +kernel

theorem witness_ServiceCommandsLeaveMemory : leavesMemory .bypass ∧ ∃ t, exec .bypass State.reset = .next t := ⟨trivial, _, rfl⟩

/-! ### What is ill formed -/

/-- An operation at address 0 of `len` bytes that carries `n` bytes. -/
def carrying (len n : Nat) : Arrival := { src := .own 0, addr := 0, len := len, data := List.replicate n 0 }

theorem test_ill_formed :
    ([.registerWrite .pf false 0 0 0, .registerWrite .pf false 0 9 0, .srst .pf .core 512, .errClr .pf .link 36 none,
      .evtStatClear .pf .coll 9 0 0, .evtEnWrite .pf .die 16 0, .evtSet .pf .field 2 0, .cfgStageWrite .pf .part 8 0, .softResetDone .update 8,
      .put (carrying 0 0), .put (carrying 8 9), .get (carrying 0 0), .acc (carrying 4 5), .bisnpResponse 0 0 [],
      .cxlMemRequest true 0 [] false] : List Instr).all (fun i => !i.wf) = true := by decide +kernel

theorem test_well_formed :
    ([.registerWrite .pf false 0 8 0, .srst .pf .core 511, .errClr .pf .link 35 none, .evtStatClear .pf .coll 8 0 0, .evtEnWrite .pf .die 15 0,
      .evtSet .pf .field 1 0, .cfgStageWrite .pf .part 7 0, .softResetDone .update 7, .put (carrying 8 8), .get (carrying 1 0),
      .acc (carrying 5 4), .bisnpResponse 0 0 (List.replicate 64 0), .cxlMemRequest true 0 (List.replicate 64 0) true,
      .cxlMemRequest false 0 [] false] : List Instr).all Instr.wf = true := by decide +kernel

theorem test_no_word_is_a_command : decodeTableWord 64 0 = none ∧ decodeTableWord 64 0xFFFFFFFFFFFFFFFF = none := ⟨rfl, rfl⟩

/-! ### Steps -/

/-- What one step makes of a state with one command, seen through `f`. -/
def stepped {α : Type} (c : Instr) (s : State) (f : State → α) : Option α :=
  match step { s with pending := [c] } with
  | .next t => some (f t)
  | _ => none

theorem test_add_wraps : -- R198 on 64 bits: 2^64 − 1 and 2 give 1
    stepped (.add (at0 3 1 2)) (holding 0x01 (at0 3 1 2) (strandState [(1, 2 ^ 64 - 1), (2, 2)])) (fun t => Tab.get 0 (t.strand 0 0).regs 3) =
      some 1 := by decide +kernel

theorem test_rem_by_zero : -- R198: the remainder is the dividend, and STR_DIV0 counts
    stepped (.rem (at0 3 1 2)) (holding 0x06 (at0 3 1 2) (strandState [(1, 5)]))
      (fun t => (Tab.get 0 (t.strand 0 0).regs 3, t.fld F.CORE_STR_DIV0 0)) = some (5, 1) := by
  decide +kernel

theorem test_vcmp_word : -- Table 8.5: vcmpgt v1, v0, s12, int32
    let i := at0 1 0 12 0x10A 0x20000044
    wordOf 0x66 i = 0x6608190A20000044 ∧ vCcb i = 0x0A ∧ vSb i = true ∧ vFa i = 4 ∧ vFb i = 4 ∧ vSub i = 4 := by decide +kernel

theorem test_idcode : -- R469: IDCODE is selected
    stepped .idcode {} (fun t => t.side.jtag) = some 2 := by decide +kernel

theorem test_pick_edge_counts : -- R70: the pick number rises by one at each edge
    stepped .pickEdge { pick := { num := 41, stage := .decided } } (fun t => t.pick.num) = some 42 := by decide +kernel

theorem test_refused_write_is_counted : -- R42: a write of another agent is counted with code 0x07
    stepped (.enter (.vf 0)) {} (fun t => (t.fld (F.ERR_CNT 15) 0, t.fld (F.ERR_INFO_CODE 15) 0)) = some (1, 7) := by decide +kernel

theorem test_low_rise_of_standby_power : -- R476: below 3.135 V nothing starts
    stepped (.vstbyRise 3134) {} (fun t => t.standby) = some false := by decide +kernel

end Sys2Proof.Tests
end

/-! ## What every command keeps

`Kept s t` is the part of the invariants that every operation of the device carries from `s` to `t`, each clause by itself, so that it holds of every
state: the queue of waiting commands is the same, each of the three memories stays canonical (log entry 1), and the RWL lock goes on following
BOOT_DONE (R46, R458). Every operation of Machine/ has one lemma in the namespace `Kept`: what keeps these of a state keeps them after the
operation. -/

namespace Sys2Proof.Machine
open Sys2Proof

/-- From `s` to `t` the queue is unchanged, and the canonical form of the memories and the lock's rule are kept. -/
structure Kept (s t : State) : Prop where
  queue : t.pending = s.pending
  mem : memWf s.mem = true → memWf t.mem = true
  nor : memWf s.nor = true → memWf t.nor = true
  host : memWf s.host.mem = true → memWf t.host.mem = true
  lock : s.locked = s.mgmt.bootAccepted → t.locked = t.mgmt.bootAccepted

/-- The outcome is a next state, and what every command keeps is kept. -/
def KeptOut (s : State) (o : Host.Outcome State Fault Refusal) : Prop := ∃ t, o = .next t ∧ Kept s t

namespace Kept

variable {s₀ s t : State}

/-! ### Updates, branches and folds -/

theorem refl : Kept s s := ⟨rfl, id, id, id, id⟩

/-- The state `t` has the queue, the memories and the lock of `s`. -/
theorem upd (h : Kept s₀ s) (e : (t.pending, t.mem, t.nor, t.host.mem, t.locked, t.mgmt.bootAccepted) =
    (s.pending, s.mem, s.nor, s.host.mem, s.locked, s.mgmt.bootAccepted)) : Kept s₀ t := by
  obtain ⟨hq, hm, hn, hh, hl, hb⟩ : t.pending = s.pending ∧ t.mem = s.mem ∧ t.nor = s.nor ∧ t.host.mem = s.host.mem ∧
      t.locked = s.locked ∧ t.mgmt.bootAccepted = s.mgmt.bootAccepted := by simpa only [Prod.mk.injEq] using e
  exact ⟨hq ▸ h.queue, hm ▸ h.mem, hn ▸ h.nor, hh ▸ h.host, by rw [hl, hb]; exact h.lock⟩

/-- A record with the queue, the memories and the lock of `s`: the form that `{ s with … }` has once it is unfolded. -/
theorem update {pending : List Instr} {sent : List Msg} {free : Nat} {regs shadow : Tab Nat} {mem nor : List (Nat × Byte)} {poison : List Nat}
    {pick : PickState} {armed : Option Armed} {locked : Bool} {cores : Tab CoreState} {solvers : Tab SolverState} {cellar : CellarState}
    {stackCtls : Tab StackState} {unit : UpdState} {fab : FabState} {links : Tab LinkState} {colls : Tab CollState} {audit : AuditState}
    {field : FieldState} {host : HostState} {mgmt : MgmtState} {book : BookState} {side : SideState} {power : PowerState} (h : Kept s₀ s)
    (e : (pending, mem, nor, host.mem, locked, mgmt.bootAccepted) =
      (s.pending, s.mem, s.nor, s.host.mem, s.locked, s.mgmt.bootAccepted)) :
    Kept s₀ (State.mk pending sent free regs shadow mem poison nor pick armed locked cores solvers cellar stackCtls unit fab links colls audit
      field host mgmt book side power) :=
  h.upd e

theorem both {c : Prop} [Decidable c] (hs : Kept s₀ s) (ht : Kept s₀ t) : Kept s₀ (if c then s else t) := by
  split
  · exact hs
  · exact ht

theorem both_fst {α : Type} {c : Prop} [Decidable c] {x y : State × α} (hx : Kept s₀ x.1) (hy : Kept s₀ y.1) :
    Kept s₀ (if c then x else y).1 := by
  split
  · exact hx
  · exact hy

theorem fst {α : Type} {b : α} (h : Kept s₀ s) : Kept s₀ (s, b).1 := h
theorem out (h : Kept s₀ s) : KeptOut s₀ (.next s) := ⟨s, rfl, h⟩

theorem both_out {c : Prop} [Decidable c] {x y : Host.Outcome State Fault Refusal} (hx : KeptOut s₀ x) (hy : KeptOut s₀ y) :
    KeptOut s₀ (if c then x else y) := by
  split
  · exact hx
  · exact hy

theorem foldl {α : Type} {g : State → α → State} {l : List α} (h : Kept s₀ s) (hg : ∀ t x, Kept s₀ t → Kept s₀ (g t x)) :
    Kept s₀ (l.foldl g s) := by
  induction l generalizing s with
  | nil => exact h
  | cons x l ih => exact ih (hg s x h)

theorem foldl_fst {α β : Type} {g : State × β → α → State × β} {l : List α} {p : State × β} (h : Kept s₀ p.1)
    (hg : ∀ p x, Kept s₀ p.1 → Kept s₀ (g p x).1) : Kept s₀ (l.foldl g p).1 := by
  induction l generalizing p with
  | nil => exact h
  | cons x l ih => exact ih (hg p x h)

/-! ### Operations of Machine/Ops.lean -/

theorem setFld {f : Fld} {i v : Nat} (h : Kept s₀ s) : Kept s₀ (s.setFld f i v) := h.upd (by rfl)
theorem addSat {f : Fld} {i n : Nat} (h : Kept s₀ s) : Kept s₀ (s.addSat f i n) := h.setFld
theorem addWrap {f : Fld} {i n : Nat} (h : Kept s₀ s) : Kept s₀ (s.addWrap f i n) := h.setFld
theorem setStaged {f : Fld} {i v : Nat} (h : Kept s₀ s) : Kept s₀ (s.setStaged f i v) := h.upd (by rfl)
theorem emit {m : Msg} (h : Kept s₀ s) : Kept s₀ (s.emit m) := h.upd (by rfl)

theorem clearRange {ty i lo hi : Nat} (h : Kept s₀ s) : Kept s₀ (s.clearRange ty i lo hi) :=
  h.foldl (fun _ _ h2 => h2.foldl (fun _ _ h3 => both h3.setFld h3))

theorem bookQueue {r : QRec} (h : Kept s₀ s) : Kept s₀ (s.bookQueue r).1 := both_fst (h.upd (by rfl)) (h.upd (by rfl)).addSat
theorem msix {vec : Nat} (h : Kept s₀ s) : Kept s₀ (s.msix vec) := both h.emit (h.upd (by rfl))

theorem deliverIrq {ty i b route : Nat} (h : Kept s₀ s) : Kept s₀ (s.deliverIrq ty i b route) := by
  refine both (emit (both ?_ h)) (both ?_ h)
  · dsimp only
    split
    · exact h.msix.msix
    · exact h.msix
  · dsimp only
    split
    · exact h.msix.msix
    · exact h.msix

theorem raiseCore {ty i b : Nat} (h : Kept s₀ s) : Kept s₀ (s.raiseCore ty i b).1 := by
  unfold State.raiseCore
  split
  · exact h
  · exact both_fst h (both_fst (both_fst h.setFld.deliverIrq.bookQueue h.setFld.deliverIrq) h.setFld)

theorem raise {ty i b : Nat} (h : Kept s₀ s) : Kept s₀ (s.raise ty i b) := both h.raiseCore.raiseCore h.raiseCore
theorem bookPush {r : QRec} (h : Kept s₀ s) : Kept s₀ (s.bookPush r) := both h.bookQueue h.bookQueue.raise
theorem raiseIf {c : Bool} {ty i b : Nat} (h : Kept s₀ s) : Kept s₀ (s.raiseIf c ty i b) := both h.raise h
theorem redeliver {ty i b : Nat} (h : Kept s₀ s) : Kept s₀ (s.redeliver ty i b) := both (h.upd (by rfl)).raise h

theorem countErr {ty i code value agent : Nat} (h : Kept s₀ s) : Kept s₀ (s.countErr ty i code value agent) :=
  both h (raiseIf (raise (both h.setFld.setFld.setFld.setFld.setFld h.setFld)))

theorem countEv {f : Fld} {i n b : Nat} (h : Kept s₀ s) : Kept s₀ (s.countEv f i n b) := both h h.addSat.raise
theorem countBlocked {p : Nat} (h : Kept s₀ s) : Kept s₀ (s.countBlocked p) := h.countEv

theorem countUnavail {page : Nat × Nat} {addr agent : Nat} (h : Kept s₀ s) : Kept s₀ (s.countUnavail page addr agent) :=
  both h.countErr (both h.countEv.countErr h.countErr)

theorem countAccess {page : Nat × Nat} {status addr agent : Nat} {part : Option Nat} (h : Kept s₀ s) :
    Kept s₀ (s.countAccess page status addr agent part) := by
  refine both h.countErr (both ?_ (both h.countUnavail h))
  dsimp only
  split
  · exact h.countErr.countBlocked
  · exact h.countErr

theorem errClear {ty i : Nat} (h : Kept s₀ s) : Kept s₀ (s.errClear ty i) := h.setFld.setFld.setFld.setFld.setFld
theorem modPick {f : PickState → PickState} (h : Kept s₀ s) : Kept s₀ (s.modPick f) := h.upd (by rfl)
theorem cause {b : Nat} (h : Kept s₀ s) : Kept s₀ (s.cause b) := both h (h.upd (by rfl))
theorem fault (h : Kept s₀ s) : Kept s₀ s.fault := h.cause
theorem poisoned {ty i : Nat} (h : Kept s₀ s) : Kept s₀ (s.poisoned ty i) := h.raise.fault
theorem setCore {c : Nat} {x : CoreState} (h : Kept s₀ s) : Kept s₀ (s.setCore c x) := h.upd (by rfl)
theorem setLink {l : Nat} {x : LinkState} (h : Kept s₀ s) : Kept s₀ (s.setLink l x) := h.upd (by rfl)
theorem setHeddle {h : Nat} {x : Heddle} (hs : Kept s₀ s) : Kept s₀ (s.setHeddle h x) := hs.upd (by rfl)
theorem setSolver {e : Nat} {x : SolverState} (h : Kept s₀ s) : Kept s₀ (s.setSolver e x) := h.upd (by rfl)
theorem releasePath {e : Nat} (h : Kept s₀ s) : Kept s₀ (s.releasePath e) := h.foldl (fun _ _ h1 => both h1.setCore h1)
theorem setSlice {c : Nat} {x : SliceState} (h : Kept s₀ s) : Kept s₀ (s.setSlice c x) := h.upd (by rfl)
theorem setColl {c : Nat} {x : CollState} (h : Kept s₀ s) : Kept s₀ (s.setColl c x) := h.upd (by rfl)
theorem setGranule {g : Nat} {x : Granule} (h : Kept s₀ s) : Kept s₀ (s.setGranule g x) := h.upd (by rfl)
theorem draw (h : Kept s₀ s) : Kept s₀ s.draw.2 := h.upd (by rfl)

/-! ### Operations of Machine/Memory.lean -/

theorem storeBlock {a : Nat} {bytes : List Byte} {pz : Bool} (h : Kept s₀ s) : Kept s₀ (s.storeBlock a bytes pz) := by
  unfold State.storeBlock
  split
  · exact h
  · split
    · exact ⟨h.queue, h.mem, h.nor, fun hm => memWrite_wf (h.host hm), h.lock⟩
    · exact ⟨h.queue, fun hm => memWrite_wf (h.mem hm), h.nor, h.host, h.lock⟩

theorem writeBy {who : Option Nat} {a : Nat} {bytes : List Byte} {pz : Nat → Nat → Bool} {coll : Bool} (h : Kept s₀ s) :
    Kept s₀ (s.writeBy who a bytes pz coll) :=
  h.foldl (fun _ _ h1 => both h1.storeBlock h1)

theorem writeMem {who : Option Nat} {a : Nat} {bytes : List Byte} {pz : List Nat} {coll : Bool} (h : Kept s₀ s) :
    Kept s₀ (s.writeMem who a bytes pz coll) :=
  h.writeBy

theorem setFilter {die : Nat} {l : List (Nat × Bool)} (h : Kept s₀ s) : Kept s₀ (s.setFilter die l) := h.upd (by rfl)
theorem backSnoop {h : Nat} {inv : Bool} (hs : Kept s₀ s) : Kept s₀ (s.backSnoop h inv) := both hs (hs.upd (by rfl)).addWrap.emit
theorem askHost {write : Bool} {a n : Nat} (h : Kept s₀ s) : Kept s₀ (s.askHost write a n) := h.foldl (fun _ _ => backSnoop)

theorem whenReadable {l : List (Nat × Nat)} {f : State → State} (h : Kept s₀ s) (hf : ∀ t, Kept s₀ t → Kept s₀ (f t)) :
    Kept s₀ (s.whenReadable l f) :=
  both (h.foldl (fun _ _ => askHost)) (hf _ h)

theorem whenWritable {l : List (Nat × Nat)} {f : State → State} (h : Kept s₀ s) (hf : ∀ t, Kept s₀ t → Kept s₀ (f t)) :
    Kept s₀ (s.whenWritable l f) :=
  both (h.foldl (fun _ _ => askHost)) (hf _ h)

theorem poisonBlock {a : Nat} (h : Kept s₀ s) : Kept s₀ (s.poisonBlock a) := both (h.upd (by rfl)) (h.upd (by rfl))

theorem spoolEcc {a : Nat} {e : Ecc} (h : Kept s₀ s) : Kept s₀ (s.spoolEcc a e) :=
  both h.countEv (poisonBlock (countEv (both h.countEv h.countEv.setFld.setFld.setFld)))

theorem stackAddr {k a : Nat} (h : Kept s₀ s) : Kept s₀ (s.stackAddr k a) := both h h.setFld.setFld.setFld

theorem stackEcc {a : Nat} {e : Ecc} {b : Nat} (h : Kept s₀ s) : Kept s₀ (s.stackEcc a e b) :=
  both h.countEv h.countEv.stackAddr.countEv.poisonBlock

theorem cellarEcc {d a : Nat} {e : Ecc} {clean : Bool} (h : Kept s₀ s) : Kept s₀ (s.cellarEcc d a e clean) :=
  both h.countEv.countEv h.countEv.countEv.poisonBlock

theorem touchLine {p a n : Nat} {write : Bool} (h : Kept s₀ s) : Kept s₀ (s.touchLine p a n write) :=
  both ((both h.addWrap h.addWrap).upd (by rfl)) h

theorem touch {who : Option Nat} {write : Bool} {a n : Nat} (h : Kept s₀ s) : Kept s₀ (s.touch who write a n) := by
  unfold State.touch
  split
  · exact h
  · exact h.foldl (fun _ _ => touchLine)

theorem eccBlock {who : Option Nat} {x : BlockEcc} (h : Kept s₀ s) : Kept s₀ (s.eccBlock who x).1 := by
  unfold State.eccBlock
  dsimp only
  split
  · exact h.cellarEcc
  · split
    · exact h.spoolEcc
    · exact h.cellarEcc
    · split
      · exact h.cellarEcc
      · exact h.stackEcc
    · exact h

theorem eccAt {who : Option Nat} {a n : Nat} {l : List BlockEcc} (h : Kept s₀ s) : Kept s₀ (s.eccAt who a n l).1 :=
  h.foldl_fst (fun _ _ => eccBlock)

theorem nocRetry {l : List (Fin 16)} (h : Kept s₀ s) : Kept s₀ (s.nocRetry l) := h.foldl (fun _ _ => countEv)
theorem hwinErr {x : Acs} (h : Kept s₀ s) : Kept s₀ (s.hwinErr x) := both h.countEv h

theorem accessDone {page : Nat × Nat} {agent : Nat} {part : Option Nat} {x : Acs} (h : Kept s₀ s) : Kept s₀ (s.accessDone page agent part x) :=
  h.hwinErr.countAccess

/-! ### Operations of Machine/Access.lean -/

theorem countGate {x : Access} {g ty i off : Nat} (h : Kept s₀ s) : Kept s₀ (s.countGate x g ty i off) := by
  refine both h.countErr ?_
  split
  · exact h.countAccess
  · exact h

theorem pageAct {ag : Agent} {ty i off : Nat} {act : State → State} (h : Kept s₀ s) (hact : ∀ t, Kept s₀ t → Kept s₀ (act t)) :
    Kept s₀ (s.pageAct ag ty i off act) :=
  both (hact _ h) h.countGate

/-! ### Operations of Machine/Route.lean -/

theorem linkSend {l : Nat} {f : Flit} (h : Kept s₀ s) : Kept s₀ (s.linkSend l f) := h.setLink.addWrap

theorem sendFlits {dest seq vc n : Nat} {x : FlitLoad} {m : Msg} (h : Kept s₀ s) : Kept s₀ (s.sendFlits dest seq vc n x m) := by
  unfold State.sendFlits
  split
  · exact h.emit
  · split
    · exact h.countEv
    · exact emit (h.foldl (fun _ _ => linkSend))

theorem sendMsg {dest : Nat} {m : Msg} (h : Kept s₀ s) : Kept s₀ (s.sendMsg dest m) := h.sendFlits

/-! ### Operations of Machine/Fabric.lean -/

theorem threadTo {h peer peerId part : Nat} {repairUse session : Bool} (hs : Kept s₀ s) :
    Kept s₀ (s.threadTo h peer peerId part repairUse session) :=
  hs.setHeddle.addWrap

theorem beginThread {h peer part : Nat} {repairUse : Bool} (hs : Kept s₀ s) : Kept s₀ (s.beginThread h peer part repairUse) :=
  both hs.setHeddle.sendMsg hs.setHeddle

theorem beginRelease {h : Nat} (hs : Kept s₀ s) : Kept s₀ (s.beginRelease h) := both hs.setHeddle.sendMsg hs
theorem setIssued {id : Nat} {o : IssuedOp} (h : Kept s₀ s) : Kept s₀ (s.setIssued id o) := h.upd (by rfl)
theorem sendOp {id : Nat} {o : IssuedOp} {seq : Nat} (h : Kept s₀ s) : Kept s₀ (s.sendOp id o seq) := h.sendFlits

theorem trySend {id : Nat} (h : Kept s₀ s) : Kept s₀ (s.trySend id) := by
  unfold State.trySend
  split
  · exact h
  · exact both h (both h.setIssued.setHeddle.sendOp h)

theorem sendWaiting {h : Nat} (hs : Kept s₀ s) : Kept s₀ (s.sendWaiting h) := hs.foldl (fun _ _ => trySend)

theorem issueOp {who : Issuer} {d : OpDesc} {part : Option Nat} {data : List Byte} {pz : List Nat} {repair : Option RepairOp} (h : Kept s₀ s) :
    Kept s₀ (s.issueOp who d part data pz repair).1 :=
  both (h.upd (by rfl)) (h.upd (by rfl)).trySend

theorem countStatus {o : IssuedOp} {status addr : Nat} (h : Kept s₀ s) : Kept s₀ (s.countStatus o status addr) := by
  unfold State.countStatus
  dsimp only
  split
  · exact h
  · exact h.countAccess
  · exact h.countUnavail
  · exact h.countErr

theorem retire {id : Nat} (h : Kept s₀ s) : Kept s₀ (s.retire id) := by
  unfold State.retire
  split
  · exact h
  · exact both (h.upd (by rfl)) (h.upd (by rfl)).sendWaiting

theorem dropRepairOps {h : Nat} (hs : Kept s₀ s) : Kept s₀ (s.dropRepairOps h) := hs.upd (by rfl)

/-! ### Operations of Machine/Operands.lean -/

theorem setStrand {c t : Nat} {x : Strand} (h : Kept s₀ s) : Kept s₀ (s.setStrand c t x) := h.setCore
theorem setSreg {c t n v : Nat} (h : Kept s₀ s) : Kept s₀ (s.setSreg c t n v) := h.setStrand
theorem wd {i : Issue} {v : Nat} (h : Kept s₀ s) : Kept s₀ (s.wd i v) := h.setSreg
theorem advance {c t : Nat} (h : Kept s₀ s) : Kept s₀ (s.advance c t) := h.setStrand.setCore.addWrap
theorem strEcc {c : Nat} {e : Ecc} (h : Kept s₀ s) : Kept s₀ (s.strEcc c e) := both h.countEv.countEv h.countEv.countEv.fault
theorem vecEcc {c : Nat} {e : Ecc} (h : Kept s₀ s) : Kept s₀ (s.vecEcc c e) := both h.countEv.countEv h.countEv.countEv.fault
theorem strRsvd {c : Nat} (h : Kept s₀ s) : Kept s₀ (s.strRsvd c) := h.countEv
theorem vecRsvd {c : Nat} (h : Kept s₀ s) : Kept s₀ (s.vecRsvd c) := h.countEv
theorem arrRsvd {c : Nat} (h : Kept s₀ s) : Kept s₀ (s.arrRsvd c) := h.countEv

theorem issue {op : Nat} {i : Issue} {ok : Bool} {body : State → State} (h : Kept s₀ s) (hbody : ∀ x0, Kept s₀ x0 → Kept s₀ (body x0)) :
    Kept s₀ (s.issue op i ok body) :=
  both (both (hbody _ h.advance.strEcc) h.advance.strEcc.strRsvd) h

theorem windowWriteBy {c a : Nat} {bytes : List Byte} {pz : Nat → Nat → Bool} (h : Kept s₀ s) : Kept s₀ (s.windowWriteBy c a bytes pz) :=
  both h.writeBy h

theorem windowWrite {c a : Nat} {bytes : List Byte} {pz : List Nat} (h : Kept s₀ s) : Kept s₀ (s.windowWrite c a bytes pz) := h.windowWriteBy
theorem strOow {c n : Nat} (h : Kept s₀ s) : Kept s₀ (s.strOow c n) := h.addSat
theorem oowAccess {c a n : Nat} {write : Bool} (h : Kept s₀ s) : Kept s₀ (s.oowAccess c a n write) := both h.countAccess h.accessDone
theorem corePoison {c : Nat} {p : Bool} (h : Kept s₀ s) : Kept s₀ (s.corePoison c p) := both h.poisoned h
theorem splEcc {c : Nat} {l : List BlockEcc} (h : Kept s₀ s) : Kept s₀ (s.splEcc c l) := h.foldl (fun _ _ => eccBlock)
theorem srDone {c t rm : Nat} (h : Kept s₀ s) : Kept s₀ (s.srDone c t rm) := both h.setStrand h

/-! ### Operations of Machine/Strand.lean -/

theorem alu {op : Nat} {i : Issue} {f : Nat → Nat → Nat} (h : Kept s₀ s) : Kept s₀ (s.alu op i f) := h.issue (fun _ => wd)

theorem aluDiv {op : Nat} {i : Issue} {f : Nat → Nat → Nat} (h : Kept s₀ s) : Kept s₀ (s.aluDiv op i f) :=
  h.issue (fun _ h1 => both h1.wd.addSat h1.wd)

theorem jumpTo {i : Issue} {base : Nat} (h : Kept s₀ s) : Kept s₀ (s.jumpTo i base) := h.setStrand

theorem branch {op : Nat} {i : Issue} {cond : Nat → Nat → Bool} (h : Kept s₀ s) : Kept s₀ (s.branch op i cond) := by
  unfold State.branch
  exact h.issue (fun _ h1 => both h1.jumpTo h1)

theorem sfOp {op : Nat} {i : Issue} {two : Bool} {f : State → Val → Val → Val} (h : Kept s₀ s) : Kept s₀ (s.sfOp op i two f) :=
  h.issue (fun _ h1 => both h1.wd.srDone h1.wd.strRsvd)

theorem endAt {c t : Nat} (h : Kept s₀ s) : Kept s₀ (s.endAt c t) := h.setStrand.setCore
theorem spawn {i : Issue} {pc : Nat} (h : Kept s₀ s) : Kept s₀ (s.spawn i pc) := h.setStrand.setCore

theorem waitIssue {op : WaitOp} {i : Issue} {ok : Bool} (h : Kept s₀ s) : Kept s₀ (s.waitIssue op i ok) :=
  both h.setStrand (h.issue (fun _ h1 => both h1.spawn h1))

/-! ### Operations of Machine/RunAhead.lean -/

theorem askLine {c slot : Nat} {d : FDesc} {l : List (Nat × Nat)} {dst : Nat} (h : Kept s₀ s) : Kept s₀ (s.askLine c slot d dst l).1 := by
  induction l generalizing s dst with
  | nil => exact h
  | cons p t ih => exact ih h.issueOp

theorem pageSizeErr {a agent : Nat} (h : Kept s₀ s) : Kept s₀ (s.pageSizeErr a agent) := both h.countErr h
theorem engineRead {c a n : Nat} {ecc : List BlockEcc} (h : Kept s₀ s) : Kept s₀ (s.engineRead c a n ecc).1 := h.eccAt.touch.pageSizeErr

theorem readParts {c : Nat} {ecc : List BlockEcc} {l : List (Nat × Nat)} (h : Kept s₀ s) : Kept s₀ (s.readParts c ecc l).1 := by
  induction l generalizing s with
  | nil => exact h
  | cons p t ih => exact ih h.engineRead

theorem lineRead {c : Nat} {parts : List (Nat × Nat)} {ecc : List BlockEcc} (h : Kept s₀ s) : Kept s₀ (s.lineRead c parts ecc).1 := by
  unfold State.lineRead
  dsimp only
  exact h.readParts.accessDone

theorem landLine {c slot : Nat} {r : RaSlot} {bytes : List Byte} {pz : List Nat} (h : Kept s₀ s) : Kept s₀ (s.landLine c slot r bytes pz) :=
  addWrap (setCore (both h.windowWrite h.windowWrite.strOow))

theorem landRemote {c slot : Nat} {r : RaSlot} {part : Nat} {x : LineResponse} (h : Kept s₀ s) : Kept s₀ (s.landRemote c slot r part x) := by
  unfold State.landRemote
  split
  · split
    · exact h
    · exact both h.countStatus.retire.landLine h.countStatus.retire.setCore
  · exact h

theorem coreOp {c t : Nat} {d : OpDesc} (h : Kept s₀ s) : Kept s₀ (s.coreOp c t d) := issueOp (both h h.strOow)

theorem rmoOp {op : Nat} {i : Issue} {unord : Bool} (h : Kept s₀ s) : Kept s₀ (s.rmoOp op i unord) := by
  refine both h (h.issue ?_)
  intro _ h1
  dsimp only
  split
  · exact h1.splEcc.strRsvd
  · exact both h1.splEcc.corePoison.strRsvd h1.splEcc.corePoison.coreOp

/-! ### Operations of Machine/Array.lean -/

theorem setArr {c n : Nat} {x : ArrState} (h : Kept s₀ s) : Kept s₀ (s.setArr c n x) := h.setCore
theorem arrEcc {c : Nat} {e : Ecc} (h : Kept s₀ s) : Kept s₀ (s.arrEcc c e) := both h.countEv.countEv h.countEv.countEv.fault
theorem unitOow {c a n : Nat} (h : Kept s₀ s) : Kept s₀ (s.unitOow c a n) := both h h.strOow
theorem loadOow {c : Nat} {j : LoadJob} (h : Kept s₀ s) : Kept s₀ (s.loadOow c j) := h.foldl (fun _ _ => strOow)

theorem startLoad {c n : Nat} (h : Kept s₀ s) : Kept s₀ (s.startLoad c n) := by
  unfold State.startLoad
  dsimp only
  split
  · exact h
  · exact both h h.loadOow.setArr

theorem loadCmd {op : Nat} {i : Issue} (h : Kept s₀ s) : Kept s₀ (s.loadCmd op i) :=
  both h (h.issue (fun _ h1 => both h1.setArr.startLoad h1.arrRsvd))

theorem spoolRow {c a w : Nat} {bytes : List Byte} {pz : List Bool} (h : Kept s₀ s) : Kept s₀ (s.spoolRow c a w bytes pz) :=
  both h.writeBy h.countErr

theorem emitRow {c n : Nat} {d : Drain} {i : Nat} {bytes : List Byte} {pz : List Bool} (h : Kept s₀ s) : Kept s₀ (s.emitRow c n d i bytes pz) :=
  both h.spoolRow (both (both (both h h.arrRsvd) h.issueOp) h)

theorem passCmd {op : Nat} {i : Issue} (h : Kept s₀ s) : Kept s₀ (s.passCmd op i) := by
  unfold State.passCmd
  dsimp only
  refine both h (h.issue ?_)
  intro _ h1
  split
  · exact h1.splEcc.arrRsvd
  · refine both h1.splEcc.corePoison.setArr ?_
    split
    · exact both h1.splEcc.corePoison.arrRsvd.setArr h1.splEcc.corePoison.arrRsvd
    · exact h1.splEcc.corePoison.arrRsvd

theorem readWeft {c n : Nat} (h : Kept s₀ s) : Kept s₀ (s.readWeft c n) := by
  unfold State.readWeft
  dsimp only
  split
  · exact h
  · exact both h h.unitOow.setArr

theorem readWefts {c n k : Nat} (h : Kept s₀ s) : Kept s₀ (s.readWefts c n k) := h.foldl (fun _ _ => readWeft)

theorem release {c n : Nat} {p : PassJob} {v : Weft} {cyc : Nat} (h : Kept s₀ s) : Kept s₀ (s.release c n p v cyc) :=
  h.setArr.startLoad.addWrap.setFld

/-! ### Operations of Machine/VecOps.lean -/

theorem vecNote {c : Nat} {n : VNote} (h : Kept s₀ s) : Kept s₀ (s.vecNote c n) := h.countEv.addSat.addSat.addSat.addSat.countEv
theorem vzero {c n : Nat} {dst : Nat × Nat} (h : Kept s₀ s) : Kept s₀ (s.vzero c n dst) := both h.setCore h.setCore
theorem vzeros {c n : Nat} {dst : List (Nat × Nat)} (h : Kept s₀ s) : Kept s₀ (s.vzeros c n dst) := h.foldl (fun _ _ => vzero)

theorem vec {op : Nat} {i : Issue} {ok : Bool} {ops dst : List (Nat × Nat)} {sd : Bool} {body : State → Nat → State} (h : Kept s₀ s)
    (hbody : ∀ x0 x1, Kept s₀ x0 → Kept s₀ (body x0 x1)) :
    Kept s₀ (s.vec op i ok ops dst sd body) :=
  both (both (both (hbody _ _ (both h.advance.strEcc.vecEcc.addSat h.advance.strEcc.vecEcc)) (vecRsvd
    (both h.advance.strEcc.vecEcc.vzeros.wd h.advance.strEcc.vecEcc.vzeros))) h.advance.strEcc.strRsvd) h

theorem vresult {i : Issue} {w : Nat} {res : List (Nat × VNote × Bool)} (h : Kept s₀ s) : Kept s₀ (s.vresult i w res) :=
  h.setCore.vecNote.corePoison

/-! ### Operations of Machine/VecFloat.lean -/

theorem vf2 {op : Nat} {i : Issue} {f : Val → Val → Val} {note : Val → Val → VNote} (h : Kept s₀ s) : Kept s₀ (s.vf2 op i f note) := by
  unfold State.vf2
  exact h.vec (fun _ _ h1 => h1.vresult.srDone)

theorem vf1 {op : Nat} {i : Issue} {f : Val → Val} {note : Val → VNote} (h : Kept s₀ s) : Kept s₀ (s.vf1 op i f note) := by
  unfold State.vf1
  exact h.vec (fun _ _ h1 => h1.vresult.srDone)

theorem vfn {op : Nat} {i : Issue} {f : Fn} (h : Kept s₀ s) : Kept s₀ (s.vfn op i f) := by
  unfold State.vfn
  exact h.vec (fun _ _ h1 => h1.vresult.srDone)

/-! ### Operations of Machine/CollBase.lean -/

theorem collErr {c code idx chunk : Nat} (h : Kept s₀ s) : Kept s₀ (s.collErr c code idx chunk) := h.countEv.countErr

theorem handTileTo {k : Tile} {o : Option Script} (h : Kept s₀ s) : Kept s₀ (s.handTileTo k o) := by
  unfold State.handTileTo
  split
  · exact h
  · exact both h.collErr (both h.collErr h.setColl)

theorem handTile {k : Tile} (h : Kept s₀ s) : Kept s₀ (s.handTile k) := h.handTileTo

/-! ### Operations of Machine/Update.lean -/

theorem setLedger {c b : Nat} {l : Ledger} (h : Kept s₀ s) : Kept s₀ (s.setLedger c b l) := h.writeMem

theorem unitCount {c : Nat} {write : Bool} {l : List (Nat × Nat)} (h : Kept s₀ s) : Kept s₀ (s.unitCount c write l) :=
  h.foldl (fun _ _ h1 => both h1 h1.accessDone)

theorem unitAsk {l w : List (Nat × Nat)} (h : Kept s₀ s) : Kept s₀ (s.unitAsk l w).1 :=
  both_fst (foldl (h.foldl (fun _ _ => askHost)) (fun _ _ => askHost)) h

theorem updErr {c code block step agent : Nat} (h : Kept s₀ s) : Kept s₀ (s.updErr c code block step agent) := h.countErr
theorem chunkReject {c code : Nat} {k : Chunk} {agent : Nat} (h : Kept s₀ s) : Kept s₀ (s.chunkReject c code k agent) := h.updErr.countEv
theorem queueRepair {c b agent : Nat} (h : Kept s₀ s) : Kept s₀ (s.queueRepair c b agent) := both h (both h.updErr h.setSlice)
theorem taskBlockDone {c b : Nat} {task : Bool} (h : Kept s₀ s) : Kept s₀ (s.taskBlockDone c b task) := both h.setSlice h
theorem chunkDup {c : Nat} {h : HeldChunk} (hs : Kept s₀ s) : Kept s₀ (s.chunkDup c h) := hs.addSat.taskBlockDone
theorem chunkUnavail {c : Nat} {h : HeldChunk} (hs : Kept s₀ s) : Kept s₀ (s.chunkUnavail c h) := both hs.updErr (both hs.countErr hs)

theorem openChunk {c : Nat} {k : Chunk} {gap : Bool} (h : Kept s₀ s) : Kept s₀ (s.openChunk c k gap) := by
  unfold State.openChunk
  refine both (countEv (setLedger ?_)) (setLedger ?_)
  · split
    · exact h.setSlice
    · exact h.setSlice
  · split
    · exact h.setSlice
    · exact h.setSlice

theorem judge {c : Nat} {h : HeldChunk} (hs : Kept s₀ s) : Kept s₀ (s.judge c h).1 := by
  rw [State.judge]
  extract_lets l isOpen start
  have hstart : ∀ gap, Kept s₀ (start gap).1 := by
    intro gap
    simp only [start]
    exact both_fst hs.fst hs.openChunk.fst
  split
  · exact hs.chunkReject
  · split
    · exact hs.chunkReject
    · split
      · exact hs.chunkReject
      · split
        · exact hs.chunkReject
        · split
          · exact hstart _
          · split
            · exact hs.chunkDup
            · exact hstart _
          · split
            · exact hstart _
            · split
              · exact hs.chunkDup
              · exact hs
          · exact hs
          · exact hs.chunkUnavail
          · exact hs.chunkReject

theorem judgeNow {c : Nat} {h : HeldChunk} (hs : Kept s₀ s) : Kept s₀ (s.judgeNow c h).1 := both_fst hs.unitCount.judge hs.unitAsk

theorem chunkArrive {c : Nat} {h : HeldChunk} (hs : Kept s₀ s) : Kept s₀ (s.chunkArrive c h) :=
  both hs.poisoned (both hs.judgeNow.setSlice hs.judgeNow)

theorem judgeHeld {c : Nat} {a l : List HeldChunk} (h : Kept s₀ s) : Kept s₀ (s.judgeHeld c a l) := by
  induction l generalizing s a with
  | nil => unfold State.judgeHeld; exact h
  | cons e t ih =>
    unfold State.judgeHeld
    exact both (ih h.judgeNow) h.judgeNow.setSlice

theorem setBlock {c b : Nat} {o : OpenBlock} (h : Kept s₀ s) : Kept s₀ (s.setBlock c b o) := h.setSlice

theorem closeBlock {c b : Nat} {d : BlockDesc} {o : OpenBlock} (h : Kept s₀ s) : Kept s₀ (s.closeBlock c b d o) := by
  unfold State.closeBlock
  exact h.writeMem.writeMem.setLedger.addWrap.setSlice.update (by rfl)

theorem updTask {c task entry : Nat} (h : Kept s₀ s) : Kept s₀ (s.updTask c task entry) :=
  both h.setSlice.updErr.countEv (h.unitCount.setSlice.foldl (fun _ _ => chunkArrive))

/-! ### Operations of Machine/Coll.lean -/

theorem collCount {c part a n : Nat} {write : Bool} (h : Kept s₀ s) : Kept s₀ (s.collCount c part a n write) := both h h.touch.accessDone
theorem collWrite {c part a w : Nat} {els pz : List Nat} (h : Kept s₀ s) : Kept s₀ (s.collWrite c part a w els pz) := h.collCount.writeMem

theorem scriptBegin {c task arg : Nat} {x : Script} (h : Kept s₀ s) : Kept s₀ (s.scriptBegin c task arg x) :=
  setColl (both (h.foldl (fun _ _ => collCount)) h)

theorem scriptTake {c task idx arg : Nat} {script : Option Script} (h : Kept s₀ s) : Kept s₀ (s.scriptTake c task idx arg script) := by
  unfold State.scriptTake
  split
  · exact h.setColl.collErr
  · exact h.scriptBegin

theorem collTask {c task idx arg : Nat} (h : Kept s₀ s) : Kept s₀ (s.collTask c task idx arg) := both h h.accessDone.scriptTake

theorem deliverMemory {c : Nat} {x : Script} {i : Nat} {k : CChunk} (h : Kept s₀ s) : Kept s₀ (s.deliverMemory c x i k) := by
  unfold State.deliverMemory
  dsimp only
  split
  · exact h.collWrite
  · exact h.foldl (fun _ _ => collWrite)
  · exact h
  · exact h
  · exact h.foldl (fun _ _ h2 => both h2.collWrite h2)
  · exact h.collWrite

theorem deliverBlock {c : Nat} {x : Script} {i : Nat} (h : Kept s₀ s) : Kept s₀ (s.deliverBlock c x i) :=
  both (both h.poisoned h.setColl.addWrap.chunkArrive) h

theorem setChunk {c i : Nat} {k : CChunk} (h : Kept s₀ s) : Kept s₀ (s.setChunk c i k) := h.setColl

theorem sendXfer {c : Nat} {x : Script} {i : Nat} {k : CChunk} {t : Xfer} {h : Nat} (hs : Kept s₀ s) : Kept s₀ (s.sendXfer c x i k t h) :=
  both hs.issueOp.issueOp hs.issueOp

theorem chunkDone {c : Nat} {x : Script} {i : Nat} {k : CChunk} (h : Kept s₀ s) : Kept s₀ (s.chunkDone c x i k) :=
  both h (h.whenWritable (fun _ h1 => both h1.setChunk.addWrap.deliverBlock h1.setChunk.addWrap.deliverMemory))

theorem runChunk {fuel c : Nat} {x : Script} {i : Nat} (h : Kept s₀ s) : Kept s₀ (State.runChunk fuel s c x i) := by
  induction fuel generalizing s with
  | zero => exact h
  | succ n ih =>
    unfold State.runChunk
    split
    · exact h
    · refine both h ?_
      split
      · exact h.chunkDone
      · split
        · split
          · exact h.setChunk.collErr
          · exact ih h.sendXfer.setChunk
        · dsimp only
          split
          · exact h
          · exact both h.setColl.countEv.setChunk.countEv.fault
              (ih h.setColl.countEv.setChunk)

theorem pushChunk {c i : Nat} (h : Kept s₀ s) : Kept s₀ (s.pushChunk c i) := by
  unfold State.pushChunk
  split
  · exact h.runChunk
  · exact h

theorem compareStep (h : Kept s₀ s) : Kept s₀ s.compareStep := by
  unfold State.compareStep
  extract_lets m s1
  have h1 : Kept s₀ s1 := by
    simp only [s1]
    split
    · exact both h.setChunk.pushChunk h
    · exact h
  split
  · exact both (h1.upd (by rfl)) h1
  · exact h1

theorem moveChunk {c i : Nat} (h : Kept s₀ s) : Kept s₀ (s.moveChunk c i) := both h.pushChunk.compareStep h.pushChunk
theorem compareBegin (h : Kept s₀ s) : Kept s₀ s.compareBegin := h.setColl.setChunk.setChunk.moveChunk.moveChunk
theorem accumTile {c : Nat} {x : Script} {i : Nat} {k : Tile} (h : Kept s₀ s) : Kept s₀ (s.accumTile c x i k) := h.foldl (fun _ _ => issueOp)

theorem chunkBegin {c i : Nat} (h : Kept s₀ s) : Kept s₀ (s.chunkBegin c i) := by
  unfold State.chunkBegin
  dsimp only
  split
  · exact h
  · refine both h (both h.setColl.setChunk.moveChunk ?_)
    split
    · exact h
    · exact both h.setColl.setChunk.accumTile h.setColl.setChunk.moveChunk

theorem tileAcked {c i : Nat} (h : Kept s₀ s) : Kept s₀ (s.tileAcked c i) := by
  unfold State.tileAcked
  dsimp only
  split
  · exact both (h.whenReadable (fun _ h3 => h3.collCount.setChunk.moveChunk)) h
  · exact h

theorem chunkStart {c i : Nat} (h : Kept s₀ s) : Kept s₀ (s.chunkStart c i) := by
  unfold State.chunkStart
  split
  · exact both h (both h.tileAcked h.moveChunk)
  · exact h.chunkBegin

theorem rackStray {n : Nat} (h : Kept s₀ s) : Kept s₀ (s.rackStray n) := h.countEv

theorem issueMove {x : Script} {k : Nat} {v : Move} (h : Kept s₀ s) : Kept s₀ (s.issueMove x k v).1 :=
  h.foldl_fst (fun _ _ h1 => both_fst h1 h1.collCount.issueOp)

theorem rackTry (h : Kept s₀ s) : Kept s₀ s.rackTry := by
  unfold State.rackTry
  dsimp only
  split
  · exact both (h.whenReadable (fun _ h2 => h2.whenWritable (fun _ h3 => h3.collCount.writeMem.setColl))) h
  · exact h

theorem rackLanded {k : Nat} (h : Kept s₀ s) : Kept s₀ (s.rackLanded k) :=
  both h (both h.addWrap.rackStray (both h.addWrap.setColl.rackTry h.addWrap.rackStray))

theorem rackBegin {x : Script} (h : Kept s₀ s) : Kept s₀ (s.rackBegin x) :=
  both h.setColl.rackStray.setColl.collErr (both (rackTry (h.setColl.rackStray.foldl_fst (fun _ _ => issueMove))) (collErr (setColl
    (h.setColl.rackStray.foldl_fst (fun _ _ => issueMove)))))

theorem scriptRun {c kind : Nat} (h : Kept s₀ s) : Kept s₀ (s.scriptRun c kind) := by
  unfold State.scriptRun
  dsimp only
  split
  · exact both h (both (both h.rackTry h) (both (h.whenReadable (fun _ => rackBegin)) (h.setColl.foldl (fun _ _ => chunkStart))))
  · exact h

/-! ### Operations of Machine/Matrix.lean -/

theorem mvStatus {c : Nat} {m : MvBlock} {outs : List (EOut × Bool)} (h : Kept s₀ s) : Kept s₀ (s.mvStatus c m outs) :=
  h.foldl (fun _ _ h1 => both (windowWrite (unitOow (both h1.unitOow.windowWrite h1))) (both h1.unitOow.windowWrite h1))

theorem mvRun {c : Nat} {m : MvBlock} {j : MvJob} (h : Kept s₀ s) : Kept s₀ (s.mvRun c m j) :=
  h.unitOow.addWrap.unitOow.windowWriteBy.countEv.addSat.addSat.mvStatus.corePoison

theorem mvStep {c : Nat} {j : MvJob} (h : Kept s₀ s) : Kept s₀ (s.mvStep c j).1 := both_fst h (both_fst (both_fst h.mvRun h) h.mvRun)

theorem mvStart {t : Nat} {i : Issue} {a : Nat} (h : Kept s₀ s) : Kept s₀ (s.mvStart t i a) := by
  unfold State.mvStart
  dsimp only
  split
  · exact h.splEcc.arrRsvd
  · exact both h.splEcc.corePoison.mvStep.setCore h.splEcc.corePoison.windowWrite.arrRsvd

theorem mvDrain {c : Nat} {l : List (Nat × Issue × Nat)} (h : Kept s₀ s) : Kept s₀ (s.mvDrain c l) := by
  induction l generalizing s with
  | nil => exact h.setCore
  | cons e t ih => exact both h.mvStart.setCore (ih h.mvStart)

theorem mvTry {c : Nat} (h : Kept s₀ s) : Kept s₀ (s.mvTry c) := both h.mvDrain h

theorem mvWaited {c cyc : Nat} (h : Kept s₀ s) : Kept s₀ (s.mvWaited c cyc) := by
  unfold State.mvWaited
  split
  · exact h
  · exact h.addSat.setCore

theorem mvRelease {c cyc : Nat} (h : Kept s₀ s) : Kept s₀ (s.mvRelease c cyc) := h.mvWaited.mvTry

theorem mvCmd {op : Nat} {i : Issue} (h : Kept s₀ s) : Kept s₀ (s.mvCmd op i) :=
  both h (h.issue (fun _ h1 => both h1.setCore.mvRelease h1.setCore.mvTry))

theorem landMatrix {c slot a n stall : Nat} {x : LineResponse} (h : Kept s₀ s) : Kept s₀ (s.landMatrix c slot a n stall x) := by
  unfold State.landMatrix
  dsimp only
  split
  · exact h.engineRead.accessDone.addSat.addWrap.setCore
  · exact h.engineRead.accessDone.addSat.addWrap.setCore.mvStep.setCore.mvTry

/-! ### Operations of Machine/Audit.lean -/

theorem setDigestReg {f : Fld} {b : List Byte} (h : Kept s₀ s) : Kept s₀ (s.setDigestReg f b) := h.foldl (fun _ _ => setFld)
theorem hashed {n : Nat} (h : Kept s₀ s) : Kept s₀ (s.hashed n) := h.upd (by rfl)
theorem keepTree {root : Nat} (h : Kept s₀ s) : Kept s₀ (s.keepTree root) := h.writeMem

theorem rehash (h : Kept s₀ s) : Kept s₀ s.rehash := by
  unfold State.rehash
  exact (h.hashed.update (by rfl)).keepTree

theorem whenFree {l w : List (Nat × Nat)} {f : State → State} (h : Kept s₀ s) (hf : ∀ x0, Kept s₀ x0 → Kept s₀ (f x0)) :
    Kept s₀ (s.whenFree l w f) :=
  h.whenReadable (fun _ h2 => h2.whenWritable (fun _ h3 => hf _ h3))

theorem comparePick (h : Kept s₀ s) : Kept s₀ s.comparePick := by
  unfold State.comparePick
  exact (update (rehash (both h.raise h)) (by rfl))

theorem compareResult {flag : Bool} (h : Kept s₀ s) : Kept s₀ (s.compareResult flag) :=
  both (h.upd (by rfl)).addWrap.setFld.addSat.raise.bookPush (h.upd (by rfl)).addWrap.setDigestReg.setDigestReg.addWrap.setFld

theorem sealRun {i : Nat} {q : SealReq} (h : Kept s₀ s) : Kept s₀ (s.sealRun i q) := by
  unfold State.sealRun
  extract_lets code vs record who s1 s2 s3
  have h1 : Kept s₀ s1 := h.accessDone.writeMem.addWrap
  have h2 : Kept s₀ s2 := both h1.hashed (countEv (countErr (both h1.raise h1)))
  have h3 : Kept s₀ s3 := both h2 h2.issueOp
  exact h3.writeMem

theorem sealCommit (h : Kept s₀ s) : Kept s₀ s.sealCommit := by
  unfold State.sealCommit
  exact h.update (by rfl)

theorem sealRestore (h : Kept s₀ s) : Kept s₀ s.sealRestore := writeMem (h.foldl (fun _ _ => writeMem))

theorem rehashBlocks (h : Kept s₀ s) : Kept s₀ s.rehashBlocks := by
  refine h.foldl ?_
  intro _ _ h1
  split
  · exact hashed h1.writeMem
  · exact h1

theorem verifyBegin (h : Kept s₀ s) : Kept s₀ s.verifyBegin := both h (h.upd (by rfl)).setFld

theorem verifyEnd (h : Kept s₀ s) : Kept s₀ s.verifyEnd := by
  unfold State.verifyEnd
  exact raise (both (setDigestReg (setFld (setFld (update (rehash (update (both h.rehashBlocks h) (by rfl))) (by rfl)))))
    (setFld (setFld (update (rehash (update
    (both h.rehashBlocks h) (by rfl))) (by rfl)))))

/-! ### Operations of Machine/Links.lean -/

theorem permStep {h : Nat} (hs : Kept s₀ s) : Kept s₀ (s.permStep h) :=
  both (both hs (both hs.setHeddle.addWrap.sendWaiting hs.threadTo)) (both hs.setHeddle hs)

theorem permSync (h : Kept s₀ s) : Kept s₀ s.permSync := h.foldl (fun _ _ => permStep)

theorem setLinkState {l st : Nat} (h : Kept s₀ s) : Kept s₀ (s.setLinkState l st) := by
  unfold State.setLinkState
  extract_lets old s1 s2 s3 s4
  have h1 : Kept s₀ s1 := h.setFld
  have h2 : Kept s₀ s2 := both h1.addSat.raise h1
  have h3 : Kept s₀ s3 := both h2.raise (both h2.raise (both h2.raise h2))
  have h4 : Kept s₀ s4 := both h3 h3.setLink
  exact both h h4.permSync

theorem linkDown {l : Nat} (h : Kept s₀ s) : Kept s₀ (s.linkDown l) := h.setLinkState
theorem linkTrain {l : Nat} (h : Kept s₀ s) : Kept s₀ (s.linkTrain l) := both h.setLinkState h

theorem linkCommit {l : Nat} {changed : Bool} (h : Kept s₀ s) : Kept s₀ (s.linkCommit l changed) :=
  both (both h h.setLinkState) (both h.setLinkState (both h.setLinkState h.linkTrain))

theorem sendNeg {l : Nat} (h : Kept s₀ s) : Kept s₀ (s.sendNeg l) := h.addWrap.emit
theorem linkJudge {l : Nat} (h : Kept s₀ s) : Kept s₀ (s.linkJudge l) := both h.setFld.setLinkState h.setFld.setLinkState
theorem linkRetry {l n : Nat} (h : Kept s₀ s) : Kept s₀ (s.linkRetry l n) := both h.countEv.setLink.setLinkState h.countEv.setLink
theorem sendRetry {l : Nat} (h : Kept s₀ s) : Kept s₀ (s.sendRetry l) := h.addWrap.emit
theorem flitSeen {l : Nat} {f : Flit} (h : Kept s₀ s) : Kept s₀ (s.flitSeen l f) := addSat (addSat (both h h.addWrap))

theorem forward {l : Nat} {f : Flit} (h : Kept s₀ s) : Kept s₀ (s.forward l f) := by
  unfold State.forward
  split
  · exact h
  · split
    · exact h.countEv
    · exact h.linkSend.emit

theorem resendFlit {l : Nat} {f : Flit} (h : Kept s₀ s) : Kept s₀ (s.resendFlit l f) := h.addWrap.emit
theorem compareGo (h : Kept s₀ s) : Kept s₀ s.compareGo := both h.compareBegin h
theorem countExhaust {k : Nat} (h : Kept s₀ s) : Kept s₀ (s.countExhaust k) := both h (h.upd (by rfl)).addSat.raise

theorem threadFrom {l : List HedRec} {k : Nat} {stuck : List Nat} (h : Kept s₀ s) : Kept s₀ (s.threadFrom l k stuck) := by
  induction l generalizing s k stuck with
  | nil => exact h
  | cons r t ih => exact both (ih h) (both (ih h.beginThread) (both (ih h) (ih h.countExhaust)))

theorem threadSet (h : Kept s₀ s) : Kept s₀ s.threadSet := h.threadFrom

/-! ### Operations of Machine/Cellar.lean -/

theorem setStack {k : Nat} {x : StackState} (h : Kept s₀ s) : Kept s₀ (s.setStack k x) := h.upd (by rfl)
theorem refill {k ns : Nat} (h : Kept s₀ s) : Kept s₀ (s.refill k ns) := h.setStack
theorem stackIssued {k : Nat} {r : DramReq} (h : Kept s₀ s) : Kept s₀ (s.stackIssued k r) := h.setStack

theorem ordinary {k p : Nat} {r : DramReq} {tokensWaiting : Bool} (h : Kept s₀ s) : Kept s₀ (s.ordinary k p r tokensWaiting).1 :=
  both_fst h.stackIssued (both_fst h.setStack.stackIssued (both_fst h h.setStack.addSat))

theorem setEvict {die : Nat} {l : List EvictEntry} (h : Kept s₀ s) : Kept s₀ (s.setEvict die l) := h.upd (by rfl)
theorem setHalf {key : Nat} {l : CacheLine} {half : Nat} {x : Mesi} (h : Kept s₀ s) : Kept s₀ (s.setHalf key l half x) := h.upd (by rfl)
theorem writeBack {die : Nat} {f : Nat → Bool} (h : Kept s₀ s) : Kept s₀ (s.writeBack die f) := (h.upd (by rfl)).addWrap

theorem startFlush {die : Nat} (h : Kept s₀ s) : Kept s₀ (s.startFlush die) := by
  unfold State.startFlush
  exact h.setFld.update (by rfl)

theorem unbind {g bind : Nat} (h : Kept s₀ s) : Kept s₀ (s.unbind g bind) :=
  ⟨h.queue, fun hm => memFold_wf (memFilter_wf (h.mem hm)), h.nor, h.host, h.lock⟩

theorem enterMode {g mode bind : Nat} (h : Kept s₀ s) : Kept s₀ (s.enterMode g mode bind) := by
  unfold State.enterMode
  exact (update (both (h.setGranule.update (by rfl)) h.setGranule) (by rfl))

theorem granCommit {g : Nat} (h : Kept s₀ s) : Kept s₀ (s.granCommit g) := both h (both h (both h.enterMode h.setGranule))
theorem granEdge {g : Nat} (h : Kept s₀ s) : Kept s₀ (s.granEdge g) := both (enterMode (both h.unbind h)) h
theorem granEdges (h : Kept s₀ s) : Kept s₀ s.granEdges := h.foldl (fun _ _ => granEdge)
theorem flushLate (h : Kept s₀ s) : Kept s₀ s.flushLate := both (h.foldl (fun _ _ => raise)) (fault (h.foldl (fun _ _ => raise)))

/-! ### Operations of Machine/Ports.lean -/

theorem txFrames {i n : Nat} (h : Kept s₀ s) : Kept s₀ (s.txFrames i n) := h.addWrap
theorem sendFrame {i kind : Nat} {data : List Byte} (h : Kept s₀ s) : Kept s₀ (s.sendFrame i kind data) := h.txFrames.emit
theorem setPtp {i : Nat} {p : PtpState} (h : Kept s₀ s) : Kept s₀ (s.setPtp i p) := h.upd (by rfl)

theorem syncDone {i t1 t2 : Nat} (h : Kept s₀ s) : Kept s₀ (s.syncDone i t1 t2) := by
  unfold State.syncDone
  exact both (h.setPtp.setFld.setFld.update (by rfl)) h.setPtp.setFld

theorem portDown {i : Nat} (h : Kept s₀ s) : Kept s₀ (s.portDown i) := both h.setFld.setFld.raise h

/-! ### Operations of Machine/Book.lean -/

theorem writeRecord {holdup : Bool} {r : QRec} (h : Kept s₀ s) : Kept s₀ (s.writeRecord holdup r) := h.upd (by rfl)

theorem bookWriteNext {holdup : Bool} (h : Kept s₀ s) : Kept s₀ (s.bookWriteNext holdup) := by
  unfold State.bookWriteNext
  split
  · exact (h.upd (by rfl)).writeRecord
  · exact h

theorem append {pf : Bool} (h : Kept s₀ s) : Kept s₀ (s.append pf) := h.bookPush
theorem resetRec {kind ty inst : Nat} (h : Kept s₀ s) : Kept s₀ (s.resetRec kind ty inst) := h.bookPush
theorem secRec {code : Nat} (h : Kept s₀ s) : Kept s₀ (s.secRec code) := (h.upd (by rfl)).bookPush

/-! ### Operations of Machine/HostQueue.lean -/

theorem hostCount {fn : Nat} {x : Acs} (h : Kept s₀ s) : Kept s₀ (s.hostCount fn x) := h.accessDone

theorem hostWrite {a : Nat} {b : List Byte} {pz : Bool} (h : Kept s₀ s) : Kept s₀ (s.hostWrite a b pz) :=
  ⟨h.queue, h.mem, h.nor, fun hm => memWrite_wf (h.host hm), h.lock⟩

theorem msixUnmask {vec : Nat} (h : Kept s₀ s) : Kept s₀ (s.msixUnmask vec) := both ((h.upd (by rfl)).upd (by rfl)).emit (h.upd (by rfl))
theorem msixWrite {fn off v : Nat} (h : Kept s₀ s) : Kept s₀ (s.msixWrite fn off v) :=
  both h (both (both h.msixUnmask (h.upd (by rfl))) (h.upd (by rfl)))
theorem setQueue {fn q : Nat} {x : QueueState} (h : Kept s₀ s) : Kept s₀ (s.setQueue fn q x) := h.upd (by rfl)
theorem queueCfg {fn q cfg : Nat} (h : Kept s₀ s) : Kept s₀ (s.queueCfg fn q cfg) := both (both h h.setQueue) h.setQueue
theorem cmdErr (h : Kept s₀ s) : Kept s₀ s.cmdErr := h.countEv
theorem sqTailWrite {fn q tail : Nat} (h : Kept s₀ s) : Kept s₀ (s.sqTailWrite fn q tail) := both h.setQueue.cmdErr h.setQueue
theorem cqHeadWrite {fn q head : Nat} (h : Kept s₀ s) : Kept s₀ (s.cqHeadWrite fn q head) := both h.setQueue.cmdErr h.setQueue

theorem queueWrite {fn q off v : Nat} (h : Kept s₀ s) : Kept s₀ (s.queueWrite fn q off v) := by
  unfold State.queueWrite
  dsimp only
  split
  · exact both h h.setQueue
  · exact both h h.setQueue
  · exact both h h.setQueue
  · exact both h h.setQueue
  · exact h.queueCfg
  · exact h.sqTailWrite
  · exact h.cqHeadWrite
  · exact h

theorem bar4Write {fn off size v : Nat} (h : Kept s₀ s) : Kept s₀ (s.bar4Write fn off size v) :=
  both h.emit (both h.hostCount (both h (both (both (msixWrite (both h.msixWrite (both h.queueWrite h))) (both (queueWrite (both h.msixWrite
    (both h.queueWrite h))) (both h.msixWrite (both h.queueWrite h)))) (both (both h.msixWrite (both h.queueWrite h)) h))))

theorem queueGate {fn q : Nat} {act : State → State} (h : Kept s₀ s) (hact : ∀ t, Kept s₀ t → Kept s₀ (act t)) : Kept s₀ (s.queueGate fn q act) :=
  both (both h.hostCount (hact _ h)) h

theorem cmdDone {fn q : Nat} {c : QCmd} {status info : Nat} (h : Kept s₀ s) : Kept s₀ (s.cmdDone fn q c status info) := h.setQueue

theorem queueCmd {fn q opc : Nat} {body : QCmd → State} (h : Kept s₀ s) (hbody : ∀ x0, Kept s₀ (body x0)) : Kept s₀ (s.queueCmd fn q opc body) := by
  unfold State.queueCmd
  split
  · exact h
  · exact both h.cmdDone (both h (hbody _))

theorem devSide {fn q : Nat} {c : QCmd} {write : Bool} {go : State → State} (h : Kept s₀ s) (hgo : ∀ t, Kept s₀ t → Kept s₀ (go t)) :
    Kept s₀ (s.devSide fn q c write go) :=
  both h.askHost (both (hgo _ h.hostCount.touch) (cmdDone (hgo _ h.hostCount.touch)))

theorem wordCmd {fn q : Nat} {c : QCmd} {write : Bool} {go : State → State} (h : Kept s₀ s) (hgo : ∀ t, Kept s₀ t → Kept s₀ (go t)) :
    Kept s₀ (s.wordCmd fn q c write go) :=
  both (h.devSide (fun _ h2 => hgo _ h2)) h.hostCount.cmdDone

theorem stopQueues {f : Nat → Bool} (h : Kept s₀ s) : Kept s₀ (s.stopQueues f) := h.upd (by rfl)
theorem resetQueues {f : Nat → Bool} (h : Kept s₀ s) : Kept s₀ (s.resetQueues f) := h.upd (by rfl)
theorem linkDownHost (h : Kept s₀ s) : Kept s₀ s.linkDownHost := both h.setFld.stopQueues.raise h
theorem flrRegs (h : Kept s₀ s) : Kept s₀ s.flrRegs :=
  foldl (foldl (h.foldl (fun _ _ h1 => h1.upd (by rfl))) (fun _ _ h1 => h1.upd (by rfl))) (fun _ _ h1 => h1.upd (by rfl))

/-! ### Operations of Machine/Solver.lean -/

theorem solvCount {e part a n : Nat} {write : Bool} (h : Kept s₀ s) : Kept s₀ (s.solvCount e part a n write) := both h h.touch.accessDone
theorem solvWrite {e part a : Nat} {b : List Byte} (h : Kept s₀ s) : Kept s₀ (s.solvWrite e part a b) := h.solvCount.writeMem
theorem holdPath {e : Nat} {d : SolveDesc} (h : Kept s₀ s) : Kept s₀ (s.holdPath e d) := h.setCore

theorem solveEnd {e ns : Nat} {d : SolveDesc} {o : SolveOut} (h : Kept s₀ s) : Kept s₀ (s.solveEnd e ns d o) := by
  unfold State.solveEnd
  extract_lets part m s1 s2 s3 t s4 s5 s6 s7
  have h1 : Kept s₀ s1 := both h h.solvWrite
  have h3 : Kept s₀ s3 := addWrap (both h1 h1.issueOp)
  have ht : Kept s₀ t := h3.countEv
  have h4 : Kept s₀ s4 :=
    both h3.addSat (both h3.addSat (both (both ht.cause ht) h3.countEv))
  have h5 : Kept s₀ s5 := both h4.countEv h4
  have h6 : Kept s₀ s6 := h5.addWrap.setFld
  have h7 : Kept s₀ s7 := both h6.countErr (both h6.poisoned h6)
  exact h7.releasePath.setSolver

theorem solvEcc {e : Nat} {x : Ecc} (h : Kept s₀ s) : Kept s₀ (s.solvEcc e x) := h.countEv.countEv
theorem storeFactor {e : Nat} {f : Factored} (h : Kept s₀ s) : Kept s₀ (s.storeFactor e f) := h.setSolver

theorem qpOutputs {e ns : Nat} {d : SolveDesc} {key : List Byte} {cls : List RowClass} {size : Nat} {xbar : List Val} {q : QpData} {r : QpEnd}
    (h : Kept s₀ s) :
    Kept s₀ (s.qpOutputs e ns d key cls size xbar q r) := by
  refine solveEnd (both (solvWrite (solvWrite (both (solvWrite (solvWrite ?_)) ?_))) (solvWrite (both (solvWrite (solvWrite ?_)) ?_)))
  · split
    · exact h.storeFactor
    · exact h
  · split
    · exact h.storeFactor
    · exact h
  · split
    · exact h.storeFactor
    · exact h
  · split
    · exact h.storeFactor
    · exact h

theorem qpRun {e ns : Nat} {d : SolveDesc} {key : List Byte} {cls : List RowClass} {size : Nat} (h : Kept s₀ s) :
    Kept s₀ (s.qpRun e ns d key cls size) :=
  both h.solveEnd (both h.solveEnd (both h.solveEnd h.qpOutputs))

theorem adjRun {e ns : Nat} {d : SolveDesc} {key : List Byte} {cls : List RowClass} {size : Nat} (h : Kept s₀ s) :
    Kept s₀ (s.adjRun e ns d key cls size) :=
  both h.solveEnd h.storeFactor.solvWrite.solveEnd

theorem linRun {e ns : Nat} {d : SolveDesc} {key : List Byte} {size : Nat} (h : Kept s₀ s) : Kept s₀ (s.linRun e ns d key size) :=
  solveEnd (both h.solvWrite.solvWrite h.solvWrite)

theorem solveRun {e ns : Nat} {b : List Byte} {x : Ecc} (h : Kept s₀ s) : Kept s₀ (s.solveRun e ns b x) := by
  refine both (solveEnd (solvEcc (h.holdPath.foldl (fun _ _ => solvCount)))) ?_
  split
  · exact adjRun (solvEcc (h.holdPath.foldl (fun _ _ => solvCount)))
  · exact linRun (solvEcc (h.holdPath.foldl (fun _ _ => solvCount)))
  · exact linRun (solvEcc (h.holdPath.foldl (fun _ _ => solvCount)))
  · exact qpRun (solvEcc (h.holdPath.foldl (fun _ _ => solvCount)))

theorem solveBegin {e ns : Nat} {b : List Byte} {x : Ecc} (h : Kept s₀ s) : Kept s₀ (s.solveBegin e ns b x) :=
  both h.solveEnd (both h.solvCount.solveEnd (both h.solvCount.setSolver (both h.solvCount (h.solvCount.whenReadable (fun _ => solveRun)))))

theorem solveCmd {e ns kind : Nat} {x : Ecc} (h : Kept s₀ s) : Kept s₀ (s.solveCmd e ns kind x) :=
  both h (h.whenReadable (fun _ h1 => both h1 (both h1.solvCount.solveEnd (both h1.solvCount.solveEnd (h1.solvCount.whenReadable
    (fun _ => solveBegin))))))

theorem solvTask {e task entry arg ns : Nat} (h : Kept s₀ s) : Kept s₀ (s.solvTask e task entry arg ns) := h.setSolver

/-! ### Operations of Machine/Trellis.lean -/

theorem setSession {id : Nat} {x : Session} (h : Kept s₀ s) : Kept s₀ (s.setSession id x) := h.upd (by rfl)
theorem authFail {port : Nat} (h : Kept s₀ s) : Kept s₀ (s.authFail port) := h.countEv

theorem closeSession {id : Nat} (h : Kept s₀ s) : Kept s₀ (s.closeSession id) := by
  unfold State.closeSession
  split
  · exact h
  · extract_lets s1
    have h1 : Kept s₀ s1 := by
      simp only [s1]
      split
      · exact h.txFrames.emit
      · exact h
    exact h1.update (by rfl)

theorem closeSessions {f : Session → Bool} (h : Kept s₀ s) : Kept s₀ (s.closeSessions f) := h.foldl (fun _ _ => closeSession)

theorem sendRecords {id n : Nat} {m : Msg} (h : Kept s₀ s) : Kept s₀ (s.sendRecords id n m) := by
  unfold State.sendRecords
  split
  · exact h
  · split
    · exact h
    · exact both h.setSession.txFrames.emit.closeSession h.setSession.txFrames.emit

theorem sendReply {id sub seq status run : Nat} {body : List Byte} (h : Kept s₀ s) : Kept s₀ (s.sendReply id sub seq status run body) :=
  h.sendRecords

theorem refuse {src : NetAddr} {hs reason : Nat} (h : Kept s₀ s) : Kept s₀ (s.refuse src hs reason) := h.txFrames.emit.countEv

theorem judgeOpen {src : NetAddr} {hs : Nat} {body : List Byte} (h : Kept s₀ s) : Kept s₀ (s.judgeOpen src hs body) := by
  unfold State.judgeOpen
  refine both h.refuse (both h.countEv.refuse ?_)
  dsimp only
  split
  · exact both (refuse (both h h.addSat)) (emit (txFrames (setSession (update (setHeddle (threadTo (update (both h h.addSat) (by rfl)))) (by rfl)))))
  · exact refuse (both h h.addSat)

theorem writeBatch {p v : Nat} {l : Layout} (h : Kept s₀ s) : Kept s₀ (s.writeBatch p v l) :=
  foldl (h.writeMem.foldl (fun _ _ h1 => both h1.writeMem.writeMem.writeMem.writeMem h1.writeMem.writeMem)) (fun _ _ h1 => writeMem
    (both h1.writeMem h1))

theorem startBatches {v : Nat} (h : Kept s₀ s) : Kept s₀ (s.startBatches v) := (h.foldl (fun _ _ => writeBatch)).upd (by rfl)

theorem replyNow {id : Nat} {x : Session} {r : Request} {status : Nat} (h : Kept s₀ s) : Kept s₀ (s.replyNow id x r status) :=
  h.setSession.addWrap.sendReply

theorem newRequest {id : Nat} {x : Session} {op : Nat} {r : Request} (h : Kept s₀ s) : Kept s₀ (s.newRequest id x op r) := by
  unfold State.newRequest
  exact both h.replyNow (both h.replyNow.countEv (both h.addSat.sendReply (both (h.setSession.addWrap.update (by rfl))
    (h.setSession.addWrap.update (by rfl)))))

theorem wakeRequest (h : Kept s₀ s) : Kept s₀ s.wakeRequest := by
  refine both ?_ h
  split
  · exact h.upd (by rfl)
  · exact h.setFld
  · exact h

theorem judgeRequest {op : Nat} {r : Request} (h : Kept s₀ s) : Kept s₀ (s.judgeRequest op r) := by
  have hw := h.wakeRequest
  unfold State.judgeRequest
  extract_lets id q
  split
  · exact h
  · extract_lets x s0 c
    have h0 : Kept s₀ s0 := hw.setSession
    refine both hw.addSat.sendReply ?_
    split
    · exact h0.newRequest
    · refine both h0.newRequest (both h0.sendReply (both h0.newRequest ?_))
      split
      · exact h0.addSat.sendReply
      · exact h0.addSat

theorem releaseOne {p v e k : Nat} {q : PendReq} (h : Kept s₀ s) : Kept s₀ (s.releaseOne p v e k q) := by
  unfold State.releaseOne
  split
  · exact h
  · exact sendReply (setSession (both h.countEv (both h.countEv h)))

theorem releaseReplies {v e : Nat} (h : Kept s₀ s) : Kept s₀ (s.releaseReplies v e) :=
  (h.foldl (fun _ _ h1 => h1.foldl (fun _ _ => releaseOne))).upd (by rfl)

/-! ### Operations of Machine/Reset.lean -/

theorem resetAll (h : Kept s₀ s) : Kept s₀ s.resetAll := ⟨h.queue, fun _ => rfl, h.nor, h.host, fun _ => rfl⟩

theorem freeBytes {a n : Nat} (h : Kept s₀ s) : Kept s₀ (s.freeBytes a n) := by
  unfold State.freeBytes
  dsimp only
  split
  · exact ⟨h.queue, h.mem, h.nor, fun hm => memWrite_wf (h.host hm), h.lock⟩
  · exact ⟨h.queue, fun hm => memWrite_wf (h.mem hm), h.nor, h.host, h.lock⟩

theorem loseDirty (h : Kept s₀ s) : Kept s₀ s.loseDirty := h.foldl (fun _ _ => freeBytes)

theorem warmReset (h : Kept s₀ s) : Kept s₀ s.warmReset := by
  have hd := h.loseDirty
  have hr := hd.resetAll
  exact resetRec ⟨hr.queue, fun hm => memFilter_wf (hd.mem hm), hr.nor, hr.host, hr.lock⟩

theorem coldReset (h : Kept s₀ s) : Kept s₀ s.coldReset := h.resetAll.upd (by rfl)
theorem askWarm (h : Kept s₀ s) : Kept s₀ s.askWarm := both h (both (h.upd (by rfl)) h.warmReset)
theorem setTemp {die : Nat} {t : Int} (h : Kept s₀ s) : Kept s₀ (s.setTemp die t) := h.upd (by rfl)
theorem abandon (h : Kept s₀ s) : Kept s₀ s.abandon := h.upd (by rfl)

theorem partReset {p : Nat} (h : Kept s₀ s) : Kept s₀ (s.partReset p) :=
  resetRec (((h.closeSessions.resetQueues.foldl (fun _ _ h1 => h1.releasePath.setSolver)).upd (by rfl)))

theorem mgmtRestart (h : Kept s₀ s) : Kept s₀ s.mgmtRestart := (h.closeSessions.setFld.setFld.upd (by rfl)).resetRec

/-! ### Operations of Machine/Source.lean -/

theorem sourceLost (h : Kept s₀ s) : Kept s₀ s.sourceLost := both h (both h.setFld h.setFld.setFld.setFld.raise)
theorem pickSetApply {code : Nat} (h : Kept s₀ s) : Kept s₀ (s.pickSetApply code) := both (h.upd (by rfl)) h.countErr

/-! ### Operations of Machine/Power.lean -/

theorem applyEnvelope (h : Kept s₀ s) : Kept s₀ s.applyEnvelope := h.upd (by rfl)
theorem setAlert (h : Kept s₀ s) : Kept s₀ s.setAlert := h.upd (by rfl)
theorem setPwrState {k : Nat} (h : Kept s₀ s) : Kept s₀ (s.setPwrState k) := h.setFld

theorem releaseSag {duration outcome : Nat} (h : Kept s₀ s) : Kept s₀ (s.releaseSag duration outcome) := by
  unfold State.releaseSag
  split
  · exact h
  · exact h.upd (by rfl)

theorem sagBegin {vin ns : Nat} (h : Kept s₀ s) : Kept s₀ (s.sagBegin vin ns) := (h.upd (by rfl)).countEv.setAlert.bookPush

theorem flushBook {n : Nat} (h : Kept s₀ s) : Kept s₀ (s.flushBook n) := by
  induction n generalizing s with
  | zero => exact h
  | succ n ih => exact both h (ih h.bookWriteNext)

theorem loss {writable : Nat} (h : Kept s₀ s) : Kept s₀ (s.loss writable) :=
  (h.releaseSag.coldReset.flushBook.upd (by rfl)).countEv.writeRecord.setFld
theorem thermalRec {kind die : Nat} {temp : Int} (h : Kept s₀ s) : Kept s₀ (s.thermalRec kind die temp) := h.bookPush

theorem shutdown (h : Kept s₀ s) : Kept s₀ s.shutdown := by
  unfold State.shutdown
  exact h.abandon.modPick.setPwrState.update (by rfl)

theorem dormEnter {code : Nat} (h : Kept s₀ s) : Kept s₀ (s.dormEnter code) := by
  unfold State.dormEnter
  exact both h.countErr ((h.setPwrState.setFld.update (by rfl)).foldl (fun _ _ h1 => h1.foldl (fun _ _ => backSnoop)))

theorem wakeStart (h : Kept s₀ s) : Kept s₀ s.wakeStart := h.setPwrState
theorem wake (h : Kept s₀ s) : Kept s₀ s.wake := both h.wakeStart (both (h.upd (by rfl)) h)
theorem loseCores (h : Kept s₀ s) : Kept s₀ s.loseCores := ⟨h.queue, fun hm => memFilter_wf (h.mem hm), h.nor, h.host, h.lock⟩
theorem wakeReg (h : Kept s₀ s) : Kept s₀ s.wakeReg := both h.wake.setFld h.wake

/-! ### Operations of Machine/Commit.lean -/

theorem resulting {pages : List (Nat × Nat)} (h : Kept s₀ s) : Kept s₀ (s.resulting pages) := h.upd (by rfl)
theorem commitRec {a : Armed} (h : Kept s₀ s) : Kept s₀ (s.commitRec a) := h.bookPush
theorem setCommit {st reason : Nat} (h : Kept s₀ s) : Kept s₀ (s.setCommit st reason) := h.setFld.setFld

theorem commitReject {a : Armed} {reason : Nat} {p : Nat × Nat} (h : Kept s₀ s) : Kept s₀ (s.commitReject a reason p) :=
  commitRec ((h.upd (by rfl)).setCommit.setFld.setFld.foldl (fun _ _ => raise))

theorem arm {code : Nat} (h : Kept s₀ s) : Kept s₀ (s.arm code) := by
  refine both h.countErr (both h.setCommit.raise ?_)
  dsimp only
  split
  · exact h.commitReject
  · exact (h.upd (by rfl)).setCommit

theorem cancel (h : Kept s₀ s) : Kept s₀ s.cancel := by
  unfold State.cancel
  split
  · exact h
  · exact both (h.upd (by rfl)).setCommit.raise.commitRec h

theorem sourceCommit {changed : List Nat} (h : Kept s₀ s) : Kept s₀ (s.sourceCommit changed) := both h.setFld.setFld.setFld.modPick h

theorem commitUnits {changed : List Nat} (h : Kept s₀ s) : Kept s₀ (s.commitUnits changed) :=
  permSync (stopQueues (closeSessions (foldl (h.sourceCommit.applyEnvelope.foldl (fun _ _ => linkCommit)) (fun _ _ => granCommit))))

theorem commitApply {a : Armed} (h : Kept s₀ s) : Kept s₀ (s.commitApply a) := by
  unfold State.commitApply
  exact commitUnits (commitRec (setCommit (foldl (both (setFld ((h.resulting.update (by rfl)).foldl (fun _ _ => setFld)))
    ((h.resulting.update (by rfl)).foldl
    (fun _ _ => setFld))) (fun _ _ => raise))))

theorem commitEdge (h : Kept s₀ s) : Kept s₀ s.commitEdge := by
  unfold State.commitEdge
  split
  · exact h
  · refine both h ?_
    split
    · exact h.commitReject
    · exact h.commitApply

/-! ### Operations of Machine/Counters.lean -/

theorem coreClr {i : Nat} (h : Kept s₀ s) : Kept s₀ (s.coreClr i) := h.clearRange
theorem epiClr {i : Nat} (h : Kept s₀ s) : Kept s₀ (s.epiClr i) := h.clearRange

theorem vecCoin {i k : Nat} (h : Kept s₀ s) : Kept s₀ (s.vecCoin i k) := by
  unfold State.vecCoin
  split
  · exact h
  · refine both (fault ?_) ?_
    · split
      · exact h.setFld.raise
      · exact h.setFld
    · split
      · exact h.setFld.raise
      · exact h.setFld

theorem vecClr {i : Nat} {coin : List Nat} (h : Kept s₀ s) : Kept s₀ (s.vecClr i coin) := h.clearRange.foldl (fun _ _ => vecCoin)
theorem strClr {i : Nat} (h : Kept s₀ s) : Kept s₀ (s.strClr i) := h.clearRange
theorem solvClr {i : Nat} (h : Kept s₀ s) : Kept s₀ (s.solvClr i) := h.clearRange
theorem dieClr {i : Nat} (h : Kept s₀ s) : Kept s₀ (s.dieClr i) := h.clearRange
theorem celClr {i : Nat} (h : Kept s₀ s) : Kept s₀ (s.celClr i) := h.clearRange

theorem stkClr {i : Nat} (h : Kept s₀ s) : Kept s₀ (s.stkClr i) := by
  unfold State.stkClr
  exact h.clearRange.clearRange.update (by rfl)

theorem updClr {i : Nat} (h : Kept s₀ s) : Kept s₀ (s.updClr i) := h.clearRange
theorem linkClr {i : Nat} (h : Kept s₀ s) : Kept s₀ (s.linkClr i) := h.clearRange
theorem hedClr (h : Kept s₀ s) : Kept s₀ s.hedClr := h.clearRange
theorem collClr {i : Nat} (h : Kept s₀ s) : Kept s₀ (s.collClr i) := h.clearRange

theorem audClr (h : Kept s₀ s) : Kept s₀ s.audClr := by
  unfold State.audClr
  exact h.clearRange.update (by rfl)

theorem portClr {i : Nat} (h : Kept s₀ s) : Kept s₀ (s.portClr i) := h.clearRange
theorem trClr (h : Kept s₀ s) : Kept s₀ s.trClr := h.clearRange
theorem hostClr (h : Kept s₀ s) : Kept s₀ s.hostClr := h.clearRange
theorem mgmtClr (h : Kept s₀ s) : Kept s₀ s.mgmtClr := h.clearRange
theorem secClr (h : Kept s₀ s) : Kept s₀ s.secClr := h.clearRange.clearRange
theorem bookClr (h : Kept s₀ s) : Kept s₀ s.bookClr := h.clearRange
theorem pwrClr (h : Kept s₀ s) : Kept s₀ s.pwrClr := h.clearRange.clearRange

/-! ### Operations of Machine/Boot.lean -/

theorem bootRec {slot result svn seq : Nat} (h : Kept s₀ s) : Kept s₀ (s.bootRec slot result svn seq) := h.bookPush

theorem startSlot {slot : Nat} {h : SlotHdr} {second : Bool} (hs : Kept s₀ s) : Kept s₀ (s.startSlot slot h second) := by
  unfold State.startSlot
  exact (hs.bootRec.setFld.setFld.setFld.setFld.setFld.update (by rfl)).raiseIf

theorem trySlots {l : List Nat} {second : Bool} (h : Kept s₀ s) : Kept s₀ (s.trySlots l second) := by
  induction l generalizing s second with
  | nil =>
    unfold State.trySlots
    exact h.bootRec.setFld.setFld
  | cons k t ih =>
    unfold State.trySlots
    exact both (both (ih h.secRec) h.startSlot) (ih h)

theorem boot (h : Kept s₀ s) : Kept s₀ s.boot := by
  unfold State.boot
  dsimp only
  refine trySlots (update ?_ (by rfl))
  split
  · exact (h.update (by rfl)).resetRec
  · exact h

theorem bootDone {x : Access} (h : Kept s₀ s) : Kept s₀ (s.bootDone x) := by
  have hf := setFld (f := F.MGMT_MGMT_STAT_BOOT_STATE) (i := 0) (v := 2) h
  unfold State.bootDone
  exact both ⟨hf.queue, hf.mem, hf.nor, hf.host, fun _ => rfl⟩ h.countErr

theorem partResets {mask : Nat} (h : Kept s₀ s) : Kept s₀ (s.partResets mask) := h.foldl (fun _ _ => partReset)
theorem kick (h : Kept s₀ s) : Kept s₀ s.kick := h.upd (by rfl)
theorem arbReached (h : Kept s₀ s) : Kept s₀ s.arbReached := both (h.upd (by rfl)).raise.secRec h
theorem arbAdvance {x : Access} {v : Nat} (h : Kept s₀ s) : Kept s₀ (s.arbAdvance x v) := both h.countErr (both h (h.upd (by rfl)).arbReached)

theorem keyRevoke {x : Access} {mask : Nat} (h : Kept s₀ s) : Kept s₀ (s.keyRevoke x mask) :=
  both h (both h.countErr (h.foldl (fun _ _ h1 => both h1 (h1.upd (by rfl)).raise.secRec)))

/-! ### Operations of Machine/RegView.lean -/

theorem regRead {x : Access} {addr size : Nat} (h : Kept s₀ s) : Kept s₀ (s.regRead x addr size).1 := both_fst h.countGate (both_fst h.countErr h)

/-! ### Operations of Machine/RepairBase.lean -/

theorem setRepair {c : Nat} {r : Option Repair} (h : Kept s₀ s) : Kept s₀ (s.setRepair c r) := h.setSlice
theorem repairSend {c hid dev : Nat} {data : List Byte} {m : RepairOp} (h : Kept s₀ s) : Kept s₀ (s.repairSend c hid dev data m) := h.issueOp
theorem repairAskOn {c hid dev : Nat} {r : Repair} (h : Kept s₀ s) : Kept s₀ (s.repairAskOn c hid dev r) := h.setRepair.repairSend

theorem askReplica {c : Nat} {d : BlockDesc} {r : Repair} {dev : Nat} (h : Kept s₀ s) : Kept s₀ (s.askReplica c d r dev) := by
  unfold State.askReplica
  split
  · exact both h.repairAskOn h.setRepair
  · split
    · exact both h.beginThread.setRepair h.setRepair
    · exact h.setRepair

theorem repairRetry {c : Nat} (h : Kept s₀ s) : Kept s₀ (s.repairRetry c) := by
  unfold State.repairRetry
  split
  · refine both h ?_
    split
    · exact h.askReplica
    · exact h
  · exact h

theorem repairRetryAll (h : Kept s₀ s) : Kept s₀ s.repairRetryAll := h.foldl (fun _ _ => repairRetry)

theorem repairBegin {c : Nat} {r : Repair} {d : BlockDesc} {rest : List (Nat × Nat)} (h : Kept s₀ s) : Kept s₀ (s.repairBegin c r d rest) := by
  unfold State.repairBegin
  exact h.setSlice.setLedger.update (by rfl)

theorem repairRec {c block result idx dev ns : Nat} (h : Kept s₀ s) : Kept s₀ (s.repairRec c block result idx dev ns) := h.bookPush
theorem repairShow {c block result ns : Nat} (h : Kept s₀ s) : Kept s₀ (s.repairShow c block result ns) := h.setFld.setFld.setFld

theorem unavailable {c : Nat} {r : Repair} {ranges : List (Nat × Nat)} {dev ns : Nat} (h : Kept s₀ s) :
    Kept s₀ (s.unavailable c r ranges dev ns) := by
  unfold State.unavailable
  exact (h.setRepair.setLedger.update (by rfl)).countEv.repairShow.repairRec

theorem repairRun {c : Nat} {l : List (Nat × Nat)} (h : Kept s₀ s) : Kept s₀ (s.repairRun c l) := by
  induction l generalizing s with
  | nil => exact h.setSlice
  | cons e t ih =>
    unfold State.repairRun
    split
    · exact ih h.updErr
    · dsimp only
      split
      · exact ih h.repairBegin.unavailable
      · exact h.repairBegin.askReplica

theorem repairStart {c : Nat} (h : Kept s₀ s) : Kept s₀ (s.repairStart c) := both h h.repairRun

theorem repairRelease {r : Repair} (h : Kept s₀ s) : Kept s₀ (s.repairRelease r) := by
  unfold State.repairRelease
  split
  · exact h.dropRepairOps.beginRelease
  · exact h

theorem repairPass {c : Nat} {r : Repair} {ns : Nat} (h : Kept s₀ s) : Kept s₀ (s.repairPass c r ns) := by
  unfold State.repairPass
  dsimp only
  split
  · exact h.repairRelease.unavailable.repairStart
  · split
    · exact h.repairRelease.unavailable.repairStart
    · exact h.repairRelease.askReplica

theorem repairAsk {c b agent : Nat} (h : Kept s₀ s) : Kept s₀ (s.repairAsk c b agent) := both h.updErr (both h.updErr h.queueRepair.repairStart)

theorem updEcc {c b : Nat} {e : UpdEcc} (h : Kept s₀ s) : Kept s₀ (s.updEcc c b e) :=
  both h.countEv.countEv (repairStart (h.countEv.countEv.foldl (fun _ _ h1 => both h1.queueRepair h1)))

theorem groupStart {c b g : Nat} {d : BlockDesc} {o : OpenBlock} (h : Kept s₀ s) : Kept s₀ (s.groupStart c b g d o) := by
  refine both h.raise.fault.queueRepair.repairStart ?_
  split
  · exact h.setBlock.countEv
  · exact h

theorem groupDone {c b : Nat} {d : BlockDesc} {o : OpenBlock} (h : Kept s₀ s) : Kept s₀ (s.groupDone c b d o) :=
  both (both h.unitCount.unitCount.closeBlock h.unitAsk) h.setBlock

theorem creditBack {h : Nat} {rep : Bool} (hs : Kept s₀ s) : Kept s₀ (s.creditBack h rep) := both hs hs.setHeddle.sendFlits
theorem creditsBack (h : Kept s₀ s) : Kept s₀ s.creditsBack := both h (h.foldl (fun _ _ h1 => h1.creditBack.creditBack))
theorem repairRefuse {c hid dev block : Nat} (h : Kept s₀ s) : Kept s₀ (s.repairRefuse c hid dev block) := h.repairSend

theorem repairRequested {c hid dev b target : Nat} (h : Kept s₀ s) : Kept s₀ (s.repairRequested c hid dev b target) :=
  both h.repairRefuse h.setSlice

theorem writeFull {a : Nat} {bytes : List Byte} (h : Kept s₀ s) : Kept s₀ (s.writeFull a bytes) := h.writeMem

theorem repairLanded {c dev step origin : Nat} {state scales digest : List Byte} {ns : Nat} (h : Kept s₀ s) :
    Kept s₀ (s.repairLanded c dev step origin state scales digest ns) := by
  unfold State.repairLanded
  split
  · exact h
  · exact h.repairPass
  · split
    · exact h.repairPass
    · exact both (setRepair (h.unitCount.foldl (fun _ _ => writeFull))) h.repairPass

theorem repairRefused {c dev ns : Nat} (h : Kept s₀ s) : Kept s₀ (s.repairRefused c dev ns) := by
  unfold State.repairRefused
  split
  · exact h.repairPass
  · exact h

theorem repairLand {dev hid : Nat} {m : RepairMsg} (h : Kept s₀ s) : Kept s₀ (s.repairLand dev hid m) := by
  unfold State.repairLand
  split
  · exact h.repairRequested
  · exact h.repairLanded
  · exact h.repairRefused

/-! ### Operations of Machine/Registers.lean -/

theorem evtSet {ty i v : Nat} (h : Kept s₀ s) : Kept s₀ (s.evtSet ty i v) := h.foldl (fun _ _ => raise)
theorem evtClear {ty i mask hw : Nat} (h : Kept s₀ s) : Kept s₀ (s.evtClear ty i mask hw) := h.setFld.evtSet
theorem evtEnable {ty i v : Nat} (h : Kept s₀ s) : Kept s₀ (s.evtEnable ty i v) := h.setFld.foldl (fun _ _ => redeliver)

theorem dropRepairFence {c : Nat} (h : Kept s₀ s) : Kept s₀ (s.dropRepairFence c) := by
  unfold State.dropRepairFence
  split
  · exact h.upd (by rfl)
  · exact h

theorem softReset {ty i : Nat} (h : Kept s₀ s) : Kept s₀ (s.softReset ty i) :=
  both (resetRec (((both h.setCore (both h.releasePath.setSolver (both h.dropRepairFence.setSlice h.setColl))).upd (by rfl)))) h

theorem onBit {v b : Nat} {f : State → State} (h : Kept s₀ s) (hf : ∀ t, Kept s₀ t → Kept s₀ (f t)) : Kept s₀ (s.onBit v b f) :=
  both (hf _ h) h

theorem blockAct {x : Access} {ty i off v : Nat} (h : Kept s₀ s) : Kept s₀ (s.blockAct x ty i off v) := by
  unfold State.blockAct
  split
  · exact onBit (h.onBit (fun _ => arm)) (fun _ => cancel)
  · exact h.onBit (fun _ => coreClr)
  · exact h.onBit (fun _ => epiClr)
  · exact h.onBit (fun _ => vecClr)
  · exact h.onBit (fun _ => strClr)
  · exact h.onBit (fun _ => dieClr)
  · exact h.onBit (fun _ => startFlush)
  · exact h.onBit (fun _ => celClr)
  · exact h.onBit (fun _ => stkClr)
  · exact h.onBit (fun _ => solvClr)
  · exact h.repairAsk
  · exact h.onBit (fun _ => updClr)
  · exact h.onBit (fun _ => collClr)
  · exact h.onBit (fun _ => linkClr)
  · exact h.onBit (fun _ => hedClr)
  · exact h.onBit (fun _ => hostClr)
  · exact h.onBit (fun _ => portClr)
  · exact h.onBit (fun _ => trClr)
  · exact h.onBit (fun _ => pickSetApply)
  · exact h.onBit (fun _ => verifyBegin)
  · exact h.onBit (fun _ => audClr)
  · exact onBit (h.onBit (fun _ => bootDone)) (fun _ => askWarm)
  · exact h.partResets
  · exact h.onBit (fun _ => kick)
  · exact h.onBit (fun _ => mgmtClr)
  · exact onBit (h.onBit (fun _ => dormEnter)) (fun _ => wakeReg)
  · exact h.onBit (fun _ => pwrClr)
  · exact h.arbAdvance
  · exact h.keyRevoke
  · exact h.onBit (fun _ => secClr)
  · exact h.onBit (fun _ => append)
  · exact h.onBit (fun _ => bookClr)
  · exact h

theorem regAct {x : Access} {ty i off v : Nat} (h : Kept s₀ s) : Kept s₀ (s.regAct x ty i off v) :=
  both (onBit (h.onBit (fun _ => softReset)) (fun _ => errClear)) (both h.evtSet (both h.blockAct h))

theorem stageWrite {code ty i g : Nat} (h : Kept s₀ s) : Kept s₀ (s.stageWrite code ty i g) := by
  unfold State.stageWrite
  exact both h.countErr (both h.countErr (h.setFld.update (by rfl)))

theorem rwWrite {code : Nat} {f : Fld} {i v : Nat} (h : Kept s₀ s) : Kept s₀ (s.rwWrite code f i v) :=
  both h.evtEnable (both h.stageWrite (both h.countErr (both h.countErr h.setFld)))

theorem fldWrite {code : Nat} {f : Fld} {i v : Nat} (h : Kept s₀ s) : Kept s₀ (s.fldWrite code f i v) := by
  unfold State.fldWrite
  split
  · exact h.rwWrite
  · exact h.setStaged
  · exact h.setFld
  · exact h.evtClear
  · exact h

theorem regWrite32 {x : Access} {ty i off v : Nat} (h : Kept s₀ s) : Kept s₀ (s.regWrite32 x ty i off v) :=
  both h.countErr (regAct (both (h.foldl (fun _ _ => fldWrite)) (countErr (h.foldl (fun _ _ => fldWrite)))))

theorem regWrite {x : Access} {addr size v : Nat} (h : Kept s₀ s) : Kept s₀ (s.regWrite x addr size v) :=
  both h.countGate (both h.countErr (both (both (countGate (both h.countGate h.regWrite32)) (regWrite32 (both h.countGate h.regWrite32)))
    (both h.countGate h.regWrite32)))

/-! ### Operations of Machine/Arrivals.lean -/

theorem clearLedger {who : Option Nat} {coll : Bool} {a n : Nat} (h : Kept s₀ s) : Kept s₀ (s.clearLedger who coll a n) := h.upd (by rfl)

theorem landBytes {who : Option Nat} {coll : Bool} {a : Nat} {bytes : List Byte} {pz : List Nat} (h : Kept s₀ s) :
    Kept s₀ (s.landBytes who coll a bytes pz) :=
  h.foldl (fun _ _ h1 => both h1.storeBlock h1)

theorem landPage {ac : Access} {write : Bool} {a : Arrival} (h : Kept s₀ s) : Kept s₀ (s.landPage ac write a).1 := by
  suffices hr : ∀ r, s.landPage ac write a = r → Kept s₀ r.1 from hr _ rfl
  intro r hr
  unfold State.landPage at hr
  dsimp only at hr
  split at hr
  · exact hr ▸ h.regWrite.fst
  · exact hr ▸ h.regRead.fst

theorem landPut {who : Option Nat} {ac : Access} {a : Arrival} (h : Kept s₀ s) : Kept s₀ (s.landPut who ac a).1 :=
  both_fst h.landPage h.hwinErr.touch.clearLedger.landBytes

theorem landGet {who : Option Nat} {ac : Access} {a : Arrival} (h : Kept s₀ s) : Kept s₀ (s.landGet who ac a).1 :=
  both_fst h.landPage h.eccAt.hwinErr.touch

theorem accPiece {a : Arrival} {o n : Nat} (h : Kept s₀ s) : Kept s₀ (s.accPiece a o n) := h.storeBlock
theorem accBytes {a : Arrival} {o n : Nat} (h : Kept s₀ s) : Kept s₀ (s.accBytes a o n) := h.foldl (fun _ _ => accPiece)

theorem accLine {a : Arrival} {t : Tag} {die o n : Nat} (h : Kept s₀ s) : Kept s₀ (s.accLine a t die o n) := by
  unfold State.accLine
  dsimp only
  split
  · exact h.addSat
  · exact h.countEv
  · exact (h.accBytes.upd (by rfl)).countEv
  · exact h.accBytes.upd (by rfl)

theorem accGranule {a : Arrival} {g : Nat} (h : Kept s₀ s) : Kept s₀ (s.accGranule a g) := by
  unfold State.accGranule
  split
  · exact h.accBytes
  · exact h.foldl (fun _ _ => accLine)

theorem landAcc {who : Option Nat} {a : Arrival} (h : Kept s₀ s) : Kept s₀ (s.landAcc who a).1 := by
  refine both_fst h.hwinErr ?_
  dsimp only
  split
  · exact both_fst h h.eccAt.touch.accBytes
  · exact both_fst h.eccAt.accGranule h.countEv

theorem atomic {who : Option Nat} {a : Arrival} {w : Nat} {f : Nat → Option Nat} (h : Kept s₀ s) : Kept s₀ (s.atomic who a w f).1 := by
  refine both_fst h.hwinErr ?_
  dsimp only
  split
  · exact h.eccAt.touch.storeBlock
  · exact h.eccAt.touch

theorem landSig {who : Option Nat} {a : Arrival} (h : Kept s₀ s) : Kept s₀ (s.landSig who a).1 := by
  unfold State.landSig
  exact h.atomic

theorem landFadd {who : Option Nat} {a : Arrival} (h : Kept s₀ s) : Kept s₀ (s.landFadd who a).1 := h.atomic
theorem landCas {who : Option Nat} {a : Arrival} (h : Kept s₀ s) : Kept s₀ (s.landCas who a).1 := h.atomic

theorem applyOp {op : Nat} {a : Arrival} {who : Option Nat} {ac : Access} (h : Kept s₀ s) : Kept s₀ (s.applyOp op a who ac).1 := by
  unfold State.applyOp
  split
  · exact h.landPut
  · exact h.landGet
  · exact h.landAcc
  · exact h.landSig
  · exact h.landFadd
  · exact h.landCas
  · dsimp only
    split
    · exact h.repairLand
    · exact h
  · exact h.landPut.rackLanded

theorem opAsk {op : Nat} {a : Arrival} (h : Kept s₀ s) : Kept s₀ (s.opAsk op a) := foldl (h.foldl (fun _ _ => askHost)) (fun _ _ => askHost)

theorem ackSend {h : Nat} {rep : Bool} {seq op : Nat} {a : Arrival} {r : OpAnswer} (hs : Kept s₀ s) : Kept s₀ (s.ackSend h rep seq op a r) :=
  hs.setHeddle.sendFlits

theorem answerOp {op : Nat} {a : Arrival} {r : OpAnswer} (h : Kept s₀ s) : Kept s₀ (s.answerOp op a r) := by
  unfold State.answerOp
  split
  · split
    · exact h.setIssued
    · exact h
  · exact h.ackSend
  · exact h.foldl (fun _ _ => ackSend)

theorem landOp {op : Nat} {a : Arrival} {who : Option Nat} {ac : Access} (h : Kept s₀ s) : Kept s₀ (s.landOp op a who ac) :=
  both (h.applyOp.upd (by rfl)) h.applyOp.answerOp

theorem returnCredits {h : Nat} {rep : Bool} {seq n : Nat} {coll : Bool} (hs : Kept s₀ s) : Kept s₀ (s.returnCredits h rep seq n coll) :=
  both hs.setHeddle hs.sendFlits

theorem drainCtx {fuel h : Nat} {rep : Bool} (hs : Kept s₀ s) : Kept s₀ (State.drainCtx fuel s h rep) := by
  induction fuel generalizing s with
  | zero => exact hs
  | succ n ih =>
    unfold State.drainCtx
    dsimp only
    split
    · exact hs
    · exact both hs.opAsk (ih hs.setHeddle.landOp.returnCredits)

theorem drainHeddle {h : Nat} {rep : Bool} (hs : Kept s₀ s) : Kept s₀ (s.drainHeddle h rep) := both hs hs.drainCtx
theorem drainAll (h : Kept s₀ s) : Kept s₀ s.drainAll := h.foldl (fun _ _ h1 => h1.drainHeddle.drainHeddle)

theorem ackAgain {h : Nat} {rep : Bool} {seq : Nat} (hs : Kept s₀ s) : Kept s₀ (s.ackAgain h rep seq) := by
  unfold State.ackAgain
  split
  · exact hs
  · exact both (both hs hs.applyOp.ackSend) hs.ackSend

theorem judgeOp {op : Nat} {a : Arrival} {dev hid seq : Nat} {tag : Option Nat} (h : Kept s₀ s) : Kept s₀ (s.judgeOp op a dev hid seq tag) :=
  both h (both h.countEv (both h.countEv (both h.ackAgain.addSat (both h.setHeddle.drainCtx h.countEv))))

theorem landOwn {op id : Nat} {ecc : List BlockEcc} (h : Kept s₀ s) : Kept s₀ (s.landOwn op id ecc) := by
  unfold State.landOwn
  split
  · exact h
  · exact both h (both h.opAsk h.landOp)

theorem arrive {op : Nat} {a : Arrival} (h : Kept s₀ s) : Kept s₀ (s.arrive op a) := by
  unfold State.arrive
  dsimp only
  split
  · exact h.nocRetry.landOwn
  · exact h.nocRetry.judgeOp
  · exact h.nocRetry.judgeOp.drainAll

theorem arriveRepair {x : RepairSrc} {m : RepairMsg} (h : Kept s₀ s) : Kept s₀ (s.arriveRepair x m) := h.arrive

theorem opReturn {o : IssuedOp} {r : OpAnswer} (h : Kept s₀ s) : Kept s₀ (s.opReturn o r) := by
  unfold State.opReturn
  dsimp only
  split
  · exact both h h.windowWrite
  · exact h

theorem opAcked {o : IssuedOp} (h : Kept s₀ s) : Kept s₀ (s.opAcked o) := by
  unfold State.opAcked
  split
  · exact h.tileAcked
  · exact both h.rackTry h
  · exact h

theorem goAnswer {die line : Nat} {pull : Bool} (h : Kept s₀ s) : Kept s₀ (s.goAnswer die line pull) := by
  unfold State.goAnswer
  split
  · exact h
  · exact both h.setEvict.emit h.setEvict

/-! ### Operations of Machine/Epilogue.lean -/

theorem drainRow {c n : Nat} {d : Drain} (h : Kept s₀ s) : Kept s₀ (s.drainRow c n d).1 :=
  both_fst h (corePoison (addSat (addSat (countEv (both h.setArr h.setArr.emitRow)))))

theorem drained {c n : Nat} {d : Drain} (h : Kept s₀ s) : Kept s₀ (s.drained c n d) := h.setArr

theorem drainZeros {c n : Nat} {d : Drain} {rest : List Drain} (h : Kept s₀ s) : Kept s₀ (s.drainZeros c n d rest) :=
  both h.emitRow.setArr.drained.startLoad h.emitRow.setArr

theorem drainEnd {c n : Nat} {d : Drain} (h : Kept s₀ s) : Kept s₀ (s.drainEnd c n d) := by
  unfold State.drainEnd
  extract_lets e k tsw lmap s1 s2 s3 s4
  have h1 : Kept s₀ s1 := both h.unitOow.windowWrite h
  have h2 : Kept s₀ s2 := both h1.unitOow.windowWrite h1
  have h3 : Kept s₀ s3 :=
    both h2 h2.countEv.addSat.setFld.setFld.setFld.setFld
  have h4 : Kept s₀ s4 := both h3.handTile h3
  exact h4.drained.startLoad

/-! ### Operations of Machine/HostMem.lean -/

theorem bar2Reply {fn : Nat} {write : Bool} {bytes : List Byte} {pz : Bool} (h : Kept s₀ s) : Kept s₀ (s.bar2Reply fn write bytes pz) :=
  both h h.emit

theorem bar2Page {fn : Nat} {write : Bool} {a len : Nat} {data : List Byte} (h : Kept s₀ s) : Kept s₀ (s.bar2Page fn write a len data) :=
  both h.regWrite h.regRead.bar2Reply

theorem bar2Mem {fn : Nat} {write : Bool} {a len : Nat} {data : List Byte} {poisoned : Bool} (h : Kept s₀ s) :
    Kept s₀ (s.bar2Mem fn write a len data poisoned) :=
  both (both h.hostCount.touch.landBytes.countEv h.hostCount.touch.landBytes) h.hostCount.touch.bar2Reply

/-! ### Operations of Machine/PageMem.lean -/

theorem scalarOow {c a n : Nat} {write : Bool} (h : Kept s₀ s) : Kept s₀ (s.scalarOow c a n write) := both h.strOow.oowAccess h.strOow.countErr

theorem strandLoad {op : Nat} {i : Issue} (h : Kept s₀ s) : Kept s₀ (s.strandLoad op i) := by
  unfold State.strandLoad
  exact h.issue (fun _ h1 => both h1.scalarOow.wd (both h1.splEcc.wd.corePoison (both h1.regRead.wd h1.scalarOow.wd)))

/-! ### Operations of Machine/Sched.lean -/

theorem seqCount {l : List (Nat × Nat)} (h : Kept s₀ s) : Kept s₀ (s.seqCount l) := h.foldl (fun _ _ => accessDone)

theorem nextConfig (h : Kept s₀ s) : Kept s₀ s.nextConfig := by
  unfold State.nextConfig
  split
  · exact both h.resulting h
  · exact h

theorem schedBad (h : Kept s₀ s) : Kept s₀ s.schedBad := h.raise.cause

theorem entryChecked {o : Option Entry} (h : Kept s₀ s) : Kept s₀ (s.entryChecked o) := by
  unfold State.entryChecked
  split
  · exact h.upd (by rfl)
  · exact (h.upd (by rfl)).schedBad

theorem entryCheckAt {o : Option Nat} (h : Kept s₀ s) : Kept s₀ (s.entryCheckAt o) := by
  unfold State.entryCheckAt
  split
  · exact h
  · exact h.seqCount.entryChecked

theorem entryCheck (h : Kept s₀ s) : Kept s₀ s.entryCheck := h.entryCheckAt
theorem coreTask {c task entry arg : Nat} (h : Kept s₀ s) : Kept s₀ (s.coreTask c task entry arg) := h.setCore.setCore
theorem argCount {t : TaskRec} (h : Kept s₀ s) : Kept s₀ (s.argCount t) := both h.accessDone h

theorem startUnit {idx : Nat} {t : TaskRec} {ns : Nat} (h : Kept s₀ s) : Kept s₀ (s.startUnit idx t ns) := by
  unfold State.startUnit
  dsimp only
  split
  · exact h.argCount.coreTask
  · exact h.argCount.solvTask
  · exact h.argCount.updTask
  · exact h.argCount.collTask
  · exact h.argCount

theorem setTask {idx : Nat} {t : Task} {ns : Nat} (h : Kept s₀ s) : Kept s₀ (s.setTask idx t ns) := h.modPick

theorem taskStart {idx ns : Nat} (h : Kept s₀ s) : Kept s₀ (s.taskStart idx ns) := by
  unfold State.taskStart
  split
  · exact h
  · exact both (h.whenReadable (fun _ h2 => h2.startUnit.setTask)) h

theorem endUnit {t : TaskRec} (h : Kept s₀ s) : Kept s₀ (s.endUnit t) := by
  unfold State.endUnit
  split
  · exact h.setCore
  · exact h.setSolver
  · exact h.setSlice
  · exact h.setColl
  · exact h

theorem taskFinish {idx ns : Nat} (h : Kept s₀ s) : Kept s₀ (s.taskFinish idx ns) := by
  unfold State.taskFinish
  split
  · exact h
  · exact both (setTask (endUnit (both h.addSat h))) h

/-! ### Operations of Machine/Vote.lean -/

theorem sendAlign {l : Nat} {edge : Bool} (h : Kept s₀ s) : Kept s₀ (s.sendAlign l edge) := h.addWrap.emit
theorem flood (h : Kept s₀ s) : Kept s₀ s.flood := h.foldl (fun _ _ => sendAlign)
theorem fenceRec {cause l : Nat} (h : Kept s₀ s) : Kept s₀ (s.fenceRec cause l) := h.bookPush
theorem fenceSelf {cause l : Nat} (h : Kept s₀ s) : Kept s₀ (s.fenceSelf cause l) := both h h.fenceRec.modPick
theorem fencePeer {l : Nat} (h : Kept s₀ s) : Kept s₀ (s.fencePeer l) := both h h.fenceRec.setLink.permSync

theorem overrun {idx : Nat} {t : Task} (h : Kept s₀ s) : Kept s₀ (s.overrun idx t) := by
  unfold State.overrun
  exact h.raise.raise.addSat.cause.modPick

theorem compareLate (h : Kept s₀ s) : Kept s₀ s.compareLate := both h.raise.raise.addSat.cause h
theorem beatUp (h : Kept s₀ s) : Kept s₀ s.beatUp := flushLate (compareLate (h.modPick.foldl (fun _ _ h1 => both h1 h1.overrun)))

theorem votePoint (h : Kept s₀ s) : Kept s₀ s.votePoint :=
  flood (modPick (setFld (setFld (both (cause (both h.entryCheck h)) (both h.entryCheck h)))))

theorem confirmPoint (h : Kept s₀ s) : Kept s₀ s.confirmPoint := flood (modPick (setFld (both h.cause.setFld h)))
theorem dissent {l : Nat} (h : Kept s₀ s) : Kept s₀ (s.dissent l) := h.raise.fenceSelf.modPick

theorem lateOutcome (h : Kept s₀ s) : Kept s₀ s.lateOutcome := by
  refine bookPush (raise ?_)
  split
  · exact h.setFld
  · exact h

theorem decisionPoint (h : Kept s₀ s) : Kept s₀ s.decisionPoint := by
  refine both (lateOutcome (modPick (setFld (setFld ?_)))) (modPick (setFld (setFld ?_)))
  · split
    · exact h.dissent
    · exact h
  · split
    · exact h.dissent
    · exact h

theorem alignConfig {l : Nat} {f : AlignFlit} (h : Kept s₀ s) : Kept s₀ (s.alignConfig l f) := both h.setLink.linkJudge h
theorem alignPhase {l : Nat} {f : AlignFlit} (h : Kept s₀ s) : Kept s₀ (s.alignPhase l f) := both h.setFld.raise h
theorem alignLock {l : Nat} {f : AlignFlit} (h : Kept s₀ s) : Kept s₀ (s.alignLock l f) := both h.setFld.setFld.modPick h
theorem alignFenced {l : Nat} {f : AlignFlit} (h : Kept s₀ s) : Kept s₀ (s.alignFenced l f) := both h.modPick h

theorem alignTime {l : Nat} {f : AlignFlit} (h : Kept s₀ s) : Kept s₀ (s.alignTime l f) :=
  both (both h.setLink.permSync h) (both h (both h.fenceSelf h.fencePeer))

theorem alignVote {l : Nat} {f : AlignFlit} (h : Kept s₀ s) : Kept s₀ (s.alignVote l f) := both h (both h.modPick.flood h.modPick)
theorem alignDissent {l : Nat} {f : AlignFlit} (h : Kept s₀ s) : Kept s₀ (s.alignDissent l f) := both h.raise.fencePeer h

theorem align {l : Nat} {f : AlignFlit} (h : Kept s₀ s) : Kept s₀ (s.align l f) :=
  both h.addWrap.setFld.setLink.alignConfig (both h.addWrap.setFld.setLink.alignConfig.alignPhase.alignFenced.alignDissent
    h.addWrap.setFld.setLink.alignConfig.alignPhase.alignLock.alignTime.alignVote.alignDissent)

/-! ### Operations of Machine/PickEdge.lean -/

theorem mvpWaitEdge (h : Kept s₀ s) : Kept s₀ s.mvpWaitEdge := by
  unfold State.mvpWaitEdge
  refine h.foldl ?_
  intro _ _ h1
  split
  · exact h1.addSat
  · exact h1

theorem abortWork (h : Kept s₀ s) : Kept s₀ s.abortWork := h.upd (by rfl)
theorem heddleRestore (h : Kept s₀ s) : Kept s₀ s.heddleRestore := (h.upd (by rfl)).permSync
theorem committedEnd (h : Kept s₀ s) : Kept s₀ s.committedEnd := releaseReplies (sealCommit (both h.compareResult h))
theorem turnPick {old : State} (h : Kept s₀ s) : Kept s₀ (s.turnPick old) :=
  raiseIf (both (h.upd (by rfl)).setFld.setFld.addSat (h.upd (by rfl)).setFld.setFld)
theorem runChange {was : Bool} (h : Kept s₀ s) : Kept s₀ (s.runChange was) := both h h.setFld.setFld
theorem noEntry {idx : Nat} (h : Kept s₀ s) : Kept s₀ (s.noEntry idx) := h.modPick
theorem runEntry {e : Entry} (h : Kept s₀ s) : Kept s₀ (s.runEntry e) := h.modPick

theorem enterLoaded {i : Nat} {o : Option Entry} (h : Kept s₀ s) : Kept s₀ (s.enterLoaded i o) := by
  unfold State.enterLoaded
  split
  · exact h.runEntry
  · exact h.noEntry.schedBad

theorem enterEntry {i : Nat} {ready : Option Entry} (h : Kept s₀ s) : Kept s₀ (s.enterEntry i ready) := enterLoaded (both h h.seqCount)

theorem pickEntry {old : State} {same : Bool} (h : Kept s₀ s) : Kept s₀ (s.pickEntry old same) :=
  both h.noEntry (both h.enterEntry (both h.enterEntry h.enterEntry))

theorem releaseUndeclared (h : Kept s₀ s) : Kept s₀ s.releaseUndeclared := h.foldl (fun _ _ => beginRelease)
theorem heddleRecord (h : Kept s₀ s) : Kept s₀ s.heddleRecord := h.upd (by rfl)

theorem linkEdges {left : Bool} (h : Kept s₀ s) : Kept s₀ (s.linkEdges left) := by
  unfold State.linkEdges
  exact modPick (foldl (foldl (h.foldl (fun _ _ h1 => both h1.linkJudge h1)) (fun _ _ h1 => both h1.sendNeg h1))
    (fun _ _ h1 => both h1.sendAlign h1))

theorem pickOutPulse (h : Kept s₀ s) : Kept s₀ s.pickOutPulse := both (h.upd (by rfl)).emit h
theorem outcome (h : Kept s₀ s) : Kept s₀ s.outcome := both h.abortWork.heddleRestore.sealRestore h.committedEnd.abortWork

theorem compareNext {old : State} (h : Kept s₀ s) : Kept s₀ (s.compareNext old) := by
  unfold State.compareNext
  exact both h.comparePick (h.update (by rfl))

theorem pickEdge (h : Kept s₀ s) : Kept s₀ s.pickEdge :=
  pickOutPulse (linkEdges (both (compareGo (compareNext (heddleRecord (threadSet (both
    h.mvpWaitEdge.outcome.turnPick.granEdges.commitEdge.runChange.pickEntry
    h.mvpWaitEdge.outcome.turnPick.granEdges.commitEdge.runChange.pickEntry.releaseUndeclared))))) (startBatches (compareGo (compareNext
    (heddleRecord (threadSet (both h.mvpWaitEdge.outcome.turnPick.granEdges.commitEdge.runChange.pickEntry
    h.mvpWaitEdge.outcome.turnPick.granEdges.commitEdge.runChange.pickEntry.releaseUndeclared))))))))

/-! ### Operations of Machine/Repair.lean -/

theorem sendState {c hid dev b : Nat} {bytes : List Byte} (h : Kept s₀ s) : Kept s₀ (s.sendState c hid dev b bytes) :=
  h.foldl (fun _ _ => repairSend)

theorem repairAnswerTo {c dev b target hid : Nat} (h : Kept s₀ s) : Kept s₀ (s.repairAnswerTo c dev b target hid) := by
  unfold State.repairAnswerTo
  dsimp only
  split
  · exact h.setSlice.repairRefuse
  · exact both h.setSlice.repairRefuse (both (h.whenReadable (fun _ h3 => h.setSlice.unitCount.sendState)) h)

theorem repairEnd {c : Nat} {r : Repair} {ns : Nat} (h : Kept s₀ s) : Kept s₀ (s.repairEnd c r ns) := by
  unfold State.repairEnd
  exact (h.unitCount.writeMem.setLedger.setSlice.update (by rfl)).countEv.repairShow.setFld.repairRec.repairRelease.drainAll.repairStart

theorem repairThreaded {h : Nat} (hs : Kept s₀ s) : Kept s₀ (s.repairThreaded h) := by
  unfold State.repairThreaded
  split
  · exact hs
  · split
    · exact hs
    · exact hs.repairAskOn

/-! ### Operations of Machine/Sideband.lean -/

theorem sbRead {addr : Nat} (h : Kept s₀ s) : Kept s₀ (s.sbRead addr).1 := by
  suffices hr : ∀ r, s.sbRead addr = r → Kept s₀ r.1 from hr _ rfl
  intro r hr
  unfold State.sbRead at hr
  dsimp only at hr
  split at hr
  · exact hr ▸ h.fst
  · split at hr
    · exact hr ▸ h.countAccess.fst
    · exact hr ▸ h.regRead.fst

theorem sbWrite {addr v : Nat} (h : Kept s₀ s) : Kept s₀ (s.sbWrite addr v).1 := both_fst h (both_fst h.regWrite h)

theorem spiFrame {late : Bool} {act : State → State × SbRes} (h : Kept s₀ s) (hact : ∀ t, Kept s₀ t → Kept s₀ (act t).1) :
    Kept s₀ (s.spiFrame late act) :=
  addWrap ((hact _ h.emit).upd (by rfl))

theorem mctpReply {cmd : Nat} {r : SbRes} {data : List Byte} (h : Kept s₀ s) : Kept s₀ (s.mctpReply cmd r data) := h.emit
theorem jtagSelect {code : Nat} (h : Kept s₀ s) : Kept s₀ (s.jtagSelect code) := h.upd (by rfl)
theorem jtagLoad {data : List Bool} (h : Kept s₀ s) : Kept s₀ (s.jtagLoad data) := h.upd (by rfl)

/-! ### Operations of Machine/Spdm.lean -/

theorem spdmError (h : Kept s₀ s) : Kept s₀ s.spdmError := h.countEv.secRec.emit

theorem spdmReply {need : Nat} {ok : Bool} {code : Nat} {data : List Byte} (h : Kept s₀ s) : Kept s₀ (s.spdmReply need ok code data) :=
  both h (both h.emit h.spdmError)

theorem spdmTo {need : Nat} {ok : Bool} {st : Nat} (h : Kept s₀ s) : Kept s₀ (s.spdmTo need ok st) := both (h.upd (by rfl)) h

/-! ### Operations of Machine/VecInt.lean -/

theorem vint {op : Nat} {i : Issue} {f : Nat → Nat → Nat → Nat × IntNote} (h : Kept s₀ s) : Kept s₀ (s.vint op i f) := by
  unfold State.vint
  exact h.vec (fun _ _ => vresult)

theorem vshift {op : Nat} {i : Issue} {f : Nat → Nat → Nat → Nat} (h : Kept s₀ s) : Kept s₀ (s.vshift op i f) := by
  unfold State.vshift
  exact h.vec (fun _ _ => vresult)

theorem vnarrow {op : Nat} {i : Issue} {f : Nat → Int → Nat × IntNote} (h : Kept s₀ s) : Kept s₀ (s.vnarrow op i f) := by
  unfold State.vnarrow
  exact h.vec (fun _ _ h1 => h1.vresult.srDone)

/-! ### Operations of Machine/VecMem.lean -/

theorem vecOow {c w : Nat} {write : Bool} {as : List Int} (h : Kept s₀ s) : Kept s₀ (s.vecOow c w write as) :=
  vecNote (h.foldl (fun _ _ h1 => both h1 (both h1.oowAccess h1.countErr)))

theorem vstoreAt {c w : Nat} {as : List Int} {vals : List (Nat × Bool)} (h : Kept s₀ s) : Kept s₀ (s.vstoreAt c w as vals) := by
  refine h.foldl ?_
  intro _ _ h1
  split
  · exact h1.storeBlock
  · exact h1

theorem vstoreRun {c a w : Nat} {vals : List (Nat × Bool)} (h : Kept s₀ s) : Kept s₀ (s.vstoreRun c a w vals) := both (both h.writeBy h) h

theorem vload {op : Nat} {i : Issue} {addr : State → Nat → Int} (h : Kept s₀ s) : Kept s₀ (s.vload op i addr) := by
  unfold State.vload
  exact h.vec (fun _ _ h1 => h1.splEcc.vecOow.vresult)

theorem segN {c w n : Nat} (h : Kept s₀ t) : Kept s₀ (segN t c w n).2 := both h.addSat h

/-! ### Operations of Machine/VecRed.lean -/

theorem scan {op : Nat} {i : Issue} {seg : Bool} (h : Kept s₀ s) : Kept s₀ (s.scan op i seg) := by
  unfold State.scan
  exact h.vec (fun _ _ h1 => h1.vresult.srDone)

theorem redPick {op : Nat} {i : Issue} {big : Bool} (h : Kept s₀ s) : Kept s₀ (s.redPick op i big) := by
  unfold State.redPick
  exact h.vec (fun _ _ h1 => both h1.wd h1.wd.vecNote.corePoison.srDone)

theorem setAcc {c n : Nat} {x : RuAcc} (h : Kept s₀ s) : Kept s₀ (s.setAcc c n x) := h.setCore

end Kept

section

open Kept

variable {s₀ s : State}

theorem execRegisterWrite_kept {ag : Agent} {bar4 : Bool} {addr : BitVec 48} {size : Nat} {v : Dword} (h : Kept s₀ s) :
    KeptOut s₀ (execRegisterWrite ag bar4 addr size v s) := by
  refine both_out ?_ (both_out h.regWrite.out h.out)
  split
  · exact h.bar4Write.out
  · exact h.bar4Write.out
  · exact h.out

theorem execErrClr_kept {ag : Agent} {ty : PageType} {inst : Nat} {coin : Option ErrObs} (h : Kept s₀ s) :
    KeptOut s₀ (execErrClr ag ty inst coin s) := by
  refine out (h.pageAct ?_)
  intro _ h1
  dsimp only
  split
  · exact h1.errClear.countErr
  · exact h1.errClear

theorem execEvtStatClear_kept {ag : Agent} {ty : PageType} {inst : Nat} {mask hwSet : Word} (h : Kept s₀ s) :
    KeptOut s₀ (execEvtStatClear ag ty inst mask hwSet s) :=
  out (h.pageAct (fun _ => evtClear))

theorem execCfgStageWrite_kept {ag : Agent} {ty : PageType} {inst : Nat} {gen : Word} (h : Kept s₀ s) :
    KeptOut s₀ (execCfgStageWrite ag ty inst gen s) :=
  out (h.pageAct (fun _ => stageWrite))

theorem execStrandWaitRelease_kept {core : Fin 512} {strand : Fin 8} (h : Kept s₀ s) : KeptOut s₀ (execStrandWaitRelease core strand s) := by
  unfold execStrandWaitRelease
  dsimp only
  split
  · exact both_out h.setStrand.waitIssue.out h.out
  · exact h.out

theorem execFetch_kept {i : Issue} (h : Kept s₀ s) : KeptOut s₀ (execFetch i s) := by
  refine both_out h.out (out (h.issue ?_))
  intro _ h1
  dsimp only
  split
  · exact h1.splEcc.strRsvd
  · exact both h1.splEcc.corePoison.strRsvd (both h1.splEcc.corePoison h1.splEcc.corePoison.setCore)

theorem execRaLineIssue_kept {core : Fin 512} (h : Kept s₀ s) : KeptOut s₀ (execRaLineIssue core s) := by
  unfold execRaLineIssue
  dsimp only
  split
  · exact h.out
  · exact h.addSat.out
  · exact h.setCore.out
  · exact out (setCore (both_fst h.askLine h))

theorem execRaLineLand_kept {core : Fin 512} {slot part stall : Nat} {x : LineResponse} (h : Kept s₀ s) :
    KeptOut s₀ (execRaLineLand core slot part stall x s) := by
  have hn := nocRetry (l := x.retries) h
  unfold execRaLineLand
  dsimp only
  split
  · exact h.out
  · split
    · exact out (hn.whenReadable (fun _ => landMatrix))
    · exact both_out hn.landRemote.out
        (out (hn.whenReadable (fun _ hr => hr.lineRead.landLine)))

theorem execInstructionFetch_kept {core : Fin 512} {strand : Fin 8} {ecc : UnitEcc} (h : Kept s₀ s) :
    KeptOut s₀ (execInstructionFetch core strand ecc s) :=
  both_out h.out (both_out h.askHost.out (both_out (out (endAt (countEv (both h.strEcc.accessDone h.strEcc))))
    (both_out h.strEcc.eccAt.touch.accessDone.countEv.poisoned.endAt.out (both_out h.strEcc.eccAt.touch.accessDone.setStrand.out
    h.strEcc.eccAt.touch.accessDone.advance.strRsvd.out))))

theorem execWloadComplete_kept {core : Fin 512} {arr : Fin 2} {cyc : Nat} (h : Kept s₀ s) : KeptOut s₀ (execWloadComplete core arr cyc s) := by
  unfold execWloadComplete
  dsimp only
  split
  · split
    · exact both_out h.setArr.startLoad.out h.out
    · exact h.out
  · exact h.out

theorem execBeatRelease_kept {core : Fin 512} {arr : Fin 2} {cyc reads : Nat} {ecc : UnitEcc} (h : Kept s₀ s) :
    KeptOut s₀ (execBeatRelease core arr cyc reads ecc s) := by
  have hr := readWefts (c := core.val) (n := arr.val) (k := reads)
    (splEcc (c := core.val) (l := ecc.mem) (arrEcc (c := core.val) (e := ecc.own) h))
  unfold execBeatRelease
  dsimp only
  split
  · exact h.out
  · split
    · exact h.out
    · split
      · exact hr.addSat.out
      · exact both_out hr.addSat.out hr.release.out

theorem execVatRowComplete_kept {core : Fin 512} {arr : Fin 2} {cyc : Nat} {ecc : Ecc} (h : Kept s₀ s) :
    KeptOut s₀ (execVatRowComplete core arr cyc ecc s) := by
  unfold execVatRowComplete
  dsimp only
  split
  · exact h.out
  · exact both_out h.out h.setArr.arrEcc.out

theorem execEpilogueDrain_kept {core : Fin 512} {arr : Fin 2} {cyc : Nat} {accept : Bool} {ecc : Ecc} (h : Kept s₀ s) :
    KeptOut s₀ (execEpilogueDrain core arr cyc accept ecc s) := by
  unfold execEpilogueDrain
  dsimp only
  split
  · exact h.out
  · refine both_out (out ?_) (both_out h.drainZeros.out (out (both h.arrEcc.drainRow.setArr.drainEnd h.arrEcc.drainRow.setArr)))
    split
    · exact h.addSat.addSat
    · exact h.addSat

theorem execVextr_kept {i : Issue} (h : Kept s₀ s) : KeptOut s₀ (execVextr i s) := by
  refine out (h.vec ?_)
  intro _ _ h1
  dsimp only
  split
  · exact h1.wd.corePoison
  · exact h1.wd

theorem execVscatadd_kept {i : Issue} (h : Kept s₀ s) : KeptOut s₀ (execVscatadd i s) := by
  refine out (h.vec (fun _ _ h1 => srDone (foldl (vecOow (both (h1.upd (by rfl)) h1)) ?_)))
  intro _ _ h2
  dsimp only
  split
  · exact both h2.storeBlock.vecNote.corePoison h2.storeBlock.corePoison
  · exact h2

theorem execVscataddi_kept {i : Issue} (h : Kept s₀ s) : KeptOut s₀ (execVscataddi i s) := by
  refine out (h.vec (fun _ _ h1 => h1.vecOow.foldl ?_))
  intro _ _ h2
  dsimp only
  split
  · exact h2.storeBlock.vecNote.corePoison
  · exact h2

theorem execRuget_kept {i : Issue} (h : Kept s₀ s) : KeptOut s₀ (execRuget i s) := by
  refine out (h.vec (fun _ _ h1 => corePoison ?_))
  split
  · exact h1.wd.vecNote.srDone
  · exact h1.wd.vecNote.srDone
  · exact h1.wd
  · exact both h1.wd.vecNote.srDone h1.wd.vecNote.srDone
  · exact h1.wd.vecNote.srDone
  · exact h1.wd.vecNote.srDone
  · exact h1.wd.vecNote.srDone
  · exact h1.wd

theorem execRumerge_kept {i : Issue} (h : Kept s₀ s) : KeptOut s₀ (execRumerge i s) := by
  refine out (h.vec ?_)
  intro _ _ h1
  dsimp only
  split
  · exact vecRsvd (both h1.splEcc h1.vecOow)
  · exact corePoison (vecNote (setAcc (both h1.splEcc h1.vecOow)))

theorem execVsmxacc_kept {i : Issue} (h : Kept s₀ s) : KeptOut s₀ (execVsmxacc i s) := by
  refine out (h.vec (fun _ _ h1 => corePoison ?_))
  split
  · exact h1
  · exact h1.setAcc
  · exact h1.setAcc
  · exact h1.setAcc.vecNote

theorem execDramRequestIssue_kept {stack : Fin 16} {ns : Nat} {r : DramReq} {tokensWaiting : Bool} (h : Kept s₀ s) :
    KeptOut s₀ (execDramRequestIssue stack ns r tokensWaiting s) :=
  both_out h.refill.ordinary.out (both_out h.refill.setStack.stackIssued.out (out (both h.refill.ordinary.countEv h.refill.ordinary)))

theorem execScrubRead_kept {stack : Fin 16} {addr : BitVec 48} {ecc : Ecc} {pct : Nat} (h : Kept s₀ s) :
    KeptOut s₀ (execScrubRead stack addr ecc pct s) :=
  both_out h.out (both_out (out (countEv (setFld (both h.addWrap h)))) (out (((raise (addSat (stackAddr (countEv (setFld
    (both h.addWrap h)))))).upd (by rfl)))))

theorem execDirtyEvict_kept {die : Fin 8} {line : BitVec 48} (h : Kept s₀ s) : KeptOut s₀ (execDirtyEvict die line s) := by
  unfold execDirtyEvict
  dsimp only
  split
  · split
    · exact both_out h.setHalf.setEvict.addWrap.emit.out h.out
    · exact h.out
  · exact both_out h.out (h.upd (by rfl)).addWrap.out

theorem execHostSnoop_kept {die : Fin 8} {line : BitVec 48} {inv : Bool} (h : Kept s₀ s) : KeptOut s₀ (execHostSnoop die line inv s) := by
  unfold execHostSnoop
  dsimp only
  split
  · exact h.addWrap.emit.out
  · split
    · exact h.addWrap.setEvict.addSat.emit.out
    · split
      · exact h.addWrap.emit.out
      · exact out (emit (h.addWrap.foldl (fun _ _ => setHalf)))

theorem execBisnpResponse_kept {die : Fin 8} {line : BitVec 48} {data : List Byte} (h : Kept s₀ s) :
    KeptOut s₀ (execBisnpResponse die line data s) := by
  unfold execBisnpResponse
  exact both_out h.out (out (drainAll (update (setFilter (both h.storeBlock h)) (by rfl))))

theorem execGroupApply_kept {slice : Fin 8} {block : Word} {step : GroupStep} (h : Kept s₀ s) : KeptOut s₀ (execGroupApply slice block step s) := by
  unfold execGroupApply
  dsimp only
  split
  · exact both_out h.out (both_out h.updEcc.out (out (h.whenReadable (fun _ h3 => h3.unitCount.updEcc.groupStart))))
  · exact h.out

theorem execGroupCommit_kept {slice : Fin 8} {block : Word} {group : Fin 256} {ecc : UpdEcc} (h : Kept s₀ s) :
    KeptOut s₀ (execGroupCommit slice block group ecc s) := by
  unfold execGroupCommit
  dsimp only
  split
  · split
    · exact both_out h.out (out (h.whenWritable (fun _ h3 => updEcc (addWrap (h3.setBlock.unitCount.foldl (fun _ _ => writeMem))))))
    · exact h.out
  · exact h.out

theorem execGroupDone_kept {slice : Fin 8} {block : Word} {step : GroupStep} (h : Kept s₀ s) : KeptOut s₀ (execGroupDone slice block step s) := by
  unfold execGroupDone
  dsimp only
  split
  · split
    · exact h.groupDone.updEcc.out
    · exact h.out
  · exact h.out

theorem execRepairRequest_kept {slice : Fin 8} {src : RepairSrc} {block target : Word} (h : Kept s₀ s) :
    KeptOut s₀ (execRepairRequest slice src block target s) :=
  h.arriveRepair.out

theorem execRepairAnswer_kept {slice : Fin 8} {fromDev : BitVec 16} {block : Word} (h : Kept s₀ s) :
    KeptOut s₀ (execRepairAnswer slice fromDev block s) := by
  unfold execRepairAnswer
  dsimp only
  split
  · exact h.out
  · exact out (h.whenReadable (fun _ => repairAnswerTo))

theorem execRepairState_kept {slice : Fin 8} {reply : RepairReply} {step origin : Word} {state scales digest : List Byte} (h : Kept s₀ s) :
    KeptOut s₀ (execRepairState slice reply step origin state scales digest s) :=
  h.arriveRepair.out

theorem execRepairWriteDone_kept {slice : Fin 8} {ns : Nat} (h : Kept s₀ s) : KeptOut s₀ (execRepairWriteDone slice ns s) := by
  unfold execRepairWriteDone
  dsimp only
  split
  · exact h.out
  · exact both_out h.out (out (h.whenWritable (fun _ => repairEnd)))

theorem execRepairTimeout_kept {slice : Fin 8} {ns : Nat} (h : Kept s₀ s) : KeptOut s₀ (execRepairTimeout slice ns s) := by
  unfold execRepairTimeout
  split
  · exact h.out
  · exact out (both h h.repairPass.drainAll)

theorem execSigWaitRelease_kept {idx : Nat} (h : Kept s₀ s) : KeptOut s₀ (execSigWaitRelease idx s) := by
  unfold execSigWaitRelease
  split
  · exact h.out
  · exact both_out (h.upd (by rfl)).answerOp.out h.out

theorem execAcknowledgement_kept {id : Nat} {status : Fin 16} {data : List Byte} {poison : List Nat} (h : Kept s₀ s) :
    KeptOut s₀ (execAcknowledgement id status data poison s) := by
  unfold execAcknowledgement
  split
  · exact h.out
  · dsimp only
    split
    · exact h.out
    · exact h.out
    · exact h.opReturn.countStatus.retire.opAcked.out

theorem execResend_kept {id : Nat} (h : Kept s₀ s) : KeptOut s₀ (execResend id s) := by
  unfold execResend
  split
  · exact h.out
  · exact both_out h.out h.addSat.sendOp.out

theorem execFlitForward_kept {link : Fin 36} {f : Flit} (h : Kept s₀ s) : KeptOut s₀ (execFlitForward link f s) :=
  both_out h.out (both_out h.flitSeen.sendRetry.linkRetry.out (both_out h.flitSeen.setLink.out
    (both_out h.flitSeen.out h.flitSeen.setLink.forward.out)))

theorem execThread_kept {dev : BitVec 16} {peerId : BitVec 10} {rep : Bool} {part : Fin 8} (h : Kept s₀ s) :
    KeptOut s₀ (execThread dev peerId rep part s) := by
  unfold execThread
  dsimp only
  split
  · exact h.sendMsg.out
  · exact both_out (h.upd (by rfl)).threadTo.sendMsg.compareGo.out h.sendMsg.out

theorem execThreadRefuse_kept {hid : Nat} (h : Kept s₀ s) : KeptOut s₀ (execThreadRefuse hid s) := by
  refine both_out (both_out (out ((h.upd (by rfl)).countEv.foldl ?_)) (out ?_)) h.out
  · intro _ _ h2
    split
    · exact both h2.setRepair h2
    · exact h2
  · split
    · exact (h.upd (by rfl)).countEv.countExhaust
    · exact (h.upd (by rfl)).countEv

theorem execRelease_kept {hid : Nat} (h : Kept s₀ s) : KeptOut s₀ (execRelease hid s) := by
  unfold execRelease
  exact out (both (h.dropRepairOps.update (by rfl)).sendMsg h)

theorem execNeg_kept {link : Fin 36} {f : NegFlit} (h : Kept s₀ s) : KeptOut s₀ (execNeg link f s) :=
  both_out h.out (both_out h.addWrap.setFld.setFld.setLink.out (both_out h.addWrap.setFld.setFld.setLink.setFld.setFld.linkJudge.out
    h.addWrap.setFld.setFld.setLink.setFld.raise.setLinkState.out))

theorem execTransferLanded_kept {slice : Fin 9} {chunk q : Nat} {mismatches : List Nat} (h : Kept s₀ s) :
    KeptOut s₀ (execTransferLanded slice chunk q mismatches s) :=
  both_out h.out h.setColl.moveChunk.out

theorem execArpRequest_kept {port : Fin 2} {target : Word} {sender : BitVec 48} (h : Kept s₀ s) :
    KeptOut s₀ (execArpRequest port target sender s) :=
  out (both h.sendFrame h)

theorem execNeighborSolicitation_kept {port : Fin 2} {target : BitVec 128} {sender : BitVec 48} (h : Kept s₀ s) :
    KeptOut s₀ (execNeighborSolicitation port target sender s) :=
  out (both h.sendFrame h)

theorem execPtpAnnounce_kept {port : Fin 2} {priority1 : BitVec 8} {clock : Dword} (h : Kept s₀ s) :
    KeptOut s₀ (execPtpAnnounce port priority1 clock s) :=
  out (both h.setPtp h)

theorem execConfirm_kept {r : HsRecord} (h : Kept s₀ s) : KeptOut s₀ (execConfirm r s) := by
  refine both_out h.out ?_
  split
  · exact h.authFail.out
  · refine both_out h.authFail.out ?_
    split
    · exact h.authFail.out
    · exact both_out h.setSession.out h.out

theorem execConfirmTimeout_kept {session : Word} (h : Kept s₀ s) : KeptOut s₀ (execConfirmTimeout session s) := by
  refine out ?_
  split
  · exact both h h.setSession.closeSession
  · exact h

theorem execData_kept {r : HsRecord} (h : Kept s₀ s) : KeptOut s₀ (execData r s) := by
  refine both_out h.out ?_
  split
  · exact h.authFail.out
  · refine both_out h.authFail.out ?_
    split
    · exact h.authFail.out
    · exact both_out h.addSat.out (out (both h.setSession.closeSession h.setSession))

theorem execRequestFragmentTimeout_kept {session : Word} {sub : Fin 16} {seq : Word} (h : Kept s₀ s) :
    KeptOut s₀ (execRequestFragmentTimeout session sub seq s) := by
  refine out ?_
  split
  · exact h.setSession
  · exact h

theorem execBar2Access_kept {fn : Fin 9} {write : Bool} {off len : Nat} {data : List Byte} {poisoned : Bool} (h : Kept s₀ s) :
    KeptOut s₀ (execBar2Access fn write off len data poisoned s) :=
  both_out h.emit.out (both_out h.hostCount.bar2Reply.out (both_out h.bar2Page.out (both_out h.askHost.out h.bar2Mem.out)))

theorem execCxlMemRequest_kept {write : Bool} {addr : BitVec 48} {data : List Byte} {own : Bool} (h : Kept s₀ s) :
    KeptOut s₀ (execCxlMemRequest write addr data own s) := by
  refine both_out h.out (both_out h.hostCount.emit.out (both_out (out (both h.storeBlock h.storeBlock.setFilter)) (both_out h.out (both_out
    (out ?_) h.setFilter.emit.out))))
  split
  · exact h.backSnoop
  · exact h

theorem execSqDoorbell_kept {fn : Fin 9} {q : Fin 16} {tail : Word} {hostWrites : List (Nat × List Byte)} (h : Kept s₀ s) :
    KeptOut s₀ (execSqDoorbell fn q tail hostWrites s) :=
  out (queueGate (h.foldl (fun _ _ => hostWrite)) (fun _ => sqTailWrite))

theorem execCopyOut_kept {fn : Fin 9} {q : Fin 16} {hostErr : Bool} (h : Kept s₀ s) : KeptOut s₀ (execCopyOut fn q hostErr s) := by
  refine out (h.queueCmd (fun _ => both h.cmdDone (h.devSide ?_)))
  intro _ h2
  dsimp only
  split
  · exact cmdDone (h2.foldl (fun _ _ => hostWrite))
  · exact cmdDone (h2.foldl (fun _ _ => hostWrite))

theorem execDigest_kept {fn : Fin 9} {q : Fin 16} {hostErr : Bool} (h : Kept s₀ s) : KeptOut s₀ (execDigest fn q hostErr s) := by
  refine out (h.queueCmd (fun _ => both h.cmdDone (h.devSide ?_)))
  intro _ h2
  dsimp only
  split
  · exact both h2.hostWrite.cmdDone h2
  · exact h2.cmdDone

theorem execCommandComplete_kept {fn : Fin 9} {q : Fin 16} (h : Kept s₀ s) : KeptOut s₀ (execCommandComplete fn q s) := by
  unfold execCommandComplete
  dsimp only
  split
  · exact h.out
  · exact both_out h.out (out (both (msix (both h.hostWrite.setQueue.addWrap h.hostWrite.setQueue.addWrap.cmdErr))
      (both h.hostWrite.setQueue.addWrap h.hostWrite.setQueue.addWrap.cmdErr)))

theorem execHostLinkUp_kept {speed : Fin 8} {width : Fin 32} {cxl cacheEn memEn : Bool} (h : Kept s₀ s) :
    KeptOut s₀ (execHostLinkUp speed width cxl cacheEn memEn s) :=
  h.setFld.setFld.setFld.setFld.setFld.setFld.stopQueues.out

theorem execHostPerst_kept {low : Bool} (h : Kept s₀ s) : KeptOut s₀ (execHostPerst low s) := by
  unfold execHostPerst
  exact both_out ((h.update (by rfl)).linkDownHost.resetQueues.flrRegs.update (by rfl)).out (h.update (by rfl)).out

theorem execArbFuseBlow_kept (h : Kept s₀ s) : KeptOut s₀ (execArbFuseBlow s) := by
  refine out ?_
  split
  · exact (h.upd (by rfl)).arbReached
  · exact h

theorem execGetMeasurements_kept {index : Byte} {signed : Bool} {nonce : BitVec 256} (h : Kept s₀ s) :
    KeptOut s₀ (execGetMeasurements index signed nonce s) :=
  h.spdmReply.out

theorem execReadBook_kept {index : BitVec 17} {copy : Fin 4} (h : Kept s₀ s) : KeptOut s₀ (execReadBook index copy s) := by
  refine out ?_
  split
  · exact h.mctpReply
  · exact h.mctpReply

theorem execThermalClockStep_kept {die : Fin 25} {temp : Int} (h : Kept s₀ s) : KeptOut s₀ (execThermalClockStep die temp s) := by
  unfold execThermalClockStep
  exact both_out (out (both (h.setTemp.setAlert.update (by rfl)) (h.setTemp.setAlert.update (by rfl)).countEv.thermalRec)) (both_out
    (both_out (h.setTemp.setAlert.update (by rfl)).thermalRec.out (h.setTemp.setAlert.update (by rfl)).out) h.setTemp.setAlert.out)

theorem execThermCrit_kept {die : Fin 25} {temp : Int} (h : Kept s₀ s) : KeptOut s₀ (execThermCrit die temp s) := by
  unfold execThermCrit
  exact both_out (h.setTemp.setAlert.shutdown.update (by rfl)).raise.thermalRec.out h.setTemp.setAlert.out

theorem execDormantEntryComplete_kept (h : Kept s₀ s) : KeptOut s₀ (execDormantEntryComplete s) := by
  unfold execDormantEntryComplete
  have h1 : Kept s₀ ((List.range 8).foldl (fun t d => t.writeBack d fun _ => true) s) := h.foldl (fun _ _ => writeBack)
  refine both_out h.out (out (both (wakeStart (update ?_ (by rfl))) ?_))
  all_goals
    refine raise (addWrap (setFld (setPwrState (loseCores ?_))))
    refine both (sourceLost (update ?_ (by rfl))) (update ?_ (by rfl))
    all_goals exact (h1.update (by rfl)).foldl (fun _ _ ht => both ht ht.setLinkState)

theorem execWakeComplete_kept (h : Kept s₀ s) : KeptOut s₀ (execWakeComplete s) := by
  unfold execWakeComplete
  refine both_out (out (raise (update (h.setPwrState.setFld.foldl (fun _ _ => linkTrain)) (by rfl)))) h.out

theorem execPtpMessageInterval_kept {port : Fin 2} {kind : Fin 3} {ts : Nat} (h : Kept s₀ s) :
    KeptOut s₀ (execPtpMessageInterval port kind ts s) := by
  refine out ?_
  split
  · exact both h.sendFrame.sendFrame h
  · exact both h.sendFrame h
  · exact both h.setPtp.sendFrame h

/-- Every command answers a next state, and keeps what every command keeps. -/
theorem exec_kept (c : Instr) (h : Kept s₀ s) : KeptOut s₀ (exec c s) := by
  cases c with
  | registerWrite => exact execRegisterWrite_kept h
  | srst => exact out (h.pageAct (fun _ => softReset))
  | errClr => exact execErrClr_kept h
  | evtStatClear => exact execEvtStatClear_kept h
  | evtEnWrite => exact out (h.pageAct (fun _ => evtEnable))
  | evtSet => exact out (h.pageAct (fun _ => evtSet))
  | cfgStageWrite => exact execCfgStageWrite_kept h
  | arm => exact out (h.pageAct (fun _ => arm))
  | cancel => exact out (h.pageAct (fun _ => cancel))
  | pickEdge => exact out (both h.pickEdge h)
  | pickOutEnd => exact out (both (h.upd (by rfl)).emit h)
  | taskStart => exact h.taskStart.out
  | taskFinish => exact h.taskFinish.out
  | beatUpStart => exact out (both h.beatUp h)
  | votePoint => exact out (both h.votePoint h)
  | confirmPoint => exact out (both h.confirmPoint h)
  | decisionPoint => exact out (both h.decisionPoint h)
  | schedEntryCheck => exact out (both (h.whenReadable (fun _ => entryCheck)) h)
  | pickSetApply => exact out (h.pageAct (fun _ h2 => h2.setFld.pickSetApply))
  | pickInEdge => exact both_out h.out (both_out (out (both (h.upd (by rfl)) (h.upd (by rfl)).setFld)) h.sourceLost.out)
  | sourceLoss => exact h.sourceLost.out
  | sourceReturn => exact both_out (out ((both h.setFld.setFld.setFld h.setFld.setFld).upd (by rfl))) h.out
  | align => exact out (both h.align h)
  | nop => exact out (h.issue (fun _ h1 => h1))
  | add => exact h.alu.out
  | sub => exact h.alu.out
  | mul => exact h.alu.out
  | mulh => exact h.alu.out
  | div => exact h.aluDiv.out
  | rem => exact h.aluDiv.out
  | and => exact h.alu.out
  | or => exact h.alu.out
  | xor => exact h.alu.out
  | sll => exact h.alu.out
  | srl => exact h.alu.out
  | sra => exact h.alu.out
  | slt => exact h.alu.out
  | sltu => exact h.alu.out
  | li => exact out (h.issue (fun _ => wd))
  | ld => exact h.strandLoad.out
  | st => exact out (h.issue (fun _ h1 => both h1.scalarOow (both h1.windowWrite (both h1.regWrite h1.scalarOow))))
  | ldv => exact h.strandLoad.out
  | ldp => exact out (h.issue (fun _ h1 => both h1.regRead.wd h1.strOow.wd))
  | stp => exact out (h.issue (fun _ h1 => both h1.regWrite h1.strOow))
  | beq => exact h.branch.out
  | bne => exact h.branch.out
  | blt => exact h.branch.out
  | bge => exact h.branch.out
  | bltu => exact h.branch.out
  | bgeu => exact h.branch.out
  | jal => exact out (h.issue (fun _ h1 => h1.wd.jumpTo))
  | jalr => exact out (h.issue (fun _ h1 => h1.wd.jumpTo))
  | sfadd => exact h.sfOp.out
  | sfsub => exact h.sfOp.out
  | sfmul => exact h.sfOp.out
  | sfma => exact h.sfOp.out
  | sfdiv => exact h.sfOp.out
  | sfsqrt => exact h.sfOp.out
  | sfcvt => exact h.sfOp.out
  | sfcmp => exact out (h.issue (fun _ h1 => both h1.wd.srDone h1.wd.strRsvd))
  | spawn => exact h.waitIssue.out
  | endStrand => exact out (h.issue (fun _ => endAt))
  | sync => exact h.waitIssue.out
  | waits => exact h.waitIssue.out
  | rels => exact out (h.issue (fun _ => setCore))
  | sigwait => exact h.waitIssue.out
  | strandWaitRelease => exact execStrandWaitRelease_kept h
  | rdid => exact out (h.issue (fun _ => wd))
  | rdcyc => exact out (h.issue (fun _ => wd))
  | rdtemp => exact out (h.issue (fun _ => wd))
  | fetch => exact execFetch_kept h
  | raLineIssue => exact execRaLineIssue_kept h
  | raLineLand => exact execRaLineLand_kept h
  | instructionFetch => exact execInstructionFetch_kept h
  | rmo => exact h.rmoOp.out
  | raccu => exact h.rmoOp.out
  | wload => exact h.loadCmd.out
  | edgeLoad => exact h.loadCmd.out
  | wloadComplete => exact execWloadComplete_kept h
  | apass => exact h.passCmd.out
  | apassv => exact h.passCmd.out
  | beatRelease => exact execBeatRelease_kept h
  | rowClockStop => exact both_out h.setFld.out h.out
  | vatRowComplete => exact execVatRowComplete_kept h
  | epilogueDrain _ _ cyc => exact execEpilogueDrain_kept (cyc := cyc) h
  | mv => exact h.mvCmd.out
  | mvt => exact h.mvCmd.out
  | resid => exact h.mvCmd.out
  | csr => exact h.mvCmd.out
  | mvpReservationEnd => exact out (h.foldl (fun _ _ => mvRelease))
  | setvl => exact out (h.vec (fun _ _ h1 => both h1.setCore.wd h1.strRsvd))
  | vsrkey => exact out (h.vec (fun _ _ h1 => both h1.setStrand h1.strRsvd))
  | vbcast => exact out (h.vec (fun _ _ => vresult))
  | vsel => exact out (h.vec (fun _ _ => vresult))
  | vperm => exact out (h.vec (fun _ _ => vresult))
  | vslide => exact out (h.vec (fun _ _ => vresult))
  | vcompress => exact out (h.vec (fun _ _ h1 => h1.vresult.setSreg.corePoison))
  | vextr => exact execVextr_kept h
  | vadd => exact h.vint.out
  | vsub => exact h.vint.out
  | vmul => exact h.vint.out
  | vdiv => exact h.vint.out
  | vrem => exact h.vint.out
  | vand => exact h.vint.out
  | vor => exact h.vint.out
  | vxor => exact h.vint.out
  | vsll => exact h.vshift.out
  | vsrl => exact h.vshift.out
  | vsra => exact h.vshift.out
  | vsadd => exact h.vint.out
  | vssub => exact h.vint.out
  | vsaddu => exact h.vint.out
  | vssubu => exact h.vint.out
  | vrshr => exact out (h.vec (fun _ _ h1 => h1.vresult.srDone))
  | vmulq => exact out (h.vec (fun _ _ h1 => h1.vresult.srDone))
  | vnsat => exact h.vnarrow.out
  | vnwrap => exact h.vnarrow.out
  | vfadd => exact h.vf2.out
  | vfsub => exact h.vf2.out
  | vfmul => exact h.vf2.out
  | vfma => exact out (h.vec (fun _ _ h1 => h1.vresult.srDone))
  | vfmin => exact h.vf2.out
  | vfmax => exact h.vf2.out
  | vcmp => exact out (h.vec (fun _ _ h1 => h1.vresult.srDone))
  | vcvt => exact h.vf1.out
  | vscvt => exact out (h.vec (fun _ _ h1 => h1.vresult.srDone))
  | vfdiv => exact h.vf2.out
  | vfrcp => exact h.vf1.out
  | vfsqrt => exact h.vf1.out
  | vfrsqrt => exact h.vf1.out
  | vexp => exact h.vfn.out
  | vexp2 => exact h.vfn.out
  | vlog => exact h.vfn.out
  | vlog2 => exact h.vfn.out
  | vtanh => exact h.vfn.out
  | vsigm => exact h.vfn.out
  | vsilu => exact h.vfn.out
  | vgelu => exact h.vfn.out
  | vscan => exact h.scan.out
  | vsegscan => exact h.scan.out
  | vredmax => exact h.redPick.out
  | vredmin => exact h.redPick.out
  | vredsumi => exact out (h.vec (fun _ _ h1 => both h1.wd h1.wd.vecNote.corePoison))
  | vld => exact h.vload.out
  | vst => exact out (h.vec (fun _ _ h1 => h1.vecOow.vstoreRun.corePoison))
  | vlds => exact h.vload.out
  | vsts => exact out (h.vec (fun _ _ h1 => h1.vecOow.vstoreAt.corePoison))
  | vlseg => exact out (h.vec (fun _ _ h1 => vecOow (foldl (splEcc (both h1.addSat h1)) (fun _ _ h2 => h2.setCore.corePoison))))
  | vsseg => exact out (h.vec (fun _ _ h1 => corePoison (vstoreRun (vecOow (both h1.addSat h1)))))
  | vgather => exact out (h.vec (fun _ _ h1 => h1.splEcc.vecOow.vresult))
  | vscatter => exact out (h.vec (fun _ _ h1 => h1.vecOow.vstoreAt.corePoison))
  | vscatadd => exact execVscatadd_kept h
  | vscataddi => exact execVscataddi_kept h
  | vldv => exact h.vload.out
  | ruclr => exact out (h.vec (fun _ _ => setAcc))
  | ruacc => exact out (h.vec (fun _ _ h1 => h1.setAcc.vecNote.corePoison))
  | ruget => exact execRuget_kept h
  | rusave => exact out (h.vec (fun _ _ h1 => both h1.windowWrite h1.vecOow))
  | rumerge => exact execRumerge_kept h
  | vsoftmax => exact out (h.vec (fun _ _ h1 => srDone (both h1.vresult.setSreg.addSat h1.vresult)))
  | vsmxacc => exact execVsmxacc_kept h
  | vsmxout => exact out (h.vec (fun _ _ h1 => h1.vresult.corePoison.srDone))
  | cntClr => exact out (h.pageAct (fun _ => coreClr))
  | epiCntClr => exact out (h.pageAct (fun _ => epiClr))
  | vecCntClr => exact out (h.pageAct (fun _ => vecClr))
  | strCntClr => exact out (h.pageAct (fun _ => strClr))
  | qp => exact h.solveCmd.out
  | qpAdj => exact h.solveCmd.out
  | adj => exact h.solveCmd.out
  | linSym => exact h.solveCmd.out
  | linGen => exact h.solveCmd.out
  | solveDeadline => exact out (both h.solveEnd h)
  | solvCntClr => exact out (h.pageAct (fun _ => solvClr))
  | dramRequestIssue => exact execDramRequestIssue_kept h
  | scrubRead => exact execScrubRead_kept h
  | dirtyEvict => exact execDirtyEvict_kept h
  | hostSnoop => exact execHostSnoop_kept h
  | goWritePullDrop => exact h.goAnswer.drainAll.out
  | goWritePull => exact h.goAnswer.drainAll.out
  | bisnpResponse => exact execBisnpResponse_kept h
  | flush => exact out (h.pageAct (fun _ => startFlush))
  | flushDone => exact both_out (h.upd (by rfl)).writeBack.setFld.raise.out h.out
  | granuleFlushComplete => exact both_out (out (raise (setGranule (both h.writeBack h)))) h.out
  | dieCntClr => exact out (h.pageAct (fun _ => dieClr))
  | celCntClr => exact out (h.pageAct (fun _ => celClr))
  | stkCntClr => exact out (h.pageAct (fun _ => stkClr))
  | chunkArrival => exact out (both h.chunkArrive h)
  | heldChunkJudge => exact h.judgeHeld.creditsBack.out
  | groupApply => exact execGroupApply_kept h
  | groupCommit => exact execGroupCommit_kept h
  | groupDone => exact execGroupDone_kept h
  | repairReq => exact out (h.pageAct (fun _ => repairAsk))
  | repairRequest => exact execRepairRequest_kept h
  | repairAnswer => exact execRepairAnswer_kept h
  | repairState => exact execRepairState_kept h
  | repairWriteDone => exact execRepairWriteDone_kept h
  | repairTimeout => exact execRepairTimeout_kept h
  | updCntClr => exact out (h.pageAct (fun _ => updClr))
  | put => exact h.arrive.out
  | get => exact h.arrive.out
  | acc => exact h.arrive.out
  | sig => exact h.arrive.out
  | sigWaitRelease => exact execSigWaitRelease_kept h
  | fadd => exact h.arrive.out
  | cas => exact h.arrive.out
  | rack => exact h.arrive.out
  | acknowledgement => exact execAcknowledgement_kept h
  | resend => exact execResend_kept h
  | flitForward => exact execFlitForward_kept h
  | retry => exact both_out h.out (out (linkRetry (h.addWrap.setLink.foldl (fun _ _ => resendFlit))))
  | credit => exact both_out h.setHeddle.sendWaiting.out h.out
  | thread => exact execThread_kept h
  | threadAccept => exact both_out (out (both h.threadTo.repairThreaded h.threadTo.compareGo)) h.out
  | threadRefuse => exact execThreadRefuse_kept h
  | heddleThreadRetry => exact out (repairRetryAll (both h.threadSet h))
  | release => exact execRelease_kept h
  | releaseAck => exact out (both (repairRetryAll (both (h.upd (by rfl)).threadSet (h.upd (by rfl)))) h)
  | neg => exact execNeg_kept h
  | linkTrained => exact out (both h.setLinkState.sendNeg h)
  | trainingTimeout => exact out (both h.setLinkState h)
  | linkLockLoss => exact out (both h.setLinkState h)
  | linkCntClr => exact out (h.pageAct (fun _ => linkClr))
  | hedCntClr => exact out (h.pageAct (fun _ => hedClr))
  | allReduce => exact h.scriptRun.out
  | reduceScatter => exact h.scriptRun.out
  | allGather => exact h.scriptRun.out
  | broadcast => exact h.scriptRun.out
  | allToAll => exact h.scriptRun.out
  | barrier => exact h.scriptRun.out
  | rackScript => exact out (both h.scriptRun h)
  | bundle => exact h.scriptRun.out
  | chunkStart => exact h.chunkStart.out
  | transferLanded => exact execTransferLanded_kept h
  | collCntClr => exact out (h.pageAct (fun _ => collClr))
  | treeRehash => exact out (both h (h.whenFree (fun _ => rehash)))
  | sealRequest => exact both_out h.out (out (h.whenFree (fun _ => sealRun)))
  | verifyStart => exact out (h.pageAct (fun _ h1 => h1.setFld.verifyBegin))
  | verifyDone => exact both_out h.out (out (h.whenFree (fun _ => verifyEnd)))
  | audCntClr => exact out (h.pageAct (fun _ => audClr))
  | frameReceive => exact both_out h.out (out (both h.addWrap.addSat h.addWrap))
  | arpRequest => exact execArpRequest_kept h
  | neighborSolicitation => exact execNeighborSolicitation_kept h
  | echoRequest => exact out (both h.sendFrame h)
  | ptpSync => exact out (both (both h.setPtp h.syncDone) h)
  | ptpFollowUp => exact out (both h.syncDone h)
  | ptpDelayReq => exact out (both h.sendFrame h)
  | ptpDelayResp => exact out (both h.setPtp.setFld h)
  | ptpAnnounce => exact execPtpAnnounce_kept h
  | ptpLockLost => exact out (both h.setPtp.raise h)
  | openSession => exact both_out h.out (both_out h.authFail.out (both_out h.refuse.out
      (both_out (h.upd (by rfl)).judgeOpen.out (h.upd (by rfl)).out)))
  | openFragmentTimeout => exact (h.upd (by rfl)).out
  | confirm => exact execConfirm_kept h
  | confirmTimeout => exact execConfirmTimeout_kept h
  | data => exact execData_kept h
  | solve => exact h.judgeRequest.out
  | eval => exact h.judgeRequest.out
  | plan => exact h.judgeRequest.out
  | keepalive => exact out (both h.sendRecords h)
  | close => exact out (both h.closeSession h)
  | requestFragmentTimeout => exact execRequestFragmentTimeout_kept h
  | sessionIdleTimeout => exact out (both h.closeSession h)
  | portUp => exact out (both h.setFld.setFld.raise h)
  | portDown => exact h.portDown.out
  | portCntClr => exact out (h.pageAct (fun _ => portClr))
  | trCntClr => exact out (h.pageAct (fun _ => trClr))
  | bar2Access => exact execBar2Access_kept h
  | cxlMemRequest => exact execCxlMemRequest_kept h
  | msixUnmask => exact h.msixUnmask.out
  | queueEnable => exact out (h.queueGate (fun _ => queueCfg))
  | sqDoorbell => exact execSqDoorbell_kept h
  | cqDoorbell => exact out (h.queueGate (fun _ => cqHeadWrite))
  | queueNop => exact out (h.queueCmd (fun _ => h.cmdDone))
  | copyIn => exact out (h.queueCmd (fun _ => both h.cmdDone (h.devSide (fun _ h2 => h2.writeMem.cmdDone))))
  | copyOut => exact execCopyOut_kept h
  | fill => exact out (h.queueCmd (fun _ => h.devSide (fun _ h1 => h1.writeMem.cmdDone)))
  | digest => exact execDigest_kept h
  | queueSig => exact out (h.queueCmd (fun _ => h.wordCmd (fun _ h1 => h1.writeMem.cmdDone)))
  | queueWait => exact out (h.queueCmd (fun _ => h.wordCmd (fun _ h1 => both h1.cmdDone h1.setQueue)))
  | commandComplete => exact execCommandComplete_kept h
  | hostLinkDown => exact h.linkDownHost.out
  | hostLinkUp => exact execHostLinkUp_kept h
  | flr => exact out (both h.resetQueues.flrRegs h.resetQueues)
  | hostPerst => exact execHostPerst_kept h
  | hostCntClr => exact out (h.pageAct (fun _ => hostClr))
  | watchdogExpire => exact out (both h h.countEv.mgmtRestart)
  | mgmtSramUncorr => exact h.countEv.mgmtRestart.out
  | kick => exact out (h.pageAct (fun _ => kick))
  | boot => exact out (both h h.boot)
  | bootDone => exact out (h.pageAct (fun _ => bootDone))
  | warmRst => exact out (h.pageAct (fun _ => askWarm))
  | partRst => exact out (h.pageAct (fun _ => partResets))
  | partResetDone => exact (h.upd (by rfl)).out
  | arbAdvance => exact out (h.pageAct (fun _ => arbAdvance))
  | arbFuseBlow => exact execArbFuseBlow_kept h
  | keyRevoke => exact out (h.pageAct (fun _ => keyRevoke))
  | getVersion => exact h.spdmReply.spdmTo.out
  | getCapabilities => exact h.spdmReply.spdmTo.out
  | negotiateAlgorithms => exact h.spdmReply.spdmTo.out
  | getDigests => exact h.spdmReply.out
  | getCertificate => exact h.spdmReply.out
  | challenge => exact h.spdmReply.out
  | getMeasurements => exact execGetMeasurements_kept h
  | spiNop => exact out (h.spiFrame (fun _ h1 => h1))
  | spiRead => exact out (h.spiFrame (fun _ => sbRead))
  | spiWrite => exact out (h.spiFrame (fun _ => sbWrite))
  | spiBook => exact out (h.spiFrame (fun _ h1 => h1))
  | spiFrameDiscard => exact both_out h.out (h.upd (by rfl)).countEv.out
  | mctpControl => exact h.emit.out
  | readReg => exact both_out h.out h.sbRead.mctpReply.out
  | writeReg => exact both_out h.out h.sbWrite.mctpReply.out
  | readBook => exact execReadBook_kept h
  | extest => exact h.jtagSelect.jtagLoad.out
  | samplePreload => exact h.jtagSelect.jtagLoad.out
  | idcode => exact h.jtagSelect.emit.out
  | highz => exact h.jtagSelect.out
  | clamp => exact h.jtagSelect.out
  | bypass => exact h.jtagSelect.emit.out
  | append => exact out (h.pageAct (fun _ => append))
  | bookRecordWrite => exact out (both h.bookWriteNext h)
  | bookScanDone => exact (h.upd (by rfl)).countEv.setFld.out
  | mgmtCntClr => exact out (h.pageAct (fun _ => mgmtClr))
  | secCntClr => exact out (h.pageAct (fun _ => secClr))
  | bookCntClr => exact out (h.pageAct (fun _ => bookClr))
  | vstbyRise => exact out (both ((h.upd (by rfl)).upd (by rfl)).setFld.setFld (h.upd (by rfl)))
  | vinRise => exact (h.upd (by rfl)).setAlert.out
  | pwrOkRise => exact both_out ((h.upd (by rfl)).upd (by rfl)).setFld.out (h.upd (by rfl)).out
  | pwrOkFall => exact out (both (h.upd (by rfl)) (h.upd (by rfl)).loss)
  | resetNLow => exact out (both (h.askWarm.upd (by rfl)) h)
  | sagOnset => exact out (both h.sagBegin h)
  | sagEnd => exact both_out (h.releaseSag.upd (by rfl)).setFld.setAlert.out h.out
  | sagRecordRelease => exact h.releaseSag.out
  | rideThrough => exact both_out (out (setAlert ((both h h.sagBegin).upd (by rfl)))) h.out
  | lossSequence => exact out (both h.loss h)
  | limiterStep => exact out (both (h.upd (by rfl)).setFld.setFld.countEv (h.upd (by rfl)).setFld.setFld)
  | thermWarn => exact out (both h.setTemp.setAlert.raise.thermalRec h.setTemp.setAlert)
  | thermalClockStep => exact execThermalClockStep_kept h
  | thermCrit => exact execThermCrit_kept h
  | refclkLost => exact out (raise (both h.linkDownHost (both h.shutdown (portDown (portDown (h.foldl (fun _ _ h1 => both h1.linkDown h1)))))))
  | enter => exact out (h.pageAct (fun _ => dormEnter))
  | dormantEntryComplete => exact execDormantEntryComplete_kept h
  | wake => exact out (h.pageAct (fun _ => wakeReg))
  | wakeN => exact out (both h.wake h)
  | wakeComplete => exact execWakeComplete_kept h
  | pwrCntClr => exact out (h.pageAct (fun _ => pwrClr))
  | softResetDone => exact (h.upd (by rfl)).out
  | solveWaitRelease => exact out (both h.setSolver.holdPath h)
  | repairRefusal => exact h.arriveRepair.out
  | alignInterval => exact out (both h.sendAlign h)
  | ptpMessageInterval => exact execPtpMessageInterval_kept h
  | smbusPacketDiscard => exact h.countEv.out
  | heldWarmReset => exact out (both h.setTemp.warmReset h.setTemp)

end

end Sys2Proof.Machine

/-! ## Steps of the device (log entry 3) -/

namespace Sys2Proof.Machine
open Sys2Proof

variable {s t : State}

theorem step_of_empty (h : s.pending = []) : step s = .next s := by
  unfold step
  rw [h]

theorem step_of_cons {c : Instr} {rest : List Instr} (h : s.pending = c :: rest) : step s = exec c { s with pending := rest } := by
  unfold step
  rw [h]

/-- A step answers a next state: what every command keeps of the state without its front command. -/
theorem step_kept (s : State) : KeptOut { s with pending := s.pending.tail } (step s) := by
  cases hp : s.pending with
  | nil =>
    rw [step_of_empty hp]
    exact ⟨s, rfl, hp, id, id, id, id⟩
  | cons c rest =>
    rw [step_of_cons hp]
    exact exec_kept c .refl

theorem kept_of_step (h : step s = .next t) : Kept { s with pending := s.pending.tail } t := by
  obtain ⟨u, hu, hk⟩ := step_kept s
  rw [h] at hu
  cases hu
  exact hk

/-- Settles O55: of the front command's operations none stores a zero byte or a byte out of order. -/
theorem stepKeepsMemoriesCanonical : Obligations.StepKeepsMemoriesCanonical := by
  intro s t ⟨hmem, hnor, hhost⟩ hstep
  have hk := kept_of_step hstep
  exact ⟨hk.mem hmem, hk.nor hnor, hk.host hhost⟩

/-- Settles O57: no operation of a command adds to the queue or takes from it, and no command ends in a fault or a refusal. -/
theorem queueServedInOrder : Obligations.QueueServedInOrder := by
  refine ⟨fun s c rest hp => ?_, fun s => step_of_empty⟩
  obtain ⟨t, ht, hk⟩ := step_kept s
  exact ⟨t, ht, by rw [hk.queue, hp]; rfl⟩

end Sys2Proof.Machine

/-! ## After a reset (R34, R44, R463) -/

namespace Sys2Proof.Machine
open Sys2Proof Sys2Proof.Claims

variable {s t : State} {b : Nat}

/-- The register file lists only fields whose key is below `b`: every field from there on holds its reset value. -/
def RegsBelow (b : Nat) (s : State) : Prop := ∀ e ∈ s.regs, e.1 < b

theorem Tab.mem_set {α : Type} {m : Tab α} {k : Nat} {v : α} {e : Nat × α} (h : e ∈ Tab.set m k v) : e = (k, v) ∨ e ∈ m := by
  induction m with
  | nil => simpa [Tab.set] using h
  | cons x m ih =>
    unfold Tab.set at h
    split at h
    · exact (List.mem_cons.1 h).imp_right (List.mem_cons_of_mem _)
    · split at h
      · exact List.mem_cons.1 h
      · rcases List.mem_cons.1 h with rfl | h
        · exact .inr List.mem_cons_self
        · exact (ih h).imp_right (List.mem_cons_of_mem _)

theorem Tab.get?_of_below {α : Type} {m : Tab α} {k : Nat} (h : ∀ e ∈ m, e.1 < k) : Tab.get? m k = none := by
  induction m with
  | nil => rfl
  | cons x m ih =>
    have hx : x.1 ≠ k := Nat.ne_of_lt (h x List.mem_cons_self)
    simp only [Tab.get?, if_neg hx]
    exact ih fun e he => h e (List.mem_cons_of_mem _ he)

namespace RegsBelow

theorem fld_eq (h : RegsBelow b s) {f : Fld} {i : Nat} (hk : b ≤ f.key i) : s.fld f i = f.resetOf i := by
  have hn : Tab.get? s.regs (f.key i) = none := Tab.get?_of_below fun e he => Nat.lt_of_lt_of_le (h e he) hk
  simp [State.fld, Tab.get, hn]

theorem congr (h : RegsBelow b s) (hr : t.regs = s.regs) : RegsBelow b t := by
  unfold RegsBelow
  rw [hr]
  exact h

theorem ite {c : Prop} [Decidable c] (hs : RegsBelow b s) (ht : RegsBelow b t) : RegsBelow b (if c then s else t) := by
  split
  · exact hs
  · exact ht

theorem ite_fst {α : Type} {c : Prop} [Decidable c] {x y : State × α} (hx : RegsBelow b x.1) (hy : RegsBelow b y.1) :
    RegsBelow b (if c then x else y).1 := by
  split
  · exact hx
  · exact hy

theorem setFld (h : RegsBelow b s) {f : Fld} {i v : Nat} (hk : f.key i < b) : RegsBelow b (s.setFld f i v) := by
  intro e he
  rcases Tab.mem_set he with rfl | he
  · exact hk
  · exact h e he

theorem bookQueue (h : RegsBelow b s) {r : QRec} (hd : F.BOOK_DROP_CNT.key 0 < b) : RegsBelow b (s.bookQueue r).1 := by
  unfold State.bookQueue
  exact ite_fst (h.congr rfl) (setFld (h.congr rfl) hd)

end RegsBelow

@[simp] theorem State.msix_regs (s : State) (vec : Nat) : (s.msix vec).regs = s.regs := by
  unfold State.msix
  split <;> rfl

@[simp] theorem State.deliverIrq_regs (s : State) (ty i b route : Nat) : (s.deliverIrq ty i b route).regs = s.regs := by
  unfold State.deliverIrq
  extract_lets s0 s1
  have h1 : s1.regs = s.regs := by
    simp only [s1]
    split
    · split
      · exact (State.msix_regs _ _).trans (State.msix_regs s _)
      · exact State.msix_regs s _
    · rfl
  split
  · exact h1
  · exact h1

namespace RegsBelow

theorem raiseCore (h : RegsBelow b s) {ty i n : Nat} (he : (F.EVT_STAT ty).key i < b) (hd : F.BOOK_DROP_CNT.key 0 < b) :
    RegsBelow b (s.raiseCore ty i n).1 := by
  unfold State.raiseCore
  split
  · exact h
  · dsimp only
    split
    · exact h
    · have hs : RegsBelow b (s.setFld (F.EVT_STAT ty) i (s.fld (F.EVT_STAT ty) i + 2 ^ n)) := h.setFld he
      split
      · split
        · exact bookQueue (hs.congr (State.deliverIrq_regs ..)) hd
        · exact hs.congr (State.deliverIrq_regs ..)
      · exact hs

/-- The keys that an event of the BOOK page and a dropped record write are below `b`. -/
def bookKeys (b : Nat) : Prop := (F.EVT_STAT 17).key 0 < b ∧ F.BOOK_DROP_CNT.key 0 < b

theorem raiseBook (h : RegsBelow b s) (hb : bookKeys b) {n : Nat} : RegsBelow b (s.raise 17 0 n) :=
  ite (raiseCore (h.raiseCore hb.1 hb.2) hb.1 hb.2) (h.raiseCore hb.1 hb.2)

theorem resetRec (h : RegsBelow b s) (hb : bookKeys b) {kind ty inst : Nat} : RegsBelow b (s.resetRec kind ty inst) :=
  ite (h.bookQueue hb.2) ((h.bookQueue hb.2).raiseBook hb)

theorem countDrop (h : RegsBelow b s) (hb : bookKeys b) {n e : Nat} : RegsBelow b (s.countEv F.BOOK_DROP_CNT 0 n e) :=
  ite h ((h.setFld hb.2).raiseBook hb)

theorem flushBook (h : RegsBelow b s) {n : Nat} : RegsBelow b (s.flushBook n) := by
  induction n generalizing s with
  | zero => exact h
  | succ n ih =>
    refine ite h (ih ?_)
    unfold State.bookWriteNext
    split
    · exact h.congr rfl
    · exact h

end RegsBelow

/-! ### The PART pages -/

/-- The first key of the PART pages. -/
def partKeys : Nat := 18 * 1024 * 4096 * 32

theorem partKeys_le_key {f : Fld} (h : f.ty = 18) (i : Nat) : partKeys ≤ f.key i := by
  unfold partKeys Fld.key
  omega

theorem bookKeys_partKeys : RegsBelow.bookKeys partKeys := by
  unfold RegsBelow.bookKeys
  decide

theorem resetOf_partCoreMap : ∀ p < 8, ∀ k < 16, (F.PART_CORE_MAP.nth k).resetOf p = if p = 0 then 0xFFFFFFFF else 0 := by decide

theorem resetOf_partDramValid : ∀ p < 8, ∀ k < 8, (F.PART_DRAM_RNG_VALID.nth k).resetOf p = if p = 0 ∧ k = 0 then 1 else 0 := by decide

theorem resetOf_partGranules : ∀ p < 8, F.PART_GRAN_OWN0.resetOf p = (if p = 0 then 0xFFFFFFFF else 0) ∧
    F.PART_GRAN_OWN1.resetOf p = (if p = 0 then 0xFFFF else 0) ∧ F.PART_HEDDLE_QUOTA_QUOTA.resetOf p = if p = 0 then 490 else 0 := by decide

/-- PART pages at their reset values give everything to partition 0 (Table 2.10). -/
theorem RegsBelow.initialParts (h : RegsBelow partKeys t) : initialParts t := by
  have hfld : ∀ f : Fld, f.ty = 18 → ∀ i, t.fld f i = f.resetOf i := fun f hf i => h.fld_eq (partKeys_le_key hf i)
  refine ⟨fun c hc => ?_, fun p hp => ⟨fun k hk => ?_, fun k hk => ?_, ?_, ?_⟩⟩
  · have hbit : bitOf (t.fld (F.PART_CORE_MAP.nth (c / 32)) 0) (c % 32) = true := by
      rw [hfld _ rfl, resetOf_partCoreMap 0 (by omega) _ (by omega)]
      exact (by decide : ∀ k < 32, bitOf (if 0 = 0 then 0xFFFFFFFF else 0) k = true) _ (Nat.mod_lt _ (by omega))
    simp [State.corePart, List.range_succ_eq_map, hbit]
  · rw [hfld _ rfl, resetOf_partCoreMap p hp k hk]
  · rw [hfld _ rfl, resetOf_partDramValid p hp k hk]
  · rintro rfl
    exact ⟨hfld _ rfl 0, hfld _ rfl 0⟩
  · rw [hfld F.PART_GRAN_OWN0 rfl, hfld F.PART_GRAN_OWN1 rfl, hfld F.PART_HEDDLE_QUOTA_QUOTA rfl]
    exact resetOf_partGranules p hp

/-! ### Resets -/

theorem regsBelow_resetAll (s : State) : RegsBelow partKeys s.resetAll := by
  intro e he
  have hm : e.1 ∈ standbyKeys := by simpa using (List.mem_filter.1 he).2
  exact (by decide : ∀ k ∈ standbyKeys, k < partKeys) _ hm

theorem regsBelow_warmReset (s : State) : RegsBelow partKeys s.warmReset := by
  refine RegsBelow.resetRec ?_ bookKeys_partKeys
  exact (regsBelow_resetAll s.loseDirty).congr rfl

theorem regsBelow_loss (s : State) (n : Nat) : RegsBelow partKeys (s.loss n) := by
  have hc : RegsBelow partKeys (s.releaseSag 0xFFFFFFFF 1).coldReset := (regsBelow_resetAll _).congr rfl
  have hstandby : F.BOOK_BOOK_STAT_STANDBY.key 0 < partKeys := by decide
  refine RegsBelow.setFld ?_ hstandby
  refine RegsBelow.congr (RegsBelow.countDrop ?_ bookKeys_partKeys) rfl
  exact (hc.flushBook (n := min n (s.releaseSag 0xFFFFFFFF 1).book.queue.length)).congr rfl

theorem askWarm_of_running (h : s.standby = false) (hp : s.pwrState ≠ 4) : s.askWarm = s.warmReset := by
  have hp' : s.fld F.POWER_PWR_STAT_STATE 0 ≠ 4 := hp
  simp [State.askWarm, h, hp']

/-- Settles O52: no reset leaves a value in a PART page, and what follows a reset writes the BOOK page alone. -/
theorem partitionsAfterReset : Obligations.PartitionsAfterReset := by
  refine ⟨RegsBelow.initialParts fun e he => absurd he List.not_mem_nil, fun s => ⟨fun hs hp => ⟨fun ag hw => ?_, fun us hus => ?_⟩, ?_, ?_, ?_⟩⟩
  · refine ⟨s.warmReset, ?_, (regsBelow_warmReset s).initialParts⟩
    show Host.Outcome.next (s.pageAct ag 14 0 0x084 State.askWarm) = _
    have hg : s.pageGate (s.accessOf ag) 14 0 true = 0 := hw
    simp only [State.pageAct, hg, if_true, askWarm_of_running hs hp]
  · refine ⟨{ s.warmReset with power := { s.warmReset.power with resetN := false } }, ?_,
      ((regsBelow_warmReset s).congr rfl).initialParts⟩
    show execResetNLow us s = _
    simp only [execResetNLow, if_pos hus, askWarm_of_running hs hp]
  · intro die temp hc hb
    refine ⟨(s.setTemp die.val temp).warmReset, ?_, (regsBelow_warmReset _).initialParts⟩
    have hc' : (s.setTemp die.val temp).power.critHeld = true := hc
    show execHeldWarmReset die temp s = _
    simp only [execHeldWarmReset, hc', hb, Bool.and_true, if_true]
  · intro hs
    refine ⟨({ s with power := { s.power with pwrPin := false } } : State).loss s.book.queue.length, ?_, (regsBelow_loss _ _).initialParts⟩
    show execPwrOkFall s = _
    simp only [execPwrOkFall, hs, Bool.false_eq_true, if_false]
  · intro n hr
    refine ⟨s.loss n, ?_, (regsBelow_loss _ _).initialParts⟩
    show execLossSequence n s = _
    simp only [execLossSequence, hr, if_true]

/-- Settles O53: at reset no register field is listed, so each holds its reset value. -/
theorem resetValues : Obligations.ResetValues :=
  ⟨fun _ _ => ⟨rfl, rfl⟩, rfl, rfl, rfl, rfl, rfl, rfl, rfl, rfl, rfl, rfl, fun _ _ => rfl⟩

end Sys2Proof.Machine

/-! ## What counting and reporting leave alone

Counters, events and errors write registers, the book's queue and the outputs. `Reports s t` says what else stays when that is all that happens
from `s` to `t`; `SameView s t` is the part of it that the memories of the device show to an access without a partition, and with that the part
that a unit's reads and writes of its own spool rest on. -/

namespace Sys2Proof.Machine
open Sys2Proof Sys2Proof.Claims

variable {s₀ s t u : State}

/-- The page of a key: its type and its place among the pages of that type, as one number. -/
def keyPageNum (k : Nat) : Nat := k / 2 ^ 17

/-- Registers that decide what the memories show: ARR_CTL, UPDATE.LEDGER_BASE, COLL.LAND_BASE, and those of the host window. -/
def viewKey (k : Nat) : Prop :=
  keyOff k = 0x080 ∨ keyOff k = 0x084 ∨ keyOff k = 0x08C ∨ (keyOff k = 0x090 ∧ keyPageNum k < 10240) ∨
    (0x0C0 ≤ keyOff k ∧ keyOff k < 0x140 ∧ 10240 ≤ keyPageNum k)

/-- The counters ARR_RSVD_CNT and MVP_STALL. -/
def countKey (k : Nat) : Prop := keyOff k = 0x0B0 ∨ (keyOff k = 0x0A8 ∧ keyPageNum k < 2048)

/-- The registers that a report leaves alone. -/
def quietKey (k : Nat) : Prop := viewKey k ∨ countKey k

/-- The memories of `t` show what those of `s` show. -/
structure SameView (s t : State) : Prop where
  mem : t.mem = s.mem
  poison : t.poison = s.poison
  hostMem : t.host.mem = s.host.mem
  hostPoison : t.host.poison = s.host.poison
  fences : t.upd = s.upd
  granules : t.cellar.granules = s.cellar.granules
  work : t.pick.work = s.pick.work
  regs : ∀ k, viewKey k → Tab.get? t.regs k = Tab.get? s.regs k

/-- From `s` to `t` the device has only counted and reported. -/
structure Reports (s t : State) : Prop extends SameView s t where
  cores : t.cores = s.cores
  counts : ∀ k, countKey k → Tab.get? t.regs k = Tab.get? s.regs k

theorem SameView.refl : SameView s s := ⟨rfl, rfl, rfl, rfl, rfl, rfl, rfl, fun _ _ => rfl⟩

namespace Reports

theorem refl : Reports s s := ⟨.refl, rfl, fun _ _ => rfl⟩

theorem view (h : Reports s t) : SameView s t := h.toSameView

theorem fld_eq (h : Reports s t) {f : Fld} {i : Nat} (hk : quietKey (f.key i)) : t.fld f i = s.fld f i := by
  unfold State.fld Tab.get
  rw [hk.elim (h.regs _) (h.counts _)]

/-- The state `t` differs from `s` in none of these. -/
theorem upd (h : Reports s₀ s)
    (e : (t.mem, t.poison, t.host.mem, t.host.poison, t.upd, t.cellar.granules, t.pick.work, t.cores, t.regs) =
      (s.mem, s.poison, s.host.mem, s.host.poison, s.upd, s.cellar.granules, s.pick.work, s.cores, s.regs)) : Reports s₀ t := by
  simp only [Prod.mk.injEq] at e
  obtain ⟨hm, hp, hhm, hhp, hf, hg, hw, hc, hr⟩ := e
  exact ⟨⟨hm.trans h.mem, hp.trans h.poison, hhm.trans h.hostMem, hhp.trans h.hostPoison, hf.trans h.fences, hg.trans h.granules,
    hw.trans h.work, fun k hk => by rw [hr]; exact h.regs k hk⟩, hc.trans h.cores, fun k hk => by rw [hr]; exact h.counts k hk⟩

theorem both {c : Prop} [Decidable c] (hs : Reports s₀ s) (ht : Reports s₀ t) : Reports s₀ (if c then s else t) := by
  split
  · exact hs
  · exact ht

theorem both_fst {α : Type} {c : Prop} [Decidable c] {x y : State × α} (hx : Reports s₀ x.1) (hy : Reports s₀ y.1) :
    Reports s₀ (if c then x else y).1 := by
  split
  · exact hx
  · exact hy

theorem setFld {f : Fld} {i v : Nat} (h : Reports s₀ s) (hk : ¬quietKey (f.key i)) : Reports s₀ (s.setFld f i v) := by
  have hother : ∀ k, quietKey k → Tab.get? (s.setFld f i v).regs k = Tab.get? s.regs k := by
    intro k hq
    refine Tab.get?_set_other _ _ ?_
    rintro rfl
    exact hk hq
  exact ⟨⟨h.mem, h.poison, h.hostMem, h.hostPoison, h.fences, h.granules, h.work, fun k hv => (hother k (.inl hv)).trans (h.regs k hv)⟩,
    h.cores, fun k hc => (hother k (.inr hc)).trans (h.counts k hc)⟩

end Reports

/-! ### Keys that reports write -/

theorem keyOff_key {f : Fld} {i : Nat} (ho : f.off < 4096) (hl : f.lo < 32) : keyOff (f.key i) = f.off := by
  unfold keyOff Fld.key
  omega

theorem keyPageNum_key {f : Fld} {i : Nat} (ho : f.off < 4096) (hl : f.lo < 32) : keyPageNum (f.key i) = f.ty * 1024 + i := by
  unfold keyPageNum Fld.key
  omega

/-- Offsets that `quietKey` does not name. -/
def loudOffs : List Nat := [0x018, 0x028, 0x02C, 0x030, 0x088, 0x09C, 0x0A4, 0x0AC, 0x198, 0x1A0]

theorem not_quietKey_of_off {f : Fld} {i : Nat} (hl : f.lo < 32) (ho : f.off ∈ loudOffs) : ¬quietKey (f.key i) := by
  obtain ⟨hlt, hne⟩ := (by decide : ∀ o ∈ loudOffs, o < 4096 ∧ o ≠ 0x080 ∧ o ≠ 0x084 ∧ o ≠ 0x08C ∧ o ≠ 0x090 ∧ o ≠ 0x0B0 ∧
    o ≠ 0x0A8 ∧ ¬(0x0C0 ≤ o ∧ o < 0x140)) _ ho
  unfold quietKey viewKey countKey
  rw [keyOff_key hlt hl]
  omega

/-- The event and error registers that every page has (Table 2.3). -/
theorem not_quietKey_common (ty i : Nat) :
    ∀ f ∈ [F.EVT_STAT ty, F.ERR_CNT ty, F.ERR_FIRST ty, F.ERR_INFO_ADDR_HI ty, F.ERR_INFO_CODE ty, F.ERR_INFO_AGENT ty],
      ¬quietKey (f.key i) := by
  intro f hf
  simp only [List.mem_cons, List.not_mem_nil, or_false] at hf
  rcases hf with rfl | rfl | rfl | rfl | rfl | rfl <;>
    exact not_quietKey_of_off (by simp [F.EVT_STAT, F.ERR_CNT, F.ERR_FIRST, F.ERR_INFO_ADDR_HI, F.ERR_INFO_CODE, F.ERR_INFO_AGENT])
      (by simp [loudOffs, F.EVT_STAT, F.ERR_CNT, F.ERR_FIRST, F.ERR_INFO_ADDR_HI, F.ERR_INFO_CODE, F.ERR_INFO_AGENT])

theorem not_quietKey_missCnt (i : Nat) : ¬quietKey (F.CELLAR_MISS_CNT.key i) := by
  unfold quietKey viewKey countKey keyOff keyPageNum Fld.key F.CELLAR_MISS_CNT
  dsimp only
  omega

theorem not_quietKey_hwinErr : ¬quietKey (F.HOST_HWIN_ERR.key 0) := by
  unfold quietKey viewKey countKey
  decide

theorem not_quietKey_epi {f : Fld} {c : Nat} (hf : f ∈ [F.CORE_EPI_NAN, F.CORE_EPI_OVF, F.CORE_EPI_UNDER]) (hc : c < 512) :
    ¬quietKey (f.key c) := by
  obtain ⟨hty, hlo, h1, h2⟩ := (by decide : ∀ f ∈ [F.CORE_EPI_NAN, F.CORE_EPI_OVF, F.CORE_EPI_UNDER],
    f.ty = 1 ∧ f.lo < 32 ∧ 0x110 ≤ f.off ∧ f.off ≤ 0x118) f hf
  unfold quietKey viewKey countKey
  rw [keyOff_key (by omega) hlo, keyPageNum_key (by omega) hlo, hty]
  omega

/-! ### Events and errors -/

namespace Reports

theorem bookQueue {r : QRec} (h : Reports s₀ s) : Reports s₀ (s.bookQueue r).1 := by
  unfold State.bookQueue
  exact both_fst (h.upd (by rfl)) ((h.upd (by rfl)).setFld (not_quietKey_of_off (by decide) (by decide)))

theorem emit {m : Msg} (h : Reports s₀ s) : Reports s₀ (s.emit m) := h.upd (by rfl)
theorem msix {vec : Nat} (h : Reports s₀ s) : Reports s₀ (s.msix vec) := both h.emit (h.upd (by rfl))

theorem deliverIrq {ty i b route : Nat} (h : Reports s₀ s) : Reports s₀ (s.deliverIrq ty i b route) := by
  have hirq : Reports s₀ (if bitOf route 0 then
      match s.pagePart ty i with
      | some p => (s.msix (vectorOf 0 (s.fld (F.HOST_EVT_VEC.nth ty) 0))).msix (vectorOf (p + 1) 0)
      | none => s.msix (vectorOf 0 (s.fld (F.HOST_EVT_VEC.nth ty) 0))
      else s) := by
    refine both ?_ h
    split
    · exact h.msix.msix
    · exact h.msix
  exact both hirq.emit hirq

theorem raiseCore {ty i b : Nat} (h : Reports s₀ s) : Reports s₀ (s.raiseCore ty i b).1 := by
  unfold State.raiseCore
  split
  · exact h
  · have hs {v : Nat} : Reports s₀ (s.setFld (F.EVT_STAT ty) i v) := h.setFld (not_quietKey_common ty i _ (by simp))
    exact both_fst h (both_fst (both_fst hs.deliverIrq.bookQueue hs.deliverIrq) hs)

theorem raise {ty i b : Nat} (h : Reports s₀ s) : Reports s₀ (s.raise ty i b) := both h.raiseCore.raiseCore h.raiseCore
theorem raiseIf {c : Bool} {ty i b : Nat} (h : Reports s₀ s) : Reports s₀ (s.raiseIf c ty i b) := both h.raise h

theorem countErr {ty i code value agent : Nat} (h : Reports s₀ s) : Reports s₀ (s.countErr ty i code value agent) := by
  have hk := not_quietKey_common ty i
  have hcnt {v : Nat} : Reports s₀ (s.setFld (F.ERR_CNT ty) i v) := h.setFld (hk _ (by simp))
  refine both h (raiseIf (raise (both ?_ hcnt)))
  exact (((hcnt.setFld (hk _ (by simp))).setFld (hk _ (by simp))).setFld (hk _ (by simp))).setFld (hk _ (by simp))

theorem countEv {f : Fld} {i n b : Nat} (h : Reports s₀ s) (hk : ¬quietKey (f.key i)) : Reports s₀ (s.countEv f i n b) :=
  both h (h.setFld hk).raise

theorem countUnavail {page : Nat × Nat} {addr agent : Nat} (h : Reports s₀ s) : Reports s₀ (s.countUnavail page addr agent) :=
  both h.countErr (both (h.countEv (not_quietKey_of_off (f := F.COLL_SCRIPT_ERR) (by decide) (by decide))).countErr h.countErr)

theorem countAccess {page : Nat × Nat} {status addr agent : Nat} {part : Option Nat} (h : Reports s₀ s) :
    Reports s₀ (s.countAccess page status addr agent part) := by
  refine both h.countErr (both ?_ (both h.countUnavail h))
  dsimp only
  split
  · exact h.countErr.countEv (not_quietKey_of_off (f := F.PART_BLOCKED_CNT) (by decide) (by decide))
  · exact h.countErr

theorem accessDone {page : Nat × Nat} {agent : Nat} {part : Option Nat} {x : Acs} (h : Reports s₀ s) :
    Reports s₀ (s.accessDone page agent part x) :=
  countAccess (both (h.countEv not_quietKey_hwinErr) h)

theorem cause {b : Nat} (h : Reports s₀ s) : Reports s₀ (s.cause b) := both h (h.upd (by rfl))
theorem corePoison {c : Nat} {p : Bool} (h : Reports s₀ s) : Reports s₀ (s.corePoison c p) := both h.raise.cause h

/-! ### Reads of an engine -/

theorem touchLine {p a n : Nat} {write : Bool} (h : Reports s₀ s) : Reports s₀ (s.touchLine p a n write) :=
  both ((both (h.setFld (not_quietKey_of_off (f := F.CELLAR_HIT_CNT) (by decide) (by decide))) (h.setFld (not_quietKey_missCnt _))).upd (by rfl)) h

theorem foldl {α : Type} {g : State → α → State} {l : List α} (h : Reports s₀ s) (hg : ∀ t x, Reports s₀ t → Reports s₀ (g t x)) :
    Reports s₀ (l.foldl g s) := by
  induction l generalizing s with
  | nil => exact h
  | cons x l ih => exact ih (hg s x h)

theorem touch {who : Option Nat} {write : Bool} {a n : Nat} (h : Reports s₀ s) : Reports s₀ (s.touch who write a n) := by
  unfold State.touch
  split
  · exact h
  · exact h.foldl fun _ _ => touchLine

theorem unitOow {c a n : Nat} (h : Reports s₀ s) : Reports s₀ (s.unitOow c a n) :=
  both h (h.setFld (not_quietKey_of_off (f := F.CORE_STR_OOW) (by decide) (by decide)))

theorem engineRead {c a n : Nat} (h : Reports s₀ s) : Reports s₀ (s.engineRead c a n []).1 := both h.touch.countErr h.touch

end Reports

/-! ### What the spool shows -/

namespace SameView

theorem trans (h : SameView s t) (h' : SameView t u) : SameView s u :=
  ⟨h'.mem.trans h.mem, h'.poison.trans h.poison, h'.hostMem.trans h.hostMem, h'.hostPoison.trans h.hostPoison, h'.fences.trans h.fences,
    h'.granules.trans h.granules, h'.work.trans h.work, fun k hk => (h'.regs k hk).trans (h.regs k hk)⟩

theorem symm (h : SameView s t) : SameView t s :=
  ⟨h.mem.symm, h.poison.symm, h.hostMem.symm, h.hostPoison.symm, h.fences.symm, h.granules.symm, h.work.symm, fun k hk => (h.regs k hk).symm⟩

/-- Two states go on showing the same while both only report. -/
theorem reports {s' t' : State} (h : SameView s t) (hs : Reports s s') (ht : Reports t t') : SameView s' t' :=
  (hs.view.symm.trans h).trans ht.view

theorem setCore (h : SameView s t) {c : Nat} {x : CoreState} : SameView s (t.setCore c x) :=
  ⟨h.mem, h.poison, h.hostMem, h.hostPoison, h.fences, h.granules, h.work, h.regs⟩

theorem fld_eq (h : SameView s t) {f : Fld} {i : Nat} (hk : viewKey (f.key i)) : t.fld f i = s.fld f i := by
  unfold State.fld Tab.get
  rw [h.regs _ hk]

theorem boundGran_eq (h : SameView s t) (a : Nat) : t.boundGran a = s.boundGran a := by
  unfold State.boundGran
  rw [h.granules]

theorem place_eq (h : SameView s t) (a : Nat) : t.place a = s.place a := by
  unfold State.place
  rw [h.boundGran_eq]

theorem blockBytes_eq (h : SameView s t) (a n : Nat) : t.blockBytes a n = s.blockBytes a n := by
  unfold State.blockBytes
  rw [h.mem, h.hostMem, h.place_eq]

theorem blockPoison_eq (h : SameView s t) (a : Nat) : t.blockPoison a = s.blockPoison a := by
  unfold State.blockPoison
  rw [h.poison, h.hostPoison, h.place_eq]

theorem ledgerUnavail_eq (h : SameView s t) (b : Nat) : t.ledgerUnavail b = s.ledgerUnavail b := by
  have hlo : t.fld F.UPDATE_LEDGER_BASE_LO (b % 8) = s.fld F.UPDATE_LEDGER_BASE_LO (b % 8) :=
    h.fld_eq (.inr (.inr (.inl (keyOff_key (by decide) (by decide)))))
  have hhi : t.fld F.UPDATE_LEDGER_BASE_HI (b % 8) = s.fld F.UPDATE_LEDGER_BASE_HI (b % 8) := by
    refine h.fld_eq (.inr (.inr (.inr (.inl ⟨keyOff_key (by decide) (by decide), ?_⟩))))
    rw [keyPageNum_key (by decide) (by decide)]
    simp only [F.UPDATE_LEDGER_BASE_HI]
    omega
  unfold State.ledgerUnavail State.fldPair
  rw [h.mem, h.place_eq, hlo, hhi]

theorem unavailAt_eq (h : SameView s t) (a : Nat) : t.unavailAt a = s.unavailAt a := by
  unfold State.unavailAt
  simp only [h.fences, h.ledgerUnavail_eq]

theorem landingSlice_eq (h : SameView s t) (a n : Nat) : t.landingSlice a n = s.landingSlice a n := by
  have hpair : ∀ c < 9, t.fldPair F.COLL_LAND_BASE_LO F.COLL_LAND_BASE_HI c = s.fldPair F.COLL_LAND_BASE_LO F.COLL_LAND_BASE_HI c := by
    intro c hc
    have hlo : t.fld F.COLL_LAND_BASE_LO c = s.fld F.COLL_LAND_BASE_LO c := h.fld_eq (.inr (.inr (.inl (keyOff_key (by decide) (by decide)))))
    have hhi : t.fld F.COLL_LAND_BASE_HI c = s.fld F.COLL_LAND_BASE_HI c := by
      refine h.fld_eq (.inr (.inr (.inr (.inl ⟨keyOff_key (by decide) (by decide), ?_⟩))))
      rw [keyPageNum_key (by decide) (by decide)]
      simp only [F.COLL_LAND_BASE_HI]
      omega
    unfold State.fldPair
    rw [hlo, hhi]
  unfold State.landingSlice
  rw [List.find?_congr fun c hc => by rw [hpair c (List.mem_range.1 hc)]]

/-- The registers of a range of the host window (Table 16.6). -/
def hwinFlds : List Fld := [F.HOST_HWIN_BASE_LO, F.HOST_HWIN_BASE_HI, F.HOST_HWIN_LEN, F.HOST_HWIN_CTL_VALID]

theorem hwin_fld_eq (h : SameView s t) {f : Fld} {k : Nat} (hf : f ∈ hwinFlds) (hk : k < 8) : t.fld (f.nth k) 0 = s.fld (f.nth k) 0 := by
  obtain ⟨hty, hlo, hoff, hend, hstride⟩ := (by decide : ∀ f ∈ hwinFlds, f.ty = 10 ∧ f.lo < 32 ∧ 0x0C0 ≤ f.off ∧ f.off < 0x0D0 ∧ f.stride = 16) f hf
  have hn : (f.nth k).off = f.off + k * 16 := by simp [Fld.nth, hstride]
  have hty' : (f.nth k).ty = 10 := hty
  have hlo' : (f.nth k).lo < 32 := hlo
  refine h.fld_eq (.inr (.inr (.inr (.inr ?_))))
  rw [keyOff_key (by omega) hlo', keyPageNum_key (by omega) hlo']
  omega

theorem hwinOf_none_eq (h : SameView s t) (a : Nat) : t.hwinOf none a = s.hwinOf none a := by
  have hctl : t.fld F.HOST_HOST_CTL 0 = s.fld F.HOST_HOST_CTL 0 := h.fld_eq (.inr (.inl (by decide)))
  have hlink : t.fld F.HOST_LINK_STAT_LINK_UP 0 = s.fld F.HOST_LINK_STAT_LINK_UP 0 := h.fld_eq (.inl (by decide))
  unfold State.hwinOf State.flag
  rw [hctl, hlink, List.find?_congr fun k hk => ?_]
  have hk8 : k < 8 := List.mem_range.1 hk
  rw [h.hwin_fld_eq (f := F.HOST_HWIN_BASE_LO) (by decide) hk8, h.hwin_fld_eq (f := F.HOST_HWIN_BASE_HI) (by decide) hk8,
    h.hwin_fld_eq (f := F.HOST_HWIN_LEN) (by decide) hk8, h.hwin_fld_eq (f := F.HOST_HWIN_CTL_VALID) (by decide) hk8]

/-- An access that no partition bounds comes to the same. -/
theorem check_none_eq (h : SameView s t) (write : Bool) (a : Nat) (coll : Bool) : t.check none write a coll = s.check none write a coll := by
  have hmap : t.checkMap none write a = s.checkMap none write a := by
    unfold State.checkMap State.granule
    rw [h.granules, h.hwinOf_none_eq]
  unfold State.check
  rw [hmap, h.landingSlice_eq, h.unavailAt_eq, h.boundGran_eq]

theorem readMem_none_eq (h : SameView s t) (a n : Nat) : t.readMem none a n = s.readMem none a n := by
  unfold State.readMem State.checkAll
  simp only [h.check_none_eq, h.blockBytes_eq, h.blockPoison_eq]

theorem windowRead_eq (h : SameView s t) (c a n : Nat) : t.windowRead c a n = s.windowRead c a n := by
  unfold State.windowRead
  simp only [h.readMem_none_eq, h.blockPoison_eq]

theorem descRead_eq (h : SameView s t) (c a n align : Nat) : t.descRead c a n align = s.descRead c a n align := by
  unfold State.descRead
  rw [h.windowRead_eq]

theorem spoolElems_eq (h : SameView s t) (c a w n : Nat) : t.spoolElems c a w n = s.spoolElems c a w n := by
  unfold State.spoolElems
  simp only [h.windowRead_eq, h.blockPoison_eq]

theorem windowL_eq (h : SameView s t) (c : Nat) : t.windowL c = s.windowL c := by
  have hmode : t.fld F.CORE_ARR_CTL_MUST_MODE c = s.fld F.CORE_ARR_CTL_MUST_MODE c := h.fld_eq (.inl (keyOff_key (by decide) (by decide)))
  unfold State.windowL State.flag
  rw [hmode]

/-! ### Writes to the spool -/

theorem foldl {α : Type} {g g' : State → α → State} {l : List α} (h : SameView s t)
    (hg : ∀ s t x, SameView s t → SameView (g s x) (g' t x)) : SameView (l.foldl g s) (l.foldl g' t) := by
  induction l generalizing s t with
  | nil => exact h
  | cons x l ih => exact ih (hg s t x h)

theorem storeBlock (h : SameView s t) (a : Nat) (bytes : List Byte) (pz : Bool) : SameView (s.storeBlock a bytes pz) (t.storeBlock a bytes pz) := by
  unfold State.storeBlock
  split
  · exact h
  · split
    · exact ⟨h.mem, h.poison, by rw [h.hostMem], by rw [h.hostPoison], h.fences, h.granules, h.work, h.regs⟩
    · exact ⟨by rw [h.mem, h.place_eq], by rw [h.poison, h.place_eq], h.hostMem, h.hostPoison, h.fences, h.granules, h.work, h.regs⟩

theorem writeBy (h : SameView s t) (a : Nat) (bytes : List Byte) (pz : Nat → Nat → Bool) :
    SameView (s.writeBy none a bytes pz) (t.writeBy none a bytes pz) := by
  unfold State.writeBy
  simp only [h.check_none_eq]
  refine h.foldl fun s' t' x h' => ?_
  split
  · exact h'.storeBlock ..
  · exact h'

theorem windowWriteBy (h : SameView s t) (c a : Nat) (bytes : List Byte) (pz : Nat → Nat → Bool) :
    SameView (s.windowWriteBy c a bytes pz) (t.windowWriteBy c a bytes pz) := by
  unfold State.windowWriteBy
  dsimp only
  split
  · exact h.writeBy ..
  · exact h

theorem windowWrite (h : SameView s t) (c a : Nat) (bytes : List Byte) (pz : List Nat) :
    SameView (s.windowWrite c a bytes pz) (t.windowWrite c a bytes pz) :=
  h.windowWriteBy ..

end SameView

/-! ### The writes leave the cores -/

theorem storeBlock_cores (s : State) (a : Nat) (bytes : List Byte) (pz : Bool) : (s.storeBlock a bytes pz).cores = s.cores := by
  unfold State.storeBlock
  split
  · rfl
  · split <;> rfl

theorem foldl_cores {α : Type} {g : State → α → State} (hg : ∀ t x, (g t x).cores = t.cores) (l : List α) (s : State) :
    (l.foldl g s).cores = s.cores := by
  induction l generalizing s with
  | nil => rfl
  | cons x l ih => exact (ih (g s x)).trans (hg s x)

theorem writeBy_cores (s : State) (who : Option Nat) (a : Nat) (bytes : List Byte) (pz : Nat → Nat → Bool) (coll : Bool) :
    (s.writeBy who a bytes pz coll).cores = s.cores := by
  refine foldl_cores (fun t x => ?_) _ s
  split
  · exact storeBlock_cores ..
  · rfl

theorem windowWriteBy_cores (s : State) (c a : Nat) (bytes : List Byte) (pz : Nat → Nat → Bool) :
    (s.windowWriteBy c a bytes pz).cores = s.cores := by
  unfold State.windowWriteBy
  dsimp only
  split
  · exact writeBy_cores ..
  · rfl

/-! ## The matrix-vector path -/

theorem SameView.mvTerms_eq (h : SameView s t) (c : Nat) (m : MvBlock) (j : MvJob) : t.mvTerms c m j = s.mvTerms c m j := by
  unfold State.mvTerms
  simp only [h.spoolElems_eq]

theorem SameView.mvStatus (h : SameView s t) (c : Nat) (m : MvBlock) (outs : List (EOut × Bool)) :
    SameView (s.mvStatus c m outs) (t.mvStatus c m outs) := by
  unfold State.mvStatus
  refine h.foldl fun s t g h => ?_
  have htsw (word : Nat) : SameView
      (if m.tswEn then (s.unitOow c (m.tsw + 8 * g.2) 8).windowWrite c (m.tsw + 8 * g.2) (toLe 8 word) [] else s)
      (if m.tswEn then (t.unitOow c (m.tsw + 8 * g.2) 8).windowWrite c (m.tsw + 8 * g.2) (toLe 8 word) [] else t) := by
    split
    · exact (h.reports Reports.refl.unitOow Reports.refl.unitOow).windowWrite ..
    · exact h
  dsimp only
  split
  · exact ((htsw _).reports Reports.refl.unitOow Reports.refl.unitOow).windowWrite ..
  · exact htsw _

theorem mvStatus_cores (s : State) (c : Nat) (m : MvBlock) (outs : List (EOut × Bool)) : (s.mvStatus c m outs).cores = s.cores := by
  refine foldl_cores (fun t g => ?_) _ s
  have htsw (word : Nat) :
      (if m.tswEn then (t.unitOow c (m.tsw + 8 * g.2) 8).windowWrite c (m.tsw + 8 * g.2) (toLe 8 word) [] else t).cores = t.cores := by
    split
    · exact (windowWriteBy_cores ..).trans Reports.refl.unitOow.cores
    · rfl
  dsimp only
  split
  · exact ((windowWriteBy_cores ..).trans Reports.refl.unitOow.cores).trans (htsw _)
  · exact htsw _

/-- What the counters of the outputs report. -/
theorem Reports.epiCounts (h : Reports s₀ s) {c : Nat} (hc : c < 512) (nan ovf under : Nat) :
    Reports s₀ (((s.countEv F.CORE_EPI_NAN c nan Ev.CORE_EPI_NAN).addSat F.CORE_EPI_OVF c ovf).addSat F.CORE_EPI_UNDER c under) :=
  ((h.countEv (not_quietKey_epi (by simp) hc)).setFld (not_quietKey_epi (by simp) hc)).setFld (not_quietKey_epi (by simp) hc)

theorem Reports.mvElems (h : Reports s₀ s) (c n : Nat) : Reports s₀ (s.addWrap F.CORE_MVP_ELEMS c n) :=
  h.setFld (not_quietKey_of_off (by decide) (by decide))

/-- The result of a matrix-vector command rests on what the memories show, the window L and the pick's number. -/
theorem SameView.mvRun (h : SameView s t) {c : Nat} (hc : c < 512) (m : MvBlock) (j : MvJob) : SameView (s.mvRun c m j) (t.mvRun c m j) := by
  unfold State.mvRun
  simp only [h.windowL_eq, h.mvTerms_eq, h.spoolElems_eq, h.work]
  refine SameView.reports (SameView.mvStatus (SameView.reports ?_ (Reports.refl.epiCounts hc ..) (Reports.refl.epiCounts hc ..)) ..)
    Reports.refl.corePoison Reports.refl.corePoison
  exact SameView.windowWriteBy
    (h.reports (Reports.refl.unitOow.mvElems ..).unitOow (Reports.refl.unitOow.mvElems ..).unitOow) ..

theorem mvRun_cores (s : State) {c : Nat} (hc : c < 512) (m : MvBlock) (j : MvJob) : (s.mvRun c m j).cores = s.cores := by
  unfold State.mvRun
  refine (Reports.refl.corePoison.cores.trans (mvStatus_cores ..)).trans ((Reports.refl.epiCounts hc ..).cores.trans ?_)
  exact (windowWriteBy_cores ..).trans (Reports.refl.unitOow.mvElems ..).unitOow.cores

end Sys2Proof.Machine

/-! ### Passes join the array's queue -/

namespace Sys2Proof.Machine
open Sys2Proof Sys2Proof.Claims

variable {s t : State}

@[simp] theorem State.arr_setArr_same (s : State) (c n : Nat) (x : ArrState) : (s.setArr c n x).arr c n = x := by simp [State.arr, State.setArr]

theorem arr_went (i : Issue) (s : State) (n : Nat) : (went i s).arr i.core.val n = s.arr i.core.val n := by
  unfold State.arr went
  rw [State.core_advance_same]

theorem ready_canIssue {op : Nat} {i : Issue} (hr : ready i s) (hf : fetched op i s) : s.canIssue op i = true := by
  obtain ⟨hst, hwait, -⟩ := hr
  have hir : (s.strand i.core.val i.strand.val).ir = some (wordOf op i) := hf
  simp [State.canIssue, hst, hwait, hir]

/-- `settle` only takes reserved passes from the front of the queue to the drain. -/
structure Settled (x y : ArrState) : Prop where
  live : y.live = x.live
  active : y.active = x.active
  shadow : y.shadow = x.shadow
  vat : y.vat = x.vat

theorem settle_settled (x : ArrState) (n : Nat) : Settled x (x.settle n) := by
  induction n generalizing x with
  | zero => exact ⟨rfl, rfl, rfl, rfl⟩
  | succ n ih =>
    unfold ArrState.settle
    split
    · exact ⟨rfl, rfl, rfl, rfl⟩
    · split
      · obtain ⟨hl, ha, hs, hv⟩ := ih _
        exact ⟨hl, ha, hs, hv⟩
      · exact ⟨rfl, rfl, rfl, rfl⟩

/-- A pass that is not reserved stays the last of the queue. -/
theorem settle_getLast {x : ArrState} {q : PassJob} (hq : q.zero = false) (hx : x.passes.getLast? = some q) (n : Nat) :
    (x.settle n).passes.getLast? = some q := by
  induction n generalizing x with
  | zero => exact hx
  | succ n ih =>
    unfold ArrState.settle
    split
    · exact hx
    next p rest hp =>
      rw [hp] at hx
      split
      next hz =>
        refine ih ?_
        cases rest with
        | nil =>
          obtain rfl : p = q := by simpa using hx
          exact absurd hz (by simp [hq])
        | cons p' rest' => simpa [List.getLast?_cons_cons] using hx
      next => rw [hp]; exact hx

theorem join_getLast (x : ArrState) {p : PassJob} (hp : p.zero = false) :
    (x.join p).passes.getLast? = some { p with id := x.nextId, order := x.order } :=
  settle_getLast (q := { p with id := x.nextId, order := x.order }) hp (by simp) _

theorem join_settled (x : ArrState) (p : PassJob) : Settled { x with live := x.live ++ [(x.nextId, p.strand)] } (x.join p) := by
  obtain ⟨hl, ha, hs, hv⟩ := settle_settled { x with
    nextId := x.nextId + 1, order := x.order + 1, passes := x.passes ++ [{ p with id := x.nextId, order := x.order }]
    live := x.live ++ [(x.nextId, p.strand)]
    writes := match p.epi with
      | some e => x.writes ++ [(x.nextId, x.order, e.spoolWrites p.m)]
      | none => x.writes } (x.passes.length + 1)
  exact ⟨hl, ha, hs, hv⟩

/-- A counter with an event goes up by `n`, and stops at its greatest value. -/
theorem countEv_counts (s : State) {f : Fld} {i n b : Nat} (hq : quietKey (f.key i)) : Counts f i n s (s.countEv f i n b) := by
  intro hlt
  unfold State.countEv
  split
  next h =>
    rcases h with rfl | h
    · simp; omega
    · omega
  next h =>
    rw [(Reports.refl.raise (s := s.addSat f i n)).fld_eq hq]
    simp only [State.addSat, State.fld_setFld_same, satAdd]
    exact Nat.mod_eq_of_lt (by omega)

theorem quietKey_arrRsvd (c : Nat) : quietKey (F.CORE_ARR_RSVD_CNT.key c) := .inr (.inl (keyOff_key (by decide) (by decide)))

/-- A reserved pass only reports, but for its own counter. -/
theorem arrRsvd_mem_cores (s : State) (c : Nat) : (s.arrRsvd c).mem = s.mem ∧ (s.arrRsvd c).cores = s.cores := by
  unfold State.arrRsvd State.countEv
  split
  · exact ⟨rfl, rfl⟩
  · have h := Reports.refl.raise (s := s.addSat F.CORE_ARR_RSVD_CNT c 1) (ty := 1) (i := c) (b := Ev.CORE_ARR_RSVD)
    exact ⟨h.mem, h.cores⟩

theorem fld_went_arrRsvd (i : Issue) (s : State) (c : Nat) : (went i s).fld F.CORE_ARR_RSVD_CNT c = s.fld F.CORE_ARR_RSVD_CNT c := by
  refine State.fld_advance s ?_
  unfold Fld.key F.CORE_ARR_RSVD_CNT F.CORE_STR_ISSUED
  dsimp only
  omega

/-- A pass of a strand that may issue it and owns the array, with the bytes `b` of its block and its epilogue descriptor read. -/
structure PassRead (i : Issue) (s : State) (b : List Byte) (epi : Option EpiDesc) : Prop where
  ready : ready i s
  spl : i.spl = []
  room : (s.arr i.core.val (modBits i 0 1)).waiting < 8
  written : (s.arr i.core.val (modBits i 0 1)).unwritten (s.arr i.core.val (modBits i 0 1)).order (s.ra i) 64 = false
  fields : unusedZero i false true false 1 0 = true
  owns : s.owns i.core.val i.strand.val (1 + modBits i 0 1) = true
  block : (went i s).descRead i.core.val (s.ra i) 64 64 = some (b, false)
  zeros : passReservedZero b = true
  noEpi : epi = none → fieldOf b 32 6 = 0
  someEpi : ∀ e, epi = some e → fieldOf b 32 6 ≠ 0 ∧ (went i s).epiRead i.core.val (fieldOf b 32 6) = some (e, false)

namespace PassRead

variable {i : Issue} {b : List Byte} {epi : Option EpiDesc} {op : Nat}

/-- The pass in the array's queue. -/
def joined (i : Issue) (s : State) (b : List Byte) (epi : Option EpiDesc) : ArrState :=
  let x := s.arr i.core.val (modBits i 0 1)
  let p := passOf b
  let warp := if isSwap p.warpOp then x.ordShadow else x.ordActive
  { x.join { p with strand := i.strand.val, epi := epi, wfmt := warp.getD 0 } with
    ordActive := warp, ordShadow := if isSwap p.warpOp then none else x.ordShadow
    ordRows := if p.init then p.rows.foldl insertNat x.ordRows else x.ordRows }

/-- The state after a reserved pass. -/
def refused (i : Issue) (s : State) (b : List Byte) (epi : Option EpiDesc) : State :=
  let c := i.core.val
  let n := modBits i 0 1
  let u := (went i s).arrRsvd c
  match epi with
  | some e => if e.zeroDest && (passOf b).m != 0 then
      u.setArr c n ((u.arr c n).join { passOf b with strand := i.strand.val, epi := epi, zero := true }) else u
  | none => u

theorem refused_cases (i : Issue) (s : State) (b : List Byte) (epi : Option EpiDesc) :
    let u := (went i s).arrRsvd i.core.val
    refused i s b epi = u ∨
      ∃ p, refused i s b epi = u.setArr i.core.val (modBits i 0 1) ((u.arr i.core.val (modBits i 0 1)).join p) := by
  unfold refused
  cases epi with
  | none => exact .inl rfl
  | some e =>
    dsimp only
    split
    · exact .inr ⟨_, rfl⟩
    · exact .inl rfl

/-- What a pass does once its block is read (R140, R146, R241). -/
theorem passCmd_eq (h : PassRead i s b epi) (hf : fetched op i s) : s.passCmd op i =
    if (s.arr i.core.val (modBits i 0 1)).passOk (passOf b) then (went i s).setArr i.core.val (modBits i 0 1) (joined i s b epi)
    else refused i s b epi := by
  have hwait : ¬(8 ≤ (s.arr i.core.val (modBits i 0 1)).waiting ∨
      (s.arr i.core.val (modBits i 0 1)).unwritten (s.arr i.core.val (modBits i 0 1)).order (s.ra i) 64 = true) := by
    simp [h.written, h.room]
  have hok : (unusedZero i false true false 1 0 && s.owns i.core.val i.strand.val (1 + modBits i 0 1)) = true := by
    rw [h.fields, h.owns, Bool.and_self]
  have hblock : (s.advance i.core.val i.strand.val).descRead i.core.val (s.ra i) 64 64 = some (b, false) := h.block
  have harr : (s.advance i.core.val i.strand.val).arr i.core.val (modBits i 0 1) = s.arr i.core.val (modBits i 0 1) := arr_went i s _
  unfold State.passCmd
  rw [if_neg hwait, State.issue_ready s i _ (ready_canIssue h.ready hf) h.ready.2.2 hok]
  simp only [h.spl, State.splEcc_none, State.ra_advance, hblock, harr, h.zeros]
  cases epi with
  | none => simp [h.noEpi rfl, joined, refused, went]
  | some e =>
    obtain ⟨hne, hepi⟩ := h.someEpi e rfl
    have hepi' : (s.advance i.core.val i.strand.val).epiRead i.core.val (fieldOf b 32 6) = some (e, false) := hepi
    simp [hne, hepi', joined, refused, went]

/-- A pass that is no reserved encoding joins the queue. -/
theorem joins (h : PassRead i s b epi) (hf : fetched op i s) (hok : (s.arr i.core.val (modBits i 0 1)).passOk (passOf b) = true) :
    let x := s.arr i.core.val (modBits i 0 1)
    let warp := if isSwap (passOf b).warpOp then x.ordShadow else x.ordActive
    let y := (s.passCmd op i).arr i.core.val (modBits i 0 1)
    y.passes.getLast? = some { passOf b with id := x.nextId, strand := i.strand.val, order := x.order, epi := epi, wfmt := warp.getD 0 } ∧
      y.live = x.live ++ [(x.nextId, i.strand.val)] ∧ y.ordActive = warp ∧ (s.passCmd op i).mem = s.mem := by
  intro x warp y
  have hs : s.passCmd op i = (went i s).setArr i.core.val (modBits i 0 1) (joined i s b epi) := by rw [h.passCmd_eq hf, if_pos hok]
  have hy : y = joined i s b epi := by simp only [y, hs, State.arr_setArr_same]
  rw [hy, hs]
  exact ⟨join_getLast x rfl, (join_settled x _).live, rfl, rfl⟩

/-- A reserved pass counts, and leaves the warps and the vat. -/
theorem refuses (h : PassRead i s b epi) (hf : fetched op i s) (hok : (s.arr i.core.val (modBits i 0 1)).passOk (passOf b) = false) :
    let x := s.arr i.core.val (modBits i 0 1)
    let y := (s.passCmd op i).arr i.core.val (modBits i 0 1)
    Counts F.CORE_ARR_RSVD_CNT i.core.val 1 s (s.passCmd op i) ∧ y.active = x.active ∧ y.shadow = x.shadow ∧ y.vat = x.vat ∧
      (s.passCmd op i).mem = s.mem := by
  have hs : s.passCmd op i = refused i s b epi := by rw [h.passCmd_eq hf, hok, if_neg Bool.false_ne_true]
  obtain ⟨hmem, hcores⟩ := arrRsvd_mem_cores (went i s) i.core.val
  have harr : ((went i s).arrRsvd i.core.val).arr i.core.val (modBits i 0 1) = s.arr i.core.val (modBits i 0 1) := by
    rw [← arr_went i s]
    unfold State.arr State.core
    rw [hcores]
  have hcount : Counts F.CORE_ARR_RSVD_CNT i.core.val 1 s ((went i s).arrRsvd i.core.val) := by
    have := countEv_counts (went i s) (n := 1) (b := Ev.CORE_ARR_RSVD) (quietKey_arrRsvd i.core.val)
    unfold Counts at this ⊢
    rwa [fld_went_arrRsvd] at this
  rw [hs]
  rcases refused_cases i s b epi with hr | ⟨p, hr⟩
  · rw [hr, harr]
    exact ⟨hcount, rfl, rfl, rfl, hmem⟩
  · rw [hr, State.arr_setArr_same, harr]
    obtain ⟨-, hactive, hshadow, hvat⟩ := join_settled (s.arr i.core.val (modBits i 0 1)) p
    exact ⟨hcount, hactive, hshadow, hvat, hmem⟩

end PassRead

/-- APASS and APASSV. -/
theorem arrayPassJoinsQueue : ArrayPassJoinsQueue := by
  intro i s b epi hready hspl c n x warp hroom hwritten hfields howns hblock hzeros hno hsome p hp
  have h : PassRead i s b epi := ⟨hready, hspl, hroom, hwritten, hfields, howns, hblock, hzeros, hno, hsome⟩
  simp only [List.mem_cons, List.not_mem_nil, or_false] at hp
  rcases hp with rfl | rfl
  · exact ⟨fun hok hf => ⟨_, rfl, h.joins hf hok⟩, fun hok hf => ⟨_, rfl, h.refuses hf hok⟩⟩
  · exact ⟨fun hok hf => ⟨_, rfl, h.joins hf hok⟩, fun hok hf => ⟨_, rfl, h.refuses hf hok⟩⟩

end Sys2Proof.Machine

/-! ### Matrix-vector commands -/

namespace Sys2Proof.Machine
open Sys2Proof Sys2Proof.Claims

variable {s t : State} {c : Nat}

/-- The path takes nothing while a command or a solver engine has it. -/
theorem mvTry_of_busy (h : (s.core c).mvp.isSome = true ∨ (s.core c).mvpHolder.isSome = true) : s.mvTry c = s := by
  unfold State.mvTry
  refine if_neg ?_
  rcases h with h | h
  · simp [Option.isNone_eq_false_iff.2 h]
  · simp [Option.isNone_eq_false_iff.2 h]

theorem mvTry_of_free (hm : (s.core c).mvp = none) (hh : (s.core c).mvpHolder = none) : s.mvTry c = s.mvDrain c (s.core c).mvpQueue := by
  simp [State.mvTry, hm, hh]

/-- With no command waiting the path changes nothing but an empty queue. -/
theorem mvTry_of_empty (hq : (s.core c).mvpQueue = []) : (s.mvTry c).mem = s.mem ∧ ((s.mvTry c).core c).mvp = (s.core c).mvp := by
  unfold State.mvTry
  dsimp only
  split
  · rw [hq]
    exact ⟨rfl, by rw [State.mvDrain, State.core_setCore_same]⟩
  · exact ⟨rfl, rfl⟩

/-- The lines that a command reads first. -/
def MvBlock.firstReads (m : MvBlock) : List (Nat × Nat) := if m.kind = 3 then linePieces m.scale ((m.rows + 1) * 4) else m.lines []

theorem mvStep_of_waiting {j : MvJob} (h : j.reads ≠ [] ∨ j.out ≠ 0) : s.mvStep c j = (s, some j) := by
  unfold State.mvStep
  refine if_pos ?_
  rcases h with h | h
  · simp [h]
  · simp [h]

theorem mvStep_of_complete {j : MvJob} (hr : j.reads = []) (ho : j.out = 0) (hk : (mvBlockOf j.block).kind ≠ 3 ∨ j.offsets = true) :
    s.mvStep c j = (s.mvRun c (mvBlockOf j.block) j, none) := by
  have hno : ¬((mvBlockOf j.block).kind = 3 ∧ j.offsets = false) := by
    rintro ⟨h3, hoff⟩
    rcases hk with hk | hk
    · exact hk h3
    · simp [hoff] at hk
  simp [State.mvStep, hr, ho, if_neg hno]

/-- A command whose block is read and is no reserved encoding takes its first step. -/
theorem mvStart_eq {i : Issue} {l : List Byte} (n a : Nat) (hspl : i.spl = []) (hb : s.descRead i.core.val a 96 32 = some (l, false))
    (hz : mvReservedZero l = true) (hok : (mvBlockOf l).ok = true) :
    let r := s.mvStep i.core.val { strand := n, block := l, reads := (mvBlockOf l).firstReads }
    s.mvStart n i a = r.1.setCore i.core.val { r.1.core i.core.val with mvp := r.2 } := by
  unfold State.mvStart
  simp only [hspl, State.splEcc_none, hb, hz, hok, Bool.and_self, if_true, State.corePoison_false]
  rfl

/-- The state in which the command waits in the queue, which has waited for a reservation since `w`. -/
def queued (i : Issue) (s : State) (w : Option Nat) : State :=
  let u := went i s
  u.setCore i.core.val { u.core i.core.val with
    mvpQueue := (s.core i.core.val).mvpQueue ++ [(i.strand.val, i, s.ra i)]
    mvpWait := w }

/-- A command that a strand may issue, and for which the path's queue has room. -/
structure MvIssued (i : Issue) (s : State) : Prop where
  ready : ready i s
  spl : i.spl = []
  fetched : fetched 0x3B i s
  room : (s.core i.core.val).mvpQueue.length < 4
  fields : unusedZero i false true false 0 0 = true
  owns : s.owns i.core.val i.strand.val 3 = true

namespace MvIssued

variable {i : Issue}

/-- The command joins the queue, and the path takes what it can. -/
theorem mvCmd_eq (h : MvIssued i s) : s.mvCmd 0x3B i =
    let k := s.core i.core.val
    let t := queued i s (if k.mvpHolder.isSome then some (k.mvpWait.getD i.cyc) else k.mvpWait)
    if k.mvpHolder.isNone && k.mvpWait.isSome then t.mvRelease i.core.val i.cyc else t.mvTry i.core.val := by
  have hok : (unusedZero i false true false 0 0 && s.owns i.core.val i.strand.val 3) = true := by rw [h.fields, h.owns, Bool.and_self]
  have hroom : ¬4 ≤ (s.core i.core.val).mvpQueue.length := Nat.not_le.2 h.room
  unfold State.mvCmd
  rw [if_neg hroom, State.issue_ready s i _ (ready_canIssue h.ready h.fetched) h.ready.2.2 hok]
  simp only [State.ra_advance, queued, went, State.core_advance_same]

/-- While a solver engine holds the path the command waits, and its cycles count. -/
theorem mvCmd_of_held (h : MvIssued i s) (hh : (s.core i.core.val).mvpHolder.isSome = true) :
    s.mvCmd 0x3B i = queued i s (some ((s.core i.core.val).mvpWait.getD i.cyc)) := by
  have hnone : (s.core i.core.val).mvpHolder.isNone = false := by simpa using hh
  have hholder (w : Option Nat) : ((queued i s w).core i.core.val).mvpHolder = (s.core i.core.val).mvpHolder := by
    simp only [queued, went, State.core_setCore_same, State.core_advance_same]
  rw [h.mvCmd_eq]
  simp only [hnone, Bool.false_and, if_neg Bool.false_ne_true, if_pos hh]
  exact mvTry_of_busy (.inr ((hholder _).symm ▸ hh))

theorem mvCmd_of_unheld (h : MvIssued i s) (hh : (s.core i.core.val).mvpHolder = none) (hw : (s.core i.core.val).mvpWait = none) :
    s.mvCmd 0x3B i = (queued i s none).mvTry i.core.val := by
  rw [h.mvCmd_eq]
  simp [hh, hw]

/-- A path that is free, with no command before this one, takes it. -/
theorem mvCmd_of_free (h : MvIssued i s) (hh : (s.core i.core.val).mvpHolder = none) (hw : (s.core i.core.val).mvpWait = none)
    (hm : (s.core i.core.val).mvp = none) (hq : (s.core i.core.val).mvpQueue = []) :
    s.mvCmd 0x3B i = (queued i s none).mvDrain i.core.val [(i.strand.val, i, s.ra i)] := by
  have hc : (queued i s none).core i.core.val = { (went i s).core i.core.val with mvpQueue := [(i.strand.val, i, s.ra i)], mvpWait := none } := by
    simp only [queued, State.core_setCore_same, hq, List.nil_append]
  rw [h.mvCmd_of_unheld hh hw, mvTry_of_free (by rw [hc]; simp [went, State.core_advance_same, hm])
    (by rw [hc]; simp [went, State.core_advance_same, hh]), hc]

end MvIssued

theorem queued_view (i : Issue) (s : State) (w : Option Nat) : SameView (went i s) (queued i s w) := Reports.refl.view.setCore

/-- The path takes the one command of its queue, from block `l`, which is no reserved encoding. -/
theorem mvDrain_one {i : Issue} {l : List Byte} {n a : Nat} (hspl : i.spl = []) (hb : s.descRead i.core.val a 96 32 = some (l, false))
    (hz : mvReservedZero l = true) (hok : (mvBlockOf l).ok = true) :
    let c := i.core.val
    let r := s.mvStep c { strand := n, block := l, reads := (mvBlockOf l).firstReads }
    let t := s.mvDrain c [(n, i, a)]
    t.mem = r.1.mem ∧ (t.core c).mvp = r.2 ∧ (t.core c).mvpQueue = [] := by
  intro c r t
  have hstart : s.mvStart n i a = r.1.setCore c { r.1.core c with mvp := r.2 } := mvStart_eq n a hspl hb hz hok
  have ht : t = (r.1.setCore c { r.1.core c with mvp := r.2 }).setCore c
      { (r.1.setCore c { r.1.core c with mvp := r.2 }).core c with mvpQueue := [] } := by
    simp only [t, State.mvDrain, hstart]
    split <;> rfl
  rw [ht, State.core_setCore_same, State.core_setCore_same]
  exact ⟨rfl, rfl, rfl⟩

/-- MV, MVT, RESID and CSR. -/
theorem matrixVectorCommands : MatrixVectorCommands := by
  intro i s hready hspl
  dsimp only
  intro k hk
  have hexec : exec k s = .next (s.mvCmd 0x3B i) := by
    simp only [List.mem_cons, List.not_mem_nil, or_false] at hk
    rcases hk with rfl | rfl | rfl | rfl <;> rfl
  have hdoes : ∀ t, s.mvCmd 0x3B i = t → Does k s t := fun t ht => ht ▸ hexec
  refine ⟨fun hlen => hdoes _ (if_pos hlen), fun hlen hu ho hf => ?_⟩
  have h : MvIssued i s := ⟨hready, hspl, hf, hlen, hu, ho⟩
  refine ⟨fun hh => hdoes _ (h.mvCmd_of_held hh), fun hh hw hm => hdoes _ ?_, fun l hh hw hm hq hb hz hok => ?_⟩
  · have hcore : (went i s).core i.core.val = { (went i s).core i.core.val with mvpWait := none } := by
      simp only [went, State.core_advance_same, hw]
    rw [h.mvCmd_of_unheld hh hw, mvTry_of_busy (.inl (by simpa [queued, went, State.core_advance_same] using hm))]
    conv_rhs => rw [hcore]
    rfl
  · have hb' : (queued i s none).descRead i.core.val (s.ra i) 96 32 = some (l, false) := by rw [(queued_view i s none).descRead_eq, hb]
    obtain ⟨hmem, hmvp, hqueue⟩ := mvDrain_one (n := i.strand.val) hspl hb' hz hok
    rw [← h.mvCmd_of_free hh hw hm hq] at hmem hmvp hqueue
    refine ⟨fun hr => ⟨_, hexec, ?_⟩, fun h3 hr => ⟨_, hexec, ?_⟩⟩
    · rw [mvStep_of_waiting (.inl hr)] at hmem hmvp
      exact ⟨hmvp, hqueue, hmem⟩
    · have hr' : (mvBlockOf l).firstReads = [] := hr
      rw [hr', mvStep_of_complete rfl rfl (.inl h3)] at hmem hmvp
      exact ⟨hmvp, hqueue, hmem.trans ((queued_view i s none).mvRun i.core.isLt ..).mem⟩

end Sys2Proof.Machine

/-! ### Lines of the matrix -/

namespace Sys2Proof.Machine
open Sys2Proof Sys2Proof.Claims

variable {s t : State} {c : Nat}

theorem Tab.get?_del_same {α : Type} (m : Tab α) (k : Nat) : Tab.get? (Tab.del m k) k = none := by
  induction m with
  | nil => rfl
  | cons x m ih =>
    by_cases h : x.1 = k
    · simpa [Tab.del, h] using ih
    · simpa [Tab.del, Tab.get?, h] using ih

/-- The state in which a line of the matrix, `n` bytes at `a`, has been read and counted. -/
def lineCounted (s : State) (c a n stall : Nat) : State :=
  let who := some (s.core c).part
  (((s.engineRead c a n []).1.accessDone (1, c) 0 who (s.checkAll who false a n)).addSat F.CORE_MVP_STALL c stall).addWrap F.CORE_RA_LINES c 1

/-- Its slot is free. -/
def lineFreed (s : State) (c slot a n stall : Nat) : State :=
  (lineCounted s c a n stall).setCore c { s.core c with slots := Tab.del (s.core c).slots slot }

theorem lineFreed_core (s : State) (c slot a n stall : Nat) :
    (lineFreed s c slot a n stall).core c = { s.core c with slots := Tab.del (s.core c).slots slot } := State.core_setCore_same ..

theorem lineRead_reports (s : State) (c a n : Nat) (page : Nat × Nat) (agent : Nat) (part : Option Nat) (x : Acs) :
    Reports s ((s.engineRead c a n []).1.accessDone page agent part x) := Reports.refl.engineRead.accessDone

theorem lineCounted_cores (s : State) (c a n stall : Nat) : (lineCounted s c a n stall).cores = s.cores := (lineRead_reports ..).cores

theorem lineCounted_mem (s : State) (c a n stall : Nat) : (lineCounted s c a n stall).mem = s.mem := (lineRead_reports ..).mem

theorem lineCounted_core (s : State) (c a n stall : Nat) : (lineCounted s c a n stall).core c = s.core c := by
  unfold State.core
  rw [lineCounted_cores]

theorem viewKey_ne_mvpStall {k c : Nat} (h : viewKey k) : k ≠ F.CORE_MVP_STALL.key c := by
  rintro rfl
  unfold viewKey at h
  rw [keyOff_key (by decide) (by decide), keyPageNum_key (by decide) (by decide)] at h
  simp only [F.CORE_MVP_STALL] at h
  omega

theorem key_mvpStall_ne_raLines (c : Nat) : F.CORE_MVP_STALL.key c ≠ F.CORE_RA_LINES.key c := by
  unfold Fld.key F.CORE_MVP_STALL F.CORE_RA_LINES
  dsimp only
  omega

theorem lineCounted_view (s : State) (c a n stall : Nat) : SameView s (lineCounted s c a n stall) := by
  have hr := (lineRead_reports s c a n (1, c) 0 (some (s.core c).part) (s.checkAll (some (s.core c).part) false a n)).view
  have hstall : SameView s (((s.engineRead c a n []).1.accessDone (1, c) 0 (some (s.core c).part)
      (s.checkAll (some (s.core c).part) false a n)).addSat F.CORE_MVP_STALL c stall) :=
    ⟨hr.mem, hr.poison, hr.hostMem, hr.hostPoison, hr.fences, hr.granules, hr.work,
      fun k hk => (Tab.get?_set_other _ _ (viewKey_ne_mvpStall hk)).trans (hr.regs k hk)⟩
  exact hstall.trans (Reports.refl.setFld (f := F.CORE_RA_LINES) (not_quietKey_of_off (by decide) (by decide))).view

theorem lineFreed_view (s : State) (c slot a n stall : Nat) : SameView s (lineFreed s c slot a n stall) := (lineCounted_view ..).setCore

/-- The cycles without matrix data count. -/
theorem lineCounted_stall {c : Nat} (hc : c < 512) (a n stall : Nat) : Counts F.CORE_MVP_STALL c stall s (lineCounted s c a n stall) := by
  intro hlt
  have hq : quietKey (F.CORE_MVP_STALL.key c) := by
    refine .inr (.inr ⟨keyOff_key (by decide) (by decide), ?_⟩)
    rw [keyPageNum_key (by decide) (by decide)]
    simp only [F.CORE_MVP_STALL]
    omega
  have hw : F.CORE_MVP_STALL.w = 32 := rfl
  unfold lineCounted State.addWrap
  rw [State.fld_setFld_other _ _ (key_mvpStall_ne_raLines c)]
  simp only [State.addSat, State.fld_setFld_same, satAdd]
  rw [(lineRead_reports ..).fld_eq hq]
  exact Nat.mod_eq_of_lt (by omega)

theorem counts_setCore {f : Fld} {i n d : Nat} {x : CoreState} : Counts f i n s (t.setCore d x) ↔ Counts f i n s t := by
  simp only [Counts, State.setCore_fld]

theorem lineFreed_stall {c : Nat} (hc : c < 512) (slot a n stall : Nat) : Counts F.CORE_MVP_STALL c stall s (lineFreed s c slot a n stall) :=
  counts_setCore.2 (lineCounted_stall hc a n stall)

theorem lineFreed_mem (s : State) (c slot a n stall : Nat) : (lineFreed s c slot a n stall).mem = s.mem := by
  unfold lineFreed
  rw [State.setCore_mem, lineCounted_mem]

/-- What has come of the matrix once a line of it has been read. -/
def MvJob.landed (j : MvJob) (s : State) (c a n : Nat) : MvJob :=
  let g := s.readMem (some (s.core c).part) a n
  { j with
    out := j.out - 1, mem := memWrite j.mem a g.data
    poison := ((pieces a n).filter fun p => (dataBlocks p.1 p.2).any g.poison.contains).foldl (fun l p => insertNat l ((a + p.1) / 64)) j.poison }

/-- The path after a step of the command that it runs. -/
def mvStepped (s : State) (c : Nat) (j : MvJob) : State :=
  let r := s.mvStep c j
  (r.1.setCore c { r.1.core c with mvp := r.2 }).mvTry c

/-- An engine reads what memory holds where no storage error is reported. -/
theorem engineRead_data (s : State) (c a n : Nat) : (s.engineRead c a n []).2.1 = (s.readMem (some (s.core c).part) a n).data := by
  unfold State.engineRead State.eccAt
  simp

theorem engineRead_poison (s : State) (c a n : Nat) : (s.engineRead c a n []).2.2 = (s.readMem (some (s.core c).part) a n).poison := by
  unfold State.engineRead State.eccAt
  simp

/-- A line of the matrix lands for the command that the path runs. -/
theorem landMatrix_eq {slot a n stall : Nat} {x : LineResponse} {j : MvJob} (hx : x.ecc = []) (hj : (s.core c).mvp = some j) :
    s.landMatrix c slot a n stall x = mvStepped (lineFreed s c slot a n stall) c (j.landed s c a n) := by
  have hcore := lineCounted_core s c a n stall
  have hfreed : (lineCounted s c a n stall).setCore c { (lineCounted s c a n stall).core c with
      slots := Tab.del ((lineCounted s c a n stall).core c).slots slot } = lineFreed s c slot a n stall := by
    rw [hcore]
    rfl
  unfold State.landMatrix
  rw [hx]
  extract_lets who g s1 k s2 pz
  have hdata : g.2.1 = (s.readMem (some (s.core c).part) a n).data := engineRead_data s c a n
  have hpoison : g.2.2 = (s.readMem (some (s.core c).part) a n).poison := engineRead_poison s c a n
  have hmvp : k.mvp = some j := (congrArg CoreState.mvp hcore).trans hj
  have hs2 : s2 = lineFreed s c slot a n stall := hfreed
  have hpz : pz = (pieces a n).filter fun p => (dataBlocks p.1 p.2).any (s.readMem (some (s.core c).part) a n).poison.contains := by
    simp only [pz, hpoison]
  rw [hmvp, hdata, hpz, hs2]
  rfl

theorem raLineLand_eq {core : Fin 512} {slot n part stall : Nat} {x : LineResponse} {r : RaSlot} (hs : Tab.get? (s.core core.val).slots slot = some r)
    (hr : r.mv = some n) (hx : x.retries = []) (hw : s.accWaits false r.src n = false) :
    exec (.raLineLand core slot part stall x) s = .next (s.landMatrix core.val slot r.src n stall x) := by
  show execRaLineLand core slot part stall x s = _
  simp [execRaLineLand, hs, hr, hx, State.nocRetry, State.whenReadable, hw]

theorem mvStepped_of_waiting {j : MvJob} (h : j.reads ≠ [] ∨ j.out ≠ 0) : mvStepped s c j = s.setCore c { s.core c with mvp := some j } := by
  unfold mvStepped
  rw [mvStep_of_waiting h, mvTry_of_busy (.inl (by rw [State.core_setCore_same]; rfl))]

/-- The last step of a command behind which none waits. -/
theorem mvStepped_of_complete {j : MvJob} (hc : c < 512) (hr : j.reads = []) (ho : j.out = 0)
    (hk : (mvBlockOf j.block).kind ≠ 3 ∨ j.offsets = true) (hq : (s.core c).mvpQueue = []) :
    (mvStepped s c j).mem = (s.mvRun c (mvBlockOf j.block) j).mem ∧ ((mvStepped s c j).core c).mvp = none := by
  have hcore : (s.mvRun c (mvBlockOf j.block) j).core c = s.core c := by
    unfold State.core
    rw [mvRun_cores s hc]
  unfold mvStepped
  rw [mvStep_of_complete hr ho hk]
  obtain ⟨hmem, hmvp⟩ := mvTry_of_empty (c := c)
    (s := (s.mvRun c (mvBlockOf j.block) j).setCore c { (s.mvRun c (mvBlockOf j.block) j).core c with mvp := none })
    (by rw [State.core_setCore_same, hcore]; exact hq)
  exact ⟨hmem, by rw [hmvp, State.core_setCore_same]⟩

/-- RA_LINE_LAND. -/
theorem matrixLineLands : MatrixLineLands := by
  intro core slot n part stall x s r j
  dsimp only
  intro hs hr hecc hretry hw hj
  have hexec : exec (.raLineLand core slot part stall x) s =
      .next (mvStepped (lineFreed s core.val slot r.src n stall) core.val (j.landed s core.val r.src n)) := by
    rw [raLineLand_eq hs hr hretry hw, landMatrix_eq hecc hj]
  refine ⟨fun hwait => ⟨_, hexec, ?_⟩, fun hreads hout hkind hq => ⟨_, (j.landed s core.val r.src n).poison, hexec, ?_⟩⟩
  · have hmore : (j.landed s core.val r.src n).reads ≠ [] ∨ (j.landed s core.val r.src n).out ≠ 0 :=
      hwait.imp id fun h1 => Nat.sub_ne_zero_of_lt h1
    rw [mvStepped_of_waiting hmore, State.core_setCore_same, lineFreed_core, counts_setCore, State.setCore_mem, lineFreed_mem]
    exact ⟨Tab.get?_del_same .., lineFreed_stall core.isLt _ _ _ _, rfl, rfl⟩
  · have hlanded : j.landed s core.val r.src n =
        { j with
          out := 0, mem := memWrite j.mem r.src (s.readMem (some (s.core core.val).part) r.src n).data
          poison := (j.landed s core.val r.src n).poison } := by
      simp only [MvJob.landed, hout]
    obtain ⟨hmem, hmvp⟩ := mvStepped_of_complete (s := lineFreed s core.val slot r.src n stall) (j := j.landed s core.val r.src n)
      core.isLt hreads (congrArg MvJob.out hlanded) hkind (by rw [lineFreed_core]; exact hq)
    refine ⟨hmvp, hmem.trans ?_⟩
    rw [← hlanded]
    exact ((lineFreed_view s core.val slot r.src n stall).mvRun core.isLt _ _).mem

/-- MVP_RESERVATION_END. -/
theorem reservationEnd : ReservationEnd := by
  intro engine cyc s
  dsimp only
  refine ⟨fun h => ?_, fun c x w h hw => ?_⟩
  · show execMvpReservationEnd engine cyc s = _
    rw [execMvpReservationEnd, h]
    rfl
  · show execMvpReservationEnd engine cyc s = _
    rw [execMvpReservationEnd, h]
    simp only [List.foldl_cons, List.foldl_nil, State.mvRelease, State.mvWaited, hw]
    rfl

/-- Settles O13: each instruction's branch is an equation of the state after it, and the result of a matrix-vector command is the same before and
after the counts and reports that come first. -/
theorem arrayPassesAndMatrixVector : Obligations.ArrayPassesAndMatrixVector :=
  ⟨arrayPassJoinsQueue, matrixVectorCommands, matrixLineLands, reservationEnd⟩

end Sys2Proof.Machine

/-! ## The lock of the RWL fields (R46, R458) -/

namespace Sys2Proof.Machine
open Sys2Proof Sys2Proof.Claims

/-- Settles O56: BOOT_DONE locks and is recorded in one operation, and a reset takes both back; every other operation leaves both. -/
theorem stepKeepsLockWithBoot : Obligations.StepKeepsLockWithBoot := fun _ _ hlock hstep => (kept_of_step hstep).lock hlock

/-- Settles O54: nothing is stored in any of the three memories, and BOOT_DONE has not been accepted. -/
theorem resetMeetsInvariants : Obligations.ResetMeetsInvariants := ⟨⟨rfl, rfl, rfl⟩, rfl⟩

end Sys2Proof.Machine

/-! ## Bits of a register -/

namespace Sys2Proof.Machine
open Sys2Proof

variable {x y b j n : Nat}

theorem bitOf_eq_testBit (x b : Nat) : bitOf x b = x.testBit b := by
  rw [bitOf, Nat.testBit_eq_decide_div_mod_eq, beq_eq_decide]

theorem bitOf_zero (b : Nat) : bitOf 0 b = false := by rw [bitOf_eq_testBit, Nat.zero_testBit]

theorem bitOf_mod_two_pow (x : Nat) (hj : j < n) : bitOf (x % 2 ^ n) j = bitOf x j := by
  simp only [bitOf_eq_testBit, Nat.testBit_mod_two_pow, hj, decide_true, Bool.true_and]

/-- Numbers without a common bit add without a carry. -/
theorem testBit_add_of_disjoint (h : ∀ k, x.testBit k = true → y.testBit k = false) (j : Nat) :
    (x + y).testBit j = (x.testBit j || y.testBit j) := by
  have h0 : ¬(x % 2 = 1 ∧ y % 2 = 1) := by
    rintro ⟨hx, hy⟩
    have := h 0 (by simpa using hx)
    simp [hy] at this
  induction j generalizing x y with
  | zero =>
    simp only [Nat.testBit_zero, ← Bool.decide_or, decide_eq_decide]
    omega
  | succ j ih =>
    have hhalf : (x + y) / 2 = x / 2 + y / 2 := by omega
    have h' : ∀ k, (x / 2).testBit k = true → (y / 2).testBit k = false := fun k hk => by
      rw [← Nat.testBit_succ] at hk ⊢
      exact h _ hk
    simp only [Nat.testBit_succ, hhalf]
    refine ih h' ?_
    rintro ⟨hx, hy⟩
    have := h' 0 (by simpa using hx)
    simp [hy] at this

theorem bitOf_add_two_pow (hb : bitOf x b = false) (j : Nat) : bitOf (x + 2 ^ b) j = (bitOf x j || decide (b = j)) := by
  simp only [bitOf_eq_testBit] at hb ⊢
  rw [testBit_add_of_disjoint, Nat.testBit_two_pow]
  intro k hk
  rw [Nat.testBit_two_pow, decide_eq_false_iff_not]
  rintro rfl
  rw [hb] at hk
  exact Bool.false_ne_true hk

theorem bitOf_sub_and (x m j : Nat) : bitOf (x - (x &&& m)) j = (bitOf x j && !bitOf m j) := by
  have hsplit : Nat.ldiff x m + (x &&& m) = x := by
    refine Nat.eq_of_testBit_eq fun k => ?_
    rw [testBit_add_of_disjoint fun k hk => ?_]
    · rw [Nat.testBit_ldiff, Nat.testBit_and]
      cases x.testBit k <;> cases m.testBit k <;> rfl
    · rw [Nat.testBit_ldiff] at hk
      have hm : m.testBit k = false := Bool.eq_false_of_not_eq_true' (Bool.and_eq_true_iff.1 hk).2
      rw [Nat.testBit_and, hm, Bool.and_false]
  rw [Nat.sub_eq_of_eq_add hsplit.symm]
  simp only [bitOf_eq_testBit, Nat.testBit_ldiff]

end Sys2Proof.Machine

/-! ## What an event or a record writes (R53, R54, R472)

From `s` to `t` the device has only set event bits, sent outputs, and queued records for the cellar book or counted those that it dropped. -/

namespace Sys2Proof.Machine
open Sys2Proof Sys2Proof.Claims

variable {s₀ s t : State} {ty i b : Nat}

/-- The fields stand at different places of a page. -/
def Fld.apart (f g : Fld) : Bool := decide (f.lo < 32) && decide (g.lo < 32) && (f.off != g.off || f.lo != g.lo)

theorem Fld.key_ne {f g : Fld} (hty : g.ty = f.ty) (h : g.apart f = true) (i : Nat) : g.key i ≠ f.key i := by
  simp only [Fld.apart, Bool.and_eq_true, Bool.or_eq_true, decide_eq_true_eq, bne_iff_ne] at h
  unfold Fld.key
  omega

/-- The state `s` with what events and records write as `s₀` has it. -/
def State.withLogOf (s₀ s : State) : State :=
  { s with
    regs := s₀.regs
    sent := s₀.sent
    host := { s.host with pba := s₀.host.pba }
    book := { s.book with queue := s₀.book.queue, dropped := s₀.book.dropped } }

/-- The registers that events and records write: EVT_STAT of the pages, and BOOK.DROP_CNT. -/
def logKey (k : Nat) : Prop := keyOff k = 0x018 ∨ k = F.BOOK_DROP_CNT.key 0

/-- A place of a register that is not EVT_STAT, and not the one of BOOK.DROP_CNT. -/
def Fld.offLog (f : Fld) : Bool := decide (f.off < 4096) && decide (f.lo < 32) && f.off != 0x018 && f.off != 0x09C

theorem keyOff_evtStat (ty i : Nat) : keyOff ((F.EVT_STAT ty).key i) = 0x018 :=
  keyOff_key (f := F.EVT_STAT ty) (show 0x018 < 4096 by omega) (show 0 < 32 by omega)

theorem keyOff_dropCnt : keyOff (F.BOOK_DROP_CNT.key 0) = 0x09C := by decide

theorem not_logKey_of_offLog {f : Fld} (h : f.offLog = true) (i : Nat) : ¬logKey (f.key i) := by
  simp only [Fld.offLog, Bool.and_eq_true, decide_eq_true_eq, bne_iff_ne] at h
  obtain ⟨⟨⟨hoff, hlo⟩, hstat⟩, hdrop⟩ := h
  rintro (hk | hk)
  · rw [keyOff_key hoff hlo] at hk
    exact hstat hk
  · have := congrArg keyOff hk
    rw [keyOff_key hoff hlo, keyOff_dropCnt] at this
    exact hdrop this

theorem resetOf_evtStat (ty i : Nat) : (F.EVT_STAT ty).resetOf i = 0 := by simp [Fld.resetOf, F.EVT_STAT]

/-- Only events and records from `s` to `t`: outside of what they write nothing has changed, and no event bit is lost. -/
structure Logged (s t : State) : Prop where
  rest : s.withLogOf t = s
  regs : ∀ k, ¬logKey k → Tab.get? t.regs k = Tab.get? s.regs k
  bits : ∀ ty i b, b < 32 → bitOf (s.fld (F.EVT_STAT ty) i) b = true → bitOf (t.fld (F.EVT_STAT ty) i) b = true

namespace Logged

theorem refl : Logged s s := ⟨rfl, fun _ _ => rfl, fun _ _ _ _ => id⟩

theorem fld_eq (h : Logged s t) {f : Fld} (hf : f.offLog = true) (i : Nat) : t.fld f i = s.fld f i := by
  unfold State.fld Tab.get
  rw [h.regs _ (not_logKey_of_offLog hf i)]

theorem shadow (h : Logged s t) : t.shadow = s.shadow := (congrArg State.shadow h.rest :)
theorem mem (h : Logged s t) : t.mem = s.mem := (congrArg State.mem h.rest :)
theorem armed (h : Logged s t) : t.armed = s.armed := (congrArg State.armed h.rest :)
theorem cores (h : Logged s t) : t.cores = s.cores := (congrArg State.cores h.rest :)
theorem solvers (h : Logged s t) : t.solvers = s.solvers := (congrArg State.solvers h.rest :)
theorem upd (h : Logged s t) : t.upd = s.upd := (congrArg State.upd h.rest :)
theorem colls (h : Logged s t) : t.colls = s.colls := (congrArg State.colls h.rest :)
theorem mgmt (h : Logged s t) : t.mgmt = s.mgmt := (congrArg State.mgmt h.rest :)

/-- The state `t` has the registers of `s`, and the rest of it but for outputs, pending vectors and records. -/
theorem congr (h : Logged s₀ s) (hrest : s₀.withLogOf t = s₀.withLogOf s) (hregs : t.regs = s.regs) : Logged s₀ t := by
  refine ⟨hrest.trans h.rest, fun k hk => ?_, fun ty i b hb h0 => ?_⟩
  · rw [hregs]
    exact h.regs k hk
  · rw [State.fld_congr hregs]
    exact h.bits ty i b hb h0

theorem both {c : Prop} [Decidable c] (hs : Logged s₀ s) (ht : Logged s₀ t) : Logged s₀ (if c then s else t) := by
  split
  · exact hs
  · exact ht

theorem both_fst {α : Type} {c : Prop} [Decidable c] {x y : State × α} (hx : Logged s₀ x.1) (hy : Logged s₀ y.1) :
    Logged s₀ (if c then x else y).1 := by
  split
  · exact hx
  · exact hy

theorem foldl {α : Type} {g : State → α → State} {l : List α} (h : Logged s₀ s) (hg : ∀ t x, Logged s₀ t → Logged s₀ (g t x)) :
    Logged s₀ (l.foldl g s) := by
  induction l generalizing s with
  | nil => exact h
  | cons x l ih => exact ih (hg s x h)

theorem countDrop {n : Nat} (h : Logged s₀ s) : Logged s₀ (s.addSat F.BOOK_DROP_CNT 0 n) := by
  refine ⟨h.rest, fun k hk => ?_, fun ty i b hb h0 => ?_⟩
  · exact (Tab.get?_set_other _ _ fun hd => hk (.inr hd)).trans (h.regs k hk)
  · have hne : (F.EVT_STAT ty).key i ≠ F.BOOK_DROP_CNT.key 0 := fun he => by
      have := congrArg keyOff he
      rw [keyOff_evtStat, keyOff_dropCnt] at this
      omega
    rw [State.addSat, State.fld_setFld_other _ _ hne]
    exact h.bits ty i b hb h0

/-- An event bit set that was clear. -/
theorem setEvt (h : Logged s₀ s) (hclear : bitOf (s.fld (F.EVT_STAT ty) i) b = false) :
    Logged s₀ (s.setFld (F.EVT_STAT ty) i (s.fld (F.EVT_STAT ty) i + 2 ^ b)) := by
  refine ⟨h.rest, fun k hk => ?_, fun ty' i' j hj h0 => ?_⟩
  · exact (Tab.get?_set_other _ _ fun he => hk (.inl ((congrArg keyOff he).trans (keyOff_evtStat ty i)))).trans (h.regs k hk)
  · have hs := h.bits ty' i' j hj h0
    by_cases hkey : (F.EVT_STAT ty').key i' = (F.EVT_STAT ty).key i
    · simp only [State.fld, State.setFld, resetOf_evtStat, hkey, Tab.get_set_same] at hs hclear ⊢
      rw [bitOf_mod_two_pow (n := (F.EVT_STAT ty).w) _ hj, bitOf_add_two_pow hclear, hs, Bool.true_or]
    · rw [State.fld_setFld_other _ _ hkey]
      exact hs

theorem bookQueue {r : QRec} (h : Logged s₀ s) : Logged s₀ (s.bookQueue r).1 := by
  unfold State.bookQueue
  exact both_fst (h.congr (by rfl) rfl) (countDrop (h.congr (by rfl) rfl))

theorem emit {m : Msg} (h : Logged s₀ s) : Logged s₀ (s.emit m) := h.congr (by rfl) rfl
theorem msix {vec : Nat} (h : Logged s₀ s) : Logged s₀ (s.msix vec) := both h.emit (h.congr (by rfl) rfl)

theorem deliverIrq {route : Nat} (h : Logged s₀ s) : Logged s₀ (s.deliverIrq ty i b route) := by
  have hhost : Logged s₀ (if bitOf route 0 then
      match s.pagePart ty i with
      | some p => (s.msix (vectorOf 0 (s.fld (F.HOST_EVT_VEC.nth ty) 0))).msix (vectorOf (p + 1) 0)
      | none => s.msix (vectorOf 0 (s.fld (F.HOST_EVT_VEC.nth ty) 0))
      else s) := by
    refine both ?_ h
    split
    · exact h.msix.msix
    · exact h.msix
  exact both hhost.emit hhost

/-- What follows when an implemented bit that was clear is set: its delivery and its record. -/
theorem raiseCore_of_clear {sev : Sev} (hsev : sevOf ty b = some sev) (hclear : bitOf (s.fld (F.EVT_STAT ty) i) b = false)
    (h : Logged s₀ (s.setFld (F.EVT_STAT ty) i (s.fld (F.EVT_STAT ty) i + 2 ^ b))) : Logged s₀ (s.raiseCore ty i b).1 := by
  simp only [State.raiseCore, hsev, hclear, Bool.false_eq_true, if_false]
  exact both_fst (both_fst h.deliverIrq.bookQueue h.deliverIrq) h

theorem raiseCore (h : Logged s₀ s) : Logged s₀ (s.raiseCore ty i b).1 := by
  cases hsev : sevOf ty b with
  | none => simpa only [State.raiseCore, hsev] using h
  | some sev =>
    cases hbit : bitOf (s.fld (F.EVT_STAT ty) i) b with
    | true => simpa only [State.raiseCore, hsev, hbit, if_true] using h
    | false => exact raiseCore_of_clear hsev hbit (h.setEvt hbit)

theorem raise (h : Logged s₀ s) : Logged s₀ (s.raise ty i b) := both h.raiseCore.raiseCore h.raiseCore
theorem bookPush {r : QRec} (h : Logged s₀ s) : Logged s₀ (s.bookPush r) := both h.bookQueue h.bookQueue.raise
theorem evtSet {v : Nat} (h : Logged s₀ s) : Logged s₀ (s.evtSet ty i v) := h.foldl fun _ _ => raise

end Logged

/-! ### The bit of a raised event -/

theorem bitOf_setEvt (hb : b < 32) (hclear : bitOf (s.fld (F.EVT_STAT ty) i) b = false) :
    bitOf ((s.setFld (F.EVT_STAT ty) i (s.fld (F.EVT_STAT ty) i + 2 ^ b)).fld (F.EVT_STAT ty) i) b = true := by
  rw [State.fld_setFld_same, bitOf_mod_two_pow (n := (F.EVT_STAT ty).w) _ hb, bitOf_add_two_pow hclear, decide_eq_true rfl, Bool.or_true]

/-- An event of an implemented bit leaves the bit set. -/
theorem bitOf_raise (hb : b < 32) (hsev : (sevOf ty b).isSome = true) : bitOf ((s.raise ty i b).fld (F.EVT_STAT ty) i) b = true := by
  cases hbit : bitOf (s.fld (F.EVT_STAT ty) i) b with
  | true => exact Logged.refl.raise.bits ty i b hb hbit
  | false =>
    obtain ⟨sev, hsev⟩ := Option.isSome_iff_exists.1 hsev
    have hlog := Logged.raiseCore_of_clear hsev hbit .refl
    exact (Logged.both hlog.raiseCore hlog).bits ty i b hb (bitOf_setEvt hb hbit)

theorem bitOf_foldl_raise {l : List Nat} (hb : b < 32) (hsev : (sevOf ty b).isSome = true) (hl : b ∈ l) :
    bitOf ((l.foldl (fun t b => t.raise ty i b) s).fld (F.EVT_STAT ty) i) b = true := by
  obtain ⟨before, after, rfl⟩ := List.append_of_mem hl
  rw [List.foldl_append, List.foldl_cons]
  exact (Logged.refl.foldl fun _ _ => Logged.raise).bits ty i b hb (bitOf_raise hb hsev)

theorem bitOf_evtSet {v : Nat} (hb : b < 32) (hv : bitOf v b = true) (himpl : evtImpl ty i b = true) :
    bitOf ((s.evtSet ty i v).fld (F.EVT_STAT ty) i) b = true := by
  have hsev : (sevOf ty b).isSome = true := (Bool.and_eq_true_iff.1 himpl).1
  refine bitOf_foldl_raise hb hsev (List.mem_filter.2 ⟨List.mem_range.2 hb, ?_⟩)
  rw [hv, himpl, Bool.and_true]

end Sys2Proof.Machine

/-! ## Actions on a page that the agent may write (R42, R43) -/

namespace Sys2Proof.Machine
open Sys2Proof Sys2Proof.Claims

variable {s t : State} {ag : Agent} {ty i off : Nat}

theorem pageAct_of_mayWrite {act : State → State} (h : mayWrite ag ty i s) : s.pageAct ag ty i off act = act s := if_pos h

/-- A command that is an action of a page's register: what holds after the action. -/
theorem gives_of_pageAct {c : Instr} {act : State → State} {p : State → Prop} (hc : exec c s = .next (s.pageAct ag ty i off act))
    (h : mayWrite ag ty i s) (hp : p (act s)) : Gives c s p :=
  ⟨act s, hc.trans (congrArg _ (pageAct_of_mayWrite h)), hp⟩

theorem does_of_pageAct {c : Instr} {act : State → State} (hc : exec c s = .next (s.pageAct ag ty i off act)) (h : mayWrite ag ty i s)
    (ht : act s = t) : Does c s t :=
  ht ▸ hc.trans (congrArg _ (pageAct_of_mayWrite h))

/-! ### Event and error registers (R45, R51 to R54) -/

theorem evtSet_zero (s : State) (ty i : Nat) : s.evtSet ty i 0 = s := by simp [State.evtSet, bitOf_zero]

theorem evtClear_zero (s : State) (ty i mask : Nat) :
    s.evtClear ty i mask 0 = s.setFld (F.EVT_STAT ty) i (s.fld (F.EVT_STAT ty) i - (s.fld (F.EVT_STAT ty) i &&& mask)) :=
  evtSet_zero _ ty i

theorem bitOf_evtClear_zero (s : State) (ty i mask : Nat) {b : Nat} (hb : b < 32) :
    bitOf ((s.evtClear ty i mask 0).fld (F.EVT_STAT ty) i) b = (bitOf (s.fld (F.EVT_STAT ty) i) b && !bitOf mask b) := by
  rw [evtClear_zero, State.fld_setFld_same, bitOf_mod_two_pow (n := (F.EVT_STAT ty).w) _ hb, bitOf_sub_and]

/-- Delivering an event bit again leaves the registers that events do not write. -/
theorem fld_redeliver {f : Fld} (hf : f.offLog = true) (s : State) (ty i b j : Nat) : (s.redeliver ty i b).fld f j = s.fld f j := by
  unfold State.redeliver
  split
  · have hne : f.key j ≠ (F.EVT_STAT ty).key i := fun he => not_logKey_of_offLog hf j (.inl ((congrArg keyOff he).trans (keyOff_evtStat ty i)))
    refine (Logged.refl.raise.fld_eq hf j).trans ?_
    exact Tab.get_set_other _ _ _ hne
  · rfl

theorem fld_evtEnable (s : State) (ty i v : Nat) : (s.evtEnable ty i v).fld (F.EVT_EN ty) i = v % 2 ^ (F.EVT_EN ty).w := by
  have hfold : ∀ (l : List Nat) (t : State), (l.foldl (fun t b => t.redeliver ty i b) t).fld (F.EVT_EN ty) i = t.fld (F.EVT_EN ty) i := by
    intro l
    induction l with
    | nil => exact fun _ => rfl
    | cons b l ih => exact fun t => (ih _).trans (fld_redeliver rfl t ty i b i)
  exact (hfold _ _).trans (State.fld_setFld_same ..)

/-- A field of another place on the page is as it was. -/
theorem fld_setFld_place {f g : Fld} (hty : g.ty = f.ty) (h : g.apart f = true) (s : State) (i v : Nat) :
    (s.setFld f i v).fld g i = s.fld g i :=
  State.fld_setFld_other _ _ (Fld.key_ne hty h i)

/-- The error registers of a page: count, address, code and agent. -/
def State.errRegs (s : State) (ty i : Nat) : Nat × Nat × Nat × Nat × Nat :=
  (s.fld (F.ERR_CNT ty) i, s.fld (F.ERR_FIRST ty) i, s.fld (F.ERR_INFO_ADDR_HI ty) i, s.fld (F.ERR_INFO_CODE ty) i, s.fld (F.ERR_INFO_AGENT ty) i)

/-- The five registers written one after the other hold the values written. -/
theorem errRegs_setFld (s : State) (ty i n lo hi code agent : Nat) :
    (((((s.setFld (F.ERR_CNT ty) i n).setFld (F.ERR_FIRST ty) i lo).setFld (F.ERR_INFO_ADDR_HI ty) i hi).setFld (F.ERR_INFO_CODE ty) i code).setFld
      (F.ERR_INFO_AGENT ty) i agent).errRegs ty i = (n % 2 ^ 32, lo % 2 ^ 32, hi % 2 ^ 16, code % 2 ^ 8, agent % 2 ^ 8) := by
  simp only [State.errRegs, Prod.mk.injEq]
  refine ⟨?_, ?_, ?_, ?_, State.fld_setFld_same ..⟩
  · rw [fld_setFld_place, fld_setFld_place, fld_setFld_place, fld_setFld_place, State.fld_setFld_same] <;> rfl
  · rw [fld_setFld_place, fld_setFld_place, fld_setFld_place, State.fld_setFld_same] <;> rfl
  · rw [fld_setFld_place, fld_setFld_place, State.fld_setFld_same] <;> rfl
  · rw [fld_setFld_place, State.fld_setFld_same] <;> rfl

theorem errRegs_errClear (s : State) (ty i : Nat) : (s.errClear ty i).errRegs ty i = (0, 0, 0, 0, 0) := errRegs_setFld s ty i 0 0 0 0 0

theorem Logged.errRegs (h : Logged s t) (ty i : Nat) : t.errRegs ty i = s.errRegs ty i := by
  simp only [State.errRegs, Prod.mk.injEq]
  exact ⟨h.fld_eq rfl i, h.fld_eq rfl i, h.fld_eq rfl i, h.fld_eq rfl i, h.fld_eq rfl i⟩

/-- The first error that a page counts: it is described, and ERROR is raised (R51, Table 2.5). -/
theorem countErr_of_zero (h : s.fld (F.ERR_CNT ty) i = 0) (code value agent : Nat) :
    s.countErr ty i code value agent = (((((s.setFld (F.ERR_CNT ty) i 1).setFld (F.ERR_FIRST ty) i value).setFld (F.ERR_INFO_ADDR_HI ty) i
      (value / 2 ^ 32)).setFld (F.ERR_INFO_CODE ty) i code).setFld (F.ERR_INFO_AGENT ty) i agent).raise ty i 0 := by
  simp [State.countErr, State.raiseIf, h]

theorem errRegs_countErr_of_zero (h : s.fld (F.ERR_CNT ty) i = 0) (code value agent : Nat) :
    (s.countErr ty i code value agent).errRegs ty i = (1, value % 2 ^ 32, value / 2 ^ 32 % 2 ^ 16, code % 2 ^ 8, agent % 2 ^ 8) := by
  rw [countErr_of_zero h, Logged.refl.raise.errRegs, errRegs_setFld]
  rfl

theorem agentCode_lt (ag : Agent) : agentCode ag < 2 ^ 8 := by
  cases ag with
  | vf p =>
    have := p.isLt
    simp only [agentCode]
    omega
  | _ => simp [agentCode]

/-- Every page implements ERROR (Table 2.5). -/
theorem sevOf_error (pt : PageType) : (sevOf (typeCode pt) 0).isSome = true := by cases pt <;> rfl

/-- ERR_CLR where no error is counted in its cycle. -/
theorem errClr_gives {pt : PageType} (hw : mayWrite ag (typeCode pt) i s) : Gives (.errClr ag pt i none) s fun t =>
    t.fld (F.ERR_CNT (typeCode pt)) i = 0 ∧ t.fld (F.ERR_FIRST (typeCode pt)) i = 0 ∧ t.fld (F.ERR_INFO_CODE (typeCode pt)) i = 0 ∧
      t.fld (F.ERR_INFO_AGENT (typeCode pt)) i = 0 ∧ t.fld (F.ERR_INFO_ADDR_HI (typeCode pt)) i = 0 := by
  have h := errRegs_errClear s (typeCode pt) i
  simp only [State.errRegs, Prod.mk.injEq] at h
  obtain ⟨hcnt, hfirst, hhi, hcode, hagent⟩ := h
  exact gives_of_pageAct rfl hw ⟨hcnt, hfirst, hcode, hagent, hhi⟩

/-- ERR_CLR where an error is counted in its cycle: the count starts again from the cleared registers (R52). -/
theorem errClr_gives_error {pt : PageType} (hw : mayWrite ag (typeCode pt) i s) (e : ErrObs) : Gives (.errClr ag pt i (some e)) s fun t =>
    t.fld (F.ERR_CNT (typeCode pt)) i = 1 ∧ t.fld (F.ERR_FIRST (typeCode pt)) i = e.addr.toNat % 2 ^ 32 ∧
      t.fld (F.ERR_INFO_CODE (typeCode pt)) i = e.code.toNat ∧ t.fld (F.ERR_INFO_ADDR_HI (typeCode pt)) i = e.addr.toNat / 2 ^ 32 ∧
      t.fld (F.ERR_INFO_AGENT (typeCode pt)) i = agentCode e.agent ∧ bitOf (t.fld (F.EVT_STAT (typeCode pt)) i) 0 = true := by
  have hzero : (s.errClear (typeCode pt) i).fld (F.ERR_CNT (typeCode pt)) i = 0 := congrArg Prod.fst (errRegs_errClear s (typeCode pt) i)
  have h := errRegs_countErr_of_zero hzero e.code.toNat e.addr.toNat (agentCode e.agent)
  simp only [State.errRegs, Prod.mk.injEq] at h
  obtain ⟨hcnt, hfirst, hhi, hcode, hagent⟩ := h
  have haddr := e.addr.isLt
  have hevt : bitOf (((s.errClear (typeCode pt) i).countErr (typeCode pt) i e.code.toNat e.addr.toNat (agentCode e.agent)).fld
      (F.EVT_STAT (typeCode pt)) i) 0 = true := by
    rw [countErr_of_zero hzero]
    exact bitOf_raise (by omega) (sevOf_error pt)
  exact gives_of_pageAct rfl hw ⟨hcnt, hfirst, hcode.trans (Nat.mod_eq_of_lt e.code.isLt), hhi.trans (Nat.mod_eq_of_lt (by omega)),
    hagent.trans (Nat.mod_eq_of_lt (agentCode_lt _)), hevt⟩

/-- Settles O24: an event only sets bits and writes no error register, so what the clear's own cycle sets stays. -/
theorem eventAndErrorRegisters : Obligations.EventAndErrorRegisters := by
  intro ag pt i s ty stat hw
  refine ⟨fun mask => ?_, fun mask hwSet => ?_, fun v => ?_, fun v => ?_, errClr_gives hw, errClr_gives_error hw⟩
  · refine gives_of_pageAct rfl hw ⟨fun b hb => bitOf_evtClear_zero s ty i _ hb, fun k hk => ?_, ?_⟩
    · show Tab.get? (s.evtClear ty i mask.toNat 0).regs k = _
      rw [evtClear_zero]
      exact Tab.get?_set_other _ _ hk
    · show { s.evtClear ty i mask.toNat 0 with regs := s.regs } = s
      rw [evtClear_zero]
      rfl
  · exact gives_of_pageAct rfl hw fun b hb hset himpl => bitOf_evtSet hb hset himpl
  · exact gives_of_pageAct rfl hw (fld_evtEnable s ty i _)
  · refine gives_of_pageAct rfl hw fun b hb hset => ?_
    rcases hset with hold | ⟨hset, himpl⟩
    · exact Logged.refl.evtSet.bits ty i b hb hold
    · exact bitOf_evtSet hb hset himpl

/-! ### Staging (R57) -/

theorem Tab.get?_filter_of_true {α : Type} {m : Tab α} {p : Nat → Bool} {k : Nat} (h : p k = true) :
    Tab.get? (m.filter fun e => p e.1) k = Tab.get? m k := by
  induction m with
  | nil => rfl
  | cons x m ih =>
    obtain ⟨j, v⟩ := x
    rw [List.filter_cons]
    split
    · simp only [Tab.get?, ih]
    · next hx =>
      have hjk : j ≠ k := fun he => hx (he ▸ h)
      simp only [Tab.get?, if_neg hjk, ih]

theorem Tab.get?_filter_of_false {α : Type} {m : Tab α} {p : Nat → Bool} {k : Nat} (h : p k = false) :
    Tab.get? (m.filter fun e => p e.1) k = none := by
  induction m with
  | nil => rfl
  | cons x m ih =>
    obtain ⟨j, v⟩ := x
    rw [List.filter_cons]
    split
    · next hx =>
      have hjk : j ≠ k := fun he => Bool.false_ne_true (h.symm.trans (he ▸ hx))
      simp only [Tab.get?, if_neg hjk, ih]
    · exact ih

theorem stageWrite_of_armed {g code : Nat} (h : s.pageArmed ty i = true) :
    s.stageWrite code ty i g = s.countErr ty i errStageBusy (pageAddr ty i 0x038) code := if_pos h

theorem stageWrite_of_le {g code : Nat} (h : s.pageArmed ty i = false) (hg : g ≤ s.fld (F.CFG_GEN ty) i) :
    s.stageWrite code ty i g = s.countErr ty i errStageOrder (pageAddr ty i 0x038) code := by
  simp only [State.stageWrite, h, Bool.false_eq_true, if_false, if_pos hg]

theorem stageWrite_of_lt {g code : Nat} (h : s.pageArmed ty i = false) (hg : s.fld (F.CFG_GEN ty) i < g) :
    s.stageWrite code ty i g = { s.setFld (F.CFG_STAGE ty) i g with shadow := s.shadow.filter fun e => keyPage e.1 != (ty, i) } := by
  simp only [State.stageWrite, h, Bool.false_eq_true, if_false, if_neg (Nat.not_le.2 hg)]

/-! ### ARM and CANCEL (R59, R60, R65) -/

theorem fld_setCommit_state (s : State) (st reason : Nat) : (s.setCommit st reason).fld F.DEVICE_COMMIT_CTL_STATE 0 = st % 8 := by
  rw [State.setCommit, fld_setFld_place, State.fld_setFld_same] <;> rfl

theorem fld_setCommit_reason (s : State) (st reason : Nat) : (s.setCommit st reason).fld F.DEVICE_COMMIT_CTL_REASON 0 = reason % 256 :=
  State.fld_setFld_same ..

/-- The pick that COMMIT_PICK_HI and CFG_CMD name, and the commit that ARM arms (R58, R59). -/
def State.commitPick (s : State) : Nat := s.fld (F.CFG_CMD 0) 0 + s.fld F.DEVICE_COMMIT_PICK_HI 0 * 2 ^ 32
def State.toArm (s : State) : Armed := ⟨s.fld F.DEVICE_COMMIT_GEN 0, s.commitPick, s.stagedPages (s.fld F.DEVICE_COMMIT_GEN 0)⟩

theorem arm_of_late {code : Nat} (hst : s.fld F.DEVICE_COMMIT_CTL_STATE 0 ≠ 1) (hp : s.pwrState = 0) (hn : s.commitPick < s.pick.num + 2) :
    s.arm code = (s.setCommit 4 0).raise 0 0 Ev.DEVICE_COMMIT_LATE := by
  have hopen : ¬(s.fld F.DEVICE_COMMIT_CTL_STATE 0 = 1 ∨ (1 ≤ s.pwrState ∧ s.pwrState ≤ 3)) := by omega
  simp only [State.arm, if_neg hopen, if_pos (show s.fld (F.CFG_CMD 0) 0 + s.fld F.DEVICE_COMMIT_PICK_HI 0 * 2 ^ 32 < s.pick.num + 2 from hn)]

theorem arm_of_passed {code : Nat} (hst : s.fld F.DEVICE_COMMIT_CTL_STATE 0 ≠ 1) (hp : s.pwrState = 0) (hn : s.pick.num + 2 ≤ s.commitPick)
    (hok : s.commitFault s.toArm false s.commitPick 0 = none) : s.arm code = { s with armed := some s.toArm }.setCommit 1 0 := by
  have hopen : ¬(s.fld F.DEVICE_COMMIT_CTL_STATE 0 = 1 ∨ (1 ≤ s.pwrState ∧ s.pwrState ≤ 3)) := by omega
  simp only [State.toArm, State.commitPick] at hok hn ⊢
  simp only [State.arm, if_neg hopen, if_neg (Nat.not_lt.2 hn), hok]

/-- The instant until which a cancel has an effect: before the beat-up of the last pick before the commit's (R65). -/
def State.cancellable (s : State) (a : Armed) : Prop := s.pick.num + 1 < a.pick ∨ (s.pick.num + 1 = a.pick ∧ s.pick.stage = .open)

theorem cancel_of_cancellable {a : Armed} (ha : s.armed = some a) (h : s.cancellable a) :
    s.cancel = ((({ s with armed := none }).setCommit 5 0).raise 0 0 Ev.DEVICE_COMMIT_CANCEL).commitRec a := by
  unfold State.cancellable at h
  simp only [State.cancel, ha, if_pos h]

theorem cancel_of_late {a : Armed} (ha : s.armed = some a) (h : ¬s.cancellable a) : s.cancel = s := by
  unfold State.cancellable at h
  simp only [State.cancel, ha, if_neg h]

/-- CFG_STAGE_WRITE. -/
theorem cfgStageWrite_gives {pt : PageType} {gen : Word} (hw : mayWrite ag (typeCode pt) i s) (harm : s.pageArmed (typeCode pt) i = false)
    (hgen : s.fld (F.CFG_GEN (typeCode pt)) i < gen.toNat) : Gives (.cfgStageWrite ag pt i gen) s fun t =>
      t.fld (F.CFG_STAGE (typeCode pt)) i = gen.toNat ∧ (∀ k, keyPage k = (typeCode pt, i) → Tab.get? t.shadow k = none) ∧
        ∀ k, keyPage k ≠ (typeCode pt, i) → Tab.get? t.shadow k = Tab.get? s.shadow k := by
  refine gives_of_pageAct rfl hw ?_
  simp only [stageWrite_of_lt harm hgen]
  refine ⟨?_, fun k hk => ?_, fun k hk => ?_⟩
  · exact (State.fld_setFld_same ..).trans (Nat.mod_eq_of_lt gen.isLt)
  · exact Tab.get?_filter_of_false (p := fun k => keyPage k != (typeCode pt, i)) (by simp [hk])
  · exact Tab.get?_filter_of_true (p := fun k => keyPage k != (typeCode pt, i)) (by simp [hk])

/-- Settles O25: each branch of staging, arming and cancelling is an equation of the state after it; events and COMMIT records write neither
COMMIT_CTL nor staged values. -/
theorem stagingAndCommitControl : Obligations.StagingAndCommitControl := by
  refine ⟨?_, ?_, ?_⟩
  · intro ag pt i gen s ty a c hw
    exact ⟨fun harm => does_of_pageAct rfl hw (stageWrite_of_armed harm), fun harm hgen => does_of_pageAct rfl hw (stageWrite_of_le harm hgen),
      cfgStageWrite_gives hw⟩
  · intro ag s hw n g hst hp
    refine ⟨fun hn => gives_of_pageAct rfl hw ?_, fun hn hok => gives_of_pageAct rfl hw ?_⟩
    · have hlog : Logged (s.setCommit 4 0) ((s.setCommit 4 0).raise 0 0 Ev.DEVICE_COMMIT_LATE) := Logged.refl.raise
      rw [arm_of_late hst hp hn]
      exact ⟨(hlog.fld_eq rfl 0).trans (fld_setCommit_state ..), hlog.armed⟩
    · rw [arm_of_passed hst hp hn hok]
      exact ⟨rfl, fld_setCommit_state .., fld_setCommit_reason .., rfl⟩
  · intro ag s a hw ha
    refine ⟨fun h => gives_of_pageAct rfl hw ?_, fun h => does_of_pageAct rfl hw (cancel_of_late ha ?_)⟩
    · have hlog (r : QRec) : Logged _ ((({ s with armed := none }.setCommit 5 0).raise 0 0 Ev.DEVICE_COMMIT_CANCEL).bookPush r) :=
        Logged.refl.raise.bookPush
      rw [cancel_of_cancellable ha h]
      exact ⟨(hlog _).armed, ((hlog _).fld_eq rfl 0).trans (fld_setCommit_state ..), (hlog _).shadow⟩
    · unfold State.cancellable
      rcases h with h | ⟨h, hshut⟩
      · omega
      · exact fun hc => hc.elim (by omega) fun hopen => hshut hopen.2

/-! ### Soft reset (R464, R498) -/

/-- The block's work is gone: the first part of a soft reset. -/
def State.withoutWork (s : State) (ty i : Nat) : State :=
  if ty = 1 then s.setCore i { mvpHolder := (s.core i).mvpHolder }
  else if ty = 5 then (s.releasePath i).setSolver i {}
  else if ty = 6 then (s.dropRepairFence i).setSlice i {}
  else s.setColl i {}

/-- The block is in a soft reset. -/
def State.inSoftReset (s : State) (ty i : Nat) : State :=
  { s with mgmt := { s.mgmt with softResets := (ty, i) :: s.mgmt.softResets.filter (· != (ty, i)) } }

/-- The page types whose block has soft reset (R498). -/
def hasSoftReset (ty : Nat) : Prop := ty = 1 ∨ ty = 5 ∨ ty = 6 ∨ ty = 7

theorem softReset_of_has (h : hasSoftReset ty) : s.softReset ty i = ((s.withoutWork ty i).inSoftReset ty i).resetRec 3 ty i := if_pos h

theorem softReset_of_hasNot (h : ¬hasSoftReset ty) : s.softReset ty i = s := if_neg h

theorem releasePath_mem (s : State) (e : Nat) : (s.releasePath e).mem = s.mem := by
  unfold State.releasePath
  generalize s.cores = l
  induction l generalizing s with
  | nil => rfl
  | cons k l ih =>
    rw [List.foldl_cons, ih]
    split <;> rfl

theorem dropRepairFence_mem (s : State) (c : Nat) : (s.dropRepairFence c).mem = s.mem := by
  unfold State.dropRepairFence
  split <;> rfl

theorem withoutWork_mem (s : State) (ty i : Nat) : (s.withoutWork ty i).mem = s.mem := by
  unfold State.withoutWork
  split
  · rfl
  split
  · exact releasePath_mem s i
  split
  · exact dropRepairFence_mem s i
  · rfl

theorem softReset_logged (h : hasSoftReset ty) : Logged ((s.withoutWork ty i).inSoftReset ty i) (s.softReset ty i) := by
  rw [softReset_of_has h]
  exact Logged.refl.bookPush

/-- A block that has soft reset, after the write. -/
theorem softReset_drops (h : hasSoftReset ty) :
    (ty, i) ∈ (s.softReset ty i).mgmt.softResets ∧ (s.softReset ty i).blkReady ty i = false ∧ (s.softReset ty i).mem = s.mem ∧
      (ty = 1 → (s.softReset ty i).core i = { mvpHolder := (s.core i).mvpHolder }) ∧ (ty = 5 → (s.softReset ty i).solver i = {}) ∧
      (ty = 6 → (s.softReset ty i).slice i = {}) ∧ (ty = 7 → (s.softReset ty i).coll i = {}) := by
  have hlog := softReset_logged (s := s) (i := i) h
  have hin : (ty, i) ∈ (s.softReset ty i).mgmt.softResets := by
    rw [hlog.mgmt]
    exact List.mem_cons_self
  refine ⟨hin, ?_, hlog.mem.trans (withoutWork_mem s ty i), ?_, ?_, ?_, ?_⟩
  · simp [State.blkReady, hin]
  · rintro rfl
    rw [State.core, hlog.cores]
    exact State.core_setCore_same s i _
  · rintro rfl
    rw [State.solver, hlog.solvers]
    exact State.solver_setSolver_same (s.releasePath i) i _
  · rintro rfl
    rw [State.slice, hlog.upd]
    exact State.slice_setSlice_same (s.dropRepairFence i) i _
  · rintro rfl
    rw [State.coll, hlog.colls]
    exact State.coll_setColl_same s i _

/-- Settles O26: the block's work is replaced by none and the block is listed as in reset, and the RESET record that follows writes neither. -/
theorem blockSoftReset : Obligations.BlockSoftReset := by
  refine ⟨?_, fun pt i s => ⟨_, rfl, ?_, fun p hp => ?_, rfl⟩⟩
  · intro ag pt i s ty hw
    refine ⟨fun h1 h5 h6 h7 => does_of_pageAct rfl hw (softReset_of_hasNot ?_), fun h => gives_of_pageAct rfl hw (softReset_drops h)⟩
    simp only [hasSoftReset, not_or]
    exact ⟨h1, h5, h6, h7⟩
  · exact fun hin => bne_iff_ne.1 (List.mem_filter.1 hin).2 rfl
  · exact List.mem_filter.trans (and_iff_left (bne_iff_ne.2 hp))

/-! ### A register write (R40 to R46, R57) -/

theorem instances_bounds (h : i < instances ty) : ty < 256 ∧ i < 1024 := by
  unfold instances at h
  split at h <;> omega

theorem lt_instances_of_pageGate {x : Access} {write : Bool} (h : s.pageGate x ty i write ≠ 1) : i < instances ty := by
  by_contra hi
  exact h (if_pos (Nat.not_lt.1 hi))

theorem pageOf_pageAddr (hi : i < 1024) (ho : off < 4096) : pageOf (pageAddr ty i off) = (ty, i, off) := by
  simp only [pageOf, pageAddr, pageBase, Prod.mk.injEq]
  omega

theorem regionOf_pageAddr (hty : ty < 256) (hi : i < 1024) (ho : off < 4096) : regionOf (pageAddr ty i off) = .page := by
  have hbounds : pageBase ≤ pageAddr ty i off ∧ pageAddr ty i off < pageBase + 0x40000000 := by
    unfold pageAddr
    omega
  unfold pageBase at hbounds
  unfold regionOf dramEnd windowBase spoolBase granBytes pageBase
  rw [if_neg (by omega), if_neg (by omega), if_neg (by omega), if_pos hbounds]

theorem sizeOk_pageAddr (ho : off % 4 = 0) : sizeOk (pageAddr ty i off) 4 = true := by
  have hmod : pageAddr ty i off % 4 = 0 := by
    unfold pageAddr pageBase
    omega
  simp [sizeOk, hmod]

/-- REGISTER_WRITE of 4 bytes at a device address, where the page's gate is open or refuses an agent without privilege. -/
theorem registerWrite_eq {addr : BitVec 48} {v : Dword} {g : Nat} (haddr : addr.toNat = pageAddr ty i off) (hoff : off < 4096) (h4 : off % 4 = 0)
    (hg : s.pageGate (s.accessOf ag) ty i true = g) (h07 : g = 0 ∨ g = 7) :
    exec (.registerWrite ag false addr 4 v) s = .next (if g = 7 then s.countErr ty i errPriv addr.toNat (s.accessOf ag).code
      else s.regWrite32 (s.accessOf ag) ty i off (v.toNat % 2 ^ 32)) := by
  have hne : s.pageGate (s.accessOf ag) ty i true ≠ 1 := by omega
  obtain ⟨hty, hi⟩ := instances_bounds (lt_instances_of_pageGate hne)
  show execRegisterWrite ag false addr 4 v s = _
  have h12 : ¬(g = 1 ∨ g = 2) := by omega
  simp only [execRegisterWrite, Bool.false_eq_true, if_false, haddr, regionOf_pageAddr hty hi hoff, if_true, State.regWrite,
    pageOf_pageAddr hi hoff, hg, if_neg h12, sizeOk_pageAddr h4, Bool.not_true, State.countGate, Nat.reduceEqDiff]

/-- THERM_CFG is not written out of its range. -/
def thermFits (ty off v : Nat) : Prop := ty = 15 ∧ off = 0x098 → thermBad v = false

theorem not_thermBad {v : Nat} (h : thermFits ty off v) : ¬(ty = 15 ∧ off = 0x098 ∧ thermBad v = true) := by
  rintro ⟨hty, hoff, hbad⟩
  rw [h ⟨hty, hoff⟩] at hbad
  exact Bool.false_ne_true hbad

/-- The one field of a register takes the write. -/
theorem regWrite32_of_taken {x : Access} {v : Nat} {f : Fld} (hf : regFlds ty i off = [f]) (ht : thermFits ty off v)
    (hr : s.refuses f i = false) :
    s.regWrite32 x ty i off v = (s.fldWrite x.code f i (bitsOf v f.lo f.w)).regAct x ty i off v := by
  simp [State.regWrite32, if_neg (not_thermBad ht), hf, hr]

/-- The one field of a register cannot take the write, which would change it. -/
theorem regWrite32_of_refused {x : Access} {v : Nat} {f : Fld} (hf : regFlds ty i off = [f]) (ht : thermFits ty off v)
    (hr : s.refuses f i = true) (hv : s.fldRead f i ≠ bitsOf v f.lo f.w) :
    s.regWrite32 x ty i off v =
      (s.countErr ty i (if f.acc == .rwl then errLocked else errStageBusy) (pageAddr ty i off) x.code).regAct x ty i off v := by
  simp [State.regWrite32, if_neg (not_thermBad ht), hf, hr, hv]

/-- Settles O23: the access reaches the register whose address it names, and the register's one field takes the write or refuses it. -/
theorem registerWriteByAccessType : Obligations.RegisterWriteByAccessType := by
  intro ag addr v s ty i off f haddr hoff h4 x w act p
  refine ⟨fun hg => registerWrite_eq haddr hoff h4 hg (.inr rfl), fun hw hf ht => ?_⟩
  have hexec : exec (.registerWrite ag false addr 4 v) s = .next (s.regWrite32 x ty i off w) := registerWrite_eq haddr hoff h4 hw (.inl rfl)
  have htaken (hr : s.refuses f i = false) := hexec.trans (congrArg _ (regWrite32_of_taken hf ht hr))
  refine ⟨fun hacc harm => ?_, fun hacc hlock => ?_, fun hacc hlock hv => ?_, fun hacc => ?_⟩
  · simpa only [State.fldWrite, hacc] using htaken (by simp only [State.refuses, hacc, harm])
  · simpa only [State.fldWrite, hacc] using htaken (by simp only [State.refuses, hacc, hlock])
  · have hrefused := regWrite32_of_refused (x := x) hf ht (by simp only [State.refuses, hacc, hlock]) hv
    rw [haddr]
    simpa only [hacc, beq_self_eq_true, if_true] using hexec.trans (congrArg _ hrefused)
  · simpa only [State.fldWrite, hacc] using htaken (by simp only [State.refuses, hacc])

end Sys2Proof.Machine

/-! ## What leaves the pick sequencer alone (R85, R92)

`SameSched s t`, `Calm s t` and `Steady s t` say, one more than the other, what work beside the sequencer leaves of it from `s` to `t`: the armed
commit and the sequencer's registers; its state but for the causes of Table 3.7, the cores, and every event bit that is set; what the last ALIGN
flit of a link said. Every operation that a pick edge, a task's start or a link's flit may run beside the sequencer has one lemma in the
namespace `Steady`: what is so of a state stays so after the operation. -/

namespace Sys2Proof.Machine
open Sys2Proof Sys2Proof.Claims

variable {s₀ s t u : State}

/-- SCHED_CTL and SCHED_STAT, but for the entry number in the low half of each. -/
def schedKey (k : Nat) : Prop := (keyOff k = 0x0BC ∨ keyOff k = 0x0C0) ∧ k % 32 ≠ 0

/-- The place of a field that holds no event bit and is none of these. -/
def Fld.calm (f : Fld) : Bool :=
  decide (f.off < 4096) && decide (f.lo < 32) && f.off != 0x018 && (f.lo == 0 || (f.off != 0x0BC && f.off != 0x0C0))

theorem keyLo_key {f : Fld} (hl : f.lo < 32) (i : Nat) : f.key i % 32 = f.lo := by
  unfold Fld.key
  omega

theorem not_schedKey_of_calm {f : Fld} (h : f.calm = true) (i : Nat) : ¬schedKey (f.key i) := by
  simp only [Fld.calm, Bool.and_eq_true, Bool.or_eq_true, decide_eq_true_eq, bne_iff_ne, beq_iff_eq] at h
  obtain ⟨⟨⟨hoff, hlo⟩, -⟩, hcalm⟩ := h
  unfold schedKey
  rw [keyOff_key hoff hlo, keyLo_key hlo]
  omega

theorem evtStat_ne_of_calm {f : Fld} (h : f.calm = true) (ty i j : Nat) : (F.EVT_STAT ty).key j ≠ f.key i := by
  simp only [Fld.calm, Bool.and_eq_true, decide_eq_true_eq, bne_iff_ne] at h
  obtain ⟨⟨⟨hoff, hlo⟩, hevt⟩, -⟩ := h
  intro he
  have := congrArg keyOff he
  rw [keyOff_evtStat, keyOff_key hoff hlo] at this
  exact hevt this.symm

theorem not_logKey_of_schedKey {k : Nat} (h : schedKey k) : ¬logKey k := by
  obtain ⟨hoff, -⟩ := h
  rintro (hk | rfl)
  · omega
  · rw [keyOff_dropCnt] at hoff
    omega

/-- The sequencer's state but for the causes, the records counted as exhausted, and the dissent still to be sent. -/
def PickState.frame (p : PickState) : PickState := { p with causes := 0, exhausted := [], sendDissent := false }

/-- The armed commit and the sequencer's registers are the same. -/
structure SameSched (s t : State) : Prop where
  armed : t.armed = s.armed
  regs : ∀ k, schedKey k → Tab.get? t.regs k = Tab.get? s.regs k

/-- The sequencer and the cores are left as they were, and no event bit is cleared. -/
structure Calm (s t : State) : Prop extends SameSched s t where
  pick : t.pick.frame = s.pick.frame
  cores : t.cores = s.cores
  bits : ∀ ty i b, b < 32 → bitOf (s.fld (F.EVT_STAT ty) i) b = true → bitOf (t.fld (F.EVT_STAT ty) i) b = true

/-- Besides, every link keeps what its last ALIGN flit said. -/
structure Steady (s t : State) : Prop extends Calm s t where
  links : ∀ l, (t.link l).lastTx = (s.link l).lastTx ∧ (t.link l).peerFenced = (s.link l).peerFenced

theorem SameSched.trans (h : SameSched s t) (h' : SameSched t u) : SameSched s u :=
  ⟨h'.armed.trans h.armed, fun k hk => (h'.regs k hk).trans (h.regs k hk)⟩

theorem SameSched.fld_eq (h : SameSched s t) {f : Fld} {i : Nat} (hk : schedKey (f.key i)) : t.fld f i = s.fld f i := by
  unfold State.fld Tab.get
  rw [h.regs _ hk]

theorem schedKey_of_place {f : Fld} (h : (decide (f.off < 4096) && decide (f.lo < 32) && (f.off == 0x0BC || f.off == 0x0C0) && f.lo != 0) = true)
    (i : Nat) : schedKey (f.key i) := by
  simp only [Bool.and_eq_true, Bool.or_eq_true, decide_eq_true_eq, bne_iff_ne, beq_iff_eq] at h
  obtain ⟨⟨⟨hoff, hlo⟩, hplace⟩, hne⟩ := h
  unfold schedKey
  rw [keyOff_key hoff hlo, keyLo_key hlo]
  exact ⟨hplace, hne⟩

theorem SameSched.run (h : SameSched s t) : t.flag F.PICK_SCHED_CTL_RUN 0 = s.flag F.PICK_SCHED_CTL_RUN 0 := by
  rw [State.flag, h.fld_eq (schedKey_of_place (by decide) 0), State.flag]

theorem SameSched.schedState (h : SameSched s t) : t.schedState = s.schedState := h.fld_eq (schedKey_of_place (by decide) 0)

theorem SameSched.recovRun (h : SameSched s t) : t.fld F.PICK_SCHED_STAT_RECOV_RUN 0 = s.fld F.PICK_SCHED_STAT_RECOV_RUN 0 :=
  h.fld_eq (schedKey_of_place (by decide) 0)

theorem Calm.trans (h : Calm s t) (h' : Calm t u) : Calm s u :=
  ⟨h.toSameSched.trans h'.toSameSched, h'.pick.trans h.pick, h'.cores.trans h.cores, fun ty i b hb h0 => h'.bits ty i b hb (h.bits ty i b hb h0)⟩

namespace Steady

theorem refl : Steady s s := ⟨⟨⟨rfl, fun _ _ => rfl⟩, rfl, rfl, fun _ _ _ _ => id⟩, fun _ => ⟨rfl, rfl⟩⟩

theorem trans (h : Steady s t) (h' : Steady t u) : Steady s u :=
  ⟨h.toCalm.trans h'.toCalm, fun l => ⟨(h'.links l).1.trans (h.links l).1, (h'.links l).2.trans (h.links l).2⟩⟩

/-- The state `t` differs from `s` in none of these. -/
theorem upd (h : Steady s₀ s)
    (e : (t.armed, t.regs, t.pick.frame, t.cores, t.links) = (s.armed, s.regs, s.pick.frame, s.cores, s.links)) : Steady s₀ t := by
  simp only [Prod.mk.injEq] at e
  obtain ⟨harmed, hregs, hpick, hcores, hlinks⟩ := e
  refine h.trans ⟨⟨⟨harmed, fun k _ => by rw [hregs]⟩, hpick, hcores, fun ty i b _ h0 => ?_⟩, fun l => ?_⟩
  · rwa [State.fld_congr hregs]
  · simp only [State.link, hlinks, and_self]

theorem both {c : Prop} [Decidable c] (hs : Steady s₀ s) (ht : Steady s₀ t) : Steady s₀ (if c then s else t) := by
  split
  · exact hs
  · exact ht

theorem both_fst {α : Type} {c : Prop} [Decidable c] {x y : State × α} (hx : Steady s₀ x.1) (hy : Steady s₀ y.1) :
    Steady s₀ (if c then x else y).1 := by
  split
  · exact hx
  · exact hy

theorem foldl_mem {α : Type} {g : State → α → State} {l : List α} (h : Steady s₀ s) (hg : ∀ t, ∀ x ∈ l, Steady s₀ t → Steady s₀ (g t x)) :
    Steady s₀ (l.foldl g s) := by
  induction l generalizing s with
  | nil => exact h
  | cons x l ih => exact ih (hg s x List.mem_cons_self h) fun t y hy => hg t y (List.mem_cons_of_mem x hy)

theorem foldl {α : Type} {g : State → α → State} {l : List α} (h : Steady s₀ s) (hg : ∀ t x, Steady s₀ t → Steady s₀ (g t x)) :
    Steady s₀ (l.foldl g s) :=
  h.foldl_mem fun t x _ => hg t x

/-! ### Operations of Machine/Ops.lean -/

theorem setFld {f : Fld} {i v : Nat} (h : Steady s₀ s) (hf : f.calm = true) : Steady s₀ (s.setFld f i v) := by
  refine h.trans ⟨⟨⟨rfl, fun k hk => Tab.get?_set_other _ _ ?_⟩, rfl, rfl, fun ty j b _ h0 => ?_⟩, fun _ => ⟨rfl, rfl⟩⟩
  · rintro rfl
    exact not_schedKey_of_calm hf i hk
  · rwa [State.fld_setFld_other _ _ (evtStat_ne_of_calm hf ty i j)]

theorem addSat {f : Fld} {i n : Nat} (h : Steady s₀ s) (hf : f.calm = true) : Steady s₀ (s.addSat f i n) := h.setFld hf
theorem addWrap {f : Fld} {i n : Nat} (h : Steady s₀ s) (hf : f.calm = true) : Steady s₀ (s.addWrap f i n) := h.setFld hf

/-- Events and records are of this kind. -/
theorem ofLogged (h : Logged s t) : Steady s t :=
  ⟨⟨⟨h.armed, fun k hk => h.regs k (not_logKey_of_schedKey hk)⟩, (congrArg (fun x => PickState.frame (State.pick x)) h.rest :), h.cores, h.bits⟩,
    fun l => ⟨(congrArg (fun x => (State.link x l).lastTx) h.rest :), (congrArg (fun x => (State.link x l).peerFenced) h.rest :)⟩⟩

theorem emit {m : Msg} (h : Steady s₀ s) : Steady s₀ (s.emit m) := h.upd (by rfl)
theorem raise {ty i b : Nat} (h : Steady s₀ s) : Steady s₀ (s.raise ty i b) := h.trans (ofLogged Logged.refl.raise)
theorem raiseIf {c : Bool} {ty i b : Nat} (h : Steady s₀ s) : Steady s₀ (s.raiseIf c ty i b) := both h.raise h
theorem bookPush {r : QRec} (h : Steady s₀ s) : Steady s₀ (s.bookPush r) := h.trans (ofLogged Logged.refl.bookPush)

theorem countErr {ty i code value agent : Nat} (h : Steady s₀ s) : Steady s₀ (s.countErr ty i code value agent) := by
  have hcnt {v : Nat} : Steady s₀ (s.setFld (F.ERR_CNT ty) i v) := h.setFld (by rfl)
  refine both h (raiseIf (raise (both ?_ hcnt)))
  exact (((hcnt.setFld (by rfl)).setFld (by rfl)).setFld (by rfl)).setFld (by rfl)

theorem countEv {f : Fld} {i n b : Nat} (h : Steady s₀ s) (hf : f.calm = true) : Steady s₀ (s.countEv f i n b) := both h (h.addSat hf).raise

theorem countUnavail {page : Nat × Nat} {addr agent : Nat} (h : Steady s₀ s) : Steady s₀ (s.countUnavail page addr agent) :=
  both h.countErr (both (h.countEv (by decide)).countErr h.countErr)

theorem countAccess {page : Nat × Nat} {status addr agent : Nat} {part : Option Nat} (h : Steady s₀ s) :
    Steady s₀ (s.countAccess page status addr agent part) := by
  refine both h.countErr (both ?_ (both h.countUnavail h))
  dsimp only
  split
  · exact h.countErr.countEv (by decide)
  · exact h.countErr

theorem cause {b : Nat} (h : Steady s₀ s) : Steady s₀ (s.cause b) := both h (h.upd (by rfl))
theorem poisoned {ty i : Nat} (h : Steady s₀ s) : Steady s₀ (s.poisoned ty i) := h.raise.cause
theorem setAudit {x : AuditState} (h : Steady s₀ s) : Steady s₀ { s with audit := x } := h.upd (by rfl)
theorem setField {x : FieldState} (h : Steady s₀ s) : Steady s₀ { s with field := x } := h.upd (by rfl)
theorem setFab {x : FabState} (h : Steady s₀ s) : Steady s₀ { s with fab := x } := h.upd (by rfl)
theorem setHeddle {h : Nat} {x : Heddle} (hs : Steady s₀ s) : Steady s₀ (s.setHeddle h x) := hs.setFab
theorem setSolver {e : Nat} {x : SolverState} (h : Steady s₀ s) : Steady s₀ (s.setSolver e x) := h.upd (by rfl)
theorem setSlice {c : Nat} {x : SliceState} (h : Steady s₀ s) : Steady s₀ (s.setSlice c x) := h.upd (by rfl)
theorem setColl {c : Nat} {x : CollState} (h : Steady s₀ s) : Steady s₀ (s.setColl c x) := h.upd (by rfl)
theorem setGranule {g : Nat} {x : Granule} (h : Steady s₀ s) : Steady s₀ (s.setGranule g x) := h.upd (by rfl)

/-- A link written that keeps what its last ALIGN flit said. -/
theorem setLink {l : Nat} {x : LinkState} (h : Steady s₀ s) (htx : x.lastTx = (s.link l).lastTx) (hp : x.peerFenced = (s.link l).peerFenced) :
    Steady s₀ (s.setLink l x) := by
  refine h.trans ⟨⟨⟨rfl, fun _ _ => rfl⟩, rfl, rfl, fun _ _ _ _ => id⟩, fun j => ?_⟩
  by_cases hj : j = l
  · subst hj
    rw [State.link_setLink_same]
    exact ⟨htx, hp⟩
  · simp only [State.link, State.setLink, Tab.get_set_other _ _ _ hj, and_self]

/-! ### Operations of Machine/Memory.lean -/

theorem storeBlock {a : Nat} {bytes : List Byte} {pz : Bool} (h : Steady s₀ s) : Steady s₀ (s.storeBlock a bytes pz) :=
  both h (both (h.upd (by rfl)) (h.upd (by rfl)))

theorem writeBy {who : Option Nat} {a : Nat} {bytes : List Byte} {pz : Nat → Nat → Bool} {coll : Bool} (h : Steady s₀ s) :
    Steady s₀ (s.writeBy who a bytes pz coll) :=
  h.foldl fun _ _ h1 => both h1.storeBlock h1

theorem writeMem {who : Option Nat} {a : Nat} {bytes : List Byte} {pz : List Nat} {coll : Bool} (h : Steady s₀ s) :
    Steady s₀ (s.writeMem who a bytes pz coll) :=
  h.writeBy

theorem backSnoop {half : Nat} {inv : Bool} (h : Steady s₀ s) : Steady s₀ (s.backSnoop half inv) :=
  both h (addWrap (h.upd (by rfl)) (by decide)).emit

theorem askHost {write : Bool} {a n : Nat} (h : Steady s₀ s) : Steady s₀ (s.askHost write a n) := h.foldl fun _ _ => backSnoop

theorem whenWritable {l : List (Nat × Nat)} {f : State → State} (h : Steady s₀ s) (hf : ∀ t, Steady s₀ t → Steady s₀ (f t)) :
    Steady s₀ (s.whenWritable l f) :=
  both (h.foldl fun _ _ => askHost) (hf _ h)

theorem touchLine {p a n : Nat} {write : Bool} (h : Steady s₀ s) : Steady s₀ (s.touchLine p a n write) :=
  both (upd (both (h.addWrap (f := F.CELLAR_HIT_CNT) (by decide)) (h.addWrap (f := F.CELLAR_MISS_CNT) (by decide))) (by rfl)) h

theorem touch {who : Option Nat} {write : Bool} {a n : Nat} (h : Steady s₀ s) : Steady s₀ (s.touch who write a n) := by
  unfold State.touch
  split
  · exact h
  · exact h.foldl fun _ _ => touchLine

theorem accessDone {page : Nat × Nat} {agent : Nat} {part : Option Nat} {x : Acs} (h : Steady s₀ s) :
    Steady s₀ (s.accessDone page agent part x) :=
  countAccess (both (h.countEv (by decide)) h)

/-! ### Operations of Machine/Route.lean and Machine/Fabric.lean -/

theorem linkSend {l : Nat} {f : Flit} (h : Steady s₀ s) : Steady s₀ (s.linkSend l f) := addWrap (h.setLink rfl rfl) (by decide)

theorem sendFlits {dest seq vc n : Nat} {x : FlitLoad} {m : Msg} (h : Steady s₀ s) : Steady s₀ (s.sendFlits dest seq vc n x m) := by
  unfold State.sendFlits
  split
  · exact h.emit
  · split
    · exact h.countEv (by decide)
    · exact emit (h.foldl fun _ _ => linkSend)

theorem sendMsg {dest : Nat} {m : Msg} (h : Steady s₀ s) : Steady s₀ (s.sendMsg dest m) := h.sendFlits

theorem threadTo {h peer peerId part : Nat} {repairUse session : Bool} (hs : Steady s₀ s) :
    Steady s₀ (s.threadTo h peer peerId part repairUse session) :=
  hs.setHeddle.addWrap (by decide)

theorem beginThread {h peer part : Nat} {repairUse : Bool} (hs : Steady s₀ s) : Steady s₀ (s.beginThread h peer part repairUse) :=
  both hs.setHeddle.sendMsg hs.setHeddle

theorem beginRelease {h : Nat} (hs : Steady s₀ s) : Steady s₀ (s.beginRelease h) := both hs.setHeddle.sendMsg hs
theorem setIssued {id : Nat} {o : IssuedOp} (h : Steady s₀ s) : Steady s₀ (s.setIssued id o) := h.setFab

theorem trySend {id : Nat} (h : Steady s₀ s) : Steady s₀ (s.trySend id) := by
  unfold State.trySend
  split
  · exact h
  · exact both h (both h.setIssued.setHeddle.sendFlits h)

theorem sendWaiting {h : Nat} (hs : Steady s₀ s) : Steady s₀ (s.sendWaiting h) := hs.foldl fun _ _ => trySend

theorem issueOp {who : Issuer} {d : OpDesc} {part : Option Nat} {data : List Byte} {pz : List Nat} {repair : Option RepairOp} (h : Steady s₀ s) :
    Steady s₀ (s.issueOp who d part data pz repair).1 :=
  both h.setFab h.setFab.trySend

/-! ### Operations of Machine/Update.lean -/

theorem unitCount {c : Nat} {write : Bool} {l : List (Nat × Nat)} (h : Steady s₀ s) : Steady s₀ (s.unitCount c write l) :=
  h.foldl fun _ _ h1 => both h1 h1.accessDone

theorem unitAsk {l w : List (Nat × Nat)} (h : Steady s₀ s) : Steady s₀ (s.unitAsk l w).1 :=
  both_fst (foldl (h.foldl fun _ _ => askHost) fun _ _ => askHost) h

theorem chunkReject {c code : Nat} {k : Chunk} {agent : Nat} (h : Steady s₀ s) : Steady s₀ (s.chunkReject c code k agent) :=
  h.countErr.countEv (by decide)

theorem chunkDup {c : Nat} {h : HeldChunk} (hs : Steady s₀ s) : Steady s₀ (s.chunkDup c h) :=
  both (hs.addSat (by decide)).setSlice (hs.addSat (by decide))

theorem chunkUnavail {c : Nat} {h : HeldChunk} (hs : Steady s₀ s) : Steady s₀ (s.chunkUnavail c h) := both hs.countErr (both hs.countErr hs)

theorem openChunk {c : Nat} {k : Chunk} {gap : Bool} (h : Steady s₀ s) : Steady s₀ (s.openChunk c k gap) := by
  unfold State.openChunk
  extract_lets b x s1 s2
  have h1 : Steady s₀ s1 := by
    simp only [s1]
    split
    · exact h.setSlice
    · exact h.setSlice
  exact both (h1.writeMem.countEv (by decide)) h1.writeMem

theorem judge {c : Nat} {h : HeldChunk} (hs : Steady s₀ s) : Steady s₀ (s.judge c h).1 := by
  rw [State.judge]
  extract_lets l isOpen start
  have hstart : ∀ gap, Steady s₀ (start gap).1 := fun gap => both_fst hs hs.openChunk
  split
  · exact hs.chunkReject
  · split
    · exact hs.chunkReject
    · refine both_fst hs.chunkReject (both_fst hs.chunkReject ?_)
      split
      · exact hstart _
      · exact both_fst hs.chunkDup (hstart _)
      · exact both_fst (hstart _) (both_fst hs.chunkDup hs)
      · exact hs
      · exact hs.chunkUnavail
      · exact hs.chunkReject

theorem judgeNow {c : Nat} {h : HeldChunk} (hs : Steady s₀ s) : Steady s₀ (s.judgeNow c h).1 := both_fst hs.unitCount.judge hs.unitAsk

theorem chunkArrive {c : Nat} {h : HeldChunk} (hs : Steady s₀ s) : Steady s₀ (s.chunkArrive c h) :=
  both hs.poisoned (both hs.judgeNow.setSlice hs.judgeNow)

theorem updTask {c task entry : Nat} (h : Steady s₀ s) : Steady s₀ (s.updTask c task entry) :=
  both (h.setSlice.countErr.countEv (by decide)) (h.unitCount.setSlice.foldl fun _ _ => chunkArrive)

/-! ### Operations of Machine/Coll.lean -/

theorem collErr {c code idx chunk : Nat} (h : Steady s₀ s) : Steady s₀ (s.collErr c code idx chunk) := (h.countEv (by decide)).countErr
theorem collCount {c part a n : Nat} {write : Bool} (h : Steady s₀ s) : Steady s₀ (s.collCount c part a n write) := both h h.touch.accessDone
theorem collWrite {c part a w : Nat} {els pz : List Nat} (h : Steady s₀ s) : Steady s₀ (s.collWrite c part a w els pz) := h.collCount.writeMem

theorem scriptTake {c task idx arg : Nat} {script : Option Script} (h : Steady s₀ s) : Steady s₀ (s.scriptTake c task idx arg script) := by
  unfold State.scriptTake
  split
  · exact h.setColl.collErr
  · exact setColl (both (h.foldl fun _ _ => collCount) h)

theorem collTask {c task idx arg : Nat} (h : Steady s₀ s) : Steady s₀ (s.collTask c task idx arg) := both h h.accessDone.scriptTake

theorem deliverMemory {c : Nat} {x : Script} {i : Nat} {k : CChunk} (h : Steady s₀ s) : Steady s₀ (s.deliverMemory c x i k) := by
  unfold State.deliverMemory
  dsimp only
  split
  · exact h.collWrite
  · exact h.foldl fun _ _ => collWrite
  · exact h
  · exact h
  · exact h.foldl fun _ _ h1 => both h1.collWrite h1
  · exact h.collWrite

theorem deliverBlock {c : Nat} {x : Script} {i : Nat} (h : Steady s₀ s) : Steady s₀ (s.deliverBlock c x i) :=
  both (both h.poisoned (chunkArrive (h.setColl.addWrap (by decide)))) h

theorem sendXfer {c : Nat} {x : Script} {i : Nat} {k : CChunk} {t : Xfer} {h : Nat} (hs : Steady s₀ s) : Steady s₀ (s.sendXfer c x i k t h) :=
  both hs.issueOp.issueOp hs.issueOp

theorem chunkDone {c : Nat} {x : Script} {i : Nat} {k : CChunk} (h : Steady s₀ s) : Steady s₀ (s.chunkDone c x i k) := by
  refine both h (h.whenWritable fun t h1 => ?_)
  extract_lets k1 s1
  have h2 : Steady s₀ s1 := h1.setColl.addWrap (by decide)
  exact both h2.deliverBlock h2.deliverMemory

theorem runChunk {fuel c : Nat} {x : Script} {i : Nat} (h : Steady s₀ s) : Steady s₀ (State.runChunk fuel s c x i) := by
  induction fuel generalizing s with
  | zero => exact h
  | succ n ih =>
    unfold State.runChunk
    split
    · exact h
    · refine both h ?_
      split
      · exact h.chunkDone
      · split
        · split
          · exact h.setColl.collErr
          · exact ih h.sendXfer.setColl
        · dsimp only
          split
          · exact h
          · exact both ((h.setColl.countEv (by decide)).setColl.countEv (by decide)).cause (ih (h.setColl.countEv (by decide)).setColl)

theorem pushChunk {c i : Nat} (h : Steady s₀ s) : Steady s₀ (s.pushChunk c i) := by
  unfold State.pushChunk
  split
  · exact h.runChunk
  · exact h

theorem compareStep (h : Steady s₀ s) : Steady s₀ s.compareStep := by
  unfold State.compareStep
  extract_lets m s1
  have h1 : Steady s₀ s1 := by
    simp only [s1]
    split
    · exact both h.setColl.pushChunk h
    · exact h
  split
  · exact both h1.setAudit h1
  · exact h1

theorem moveChunk {c i : Nat} (h : Steady s₀ s) : Steady s₀ (s.moveChunk c i) := both h.pushChunk.compareStep h.pushChunk
theorem compareBegin (h : Steady s₀ s) : Steady s₀ s.compareBegin := h.setColl.setColl.setColl.moveChunk.moveChunk

/-! ### Operations of Machine/Audit.lean -/

theorem setDigestReg {f : Fld} {b : List Byte} (h : Steady s₀ s) (hf : ∀ k < 8, (f.nth k).calm = true) : Steady s₀ (s.setDigestReg f b) := by
  exact h.foldl_mem fun _ k hk h1 => h1.setFld (hf k (List.mem_range.1 hk))


theorem rehash (h : Steady s₀ s) : Steady s₀ s.rehash := h.setAudit.setAudit.writeMem
theorem comparePick (h : Steady s₀ s) : Steady s₀ s.comparePick := (both h.raise h).rehash.setAudit

theorem compareResult {flag : Bool} (h : Steady s₀ s) : Steady s₀ (s.compareResult flag) := by
  unfold State.compareResult
  extract_lets a s1 r s2 old
  have h1 : Steady s₀ s1 := h.setAudit.addWrap (by decide)
  have h2 : Steady s₀ s2 := ((h1.setFld (by decide)).addSat (by decide)).raise
  split
  · exact h2.bookPush
  · exact (((h1.setDigestReg (by decide)).setDigestReg (by decide)).addWrap (by decide)).setFld (by decide)

theorem sealCommit (h : Steady s₀ s) : Steady s₀ s.sealCommit := h.setAudit
theorem sealRestore (h : Steady s₀ s) : Steady s₀ s.sealRestore := (h.foldl fun _ _ h1 => h1.writeMem).writeMem

/-! ### Operations of Machine/Links.lean -/

theorem permStep {h : Nat} (hs : Steady s₀ s) : Steady s₀ (s.permStep h) :=
  both (both hs (both (hs.setHeddle.addWrap (by decide)).sendWaiting hs.threadTo)) (both hs.setHeddle hs)

theorem permSync (h : Steady s₀ s) : Steady s₀ s.permSync := h.foldl fun _ _ => permStep
theorem sendNeg {l : Nat} (h : Steady s₀ s) : Steady s₀ (s.sendNeg l) := (h.addWrap (by decide)).emit
theorem compareGo (h : Steady s₀ s) : Steady s₀ s.compareGo := both h.compareBegin h

theorem countExhaust {k : Nat} (h : Steady s₀ s) : Steady s₀ (s.countExhaust k) := both h (addSat (h.upd (by rfl)) (by decide)).raise

theorem threadFrom {l : List HedRec} {k : Nat} {stuck : List Nat} (h : Steady s₀ s) : Steady s₀ (s.threadFrom l k stuck) := by
  induction l generalizing s k stuck with
  | nil => exact h
  | cons r t ih => exact both (ih h) (both (ih h.beginThread) (both (ih h) (ih h.countExhaust)))

theorem threadSet (h : Steady s₀ s) : Steady s₀ s.threadSet := h.threadFrom

/-! ### Operations of Machine/Cellar.lean -/

theorem granEdge {g : Nat} (h : Steady s₀ s) : Steady s₀ (s.granEdge g) := by
  unfold State.granEdge
  extract_lets x s1
  have h1 : Steady s₀ s1 := both (h.upd (by rfl)) h
  refine both ?_ h
  unfold State.enterMode
  extract_lets w d inD s2 celled s3 keep
  have h3 : Steady s₀ s3 := both (h1.upd (by rfl)) (h1.upd (by rfl))
  exact h3.upd (by rfl)

theorem granEdges (h : Steady s₀ s) : Steady s₀ s.granEdges := h.foldl fun _ _ => granEdge

theorem flushLate (h : Steady s₀ s) : Steady s₀ s.flushLate :=
  have hraise := h.foldl fun _ _ => raise
  both hraise hraise.cause

/-! ### Operations of Machine/Trellis.lean -/

theorem setSession {id : Nat} {x : Session} (h : Steady s₀ s) : Steady s₀ (s.setSession id x) := h.setField

theorem closeSession {id : Nat} (h : Steady s₀ s) : Steady s₀ (s.closeSession id) := by
  unfold State.closeSession
  split
  · exact h
  · extract_lets s1
    have h1 : Steady s₀ s1 := by
      simp only [s1]
      split
      · exact (h.addWrap (by decide)).emit
      · exact h
    exact h1.upd (by rfl)

theorem sendReply {id sub seq status run : Nat} {body : List Byte} (h : Steady s₀ s) : Steady s₀ (s.sendReply id sub seq status run body) := by
  unfold State.sendReply State.sendRecords
  dsimp only
  split
  · exact h
  · split
    · exact h
    · exact both (h.setSession.addWrap (by decide)).emit.closeSession (h.setSession.addWrap (by decide)).emit

theorem writeBatch {p v : Nat} {l : Layout} (h : Steady s₀ s) : Steady s₀ (s.writeBatch p v l) :=
  foldl (h.writeMem.foldl fun _ _ h1 => both h1.writeMem.writeMem.writeMem.writeMem h1.writeMem.writeMem)
    fun _ _ h1 => writeMem (both h1.writeMem h1)

theorem startBatches {v : Nat} (h : Steady s₀ s) : Steady s₀ (s.startBatches v) := (h.foldl fun _ _ => writeBatch).setField

theorem releaseOne {p v e k : Nat} {q : PendReq} (h : Steady s₀ s) : Steady s₀ (s.releaseOne p v e k q) := by
  unfold State.releaseOne
  split
  · exact h
  · exact sendReply (setSession (both (h.countEv (by decide)) (both (h.countEv (by decide)) h)))

theorem releaseReplies {v e : Nat} (h : Steady s₀ s) : Steady s₀ (s.releaseReplies v e) :=
  (h.foldl fun _ _ h1 => h1.foldl fun _ _ => releaseOne).setField

/-! ### Operations of Machine/Sched.lean and Machine/Vote.lean -/

theorem seqCount {l : List (Nat × Nat)} (h : Steady s₀ s) : Steady s₀ (s.seqCount l) := h.foldl fun _ _ => accessDone
theorem argCount {x : TaskRec} (h : Steady s₀ s) : Steady s₀ (s.argCount x) := both h.accessDone h
theorem sendAlign {l : Nat} {edge : Bool} (h : Steady s₀ s) : Steady s₀ (s.sendAlign l edge) := (h.addWrap (by decide)).emit
theorem dissentSent (h : Steady s₀ s) : Steady s₀ (s.modPick fun p => { p with sendDissent := false }) := h.upd (by rfl)
theorem flood (h : Steady s₀ s) : Steady s₀ s.flood := h.foldl fun _ _ => sendAlign

/-! ### Operations of Machine/PickEdge.lean -/

theorem mvpWaitEdge (h : Steady s₀ s) : Steady s₀ s.mvpWaitEdge := by
  refine h.foldl fun t e h1 => ?_
  split
  · exact h1.addSat (by decide)
  · exact h1

theorem heddleRestore (h : Steady s₀ s) : Steady s₀ s.heddleRestore := h.setFab.permSync
theorem committedEnd (h : Steady s₀ s) : Steady s₀ s.committedEnd := (both h.compareResult h).sealCommit.releaseReplies
theorem releaseUndeclared (h : Steady s₀ s) : Steady s₀ s.releaseUndeclared := h.foldl fun _ _ => beginRelease
theorem heddleRecord (h : Steady s₀ s) : Steady s₀ s.heddleRecord := h.setFab

theorem compareNext {old : State} (h : Steady s₀ s) : Steady s₀ (s.compareNext old) := both h.comparePick h.setAudit
theorem pickOutPulse (h : Steady s₀ s) : Steady s₀ s.pickOutPulse := both (emit (h.upd (by rfl))) h

end Steady

/-! ### Links at the edge (R364) -/

namespace Calm

theorem refl : Calm s s := Steady.refl.toCalm
theorem steady (h : Calm s₀ s) (hs : Steady s t) : Calm s₀ t := h.trans hs.toCalm
theorem setLink {l : Nat} {x : LinkState} (h : Calm s₀ s) : Calm s₀ (s.setLink l x) := h.trans ⟨⟨rfl, fun _ _ => rfl⟩, rfl, rfl, fun _ _ _ _ => id⟩

theorem foldl {α : Type} {g : State → α → State} {l : List α} (h : Calm s₀ s) (hg : ∀ t x, Calm s₀ t → Calm s₀ (g t x)) :
    Calm s₀ (l.foldl g s) := by
  induction l generalizing s with
  | nil => exact h
  | cons x l ih => exact ih (hg s x h)

theorem setLinkState {l st : Nat} (h : Calm s₀ s) : Calm s₀ (s.setLinkState l st) := by
  unfold State.setLinkState
  extract_lets old s1 s2 s3 s4
  have h1 : Steady s s1 := Steady.refl.setFld (by decide)
  have h2 : Steady s s2 := .both (h1.addSat (by decide)).raise h1
  have h3 : Steady s s3 := .both h2.raise (.both h2.raise (.both h2.raise h2))
  have h4 : Calm s₀ s4 := by
    simp only [s4]
    split
    · exact h.steady h3
    · exact (h.steady h3).setLink
  split
  · exact h
  · exact h4.steady Steady.refl.permSync

theorem linkJudge {l : Nat} (h : Calm s₀ s) : Calm s₀ (s.linkJudge l) := by
  unfold State.linkJudge
  split
  · exact (h.steady (Steady.refl.setFld (by decide))).setLinkState
  · exact (h.steady (Steady.refl.setFld (by decide))).setLinkState

theorem linkEdges {left : Bool} (h : Calm s₀ s) : Calm s₀ (s.linkEdges left) := by
  unfold State.linkEdges
  extract_lets s1 s2
  have h1 : Calm s₀ s1 := by
    refine h.foldl fun t l ht => ?_
    split
    · exact ht.linkJudge
    · exact ht
  have h2 : Steady s1 s2 := Steady.refl.foldl fun _ _ ht => .both ht.sendNeg ht
  exact h1.steady (Steady.dissentSent (h2.foldl fun _ _ ht => .both ht.sendAlign ht))

end Calm

end Sys2Proof.Machine

/-! ## The pick edge (R70, R71, R86, R99, R103) -/

namespace Sys2Proof.Machine
open Sys2Proof Sys2Proof.Claims

variable {s t old : State} {e : Entry}

/-! ### The outcome and the turn -/

theorem outcome_sameSched (s : State) : SameSched s s.outcome := by
  unfold State.outcome
  split
  · exact SameSched.trans (t := s.abortWork) ⟨rfl, fun _ _ => rfl⟩ Steady.refl.heddleRestore.sealRestore.toSameSched
  · exact Steady.refl.committedEnd.toSameSched.trans ⟨rfl, fun _ _ => rfl⟩

/-- No core carries anything over (R86). -/
theorem outcome_cores (s : State) : s.outcome.cores = [] := by
  unfold State.outcome
  split
  · exact (Steady.refl (s := s.abortWork)).heddleRestore.sealRestore.cores
  · rfl

/-- The sequencer turned, and SCHED_STAT as the pick that ends says; RECOV_CNT and events follow. -/
def State.turned (s old : State) : State :=
  (State.setFld { s with pick := old.turn } F.PICK_SCHED_STAT_STATE 0 old.stateAfter).setFld F.PICK_SCHED_STAT_RECOV_RUN 0 old.recovAfter

theorem turnPick_steady (s old : State) : Steady (s.turned old) (s.turnPick old) :=
  .raiseIf (.both (Steady.refl.addSat (by decide)) .refl)

theorem turned_schedState (s old : State) : (s.turned old).schedState = old.stateAfter % 4 :=
  (State.fld_setFld_other _ _ (by decide)).trans (State.fld_setFld_same ..)

theorem turned_recovRun (s old : State) : (s.turned old).fld F.PICK_SCHED_STAT_RECOV_RUN 0 = old.recovAfter % 16 := State.fld_setFld_same ..

theorem turned_run (s old : State) : (s.turned old).flag F.PICK_SCHED_CTL_RUN 0 = s.flag F.PICK_SCHED_CTL_RUN 0 := by
  have hfld : (s.turned old).fld F.PICK_SCHED_CTL_RUN 0 = s.fld F.PICK_SCHED_CTL_RUN 0 :=
    (State.fld_setFld_other _ _ (by decide)).trans (State.fld_setFld_other _ _ (by decide))
  rw [State.flag, hfld, State.flag]

/-- The edge up to the entry of the pick that begins. -/
def State.edgeTurn (s : State) : State := (s.mvpWaitEdge.outcome.turnPick s).granEdges

theorem edgeTurn_steady (s : State) : Steady (s.mvpWaitEdge.outcome.turned s) s.edgeTurn := (turnPick_steady _ s).granEdges

theorem edgeTurn_pick (s : State) : s.edgeTurn.pick.frame = s.turn.frame := (edgeTurn_steady s).pick
theorem edgeTurn_cores (s : State) : s.edgeTurn.cores = [] := (edgeTurn_steady s).cores.trans (outcome_cores _)
theorem edgeTurn_schedState (s : State) : s.edgeTurn.schedState = s.stateAfter % 4 := (edgeTurn_steady s).schedState.trans (turned_schedState ..)

theorem edgeTurn_recovRun (s : State) : s.edgeTurn.fld F.PICK_SCHED_STAT_RECOV_RUN 0 = s.recovAfter % 16 :=
  (edgeTurn_steady s).recovRun.trans (turned_recovRun ..)

theorem outcome_sched (s : State) : SameSched s s.mvpWaitEdge.outcome := Steady.refl.mvpWaitEdge.toSameSched.trans (outcome_sameSched _)

theorem edgeTurn_armed (s : State) : s.edgeTurn.armed = s.armed := (edgeTurn_steady s).armed.trans (outcome_sched s).armed

theorem edgeTurn_run (s : State) : s.edgeTurn.flag F.PICK_SCHED_CTL_RUN 0 = s.flag F.PICK_SCHED_CTL_RUN 0 :=
  (edgeTurn_steady s).run.trans ((turned_run ..).trans (outcome_sched s).run)

/-! ### The entry of the pick that begins -/

/-- The sequencer's numbers, its place in the pick, and whether the pick is a recovery pick. -/
def PickState.timing (p : PickState) : Nat × Nat × Nat × Stage × Bool := (p.num, p.work, p.phase, p.stage, p.recovery)

section
variable {p q : PickState} (h : p.frame = q.frame)
include h
theorem timing_of_frame : p.timing = q.timing := (congrArg PickState.timing h :)
theorem entry_of_frame : p.entry = q.entry := (congrArg PickState.entry h :)
theorem tasks_of_frame : p.tasks = q.tasks := (congrArg PickState.tasks h :)
end

/-- Another entry may have come, and nothing else of the sequencer has changed. -/
structure Entered (s t : State) : Prop extends SameSched s t where
  timing : t.pick.timing = s.pick.timing
  cores : t.cores = s.cores

theorem Entered.trans {u : State} (h : Entered s t) (h' : Entered t u) : Entered s u :=
  ⟨h.toSameSched.trans h'.toSameSched, h'.timing.trans h.timing, h'.cores.trans h.cores⟩

theorem Calm.entered (h : Calm s t) : Entered s t := ⟨h.toSameSched, timing_of_frame h.pick, h.cores⟩

theorem noEntry_entered (s : State) (i : Nat) : Entered s (s.noEntry i) := ⟨⟨rfl, fun _ _ => rfl⟩, rfl, rfl⟩
theorem runEntry_entered (s : State) (e : Entry) : Entered s (s.runEntry e) := ⟨⟨rfl, fun _ _ => rfl⟩, rfl, rfl⟩

theorem enterLoaded_entered (s : State) (i : Nat) : ∀ o : Option Entry, Entered s (s.enterLoaded i o)
  | some e => runEntry_entered s e
  | none => (noEntry_entered s i).trans Steady.refl.raise.cause.entered

theorem enterEntry_entered (s : State) (i : Nat) (ready : Option Entry) : Entered s (s.enterEntry i ready) :=
  (Steady.both .refl Steady.refl.seqCount).entered.trans (enterLoaded_entered ..)

theorem pickEntry_entered (s old : State) (same : Bool) : Entered s (s.pickEntry old same) := by
  unfold State.pickEntry
  extract_lets st set ready
  split
  · exact noEntry_entered ..
  · split
    · exact enterEntry_entered ..
    · split
      · exact enterEntry_entered ..
      · exact enterEntry_entered ..

/-- In IDLE and in STALLED no entry runs. -/
theorem pickEntry_of_idle {same : Bool} (h1 : s.schedState ≠ 1) (h2 : s.schedState ≠ 2) : s.pickEntry old same = s.noEntry old.pick.entry.idx :=
  if_pos ⟨h1, h2⟩

theorem enterEntry_some (s : State) (i : Nat) (e : Entry) : s.enterEntry i (some e) = s.runEntry e := rfl

section
variable (hrun : s.flag F.PICK_SCHED_CTL_RUN 0 = old.flag F.PICK_SCHED_CTL_RUN 0) (hst : s.schedState = 1 ∨ s.schedState = 2)
  (htask : old.pick.noTask = false)
include hrun hst htask

/-- After a LATE pick its entry runs again. -/
theorem pickEntry_of_late {same : Bool} (hlate : old.wasLate = true) : s.pickEntry old same = s.runEntry old.pick.entry := by
  unfold State.pickEntry
  simp only [hrun, hlate, htask, Bool.and_not_self, Bool.true_or, Bool.false_eq_true, if_false, if_true, enterEntry_some]
  exact if_neg (by omega)

/-- After a committed pick the entry that it names runs, as it has been checked. -/
theorem pickEntry_of_committed (hlate : old.wasLate = false) (hnext : old.pick.nextEntry = some e) (hidx : e.idx = old.pick.entry.next) :
    s.pickEntry old true = s.runEntry e := by
  unfold State.pickEntry
  simp only [hrun, hlate, htask, hnext, hidx, Bool.and_not_self, Bool.or_self, Bool.false_eq_true, if_false, if_true, Option.filter_some,
    beq_self_eq_true, enterEntry_some]
  exact if_neg (by omega)
end

/-! ### The rest of the edge -/

theorem commitEdge_of_unarmed (h : s.armed = none) : s.commitEdge = s := by
  unfold State.commitEdge
  rw [h]

theorem rejectedNow_of_unarmed (h : s.armed = none) : rejectedNow s t = false := by simp [rejectedNow, h]

theorem runChange_of_same {was : Bool} (h : s.flag F.PICK_SCHED_CTL_RUN 0 = was) : s.runChange was = s := if_pos h

/-- Without an armed commit the edge is the turn, the entry of the pick that begins, and what leaves the sequencer alone. -/
theorem pickEdge_calm (harm : s.armed = none) : Calm (s.edgeTurn.pickEntry s true) s.pickEdge := by
  have hnone : s.edgeTurn.armed = none := (edgeTurn_armed s).trans harm
  unfold State.pickEdge
  extract_lets s3 s4 s5 s6 s7 s8
  have h5 : s5 = s.edgeTurn.pickEntry s true := by
    simp only [s5, s4, s3]
    rw [← State.edgeTurn, commitEdge_of_unarmed hnone, runChange_of_same (edgeTurn_run s), rejectedNow_of_unarmed hnone, Bool.not_false]
  rw [← h5]
  have hrelease : Steady s5 (if s.wasLate then s5 else s5.releaseUndeclared) := .both .refl Steady.refl.releaseUndeclared
  have h6 : Steady s5 s6 := hrelease.threadSet.heddleRecord
  have h7 : Steady s5 s7 := h6.compareNext.compareGo
  have h8 : Steady s5 s8 := .both h7 h7.startBatches
  exact h8.toCalm.linkEdges.steady Steady.refl.pickOutPulse

theorem pickEdge_entered (harm : s.armed = none) : Entered s.edgeTurn s.pickEdge := (pickEntry_entered ..).trans (pickEdge_calm harm).entered

/-! ### What SCHED_STAT shows after the edge -/

theorem wasLate_iff : s.wasLate = true ↔ s.pick.outcome = some true := beq_iff_eq

theorem numbersAfter_of_plain (hset : s.pick.pickSet = none) (hadopt : s.pick.adopt = none) :
    s.numbersAfter = ((s.pick.num + 1) % 2 ^ 48, if s.wasLate then s.pick.work else (s.pick.work + 1) % 2 ^ 48) := by
  simp only [State.numbersAfter, hset, hadopt]

theorem numbersAfter_of_set {k : Nat} (hset : s.pick.pickSet = some k) : s.numbersAfter = (k, k) := by
  simp only [State.numbersAfter, hset]

section
variable (hfence : s.pick.fenced = false) (hst : s.schedState = 1 ∨ s.schedState = 2)

theorem limitReached_of_lt (h : s.fld F.PICK_SCHED_STAT_RECOV_RUN 0 < s.fld F.PICK_SCHED_CTL_RECOVERY_LIMIT 0) : s.limitReached = false := by
  simp [State.limitReached, h]

include hfence

theorem stateAfter_of_limit (hlim : s.limitReached = true) : s.stateAfter = 3 := by simp [State.stateAfter, hfence, hlim]

include hst

theorem stateAfter_of_late (hlate : s.wasLate = true) (hlim : s.limitReached = false) : s.stateAfter = 2 := by
  simp [State.stateAfter, hfence, hst, hlate, hlim]

theorem stateAfter_of_committed (hlate : s.wasLate = false) (hdiv : s.diverged = false) : s.stateAfter = if s.ranHalt then 0 else 1 := by
  simp [State.stateAfter, State.limitReached, hfence, hst, hlate, hdiv]
end

/-! ### The statement -/

/-- Where no entry runs there is no task. -/
theorem pickEdge_tasks_of_idle (harm : s.armed = none) (h1 : s.stateAfter ≠ 1) (h2 : s.stateAfter ≠ 2) (h4 : s.stateAfter < 4) :
    s.pickEdge.pick.tasks = [] := by
  have hst : s.edgeTurn.schedState = s.stateAfter := (edgeTurn_schedState s).trans (Nat.mod_eq_of_lt h4)
  have hcalm := pickEdge_calm harm
  rw [pickEntry_of_idle (by omega) (by omega)] at hcalm
  exact tasks_of_frame hcalm.pick

/-- Where entry `e` runs the pick has its tasks. -/
theorem pickEdge_entry_of_run (harm : s.armed = none) (h : s.edgeTurn.pickEntry s true = s.edgeTurn.runEntry e) :
    s.pickEdge.pick.entry = e ∧ s.pickEdge.pick.tasks = e.tasks.map fun d => { desc := d } := by
  have hcalm := pickEdge_calm harm
  rw [h] at hcalm
  exact ⟨entry_of_frame hcalm.pick, tasks_of_frame hcalm.pick⟩

/-- Settles O29: the outcome leaves the sequencer's registers, the turn sets them, and nothing after the entry of the next pick touches them. -/
theorem pickEdgeOutcome : Obligations.PickEdgeOutcome := by
  intro s hstage harm
  refine ⟨s.pickEdge, congrArg Host.Outcome.next (if_pos hstage), ?_⟩
  have hent := pickEdge_entered harm
  have htiming : s.pickEdge.pick.timing = s.turn.timing := hent.timing.trans (timing_of_frame (edgeTurn_pick s))
  simp only [PickState.timing, State.turn, Prod.mk.injEq] at htiming
  obtain ⟨hnum, hwork, hphase, hopen, hrecov⟩ := htiming
  have hstate : s.pickEdge.fld F.PICK_SCHED_STAT_STATE 0 = s.stateAfter % 4 := hent.schedState.trans (edgeTurn_schedState s)
  have hcount : s.pickEdge.fld F.PICK_SCHED_STAT_RECOV_RUN 0 = s.recovAfter % 16 := hent.recovRun.trans (edgeTurn_recovRun s)
  refine ⟨hopen, hphase, hent.cores.trans (edgeTurn_cores s), fun hset hadopt => ?_, fun k hset => ?_, fun hfence htask hst => ⟨?_, ?_, ?_, ?_⟩⟩
  · rw [hnum, hwork, numbersAfter_of_plain hset hadopt, ← wasLate_iff]
    exact ⟨rfl, fun hlate => if_pos hlate, fun hlate => if_neg hlate⟩
  · rw [hnum, hwork, numbersAfter_of_set hset]
    exact ⟨rfl, rfl⟩
  · intro hlate hlt
    have hl := wasLate_iff.2 hlate
    have hlim := limitReached_of_lt hlt
    have hafter := stateAfter_of_late hfence hst hl hlim
    have hrec : s.recovers = true := by simp [State.recovers, hl, hlim]
    obtain ⟨hentry, htasks⟩ := pickEdge_entry_of_run harm
      (pickEntry_of_late (edgeTurn_run s) (.inr ((edgeTurn_schedState s).trans (by rw [hafter]))) htask hl)
    refine ⟨by rw [hstate, hafter], ?_, hrecov.trans hrec, hentry, htasks⟩
    rw [hcount, State.recovAfter, hl, hrec]
    rfl
  · intro hlate hle
    have hlim : s.limitReached = true := by simp [State.limitReached, wasLate_iff.2 hlate, hle]
    have hafter := stateAfter_of_limit hfence hlim
    exact ⟨by rw [hstate, hafter], pickEdge_tasks_of_idle harm (by omega) (by omega) (by omega)⟩
  · intro hlate hdiv hhalt
    have hl : s.wasLate = false := Bool.eq_false_iff.2 fun h => hlate (wasLate_iff.1 h)
    have hafter : s.stateAfter = 0 := by rw [stateAfter_of_committed hfence hst hl hdiv, State.ranHalt, htask, hhalt]; rfl
    exact ⟨by rw [hstate, hafter], pickEdge_tasks_of_idle harm (by omega) (by omega) (by omega)⟩
  · intro hlate hdiv hhalt e hnext hidx
    have hl : s.wasLate = false := Bool.eq_false_iff.2 fun h => hlate (wasLate_iff.1 h)
    have hafter : s.stateAfter = 1 := by rw [stateAfter_of_committed hfence hst hl hdiv, State.ranHalt, htask, hhalt]; rfl
    exact ⟨by rw [hstate, hafter], pickEdge_entry_of_run harm
      (pickEntry_of_committed (edgeTurn_run s) (.inl ((edgeTurn_schedState s).trans (by rw [hafter]))) htask hl hnext hidx)⟩

end Sys2Proof.Machine

/-! ## The instants of a pick (R92 to R97) -/

namespace Sys2Proof.Machine
open Sys2Proof Sys2Proof.Claims

variable {s₀ s t u : State}

/-! ### What is only noted

`Noted s t` is `Logged` with any register written: registers, outputs and records for the cellar book are all that changes. -/

def Noted (s t : State) : Prop := s.withLogOf t = s

theorem Logged.noted (h : Logged s t) : Noted s t := h.rest
theorem Logged.pick (h : Logged s t) : t.pick = s.pick := (congrArg State.pick h.rest :)

namespace Noted

theorem refl : Noted s s := rfl
theorem trans (h : Noted s t) (h' : Noted t u) : Noted s u := (congrArg s.withLogOf h' :).trans h
theorem pick (h : Noted s t) : t.pick = s.pick := (congrArg State.pick h :)
theorem fab (h : Noted s t) : t.fab = s.fab := (congrArg State.fab h :)

theorem setFld {f : Fld} {i v : Nat} (h : Noted s₀ s) : Noted s₀ (s.setFld f i v) := h
theorem emit {m : Msg} (h : Noted s₀ s) : Noted s₀ (s.emit m) := h
theorem raise {ty i b : Nat} (h : Noted s₀ s) : Noted s₀ (s.raise ty i b) := h.trans Logged.refl.raise.noted

theorem both {c : Prop} [Decidable c] (hs : Noted s₀ s) (ht : Noted s₀ t) : Noted s₀ (if c then s else t) := by
  split
  · exact hs
  · exact ht

theorem foldl {α : Type} {g : State → α → State} {l : List α} (h : Noted s₀ s) (hg : ∀ t x, Noted s₀ t → Noted s₀ (g t x)) :
    Noted s₀ (l.foldl g s) := by
  induction l generalizing s with
  | nil => exact h
  | cons x l ih => exact ih (hg s x h)

theorem countErr {ty i code value agent : Nat} (h : Noted s₀ s) : Noted s₀ (s.countErr ty i code value agent) := by
  have hfirst {v a b c d : Nat} : Noted s₀ (if s.fld (F.ERR_CNT ty) i = 0 then
      ((((s.setFld (F.ERR_CNT ty) i v).setFld (F.ERR_FIRST ty) i a).setFld (F.ERR_INFO_ADDR_HI ty) i b).setFld (F.ERR_INFO_CODE ty) i c).setFld
        (F.ERR_INFO_AGENT ty) i d else s.setFld (F.ERR_CNT ty) i v) := both h h
  exact both h (both hfirst.raise.raise hfirst.raise)

theorem countEv {f : Fld} {i n b : Nat} (h : Noted s₀ s) : Noted s₀ (s.countEv f i n b) := both h (raise (s := s.addSat f i n) h)

theorem countUnavail {page : Nat × Nat} {addr agent : Nat} (h : Noted s₀ s) : Noted s₀ (s.countUnavail page addr agent) :=
  both h.countErr (both h.countEv.countErr h.countErr)

theorem countAccess {page : Nat × Nat} {status addr agent : Nat} {part : Option Nat} (h : Noted s₀ s) :
    Noted s₀ (s.countAccess page status addr agent part) := by
  refine both h.countErr (both ?_ (both h.countUnavail h))
  dsimp only
  split
  · exact h.countErr.countEv
  · exact h.countErr

theorem accessDone {page : Nat × Nat} {agent : Nat} {part : Option Nat} {x : Acs} (h : Noted s₀ s) : Noted s₀ (s.accessDone page agent part x) :=
  countAccess (both h.countEv h)

theorem seqCount {l : List (Nat × Nat)} (h : Noted s₀ s) : Noted s₀ (s.seqCount l) := h.foldl fun _ _ => accessDone
theorem flood (h : Noted s₀ s) : Noted s₀ s.flood := h.foldl fun _ _ h1 => h1

end Noted

theorem flood_pick (s : State) : s.flood.pick = s.pick := Noted.refl.flood.pick

/-- Two fields whose registers stand at different places of their pages. -/
def Fld.offApart (f g : Fld) : Bool :=
  decide (f.off < 4096) && decide (f.lo < 32) && decide (g.off < 4096) && decide (g.lo < 32) && f.off != g.off

theorem Fld.key_ne_of_offApart {f g : Fld} (h : f.offApart g = true) (i j : Nat) : f.key i ≠ g.key j := by
  simp only [Fld.offApart, Bool.and_eq_true, decide_eq_true_eq, bne_iff_ne] at h
  obtain ⟨⟨⟨⟨hfo, hfl⟩, hgo⟩, hgl⟩, hne⟩ := h
  intro he
  have := congrArg keyOff he
  rw [keyOff_key hfo hfl, keyOff_key hgo hgl] at this
  exact hne this

theorem fld_setFld_offApart {f g : Fld} (h : f.offApart g = true) (s : State) (i j v : Nat) : (s.setFld g j v).fld f i = s.fld f i :=
  State.fld_setFld_other _ _ (Fld.key_ne_of_offApart h i j)

/-- A flit on its way counts in TX_FLITS of its link, and in no other register. -/
theorem flood_fld (s : State) {f : Fld} (h : f.offApart F.LINK_TX_FLITS = true) (i : Nat) : s.flood.fld f i = s.fld f i := by
  have hsend (t : State) (l : Nat) : (t.sendAlign l false).fld f i = t.fld f i := fld_setFld_offApart h ..
  unfold State.flood
  generalize s.voteLinks = links
  induction links generalizing s with
  | nil => rfl
  | cons l links ih => exact (ih _).trans (hsend s l)

/-! ### Causes (R94) -/

/-- A number with bit `b` set. -/
def withBit (x b : Nat) : Nat := if bitOf x b then x else x + 2 ^ b

theorem bitOf_withBit (x b j : Nat) : bitOf (withBit x b) j = (bitOf x j || decide (b = j)) := by
  unfold withBit
  cases hb : bitOf x b with
  | false => exact bitOf_add_two_pow hb j
  | true =>
    by_cases hj : b = j
    · simp [← hj, hb]
    · simp [hj]

theorem cause_pick (s : State) (b : Nat) : (s.cause b).pick = { s.pick with causes := withBit s.pick.causes b } := by
  unfold State.cause withBit
  split
  · rfl
  · rfl

theorem cause_fld (s : State) (b : Nat) (f : Fld) (i : Nat) : (s.cause b).fld f i = s.fld f i := by
  unfold State.cause
  split
  · rfl
  · rfl

theorem bitOf_cause_same (s : State) (b : Nat) : bitOf (s.cause b).pick.causes b = true := by
  rw [cause_pick, bitOf_withBit, decide_eq_true rfl, Bool.or_true]

theorem bitOf_cause {b j : Nat} (h : bitOf s.pick.causes j = true) : bitOf (s.cause b).pick.causes j = true := by
  rw [cause_pick, bitOf_withBit, h, Bool.true_or]

/-! ### Beat-up start (R93) -/

/-- The pick stands where it stood, and causes and event bits are only added. -/
structure Marks (s t : State) : Prop where
  stage : t.pick.stage = s.pick.stage
  phase : t.pick.phase = s.pick.phase
  causes : ∀ b, bitOf s.pick.causes b = true → bitOf t.pick.causes b = true
  bits : ∀ ty i b, b < 32 → bitOf (s.fld (F.EVT_STAT ty) i) b = true → bitOf (t.fld (F.EVT_STAT ty) i) b = true

namespace Marks

theorem refl : Marks s s := ⟨rfl, rfl, fun _ => id, fun _ _ _ _ => id⟩

theorem trans (h : Marks s t) (h' : Marks t u) : Marks s u :=
  ⟨h'.stage.trans h.stage, h'.phase.trans h.phase, fun b hb => h'.causes b (h.causes b hb),
    fun ty i b hb h0 => h'.bits ty i b hb (h.bits ty i b hb h0)⟩

theorem ofLogged (h : Logged s t) : Marks s t := by
  refine ⟨?_, ?_, fun b hb => ?_, h.bits⟩ <;> rw [h.pick]
  exact hb

theorem both {c : Prop} [Decidable c] (hs : Marks s₀ s) (ht : Marks s₀ t) : Marks s₀ (if c then s else t) := by
  split
  · exact hs
  · exact ht

theorem raise {ty i b : Nat} (h : Marks s₀ s) : Marks s₀ (s.raise ty i b) := h.trans (ofLogged Logged.refl.raise)

theorem addSat {f : Fld} {i n : Nat} (h : Marks s₀ s) (hf : f.calm = true) : Marks s₀ (s.addSat f i n) :=
  h.trans ⟨rfl, rfl, fun _ => id, (Steady.refl.addSat hf).bits⟩

theorem cause {b : Nat} (h : Marks s₀ s) : Marks s₀ (s.cause b) := by
  refine h.trans ⟨?_, ?_, fun j => bitOf_cause, Steady.refl.cause.bits⟩ <;> rw [cause_pick]

theorem overrun {k : Nat} {x : Task} (h : Marks s₀ s) : Marks s₀ (s.overrun k x) :=
  (h.raise.raise.addSat (f := F.PICK_OVERRUN_CNT) (by decide)).cause.trans ⟨rfl, rfl, fun _ => id, fun _ _ _ _ => id⟩

theorem foldl {α : Type} {g : State → α → State} {l : List α} (h : Marks s₀ s) (hg : ∀ t x, Marks s₀ t → Marks s₀ (g t x)) :
    Marks s₀ (l.foldl g s) := by
  induction l generalizing s with
  | nil => exact h
  | cons x l ih => exact ih (hg s x h)

theorem compareLate (h : Marks s₀ s) : Marks s₀ s.compareLate := both (h.raise.raise.addSat (by decide)).cause h

theorem flushLate (h : Marks s₀ s) : Marks s₀ s.flushLate :=
  have hraise := h.foldl fun _ _ => raise
  both hraise hraise.cause

end Marks

/-- A task as beat-up start leaves it (R93). -/
def Task.atBeatUp (x : Task) : Task := if x.st = .finished then x else { x with overrun := true }

/-- What beat-up start does about a task at its place in the list. -/
def State.overrunLate (s : State) (x : Task × Nat) : State := if x.1.st = .finished then s else s.overrun x.2 x.1

theorem Marks.overrunLate {x : Task × Nat} (h : Marks s₀ s) : Marks s₀ (s.overrunLate x) := both h h.overrun

theorem overrun_tasks (s : State) (k : Nat) (x : Task) : (s.overrun k x).pick.tasks = s.pick.tasks.set k { x with overrun := true } := by
  have hpick : (State.pick ((((s.raise x.desc.unitType x.desc.unitInst evPickOverrun).raise 12 0 evPickOverrun).addSat
      F.PICK_OVERRUN_CNT 0 1).cause 0)).tasks = s.pick.tasks := tasks_of_frame (Steady.refl.raise.raise.addSat (by decide)).cause.pick
  exact congrArg (List.set · k _) hpick

theorem overrunLate_tasks (s : State) (x : Task) {pre l : List Task} (h : s.pick.tasks = pre ++ x :: l) :
    (s.overrunLate (x, pre.length)).pick.tasks = pre ++ x.atBeatUp :: l := by
  unfold State.overrunLate Task.atBeatUp
  split
  · exact h
  · simp [overrun_tasks, h]

theorem overrunAll_tasks (s : State) {pre l : List Task} (h : s.pick.tasks = pre ++ l) :
    ((l.zipIdx pre.length).foldl State.overrunLate s).pick.tasks = pre ++ l.map Task.atBeatUp := by
  induction l generalizing s pre with
  | nil => exact h
  | cons x l ih =>
    have hx := overrunLate_tasks s x h
    have := ih (s.overrunLate (x, pre.length)) (pre := pre ++ [x.atBeatUp]) (by simpa using hx)
    simpa using this

/-- An overrun task is a cause to vote LATE, and an event of the PICK page. -/
theorem overrun_marked (s : State) (k : Nat) (x : Task) :
    bitOf (s.overrun k x).pick.causes 0 = true ∧ bitOf ((s.overrun k x).fld (F.EVT_STAT 12) 0) 3 = true := by
  refine ⟨bitOf_cause_same _ 0, ?_⟩
  have hraised : bitOf (((s.raise x.desc.unitType x.desc.unitInst evPickOverrun).raise 12 0 evPickOverrun).fld (F.EVT_STAT 12) 0) 3 = true :=
    bitOf_raise (by decide) (by decide)
  exact ((Marks.refl.addSat (f := F.PICK_OVERRUN_CNT) (by decide)).cause (b := 0)).bits 12 0 3 (by decide) hraised

theorem overrunAll_marked (s : State) {l : List Task} (h : ∃ x ∈ l, x.st ≠ .finished) :
    bitOf (l.zipIdx.foldl State.overrunLate s).pick.causes 0 = true ∧
      bitOf ((l.zipIdx.foldl State.overrunLate s).fld (F.EVT_STAT 12) 0) 3 = true := by
  obtain ⟨x, hx, hst⟩ := h
  obtain ⟨k, hk⟩ := List.getElem?_of_mem hx
  obtain ⟨before, after, hl⟩ := List.append_of_mem (List.mk_mem_zipIdx_iff_getElem?.2 hk)
  rw [hl, List.foldl_append, List.foldl_cons]
  generalize before.foldl State.overrunLate s = t
  have hmark := overrun_marked t k x
  have hstep : t.overrunLate (x, k) = t.overrun k x := if_neg hst
  rw [hstep]
  have hrest : Marks (t.overrun k x) (after.foldl State.overrunLate (t.overrun k x)) := Marks.refl.foldl fun _ _ => Marks.overrunLate
  exact ⟨hrest.causes 0 hmark.1, hrest.bits 12 0 3 (by decide) hmark.2⟩

/-- Beat-up start as one pass over the tasks, and what follows it. -/
theorem beatUp_eq (s : State) : s.beatUp =
    (s.pick.tasks.zipIdx.foldl State.overrunLate (s.modPick fun p => { p with stage := .beatUp, phase := s.beatUpNs })).compareLate.flushLate := rfl

theorem compareLate_steady (s : State) : Steady s s.compareLate := .both (Steady.refl.raise.raise.addSat (by decide)).cause .refl

theorem beatUpStart_gives (h : s.pick.stage = .open) : Gives .beatUpStart s fun (t : State) => t.pick.stage = .beatUp ∧ t.pick.phase = s.beatUpNs ∧
    (∀ (k : Nat) (x : Task), s.pick.tasks[k]? = some x → t.pick.tasks[k]? = some (if x.st = .finished then x else { x with overrun := true })) ∧
    ((∃ x ∈ s.pick.tasks, x.st ≠ .finished) → bitOf t.pick.causes 0 = true ∧ bitOf (t.fld (F.EVT_STAT 12) 0) 3 = true) := by
  refine ⟨s.beatUp, congrArg Host.Outcome.next (if_pos h), ?_⟩
  rw [beatUp_eq]
  generalize hs1 : (s.modPick fun p => { p with stage := .beatUp, phase := s.beatUpNs }) = s1
  have htasks : s1.pick.tasks = [] ++ s.pick.tasks := by rw [← hs1]; rfl
  have hall := overrunAll_tasks s1 htasks
  have hmark := overrunAll_marked s1 (l := s.pick.tasks)
  have hpass : Marks s1 (s.pick.tasks.zipIdx.foldl State.overrunLate s1) := Marks.refl.foldl fun _ _ => Marks.overrunLate
  generalize s.pick.tasks.zipIdx.foldl State.overrunLate s1 = s2 at hall hmark hpass
  have hrest : Marks s2 s2.compareLate.flushLate := Marks.refl.compareLate.flushLate
  have hend := tasks_of_frame (compareLate_steady s2).flushLate.pick
  refine ⟨?_, ?_, fun k x hx => ?_, fun hlate => ?_⟩
  · rw [hrest.stage, hpass.stage, ← hs1]
    rfl
  · rw [hrest.phase, hpass.phase, ← hs1]
    rfl
  · rw [hend]
    have hall' : s2.pick.tasks = s.pick.tasks.map Task.atBeatUp := hall
    rw [hall', List.getElem?_map, hx]
    rfl
  · obtain ⟨hcause, hevt⟩ := hmark hlate
    exact ⟨hrest.causes 0 hcause, hrest.bits 12 0 3 (by decide) hevt⟩

/-! ### The vote point (R94, R95) -/

theorem pick_modPick (s : State) (g : PickState → PickState) : (s.modPick g).pick = g s.pick := rfl
theorem fld_modPick (s : State) (g : PickState → PickState) (f : Fld) (i : Nat) : (s.modPick g).fld f i = s.fld f i := rfl

/-- The check of the next entry, and a cause noted, leave the votes as they stand; causes are only added. -/
structure Checked (s t : State) : Prop where
  fab : t.fab = s.fab
  num : t.pick.num = s.pick.num
  voteOr : t.pick.voteOr = s.pick.voteOr
  causes : ∀ b, bitOf s.pick.causes b = true → bitOf t.pick.causes b = true

namespace Checked

theorem refl : Checked s s := ⟨rfl, rfl, rfl, fun _ => id⟩

theorem trans (h : Checked s t) (h' : Checked t u) : Checked s u :=
  ⟨h'.fab.trans h.fab, h'.num.trans h.num, h'.voteOr.trans h.voteOr, fun b hb => h'.causes b (h.causes b hb)⟩

theorem ofNoted (h : Noted s t) : Checked s t := by
  refine ⟨h.fab, ?_, ?_, fun b hb => ?_⟩ <;> rw [h.pick]
  exact hb

theorem both {c : Prop} [Decidable c] (hs : Checked s₀ s) (ht : Checked s₀ t) : Checked s₀ (if c then s else t) := by
  split
  · exact hs
  · exact ht

theorem cause {b : Nat} (h : Checked s₀ s) : Checked s₀ (s.cause b) := by
  have hfab : (s.cause b).fab = s.fab := by
    unfold State.cause
    split
    · rfl
    · rfl
  refine h.trans ⟨hfab, ?_, ?_, fun j => bitOf_cause⟩ <;> rw [cause_pick]

theorem setNextEntry {o : Option Entry} (h : Checked s₀ s) : Checked s₀ { s with pick := { s.pick with nextEntry := o } } :=
  h.trans ⟨rfl, rfl, rfl, fun _ => id⟩

theorem entryChecked (h : Checked s₀ s) : ∀ o : Option Entry, Checked s₀ (s.entryChecked o)
  | some _ => h.setNextEntry
  | none => (h.setNextEntry.trans (ofNoted Noted.refl.raise)).cause

theorem entryCheckAt (h : Checked s₀ s) : ∀ o : Option Nat, Checked s₀ (s.entryCheckAt o)
  | some _ => (h.trans (ofNoted Noted.refl.seqCount)).entryChecked _
  | none => h

theorem entryCheck (h : Checked s₀ s) : Checked s₀ s.entryCheck := h.entryCheckAt _

theorem unackedOps (h : Checked s t) : t.unackedOps = s.unackedOps := by
  unfold State.unackedOps
  rw [h.fab, h.num]

end Checked

theorem bit_mod_two (b : Bool) : bit b % 2 = bit b := by cases b <;> rfl

theorem votePoint_gives (h : s.pick.stage = .beatUp) : Gives .votePoint s fun t => t.pick.stage = .voted ∧
    t.pick.phase = s.periodNs - 2 * s.floodNs - 1000 ∧ (s.unackedOps = true → bitOf t.pick.causes 1 = true) ∧
    (∀ b, bitOf s.pick.causes b = true → bitOf t.pick.causes b = true) ∧ t.pick.voteOr = (s.pick.voteOr || t.pick.causes % 16 != 0) ∧
    t.fld F.PICK_VOTE_STAT_LOCAL_LATE 0 = bit (t.pick.causes % 16 != 0) ∧ t.fld F.PICK_VOTE_STAT_LOCAL_REASON 0 = t.pick.causes % 32 := by
  refine ⟨s.votePoint, congrArg Host.Outcome.next (if_pos h), ?_⟩
  unfold State.votePoint
  extract_lets s1 s2 late s3
  have hchecked : Checked s s1 := .both Checked.refl.entryCheck .refl
  have hunacked : Checked s1 s2 := .both Checked.refl.cause .refl
  have hall := hchecked.trans hunacked
  have hcause : s.unackedOps = true → bitOf s2.pick.causes 1 = true := fun hops => by
    have hs2 : s2 = s1.cause 1 := if_pos (hchecked.unackedOps.trans hops)
    rw [hs2]
    exact bitOf_cause_same s1 1
  have hpick : s3.pick = s2.pick := rfl
  beta_reduce
  rw [flood_pick, flood_fld _ (by decide), flood_fld _ (by decide), fld_modPick, fld_modPick, pick_modPick, hpick]
  refine ⟨rfl, rfl, hcause, hall.causes, congrArg (· || late) hall.voteOr, ?_, ?_⟩
  · exact ((State.fld_setFld_other _ _ (by decide)).trans (State.fld_setFld_same ..)).trans (bit_mod_two late)
  · exact State.fld_setFld_same ..

/-! ### The confirm point (R96) -/

theorem confirmPoint_gives {missing : Bool} (hmiss : (s.voteLinks.any fun l => !s.pick.votesFrom.contains l) = missing)
    (h : s.pick.stage = .voted) : Gives .confirmPoint s fun t => t.pick.stage = .confirmed ∧ t.pick.phase = s.periodNs - s.floodNs - 1000 ∧
    t.pick.confirmOr = (s.pick.confirmOr || s.pick.voteOr || missing) ∧ t.fld F.PICK_VOTE_STAT_CONFIRM_LATE 0 = bit (s.pick.voteOr || missing) := by
  refine ⟨s.confirmPoint, congrArg Host.Outcome.next (if_pos h), ?_⟩
  unfold State.confirmPoint
  rw [hmiss]
  extract_lets miss late s1
  have hconf : s1.pick.confirmOr = s.pick.confirmOr := by
    simp only [s1]
    split
    · exact (congrArg PickState.confirmOr (cause_pick s 4) :)
    · rfl
  beta_reduce
  rw [flood_pick, flood_fld _ (by decide), fld_modPick]
  refine ⟨rfl, rfl, ?_, (State.fld_setFld_same ..).trans (bit_mod_two late)⟩
  rw [Bool.or_assoc, ← hconf]
  rfl

/-! ### The decision point (R96, R97, R102) -/

/-- Dissent fences the device, and is an event of the PICK page. -/
theorem dissent_spec (s : State) (l : Nat) : (s.dissent l).pick.fenced = true ∧ (s.dissent l).pick.sendDissent = true ∧
    bitOf ((s.dissent l).fld (F.EVT_STAT 12) 0) Ev.PICK_DISSENT = true := by
  have hbit : bitOf ((s.raise 12 0 Ev.PICK_DISSENT).fld (F.EVT_STAT 12) 0) Ev.PICK_DISSENT = true := bitOf_raise (by decide) (by decide)
  unfold State.dissent State.fenceSelf
  rw [fld_modPick]
  split
  next hfenced => exact ⟨hfenced, rfl, hbit⟩
  next =>
    rw [fld_modPick]
    exact ⟨rfl, rfl, Logged.refl.bookPush.bits 12 0 _ (by decide) hbit⟩

/-- What a LATE outcome does leaves the sequencer, the outcome shown and every event bit, and raises VOTE_LATE. -/
theorem lateOutcome_spec (s : State) : s.lateOutcome.pick = s.pick ∧ s.lateOutcome.fld F.PICK_VOTE_STAT_OUTCOME 0 = s.fld F.PICK_VOTE_STAT_OUTCOME 0 ∧
    (∀ b < 32, bitOf (s.fld (F.EVT_STAT 12) 0) b = true → bitOf (s.lateOutcome.fld (F.EVT_STAT 12) 0) b = true) ∧
    bitOf (s.lateOutcome.fld (F.EVT_STAT 12) 0) Ev.PICK_VOTE_LATE = true := by
  unfold State.lateOutcome
  extract_lets s1 s2
  have hbook {r : QRec} : Logged s2 (s2.bookPush r) := Logged.refl.bookPush
  have hraise : Logged s1 s2 := Logged.refl.raise
  have h1 : s1.pick = s.pick ∧ s1.fld F.PICK_VOTE_STAT_OUTCOME 0 = s.fld F.PICK_VOTE_STAT_OUTCOME 0 ∧
      s1.fld (F.EVT_STAT 12) 0 = s.fld (F.EVT_STAT 12) 0 := by
    simp only [s1]
    split
    · exact ⟨rfl, State.fld_setFld_other _ _ (by decide), State.fld_setFld_other _ _ (by decide)⟩
    · exact ⟨rfl, rfl, rfl⟩
  obtain ⟨hpick, hout, hevt⟩ := h1
  refine ⟨(hbook.pick.trans hraise.pick).trans hpick, ((hbook.fld_eq (by decide) 0).trans (hraise.fld_eq (by decide) 0)).trans hout,
    fun b hb h0 => ?_, ?_⟩
  · rw [← hevt] at h0
    exact hbook.bits 12 0 b hb (hraise.bits 12 0 b hb h0)
  · exact hbook.bits 12 0 _ (by decide) (bitOf_raise (by decide) (by decide))

theorem any_eq_not_isEmpty_filter {α : Type} (l : List α) (p : α → Bool) : l.any p = !(l.filter p).isEmpty := by
  induction l with
  | nil => rfl
  | cons x l ih => cases hx : p x <;> simp [hx, ih]

theorem decisionPoint_gives {silent : Bool} (hsil : (s.voteLinks.any fun l => !s.pick.confirmsFrom.contains l) = silent)
    (h : s.pick.stage = .confirmed) : Gives .decisionPoint s fun t => t.pick.stage = .decided ∧ t.pick.phase = s.periodNs - 1000 ∧
    t.pick.outcome = some (s.pick.confirmOr || silent) ∧ t.fld F.PICK_VOTE_STAT_OUTCOME 0 = bit (s.pick.confirmOr || silent) ∧
    (silent = true → t.pick.fenced = true ∧ t.pick.sendDissent = true ∧ bitOf (t.fld (F.EVT_STAT 12) 0) Ev.PICK_DISSENT = true) ∧
    (s.pick.confirmOr || silent → bitOf (t.fld (F.EVT_STAT 12) 0) Ev.PICK_VOTE_LATE = true) := by
  refine ⟨s.decisionPoint, congrArg Host.Outcome.next (if_pos h), ?_⟩
  rw [any_eq_not_isEmpty_filter] at hsil
  unfold State.decisionPoint
  extract_lets links late s1 s2
  have hlate : (s.pick.confirmOr || silent) = late := congrArg (s.pick.confirmOr || ·) hsil.symm
  rw [hlate]
  replace hsil : (!links.isEmpty) = silent := hsil
  clear_value links
  have hdissent1 : silent = true → s1.pick.fenced = true ∧ s1.pick.sendDissent = true ∧ bitOf (s1.fld (F.EVT_STAT 12) 0) Ev.PICK_DISSENT = true := by
    intro hs
    cases links with
    | cons l links => exact dissent_spec s l
    | nil => simp [hs] at hsil
  clear_value s1 late
  have hout : s2.fld F.PICK_VOTE_STAT_OUTCOME 0 = bit late :=
    (((fld_modPick ..).trans (State.fld_setFld_other _ _ (by decide))).trans (State.fld_setFld_same ..)).trans (bit_mod_two late)
  have hevt : s2.fld (F.EVT_STAT 12) 0 = s1.fld (F.EVT_STAT 12) 0 :=
    ((fld_modPick ..).trans (State.fld_setFld_other _ _ (by decide))).trans (State.fld_setFld_other _ _ (by decide))
  have hdissent2 : silent = true → s2.pick.fenced = true ∧ s2.pick.sendDissent = true ∧ bitOf (s2.fld (F.EVT_STAT 12) 0) Ev.PICK_DISSENT = true := by
    rw [hevt, pick_modPick]
    exact hdissent1
  by_cases hl : late = true
  · obtain ⟨hpick, hfld, hbits, hraised⟩ := lateOutcome_spec s2
    rw [if_pos hl, hpick, hfld]
    refine ⟨rfl, rfl, rfl, hout, fun hs => ?_, fun _ => hraised⟩
    obtain ⟨hfenced, hsend, hbit⟩ := hdissent2 hs
    exact ⟨hfenced, hsend, hbits _ (by decide) hbit⟩
  · rw [if_neg hl]
    exact ⟨rfl, rfl, rfl, hout, hdissent2, fun hlate => absurd hlate hl⟩

/-- Settles O28: one lemma for each instant. -/
theorem pickInstants : Obligations.PickInstants := fun _ =>
  ⟨beatUpStart_gives, votePoint_gives, confirmPoint_gives rfl, decisionPoint_gives rfl⟩

end Sys2Proof.Machine

/-! ## Entries and tasks (R84, R85, R93, R223) -/

namespace Sys2Proof.Machine
open Sys2Proof Sys2Proof.Claims

variable {s t : State} {k ns : Nat} {x : Task} {e : Entry}

/-! ### The check of an entry (R84) -/

/-- A unit that need not wait for any of its reads goes on. -/
theorem whenReadable_of_ready {l : List (Nat × Nat)} (h : ∀ r ∈ l, s.accWaits false r.1 r.2 = false) (f : State → State) :
    s.whenReadable l f = f s := by
  refine if_neg fun hany => ?_
  obtain ⟨r, hr, hwaits⟩ := List.any_eq_true.1 hany
  rw [h r hr] at hwaits
  exact Bool.false_ne_true hwaits

/-- A read that gives bytes meets no error. -/
theorem acs_of_seqRead {a n : Nat} {b : List Byte} (h : s.seqRead a n = some b) : (s.readMem none a n).acs.st = 0 := by
  unfold State.seqRead at h
  dsimp only at h
  split at h
  next hok => exact hok.1
  next => cases h

/-- An access without an error counts nothing. -/
theorem accessDone_of_ok {page : Nat × Nat} {agent : Nat} {part : Option Nat} {a : Acs} (h : a.st = 0) : s.accessDone page agent part a = s := by
  simp [State.accessDone, State.countAccess, State.hwinErr, h]

/-- Reads that all give bytes count nothing. -/
theorem seqCount_of_read {l : List (Nat × Nat)} (h : ∀ r ∈ l, ∃ b, s.seqRead r.1 r.2 = some b) : s.seqCount l = s := by
  unfold State.seqCount
  induction l with
  | nil => rfl
  | cons r l ih =>
    obtain ⟨b, hb⟩ := h r List.mem_cons_self
    rw [List.foldl_cons, accessDone_of_ok (acs_of_seqRead hb)]
    exact ih fun q hq => h q (List.mem_cons_of_mem r hq)

/-- An entry that passes its check has been read in all its parts. (The definition is unfolded by itself, not applied: the kernel would
evaluate the reads.) -/
theorem parts_of_loadEntry {r : State} {i : Nat} (h : s.loadEntry r i = some e) : ∃ b tb hb, s.seqRead (r.entryAddr i) 64 = some b ∧
    r.headerOk b = true ∧ s.seqRead (leAt b 8 6) (32 * leAt b 2 2) = some tb ∧ s.seqRead (leAt b 16 6) (8 * leAt b 14 2) = some hb := by
  have hdef : State.loadEntry = State.loadEntry := rfl
  conv at hdef => rhs; delta State.loadEntry
  rw [hdef] at h
  beta_reduce at h
  generalize s.seqRead = read at h ⊢
  split at h
  next => cases h
  next b hb =>
    split at h
    next => cases h
    next hok =>
      split at h
      next tb hdb htb hhb => exact ⟨b, tb, hdb, hb, by simpa using hok, htb, hhb⟩
      next => cases h

theorem entryReads_of_header {r : State} {i : Nat} {b : List Byte} (hb : s.seqRead (r.entryAddr i) 64 = some b) (hok : r.headerOk b = true) :
    s.entryReads r i = [(r.entryAddr i, 64), (leAt b 8 6, 32 * leAt b 2 2), (leAt b 16 6, 8 * leAt b 14 2)] := by
  unfold State.entryReads
  rw [hb]
  exact congrArg _ (if_pos hok)

theorem entryReads_of_loadEntry {r : State} {i : Nat} (h : s.loadEntry r i = some e) : ∀ q ∈ s.entryReads r i, ∃ b, s.seqRead q.1 q.2 = some b := by
  obtain ⟨b, tb, hdb, hb, hok, htb, hhb⟩ := parts_of_loadEntry h
  rw [entryReads_of_header hb hok]
  simp [hb, htb, hhb]

theorem entryCheck_of_index {i : Nat} (h : s.nextIndex = some i) :
    s.entryCheck = (s.seqCount (s.entryReads s.nextConfig i)).entryChecked (s.loadEntry s.nextConfig i) := by
  unfold State.entryCheck
  rw [h]
  rfl

/-- A failed check leaves no entry, a cause to vote LATE, and SCHED_BAD. -/
theorem entryChecked_none (s : State) : (s.entryChecked none).pick.nextEntry = none ∧ bitOf (s.entryChecked none).pick.causes 3 = true ∧
    bitOf ((s.entryChecked none).fld (F.EVT_STAT 12) 0) Ev.PICK_SCHED_BAD = true := by
  unfold State.entryChecked State.schedBad
  rw [cause_fld]
  refine ⟨?_, bitOf_cause_same .., bitOf_raise (by decide) (by decide)⟩
  rw [cause_pick, Logged.refl.raise.pick]

theorem schedEntryCheck_next {i : Nat} (hst : s.pick.stage = .open ∨ s.pick.stage = .beatUp) (hi : s.nextIndex = some i)
    (hready : ∀ r ∈ s.nextReads, s.accWaits false r.1 r.2 = false) : exec .schedEntryCheck s =
      .next ((s.seqCount (s.entryReads s.nextConfig i)).entryChecked (s.loadEntry s.nextConfig i)) := by
  rw [← entryCheck_of_index hi, ← whenReadable_of_ready hready State.entryCheck]
  exact congrArg Host.Outcome.next (if_pos hst)

/-! ### Tasks (R85, R93, R223) -/

theorem taskStart_of_task (hx : s.pick.tasks[k]? = some x) : s.taskStart k ns = if s.canStart k x ns then
    s.whenReadable (s.taskReads x.desc) fun u => (u.startUnit k x.desc ns).setTask k { x with st := .running, startNs := ns } ns else s := by
  unfold State.taskStart
  rw [hx]

theorem getElem?_setTask {y : Task} (h : s.pick.tasks[k]? = some x) (ht : t.pick.tasks = s.pick.tasks) :
    (t.setTask k y ns).pick.tasks[k]? = some y := by
  obtain ⟨hk, -⟩ := List.getElem?_eq_some_iff.1 h
  have hset : (t.setTask k y ns).pick.tasks = s.pick.tasks.set k y := congrArg (List.set · k y) ht
  rw [hset, List.getElem?_set_self hk]

/-- A unit that begins a task leaves the tasks of the pick. -/
theorem startUnit_tasks (s : State) (k : Nat) (d : TaskRec) (ns : Nat) : (s.startUnit k d ns).pick.tasks = s.pick.tasks := by
  unfold State.startUnit
  have harg : Steady s (s.argCount d) := Steady.refl.argCount
  have hargTasks := tasks_of_frame harg.pick
  dsimp only
  split
  · exact hargTasks
  · exact hargTasks
  · exact tasks_of_frame harg.updTask.pick
  · exact tasks_of_frame harg.collTask.pick
  · exact hargTasks

/-- The end of a task leaves the tasks of the pick and every register. -/
theorem endUnit_spec (s : State) (d : TaskRec) : (s.endUnit d).pick = s.pick ∧ (s.endUnit d).regs = s.regs := by
  unfold State.endUnit
  split
  · exact ⟨rfl, rfl⟩
  · exact ⟨rfl, rfl⟩
  · exact ⟨rfl, rfl⟩
  · exact ⟨rfl, rfl⟩
  · exact ⟨rfl, rfl⟩

/-- A core as a task begins on it, before its strand 0 has its values. -/
def State.startedCore (s : State) (c k : Nat) : CoreState :=
  { task := some k, part := (s.corePart c).getD 0, owner := [(0, 0), (1, 0), (2, 0), (3, 0)], mvpHolder := (s.core c).mvpHolder }

/-- Strand 0 of a core as a task begins on it. -/
def State.firstStrand (s : State) (c k entry arg : Nat) : Strand :=
  { st := .running, pc := entry, regs := (s.setCore c (s.startedCore c k)).taskRegs c arg }

/-- A core that starts a task: strand 0 runs from the entry point and owns every unit, and no other strand runs. -/
theorem coreTask_spec (s : State) (c k entry arg : Nat) : let t := s.coreTask c k entry arg
    (t.core c).task = some k ∧ (t.strand c 0).st = .running ∧ (t.strand c 0).pc = entry ∧ (∀ g, g ≠ 0 → (t.strand c g).st ≠ .running) ∧
      ∀ u < 4, t.owns c 0 u = true := by
  intro t
  have hcore : t.core c = { s.startedCore c k with strands := [(0, s.firstStrand c k entry arg)] } := State.core_setCore_same ..
  simp only [State.strand, State.owns, hcore]
  refine ⟨rfl, rfl, rfl, fun g hg => ?_, by simp only [State.startedCore]; decide⟩
  have hother : Tab.get {} [(0, s.firstStrand c k entry arg)] g = {} := by simp [Tab.get, Tab.get?, hg.symm]
  rw [hother]
  decide

/-- A task that ends within its rule: the unit's end and, past the budget, the count. -/
theorem taskFinish_of_done (hx : s.pick.tasks[k]? = some x) (h : x.st = .running ∧ x.startNs ≤ ns ∧ (s.pick.stage ≠ .open ∨ ns ≤ s.beatUpNs) ∧
    s.unitDone k x.desc = true) : s.taskFinish k ns = (State.endUnit (if (x.desc.start + x.desc.budget) * 1000 < ns ∧ x.overrun = false then
      s.addSat F.PICK_BUDGET_CNT 0 1 else s) x.desc).setTask k { x with st := .finished } ns := by
  unfold State.taskFinish
  rw [hx]
  exact if_pos h

/-! ### The statement -/

theorem schedEntryCheck_spec {i : Nat} (hst : s.pick.stage = .open ∨ s.pick.stage = .beatUp) (hi : s.nextIndex = some i)
    (hready : ∀ r ∈ s.nextReads, s.accWaits false r.1 r.2 = false) :
    (∀ e, s.loadEntry s.nextConfig i = some e → Does .schedEntryCheck s { s with pick := { s.pick with nextEntry := some e } }) ∧
    (s.loadEntry s.nextConfig i = none → Gives .schedEntryCheck s fun t =>
      t.pick.nextEntry = none ∧ bitOf t.pick.causes 3 = true ∧ bitOf (t.fld (F.EVT_STAT 12) 0) Ev.PICK_SCHED_BAD = true) := by
  have hexec := schedEntryCheck_next hst hi hready
  refine ⟨fun e he => ?_, fun hnone => ⟨_, hexec, ?_⟩⟩
  · rw [he, seqCount_of_read (entryReads_of_loadEntry he)] at hexec
    exact hexec
  · rw [hnone]
    exact entryChecked_none _

theorem taskStart_spec (hx : s.pick.tasks[k]? = some x) :
    (s.canStart k x ns = false → Does (.taskStart k ns) s s) ∧
    (s.canStart k x ns = true → (∀ r ∈ s.taskReads x.desc, s.accWaits false r.1 r.2 = false) →
      Gives (.taskStart k ns) s fun (t : State) => t.pick.tasks[k]? = some { x with st := .running, startNs := ns } ∧
        ∀ c, x.desc.unitType = 1 → x.desc.unitInst = c →
          (t.core c).task = some k ∧ (t.strand c 0).st = .running ∧ (t.strand c 0).pc = x.desc.entry ∧
            (∀ g, g ≠ 0 → (t.strand c g).st ≠ .running) ∧ ∀ u < 4, t.owns c 0 u = true) := by
  have htask : s.taskStart k ns = _ := taskStart_of_task hx
  refine ⟨fun hno => ?_, fun hcan hready => ⟨_, congrArg Host.Outcome.next htask, ?_⟩⟩
  · rw [hno] at htask
    exact congrArg Host.Outcome.next htask
  · rw [if_pos hcan, whenReadable_of_ready hready]
    refine ⟨getElem?_setTask hx (startUnit_tasks ..), fun c hty hc => ?_⟩
    have hstart : s.startUnit k x.desc ns = s.coreTask c k x.desc.entry x.desc.arg := by
      simp [State.startUnit, State.argCount, hty, hc]
    rw [hstart]
    exact coreTask_spec s c k x.desc.entry x.desc.arg

theorem taskFinish_spec (hx : s.pick.tasks[k]? = some x) (h : x.st = .running ∧ x.startNs ≤ ns ∧ (s.pick.stage ≠ .open ∨ ns ≤ s.beatUpNs) ∧
    s.unitDone k x.desc = true) : Gives (.taskFinish k ns) s fun (t : State) => t.pick.tasks[k]? = some { x with st := .finished } ∧
      (x.overrun = false → (x.desc.start + x.desc.budget) * 1000 < ns →
        t.fld F.PICK_BUDGET_CNT 0 = min (2 ^ 32 - 1) (s.fld F.PICK_BUDGET_CNT 0 + 1)) := by
  refine ⟨_, congrArg Host.Outcome.next (taskFinish_of_done hx h), getElem?_setTask hx ?_, fun hover hlate => ?_⟩
  · rw [(endUnit_spec ..).1]
    split
    · rfl
    · rfl
  · rw [if_pos ⟨hlate, hover⟩]
    refine (State.fld_congr (endUnit_spec _ x.desc).2 ..).trans ((State.fld_setFld_same ..).trans (Nat.mod_eq_of_lt ?_))
    exact Nat.lt_of_le_of_lt (Nat.min_le_left _ _) (by decide)

/-- Settles O30: one lemma for each command. -/
theorem scheduleRunsTasks : Obligations.ScheduleRunsTasks :=
  ⟨fun _ _ => schedEntryCheck_spec, fun _ _ _ _ => taskStart_spec,
    fun _ _ _ _ hx hst hns hstage hdone => taskFinish_spec hx ⟨hst, hns, hstage, hdone⟩⟩

end Sys2Proof.Machine

/-! ## The time source and the ALIGN flits (R79 to R81, R95 to R97, R108, R361) -/

namespace Sys2Proof.Machine
open Sys2Proof Sys2Proof.Claims

variable {s t : State} {ag : Agent} {l : Nat} {f : AlignFlit}

/-! ### The time source -/

/-- A source that is lost with no other uplink to go to: holdover, and an event. -/
theorem sourceLost_spec (h1 : s.fld F.PICK_PICK_SRC_SOURCE 0 ≠ 1) (hhold : s.flag F.PICK_SRC_STAT_HOLDOVER 0 = false)
    (halt : ¬(s.fld F.PICK_PICK_SRC_SOURCE 0 = 0 ∧ s.flag F.PICK_PICK_SRC_ALT_EN 0 = true)) :
    s.sourceLost.fld F.PICK_SRC_STAT_HOLDOVER 0 = 1 ∧ s.sourceLost.fld F.PICK_SRC_STAT_LOCKED 0 = 0 ∧
      s.sourceLost.fld F.PICK_SRC_STAT_ACTIVE_LINK 0 = 0x3F ∧ bitOf (s.sourceLost.fld (F.EVT_STAT 12) 0) Ev.PICK_SOURCE_LOST = true ∧
      s.sourceLost.pick = s.pick := by
  unfold State.sourceLost
  dsimp only
  rw [if_neg (by simp [h1, hhold]), if_neg fun ⟨hsrc, halten, _⟩ => halt ⟨hsrc, halten⟩, Logged.refl.raise.fld_eq (by decide),
    Logged.refl.raise.fld_eq (by decide), Logged.refl.raise.fld_eq (by decide)]
  refine ⟨?_, ?_, State.fld_setFld_same .., bitOf_raise (by decide) (by decide), Logged.refl.raise.pick⟩
  · rw [State.fld_setFld_other _ _ (by decide), State.fld_setFld_other _ _ (by decide), State.fld_setFld_same]
    rfl
  · rw [State.fld_setFld_other _ _ (by decide), State.fld_setFld_same]
    rfl

/-- The device's own time base cannot be lost. -/
theorem sourceLost_of_own (h : s.fld F.PICK_PICK_SRC_SOURCE 0 = 1) : s.sourceLost = s := if_pos (.inl h)

theorem sourceReturn_of_held (x : Int) (h : s.flag F.PICK_SRC_STAT_HOLDOVER 0 = true) : Gives (.sourceReturn x) s fun t =>
    t.fld F.PICK_SRC_STAT_HOLDOVER 0 = 0 ∧ t.fld F.PICK_SRC_STAT_LOCKED 0 = 1 ∧ t.pick.slewNs = x := by
  have hexec : exec (.sourceReturn x) s = execSourceReturn x s := rfl
  unfold execSourceReturn at hexec
  rw [if_pos h] at hexec
  extract_lets s1 s2 at hexec
  have h1 : s1.fld F.PICK_SRC_STAT_HOLDOVER 0 = 0 ∧ s1.fld F.PICK_SRC_STAT_LOCKED 0 = 1 :=
    ⟨(State.fld_setFld_other _ _ (by decide)).trans (State.fld_setFld_same ..), State.fld_setFld_same ..⟩
  have h2 : s2.fld F.PICK_SRC_STAT_HOLDOVER 0 = 0 ∧ s2.fld F.PICK_SRC_STAT_LOCKED 0 = 1 := by
    simp only [s2]
    split
    · exact ⟨(State.fld_setFld_other _ _ (by decide)).trans h1.1, (State.fld_setFld_other _ _ (by decide)).trans h1.2⟩
    · exact h1
  obtain ⟨hheld, hlock⟩ := h2
  exact ⟨_, hexec, hheld, hlock, rfl⟩

section
variable {ns p : Nat} (hsrc : s.fld F.PICK_PICK_SRC_SOURCE 0 = 4) (hp : s.pick.lastPickInNs = some p)
include hsrc hp

/-- An edge within 1 µs of its time locks. -/
theorem pickInEdge_of_near (hhold : s.flag F.PICK_SRC_STAT_HOLDOVER 0 = false) (h1 : p + s.periodNs ≤ ns + 1000) (h2 : ns ≤ p + s.periodNs + 1000) :
    exec (.pickInEdge ns) s = .next (State.setFld { s with pick := { s.pick with lastPickInNs := some ns } } F.PICK_SRC_STAT_LOCKED 0 1) := by
  have hexec : exec (.pickInEdge ns) s = execPickInEdge ns s := rfl
  have hfree : State.flag { s with pick := { s.pick with lastPickInNs := some ns } } F.PICK_SRC_STAT_HOLDOVER 0 = false := hhold
  rw [hexec, execPickInEdge, if_neg (not_not.2 hsrc)]
  simp [hp, h1, h2, hfree]

/-- A later edge is ignored, and the source is lost. -/
theorem pickInEdge_of_far (h : p + s.periodNs + 1000 < ns) : exec (.pickInEdge ns) s = .next s.sourceLost := by
  have hexec : exec (.pickInEdge ns) s = execPickInEdge ns s := rfl
  rw [hexec, execPickInEdge, if_neg (not_not.2 hsrc)]
  simp [hp, Nat.not_le.2 h]
end

/-- PICK_SET has no effect on a device that follows another source; it is an error. -/
theorem pickSetApply_refused {code : Nat} (h1 : s.fld F.PICK_PICK_SRC_SOURCE 0 ≠ 1) (h4 : s.fld F.PICK_PICK_SRC_SOURCE 0 ≠ 4) :
    s.pickSetApply code = s.countErr 12 0 errSetState (pageAddr 12 0 0x0A8) code :=
  if_neg fun ⟨hsrc, _⟩ => hsrc.elim h1 h4

section
variable (hi : BitVec 16) (hw : mayWrite ag 12 0 s)
include hw

theorem pickSetApply_of_idle (hsrc : s.fld F.PICK_PICK_SRC_SOURCE 0 = 1 ∨ s.fld F.PICK_PICK_SRC_SOURCE 0 = 4)
    (hidle : s.fld F.PICK_SCHED_STAT_STATE 0 = 0) : Gives (.pickSetApply ag hi) s fun t =>
      t.pick.pickSet = some (s.fld F.PICK_PICK_SET_LO 0 + hi.toNat * 2 ^ 32) := by
  refine gives_of_pageAct rfl hw ?_
  have hnum : (s.setFld F.PICK_PICK_SET_HI_NUM 0 hi.toNat).fld F.PICK_PICK_SET_HI_NUM 0 = hi.toNat :=
    (State.fld_setFld_same ..).trans (Nat.mod_eq_of_lt hi.isLt)
  unfold State.pickSetApply
  dsimp only
  rw [fld_setFld_offApart (f := F.PICK_PICK_SRC_SOURCE) (by decide), fld_setFld_offApart (f := F.PICK_SCHED_STAT_STATE) (by decide),
    if_pos ⟨hsrc, hidle⟩, hnum, fld_setFld_offApart (by decide)]

theorem pickSetApply_of_source (h1 : s.fld F.PICK_PICK_SRC_SOURCE 0 ≠ 1) (h4 : s.fld F.PICK_PICK_SRC_SOURCE 0 ≠ 4) :
    Gives (.pickSetApply ag hi) s fun t => t.pick.pickSet = s.pick.pickSet ∧
      (s.fld (F.ERR_CNT 12) 0 = 0 → t.fld (F.ERR_INFO_CODE 12) 0 = 0x80) := by
  refine gives_of_pageAct rfl hw ?_
  rw [pickSetApply_refused (by rwa [fld_setFld_offApart (by decide)]) (by rwa [fld_setFld_offApart (by decide)])]
  refine ⟨congrArg PickState.pickSet (Noted.refl.setFld.countErr (s₀ := s)).pick, fun hcnt => ?_⟩
  have hzero : (s.setFld F.PICK_PICK_SET_HI_NUM 0 hi.toNat).fld (F.ERR_CNT 12) 0 = 0 := (fld_setFld_offApart (by decide) ..).trans hcnt
  have hregs := errRegs_countErr_of_zero hzero errSetState (pageAddr 12 0 0x0A8) (s.accessOf ag).code
  simp only [State.errRegs, Prod.mk.injEq] at hregs
  obtain ⟨-, -, -, hcode, -⟩ := hregs
  exact hcode
end

/-- The timing source. -/
theorem pickSources : PickSources := by
  intro s src
  refine ⟨fun h => congrArg Host.Outcome.next (sourceLost_of_own h), fun h1 hhold halt => ?_, sourceReturn_of_held, fun x hhold => ?_,
    fun hsrc hhold ns p hp => ⟨fun hlo hup => ?_, fun hfar => ?_⟩, fun hout => ?_,
    fun ag hi hw => ⟨pickSetApply_of_idle hi hw, pickSetApply_of_source hi hw⟩⟩
  · obtain ⟨hheld, hlock, hlink, hevt, -⟩ := sourceLost_spec h1 hhold (by simp [halt])
    exact ⟨_, rfl, hheld, hlock, hlink, hevt⟩
  · exact if_neg (by simp [hhold])
  · exact ⟨_, pickInEdge_of_near hsrc hp hhold hlo hup, State.fld_setFld_same .., rfl⟩
  · have hsrc' : s.fld F.PICK_PICK_SRC_SOURCE 0 = 4 := hsrc
    obtain ⟨hheld, -, -, -, hpick⟩ := sourceLost_spec (by omega) hhold (by omega)
    exact ⟨_, pickInEdge_of_far hsrc hp hfar, hheld, by rw [hpick, hp]⟩
  · exact ⟨_, congrArg Host.Outcome.next (if_pos hout), rfl, rfl⟩

/-! ### ALIGN flits -/

theorem mem_insertNat (k : Nat) (m : List Nat) : k ∈ insertNat m k := by
  induction m with
  | nil => exact List.mem_singleton.2 rfl
  | cons x m ih =>
    unfold insertNat
    split
    next hx => exact hx ▸ List.mem_cons_self
    next =>
      split
      · exact List.mem_cons_self
      · exact List.mem_cons_of_mem x ih

theorem pickDist_self (a : Nat) : pickDist a a = 0 := by
  unfold pickDist
  omega

/-- The flit counted, its delay and its time stamp noted. -/
def State.alignSeen (s : State) (l : Nat) (f : AlignFlit) : State :=
  ((s.addWrap F.LINK_RX_FLITS l 1).setFld F.LINK_DELAY l (f.roundTripNs / 2)).setLink l { s.link l with lastTx := f.tx.toNat }

theorem alignSeen_fld (s : State) (l : Nat) (f : AlignFlit) {g : Fld} (h1 : g.offApart F.LINK_RX_FLITS = true) (h2 : g.offApart F.LINK_DELAY = true)
    (i : Nat) : (s.alignSeen l f).fld g i = s.fld g i :=
  (fld_setFld_offApart h2 ..).trans (fld_setFld_offApart h1 ..)

theorem alignSeen_linkState (s : State) (l : Nat) (f : AlignFlit) : (s.alignSeen l f).linkState l = s.linkState l :=
  alignSeen_fld s l f (by decide) (by decide) l

theorem alignSeen_linkLive (s : State) (l : Nat) (f : AlignFlit) : (s.alignSeen l f).linkLive l = s.linkLive l := by
  have hlink : ((s.alignSeen l f).link l).peerFenced = (s.link l).peerFenced := by rw [State.alignSeen, State.link_setLink_same]
  rw [State.linkLive, alignSeen_linkState, hlink, State.linkLive]

/-- A flit that is no edge flit, of this pick, and in phase, only brings its vote, its confirm and its dissent. -/
theorem align_of_plain (hup : s.linkState l = 4) (hfence : s.pick.fenced = false) (hedge : f.edge = false) (hpick : f.pick.toNat = s.pick.num)
    (hphase : f.phaseNs.natAbs ≤ s.fld F.PICK_PHASE_TOL 0) : s.align l f = ((s.alignSeen l f).alignVote l f).alignDissent l f := by
  have hconfig : (s.alignSeen l f).alignConfig l f = s.alignSeen l f := if_neg (by simp [hedge])
  have htol : (s.alignSeen l f).fld F.PICK_PHASE_TOL 0 = s.fld F.PICK_PHASE_TOL 0 := alignSeen_fld s l f (by decide) (by decide) 0
  have hphased : (s.alignSeen l f).alignPhase l f = s.alignSeen l f := if_neg (by simp [htol, hphase])
  have hlocked : (s.alignSeen l f).alignLock l f = s.alignSeen l f := if_neg (by simp [hedge])
  have htime : (s.alignSeen l f).alignTime l f = s.alignSeen l f := by
    unfold State.alignTime
    rw [if_pos (by rw [hpick]; exact (pickDist_self _).trans_le (by decide)), if_neg (by simp [hedge])]
  unfold State.align
  extract_lets x s1 s2
  have hs2 : s2 = s.alignSeen l f := hconfig
  have hfenced : (s.alignSeen l f).pick.fenced = false := hfence
  rw [hs2, if_neg (by rw [alignSeen_linkState, hup]; decide), if_neg (by rw [hfenced]; decide), hphased, hlocked, htime]

/-- What the sequencer holds after a flit of link `l` for this pick: the ORs with its vote and its confirm, where they are heard in time (R95,
R96). -/
structure Heard (p : PickState) (l : Nat) (f : AlignFlit) (q : PickState) : Prop where
  num : q.num = p.num
  voteOr : q.voteOr = (p.voteOr || (decide (p.stage = .open ∨ p.stage = .beatUp ∨ p.stage = .voted) && f.vote == some true))
  votes : ∀ v, f.vote = some v → p.stage = .open ∨ p.stage = .beatUp ∨ p.stage = .voted → l ∈ q.votesFrom
  confirmOr : p.stage ≠ .decided → q.confirmOr = (p.confirmOr || f.confirm == some true)
  confirms : ∀ v, f.confirm = some v → p.stage ≠ .decided → l ∈ q.confirmsFrom

theorem Heard.of_frame {p q r : PickState} (h : Heard p l f q) (hframe : r.frame = q.frame) : Heard p l f r := by
  have hnum : r.num = q.num := (congrArg PickState.num hframe :)
  have hvote : r.voteOr = q.voteOr := (congrArg PickState.voteOr hframe :)
  have hvotes : r.votesFrom = q.votesFrom := (congrArg PickState.votesFrom hframe :)
  have hconf : r.confirmOr = q.confirmOr := (congrArg PickState.confirmOr hframe :)
  have hconfs : r.confirmsFrom = q.confirmsFrom := (congrArg PickState.confirmsFrom hframe :)
  exact ⟨hnum.trans h.num, hvote.trans h.voteOr, hvotes ▸ h.votes, hconf ▸ h.confirmOr, hconfs ▸ h.confirms⟩

theorem alignVote_spec (hpick : f.pick.toNat = s.pick.num) (hlive : s.linkLive l = true) :
    Heard s.pick l f (s.alignVote l f).pick ∧ ∀ k, ((s.alignVote l f).link k).lastTx = (s.link k).lastTx := by
  generalize ht : s.alignVote l f = t
  have hvoted : t = _ := ht.symm.trans (if_neg (by simp [hpick, hlive]))
  extract_lets p v c first earlyVote hearV hearC s1 at hvoted
  have hearly : earlyVote = decide (p.stage = .open ∨ p.stage = .beatUp ∨ p.stage = .voted) := by simp [earlyVote, Bool.or_assoc, beq_eq_decide]
  have hsteady : Steady s1 t := by
    rw [hvoted]
    exact .both Steady.refl.flood .refl
  have hsame : t.pick = s1.pick := by
    rw [hvoted]
    split
    · exact flood_pick s1
    · rfl
  rw [hsame]
  refine ⟨⟨rfl, ?_, fun w hw he => ?_, fun hst => ?_, fun w hw hst => ?_⟩, fun k => (hsteady.links k).1⟩
  · have hor : s1.pick.voteOr = (s.pick.voteOr || (hearV && v)) := rfl
    rw [hor]
    cases hf : f.vote with
    | none => simp [hearV, v, hf]
    | some w => simp [hearV, v, hf, hearly, p]
  · have hmem : s1.pick.votesFrom = if hearV then insertNat s.pick.votesFrom l else s.pick.votesFrom := rfl
    rw [hmem, if_pos (by simp [hearV, hw, hearly, he, p])]
    exact mem_insertNat ..
  · have hor : s1.pick.confirmOr = (s.pick.confirmOr || (hearC && c)) := rfl
    rw [hor]
    cases hf : f.confirm with
    | none => simp [hearC, c, hf]
    | some w => simp [hearC, c, hf, p, bne_iff_ne.2 hst]
  · have hmem : s1.pick.confirmsFrom = if hearC then insertNat s.pick.confirmsFrom l else s.pick.confirmsFrom := rfl
    rw [hmem, if_pos (by simp [hearC, hw, p, hst])]
    exact mem_insertNat ..

/-- A peer marked fenced: the sequencer, the time stamps and the event bits stay. -/
theorem fencePeer_spec (s : State) (l : Nat) : (s.fencePeer l).pick.frame = s.pick.frame ∧
    (∀ k, ((s.fencePeer l).link k).lastTx = (s.link k).lastTx) ∧ ((s.fencePeer l).link l).peerFenced = true ∧
    ∀ b < 32, bitOf (s.fld (F.EVT_STAT 12) 0) b = true → bitOf ((s.fencePeer l).fld (F.EVT_STAT 12) 0) b = true := by
  unfold State.fencePeer
  split
  next hfenced => exact ⟨rfl, fun _ => rfl, hfenced, fun _ _ => id⟩
  next =>
    have hbook : Steady s (s.fenceRec 2 l) := Steady.refl.bookPush
    generalize s.fenceRec 2 l = t at hbook
    generalize hu : t.setLink l { s.link l with peerFenced := true } = u
    have hsync : Steady u u.permSync := Steady.refl.permSync
    have hpick : u.pick = t.pick := by rw [← hu]; rfl
    have hregs : u.regs = t.regs := by rw [← hu]; rfl
    have hfenced : (u.link l).peerFenced = true := by rw [← hu, State.link_setLink_same]
    refine ⟨by rw [hsync.pick, hpick, hbook.pick], fun k => (hsync.links k).1.trans ?_, (hsync.links l).2.trans hfenced, fun b hb h0 => ?_⟩
    · by_cases hk : k = l
      · rw [hk, ← hu, State.link_setLink_same]
      · rw [← (hbook.links k).1, ← hu]
        simp only [State.link, State.setLink, Tab.get_set_other _ _ _ hk]
    · refine hsync.bits 12 0 b hb ?_
      rw [State.fld_congr hregs]
      exact hbook.bits 12 0 b hb h0

/-- Dissent marks the peer fenced and is an event; the votes and confirms stay. -/
theorem alignDissent_spec (s : State) (l : Nat) (f : AlignFlit) : let t := s.alignDissent l f
    t.pick.frame = s.pick.frame ∧ (∀ k, (t.link k).lastTx = (s.link k).lastTx) ∧
      (f.dissent = true → (t.link l).peerFenced = true ∧ bitOf (t.fld (F.EVT_STAT 12) 0) Ev.PICK_DISSENT = true) := by
  intro t
  cases hd : f.dissent with
  | false =>
    have ht : t = s := if_neg (by simp [hd])
    rw [ht]
    exact ⟨rfl, fun _ => rfl, fun h => absurd h (by decide)⟩
  | true =>
    have ht : t = (s.raise 12 0 Ev.PICK_DISSENT).fencePeer l := if_pos hd
    have hraise : Steady s (s.raise 12 0 Ev.PICK_DISSENT) := Steady.refl.raise
    have hbit : bitOf ((s.raise 12 0 Ev.PICK_DISSENT).fld (F.EVT_STAT 12) 0) Ev.PICK_DISSENT = true := bitOf_raise (by decide) (by decide)
    obtain ⟨hpick, hlink, hfenced, hbits⟩ := fencePeer_spec (s.raise 12 0 Ev.PICK_DISSENT) l
    rw [ht]
    exact ⟨hpick.trans hraise.pick, fun k => (hlink k).trans (hraise.links k).1, fun _ => ⟨hfenced, hbits _ (by decide) hbit⟩⟩

theorem align_gives {k : Fin 36} (hup : s.linkState k.val = 4) (hlive : s.linkLive k.val = true) (hfence : s.pick.fenced = false)
    (hedge : f.edge = false) (hpick : f.pick.toNat = s.pick.num) (hphase : f.phaseNs.natAbs ≤ s.fld F.PICK_PHASE_TOL 0) :
    Gives (.align k f) s fun t =>
      let early := s.pick.stage = .open ∨ s.pick.stage = .beatUp ∨ s.pick.stage = .voted
      (t.link k.val).lastTx = f.tx.toNat ∧ t.pick.num = s.pick.num ∧
        t.pick.voteOr = (s.pick.voteOr || (decide early && f.vote == some true)) ∧
        (∀ v, f.vote = some v → early → k.val ∈ t.pick.votesFrom) ∧
        (s.pick.stage ≠ .decided → t.pick.confirmOr = (s.pick.confirmOr || f.confirm == some true)) ∧
        (∀ v, f.confirm = some v → s.pick.stage ≠ .decided → k.val ∈ t.pick.confirmsFrom) ∧
        (f.dissent = true → (t.link k.val).peerFenced = true ∧ bitOf (t.fld (F.EVT_STAT 12) 0) Ev.PICK_DISSENT = true) := by
  have hplain := align_of_plain hup hfence hedge hpick hphase
  refine ⟨_, congrArg Host.Outcome.next ((if_pos hup).trans hplain), ?_⟩
  have hlive' := (alignSeen_linkLive s k f).trans hlive
  obtain ⟨hheard, htx⟩ := alignVote_spec (s := s.alignSeen k f) hpick hlive'
  obtain ⟨hframe, hlink, hdissent⟩ := alignDissent_spec ((s.alignSeen k f).alignVote k f) k f
  have hend := hheard.of_frame hframe
  refine ⟨?_, hend.num, hend.voteOr, hend.votes, hend.confirmOr, hend.confirms, hdissent⟩
  rw [hlink, htx, State.alignSeen, State.link_setLink_same]

theorem alignInterval_gives {k : Fin 36} (hup : s.linkState k.val = 4) (hopen : s.pick.stage = .open) : Gives (.alignInterval k) s fun t =>
    t.sent = .align k.val s.pick.num s.txStamp false none none false (s.link k.val).lastTx (s.fld (F.CFG_GEN 0) 0) s.cfgPrint :: s.sent ∧
      t.fld F.LINK_TX_FLITS k.val = (s.fld F.LINK_TX_FLITS k.val + 1) % 2 ^ F.LINK_TX_FLITS.w := by
  refine ⟨_, congrArg Host.Outcome.next (if_pos hup), ?_, State.fld_setFld_same ..⟩
  simp [State.sendAlign, State.emit, hopen]

/-- The ALIGN flits. -/
theorem alignFlits : AlignFlits :=
  ⟨fun _ _ _ => ⟨fun hdown => ⟨congrArg Host.Outcome.next (if_neg hdown), congrArg Host.Outcome.next (if_neg hdown)⟩, align_gives⟩,
    fun _ _ => alignInterval_gives⟩

/-- Settles O31: the timing source and the ALIGN flits, each by its own lemmas. -/
theorem pickSourcesAndAlign : Obligations.PickSourcesAndAlign := ⟨pickSources, alignFlits⟩

end Sys2Proof.Machine

/-! ## The frame of a vector instruction (R190, R193, R239)

Every vector instruction goes through `State.vec`, which moves the strand on, reports, and either zeroes the destination of a reserved encoding
or runs the instruction's body. `VecFrame i s t` is what both leave alone where the body has no spool access. -/

namespace Sys2Proof.Machine
open Sys2Proof Sys2Proof.Claims

/-! ### The core's part -/

/-- The core has changed in no vector register but `d` and `d` + 1, and in no accumulator, array or owner. -/
structure CoreFrame (d : Nat) (x y : CoreState) : Prop where
  v : ∀ r, r ≠ d → r ≠ d + 1 → Tab.get? y.v r = Tab.get? x.v r
  acc : y.acc = x.acc
  arr : y.arr = x.arr
  owner : y.owner = x.owner

namespace CoreFrame

variable {d r : Nat} {x y z : CoreState}

theorem refl : CoreFrame d x x := ⟨fun _ _ _ => rfl, rfl, rfl, rfl⟩

theorem trans (h : CoreFrame d x y) (h' : CoreFrame d y z) : CoreFrame d x z :=
  ⟨fun r h0 h1 => (h'.v r h0 h1).trans (h.v r h0 h1), h'.acc.trans h.acc, h'.arr.trans h.arr, h'.owner.trans h.owner⟩

/-- A register of the destination is written. -/
theorem vputReg {bytes : List Byte} {pz : List Nat} (hr : r = d ∨ r = d + 1) : CoreFrame d x (x.vputReg r bytes pz) :=
  ⟨fun _ h0 h1 => Tab.get?_set_other _ _ fun hq => hr.elim (fun h => h0 (hq.trans h)) fun h => h1 (hq.trans h), rfl, rfl, rfl⟩

/-- The destination takes elements, of which a pair of registers holds those beyond the first register (R194). -/
theorem vput {w : Nat} {vals : List Nat} {pz : List Bool} : CoreFrame d x (x.vput d w vals pz) := by
  unfold CoreState.vput
  dsimp only
  split
  · exact (vputReg (.inl rfl)).trans (vputReg (.inr rfl))
  · exact vputReg (.inl rfl)

end CoreFrame

/-! ### The device's part -/

/-- From `s` to `t` the core of `i` has changed only as `CoreFrame` says and the pick only in its causes; elsewhere the device has only counted
and reported. -/
structure VecFrame (i : Issue) (s t : State) : Prop where
  rest : Noted s { t with cores := s.cores, pick := { t.pick with causes := s.pick.causes } }
  others : ∀ c, c ≠ i.core.val → t.core c = s.core c
  core : CoreFrame i.d.val (s.core i.core.val) (t.core i.core.val)

namespace VecFrame

variable {i : Issue} {s₀ s t : State}

theorem refl : VecFrame i s s := ⟨.refl, fun _ _ => rfl, .refl⟩

theorem both {c : Prop} [Decidable c] (hs : VecFrame i s₀ s) (ht : VecFrame i s₀ t) : VecFrame i s₀ (if c then s else t) := by
  split
  · exact hs
  · exact ht

/-- Counting and reporting keep the frame. -/
theorem noted (h : VecFrame i s₀ s) (hn : Noted s t) : VecFrame i s₀ t := by
  have hcore : ∀ c, t.core c = s.core c := fun c => congrArg (fun u => u.core c) hn
  have hrest := congrArg (fun u => s₀.withLogOf { u with cores := s₀.cores, pick := { u.pick with causes := s₀.pick.causes } }) hn
  refine ⟨hrest.trans h.rest, fun c hc => (hcore c).trans (h.others c hc), ?_⟩
  rw [hcore]
  exact h.core

theorem setCore {x : CoreState} (h : VecFrame i s₀ s) (hx : CoreFrame i.d.val (s.core i.core.val) x) :
    VecFrame i s₀ (s.setCore i.core.val x) := by
  refine ⟨h.rest, fun c hc => (State.core_setCore_other _ _ hc).trans (h.others c hc), ?_⟩
  rw [State.core_setCore_same]
  exact h.core.trans hx

theorem addSat {f : Fld} {j n : Nat} (h : VecFrame i s₀ s) : VecFrame i s₀ (s.addSat f j n) := h.noted Noted.refl.setFld
theorem addWrap {f : Fld} {j n : Nat} (h : VecFrame i s₀ s) : VecFrame i s₀ (s.addWrap f j n) := h.noted Noted.refl.setFld
theorem countEv {f : Fld} {j n b : Nat} (h : VecFrame i s₀ s) : VecFrame i s₀ (s.countEv f j n b) := h.noted Noted.refl.countEv
theorem strRsvd {c : Nat} (h : VecFrame i s₀ s) : VecFrame i s₀ (s.strRsvd c) := h.countEv
theorem vecRsvd {c : Nat} (h : VecFrame i s₀ s) : VecFrame i s₀ (s.vecRsvd c) := h.countEv
theorem vecNote {c : Nat} {n : VNote} (h : VecFrame i s₀ s) : VecFrame i s₀ (s.vecNote c n) := h.countEv.addSat.addSat.addSat.addSat.countEv

theorem fault (h : VecFrame i s₀ s) : VecFrame i s₀ s.fault := both h ⟨h.rest, h.others, h.core⟩
theorem strEcc {c : Nat} {e : Ecc} (h : VecFrame i s₀ s) : VecFrame i s₀ (s.strEcc c e) := both h.countEv.countEv h.countEv.countEv.fault
theorem vecEcc {c : Nat} {e : Ecc} (h : VecFrame i s₀ s) : VecFrame i s₀ (s.vecEcc c e) := both h.countEv.countEv h.countEv.countEv.fault
theorem corePoison {c : Nat} {p : Bool} (h : VecFrame i s₀ s) : VecFrame i s₀ (s.corePoison c p) := both (h.noted Noted.refl.raise).fault h

/-! ### Writes to the core -/

theorem setStrand {n : Nat} {x : Strand} (h : VecFrame i s₀ s) : VecFrame i s₀ (s.setStrand i.core.val n x) :=
  h.setCore ⟨fun _ _ _ => rfl, rfl, rfl, rfl⟩

theorem setLength {v : Nat} (h : VecFrame i s₀ s) : VecFrame i s₀ (s.setCore i.core.val { s.core i.core.val with vl := v }) :=
  h.setCore ⟨fun _ _ _ => rfl, rfl, rfl, rfl⟩

theorem setSreg {n k v : Nat} (h : VecFrame i s₀ s) : VecFrame i s₀ (s.setSreg i.core.val n k v) := h.setStrand
theorem wd {v : Nat} (h : VecFrame i s₀ s) : VecFrame i s₀ (s.wd i v) := h.setSreg
theorem srDone {n rm : Nat} (h : VecFrame i s₀ s) : VecFrame i s₀ (s.srDone i.core.val n rm) := both h.setStrand h

theorem advance {n : Nat} (h : VecFrame i s₀ s) : VecFrame i s₀ (s.advance i.core.val n) :=
  (h.setStrand.setCore (x := { (s.setStrand i.core.val n _).core i.core.val with lastIssue := n }) ⟨fun _ _ _ => rfl, rfl, rfl, rfl⟩).addWrap

theorem vresult {w : Nat} {res : List (Nat × VNote × Bool)} (h : VecFrame i s₀ s) : VecFrame i s₀ (s.vresult i w res) :=
  (h.setCore .vput).vecNote.corePoison

/-- The zeros of a reserved encoding go to the destination (R111). -/
theorem vzero {n w : Nat} (h : VecFrame i s₀ s) : VecFrame i s₀ (s.vzero i.core.val n (i.d.val, w)) :=
  both (h.setCore (.vputReg (.inl rfl))) (h.setCore .vput)

/-! ### Issue -/

section

variable {op n w : Nat} {ok sd : Bool} {ops dst : List (Nat × Nat)} {body : State → Nat → State}

/-- An instruction keeps the frame where the zeros of its reserved encoding and its body do. -/
theorem vec (h : VecFrame i s₀ s) (hzero : ∀ u n, VecFrame i s₀ u → VecFrame i s₀ (u.vzeros i.core.val n dst))
    (hbody : ∀ u n, VecFrame i s₀ u → VecFrame i s₀ (body u n)) : VecFrame i s₀ (s.vec op i ok ops dst sd body) := by
  have hmoved := h.advance (n := i.strand.val).strEcc (c := i.core.val) (e := i.ecc)
  have hread := hmoved.vecEcc (c := i.core.val) (e := i.vecc)
  exact both (both (both (hbody _ _ (both hread.addSat hread)) (both (hzero _ _ hread).wd (hzero _ _ hread)).vecRsvd) hmoved.strRsvd) h

/-- An instruction with a vector destination. -/
theorem vecTo (h : VecFrame i s₀ s) (hbody : ∀ u n, VecFrame i s₀ u → VecFrame i s₀ (body u n)) :
    VecFrame i s₀ (s.vec op i ok ops [(i.d.val, w)] sd body) :=
  h.vec (fun _ _ => vzero) hbody

/-- An instruction without one. -/
theorem vecNone (h : VecFrame i s₀ s) (hbody : ∀ u n, VecFrame i s₀ u → VecFrame i s₀ (body u n)) :
    VecFrame i s₀ (s.vec op i ok ops [] sd body) :=
  h.vec (fun _ _ => id) hbody

end

/-! ### Instructions of one shape -/

section

variable {op : Nat}

theorem vint {f : Nat → Nat → Nat → Nat × IntNote} (h : VecFrame i s₀ s) : VecFrame i s₀ (s.vint op i f) := by
  unfold State.vint
  exact h.vecTo fun _ _ => vresult

theorem vshift {f : Nat → Nat → Nat → Nat} (h : VecFrame i s₀ s) : VecFrame i s₀ (s.vshift op i f) := by
  unfold State.vshift
  exact h.vecTo fun _ _ => vresult

theorem vnarrow {f : Nat → Int → Nat × IntNote} (h : VecFrame i s₀ s) : VecFrame i s₀ (s.vnarrow op i f) := by
  unfold State.vnarrow
  exact h.vecTo fun _ _ hu => hu.vresult.srDone

theorem vf2 {f : Val → Val → Val} {note : Val → Val → VNote} (h : VecFrame i s₀ s) : VecFrame i s₀ (s.vf2 op i f note) := by
  unfold State.vf2
  exact h.vecTo fun _ _ hu => hu.vresult.srDone

theorem vf1 {f : Val → Val} {note : Val → VNote} (h : VecFrame i s₀ s) : VecFrame i s₀ (s.vf1 op i f note) := by
  unfold State.vf1
  exact h.vecTo fun _ _ hu => hu.vresult.srDone

theorem vfn {f : Fn} (h : VecFrame i s₀ s) : VecFrame i s₀ (s.vfn op i f) := by
  unfold State.vfn
  exact h.vecTo fun _ _ hu => hu.vresult.srDone

theorem scan {seg : Bool} (h : VecFrame i s₀ s) : VecFrame i s₀ (s.scan op i seg) := by
  unfold State.scan
  exact h.vecTo fun _ _ hu => hu.vresult.srDone

theorem redPick {big : Bool} (h : VecFrame i s₀ s) : VecFrame i s₀ (s.redPick op i big) := by
  unfold State.redPick
  exact h.vecNone fun _ _ hu => both hu.wd hu.wd.vecNote.corePoison.srDone

end

/-- The element that VEXTR finds, or the open value where there is none, goes to a scalar register. -/
theorem extract {y : Option (Nat × Bool)} {v : Nat} (h : VecFrame i s₀ s) :
    VecFrame i s₀ (match y with
      | some y => (s.wd i y.1).corePoison i.core.val y.2
      | none => s.wd i v) := by
  cases y with
  | none => exact h.wd
  | some y => exact h.wd.corePoison

/-- The frame of the state that a command answers. -/
theorem of_next (h : VecFrame i s t) {u : State} (hd : (.next t : Host.Outcome State Fault Refusal) = .next u) : VecFrame i s u :=
  Host.Outcome.next.inj hd ▸ h

end VecFrame

/-- The vector instructions that move no data to or from the spool. -/
def vecInstrs (i : Issue) : List Instr :=
  [.setvl i, .vsrkey i, .vbcast i, .vsel i, .vperm i, .vslide i, .vcompress i, .vextr i, .vadd i, .vsub i, .vmul i, .vdiv i,
    .vrem i, .vand i, .vor i, .vxor i, .vsll i, .vsrl i, .vsra i, .vsadd i, .vssub i, .vsaddu i, .vssubu i, .vrshr i, .vmulq i,
    .vnsat i, .vnwrap i, .vfadd i, .vfsub i, .vfmul i, .vfma i, .vfmin i, .vfmax i, .vcmp i, .vcvt i, .vscvt i, .vfdiv i, .vfrcp i,
    .vfsqrt i, .vfrsqrt i, .vexp i, .vexp2 i, .vlog i, .vlog2 i, .vtanh i, .vsigm i, .vsilu i, .vgelu i, .vscan i, .vsegscan i,
    .vredmax i, .vredmin i, .vredsumi i, .vsmxout i]

/-- Each of them keeps the frame, since its body is made of operations that do. -/
theorem vecFrame_of_does {i : Issue} {s t : State} : ∀ k ∈ vecInstrs i, Does k s t → VecFrame i s t := by
  have h : VecFrame i s s := .refl
  simp only [vecInstrs, List.forall_mem_cons]
  refine ⟨?setvl, ?vsrkey, ?vbcast, ?vsel, ?vperm, ?vslide, ?vcompress, ?vextr, ?vadd, ?vsub, ?vmul, ?vdiv, ?vrem, ?vand, ?vor, ?vxor, ?vsll,
    ?vsrl, ?vsra, ?vsadd, ?vssub, ?vsaddu, ?vssubu, ?vrshr, ?vmulq, ?vnsat, ?vnwrap, ?vfadd, ?vfsub, ?vfmul, ?vfma, ?vfmin, ?vfmax, ?vcmp,
    ?vcvt, ?vscvt, ?vfdiv, ?vfrcp, ?vfsqrt, ?vfrsqrt, ?vexp, ?vexp2, ?vlog, ?vlog2, ?vtanh, ?vsigm, ?vsilu, ?vgelu, ?vscan, ?vsegscan,
    ?vredmax, ?vredmin, ?vredsumi, ?vsmxout, fun _ hk => absurd hk List.not_mem_nil⟩
  case setvl => exact (h.vecNone fun _ _ hu => .both hu.setLength.wd hu.strRsvd).of_next
  case vsrkey => exact (h.vecNone fun _ _ hu => .both hu.setStrand hu.strRsvd).of_next
  case vbcast | vsel | vperm | vslide => exact (h.vecTo fun _ _ => .vresult).of_next
  case vcompress => exact (h.vecTo fun _ _ hu => hu.vresult.setSreg.corePoison).of_next
  case vextr => exact (h.vecNone fun _ _ => .extract).of_next
  case vadd | vsub | vmul | vdiv | vrem | vand | vor | vxor | vsadd | vssub | vsaddu | vssubu => exact h.vint.of_next
  case vsll | vsrl | vsra => exact h.vshift.of_next
  case vnsat | vnwrap => exact h.vnarrow.of_next
  case vrshr | vmulq | vfma | vcmp | vscvt => exact (h.vecTo fun _ _ hu => hu.vresult.srDone).of_next
  case vfadd | vfsub | vfmul | vfmin | vfmax | vfdiv => exact h.vf2.of_next
  case vcvt | vfrcp | vfsqrt | vfrsqrt => exact h.vf1.of_next
  case vexp | vexp2 | vlog | vlog2 | vtanh | vsigm | vsilu | vgelu => exact h.vfn.of_next
  case vscan | vsegscan => exact h.scan.of_next
  case vredmax | vredmin => exact h.redPick.of_next
  case vredsumi => exact (h.vecNone fun _ _ hu => .both hu.wd hu.wd.vecNote.corePoison).of_next
  case vsmxout => exact (h.vecTo fun _ _ hu => hu.vresult.corePoison.srDone).of_next

/-- Settles O22: moving on, reporting, the zeros of a reserved encoding and the body each keep the frame. -/
theorem vectorInstructionFrame : Obligations.VectorInstructionFrame := by
  intro i s t k hk hd
  obtain ⟨hrest, hothers, hv, hacc, harr, howner⟩ := vecFrame_of_does k hk hd
  exact ⟨(congrArg State.mem hrest :), (congrArg State.poison hrest :), (congrArg State.nor hrest :), (congrArg (fun u => u.host.mem) hrest :),
    (congrArg State.shadow hrest :), (congrArg State.armed hrest :), (congrArg (fun u => u.pick.num) hrest :), (congrArg State.fab hrest :),
    (congrArg State.links hrest :), (congrArg State.cellar hrest :), (congrArg State.upd hrest :), hothers, hv, hacc, harr, howner⟩

end Sys2Proof.Machine

/-! ## Floating-point vector instructions (R121, R131, R196, R199) -/

namespace Sys2Proof.Machine
open Sys2Proof Sys2Proof.Claims

variable {i : Issue} {s : State}

/-! ### What moving on leaves to the vector engine -/

theorem owns_went (i : Issue) (s : State) (t u : Nat) : (went i s).owns i.core.val t u = s.owns i.core.val t u := by
  simp only [State.owns, went, State.core_advance_same]

theorem vN_went (i : Issue) (s : State) (ops : List (Nat × Nat)) : (went i s).vN i.core.val ops = s.vN i.core.val ops := by
  simp only [State.vN, went, State.core_advance_same]

theorem vlen_went (i : Issue) (s : State) : vlen i (went i s) = vlen i s := by simp only [vlen, went, State.core_advance_same]

theorem rb_went (i : Issue) (s : State) : (went i s).rb i = s.rb i := State.rb_advance ..

theorem vsrc_went (i : Issue) (s : State) (r w n : Nat) (scalar : Bool) :
    (went i s).vsrc i.core.val i.strand.val r w n scalar = s.vsrc i.core.val i.strand.val r w n scalar := by
  unfold State.vsrc went
  rw [State.sreg_advance, State.core_advance_same]
  rfl

theorem srU_went (i : Issue) (s : State) (e : Nat) : (went i s).srU i.core.val i.strand.val e = s.srU i.core.val i.strand.val e := by
  unfold State.srU went
  rw [State.strand_advance_same]
  rfl

/-! ### Issue -/

/-- An instruction that its strand may issue, that is no reserved encoding and whose operands hold `vl` elements has its body's effect on all of
them (R193, R226, R229). -/
theorem vec_ready {op : Nat} {ok sd : Bool} {ops dst : List (Nat × Nat)} {body : State → Nat → State} (hr : vready i s) (hop : fetched op i s)
    (hok : ok = true) (hfit : fits i s ops) : s.vec op i ok ops dst sd body = body (went i s) (vlen i s) := by
  obtain ⟨hready, hvecc, howns⟩ := hr
  have ⟨_, _, hecc⟩ := hready
  obtain ⟨hlen, hpairs⟩ := hfit
  have hn : (went i s).vN i.core.val ops = vlen i s := (vN_went i s ops).trans hlen
  have hown : (went i s).owns i.core.val i.strand.val 0 = true := (owns_went i s ..).trans howns
  have hlast : ¬vlen i s < ((went i s).core i.core.val).vl := by
    rw [← vlen_went]
    exact Nat.lt_irrefl _
  unfold went at hn hown hlast
  simp only [State.vec, ready_canIssue hready hop, hecc, hvecc, State.strEcc_none, State.vecEcc_none, hown, hn, hok, hpairs, hlast,
    Bool.and_self, if_true, if_false]
  rfl

/-- Such an instruction that writes one list of results, and counts a draw of its strand's key where it rounds under SR (R193, R197). -/
theorem vec_writesR {op : Nat} {ok sd : Bool} {ops dst : List (Nat × Nat)} {w : Nat} {res : State → Nat → List (Nat × VNote × Bool)}
    {out : List (Nat × VNote × Bool)} (hr : vready i s) (hop : fetched op i s) (hok : ok = true) (hfit : fits i s ops)
    (hout : res (went i s) (vlen i s) = out) :
    s.vec op i ok ops dst sd (fun t n => (t.vresult i w (res t n)).srDone i.core.val i.strand.val (ccbRm (vCcb i))) = writesR i s w out := by
  rw [vec_ready hr hop hok hfit, hout]
  rfl

/-! ### Instructions of one shape -/

section

variable {op : Nat} (hr : vready i s) (hop : fetched op i s)
include hr hop

theorem vf2_ready {f : Val → Val → Val} {note : Val → Val → VNote} (hok : vfOk i true = true)
    (hfit : fits i s (vops2 i (fmtBytes (ccbFmt (vCcb i))) (fmtBytes (vFa i)) (fmtBytes (vFb i)))) :
    s.vf2 op i f note = writesR i s (fmtBytes (ccbFmt (vCcb i)))
      (zipElems (elems i s i.a.val (fmtBytes (vFa i)) false) (elems i s i.b.val (fmtBytes (vFb i)) (vSb i)) fun e p q =>
        let x := decodeVal (vFa i) (vFracA i) p
        let y := decodeVal (vFb i) (vFracA i) q
        let r := roundNote (vCcb i) (vFracD i) (s.srU i.core.val i.strand.val e) (x == .nan || y == .nan) (f x y)
        (r.1, r.2.add (note x y))) := by
  unfold State.vf2
  refine vec_writesR hr hop hok hfit ?_
  simp only [vsrc_went, srU_went]
  rfl

theorem vf1_ready {f : Val → Val} {note : Val → VNote} (hok : vfOk i false = true)
    (hfit : fits i s [(i.d.val, fmtBytes (ccbFmt (vCcb i))), (i.a.val, fmtBytes (vFa i))]) :
    s.vf1 op i f note = writesR i s (fmtBytes (ccbFmt (vCcb i)))
      (mapElems (elems i s i.a.val (fmtBytes (vFa i)) false) fun e p =>
        let x := decodeVal (vFa i) (vFracA i) p
        let r := roundNote (vCcb i) (vFracD i) (s.srU i.core.val i.strand.val e) (x == .nan) (f x)
        (r.1, r.2.add (note x))) := by
  unfold State.vf1
  refine vec_writesR hr hop hok hfit ?_
  simp only [vsrc_went, srU_went]
  rfl

/-- A transcendental instruction writes the correctly rounded values (Table 7.2); what its elements report is not said. -/
theorem vfn_ready {f : Fn} (hok : vfOk i false = true) (ha : vFa i ≠ 5) (hd : ccbFmt (vCcb i) ≠ 5)
    (hfit : fits i s [(i.d.val, fmtBytes (ccbFmt (vCcb i))), (i.a.val, fmtBytes (vFa i))]) :
    ∃ notes : Nat → Nat → VNote, s.vfn op i f = writesR i s (fmtBytes (ccbFmt (vCcb i)))
      (mapElems (elems i s i.a.val (fmtBytes (vFa i)) false) fun e p =>
        ((f.round (decodeVal (vFa i) (vFracA i) p) (roundCcb (vCcb i) (vFracD i) (s.srU i.core.val i.strand.val e))).bits, notes e p)) := by
  have hok' : (vfOk i false && vFa i != 5 && ccbFmt (vCcb i) != 5) = true := by simp [hok, ha, hd]
  refine ⟨?notes, ?eq⟩
  case eq =>
    unfold State.vfn
    refine vec_writesR hr hop hok' hfit ?_
    simp only [vsrc_went, srU_went]
    rfl

end

/-! ### The instructions -/

/-- The exact value of two sources rounded once, of VFMA of three; VCMP writes its answer (R196, R199). -/
theorem vectorFloatTwoSources : VectorFloatTwoSources := by
  intro i s hr hok w wa wb hfit a b x y z u rnd gives
  have hgives {op : Nat} {k : Instr} (f : Val → Val → Val) (note : Val → Val → VNote) (hk : exec k s = .next (s.vf2 op i f note)) :
      gives op k f note :=
    fun hop => hk.trans (congrArg _ (vf2_ready hr hop hok hfit))
  refine ⟨hgives (Val.add 0) (fun _ _ => {}) rfl, hgives (Val.sub 0) (fun _ _ => {}) rfl, hgives Val.mul (fun _ _ => {}) rfl,
    hgives Val.div divZero rfl, hgives (Val.pick false) (fun _ _ => {}) rfl, hgives (Val.pick true) (fun _ _ => {}) rfl, fun hop => ?vfma,
    fun hint hsub hop => ?vcmp⟩
  case vfma =>
    refine congrArg Host.Outcome.next (vec_writesR hr hop hok hfit ?_)
    simp only [vsrc_went, srU_went]
    rfl
  case vcmp =>
    have hcmp : (vfOk i true && isInt (ccbFmt (vCcb i)) && decide (vSub i ≤ 5)) = true := by simp [hok, hint, hsub]
    refine congrArg Host.Outcome.next (vec_writesR hr hop hcmp hfit ?_)
    simp only [vsrc_went]
    rfl

/-- Conversions, reciprocals, roots and transcendental functions round once (R121, R131, R196). -/
theorem vectorFloatOneSource : VectorFloatOneSource := by
  intro i s hr hok w wa hfit a x u rnd gives fn
  have hgives {op : Nat} {k : Instr} (f : Val → Val) (note : Val → VNote) (hk : exec k s = .next (s.vf1 op i f note)) : gives op k f note :=
    fun hop => hk.trans (congrArg _ (vf1_ready hr hop hok hfit))
  refine ⟨hgives id (fun _ => {}) rfl, hgives (Val.div Val.one) (divZero Val.one) rfl, hgives Val.sqrt (fun _ => {}) rfl,
    hgives Val.rsqrt (divZero Val.one) rfl, fun hop => ?vscvt, fun ha hd => ?transcendental⟩
  case vscvt =>
    refine congrArg Host.Outcome.next (vec_writesR hr hop hok hfit ?_)
    simp only [vsrc_went, srU_went, rb_went]
    rfl
  case transcendental =>
    have hfn {op : Nat} {k : Instr} (f : Fn) (hk : exec k s = .next (s.vfn op i f)) : fn op k f := fun hop =>
      have ⟨notes, heq⟩ := vfn_ready hr hop hok ha hd hfit
      ⟨_, notes, hk, heq⟩
    exact ⟨hfn .exp rfl, hfn .exp2 rfl, hfn .log rfl, hfn .log2 rfl, hfn .tanh rfl, hfn .sigm rfl, hfn .silu rfl, hfn .gelu rfl⟩

/-- Settles O15: each instruction's body on all `vl` elements is the exact value of each, rounded once. -/
theorem vectorFloatResults : Obligations.VectorFloatResults := ⟨vectorFloatTwoSources, vectorFloatOneSource⟩

end Sys2Proof.Machine

/-! ## The clear registers (R160, R188, R220, R247, R277, R306, R307, R309, R333, R365, R366, R387, R412, R435, R453, R473, R496)

Every clear register zeroes the RO registers of its page in one or two ranges of offsets (`State.clearRange`). `Zeroes ty i rs s t` is what one
such write and all of them together keep. -/

namespace Sys2Proof.Machine
open Sys2Proof Sys2Proof.Claims

variable {s t u : State} {ag : Agent} {ty i off lo hi : Nat} {rs rs' : List (Nat × Nat)} {c : Instr}

/-- From `s` to `t` nothing but registers of the page in the offset ranges `rs` is written, and those only with 0. -/
structure Zeroes (ty i : Nat) (rs : List (Nat × Nat)) (s t : State) : Prop where
  rest : { t with regs := s.regs } = s
  outside : ∀ k, (keyPage k = (ty, i) → ∀ r ∈ rs, keyOff k < r.1 ∨ r.2 < keyOff k) → Tab.get? t.regs k = Tab.get? s.regs k
  stays : ∀ (f : Fld) (j : Nat), s.fld f j = 0 → t.fld f j = 0

theorem fld_setFld_zero {f g : Fld} {j : Nat} (h : s.fld f j = 0) : (s.setFld g i 0).fld f j = 0 := by
  by_cases hk : f.key j = g.key i
  · simp only [State.fld, State.setFld, hk, Tab.get_set_same, Nat.zero_mod]
  · rw [State.fld_setFld_other _ _ hk, h]

theorem keyPage_key {f : Fld} (hi : i < 1024) (ho : f.off < 4096) (hl : f.lo < 32) : keyPage (f.key i) = (f.ty, i) := by
  simp only [keyPage, Fld.key, Prod.mk.injEq]
  omega

namespace Zeroes

theorem refl : Zeroes ty i rs s s := ⟨rfl, fun _ _ => rfl, fun _ _ => id⟩

theorem trans (h : Zeroes ty i rs s t) (h' : Zeroes ty i rs t u) : Zeroes ty i rs s u :=
  ⟨(congrArg (fun x => { x with regs := s.regs }) h'.rest :).trans h.rest, fun k hk => (h'.outside k hk).trans (h.outside k hk),
    fun f j h0 => h'.stays f j (h.stays f j h0)⟩

theorem mono (h : Zeroes ty i rs s t) (hrs : rs ⊆ rs') : Zeroes ty i rs' s t :=
  ⟨h.rest, fun k hk => h.outside k fun hp r hr => hk hp r (hrs hr), h.stays⟩

/-- A register of the page in one of the ranges is written with 0. -/
theorem setFld {f : Fld} (hi : i < 1024) (ho : f.off < 4096) (hl : f.lo < 32) (hin : ∃ r ∈ rs, r.1 ≤ f.off ∧ f.off ≤ r.2) :
    Zeroes f.ty i rs s (s.setFld f i 0) := by
  refine ⟨rfl, fun k hk => Tab.get?_set_other _ _ ?_, fun _ _ => fld_setFld_zero⟩
  rintro rfl
  obtain ⟨r, hr, hlo, hhi⟩ := hin
  have := hk (keyPage_key hi ho hl) r hr
  rw [keyOff_key ho hl] at this
  omega

theorem foldl {l : List Fld} (hl : ∀ g ∈ l, ∀ s, Zeroes ty i rs s (s.setFld g i 0)) (s : State) :
    Zeroes ty i rs s (l.foldl (fun t g => t.setFld g i 0) s) := by
  induction l generalizing s with
  | nil => exact refl
  | cons g l ih => exact (hl g List.mem_cons_self s).trans (ih (fun y hy => hl y (List.mem_cons_of_mem g hy)) _)

end Zeroes

/-! ### What a clear register names -/

/-- The registers of a page that a clear of the offsets from `lo` to `hi` zeroes. -/
def clearedFlds (ty lo hi : Nat) : List Fld :=
  (pageFlds ty).flatMap fun f => ((List.range f.count).map f.nth).filter fun g => decide (lo ≤ g.off ∧ g.off ≤ hi ∧ g.acc = .ro)

theorem clearRange_eq (s : State) (ty i lo hi : Nat) : s.clearRange ty i lo hi = (clearedFlds ty lo hi).foldl (fun t g => t.setFld g i 0) s := by
  simp only [State.clearRange, clearedFlds, List.foldl_flatMap, List.foldl_filter, List.foldl_map, decide_eq_true_eq]

theorem mem_clearedFlds {g : Fld} : g ∈ clearedFlds ty lo hi ↔
    ∃ f ∈ pageFlds ty, (∃ k < f.count, f.nth k = g) ∧ lo ≤ g.off ∧ g.off ≤ hi ∧ g.acc = .ro := by
  simp only [clearedFlds, List.mem_flatMap, List.mem_filter, List.mem_map, List.mem_range, decide_eq_true_eq]

/-- The fields of a page type are fields of its pages, and each begins in its register. -/
theorem pageFlds_place : ∀ ty < 19, ∀ f ∈ pageFlds ty, f.ty = ty ∧ f.lo < 32 := by decide

/-- The page exists, and the offsets lie on it. -/
def onPage (ty i hi : Nat) : Prop := ty < 19 ∧ i < 1024 ∧ hi < 4096

theorem zeroes_of_mem {g : Fld} (hp : onPage ty i hi) (hg : g ∈ clearedFlds ty lo hi) (s : State) :
    Zeroes ty i [(lo, hi)] s (s.setFld g i 0) := by
  obtain ⟨hty, hi', hend⟩ := hp
  obtain ⟨f, hf, ⟨k, -, rfl⟩, hlo, hhi, -⟩ := mem_clearedFlds.1 hg
  obtain ⟨hfty, hflo⟩ := pageFlds_place ty hty f hf
  exact hfty ▸ Zeroes.setFld (f := f.nth k) hi' (by omega) hflo ⟨_, List.mem_singleton_self _, hlo, hhi⟩

theorem clearRange_zeroes (hp : onPage ty i hi) (s : State) : Zeroes ty i [(lo, hi)] s (s.clearRange ty i lo hi) :=
  clearRange_eq s ty i lo hi ▸ Zeroes.foldl (fun _ hg => zeroes_of_mem hp hg) s

/-- The counters of the range read 0. -/
theorem fld_clearRange {f : Fld} {k : Nat} (hp : onPage ty i hi) (hf : f ∈ pageFlds ty) (hk : k < f.count) (hro : (f.nth k).acc = .ro)
    (hlo : lo ≤ (f.nth k).off) (hhi : (f.nth k).off ≤ hi) (s : State) : (s.clearRange ty i lo hi).fld (f.nth k) i = 0 := by
  have hmem : f.nth k ∈ clearedFlds ty lo hi := mem_clearedFlds.2 ⟨f, hf, ⟨k, hk, rfl⟩, hlo, hhi, hro⟩
  obtain ⟨before, after, hsplit⟩ := List.append_of_mem hmem
  rw [clearRange_eq, hsplit, List.foldl_append, List.foldl_cons]
  have hafter (s : State) : Zeroes ty i [(lo, hi)] s (after.foldl (fun t g => t.setFld g i 0) s) := by
    refine Zeroes.foldl (fun g hg => zeroes_of_mem hp ?_) s
    rw [hsplit]
    exact List.mem_append_right _ (List.mem_cons_of_mem _ hg)
  exact (hafter _).stays _ _ ((State.fld_setFld_same ..).trans (Nat.zero_mod _))

/-! ### One range and two -/

theorem clearRange_clears (hp : onPage ty i hi) (s : State) : clearsOnly ty i [(lo, hi)] s (s.clearRange ty i lo hi) := by
  have hz := clearRange_zeroes (lo := lo) hp s
  refine ⟨⟨fun f hf k hk hro hin => ?_, hz.outside⟩, hz.rest⟩
  obtain ⟨r, hr, hlo, hhi⟩ := hin
  obtain rfl := List.mem_singleton.1 hr
  exact fld_clearRange hp hf hk hro hlo hhi s

theorem clearRange_clearRange_clears {lo' hi' : Nat} (hp : onPage ty i hi) (hp' : onPage ty i hi') (s : State) :
    clearsOnly ty i [(lo, hi), (lo', hi')] s ((s.clearRange ty i lo hi).clearRange ty i lo' hi') := by
  have hz := clearRange_zeroes (lo := lo) hp s
  have hz' := clearRange_zeroes (lo := lo') hp' (s.clearRange ty i lo hi)
  have hboth : Zeroes ty i [(lo, hi), (lo', hi')] s _ := (hz.mono (by simp)).trans (hz'.mono (by simp))
  refine ⟨⟨fun f hf k hk hro hin => ?_, hboth.outside⟩, hboth.rest⟩
  simp only [List.mem_cons, List.not_mem_nil, or_false, exists_eq_or_imp, exists_eq_left] at hin
  rcases hin with ⟨hlo, hhi⟩ | ⟨hlo, hhi⟩
  · exact hz'.stays _ _ (fld_clearRange hp hf hk hro hlo hhi s)
  · exact fld_clearRange hp' hf hk hro hlo hhi _

/-- The page of an agent that may write it exists. -/
theorem onPage_of_mayWrite (h : mayWrite ag ty i s) (hend : hi < 4096) : onPage ty i hi := by
  have hinst : i < instances ty := lt_instances_of_pageGate (by rw [show s.pageGate _ ty i true = 0 from h]; exact Nat.zero_ne_one)
  refine ⟨?_, (instances_bounds hinst).2, hend⟩
  unfold instances at hinst
  split at hinst <;> omega

/-- A command that writes 1 to a clear register of one range. -/
theorem gives_clearRange {act : State → State} (hc : exec c s = .next (s.pageAct ag ty i off act)) (hact : act s = s.clearRange ty i lo hi)
    (hend : hi < 4096) (hw : mayWrite ag ty i s) : Gives c s (clearsOnly ty i [(lo, hi)] s) :=
  gives_of_pageAct hc hw (hact ▸ clearRange_clears (onPage_of_mayWrite hw hend) s)

/-- A command that writes 1 to a clear register of two ranges. -/
theorem gives_clearRange_clearRange {lo' hi' : Nat} {act : State → State} (hc : exec c s = .next (s.pageAct ag ty i off act))
    (hact : act s = (s.clearRange ty i lo hi).clearRange ty i lo' hi') (hend : hi < 4096) (hend' : hi' < 4096) (hw : mayWrite ag ty i s) :
    Gives c s (clearsOnly ty i [(lo, hi), (lo', hi')] s) :=
  gives_of_pageAct hc hw (hact ▸ clearRange_clearRange_clears (onPage_of_mayWrite hw hend) (onPage_of_mayWrite hw hend') s)

/-- Only the registers matter to `clears`. -/
theorem clears_congr (h : clears ty i rs s u) (hregs : t.regs = u.regs) : clears ty i rs s t :=
  ⟨fun f hf k hk hro hin => (State.fld_congr hregs _ _).trans (h.1 f hf k hk hro hin), fun k hk => hregs ▸ h.2 k hk⟩

/-- No counter counts in the clear's own cycle. -/
theorem vecClr_nil (s : State) (i : Nat) : s.vecClr i [] = s.clearRange 1 i 0x140 0x164 := by
  unfold State.vecClr
  exact List.foldl_nil

theorem stkClr_regs (s : State) (i : Nat) : (s.stkClr i).regs = ((s.clearRange 4 i 0x08C 0x0A8).clearRange 4 i 0x0E0 0x0FC).regs := by
  unfold State.stkClr
  generalize (s.clearRange 4 i 0x08C 0x0A8).clearRange 4 i 0x0E0 0x0FC = u
  rfl

theorem audClr_regs (s : State) : s.audClr.regs = (s.clearRange 13 0 0x128 0x138).regs := by
  unfold State.audClr
  generalize s.clearRange 13 0 0x128 0x138 = u
  rfl

/-- STK_CNT_CLR: besides its registers, the bytes that the stack controller counts (R309). -/
theorem stkCntClr_gives {k : Fin 16} (hw : mayWrite ag 4 k.val s) : Gives (.stkCntClr ag k) s fun t =>
    clears 4 k.val [(0x08C, 0x0A8), (0x0E0, 0x0FC)] s t ∧ (t.stack k.val).rd = 0 ∧ (t.stack k.val).wr = 0 := by
  have hpage {hi : Nat} : hi < 4096 → onPage 4 k.val hi := onPage_of_mayWrite hw
  refine gives_of_pageAct rfl hw
    ⟨clears_congr (clearRange_clearRange_clears (hpage (by decide)) (hpage (by decide)) s).1 (stkClr_regs s k.val), ?_⟩
  simp only [State.stack, State.stkClr, Tab.get_set_same, and_self]

/-- AUD_CNT_CLR: besides its registers, the bytes hashed (R412). -/
theorem audCntClr_gives (hw : mayWrite ag 13 0 s) : Gives (.audCntClr ag) s fun t => clears 13 0 [(0x128, 0x138)] s t ∧ t.audit.hashed = 0 :=
  gives_of_pageAct rfl hw ⟨clears_congr (clearRange_clears (onPage_of_mayWrite hw (by decide)) s).1 (audClr_regs s), rfl⟩

/-- Settles O27: each clear register is one of `clearRange`, or two, on the page that it stands on. -/
theorem counterClears : Obligations.CounterClears := by
  intro ag s
  refine ⟨fun k hw => ⟨?cnt, ?epi, ?vec, ?str⟩, fun k => ⟨?solv, ?die, stkCntClr_gives⟩, fun k => ⟨?cel, ?upd⟩, fun k => ?link,
    fun k => ?coll, fun k => ?port, ?hed, ?tr, ?host, audCntClr_gives, ?mgmt, ?pwr, ?sec, ?book⟩
  case cnt | epi | str => exact gives_clearRange rfl rfl (by decide) hw
  case vec => exact gives_clearRange rfl (vecClr_nil s k.val) (by decide) hw
  case pwr | sec => exact gives_clearRange_clearRange rfl rfl (by decide) (by decide)
  case solv | die | cel | upd | link | coll | port | hed | tr | host | mgmt | book => exact gives_clearRange rfl rfl (by decide)

end Sys2Proof.Machine

/-! ## Loads of the weave array (R144, R147, R149, R240) -/

namespace Sys2Proof.Machine
open Sys2Proof Sys2Proof.Claims

variable {s : State} {c n : Nat}

/-- What the command of a load asked for: all of it but the cycle of its start and what it then reads. -/
def LoadJob.asked (j : LoadJob) : LoadJob := { j with start := none, data := {} }

/-- From `x` to `y` the load at the head of the loader may have started. -/
structure LoadStarted (x y : ArrState) : Prop where
  rest : { y with loader := x.loader, shadow := x.shadow } = x
  asked : y.loader.map LoadJob.asked = x.loader.map LoadJob.asked

namespace LoadStarted

variable {x y : ArrState}

theorem refl : LoadStarted x x := ⟨rfl, rfl⟩

theorem length (h : LoadStarted x y) : y.loader.length = x.loader.length := by
  simpa only [List.length_map] using congrArg List.length h.asked

theorem getLast? (h : LoadStarted x y) : y.loader.getLast?.map LoadJob.asked = x.loader.getLast?.map LoadJob.asked := by
  simpa only [List.getLast?_map] using congrArg List.getLast? h.asked

theorem edge (h : LoadStarted x y) : y.edge = x.edge := (congrArg ArrState.edge h.rest :)
theorem flights (h : LoadStarted x y) : y.flights = x.flights := (congrArg ArrState.flights h.rest :)
theorem vat (h : LoadStarted x y) : y.vat = x.vat := (congrArg ArrState.vat h.rest :)
theorem drains (h : LoadStarted x y) : y.drains = x.drains := (congrArg ArrState.drains h.rest :)
theorem live (h : LoadStarted x y) : y.live = x.live := (congrArg ArrState.live h.rest :)
theorem ordShadow (h : LoadStarted x y) : y.ordShadow = x.ordShadow := (congrArg ArrState.ordShadow h.rest :)
theorem ordEdge (h : LoadStarted x y) : y.ordEdge = x.ordEdge := (congrArg ArrState.ordEdge h.rest :)
theorem loaderFree (h : LoadStarted x y) : y.loaderFree = x.loaderFree := (congrArg ArrState.loaderFree h.rest :)
theorem relFree (h : LoadStarted x y) : y.relFree = x.relFree := (congrArg ArrState.relFree h.rest :)

end LoadStarted

/-- From `s` to `t` nothing happens, or a load starts: accesses outside the window count in STR_OOW, and only the array changes. -/
def LoadStep (s : State) (c n : Nat) (t : State) : Prop := t = s ∨ ∃ j y, t = (s.loadOow c j).setArr c n y ∧ LoadStarted (s.arr c n) y

theorem startLoad_step (s : State) (c n : Nat) : LoadStep s c n (s.startLoad c n) := by
  unfold State.startLoad
  dsimp only
  split
  · exact .inl rfl
  next j rest hl =>
    refine iteInduction (motive := LoadStep s c n) (fun _ => .inl rfl) fun _ => .inr ⟨j, _, rfl, ?_⟩
    split
    · exact ⟨rfl, by rw [hl]; rfl⟩
    · exact ⟨rfl, by rw [hl]; rfl⟩

theorem arr_startLoad (s : State) (c n : Nat) : LoadStarted (s.arr c n) ((s.startLoad c n).arr c n) := by
  rcases startLoad_step s c n with h | ⟨j, y, h, hy⟩
  · rw [h]
    exact .refl
  · rw [h, State.arr_setArr_same]
    exact hy

/-- Accesses outside the window are counted, and that is all. -/
theorem loadOow_noted (s : State) (c : Nat) (j : LoadJob) : Noted s (s.loadOow c j) := Noted.refl.foldl fun _ _ => .setFld

@[simp] theorem startLoad_mem (s : State) (c n : Nat) : (s.startLoad c n).mem = s.mem := by
  rcases startLoad_step s c n with h | ⟨j, y, h, -⟩
  · rw [h]
  · rw [h]
    exact (congrArg State.mem (loadOow_noted s c j) :)

theorem fld_loadOow {f : Fld} (hf : f.offApart F.CORE_STR_OOW = true) (s : State) (c : Nat) (j : LoadJob) (i : Nat) :
    (s.loadOow c j).fld f i = s.fld f i := by
  unfold State.loadOow
  dsimp only
  generalize List.filter _ _ = l
  induction l generalizing s with
  | nil => rfl
  | cons k l ih => exact (ih _).trans (fld_setFld_offApart hf ..)

/-- A start of a load counts in no register but STR_OOW. -/
theorem fld_startLoad {f : Fld} (hf : f.offApart F.CORE_STR_OOW = true) (s : State) (c n i : Nat) :
    (s.startLoad c n).fld f i = s.fld f i := by
  rcases startLoad_step s c n with h | ⟨j, y, h, -⟩
  · rw [h]
  · rw [h]
    exact fld_loadOow hf s c j i

/-! ### WLOAD -/

/-- The load that the command asks for. -/
def loadOf (i : Issue) (s : State) : LoadJob :=
  let edge := bitOf i.mod.val 1
  let tr := bitOf i.mod.val 2
  { strand := i.strand.val, order := (s.arr i.core.val (modBits i 0 1)).order, issue := i.cyc, edge := edge, transpose := tr
    fmt := immBits i 0 4, frac := immBits i 4 6, base := s.ra i, stride := if edge && tr then 0 else s.rb i }

/-- The array with the load behind the others of its loader. -/
def withLoad (x : ArrState) (j : LoadJob) : ArrState :=
  { x with order := x.order + 1, loader := x.loader ++ [j]
           ordShadow := if j.edge then x.ordShadow else some j.fmt
           ordEdge := if j.edge then some j.fmt else x.ordEdge }

/-- A load that the strand may issue, and that is no reserved encoding. -/
structure LoadReady (i : Issue) (s : State) : Prop where
  ready : ready i s
  room : (s.arr i.core.val (modBits i 0 1)).waiting < 8
  fields : unusedZero i false true (!(bitOf i.mod.val 1 && bitOf i.mod.val 2)) 3 10 = true
  owns : s.owns i.core.val i.strand.val (1 + modBits i 0 1) = true
  fmt : arrayFmt (immBits i 0 4) = true
  frac : fracOk (immBits i 0 4) (immBits i 4 6) = true

theorem loadCmd_eq {i : Issue} {op : Nat} (h : LoadReady i s) (hf : fetched op i s) : s.loadCmd op i =
    ((went i s).setArr i.core.val (modBits i 0 1) (withLoad (s.arr i.core.val (modBits i 0 1)) (loadOf i s))).startLoad i.core.val
      (modBits i 0 1) := by
  have hroom : ¬8 ≤ (s.arr i.core.val (modBits i 0 1)).waiting := Nat.not_le.2 h.room
  have hok : (unusedZero i false true (!(bitOf i.mod.val 1 && bitOf i.mod.val 2)) 3 10 &&
      s.owns i.core.val i.strand.val (1 + modBits i 0 1)) = true := by rw [h.fields, h.owns, Bool.and_self]
  have harr : (s.advance i.core.val i.strand.val).arr i.core.val (modBits i 0 1) = s.arr i.core.val (modBits i 0 1) := arr_went i s _
  obtain ⟨-, -, hecc⟩ := h.ready
  unfold State.loadCmd
  dsimp only
  rw [if_neg hroom, State.issue_ready s i _ (ready_canIssue h.ready hf) hecc hok]
  simp only [h.fmt, h.frac, Bool.and_self, if_true, harr, State.ra_advance, State.rb_advance]
  rfl

/-- WLOAD and its edge form. -/
theorem arrayLoadJoinsLoader : ArrayLoadJoinsLoader := by
  intro i s hready c n edge tr hroom hfields howns hfmt hfrac hf k hk
  have h : LoadReady i s := ⟨hready, hroom, hfields, howns, hfmt, hfrac⟩
  have hdoes : Does k s (s.loadCmd 0x38 i) := by
    simp only [List.mem_cons, List.not_mem_nil, or_false] at hk
    rcases hk with rfl | rfl <;> rfl
  have hstart := arr_startLoad ((went i s).setArr c n (withLoad (s.arr c n) (loadOf i s))) c n
  rw [State.arr_setArr_same] at hstart
  rw [loadCmd_eq h hf] at hdoes
  refine ⟨_, hdoes, ?_, ?_, fun he => ?_, fun he => ?_, startLoad_mem ..⟩
  · rw [hstart.length]
    exact List.length_append
  · have hlast := congrArg (Option.map fun j : LoadJob => (j.base, j.fmt, j.frac, j.edge, j.transpose)) hstart.getLast?
    rw [Option.map_map, Option.map_map, show (withLoad _ _).loader.getLast? = some (loadOf i s) from List.getLast?_concat] at hlast
    exact hlast
  · rw [hstart.ordShadow]
    exact if_neg (Bool.eq_false_iff.1 he)
  · rw [hstart.ordEdge]
    exact if_pos he

/-! ### WLOAD_COMPLETE -/

/-- WLOAD_COMPLETE. -/
theorem arrayLoadCompletes : ArrayLoadCompletes := by
  intro core arr cyc st s j rest hl hst
  have hexec : exec (.wloadComplete core arr cyc) s = execWloadComplete core arr cyc s := rfl
  simp only [execWloadComplete, hl, hst] at hexec
  refine ⟨fun hend => ?ended, fun hrun => ?runs⟩
  case ended =>
    rw [if_pos hend] at hexec
    have hstart := arr_startLoad (s.setArr core.val arr.val { s.arr core.val arr.val with
      loader := rest, loaderFree := st + j.cycles, edge := if j.edge then some j.data else (s.arr core.val arr.val).edge }) core.val arr.val
    rw [State.arr_setArr_same] at hstart
    exact ⟨_, hexec, hstart.length, hstart.loaderFree, hstart.edge⟩
  case runs => rwa [if_neg (Nat.not_le.2 hrun)] at hexec

/-- Settles O11: a load at the head of the loader may start with either command, which changes neither what was asked for nor the order. -/
theorem arrayLoads : Obligations.ArrayLoads := ⟨arrayLoadJoinsLoader, arrayLoadCompletes⟩

end Sys2Proof.Machine

/-! ## Beats, row clocks and the vat (R137 to R139, R142, R154) -/

namespace Sys2Proof.Machine
open Sys2Proof Sys2Proof.Claims

variable {s t : State} {c n : Nat}

@[simp] theorem State.arrEcc_none (s : State) (c : Nat) : s.arrEcc c {} = s := rfl

theorem State.arr_congr (h : t.cores = s.cores) (c n : Nat) : t.arr c n = s.arr c n := by
  unfold State.arr State.core
  rw [h]

/-- A release puts one beat in flight, lets the next load start, and counts. -/
theorem release_eq (s : State) (c n : Nat) (p : PassJob) (v : Weft) (cyc : Nat) : ∃ y,
    s.release c n p v cyc = (((s.setArr c n y).startLoad c n).addWrap (ofArr n F.CORE_A0_BEATS F.CORE_A1_BEATS) c 1).setFld
      (ofArr n F.CORE_ARR_STAT_A0_ROWS_ON F.CORE_ARR_STAT_A1_ROWS_ON) c 1 ∧
    y.flights.length = (s.arr c n).flights.length + 1 ∧ y.relFree = cyc + 1 := by
  refine ⟨_, rfl, ?_, rfl⟩
  rw [List.length_append, List.length_singleton]
  split
  · rfl
  · rfl

theorem beats_apart (n : Nat) : (ofArr n F.CORE_A0_BEATS F.CORE_A1_BEATS).offApart F.CORE_STR_OOW = true ∧
    (ofArr n F.CORE_A0_BEATS F.CORE_A1_BEATS).offApart (ofArr n F.CORE_ARR_STAT_A0_ROWS_ON F.CORE_ARR_STAT_A1_ROWS_ON) = true := by
  unfold ofArr
  split
  · decide
  · decide

theorem rowsOn_width (n : Nat) : (ofArr n F.CORE_ARR_STAT_A0_ROWS_ON F.CORE_ARR_STAT_A1_ROWS_ON).w = 1 := by
  unfold ofArr
  split
  · rfl
  · rfl

/-- One beat enters the array. -/
theorem release_enters (s : State) (c n : Nat) (p : PassJob) (v : Weft) (cyc : Nat) :
    let t := s.release c n p v cyc
    let beats := ofArr n F.CORE_A0_BEATS F.CORE_A1_BEATS
    (t.arr c n).flights.length = (s.arr c n).flights.length + 1 ∧ (t.arr c n).relFree = cyc + 1 ∧
      t.fld beats c = (s.fld beats c + 1) % 2 ^ beats.w ∧ t.fld (ofArr n F.CORE_ARR_STAT_A0_ROWS_ON F.CORE_ARR_STAT_A1_ROWS_ON) c = 1 ∧
      t.mem = s.mem := by
  intro t beats
  obtain ⟨y, ht, hlen, hfree⟩ := release_eq s c n p v cyc
  obtain ⟨hoow, hrows⟩ := beats_apart n
  have hstart := arr_startLoad (s.setArr c n y) c n
  rw [State.arr_setArr_same] at hstart
  have hbeats : ((s.setArr c n y).startLoad c n).fld beats c = s.fld beats c := fld_startLoad hoow ..
  simp only [t, ht]
  refine ⟨?_, hstart.relFree.trans hfree, ?_, ?_, startLoad_mem ..⟩
  · exact (congrArg List.length hstart.flights).trans hlen
  · rw [fld_setFld_offApart hrows, State.addWrap, State.fld_setFld_same, hbeats]
  · rw [State.fld_setFld_same, rowsOn_width]
    rfl

section

variable {core : Fin 512} {arr : Fin 2} {cyc : Nat}

/-- With no pass to release, or in the cycle of another release, nothing happens. -/
theorem beatRelease_idle {reads : Nat} (h : (s.arr core.val arr.val).releasing = none ∨ cyc < (s.arr core.val arr.val).relFree) :
    Does (.beatRelease core arr cyc reads {}) s s := by
  show execBeatRelease core arr cyc reads {} s = _
  cases hp : (s.arr core.val arr.val).releasing with
  | none => simp only [execBeatRelease, hp]
  | some p0 =>
    have hbusy : cyc < (s.arr core.val arr.val).relFree := h.resolve_left (by simp [hp])
    simp only [execBeatRelease, hp, if_pos hbusy]

section

variable {reads : Nat} {p0 p : PassJob} {u : State} (hp0 : (s.arr core.val arr.val).releasing = some p0)
  (hfree : (s.arr core.val arr.val).relFree ≤ cyc) (hu : s.readWefts core.val arr.val reads = u)
  (hp : (u.arr core.val arr.val).releasing.getD p0 = p)
include hp0 hfree hu hp

/-- The queue heads do not hold the vector of the beat: a bubble. -/
theorem beatRelease_bubbles (hhead : (u.arr core.val arr.val).headFor p = none) :
    Does (.beatRelease core arr cyc reads {}) s (u.addSat (ofArr arr.val F.CORE_A0_BUBBLES F.CORE_A1_BUBBLES) core.val 1) := by
  show execBeatRelease core arr cyc reads {} s = _
  simp only [execBeatRelease, hp0, if_neg (Nat.not_lt.2 hfree), State.arrEcc_none, State.splEcc_none, hu, hp, hhead]

/-- They hold it: a rule holds the beat back, or it is released. -/
theorem beatRelease_heads {v : Weft} (hhead : (u.arr core.val arr.val).headFor p = some v) :
    Does (.beatRelease core arr cyc reads {}) s
      (if (u.arr core.val arr.val).held p cyc then u.addSat (ofArr arr.val F.CORE_A0_HOLD F.CORE_A1_HOLD) core.val 1
        else u.release core.val arr.val p v cyc) := by
  show execBeatRelease core arr cyc reads {} s = _
  simp only [execBeatRelease, hp0, if_neg (Nat.not_lt.2 hfree), State.arrEcc_none, State.splEcc_none, hu, hp, hhead]
  exact (apply_ite ..).symm

end

end

/-- BEAT_RELEASE. -/
theorem arrayBeatRelease : ArrayBeatRelease := by
  intro core arr cyc reads s c n k u x
  refine ⟨beatRelease_idle, fun p0 hp0 hfree => ⟨beatRelease_bubbles hp0 hfree rfl rfl, fun v hhead => ?_⟩⟩
  have hstep := beatRelease_heads (cyc := cyc) hp0 hfree rfl rfl hhead
  refine ⟨fun hheld => ?held, fun hheld => ?enters⟩
  case held => rwa [if_pos hheld] at hstep
  case enters =>
    rw [if_neg (Bool.eq_false_iff.1 hheld)] at hstep
    exact ⟨_, hstep, release_enters u c n _ v cyc⟩

/-! ### The vat -/

theorem settle_flights (x : ArrState) (k : Nat) : (x.settle k).flights = x.flights := by
  induction k generalizing x with
  | zero => rfl
  | succ k ih =>
    unfold ArrState.settle
    split
    · rfl
    · split
      · exact ih _
      · rfl

section

variable {core : Fin 512} {arr : Fin 2} {cyc : Nat} {l : Flight}
  (hl : (takeVector (s.arr core.val arr.val).flights).1.getLast? = some l)
include hl

/-- From the 68th cycle after its last beat on, the oldest vector's musts are added. -/
theorem vatRowComplete_adds (hlast : l.last = true) (hcyc : l.rel + 68 ≤ cyc) :
    ∃ t, Does (.vatRowComplete core arr cyc {}) s t ∧
      (t.arr core.val arr.val).flights = (takeVector (s.arr core.val arr.val).flights).2 ∧
      (t.arr core.val arr.val).vat = (takeVector (s.arr core.val arr.val).flights).1.foldl addBeat (s.arr core.val arr.val).vat ∧
      t.mem = s.mem := by
  have hexec : exec (.vatRowComplete core arr cyc {}) s = execVatRowComplete core arr cyc {} s := rfl
  have hdue : (!l.last || decide (cyc < l.rel + 68)) = false := by simp [hlast, hcyc]
  simp only [execVatRowComplete, hl, hdue, Bool.false_eq_true, if_false, State.arrEcc_none] at hexec
  refine ⟨_, hexec, ?_, ?_, rfl⟩
  · rw [State.arr_setArr_same, settle_flights]
  · rw [State.arr_setArr_same]
    exact (settle_settled _ _).vat

/-- Before that cycle they wait. -/
theorem vatRowComplete_waits (hcyc : cyc < l.rel + 68) : Does (.vatRowComplete core arr cyc {}) s s := by
  show execVatRowComplete core arr cyc {} s = _
  have hwait : (!l.last || decide (cyc < l.rel + 68)) = true := by simp [hcyc]
  simp only [execVatRowComplete, hl, hwait, if_true]

end

/-- ROW_CLOCK_STOP and VAT_ROW_COMPLETE. -/
theorem arrayClocksAndVat : ArrayClocksAndVat :=
  ⟨fun _ _ _ _ => ⟨fun hstop => if_pos hstop, fun hrun => if_neg hrun⟩,
    fun _ _ _ _ _ hl hlast => ⟨vatRowComplete_adds hl hlast, vatRowComplete_waits hl⟩⟩

end Sys2Proof.Machine

/-! ## The epilogue's drain (R146, R182 to R185, R378) -/

namespace Sys2Proof.Machine
open Sys2Proof Sys2Proof.Claims

variable {s t : State} {c n : Nat} {d : Drain} {rest : List Drain}

/-! ### What leaves the cores as they were -/

theorem countEv_cores (s : State) (f : Fld) (i n b : Nat) : (s.countEv f i n b).cores = s.cores := by
  unfold State.countEv
  split
  · rfl
  · exact Logged.refl.raise.cores

theorem spoolRow_cores (s : State) (c a w : Nat) (bytes : List Byte) (pz : List Bool) : (s.spoolRow c a w bytes pz).cores = s.cores :=
  (Steady.both Steady.refl.writeBy Steady.refl.countErr).cores

/-- A row that is sent goes to the spool, to an operation, or nowhere with a count (R183, R344). -/
theorem emitRow_cores (s : State) (c n : Nat) (d : Drain) (i : Nat) (bytes : List Byte) (pz : List Bool) :
    (s.emitRow c n d i bytes pz).cores = s.cores := by
  unfold State.emitRow
  dsimp only
  split
  · exact spoolRow_cores ..
  split
  · split
    · split
      · rfl
      · exact countEv_cores ..
    · exact Steady.refl.issueOp.cores
  · rfl

/-! ### A row of the vat in its initial state -/

theorem Tab.get?_del_of_none {α : Type} {m : Tab α} {k j : Nat} (h : Tab.get? m j = none) : Tab.get? (Tab.del m k) j = none := by
  by_cases hj : j = k
  · rw [hj]
    exact Tab.get?_del_same m k
  · exact (Tab.get?_filter_of_true (p := fun k' => k' != k) (bne_iff_ne.2 hj)).trans h

theorem Tab.get?_foldl_del {α : Type} {key : Nat → Nat} {l : List Nat} {k : Nat} {m : Tab α} (h : k ∈ l ∨ Tab.get? m (key k) = none) :
    Tab.get? (l.foldl (fun t j => Tab.del t (key j)) m) (key k) = none := by
  induction l generalizing m with
  | nil => exact h.resolve_left List.not_mem_nil
  | cons j l ih =>
    refine ih ?_
    rcases h with h | h
    · rcases List.mem_cons.1 h with rfl | h
      · exact .inr (Tab.get?_del_same ..)
      · exact .inl h
    · exact .inr (Tab.get?_del_of_none h)

/-- The vat without the elements of a row. -/
def withoutRow (vat : Tab VatEl) (bank row : Nat) : Tab VatEl := (List.range 64).foldl (fun t j => Tab.del t (vatKey bank row j)) vat

theorem get?_withoutRow (vat : Tab VatEl) (bank row : Nat) : ∀ col < 64, Tab.get? (withoutRow vat bank row) (vatKey bank row col) = none :=
  fun _ hcol => Tab.get?_foldl_del (.inl (List.mem_range.2 hcol))

/-! ### One row -/

/-- What the drain of a row does not change of the drain itself, with the row that follows. -/
theorem drainRow_drain (s : State) (c n : Nat) (d : Drain) : (s.drainRow c n d).2.pass = d.pass ∧ (s.drainRow c n d).2.row = d.row + 1 ∧
    (s.drainRow c n d).2.last = d.last ∧ (s.drainRow c n d).2.epi = d.epi := by
  unfold State.drainRow
  dsimp only
  split
  · exact ⟨rfl, rfl, rfl, rfl⟩
  · exact ⟨rfl, rfl, rfl, rfl⟩

/-- A row that the pass did not address is not in the vat, and goes nowhere (R182). -/
theorem drainRow_unaddressed (s : State) (c n : Nat) (h : d.rows ≤ d.row) : (s.drainRow c n d).1 = s := by
  unfold State.drainRow
  dsimp only
  rw [if_pos h]

theorem drainRow_arr (s : State) (c n : Nat) (h : d.row < d.rows) : (s.drainRow c n d).1.arr c n =
    { s.arr c n with vat := withoutRow (s.arr c n).vat d.bank d.row } := by
  have hcores : (s.drainRow c n d).1.cores =
      (s.setArr c n { s.arr c n with vat := withoutRow (s.arr c n).vat d.bank d.row }).cores := by
    unfold State.drainRow
    dsimp only
    rw [if_neg (Nat.not_le.2 h)]
    refine Reports.refl.corePoison.cores.trans ((countEv_cores ..).trans ?_)
    split
    · rfl
    · exact emitRow_cores ..
  rw [State.arr_congr hcores, State.arr_setArr_same]

/-- The state with the first row of a drain drained, before the drain ends. -/
def rowDrained (s : State) (c n : Nat) (d : Drain) (rest : List Drain) : State :=
  (s.drainRow c n d).1.setArr c n { (s.drainRow c n d).1.arr c n with drains := (s.drainRow c n d).2 :: rest }

theorem rowDrained_drains (s : State) (c n : Nat) (d : Drain) (rest : List Drain) :
    ((rowDrained s c n d rest).arr c n).drains = (s.drainRow c n d).2 :: rest := by
  unfold rowDrained
  rw [State.arr_setArr_same]

/-- A row that the pass addressed returns to the initial state. -/
theorem rowDrained_vat (h : d.row < d.rows) (rest : List Drain) :
    ((rowDrained s c n d rest).arr c n).vat = withoutRow (s.arr c n).vat d.bank d.row := by
  unfold rowDrained
  rw [State.arr_setArr_same, drainRow_arr s c n h]

theorem rowDrained_unaddressed (h : d.rows ≤ d.row) (rest : List Drain) :
    ((rowDrained s c n d rest).arr c n).vat = (s.arr c n).vat ∧ (rowDrained s c n d rest).mem = s.mem := by
  unfold rowDrained
  rw [State.arr_setArr_same, drainRow_unaddressed s c n h]
  exact ⟨rfl, rfl⟩

/-! ### The end of a drain -/

/-- From `x` to `y` the drain at the front is over, and with a pass's last one the pass. -/
structure DrainOver (x : ArrState) (d : Drain) (y : ArrState) : Prop where
  drains : y.drains = x.drains.drop 1
  vat : y.vat = x.vat
  live : d.last = true → ∀ e ∈ y.live, e.1 ≠ d.pass

/-- A state with the cores of `s` whose drain ends; the next load may start. -/
theorem drained_over {u : State} (h : u.cores = s.cores) (c n : Nat) (d : Drain) :
    DrainOver (s.arr c n) d (((u.drained c n d).startLoad c n).arr c n) := by
  have hstart := arr_startLoad (u.drained c n d) c n
  unfold State.drained at hstart ⊢
  rw [State.arr_setArr_same, State.arr_congr h] at hstart
  rw [State.arr_congr h]
  refine ⟨hstart.drains, hstart.vat, fun hlast e he => ?_⟩
  rw [hstart.live, hlast, if_pos rfl] at he
  exact bne_iff_ne.1 (List.mem_filter.1 he).2

/-- Status word, lees map and counters leave the cores; so does all of the end of a drain but what it does to the array. -/
theorem drainEnd_eq (s : State) (c n : Nat) (h : d.epi.dest ≠ 5) : ∃ u : State,
    s.drainEnd c n d = (u.drained c n d).startLoad c n ∧ u.cores = s.cores := by
  refine ⟨_, rfl, ?_⟩
  have hwrite (b : Bool) (u : State) (a len : Nat) (bytes : List Byte) :
      (if b then (u.unitOow c a len).windowWrite c a bytes [] else u).cores = u.cores := by
    split
    · exact (windowWriteBy_cores ..).trans Reports.refl.unitOow.cores
    · rfl
  rw [if_neg h]
  split
  · exact (hwrite ..).trans (hwrite ..)
  · simp only [State.setFld_cores, State.addSat_cores, countEv_cores]
    exact (hwrite ..).trans (hwrite ..)

theorem drainEnd_over (s : State) (c n : Nat) (h : d.epi.dest ≠ 5) : DrainOver (s.arr c n) d ((s.drainEnd c n d).arr c n) := by
  obtain ⟨u, hu, hcores⟩ := drainEnd_eq s c n h
  rw [hu]
  exact drained_over hcores c n d

/-! ### A row of zeros -/

theorem drainZeros_more (h : d.row + 1 < d.rows) (rest : List Drain) :
    ((s.drainZeros c n d rest).arr c n).drains = { d with row := d.row + 1 } :: rest ∧
      ((s.drainZeros c n d rest).arr c n).vat = (s.arr c n).vat := by
  unfold State.drainZeros
  dsimp only
  rw [if_neg (Nat.not_le.2 h), State.arr_setArr_same, State.arr_congr (emitRow_cores ..)]
  exact ⟨rfl, rfl⟩

theorem drainZeros_last (h : d.rows ≤ d.row + 1) (rest : List Drain) :
    ((s.drainZeros c n d rest).arr c n).drains = rest ∧ ((s.drainZeros c n d rest).arr c n).vat = (s.arr c n).vat := by
  unfold State.drainZeros
  dsimp only
  rw [if_pos h]
  obtain ⟨hdrains, hvat, -⟩ := drained_over rfl c n { d with row := d.row + 1 }
  rw [hdrains, hvat, State.arr_setArr_same, State.arr_congr (emitRow_cores ..)]
  exact ⟨rfl, rfl⟩

/-! ### EPILOGUE_DRAIN -/

/-- The collective slice whose slots the tile's chunk waits for (R378). -/
def chunkWait (s : State) (d : Drain) : Option Nat :=
  if d.epi.dest = 5 ∧ d.row = 63 then s.tileWaits d.epi.heddle ((d.epi.tileSeq + d.tile) % 2 ^ 32) else none

section

variable {core : Fin 512} {arr : Fin 2} {cyc : Nat} {accept : Bool} (hd : (s.arr core.val arr.val).drains = d :: rest)
include hd

theorem epilogueDrain_stalls (h : chunkWait s d = none) (ha : s.canAccept core.val arr.val d accept = false) :
    Does (.epilogueDrain core arr cyc accept {}) s (s.addSat F.CORE_EPI_STALL core.val 1) := by
  show execEpilogueDrain core arr cyc accept {} s = _
  unfold chunkWait at h
  simp only [execEpilogueDrain, hd, h, ha, Bool.not_false, Bool.true_or, if_true]

theorem epilogueDrain_waits {q : Nat} (h : chunkWait s d = some q) :
    Does (.epilogueDrain core arr cyc accept {}) s ((s.addSat F.CORE_EPI_STALL core.val 1).addSat F.COLL_TILE_WAIT q 1) := by
  show execEpilogueDrain core arr cyc accept {} s = _
  unfold chunkWait at h
  simp only [execEpilogueDrain, hd, h, Option.isSome_some, Bool.or_true, if_true]

/-- What drains where nothing holds it back. -/
theorem epilogueDrain_drains (h : chunkWait s d = none) (ha : s.canAccept core.val arr.val d accept = true) :
    Does (.epilogueDrain core arr cyc accept {}) s
      (if d.zero then s.drainZeros core.val arr.val d rest
        else if d.row = 63 then (rowDrained s core.val arr.val d rest).drainEnd core.val arr.val (s.drainRow core.val arr.val d).2
        else rowDrained s core.val arr.val d rest) := by
  show execEpilogueDrain core arr cyc accept {} s = _
  have ⟨_, hnext, _, _⟩ := drainRow_drain s core.val arr.val d
  have hrow : (s.drainRow core.val arr.val d).2.row = 64 ↔ d.row = 63 := by omega
  unfold chunkWait at h
  simp only [execEpilogueDrain, hd, h, ha, Bool.not_true, Option.isSome_none, Bool.or_self, Bool.false_eq_true, if_false, State.arrEcc_none, hrow]
  split
  · rfl
  · rfl

end

theorem epilogueDrain_idle {core : Fin 512} {arr : Fin 2} {cyc : Nat} {accept : Bool} (h : (s.arr core.val arr.val).drains = []) :
    Does (.epilogueDrain core arr cyc accept {}) s s := by
  show execEpilogueDrain core arr cyc accept {} s = _
  simp only [execEpilogueDrain, h]

/-- EPILOGUE_DRAIN. -/
theorem epilogueDrainsOneRow : EpilogueDrainsOneRow := by
  intro core arr cyc accept s c n k
  refine ⟨epilogueDrain_idle, fun d rest hd => ⟨epilogueDrain_stalls hd, fun q => epilogueDrain_waits hd, fun hchunk haccept => ?_⟩⟩
  have hdoes := epilogueDrain_drains (cyc := cyc) hd hchunk haccept
  obtain ⟨hpass, hrow, hlast, hepi⟩ := drainRow_drain s c n d
  refine ⟨fun hzero hne => ?more, fun hzero h63 hdest => ?ends, fun hzero hmore => ?zeros, fun hzero hend => ?lastZeros⟩
  case more =>
    rw [hzero, if_neg Bool.false_ne_true, if_neg hne] at hdoes
    refine ⟨_, hdoes, ?_, fun h => rowDrained_vat h rest ▸ get?_withoutRow _ d.bank d.row, fun h => rowDrained_unaddressed h rest⟩
    rw [rowDrained_drains, ← hpass, ← hrow]
    rfl
  case ends =>
    rw [hzero, if_neg Bool.false_ne_true, if_pos h63] at hdoes
    obtain ⟨hdrains, hvat, hlive⟩ := drainEnd_over (rowDrained s c n d rest) c n (hepi ▸ hdest)
    rw [rowDrained_drains] at hdrains
    rw [hlast, hpass] at hlive
    exact ⟨_, hdoes, hdrains, hlive, fun h => hvat.trans (rowDrained_vat h rest) ▸ get?_withoutRow _ d.bank d.row⟩
  case zeros =>
    rw [hzero, if_pos rfl] at hdoes
    exact ⟨_, hdoes, drainZeros_more hmore rest⟩
  case lastZeros =>
    rw [hzero, if_pos rfl] at hdoes
    exact ⟨_, hdoes, drainZeros_last hend rest⟩

/-- Settles O12: an equation of the state for each command; what a row sends, and the status that ends a tile, leave the array as it is. When the
weft vectors are read, and how many rows of zeros a reserved pass has, are the model's choice (log entries 14 and 117). -/
theorem arrayBeatsAndEpilogue : Obligations.ArrayBeatsAndEpilogue := ⟨arrayBeatRelease, arrayClocksAndVat, epilogueDrainsOneRow⟩

end Sys2Proof.Machine

/-! ## The frame of a scalar instruction (R222, R237, R239)

Every scalar instruction goes through `State.issue`, which moves the strand on, reports, and runs the instruction's body. `ScalarFrame i s t` is
what all of that leaves alone where the body writes only sd, the program counter and the rounding key of the strand. -/

namespace Sys2Proof.Machine
open Sys2Proof Sys2Proof.Claims

/-- From `s` to `t` the core of `i` has changed in no strand but that of `i`, and the strand in no scalar register but sd. -/
structure ScalarFrame (i : Issue) (s t : State) : Prop extends VecFrame i s t where
  strands : ∀ n, n ≠ i.strand.val → t.strand i.core.val n = s.strand i.core.val n
  sregs : ∀ n, n ≠ i.d.val → t.sreg i.core.val i.strand.val n = s.sreg i.core.val i.strand.val n
  v : (t.core i.core.val).v = (s.core i.core.val).v

namespace ScalarFrame

variable {i : Issue} {s₀ s t : State}

theorem refl : ScalarFrame i s s := ⟨.refl, fun _ _ => rfl, fun _ _ => rfl, rfl⟩

theorem both {c : Prop} [Decidable c] (hs : ScalarFrame i s₀ s) (ht : ScalarFrame i s₀ t) : ScalarFrame i s₀ (if c then s else t) := by
  split
  · exact hs
  · exact ht

/-- Counting and reporting keep the frame. -/
theorem noted (h : ScalarFrame i s₀ s) (hn : Noted s t) : ScalarFrame i s₀ t := by
  have hcore : t.core i.core.val = s.core i.core.val := congrArg (fun u => u.core i.core.val) hn
  have hstrand : ∀ n, t.strand i.core.val n = s.strand i.core.val n := fun n => congrArg (fun u => u.strand i.core.val n) hn
  refine ⟨h.toVecFrame.noted hn, fun n hne => (hstrand n).trans (h.strands n hne), fun n hne => ?_, (congrArg CoreState.v hcore).trans h.v⟩
  rw [State.sreg, hstrand]
  exact h.sregs n hne

theorem addSat {f : Fld} {j n : Nat} (h : ScalarFrame i s₀ s) : ScalarFrame i s₀ (s.addSat f j n) := h.noted Noted.refl.setFld
theorem countEv {f : Fld} {j n b : Nat} (h : ScalarFrame i s₀ s) : ScalarFrame i s₀ (s.countEv f j n b) := h.noted Noted.refl.countEv
theorem strRsvd {c : Nat} (h : ScalarFrame i s₀ s) : ScalarFrame i s₀ (s.strRsvd c) := h.countEv
theorem fault (h : ScalarFrame i s₀ s) : ScalarFrame i s₀ s.fault := both h ⟨⟨h.rest, h.others, h.core⟩, h.strands, h.sregs, h.v⟩
theorem strEcc {c : Nat} {e : Ecc} (h : ScalarFrame i s₀ s) : ScalarFrame i s₀ (s.strEcc c e) := both h.countEv.countEv h.countEv.countEv.fault

/-! ### Writes to the strand -/

/-- The strand of `i` takes a context whose scalar registers differ in sd alone. -/
theorem setStrand {x : Strand} (h : ScalarFrame i s₀ s) (hx : ∀ n, n ≠ i.d.val → x.reg n = (s.strand i.core.val i.strand.val).reg n) :
    ScalarFrame i s₀ (s.setStrand i.core.val i.strand.val x) := by
  refine ⟨h.toVecFrame.setStrand, fun n hne => ?_, fun n hne => ?_, ?_⟩
  · rw [State.strand_setStrand_other _ _ (.inr hne)]
    exact h.strands n hne
  · rw [State.sreg, State.strand_setStrand_same, hx n hne]
    exact h.sregs n hne
  · rw [State.core_setStrand_same]
    exact h.v

theorem wd {v : Nat} (h : ScalarFrame i s₀ s) : ScalarFrame i s₀ (s.wd i v) := by
  refine h.setStrand fun n hne => ?_
  simpa only [State.wd, State.setSreg, State.sreg, State.strand_setStrand_same] using s.sreg_wd_other i v hne

theorem srDone {rm : Nat} (h : ScalarFrame i s₀ s) : ScalarFrame i s₀ (s.srDone i.core.val i.strand.val rm) := both (h.setStrand fun _ _ => rfl) h
theorem jumpTo {base : Nat} (h : ScalarFrame i s₀ s) : ScalarFrame i s₀ (s.jumpTo i base) := h.setStrand fun _ _ => rfl

theorem advance (h : ScalarFrame i s₀ s) : ScalarFrame i s₀ (s.advance i.core.val i.strand.val) := by
  refine ⟨h.toVecFrame.advance, fun n hne => ?_, fun n hne => ?_, ?_⟩
  · rw [State.strand_advance_other _ (.inr hne)]
    exact h.strands n hne
  · rw [State.sreg_advance]
    exact h.sregs n hne
  · rw [State.core_advance_same]
    exact h.v

/-! ### Issue -/

section

variable {op : Nat} {ok : Bool}

/-- An instruction keeps the frame where its body does. -/
theorem issue {body : State → State} (h : ScalarFrame i s₀ s) (hbody : ∀ u, ScalarFrame i s₀ u → ScalarFrame i s₀ (body u)) :
    ScalarFrame i s₀ (s.issue op i ok body) :=
  both (both (hbody _ h.advance.strEcc) h.advance.strEcc.strRsvd) h

theorem alu {f : Nat → Nat → Nat} (h : ScalarFrame i s₀ s) : ScalarFrame i s₀ (s.alu op i f) := h.issue fun _ => wd
theorem aluDiv {f : Nat → Nat → Nat} (h : ScalarFrame i s₀ s) : ScalarFrame i s₀ (s.aluDiv op i f) :=
  h.issue fun _ hu => both hu.wd.addSat hu.wd

theorem branch {cond : Nat → Nat → Bool} (h : ScalarFrame i s₀ s) : ScalarFrame i s₀ (s.branch op i cond) := by
  unfold State.branch
  exact h.issue fun _ hu => both hu.jumpTo hu

theorem sfOp {two : Bool} {f : State → Val → Val → Val} (h : ScalarFrame i s₀ s) : ScalarFrame i s₀ (s.sfOp op i two f) :=
  h.issue fun _ hu => both hu.wd.srDone hu.wd.strRsvd

end

/-- The frame of the state that a command answers. -/
theorem of_next (h : ScalarFrame i s t) {u : State} (hd : (.next t : Host.Outcome State Fault Refusal) = .next u) : ScalarFrame i s u :=
  Host.Outcome.next.inj hd ▸ h

end ScalarFrame

/-- The instructions of the strand engine that move no data and start or stop no strand. -/
def scalarInstrs (i : Issue) : List Instr :=
  [.nop i, .add i, .sub i, .mul i, .mulh i, .div i, .rem i, .and i, .or i, .xor i, .sll i, .srl i, .sra i, .slt i, .sltu i, .li i, .beq i,
    .bne i, .blt i, .bge i, .bltu i, .bgeu i, .jal i, .jalr i, .sfadd i, .sfsub i, .sfmul i, .sfma i, .sfdiv i, .sfsqrt i, .sfcvt i, .sfcmp i,
    .rdid i, .rdcyc i, .rdtemp i]

/-- Each of them keeps the frame, since its body is made of operations that do. -/
theorem scalarFrame_of_does {i : Issue} {s t : State} : ∀ k ∈ scalarInstrs i, Does k s t → ScalarFrame i s t := by
  have h : ScalarFrame i s s := .refl
  simp only [scalarInstrs, List.forall_mem_cons]
  refine ⟨?nop, ?add, ?sub, ?mul, ?mulh, ?div, ?rem, ?and, ?or, ?xor, ?sll, ?srl, ?sra, ?slt, ?sltu, ?li, ?beq, ?bne, ?blt, ?bge, ?bltu, ?bgeu,
    ?jal, ?jalr, ?sfadd, ?sfsub, ?sfmul, ?sfma, ?sfdiv, ?sfsqrt, ?sfcvt, ?sfcmp, ?rdid, ?rdcyc, ?rdtemp, fun _ hk => absurd hk List.not_mem_nil⟩
  case nop => exact (h.issue fun _ => id).of_next
  case add | sub | mul | mulh | and | or | xor | sll | srl | sra | slt | sltu => exact h.alu.of_next
  case div | rem => exact h.aluDiv.of_next
  case beq | bne | blt | bge | bltu | bgeu => exact h.branch.of_next
  case jal | jalr => exact (h.issue fun _ hu => hu.wd.jumpTo).of_next
  case sfadd | sfsub | sfmul | sfma | sfdiv | sfsqrt | sfcvt => exact h.sfOp.of_next
  case sfcmp => exact (h.issue fun _ hu => .both hu.wd.srDone hu.wd.strRsvd).of_next
  case li | rdid | rdcyc | rdtemp => exact (h.issue fun _ => .wd).of_next

/-- Settles O9: moving on, reporting and the body each keep the frame. -/
theorem scalarInstructionFrame : Obligations.ScalarInstructionFrame := by
  intro i s t k hk hd
  obtain ⟨⟨hrest, hothers, -, -, harr, howner⟩, hstrands, hsregs, hv⟩ := scalarFrame_of_does k hk hd
  exact ⟨(congrArg State.mem hrest :), (congrArg State.poison hrest :), (congrArg State.nor hrest :), (congrArg (fun u => u.host.mem) hrest :),
    (congrArg State.shadow hrest :), (congrArg State.armed hrest :), (congrArg (fun u => u.pick.num) hrest :),
    (congrArg (fun u => u.pick.work) hrest :), (congrArg State.solvers hrest :), (congrArg State.cellar hrest :), (congrArg State.upd hrest :),
    (congrArg State.fab hrest :), (congrArg State.links hrest :), (congrArg State.colls hrest :), (congrArg State.field hrest :),
    (congrArg State.power hrest :), hothers, hstrands, hsregs, howner, harr, hv⟩

end Sys2Proof.Machine

/-! ## Storage errors of an instruction (R246) -/

namespace Sys2Proof.Machine
open Sys2Proof Sys2Proof.Claims

variable {s : State}

/-- A counter with an event leaves the fields at other places that no event writes. -/
theorem fld_countEv_other {f g : Fld} {i j : Nat} (hg : g.offLog = true) (hne : g.key j ≠ f.key i) (s : State) (n b : Nat) :
    (s.countEv f i n b).fld g j = s.fld g j := by
  unfold State.countEv
  split
  · rfl
  · rw [Logged.refl.raise.fld_eq hg]
    exact State.fld_setFld_other _ _ hne

/-- A counter at a place that no event writes goes up by `n`, and stops at its greatest value. -/
theorem countEv_counts_of_offLog {f : Fld} (hf : f.offLog = true) (s : State) (i n b : Nat) : Counts f i n s (s.countEv f i n b) := by
  intro hlt
  unfold State.countEv
  split
  next h => omega
  next h =>
    rw [Logged.refl.raise.fld_eq hf]
    simp only [State.addSat, State.fld_setFld_same, satAdd]
    exact Nat.mod_eq_of_lt (by omega)

/-- A count does not depend on what else changes before and after it. -/
theorem counts_congr {f : Fld} {i n : Nat} {s' t t' : State} (h : Counts f i n s t) (hs : s'.fld f i = s.fld f i) (ht : t'.fld f i = t.fld f i) :
    Counts f i n s' t' := by
  unfold Counts
  rw [hs, ht]
  exact h

/-- A fault changes no register. -/
theorem fault_fld (s : State) (f : Fld) (i : Nat) : s.fault.fld f i = s.fld f i := cause_fld s 2 f i

/-- The count of uncorrectable errors stands apart from the other counters of the strand engine. -/
theorem key_uncorr_ne {f : Fld} (hf : f ∈ [F.CORE_STR_ISSUED, F.CORE_STR_ECC_CORR, F.CORE_STR_RSVD]) (c : Nat) :
    F.CORE_STR_ECC_UNCORR.key c ≠ f.key c := by
  have hplace : F.CORE_STR_ECC_UNCORR.ty = f.ty ∧ F.CORE_STR_ECC_UNCORR.apart f = true :=
    (by decide : ∀ f ∈ [F.CORE_STR_ISSUED, F.CORE_STR_ECC_CORR, F.CORE_STR_RSVD], F.CORE_STR_ECC_UNCORR.ty = f.ty ∧
      F.CORE_STR_ECC_UNCORR.apart f = true) f hf
  exact Fld.key_ne hplace.1 hplace.2 c

/-- The device will vote LATE with FAULT, and the uncorrectable errors of `i` have been counted (R246). -/
structure Faulted (i : Issue) (s t : State) : Prop where
  cause : bitOf t.pick.causes 2 = true
  counts : Counts F.CORE_STR_ECC_UNCORR i.core.val i.ecc.uncorr s t

/-- A fault stays where neither the pick nor the count of uncorrectable errors changes. -/
theorem Faulted.congr {i : Issue} {t u : State} (h : Faulted i s t) (hpick : u.pick = t.pick)
    (hfld : u.fld F.CORE_STR_ECC_UNCORR i.core.val = t.fld F.CORE_STR_ECC_UNCORR i.core.val) : Faulted i s u :=
  ⟨hpick ▸ h.cause, counts_congr h.counts rfl hfld⟩

section

variable {i : Issue} (he : i.ecc.uncorr ≠ 0)
include he

theorem strEcc_faulted (s : State) : Faulted i s (s.strEcc i.core.val i.ecc) := by
  have hcorr : (s.countEv F.CORE_STR_ECC_CORR i.core.val i.ecc.corr Ev.CORE_STR_CORR).fld F.CORE_STR_ECC_UNCORR i.core.val =
      s.fld F.CORE_STR_ECC_UNCORR i.core.val := fld_countEv_other (by decide) (key_uncorr_ne (by decide) _) ..
  have hcount := countEv_counts_of_offLog (f := F.CORE_STR_ECC_UNCORR) (by decide)
    (s.countEv F.CORE_STR_ECC_CORR i.core.val i.ecc.corr Ev.CORE_STR_CORR) i.core.val i.ecc.uncorr Ev.CORE_STR_UNCORR
  unfold State.strEcc
  rw [if_neg he]
  exact ⟨bitOf_cause_same _ 2, counts_congr hcount hcorr.symm (fault_fld ..)⟩

/-- The fault of an instruction that issues, where its body writes neither the pick nor a register. -/
theorem issue_faulted {op : Nat} {ok : Bool} {body : State → State} (hc : s.canIssue op i = true)
    (hbody : ∀ u, (body u).pick = u.pick ∧ (body u).regs = u.regs) : Faulted i s (s.issue op i ok body) := by
  have hmoved : (s.advance i.core.val i.strand.val).fld F.CORE_STR_ECC_UNCORR i.core.val = s.fld F.CORE_STR_ECC_UNCORR i.core.val :=
    State.fld_advance s (key_uncorr_ne (by decide) _)
  have hissued : Faulted i s ((s.advance i.core.val i.strand.val).strEcc i.core.val i.ecc) := by
    obtain ⟨hcause, hcount⟩ := strEcc_faulted he (s.advance i.core.val i.strand.val)
    exact ⟨hcause, counts_congr hcount hmoved.symm rfl⟩
  unfold State.issue
  dsimp only
  rw [if_pos hc]
  split
  · obtain ⟨hpick, hregs⟩ := hbody ((s.advance i.core.val i.strand.val).strEcc i.core.val i.ecc)
    exact hissued.congr hpick (State.fld_congr hregs ..)
  · have hrsvd (u : State) : Noted u (u.strRsvd i.core.val) := Noted.refl.countEv
    exact hissued.congr (hrsvd _).pick (fld_countEv_other (by decide) (key_uncorr_ne (by decide) _) ..)

end

/-- Settles O10: the error is judged before the instruction's body, which writes neither the pick nor a register. -/
theorem storageErrorFaults : Obligations.StorageErrorFaults := by
  intro i s hst hwait he
  have hissue {op : Nat} {ok : Bool} {body : State → State} {k : Instr} (hk : exec k s = .next (s.issue op i ok body))
      (hbody : ∀ u, (body u).pick = u.pick ∧ (body u).regs = u.regs) (hf : fetched op i s) :
      ∃ t, Does k s t ∧ bitOf t.pick.causes 2 = true ∧ Counts F.CORE_STR_ECC_UNCORR i.core.val i.ecc.uncorr s t := by
    have hir : (s.strand i.core.val i.strand.val).ir = some (wordOf op i) := hf
    obtain ⟨hcause, hcount⟩ := issue_faulted he (s := s) (op := op) (ok := ok) (by simp [State.canIssue, hst, hwait, hir]) hbody
    exact ⟨_, hk, hcause, hcount⟩
  simp only [List.forall_mem_cons]
  refine ⟨?nop, ?add, ?sub, ?mul, ?and, ?or, ?xor, ?li, ?beq, ?jal, ?rdcyc, fun _ hp => absurd hp List.not_mem_nil⟩
  case beq =>
    refine hissue (body := fun t => if t.ra i == t.rb i then t.jumpTo i (s.strand i.core.val i.strand.val).pc else t) rfl fun u => ?_
    split
    · exact ⟨rfl, rfl⟩
    · exact ⟨rfl, rfl⟩
  case nop | add | sub | mul | and | or | xor | li | jal | rdcyc =>
    refine hissue rfl ?_
    exact fun _ => ⟨rfl, rfl⟩

end Sys2Proof.Machine

/-! ## Strand control and waits (R227 to R229, R231, R234) -/

namespace Sys2Proof.Machine
open Sys2Proof Sys2Proof.Claims

variable {s : State} {i : Issue}

/-! ### Owners -/

theorem Tab.mem_of_get? {α : Type} {m : Tab α} {k : Nat} {v : α} (h : Tab.get? m k = some v) : (k, v) ∈ m := by
  induction m with
  | nil => cases h
  | cons e m ih =>
    by_cases hk : e.1 = k
    · obtain rfl : e.2 = v := by simpa [Tab.get?, hk] using h
      simp [← hk]
    · exact List.mem_cons_of_mem _ (ih (by simpa [Tab.get?, hk] using h))

/-- Every unit of a list that is given to `g` belongs to it. -/
theorem Tab.get?_foldl_set {l : List Nat} {n g : Nat} {o : Tab Nat} (h : n ∈ l ∨ Tab.get? o n = some g) :
    Tab.get? (l.foldl (fun o u => Tab.set o u g) o) n = some g := by
  induction l generalizing o with
  | nil => simpa using h
  | cons u l ih =>
    refine ih ?_
    by_cases hu : n = u
    · rw [hu]
      exact .inr (Tab.get?_set_same ..)
    · rw [Tab.get?_set_other _ _ hu]
      simpa [hu] using h

/-- The owners after those that were `t` have passed to `h`, or have gone. -/
def inherited (t : Nat) (h : Option Nat) (o : Tab Nat) : Tab Nat := o.filterMap fun e => if e.2 = t then h.map fun p => (e.1, p) else some e

theorem get?_inherited {t n p : Nat} {o : Tab Nat} (h : Tab.get? o n = some t) : Tab.get? (inherited t (some p) o) n = some p := by
  induction o with
  | nil => cases h
  | cons e o ih =>
    by_cases hn : e.1 = n
    · have ht : e.2 = t := by simpa [Tab.get?, hn] using h
      simp [inherited, ht, Tab.get?, hn]
    · have hrest := ih (by simpa [Tab.get?, hn] using h)
      by_cases ht : e.2 = t
      · simpa [inherited, ht, Tab.get?, hn] using hrest
      · simpa [inherited, ht, Tab.get?, hn] using hrest

theorem get?_inherited_ne {t n : Nat} {h : Option Nat} (hne : h ≠ some t) (o : Tab Nat) : Tab.get? (inherited t h o) n ≠ some t := by
  intro hget
  obtain ⟨e, -, he⟩ := List.mem_filterMap.1 (Tab.mem_of_get? hget)
  split at he
  · obtain ⟨p, hp, hpe⟩ := Option.map_eq_some_iff.1 he
    exact hne (hp.trans (congrArg some (congrArg Prod.snd hpe :)))
  next ht => exact ht (congrArg Prod.snd (Option.some.inj he) :)

/-! ### Contexts of strands -/

/-- A core that keeps its strands. -/
theorem strand_setCore {c : Nat} {x : CoreState} (hx : x.strands = (s.core c).strands) (n : Nat) : (s.setCore c x).strand c n = s.strand c n := by
  rw [State.strand, State.core_setCore_same, hx]
  rfl

/-- A strand whose scalar registers stay. -/
theorem sreg_setStrand {c t : Nat} {x : Strand} (hx : x.regs = (s.strand c t).regs) (n k : Nat) :
    (s.setStrand c t x).sreg c n k = s.sreg c n k := by
  by_cases hn : n = t
  · rw [hn, State.sreg, State.strand_setStrand_same, Strand.reg, hx]
    rfl
  · rw [State.sreg, State.strand_setStrand_other _ _ (.inr hn)]
    rfl

theorem heir_congr {t : State} {c : Nat} (h : ∀ n, t.strand c n = s.strand c n) (n : Nat) : t.heir c n = s.heir c n := by
  simp only [State.heir, h]

/-! ### SPAWN and END -/

/-- The context that SPAWN starts (R222, R227). -/
def spawned (s : State) (i : Issue) (pc : Nat) : Strand :=
  let x := s.strand i.core.val i.strand.val
  { st := .running, pc := wrapInt 64 (pc + 8 * immS i), regs := s.taskRegs i.core.val (s.ra i), inst := (s.core i.core.val).spawns + 1,
    chain := (i.strand.val, x.inst) :: x.chain }

theorem strand_spawn (s : State) (i : Issue) (pc n : Nat) :
    (s.spawn i pc).strand i.core.val n = (s.setStrand i.core.val (modBits i 4 3) (spawned s i pc)).strand i.core.val n := by
  unfold State.spawn
  exact strand_setCore (by rfl) n

theorem strand_spawn_same (s : State) (i : Issue) (pc : Nat) : (s.spawn i pc).strand i.core.val (modBits i 4 3) = spawned s i pc := by
  rw [strand_spawn, State.strand_setStrand_same]

theorem strand_spawn_other {n : Nat} (hn : n ≠ modBits i 4 3) (s : State) (pc : Nat) :
    (s.spawn i pc).strand i.core.val n = s.strand i.core.val n := by
  rw [strand_spawn, State.strand_setStrand_other _ _ (.inr hn)]

/-- The units named pass to TARGET (R227). -/
theorem owns_spawn {n : Nat} (hn : n ∈ spawnUnits i) (s : State) (pc : Nat) : (s.spawn i pc).owns i.core.val (modBits i 4 3) n = true := by
  unfold State.owns State.spawn
  dsimp only
  rw [State.core_setCore_same, beq_iff_eq]
  exact Tab.get?_foldl_set (.inl hn)

theorem strand_endAt (s : State) (c t n : Nat) :
    (s.endAt c t).strand c n = (s.setStrand c t { s.strand c t with st := .ended, wait := none, ir := none }).strand c n := by
  unfold State.endAt
  exact strand_setCore (by rfl) n

theorem strand_endAt_same (s : State) (c t : Nat) :
    (s.endAt c t).strand c t = { s.strand c t with st := .ended, wait := none, ir := none } := by
  rw [strand_endAt, State.strand_setStrand_same]

/-- The heir of a strand that has ended runs, so it is another strand (R228). -/
theorem heir_endAt_ne (s : State) (c t : Nat) : (s.endAt c t).heir c t ≠ some t := by
  intro h
  obtain ⟨e, hfind, het⟩ := Option.map_eq_some_iff.1 h
  have hrun := List.find?_some hfind
  simp [het, strand_endAt_same] at hrun

theorem owner_endAt (s : State) (c t : Nat) :
    ((s.endAt c t).core c).owner = inherited t ((s.endAt c t).heir c t) (s.core c).owner := by
  rw [heir_congr (strand_endAt s c t) t]
  unfold State.endAt
  dsimp only
  rw [State.core_setCore_same, State.core_setStrand_same]
  rfl

/-! ### Waits -/

section

variable {op : WaitOp} {ok : Bool} (hr : ready i s) (hf : fetched op.code i s) (hok : ok = true)
include hr hf hok

/-- A waiting instruction that is satisfied issues. -/
theorem waitIssue_of_met (h : s.waitMet op i = true) :
    s.waitIssue op i ok = if op = .spawn then (went i s).spawn i (pcOf i s) else went i s := by
  unfold State.waitIssue
  dsimp only
  rw [h, Bool.not_true, Bool.and_false, if_neg Bool.false_ne_true, State.issue_ready s i _ (ready_canIssue hr hf) hr.2.2 hok]
  rfl

/-- One that is not stops its strand. -/
theorem waitIssue_of_unmet (h : s.waitMet op i = false) :
    s.waitIssue op i ok = s.setStrand i.core.val i.strand.val { s.strand i.core.val i.strand.val with wait := some (op, i) } := by
  unfold State.waitIssue
  dsimp only
  rw [h, ready_canIssue hr hf, hok]
  rfl

end

/-- Whether a waiting instruction is satisfied does not depend on what its strand waits for. -/
theorem waitMet_setWait (s : State) (op : WaitOp) (i : Issue) (w : Option (WaitOp × Issue)) :
    (s.setStrand i.core.val i.strand.val { s.strand i.core.val i.strand.val with wait := w }).waitMet op i = s.waitMet op i := by
  have hsreg := sreg_setStrand (s := s) (c := i.core.val) (t := i.strand.val) (x := { s.strand i.core.val i.strand.val with wait := w }) rfl
  cases op with
  | spawn =>
    by_cases hg : modBits i 4 3 = i.strand.val
    · simp only [State.waitMet, hg, State.strand_setStrand_same]
    · simp only [State.waitMet, State.strand_setStrand_other _ _ (.inr hg)]
  | sync =>
    have hinc (u : Nat) : (s.setStrand i.core.val i.strand.val { s.strand i.core.val i.strand.val with wait := w }).incomplete i.core.val
        i.strand.val u = s.incomplete i.core.val i.strand.val u := by
      unfold State.incomplete
      rw [State.core_setStrand_same]
      rfl
    simp only [State.waitMet, hinc]
  | waits =>
    refine decide_eq_decide.2 ?_
    rw [State.ra, hsreg, State.core_setStrand_same]
    rfl
  | sigwait =>
    have hview : SameView s (s.setStrand i.core.val i.strand.val { s.strand i.core.val i.strand.val with wait := w }) := SameView.refl.setCore
    refine decide_eq_decide.2 ?_
    rw [State.ra, State.rb, hsreg, hsreg, hview.windowRead_eq]
    rfl

/-! ### SPAWN, END, the waits and RELS -/

section

variable (hr : ready i s)
include hr

/-- A SPAWN that starts its strand (R227): TARGET's context, the spawner's program counter, and the units that pass. -/
theorem spawn_starts (hok : s.spawnOk i = true) (hst : (s.strand i.core.val (modBits i 4 3)).st ≠ .running) (hf : fetched 0x28 i s) :
    ∃ u, Does (.spawn i) s u ∧ u.strand i.core.val (modBits i 4 3) = spawned (went i s) i (pcOf i s) ∧ pcOf i u = (pcOf i s + 8) % 2 ^ 64 ∧
      ∀ n ∈ spawnUnits i, u.owns i.core.val (modBits i 4 3) n = true := by
  have hmet : s.waitMet .spawn i = true := bne_iff_ne.2 hst
  have hother : i.strand.val ≠ modBits i 4 3 := by
    simp only [State.spawnOk, Bool.and_eq_true, bne_iff_ne] at hok
    exact fun h => hok.1.2 h.symm
  refine ⟨(went i s).spawn i (pcOf i s), congrArg _ (waitIssue_of_met (op := .spawn) hr hf hok hmet), strand_spawn_same .., ?_,
    fun n hn => owns_spawn hn ..⟩
  rw [pcOf, strand_spawn_other hother, went, State.strand_advance_same]
  rfl

/-- An END stops its strand, and its units pass to its heir (R228). -/
theorem endStrand_ends (hok : unusedZero i false false false 0 0 = true) (hf : fetched 0x29 i s) :
    Does (.endStrand i) s ((went i s).endAt i.core.val i.strand.val) :=
  congrArg _ (State.issue_ready s i _ (ready_canIssue hr hf) hr.2.2 hok)

/-- RELS raises RELEASED of its stream (R234). -/
theorem rels_raises (hok : unusedZero i false true false 0 4 = true) (hf : fetched 0x2C i s) :
    ∃ u, Does (.rels i) s u ∧ (Tab.get ({} : Stream) (u.core i.core.val).streams (immBits i 0 4)).released =
      max (Tab.get ({} : Stream) (s.core i.core.val).streams (immBits i 0 4)).released (s.ra i % 2 ^ 32) := by
  have hdoes : exec (.rels i) s = execRels i s := rfl
  unfold execRels at hdoes
  dsimp only at hdoes
  rw [State.issue_ready s i _ (ready_canIssue hr hf) hr.2.2 hok] at hdoes
  refine ⟨_, hdoes, ?_⟩
  rw [State.core_setCore_same, Tab.get_set_same, State.ra_advance, State.core_advance_same]

end

/-- The registers of Table 8.1 that SPAWN passes on. -/
theorem reg_spawned (s : State) (i : Issue) (pc : Nat) : (spawned s i pc).reg 1 = s.ra i % 2 ^ 64 ∧
    (spawned s i pc).reg 2 = s.pick.work % 2 ^ 64 ∧ (spawned s i pc).reg 3 = i.core.val := by
  refine ⟨?_, ?_, ?_⟩ <;> simp [spawned, State.taskRegs, Strand.reg, Tab.get, Tab.get?]
  omega

/-- SPAWN, END, the waits and RELS. -/
theorem strandControl : StrandControl := by
  intro i s hr
  dsimp only
  have hsat {op : WaitOp} {ok : Bool} (hop : op ≠ .spawn) (hok : ok = true) (h : s.waitMet op i = true) (hf : fetched op.code i s) :
      s.waitIssue op i ok = went i s := (waitIssue_of_met hr hf hok h).trans (if_neg hop)
  refine ⟨fun hok hst hf => ?starts, fun hok hst hf => ?waits, fun hok hf => ?ends, fun hok => ?sync, fun hok => ?waitsOn,
    fun hok ha hw => ?sigwait, rels_raises hr⟩
  case starts =>
    obtain ⟨u, hdoes, hg, hpc, hown⟩ := spawn_starts hr hok hst hf
    obtain ⟨h1, h2, h3⟩ := reg_spawned (went i s) i (pcOf i s)
    have hx : (went i s).strand i.core.val i.strand.val = _ := State.strand_advance_same ..
    refine ⟨u, hdoes, by rw [hg]; rfl, by rw [hg]; rfl, ?_, ?_, ?_, ?_, hpc, hown⟩
    · rw [State.sreg, hg, h1, went, State.ra_advance]
    · rw [State.sreg, hg, h2]
      rfl
    · rw [State.sreg, hg, h3]
    · rw [hg, spawned, hx]
  case waits => exact congrArg _ (waitIssue_of_unmet (op := .spawn) hr hf hok (bne_eq_false_iff_eq.2 hst))
  case ends =>
    refine ⟨_, endStrand_ends hr hok hf, ?_, rfl, fun n => ?_, fun n p hown hheir => ?_⟩
    · rw [strand_endAt_same]
    · rw [State.owns, owner_endAt, beq_eq_false_iff_ne]
      exact get?_inherited_ne (heir_endAt_ne _ _ _) _
    · rw [← owns_went, State.owns, beq_iff_eq] at hown
      rw [State.owns, owner_endAt, hheir, beq_iff_eq]
      exact get?_inherited hown
  case sync =>
    exact ⟨fun h hf => congrArg _ (hsat (op := .sync) (by decide) hok h hf), fun h hf => congrArg _ (waitIssue_of_unmet (op := .sync) hr hf hok h)⟩
  case waitsOn =>
    exact ⟨fun h hf => congrArg _ (hsat (op := .waits) (by decide) hok h hf),
      fun h hf => congrArg _ (waitIssue_of_unmet (op := .waits) hr hf hok h)⟩
  case sigwait =>
    have hok' : (unusedZero i false true true 0 0 && s.ra i % 8 == 0 && inWindow i.core.val (s.ra i) 8) = true := by rw [hok, ha, hw]; rfl
    exact ⟨fun h hf => congrArg _ (hsat (op := .sigwait) (by decide) hok' h hf),
      fun h hf => congrArg _ (waitIssue_of_unmet (op := .sigwait) hr hf hok' h)⟩

/-! ### STRAND_WAIT_RELEASE -/

/-- The strand of `i` no longer waits. -/
def released (i : Issue) (s : State) : State :=
  s.setStrand i.core.val i.strand.val { s.strand i.core.val i.strand.val with wait := none }

theorem strand_released (i : Issue) (s : State) :
    (released i s).strand i.core.val i.strand.val = { s.strand i.core.val i.strand.val with wait := none } := State.strand_setStrand_same ..

/-- A strand goes on as if its waiting instruction had only now been issued. -/
theorem strandWaitRelease_eq {op : WaitOp} (hst : (s.strand i.core.val i.strand.val).st = .running)
    (hwait : (s.strand i.core.val i.strand.val).wait = some (op, i)) :
    exec (.strandWaitRelease i.core i.strand) s = .next (if s.waitMet op i = true then (released i s).waitIssue op i true else s) := by
  show execStrandWaitRelease i.core i.strand s = _
  unfold execStrandWaitRelease
  dsimp only
  rw [hwait]
  by_cases h : s.waitMet op i = true
  · rw [if_pos h]
    exact if_pos ⟨hst, h⟩
  · rw [if_neg h]
    exact if_neg fun hc => h hc.2

theorem strandWaitEnds : StrandWaitEnds := by
  intro i op s
  dsimp only
  intro hecc hst hwait hf
  have hexec := strandWaitRelease_eq hst hwait
  have hx := strand_released i s
  have hready : ready i (released i s) := by
    refine ⟨?_, ?_, hecc⟩
    · rw [hx]
      exact hst
    · rw [hx]
  have hfetched : fetched op.code i (released i s) := by
    unfold fetched
    rw [hx]
    exact hf
  have hmet : (released i s).waitMet op i = s.waitMet op i := waitMet_setWait s op i none
  have hpc : pcOf i (released i s) = pcOf i s := by
    unfold pcOf
    rw [hx]
  have hwent : (went i (released i s)).strand i.core.val i.strand.val =
      { s.strand i.core.val i.strand.val with pc := (pcOf i s + 8) % 2 ^ 64, wait := none, ir := none } := by
    rw [went, State.strand_advance_same, hx]
    rfl
  refine ⟨fun h => ?stays, fun h hop => ?goes, fun h hop hg => ?spawns⟩
  case stays => rwa [h, if_neg Bool.false_ne_true] at hexec
  all_goals rw [if_pos h, waitIssue_of_met hready hfetched rfl (hmet.trans h)] at hexec
  case goes =>
    rw [if_neg hop] at hexec
    refine ⟨_, hexec, by rw [hwent], by rw [pcOf, hwent], fun n => ?_⟩
    rw [went, State.sreg_advance, State.sreg, hx]
    rfl
  case spawns =>
    rw [if_pos hop, hpc] at hexec
    refine ⟨_, hexec, ?_, ?_, ?_, ?_⟩
    · rw [strand_spawn_other (Ne.symm hg), hwent]
    · rw [pcOf, strand_spawn_other (Ne.symm hg), hwent]
    · rw [strand_spawn_same]
      rfl
    · rw [strand_spawn_same]
      rfl

/-- Settles O6: each instruction and each release is an equation of the state after it. -/
theorem strandControlAndWaits : Obligations.StrandControlAndWaits := ⟨strandControl, strandWaitEnds⟩

end Sys2Proof.Machine

/-! ## Reads of memory by an engine (R29, R33, R282, R293)

A read leaves the memories as they are: what it changes is the caches' lines, and the registers that count hits, misses and failed accesses.
`Accessed s t` says that this is all that happens from `s` to `t`; a later read then gives what it would have given before. -/

namespace Sys2Proof.Machine
open Sys2Proof Sys2Proof.Claims

variable {s₀ s t u : State}

/-- Offsets of registers that an access writes: a page's events and errors, BLOCKED_CNT, DROP_CNT, HIT_CNT, MISS_CNT and SCRIPT_ERR. -/
def accessOffs : List Nat := [0x018, 0x028, 0x02C, 0x030, 0x088, 0x09C, 0x0A4, 0x0A8, 0x0AC]

/-- The registers that an access writes: those, and HOST.HWIN_ERR. -/
def accessKey (k : Nat) : Prop := keyOff k ∈ accessOffs ∨ k = F.HOST_HWIN_ERR.key 0

theorem accessKey_of_off {f : Fld} {i : Nat} (hl : f.lo < 32) (ho : f.off ∈ accessOffs) : accessKey (f.key i) := by
  have hlt : f.off < 4096 := (by decide : ∀ o ∈ accessOffs, o < 4096) _ ho
  refine .inl ?_
  rwa [keyOff_key hlt hl]

/-- The event and error registers that every page has (Table 2.3). -/
theorem accessKey_common (ty i : Nat) :
    ∀ f ∈ [F.ERR_CNT ty, F.ERR_FIRST ty, F.ERR_INFO_ADDR_HI ty, F.ERR_INFO_CODE ty, F.ERR_INFO_AGENT ty], accessKey (f.key i) := by
  intro f hf
  have hplace : f.lo < 32 ∧ f.off ∈ accessOffs := by
    simp only [List.mem_cons, List.not_mem_nil, or_false] at hf
    rcases hf with rfl | rfl | rfl | rfl | rfl <;>
      simp [accessOffs, F.ERR_CNT, F.ERR_FIRST, F.ERR_INFO_ADDR_HI, F.ERR_INFO_CODE, F.ERR_INFO_AGENT]
  exact accessKey_of_off hplace.1 hplace.2

theorem accessKey_of_logKey {k : Nat} (h : logKey k) : accessKey k := by
  rcases h with h | rfl
  · exact .inl (by simp [h, accessOffs])
  · exact .inl (by decide)

/-- A place of a register that no access writes. -/
abbrev Fld.offAccess (f : Fld) : Prop := f.off < 4096 ∧ f.lo < 32 ∧ f.off ∉ accessOffs ∧ f.off ≠ 0x090

theorem not_accessKey_of_offAccess {f : Fld} (h : f.offAccess) (i : Nat) : ¬accessKey (f.key i) := by
  obtain ⟨hoff, hlo, hne, hwin⟩ := h
  rintro (hk | hk)
  · exact hne (by rwa [keyOff_key hoff hlo] at hk)
  · have := congrArg keyOff hk
    rw [keyOff_key hoff hlo, keyOff_key (by decide) (by decide)] at this
    exact hwin this

theorem not_accessKey_of_viewKey {k : Nat} (h : viewKey k) : ¬accessKey k := by
  rintro (hk | rfl)
  · simp only [accessOffs, List.mem_cons, List.not_mem_nil, or_false] at hk
    unfold viewKey at h
    omega
  · revert h
    unfold viewKey
    decide

/-- A spool belongs to one of the 512 cores (R26). -/
theorem core_of_spool {a c : Nat} (h : regionOf a = .spool c) : c < 512 := by
  unfold regionOf at h
  split_ifs at h with _ _ hspool
  cases h
  unfold spoolBase at hspool ⊢
  omega

/-- From `s` to `t` only registers that an access writes, outputs, records and the caches' lines have changed. -/
structure Accessed (s t : State) : Prop where
  rest : Noted s { t with cellar := { t.cellar with lines := s.cellar.lines } }
  regs : ∀ k, ¬accessKey k → Tab.get? t.regs k = Tab.get? s.regs k

namespace Accessed

theorem refl : Accessed s s := ⟨rfl, fun _ _ => rfl⟩

theorem trans (h : Accessed s t) (h' : Accessed t u) : Accessed s u :=
  ⟨(congrArg (fun v => s.withLogOf { v with cellar := { v.cellar with lines := s.cellar.lines } }) h'.rest :).trans h.rest,
    fun k hk => (h'.regs k hk).trans (h.regs k hk)⟩

theorem mem (h : Accessed s t) : t.mem = s.mem := (congrArg State.mem h.rest :)
theorem cores (h : Accessed s t) : t.cores = s.cores := (congrArg State.cores h.rest :)
theorem fab (h : Accessed s t) : t.fab = s.fab := (congrArg State.fab h.rest :)

theorem fld_eq (h : Accessed s t) {f : Fld} (hf : f.offAccess) (i : Nat) : t.fld f i = s.fld f i := by
  unfold State.fld Tab.get
  rw [h.regs _ (not_accessKey_of_offAccess hf i)]

/-- An access leaves what the memories show. -/
theorem view (h : Accessed s t) : SameView s t :=
  ⟨h.mem, (congrArg State.poison h.rest :), (congrArg (fun v => v.host.mem) h.rest :), (congrArg (fun v => v.host.poison) h.rest :),
    (congrArg State.upd h.rest :), (congrArg (fun v => v.cellar.granules) h.rest :), (congrArg (fun v => v.pick.work) h.rest :),
    fun k hk => h.regs k (not_accessKey_of_viewKey hk)⟩

theorem both {c : Prop} [Decidable c] (hs : Accessed s₀ s) (ht : Accessed s₀ t) : Accessed s₀ (if c then s else t) := by
  split
  · exact hs
  · exact ht

theorem foldl {α : Type} {g : State → α → State} {l : List α} (h : Accessed s₀ s) (hg : ∀ t x, Accessed s₀ t → Accessed s₀ (g t x)) :
    Accessed s₀ (l.foldl g s) := by
  induction l generalizing s with
  | nil => exact h
  | cons x l ih => exact ih (hg s x h)

/-! ### Counting and reporting -/

theorem setFld {f : Fld} {i v : Nat} (h : Accessed s₀ s) (hk : accessKey (f.key i)) : Accessed s₀ (s.setFld f i v) := by
  refine ⟨h.rest, fun k hne => (Tab.get?_set_other _ _ ?_).trans (h.regs k hne)⟩
  rintro rfl
  exact hne hk

/-- Events and records. -/
theorem logged (h : Accessed s₀ s) (hl : Logged s t) : Accessed s₀ t :=
  h.trans ⟨(congrArg (fun v => s.withLogOf { v with cellar := { v.cellar with lines := s.cellar.lines } }) hl.rest :),
    fun k hk => hl.regs k fun hlog => hk (accessKey_of_logKey hlog)⟩

theorem raise {ty i b : Nat} (h : Accessed s₀ s) : Accessed s₀ (s.raise ty i b) := h.logged Logged.refl.raise
theorem raiseIf {c : Bool} {ty i b : Nat} (h : Accessed s₀ s) : Accessed s₀ (s.raiseIf c ty i b) := both h.raise h

theorem countErr {ty i code value agent : Nat} (h : Accessed s₀ s) : Accessed s₀ (s.countErr ty i code value agent) := by
  have hk := accessKey_common ty i
  have hcnt {v : Nat} : Accessed s₀ (s.setFld (F.ERR_CNT ty) i v) := h.setFld (hk _ (by simp))
  refine both h (raiseIf (raise (both ?_ hcnt)))
  exact (((hcnt.setFld (hk _ (by simp))).setFld (hk _ (by simp))).setFld (hk _ (by simp))).setFld (hk _ (by simp))

theorem countEv {f : Fld} {i n b : Nat} (h : Accessed s₀ s) (hk : accessKey (f.key i)) : Accessed s₀ (s.countEv f i n b) :=
  both h (h.setFld hk).raise

theorem countUnavail {page : Nat × Nat} {addr agent : Nat} (h : Accessed s₀ s) : Accessed s₀ (s.countUnavail page addr agent) :=
  both h.countErr (both (h.countEv (accessKey_of_off (f := F.COLL_SCRIPT_ERR) (by decide) (by decide))).countErr h.countErr)

theorem countAccess {page : Nat × Nat} {status addr agent : Nat} {part : Option Nat} (h : Accessed s₀ s) :
    Accessed s₀ (s.countAccess page status addr agent part) := by
  refine both h.countErr (both ?_ (both h.countUnavail h))
  dsimp only
  split
  · exact h.countErr.countEv (accessKey_of_off (f := F.PART_BLOCKED_CNT) (by decide) (by decide))
  · exact h.countErr

theorem accessDone {page : Nat × Nat} {agent : Nat} {part : Option Nat} {x : Acs} (h : Accessed s₀ s) :
    Accessed s₀ (s.accessDone page agent part x) :=
  countAccess (both (h.countEv (.inr rfl)) h)

/-! ### The caches -/

theorem setLines {l : Tab CacheLine} (h : Accessed s₀ s) : Accessed s₀ { s with cellar := { s.cellar with lines := l } } := ⟨h.rest, h.regs⟩

theorem touchLine {p a n : Nat} {write : Bool} (h : Accessed s₀ s) : Accessed s₀ (s.touchLine p a n write) :=
  both (both (h.setFld (accessKey_of_off (f := F.CELLAR_HIT_CNT) (by decide) (by decide)))
    (h.setFld (accessKey_of_off (f := F.CELLAR_MISS_CNT) (by decide) (by decide)))).setLines h

theorem touch {who : Option Nat} {write : Bool} {a n : Nat} (h : Accessed s₀ s) : Accessed s₀ (s.touch who write a n) := by
  unfold State.touch
  split
  · exact h
  · exact h.foldl fun _ _ => touchLine

theorem engineRead {c a n : Nat} (h : Accessed s₀ s) : Accessed s₀ (s.engineRead c a n []).1 := both h.touch.countErr h.touch

/-! ### What a later read gives -/

/-- The registers that decide what a partition may reach (R31, R32, R444). -/
def mapFlds : List Fld :=
  [F.PART_DRAM_RNG_VALID, F.PART_DRAM_RNG_BASE, F.PART_DRAM_RNG_COUNT, F.PART_DRAM_RNG_SHARED_RO, F.PART_CORE_MAP, F.HOST_HWIN_BASE_LO,
    F.HOST_HWIN_BASE_HI, F.HOST_HWIN_LEN, F.HOST_HWIN_CTL_VALID, F.HOST_HWIN_CTL_SHARED, F.HOST_HWIN_CTL_PART]

theorem map_fld_eq (h : Accessed s t) {f : Fld} {k : Nat} (hf : f ∈ mapFlds) (hk : k < 16) (i : Nat) : t.fld (f.nth k) i = s.fld (f.nth k) i := by
  obtain ⟨hlo, hoff, hend, hstride⟩ := (by decide : ∀ f ∈ mapFlds, f.lo < 32 ∧ 0x0C0 ≤ f.off ∧ f.off ≤ 0x140 ∧ f.stride ≤ 16) f hf
  have hspan : k * f.stride ≤ 15 * 16 := Nat.mul_le_mul (by omega) hstride
  have hn : (f.nth k).off = f.off + k * f.stride := rfl
  refine h.fld_eq (f := f.nth k) ⟨by omega, hlo, fun hmem => ?_, by omega⟩ i
  have := (by decide : ∀ o ∈ accessOffs, o < 0x0C0) _ hmem
  omega

theorem dramRange_eq (h : Accessed s t) (p a : Nat) (shared : Bool) : t.dramRange p a shared = s.dramRange p a shared := by
  have hrange {k : Nat} (hk : k < 8) : (t.rangeHas p k a && t.flag (F.PART_DRAM_RNG_SHARED_RO.nth k) p == shared) =
      (s.rangeHas p k a && s.flag (F.PART_DRAM_RNG_SHARED_RO.nth k) p == shared) := by
    have hfld {f : Fld} (hf : f ∈ mapFlds) := h.map_fld_eq hf (show k < 16 by omega) p
    unfold State.rangeHas State.flag
    rw [hfld (f := F.PART_DRAM_RNG_VALID) (by decide), hfld (f := F.PART_DRAM_RNG_BASE) (by decide),
      hfld (f := F.PART_DRAM_RNG_COUNT) (by decide), hfld (f := F.PART_DRAM_RNG_SHARED_RO) (by decide)]
  unfold State.dramRange
  rw [Bool.eq_iff_iff, List.any_eq_true, List.any_eq_true]
  exact exists_congr fun k => and_congr_right fun hk => by rw [hrange (List.mem_range.1 hk)]

theorem dramShared_eq (h : Accessed s t) (a : Nat) : t.dramShared a = s.dramShared a := by
  unfold State.dramShared
  simp only [h.dramRange_eq]

theorem granOwned_eq (h : Accessed s t) (p g : Nat) : t.granOwned p g = s.granOwned p g := by
  unfold State.granOwned
  rw [h.fld_eq (f := F.PART_GRAN_OWN0) (by decide), h.fld_eq (f := F.PART_GRAN_OWN1) (by decide)]

theorem granSharedAny_eq (h : Accessed s t) (g : Nat) : t.granSharedAny g = s.granSharedAny g := by
  unfold State.granSharedAny State.granShared
  simp only [h.granOwned_eq, h.fld_eq (f := F.PART_GRAN_SHRO0) (by decide),
    h.fld_eq (f := F.PART_GRAN_SHRO1) (by decide)]

theorem corePart_eq (h : Accessed s t) {c : Nat} (hc : c < 512) : t.corePart c = s.corePart c := by
  unfold State.corePart
  simp only [h.map_fld_eq (f := F.PART_CORE_MAP) (by decide) (show c / 32 < 16 by omega)]

theorem hwinOf_eq (h : Accessed s t) (p a : Nat) : t.hwinOf (some p) a = s.hwinOf (some p) a := by
  have hctl : t.fld F.HOST_HOST_CTL 0 = s.fld F.HOST_HOST_CTL 0 := h.view.fld_eq (.inr (.inl (by decide)))
  have hlink : t.fld F.HOST_LINK_STAT_LINK_UP 0 = s.fld F.HOST_LINK_STAT_LINK_UP 0 := h.view.fld_eq (.inl (by decide))
  unfold State.hwinOf State.flag
  rw [hctl, hlink, List.find?_congr fun k hk => ?_]
  have hfld {f : Fld} (hf : f ∈ mapFlds) := h.map_fld_eq hf (show k < 16 from Nat.lt_trans (List.mem_range.1 hk) (by decide)) 0
  rw [hfld (f := F.HOST_HWIN_BASE_LO) (by decide), hfld (f := F.HOST_HWIN_BASE_HI) (by decide), hfld (f := F.HOST_HWIN_LEN) (by decide),
    hfld (f := F.HOST_HWIN_CTL_VALID) (by decide), hfld (f := F.HOST_HWIN_CTL_SHARED) (by decide), hfld (f := F.HOST_HWIN_CTL_PART) (by decide)]

theorem checkMap_eq (h : Accessed s t) (p : Nat) (write : Bool) (a : Nat) : t.checkMap (some p) write a = s.checkMap (some p) write a := by
  have hgran (g : Nat) : t.granule g = s.granule g := by
    unfold State.granule
    rw [h.view.granules]
  unfold State.checkMap
  cases hr : regionOf a with
  | spool c => simp only [h.corePart_eq (core_of_spool hr)]
  | _ => simp only [h.dramShared_eq, h.dramRange_eq, hgran, h.granSharedAny_eq, h.granOwned_eq, h.hwinOf_eq]

theorem check_eq (h : Accessed s t) (who : Option Nat) (write : Bool) (a : Nat) (coll : Bool) :
    t.check who write a coll = s.check who write a coll := by
  cases who with
  | none => exact h.view.check_none_eq write a coll
  | some p =>
    unfold State.check
    rw [h.checkMap_eq, h.view.landingSlice_eq, h.view.unavailAt_eq, h.view.boundGran_eq]

/-- A read gives what it would have given before the access. -/
theorem readMem_eq (h : Accessed s t) (who : Option Nat) (a n : Nat) : t.readMem who a n = s.readMem who a n := by
  unfold State.readMem State.checkAll
  simp only [h.check_eq, h.view.blockBytes_eq, h.view.blockPoison_eq]

end Accessed

end Sys2Proof.Machine

/-! ## Instruction fetches (R232, R239, R245) -/

namespace Sys2Proof.Machine
open Sys2Proof Sys2Proof.Claims

variable {s t : State}

/-! ### INSTRUCTION_FETCH -/

/-- The address of a strand's next instruction word (R245). -/
def fetchAddr (s : State) (c n : Nat) : Nat :=
  (s.fld F.CORE_IMG_BASE_LO c * 8 + s.fld F.CORE_IMG_BASE_HI c * 2 ^ 32 + (s.strand c n).pc) % 2 ^ 64

/-- The word there, as the strand's core reads it. -/
def wordAt (s : State) (c n : Nat) : Rd := s.readMem (some (s.core c).part) (fetchAddr s c n) 8

/-- A word at `a` cannot be fetched (R245). -/
abbrev unfetchable (s : State) (c a : Nat) : Prop :=
  a % 8 ≠ 0 ∨ 2 ^ 48 ≤ a ∨ (s.checkAll (some (s.core c).part) false a 8).st = 1 ∨ (s.checkAll (some (s.core c).part) false a 8).st = 2

/-- The state in which a strand's next word has been read. -/
def wordRead (s : State) (c n : Nat) : State :=
  (s.touch (some (s.core c).part) false (fetchAddr s c n) 8).accessDone (1, c) 0x0B (some (s.core c).part) (wordAt s c n).acs

theorem wordRead_accessed (s : State) (c n : Nat) : Accessed s (wordRead s c n) := Accessed.refl.touch.accessDone

/-- The state in which the access for a word that cannot be fetched has been counted: one that is not aligned is not made. -/
def wordRefused (s : State) (c a : Nat) : State :=
  if a % 8 = 0 then
    s.accessDone (1, c) 0x0B (some (s.core c).part) (if a < 2 ^ 48 then s.checkAll (some (s.core c).part) false a 8 else ⟨1, a⟩)
  else s

theorem wordRefused_accessed (s : State) (c a : Nat) : Accessed s (wordRefused s c a) := .both Accessed.refl.accessDone .refl

/-- A fetch error counts. -/
def fetchFailed (s : State) (c : Nat) : State := s.countEv F.CORE_STR_FETCH_ERR c 1 Ev.CORE_STR_FETCH

theorem fetchFailed_counts (h : Accessed s t) (c : Nat) : Counts F.CORE_STR_FETCH_ERR c 1 s (fetchFailed t c) :=
  counts_congr (countEv_counts_of_offLog (by decide) t c 1 Ev.CORE_STR_FETCH) (h.fld_eq (by decide) c).symm rfl

/-- Ending a strand changes no register. -/
theorem fld_endAt (s : State) (c n : Nat) (f : Fld) (j : Nat) : (s.endAt c n).fld f j = s.fld f j := rfl

/-- Taking in poison leaves the registers that no event writes. -/
theorem fld_poisoned {f : Fld} (hf : f.offLog = true) (s : State) (ty i j : Nat) : (s.poisoned ty i).fld f j = s.fld f j :=
  (fault_fld ..).trans (Logged.refl.raise.fld_eq hf j)

/-- A reserved encoding's count leaves the strands and the memory. -/
theorem strand_strRsvd (s : State) (c d n : Nat) : (s.strRsvd c).strand d n = s.strand d n := State.strand_congr (countEv_cores ..) ..

theorem mem_strRsvd (s : State) (c : Nat) : (s.strRsvd c).mem = s.mem := (congrArg State.mem (Noted.refl.countEv : Noted s (s.strRsvd c)) :)

theorem mem_advance (s : State) (c n : Nat) : (s.advance c n).mem = s.mem := rfl

theorem strRsvd_counts (s : State) (c : Nat) : Counts F.CORE_STR_RSVD c 1 s (s.strRsvd c) :=
  countEv_counts_of_offLog (by decide) s c 1 Ev.CORE_STR_RSVD

/-- What a fetch that meets no storage error does: with what cannot be fetched, a poisoned word, a word of a listed opcode, and any other. -/
def fetchOutcome (s : State) (c n : Nat) : State :=
  if unfetchable s c (fetchAddr s c n) then (fetchFailed (wordRefused s c (fetchAddr s c n)) c).endAt c n
  else if (wordAt s c n).poison ≠ [] then ((fetchFailed (wordRead s c n) c).poisoned 1 c).endAt c n
  else if listedOp (leNat (wordAt s c n).data / 2 ^ 56) = true then
    (wordRead s c n).setStrand c n { (wordRead s c n).strand c n with ir := some (leNat (wordAt s c n).data) }
  else ((wordRead s c n).advance c n).strRsvd c

/-- A word of a listed opcode waits for the command of its instruction. -/
theorem fetchOutcome_of_listed {c n : Nat} (hok : ¬unfetchable s c (fetchAddr s c n)) (hpz : (wordAt s c n).poison = [])
    (hlisted : listedOp (leNat (wordAt s c n).data / 2 ^ 56) = true) :
    ((fetchOutcome s c n).strand c n).ir = some (leNat (wordAt s c n).data) ∧ ((fetchOutcome s c n).strand c n).pc = (s.strand c n).pc ∧
      (fetchOutcome s c n).mem = s.mem := by
  have hread := wordRead_accessed s c n
  rw [fetchOutcome, if_neg hok, if_neg (not_not_intro hpz), if_pos hlisted, State.strand_setStrand_same, State.setStrand_mem,
    State.strand_congr hread.cores]
  exact ⟨rfl, rfl, hread.mem⟩

/-- A word of an opcode that is not listed passes as NOP, and counts. -/
theorem fetchOutcome_of_unlisted {c n : Nat} (hok : ¬unfetchable s c (fetchAddr s c n)) (hpz : (wordAt s c n).poison = [])
    (hlisted : listedOp (leNat (wordAt s c n).data / 2 ^ 56) = false) :
    ((fetchOutcome s c n).strand c n).ir = none ∧ ((fetchOutcome s c n).strand c n).pc = ((s.strand c n).pc + 8) % 2 ^ 64 ∧
      Counts F.CORE_STR_RSVD c 1 s (fetchOutcome s c n) ∧ (fetchOutcome s c n).mem = s.mem := by
  have hread := wordRead_accessed s c n
  have hkey : F.CORE_STR_RSVD.key c ≠ F.CORE_STR_ISSUED.key c := Fld.key_ne (by decide) (by decide) c
  have hcount : ((wordRead s c n).advance c n).fld F.CORE_STR_RSVD c = s.fld F.CORE_STR_RSVD c :=
    (State.fld_advance _ hkey).trans (hread.fld_eq (by decide) _)
  rw [fetchOutcome, if_neg hok, if_neg (not_not_intro hpz), hlisted, if_neg Bool.false_ne_true, strand_strRsvd, State.strand_advance_same,
    State.strand_congr hread.cores, mem_strRsvd, mem_advance]
  exact ⟨rfl, rfl, counts_congr (strRsvd_counts ((wordRead s c n).advance c n) c) hcount.symm rfl, hread.mem⟩

/-- A word that cannot be fetched, or is poisoned, ends the strand and counts. -/
theorem fetchOutcome_fails {c n : Nat} (hfail : unfetchable s c (fetchAddr s c n) ∨ (wordAt s c n).poison ≠ []) :
    ((fetchOutcome s c n).strand c n).st = .ended ∧ Counts F.CORE_STR_FETCH_ERR c 1 s (fetchOutcome s c n) := by
  have hended (u : State) : ((u.endAt c n).strand c n).st = .ended := by rw [strand_endAt_same]
  by_cases hok : unfetchable s c (fetchAddr s c n)
  · rw [fetchOutcome, if_pos hok]
    exact ⟨hended _, counts_congr (fetchFailed_counts (wordRefused_accessed s c (fetchAddr s c n)) c) rfl (fld_endAt ..)⟩
  · rw [fetchOutcome, if_neg hok, if_pos (hfail.resolve_left hok)]
    exact ⟨hended _, counts_congr (fetchFailed_counts (wordRead_accessed ..) c) rfl ((fld_endAt ..).trans (fld_poisoned (by decide) ..))⟩

/-- A running strand that needs its next word, whose read does not wait, fetches it. -/
theorem instructionFetch_eq {core : Fin 512} {strand : Fin 8} (hst : (s.strand core.val strand.val).st = .running)
    (hir : (s.strand core.val strand.val).ir = none) (hwait : (s.strand core.val strand.val).wait = none)
    (hacc : s.accWaits false (fetchAddr s core.val strand.val) 8 = false) :
    Does (.instructionFetch core strand {}) s (fetchOutcome s core.val strand.val) := by
  have hgo : ¬((s.strand core.val strand.val).st ≠ .running ∨ (s.strand core.val strand.val).ir ≠ none ∨
      (s.strand core.val strand.val).wait ≠ none) := by simp [hst, hir, hwait]
  show execInstructionFetch core strand {} s = _
  unfold execInstructionFetch fetchOutcome
  unfold fetchAddr at hacc
  dsimp only
  rw [if_neg hgo, hacc, if_neg Bool.false_ne_true, State.strEcc_none, show (s.eccAt _ _ 8 _) = (s, []) from rfl, List.isEmpty_nil, Bool.and_true]
  have hpoison (r : Rd) : (!r.poison.isEmpty) = true ↔ r.poison ≠ [] := by simp
  simp only [hpoison, apply_ite Host.Outcome.next]
  rfl

theorem instructionFetchResult : InstructionFetchResult := by
  intro core strand s c x a who r k ok hst hir hwait hacc
  have hdoes := instructionFetch_eq hst hir hwait hacc
  have hfetched (hok : ok) : ¬unfetchable s c (fetchAddr s c strand.val) ∧ r.poison = [] := by
    obtain ⟨halign, hreach, hst0, hpz⟩ := hok
    refine ⟨?_, hpz⟩
    rintro (h | h | h | h)
    · exact h halign
    · exact absurd hreach (Nat.not_lt.2 h)
    · exact Nat.zero_ne_one (hst0.symm.trans h)
    · exact absurd (hst0.symm.trans h) (by decide)
  refine ⟨fun hok hlisted => ?_, fun hok hlisted => ?_, fun hfail => ?_⟩
  · obtain ⟨hreach, hpz⟩ := hfetched hok
    exact ⟨_, hdoes, fetchOutcome_of_listed hreach hpz hlisted⟩
  · obtain ⟨hreach, hpz⟩ := hfetched hok
    exact ⟨_, hdoes, fetchOutcome_of_unlisted hreach hpz hlisted⟩
  · refine ⟨_, hdoes, fetchOutcome_fails ?_⟩
    rcases hfail with h | h | h | h | h
    · exact .inl (.inl h)
    · exact .inl (.inr (.inl h))
    · exact .inl (.inr (.inr (.inl h)))
    · exact .inl (.inr (.inr (.inr h)))
    · exact .inr h

/-! ### FETCH -/

theorem fetchJoinsStream : FetchJoinsStream := by
  intro i s b hr hspl hroom hok hdesc hgood hlines hf
  have hdoes : exec (.fetch i) s = execFetch i s := rfl
  unfold execFetch at hdoes
  dsimp only at hdoes
  rw [hroom, if_neg Bool.false_ne_true, State.issue_ready s i _ (ready_canIssue hr hf) hr.2.2 hok, hspl, State.splEcc_none, State.ra_advance] at hdoes
  unfold went at hdesc hgood
  have hlines' : FDesc.lines { fdescOf b with strand := i.strand.val } ≠ 0 := hlines
  simp only [hdesc, State.corePoison_false, hgood, Bool.false_eq_true, if_false, if_neg hlines'] at hdoes
  refine ⟨_, hdoes, ?_⟩
  rw [State.core_setCore_same, Tab.get_set_same, State.core_advance_same]

end Sys2Proof.Machine

/-! ## Operations that leave for other devices (R345, R349, R352)

An operation issued, sent or retired changes the fabric's state, the links, and what is only noted. -/

namespace Sys2Proof.Machine
open Sys2Proof Sys2Proof.Claims

variable {s₀ s t u : State}

/-- From `s` to `t` only links, registers, outputs and records have changed. -/
def Flown (s t : State) : Prop := Noted s { t with links := s.links }

namespace Flown

theorem ofNoted (h : Noted s t) : Flown s t := (congrArg (fun v => { v with links := s.links }) h :)
theorem trans (h : Flown s t) (h' : Flown t u) : Flown s u :=
  (congrArg (fun v => s.withLogOf { v with links := s.links }) h' :).trans h

theorem fab (h : Flown s t) : t.fab = s.fab := (congrArg State.fab h :)

theorem linkSend {l : Nat} {f : Flit} (h : Flown s₀ s) : Flown s₀ (s.linkSend l f) := h
theorem emit {m : Msg} (h : Flown s₀ s) : Flown s₀ (s.emit m) := h
theorem countEv {f : Fld} {i n b : Nat} (h : Flown s₀ s) : Flown s₀ (s.countEv f i n b) := h.trans (ofNoted Noted.refl.countEv)

theorem foldl {α : Type} {g : State → α → State} {l : List α} (h : Flown s₀ s) (hg : ∀ t x, Flown s₀ t → Flown s₀ (g t x)) :
    Flown s₀ (l.foldl g s) := by
  induction l generalizing s with
  | nil => exact h
  | cons x l ih => exact ih (hg s x h)

theorem sendFlits {dest seq vc n : Nat} {x : FlitLoad} {m : Msg} (h : Flown s₀ s) : Flown s₀ (s.sendFlits dest seq vc n x m) := by
  unfold State.sendFlits
  split
  · exact h.emit
  · split
    · exact h.countEv
    · exact (h.foldl fun _ _ => linkSend).emit

end Flown

/-- From `s` to `t` only the fabric, links, registers, outputs and records have changed. -/
def Sent (s t : State) : Prop := Flown s { t with fab := s.fab }

namespace Sent

theorem refl : Sent s s := Flown.ofNoted .refl
theorem trans (h : Sent s t) (h' : Sent t u) : Sent s u :=
  (congrArg (fun v => s.withLogOf { v with links := s.links, fab := s.fab }) h' :).trans h

theorem ofFlown (h : Flown s t) : Sent s t := (congrArg (fun v => { v with fab := s.fab }) h :)

theorem mem (h : Sent s t) : t.mem = s.mem := (congrArg State.mem h :)
theorem cores (h : Sent s t) : t.cores = s.cores := (congrArg State.cores h :)

theorem setFab {x : FabState} (h : Sent s₀ s) : Sent s₀ { s with fab := x } := h

theorem trySend {id : Nat} (h : Sent s₀ s) : Sent s₀ (s.trySend id) := by
  unfold State.trySend
  split
  · exact h
  · split
    · exact h
    · dsimp only
      split
      · exact trans h.setFab (ofFlown (Flown.ofNoted .refl).sendFlits)
      · exact h

theorem issueOp {who : Issuer} {d : OpDesc} {part : Option Nat} {data : List Byte} {pz : List Nat} {repair : Option RepairOp} (h : Sent s₀ s) :
    Sent s₀ (s.issueOp who d part data pz repair).1 := by
  unfold State.issueOp
  dsimp only
  split
  · exact h.setFab
  · exact h.setFab.trySend

theorem askLine {c slot : Nat} {d : FDesc} {l : List (Nat × Nat)} {dst : Nat} (h : Sent s₀ s) : Sent s₀ (s.askLine c slot d dst l).1 := by
  induction l generalizing s dst with
  | nil => exact h
  | cons p l ih => exact ih h.issueOp

end Sent

/-! ### The operations issued -/

theorem sendFlits_fab (s : State) (dest seq vc n : Nat) (x : FlitLoad) (m : Msg) : (s.sendFlits dest seq vc n x m).fab = s.fab :=
  (Flown.ofNoted .refl).sendFlits.fab

/-- Sending makes no operation an issued one. -/
theorem issued_trySend_of_none {id k : Nat} (h : Tab.get? s.fab.issued k = none) : Tab.get? (s.trySend id).fab.issued k = none := by
  unfold State.trySend
  split
  · exact h
  next o ho =>
    have hne : k ≠ id := by
      rintro rfl
      exact Option.some_ne_none _ (ho.symm.trans h)
    split
    · exact h
    · dsimp only
      split
      · unfold State.sendOp
        rw [sendFlits_fab]
        exact (Tab.get?_set_other _ _ hne).trans h
      · exact h

theorem issued_sendWaiting_of_none {n k : Nat} (h : Tab.get? s.fab.issued k = none) : Tab.get? (s.sendWaiting n).fab.issued k = none :=
  List.foldlRecOn (motive := fun t : State => Tab.get? t.fab.issued k = none) _ _ h fun _ ht _ _ => issued_trySend_of_none ht

/-- An operation that retires is no longer issued. -/
theorem issued_retire {id : Nat} {o : IssuedOp} (h : Tab.get? s.fab.issued id = some o) : Tab.get? (s.retire id).fab.issued id = none := by
  unfold State.retire
  rw [h]
  dsimp only
  split
  · exact Tab.get?_del_same ..
  · exact issued_sendWaiting_of_none (Tab.get?_del_same ..)

theorem askLine_length (s : State) (c slot : Nat) (d : FDesc) (dst : Nat) (l : List (Nat × Nat)) :
    (s.askLine c slot d dst l).2.length = l.length := by
  induction l generalizing s dst with
  | nil => rfl
  | cons p l ih => exact congrArg (· + 1) (ih ..)

/-- What a line of device `dev` asks for: nothing where it is the own device. -/
theorem asked_length (s : State) (c slot : Nat) (d : FDesc) (dst : Nat) (l : List (Nat × Nat)) :
    (if (d.dev != s.ownDev) = true then s.askLine c slot d dst l else (s, [])).2.length = if d.dev = s.ownDev then 0 else l.length := by
  by_cases h : d.dev = s.ownDev
  · simp [h]
  · rw [if_pos (bne_iff_ne.2 h), if_neg h, askLine_length]

theorem asked_sent (s : State) (c slot : Nat) (d : FDesc) (dst : Nat) (l : List (Nat × Nat)) :
    Sent s (if (d.dev != s.ownDev) = true then s.askLine c slot d dst l else (s, [])).1 := by
  split
  · exact Sent.refl.askLine
  · exact .refl

/-! ### RA_LINE_ISSUE -/

/-- A matrix read of the matrix-vector path takes the free slot (R235). -/
theorem raLineIssue_of_read {core : Fin 512} {j : MvJob} {r : Nat × Nat} {rest : List (Nat × Nat)} {slot : Nat}
    (hj : (s.core core.val).mvp = some j) (hreads : j.reads = r :: rest) (hslot : (s.core core.val).freeSlot = some slot) :
    Does (.raLineIssue core) s (s.setCore core.val { s.core core.val with
      mvp := some { j with reads := rest, out := j.out + 1 }
      slots := Tab.set (s.core core.val).slots slot { src := r.1, dev := s.ownDev, mv := some r.2 } }) := by
  show execRaLineIssue core s = _
  unfold execRaLineIssue
  simp [hj, hreads, hslot]

section

variable {core : Fin 512} (hread : ∀ j, (s.core core.val).mvp = some j → j.reads = [])
include hread

theorem noRead : ((s.core core.val).mvp.bind fun j => j.reads.head?.map fun r => (j, r)) = none := by
  cases hj : (s.core core.val).mvp with
  | none => rfl
  | some j => simp [hread j hj]

theorem raLineIssue_of_idle (hnext : (s.core core.val).nextStream = none) : Does (.raLineIssue core) s s := by
  show execRaLineIssue core s = _
  unfold execRaLineIssue
  simp [noRead hread, hnext]

/-- With every slot in use a line waits, and RA_FULL counts. -/
theorem raLineIssue_of_full {k : Nat} (hnext : (s.core core.val).nextStream = some k) (hslot : (s.core core.val).freeSlot = none) :
    Does (.raLineIssue core) s (s.addSat F.CORE_RA_FULL core.val 1) := by
  show execRaLineIssue core s = _
  unfold execRaLineIssue
  simp [noRead hread, hnext, hslot]

/-- The next line of a stream takes a slot; a line of another device has a read for each of its parts. -/
theorem raLineIssue_of_stream {k slot : Nat} (hnext : (s.core core.val).nextStream = some k) (hslot : (s.core core.val).freeSlot = some slot) :
    let x := Tab.get ({} : Stream) (s.core core.val).streams k
    let d := x.queue.getD (x.nextDesc.getD 0) {}
    ∃ t, Does (.raLineIssue core) s t ∧ (t.core core.val).lastStream = k ∧
      ((Tab.get? (t.core core.val).slots slot).map fun r => (r.stream, r.line, r.dst, r.parts.length)) =
        some (k, x.issued, d.lineDst d.next x.issued, if d.dev = s.ownDev then 0 else (d.lineSrc d.next).length) ∧
      (Tab.get ({} : Stream) (t.core core.val).streams k).issued = (x.issued + 1) % 2 ^ 32 ∧ t.mem = s.mem := by
  have hdoes : exec (.raLineIssue core) s = execRaLineIssue core s := rfl
  unfold execRaLineIssue at hdoes
  simp only [noRead hread, hnext, hslot] at hdoes
  refine ⟨_, hdoes, ?_, ?_, ?_, ?_⟩
  · rw [State.core_setCore_same]
  · rw [State.core_setCore_same, Tab.get?_set_same, Option.map_some, List.length_map, asked_length]
  · rw [State.core_setCore_same, Tab.get_set_same]
  · exact (asked_sent ..).mem

end

theorem runAheadIssue : RunAheadIssue := by
  intro core s c m
  refine ⟨fun j r rest slot hj hreads hslot => ?_, fun hread => ⟨fun k slot hnext hslot => ?_, fun k hnext hslot => ?_, fun hnext => ?_⟩⟩
  · refine ⟨_, raLineIssue_of_read hj hreads hslot, ?_, ?_, ?_⟩
    · rw [State.core_setCore_same]
    · rw [State.core_setCore_same, Tab.get?_set_same]
      rfl
    · rw [State.core_setCore_same]
  · exact raLineIssue_of_stream hread hnext hslot
  · exact raLineIssue_of_full hread hnext hslot
  · exact raLineIssue_of_idle hread hnext

end Sys2Proof.Machine

/-! ## Bytes of a memory, and what a core writes to its own spool (R26, R202) -/

namespace Sys2Proof.Machine
open Sys2Proof Sys2Proof.Claims

variable {s : State} {m : List (Nat × Byte)} {a : Nat}

/-! ### Bytes written and read back -/

theorem memGet_cons (k : Nat) (v : Byte) (x : Nat) : memGet ((k, v) :: m) x = if k = x then v else memGet m x := by
  unfold memGet Tab.get
  rw [Tab.get?]
  split
  · rfl
  · rfl

/-- An address below every listed one holds zero. -/
theorem memGet_of_below {x : Nat} (h : ∀ e ∈ m, x < e.1) : memGet m x = 0 := by
  induction m with
  | nil => rfl
  | cons e m ih =>
    obtain ⟨k, v⟩ := e
    have hk : x < k := h (k, v) (by simp)
    rw [memGet_cons, if_neg (by omega), ih fun e he => h e (List.mem_cons_of_mem _ he)]

theorem memGet_memPut (h : Tab.sorted m = true) (a : Nat) (b : Byte) (x : Nat) : memGet (memPut m a b) x = if a = x then b else memGet m x := by
  induction m with
  | nil =>
    unfold memPut
    split
    next hb => simp [memGet, Tab.get, Tab.get?, hb]
    next => exact memGet_cons ..
  | cons e m ih =>
    obtain ⟨k, v⟩ := e
    have hbelow := sorted_head h
    unfold memPut
    split
    next hk =>
      subst hk
      split
      next hb =>
        rw [memGet_cons]
        split
        next hx => rw [hb, memGet_of_below (hx ▸ hbelow)]
        next => rfl
      next =>
        rw [memGet_cons, memGet_cons]
        split
        · rfl
        · rfl
    next hk =>
      split
      next hlt =>
        have hzero : memGet ((k, v) :: m) a = 0 := memGet_of_below fun e he => by
          rcases List.mem_cons.1 he with rfl | he
          · exact hlt
          · exact Nat.lt_trans hlt (hbelow e he)
        split
        next hb =>
          split
          next hx => rw [← hx, hzero, hb]
          next => rfl
        next => rw [memGet_cons]
      next =>
        rw [memGet_cons, memGet_cons, ih (sorted_tail h)]
        split
        next hx => rw [if_neg fun hax => hk (hx.trans hax.symm)]
        next => rfl

/-- Bytes written from `a` on leave those below it. -/
theorem memGet_memWrite_of_lt {bs : List Byte} {x : Nat} (h : Tab.sorted m = true) (hx : x < a) : memGet (memWrite m a bs) x = memGet m x := by
  induction bs generalizing m a with
  | nil => rfl
  | cons b bs ih => rw [memWrite, ih (sorted_memPut h) (Nat.lt_succ_of_lt hx), memGet_memPut h, if_neg (by omega)]

theorem memRead_succ (m : List (Nat × Byte)) (a n : Nat) : memRead m a (n + 1) = memGet m a :: memRead m (a + 1) n := by
  simp [memRead, rangeFrom, List.range_succ_eq_map, Function.comp_def, Nat.add_comm, Nat.add_left_comm]

/-- Bytes written are read back. -/
theorem memRead_memWrite {bs : List Byte} (h : Tab.sorted m = true) : memRead (memWrite m a bs) a bs.length = bs := by
  induction bs generalizing m a with
  | nil => rfl
  | cons b bs ih =>
    rw [memWrite, List.length_cons, memRead_succ, ih (sorted_memPut h), memGet_memWrite_of_lt (sorted_memPut h) (Nat.lt_succ_self a),
      memGet_memPut h, if_pos rfl]

theorem memWrite_append (xs ys : List Byte) : memWrite m a (xs ++ ys) = memWrite (memWrite m a xs) (a + xs.length) ys := by
  induction xs generalizing m a with
  | nil => rfl
  | cons x xs ih => rw [List.cons_append, memWrite, memWrite, ih, List.length_cons, Nat.add_assoc, Nat.add_comm 1]

/-! ### The window of a core's own spool -/

theorem place_of_spool {c : Nat} (hlo : spoolAddr c 0 ≤ a) (s : State) : s.place a = a := by
  have hdram : ¬a < dramEnd := by
    unfold spoolAddr spoolBase at hlo
    unfold dramEnd
    omega
  unfold State.place State.boundGran
  rw [if_neg hdram]

section

variable {c : Nat} (hc : c < 512) (hlo : spoolAddr c 0 ≤ a) (hhi : a < spoolAddr c 0 + spoolBytes)
include hc hlo hhi

theorem regionOf_of_window : regionOf a = .spool c := by
  unfold spoolAddr spoolBase spoolBytes at *
  unfold regionOf dramEnd windowBase spoolBase spoolBytes granBytes
  have hcore : (a - 0x100000000000) / 0x4000000 = c := by omega
  rw [if_neg (by omega), if_neg (by omega), if_pos (by omega), if_pos (by omega), hcore]

/-- The device itself may write a spool. -/
theorem check_of_window (s : State) : s.check none true a = 0 := by
  have hlanding : s.landingSlice a 1 = none := by
    refine if_pos ?_
    unfold spoolAddr spoolBase at hlo
    unfold windowBase granBytes
    simp only [Bool.or_eq_true, decide_eq_true_eq]
    omega
  unfold State.check State.checkMap
  rw [regionOf_of_window hc hlo hhi, hlanding]
  rfl

/-- The spool holds its bytes under their own addresses. -/
theorem storeBlock_mem_of_window (s : State) (bytes : List Byte) (pz : Bool) : (s.storeBlock a bytes pz).mem = memWrite s.mem a bytes := by
  unfold State.storeBlock
  rw [regionOf_of_window hc hlo hhi, if_neg Region.noConfusion, if_neg Region.noConfusion, place_of_spool hlo]

end

/-- Block `j` of `n` bytes from a 64-byte boundary: its offset and its length. -/
def blockPart (n j : Nat) : Nat × Nat := (64 * j, min n (64 * (j + 1)) - 64 * j)

theorem pieces_of_aligned (halign : a % 64 = 0) (n : Nat) : pieces a n = (List.range ((n + 63) / 64)).map (blockPart n) := by
  unfold pieces
  split
  next hn => rw [hn]; rfl
  next =>
    rw [halign, Nat.zero_add]
    refine List.map_congr_left fun j hj => ?_
    unfold blockPart
    dsimp only
    rw [show max a ((a / 64 + j) * 64) = a + 64 * j by omega]
    congr 1
    · omega
    · omega

section

variable {c : Nat} {bytes : List Byte} (hc : c < 512) (halign : a % 64 = 0)

/-- The bytes of the blocks before block `k`, and those of block `k`. -/
theorem take_blockPart (bytes : List Byte) (k : Nat) :
    bytes.take (64 * k) ++ (bytes.drop (64 * k)).take (min bytes.length (64 * (k + 1)) - 64 * k) = bytes.take (64 * (k + 1)) := by
  rw [← List.take_add, List.take_eq_take_iff]
  omega

include hc halign

/-- The first `k` blocks of data from a 64-byte boundary written to a spool. -/
theorem mem_storeBlocks (hlo : spoolAddr c 0 ≤ a) (hhi : a + bytes.length ≤ spoolAddr c 0 + spoolBytes) (pz : Nat → Nat → Bool) {k : Nat}
    (hk : k ≤ (bytes.length + 63) / 64) :
    (((List.range k).map (blockPart bytes.length)).foldl (fun t x => if s.check none true (a + x.1) false = 0 then
      t.storeBlock (a + x.1) ((bytes.drop x.1).take x.2) (pz x.1 x.2) else t) s).mem = memWrite s.mem a (bytes.take (64 * k)) := by
  induction k with
  | zero => rfl
  | succ k ih =>
    have hinside : 64 * k < bytes.length := by omega
    have hlen : (bytes.take (64 * k)).length = 64 * k := List.length_take_of_le hinside.le
    rw [List.range_succ, List.map_append, List.foldl_append, List.map_singleton, List.foldl_cons, List.foldl_nil, blockPart,
      if_pos (check_of_window hc (by omega) (by omega) s), storeBlock_mem_of_window hc (by omega) (by omega), ih (by omega),
      ← take_blockPart bytes k, memWrite_append, hlen]

theorem writeBy_mem_of_window (hlo : spoolAddr c 0 ≤ a) (hhi : a + bytes.length ≤ spoolAddr c 0 + spoolBytes) (pz : Nat → Nat → Bool) :
    (s.writeBy none a bytes pz).mem = memWrite s.mem a bytes := by
  unfold State.writeBy
  rw [pieces_of_aligned halign, mem_storeBlocks hc halign hlo hhi pz le_rfl, List.take_of_length_le (by omega)]

/-- Data from a 64-byte boundary written within a core's own window. -/
theorem windowWrite_mem (hin : inWindow c a bytes.length = true) (pz : List Nat) : (s.windowWrite c a bytes pz).mem = memWrite s.mem a bytes := by
  simp only [inWindow, Bool.and_eq_true, decide_eq_true_eq] at hin
  obtain ⟨hlo, hhi⟩ := hin
  unfold State.windowWrite State.windowWriteBy
  dsimp only
  rw [Nat.max_eq_left hlo, Nat.min_eq_left hhi, Nat.sub_self, List.drop_zero, Nat.add_sub_cancel_left, List.take_length]
  split
  · exact writeBy_mem_of_window hc halign hlo hhi _
  next h =>
    rw [List.eq_nil_of_length_eq_zero (by omega : bytes.length = 0)]
    rfl

end

end Sys2Proof.Machine

/-! ## RA_LINE_LAND (R233, R236) -/

namespace Sys2Proof.Machine
open Sys2Proof Sys2Proof.Claims

variable {s t : State}

/-! ### A local line read -/

/-- The parts of a local line read without a storage error: what memory holds, and nothing but the access changes. -/
theorem readParts_spec {c : Nat} (h : Accessed s t) (l : List (Nat × Nat)) : Accessed s (t.readParts c [] l).1 ∧
    (t.readParts c [] l).2 = l.map fun p => let g := s.readMem (some (s.core c).part) p.1 p.2; (g.data, g.poison) := by
  induction l generalizing t with
  | nil => exact ⟨h, rfl⟩
  | cons p l ih =>
    obtain ⟨hstate, hparts⟩ := ih (t := (t.engineRead c p.1 p.2 []).1) h.engineRead
    have hcore : t.core c = s.core c := by unfold State.core; rw [h.cores]
    have hread : (t.engineRead c p.1 p.2 []).2 =
        ((s.readMem (some (s.core c).part) p.1 p.2).data, (s.readMem (some (s.core c).part) p.1 p.2).poison) :=
      Prod.ext (by rw [engineRead_data, h.readMem_eq, hcore]) (by rw [engineRead_poison, h.readMem_eq, hcore])
    have hcons : (t.readParts c [] (p :: l)).2 = (t.engineRead c p.1 p.2 []).2 :: ((t.engineRead c p.1 p.2 []).1.readParts c [] l).2 := rfl
    exact ⟨hstate, by rw [hcons, hparts, hread, List.map_cons]⟩

theorem lineRead_accessed (s : State) (c : Nat) (l : List (Nat × Nat)) : Accessed s (s.lineRead c l []).1 := by
  have hread : Accessed s (s.readParts c [] l).1 := (readParts_spec .refl l).1
  unfold State.lineRead
  dsimp only
  exact hread.accessDone

theorem lineRead_data (s : State) (c : Nat) (l : List (Nat × Nat)) : (s.lineRead c l []).2.1 =
    (joinParts (l.map fun p => let g := s.readMem (some (s.core c).part) p.1 p.2; (g.data, g.poison))).1 :=
  congrArg (fun x => (joinParts x).1) (readParts_spec .refl l).2

theorem lineRead_core (s : State) (c : Nat) (l : List (Nat × Nat)) : (s.lineRead c l []).1.core c = s.core c := by
  unfold State.core
  rw [(lineRead_accessed s c l).cores]

/-! ### A line written to the spool -/

theorem storeBlock_fab (s : State) (a : Nat) (bytes : List Byte) (pz : Bool) : (s.storeBlock a bytes pz).fab = s.fab := by
  unfold State.storeBlock
  split
  · rfl
  · split
    · rfl
    · rfl

theorem writeBy_fab (s : State) (who : Option Nat) (a : Nat) (bytes : List Byte) (pz : Nat → Nat → Bool) (coll : Bool) :
    (s.writeBy who a bytes pz coll).fab = s.fab := by
  refine List.foldlRecOn (motive := fun t : State => t.fab = s.fab) _ _ rfl fun t ht x _ => ?_
  split
  · exact (storeBlock_fab ..).trans ht
  · exact ht

theorem windowWriteBy_fab (s : State) (c a : Nat) (bytes : List Byte) (pz : Nat → Nat → Bool) : (s.windowWriteBy c a bytes pz).fab = s.fab := by
  unfold State.windowWriteBy
  dsimp only
  split
  · exact writeBy_fab ..
  · rfl

/-- The state in which a line's data have been written at its place in the window. -/
def lineStored (s : State) (c : Nat) (r : RaSlot) (bytes : List Byte) (pz : List Nat) : State :=
  if inWindow c r.dst bytes.length then s.windowWrite c r.dst bytes pz else (s.windowWrite c r.dst bytes pz).strOow c 1

section

variable (s) (c slot : Nat) (r : RaSlot) (bytes : List Byte) (pz : List Nat)

theorem lineStored_cores : (lineStored s c r bytes pz).cores = s.cores := by
  unfold lineStored
  split
  · exact windowWriteBy_cores ..
  · exact windowWriteBy_cores ..

theorem landLine_eq : s.landLine c slot r bytes pz =
    ((lineStored s c r bytes pz).setCore c { s.core c with
      slots := Tab.del (s.core c).slots slot
      streams := Tab.set (s.core c).streams r.stream ((Tab.get ({} : Stream) (s.core c).streams r.stream).land r.line) }).addWrap F.CORE_RA_LINES c 1 := by
  have hcore : (lineStored s c r bytes pz).core c = s.core c := by unfold State.core; rw [lineStored_cores]
  unfold State.landLine
  dsimp only
  unfold lineStored at hcore ⊢
  rw [hcore]

theorem core_landLine : (s.landLine c slot r bytes pz).core c = { s.core c with
    slots := Tab.del (s.core c).slots slot
    streams := Tab.set (s.core c).streams r.stream ((Tab.get ({} : Stream) (s.core c).streams r.stream).land r.line) } := by
  rw [landLine_eq, State.core_addWrap, State.core_setCore_same]

/-- The slot of a line that lands is free. -/
theorem landLine_frees : Tab.get? ((s.landLine c slot r bytes pz).core c).slots slot = none := by
  rw [core_landLine]
  exact Tab.get?_del_same ..

theorem landLine_stream : Tab.get ({} : Stream) ((s.landLine c slot r bytes pz).core c).streams r.stream =
    (Tab.get ({} : Stream) (s.core c).streams r.stream).land r.line := by
  rw [core_landLine]
  exact Tab.get_set_same ..

theorem landLine_mem : (s.landLine c slot r bytes pz).mem = (lineStored s c r bytes pz).mem := by
  rw [landLine_eq, State.addWrap_mem, State.setCore_mem]

theorem landLine_fab : (s.landLine c slot r bytes pz).fab = (lineStored s c r bytes pz).fab := by
  rw [landLine_eq, State.addWrap_fab, State.setCore_fab]

end

/-- A line that lands in its turn moves LANDED past it. -/
theorem landed_land {x : Stream} {g : Nat} (hturn : x.landed = g) (hahead : x.ahead = []) : (x.land g).landed = (g + 1) % 2 ^ 32 := by
  unfold Stream.land
  dsimp only
  rw [hahead]
  simp [insertNat, Stream.settle, hturn]

theorem lineStored_fab (s : State) (c : Nat) (r : RaSlot) (bytes : List Byte) (pz : List Nat) : (lineStored s c r bytes pz).fab = s.fab := by
  unfold lineStored
  split
  · exact windowWriteBy_fab ..
  · exact windowWriteBy_fab ..

/-- A line within the window, at a boundary of 128 bytes, is read back at its place. -/
theorem memRead_lineStored {c : Nat} {r : RaSlot} {bytes : List Byte} (hc : c < 512) (halign : r.dst % 128 = 0)
    (hin : inWindow c r.dst bytes.length = true) (hwf : memWf s.mem = true) (pz : List Nat) :
    memRead (lineStored s c r bytes pz).mem r.dst bytes.length = bytes := by
  have hsorted : Tab.sorted s.mem = true := (Bool.and_eq_true_iff.1 hwf).1
  unfold lineStored
  rw [if_pos hin, windowWrite_mem hc (by omega) hin, memRead_memWrite hsorted]

theorem place_of_inWindow {c a n : Nat} (hin : inWindow c a n = true) (s : State) : s.place a = a := by
  simp only [inWindow, Bool.and_eq_true, decide_eq_true_eq] at hin
  exact place_of_spool hin.1 s

/-! ### A line of this device, and one of another -/

/-- The parts of the line that slot `r` of core `c` holds (R233). -/
def slotParts (s : State) (c : Nat) (r : RaSlot) : List (Nat × Nat) :=
  ((s.core c).slotDesc r).lineSrc ((r.line + 2 ^ 32 - ((s.core c).slotDesc r).first.getD 0) % 2 ^ 32)

theorem raLineLand_of_empty {core : Fin 512} {slot part stall : Nat} {y : LineResponse} (hslot : Tab.get? (s.core core.val).slots slot = none) :
    Does (.raLineLand core slot part stall y) s s := by
  show execRaLineLand core slot part stall y s = _
  unfold execRaLineLand
  dsimp only
  rw [hslot]

section

variable {core : Fin 512} {slot part stall : Nat} {r : RaSlot} (hslot : Tab.get? (s.core core.val).slots slot = some r) (hmv : r.mv = none)
include hslot hmv

/-- A local line whose reads do not wait is read and lands. -/
theorem raLineLand_of_local (hparts : r.parts = []) (hready : ∀ p ∈ slotParts s core.val r, s.accWaits false p.1 p.2 = false) :
    Does (.raLineLand core slot part stall {}) s ((s.lineRead core.val (slotParts s core.val r) []).1.landLine core.val slot r
      (s.lineRead core.val (slotParts s core.val r) []).2.1 (s.lineRead core.val (slotParts s core.val r) []).2.2) := by
  show execRaLineLand core slot part stall {} s = _
  unfold execRaLineLand
  simp only [hslot, hmv, hparts]
  exact congrArg Host.Outcome.next (whenReadable_of_ready hready _)

/-- A line of another device that waits for one read lands with it, and the read leaves the operations issued. -/
theorem raLineLand_of_remote {id : Nat} {o : IssuedOp} {y : LineResponse} (hparts : r.parts = [(id, none)])
    (ho : Tab.get? s.fab.issued id = some o) (hpart : part = 0) (hretry : y.retries = []) :
    ∃ b pz, Does (.raLineLand core slot part stall y) s
      (((s.countStatus o y.status.val o.desc.destAddr).retire id).landLine core.val slot r b pz) := by
  have hdoes : exec (.raLineLand core slot part stall y) s = .next (s.landRemote core.val slot r 0 y) := by
    show execRaLineLand core slot part stall y s = _
    unfold execRaLineLand
    simp only [hslot, hmv, hretry, hparts, hpart]
    rfl
  unfold State.landRemote at hdoes
  simp only [hparts, List.getElem?_cons_zero, ho, List.set_cons_zero, List.all_cons, List.all_nil, Option.isSome_some, Bool.and_self,
    if_true] at hdoes
  exact ⟨_, _, hdoes⟩

end

theorem countStatus_noted (s : State) (o : IssuedOp) (status addr : Nat) : Noted s (s.countStatus o status addr) := by
  unfold State.countStatus
  split
  · exact .refl
  · exact Noted.refl.countAccess
  · exact Noted.refl.countUnavail
  · exact Noted.refl.countErr

theorem runAheadLand : RunAheadLand := by
  intro core slot part stall s c k
  refine ⟨fun hempty y => ?_, fun r hslot hmv => ⟨fun hparts hready => ?_, fun id o y hparts ho hpart hretry => ?_⟩⟩
  · exact raLineLand_of_empty hempty
  · refine ⟨_, raLineLand_of_local hslot hmv hparts hready, landLine_frees .., fun halign hin hwf => ?_, fun hturn hahead => ?_⟩
    · rw [← (lineRead_accessed s core.val (slotParts s core.val r)).mem] at hwf
      rw [place_of_inWindow hin, landLine_mem, lineRead_data]
      exact memRead_lineStored core.isLt halign hin hwf _
    · rw [landLine_stream, lineRead_core]
      exact landed_land hturn hahead
  · obtain ⟨b, pz, hdoes⟩ := raLineLand_of_remote hslot hmv hparts ho hpart hretry
    refine ⟨_, hdoes, landLine_frees .., ?_⟩
    rw [landLine_fab, lineStored_fab]
    exact issued_retire (o := o) (by rw [(countStatus_noted ..).fab, ho])

/-- Settles O7: a fetch, a line issued and a line landed are each an equation of the state after them; what a read changes is not what a later one
sees, so a line's data are what memory held. -/
theorem fetchAndRunAhead : Obligations.FetchAndRunAhead := ⟨instructionFetchResult, fetchJoinsStream, runAheadIssue, runAheadLand⟩

end Sys2Proof.Machine

/-! ## What a solver engine's work leaves (R251 to R254, R272)

Until its descriptor ends, an engine reads, writes its outputs and counts what fails. `Working e s t` says what of engine `e` is the same in `t` as
in `s` meanwhile: its place in the descriptor table, when it began, and the registers that the end of a descriptor rests on. -/

namespace Sys2Proof.Machine
open Sys2Proof Sys2Proof.Claims

variable {s₀ s t u : State} {e : Nat}

/-- SOLV_CTL, DONE_CNT, DEADLINE_CNT and LAST_NS. -/
def solveOffs : List Nat := [0x080, 0x090, 0x09C, 0x0AC]

/-- Those registers of the SOLVER pages; what else stands at their offsets on the pages below UPDATE has no part in a solve. -/
def solveKey (k : Nat) : Prop := keyPageNum k < 6144 ∧ keyOff k ∈ solveOffs

/-- The place of a field that is none of these on any page: by its offset, or by its page's type. -/
def Fld.offSolve (f : Fld) : Bool := decide (f.off < 4096) && decide (f.lo < 32) && (!solveOffs.contains f.off || decide (6 ≤ f.ty))

theorem not_solveKey_of_offSolve {f : Fld} (h : f.offSolve = true) (i : Nat) : ¬solveKey (f.key i) := by
  simp only [Fld.offSolve, Bool.and_eq_true, Bool.or_eq_true, decide_eq_true_eq, Bool.not_eq_true', List.contains_eq_mem,
    decide_eq_false_iff_not] at h
  obtain ⟨⟨hoff, hlo⟩, hplace⟩ := h
  unfold solveKey
  rw [keyOff_key hoff hlo, keyPageNum_key hoff hlo]
  rintro ⟨hpage, hin⟩
  rcases hplace with hout | hty
  · exact hout hin
  · omega

theorem not_solveKey_of_logKey {k : Nat} (h : logKey k) : ¬solveKey k := by
  rintro ⟨hpage, hin⟩
  rcases h with hoff | rfl
  · rw [hoff] at hin
    revert hin
    decide
  · revert hpage
    decide

/-- The registers named are of this kind on the page of an engine. -/
theorem solveKey_of_solver {f : Fld} (hf : f ∈ [F.SOLVER_SOLV_CTL, F.SOLVER_DONE_CNT, F.SOLVER_DEADLINE_CNT, F.SOLVER_LAST_NS]) (he : e < 16) :
    solveKey (f.key e) := by
  obtain ⟨hty, hoff, hlo, hin⟩ := (by decide : ∀ f ∈ [F.SOLVER_SOLV_CTL, F.SOLVER_DONE_CNT, F.SOLVER_DEADLINE_CNT, F.SOLVER_LAST_NS],
    f.ty = 5 ∧ f.off < 4096 ∧ f.lo < 32 ∧ f.off ∈ solveOffs) f hf
  unfold solveKey
  rw [keyOff_key hoff hlo, keyPageNum_key hoff hlo, hty]
  exact ⟨by omega, hin⟩

/-- From `s` to `t` engine `e` has not ended a descriptor, and nothing has written the registers that an end rests on. -/
structure Working (e : Nat) (s t : State) : Prop where
  next : (t.solver e).next = (s.solver e).next
  startNs : (t.solver e).startNs = (s.solver e).startNs
  regs : ∀ k, solveKey k → Tab.get? t.regs k = Tab.get? s.regs k

namespace Working

theorem refl : Working e s s := ⟨rfl, rfl, fun _ _ => rfl⟩

theorem trans (h : Working e s t) (h' : Working e t u) : Working e s u :=
  ⟨h'.next.trans h.next, h'.startNs.trans h.startNs, fun k hk => (h'.regs k hk).trans (h.regs k hk)⟩

theorem fld_eq (h : Working e s t) {f : Fld} {i : Nat} (hk : solveKey (f.key i)) : t.fld f i = s.fld f i := by
  unfold State.fld Tab.get
  rw [h.regs _ hk]

theorem solvPart_eq (h : Working e s t) (he : e < 16) : t.solvPart e = s.solvPart e := h.fld_eq (solveKey_of_solver (by decide) he)

/-- The state `t` has the engines and the registers of `s`. -/
theorem upd (h : Working e s₀ s) (hu : (t.solvers, t.regs) = (s.solvers, s.regs)) : Working e s₀ t := by
  obtain ⟨hsolvers, hregs⟩ := Prod.mk.inj hu
  refine h.trans ⟨?_, ?_, fun k _ => by rw [hregs]⟩
  · rw [State.solver, hsolvers, State.solver]
  · rw [State.solver, hsolvers, State.solver]

theorem both {c : Prop} [Decidable c] (hs : Working e s₀ s) (ht : Working e s₀ t) : Working e s₀ (if c then s else t) := by
  split
  · exact hs
  · exact ht

theorem foldl {α : Type} {g : State → α → State} {l : List α} (h : Working e s₀ s) (hg : ∀ t x, Working e s₀ t → Working e s₀ (g t x)) :
    Working e s₀ (l.foldl g s) := by
  induction l generalizing s with
  | nil => exact h
  | cons x l ih => exact ih (hg s x h)

/-! ### Counting and reporting -/

theorem setFld {f : Fld} {i v : Nat} (h : Working e s₀ s) (hf : f.offSolve = true) : Working e s₀ (s.setFld f i v) := by
  refine h.trans ⟨rfl, rfl, fun k hk => Tab.get?_set_other _ _ ?_⟩
  rintro rfl
  exact not_solveKey_of_offSolve hf i hk

theorem addSat {f : Fld} {i n : Nat} (h : Working e s₀ s) (hf : f.offSolve = true) : Working e s₀ (s.addSat f i n) := h.setFld hf
theorem addWrap {f : Fld} {i n : Nat} (h : Working e s₀ s) (hf : f.offSolve = true) : Working e s₀ (s.addWrap f i n) := h.setFld hf

theorem ofLogged (h : Logged s t) : Working e s t :=
  ⟨by rw [State.solver, h.solvers, State.solver], by rw [State.solver, h.solvers, State.solver],
    fun k hk => h.regs k fun hlog => not_solveKey_of_logKey hlog hk⟩

theorem raise {ty i b : Nat} (h : Working e s₀ s) : Working e s₀ (s.raise ty i b) := h.trans (ofLogged Logged.refl.raise)
theorem raiseIf {c : Bool} {ty i b : Nat} (h : Working e s₀ s) : Working e s₀ (s.raiseIf c ty i b) := both h.raise h

theorem countErr {ty i code value agent : Nat} (h : Working e s₀ s) : Working e s₀ (s.countErr ty i code value agent) := by
  have hcnt {v : Nat} : Working e s₀ (s.setFld (F.ERR_CNT ty) i v) := h.setFld (by rfl)
  refine both h (raiseIf (raise (both ?_ hcnt)))
  exact (((hcnt.setFld (by rfl)).setFld (by rfl)).setFld (by rfl)).setFld (by rfl)

theorem countEv {f : Fld} {i n b : Nat} (h : Working e s₀ s) (hf : f.offSolve = true) : Working e s₀ (s.countEv f i n b) :=
  both h (h.addSat hf).raise

theorem countUnavail {page : Nat × Nat} {addr agent : Nat} (h : Working e s₀ s) : Working e s₀ (s.countUnavail page addr agent) :=
  both h.countErr (both (h.countEv (by decide)).countErr h.countErr)

theorem countAccess {page : Nat × Nat} {status addr agent : Nat} {part : Option Nat} (h : Working e s₀ s) :
    Working e s₀ (s.countAccess page status addr agent part) := by
  refine both h.countErr (both ?_ (both h.countUnavail h))
  dsimp only
  split
  · exact h.countErr.countEv (by decide)
  · exact h.countErr

theorem accessDone {page : Nat × Nat} {agent : Nat} {part : Option Nat} {x : Acs} (h : Working e s₀ s) :
    Working e s₀ (s.accessDone page agent part x) :=
  countAccess (both (h.countEv (by decide)) h)

theorem cause {b : Nat} (h : Working e s₀ s) : Working e s₀ (s.cause b) := both h (h.upd (by rfl))
theorem poisoned {ty i : Nat} (h : Working e s₀ s) : Working e s₀ (s.poisoned ty i) := h.raise.cause

/-! ### Reads and writes -/

theorem touchLine {p a n : Nat} {write : Bool} (h : Working e s₀ s) : Working e s₀ (s.touchLine p a n write) :=
  both (upd (both (h.addWrap (f := F.CELLAR_HIT_CNT) (by decide)) (h.addWrap (f := F.CELLAR_MISS_CNT) (by decide))) (by rfl)) h

theorem touch {who : Option Nat} {write : Bool} {a n : Nat} (h : Working e s₀ s) : Working e s₀ (s.touch who write a n) := by
  unfold State.touch
  split
  · exact h
  · exact h.foldl fun _ _ => touchLine

theorem storeBlock {a : Nat} {bytes : List Byte} {pz : Bool} (h : Working e s₀ s) : Working e s₀ (s.storeBlock a bytes pz) :=
  both h (both (h.upd (by rfl)) (h.upd (by rfl)))

theorem writeMem {who : Option Nat} {a : Nat} {bytes : List Byte} {pz : List Nat} {coll : Bool} (h : Working e s₀ s) :
    Working e s₀ (s.writeMem who a bytes pz coll) :=
  h.foldl fun _ _ h1 => both h1.storeBlock h1

theorem solvCount {i part a n : Nat} {write : Bool} (h : Working e s₀ s) : Working e s₀ (s.solvCount i part a n write) := both h h.touch.accessDone
theorem solvWrite {i part a : Nat} {b : List Byte} (h : Working e s₀ s) : Working e s₀ (s.solvWrite i part a b) := h.solvCount.writeMem

/-! ### The engine and its path -/

theorem holdPath {d : SolveDesc} (h : Working e s₀ s) : Working e s₀ (s.holdPath e d) := h.upd (by rfl)
theorem solvEcc {x : Ecc} (h : Working e s₀ s) : Working e s₀ (s.solvEcc e x) := (h.countEv (by decide)).countEv (by decide)

theorem storeFactor {f : Factored} (h : Working e s₀ s) : Working e s₀ (s.storeFactor e f) :=
  h.trans ⟨by rw [State.storeFactor, State.solver_setSolver_same], by rw [State.storeFactor, State.solver_setSolver_same], fun _ _ => rfl⟩

end Working

end Sys2Proof.Machine

/-! ## The record of a descriptor (R252, R272) -/

namespace Sys2Proof.Machine
open Sys2Proof Sys2Proof.Claims

variable {s t u : State} {e a : Nat} {m : List (Nat × Byte)}

/-! ### One block written -/

theorem memGet_memPut_of_ne {b : Byte} {x : Nat} (h : x ≠ a) : memGet (memPut m a b) x = memGet m x := by
  induction m with
  | nil =>
    unfold memPut
    split
    · rfl
    · rw [memGet_cons, if_neg h.symm]
  | cons y m ih =>
    obtain ⟨k, v⟩ := y
    unfold memPut
    split
    next hk =>
      subst hk
      rw [memGet_cons, if_neg h.symm]
      split
      · rfl
      · rw [memGet_cons, if_neg h.symm]
    next =>
      split
      · split
        · rfl
        · rw [memGet_cons, if_neg h.symm]
      · rw [memGet_cons, memGet_cons, ih]

/-- Bytes written leave all others. -/
theorem memGet_memWrite_of_outside {bs : List Byte} {x : Nat} (h : x < a ∨ a + bs.length ≤ x) : memGet (memWrite m a bs) x = memGet m x := by
  induction bs generalizing m a with
  | nil => rfl
  | cons b bs ih =>
    rw [List.length_cons] at h
    rw [memWrite, ih (by omega), memGet_memPut_of_ne (by omega)]

theorem length_toLe (n x : Nat) : (toLe n x).length = n := by
  induction n generalizing x with
  | zero => rfl
  | succ n ih => rw [toLe, List.length_cons, ih]

theorem SolveOut.length_bytes (o : SolveOut) (seq : Nat) : (o.bytes seq).length = 64 := by
  simp only [SolveOut.bytes, List.length_append, length_toLe]

theorem pieces_of_block (ha : a % 64 = 0) : pieces a 64 = [(0, 64)] := pieces_of_aligned ha 64

/-- Where an access to one block fails nowhere, the block may be accessed. -/
theorem check_of_checkAll_block {who : Option Nat} {write : Bool} (ha : a % 64 = 0) (h : (s.checkAll who write a 64).st = 0) :
    s.check who write a = 0 := by
  by_contra hne
  simp only [State.checkAll, pieces_of_block ha, Nat.add_zero, bne_iff_ne, ne_eq, hne, not_false_eq_true, List.filter_cons_of_pos,
    List.filter_nil, List.any_cons, List.any_nil, Bool.or_false, beq_iff_eq] at h
  split at h
  · omega
  · split at h <;> omega

/-! ### What a write to memory rests on -/

/-- The memory of `t` is that of `s`, and the same may be written, to the same place. -/
structure SameReach (s t : State) : Prop where
  mem : t.mem = s.mem
  place : ∀ a, t.place a = s.place a
  check : ∀ p write a, t.check (some p) write a = s.check (some p) write a

theorem SameReach.trans (h : SameReach s t) (h' : SameReach t u) : SameReach s u :=
  ⟨h'.mem.trans h.mem, fun a => (h'.place a).trans (h.place a), fun p write a => (h'.check p write a).trans (h.check p write a)⟩

theorem Accessed.reach (h : Accessed s t) : SameReach s t := ⟨h.mem, h.view.place_eq, fun p write a => h.check_eq (some p) write a false⟩

theorem solvCount_accessed (s : State) (e part a n : Nat) (write : Bool) : Accessed s (s.solvCount e part a n write) :=
  .both .refl Accessed.refl.touch.accessDone

/-- What a partition may write rests on no register of a page below UPDATE. (`hfld` is used of fields `f.nth k` with `k` open, so its condition is
discharged by evaluation of the page type and not by `decide`.) -/
theorem reach_of_fld (hmem : t.mem = s.mem) (hupd : t.upd = s.upd) (hgran : t.cellar.granules = s.cellar.granules)
    (hfld : ∀ g j, 6 ≤ g.ty → t.fld g j = s.fld g j) : SameReach s t := by
  have hbound (a : Nat) : t.boundGran a = s.boundGran a := by
    unfold State.boundGran
    rw [hgran]
  have hplace (a : Nat) : t.place a = s.place a := by
    unfold State.place
    rw [hbound]
  refine ⟨hmem, hplace, fun p write a => ?_⟩
  have hrange (p a : Nat) (shared : Bool) : t.dramRange p a shared = s.dramRange p a shared := by
    simp (disch := exact Nat.le_of_ble_eq_true rfl) only [State.dramRange, State.rangeHas, State.flag, hfld]
  have howned (p g : Nat) : t.granOwned p g = s.granOwned p g := by
    simp (disch := exact Nat.le_of_ble_eq_true rfl) only [State.granOwned, hfld]
  have hshared (g : Nat) : t.granSharedAny g = s.granSharedAny g := by
    simp (disch := exact Nat.le_of_ble_eq_true rfl) only [State.granSharedAny, State.granShared, howned, hfld]
  have hcore (c : Nat) : t.corePart c = s.corePart c := by
    simp (disch := exact Nat.le_of_ble_eq_true rfl) only [State.corePart, hfld]
  have hhost (a : Nat) : t.hwinOf (some p) a = s.hwinOf (some p) a := by
    unfold State.hwinOf State.flag
    rw [hfld F.HOST_HOST_CTL 0 (by decide), hfld F.HOST_LINK_STAT_LINK_UP 0 (by decide)]
    congr 1
    simp (disch := exact Nat.le_of_ble_eq_true rfl) only [hfld]
  have hland : t.landingSlice a 1 = s.landingSlice a 1 := by
    unfold State.landingSlice State.fldPair
    rw [List.find?_congr fun c _ => by rw [hfld F.COLL_LAND_BASE_LO c (by decide), hfld F.COLL_LAND_BASE_HI c (by decide)]]
  have hunavail : t.unavailAt a = s.unavailAt a := by
    simp (disch := exact Nat.le_of_ble_eq_true rfl) only [State.unavailAt, State.ledgerUnavail, State.fldPair, hupd, hmem, hplace, hfld]
  unfold State.check State.checkMap State.dramShared State.granule
  simp only [hrange, hgran, hshared, howned, hcore, hhost, hland, hunavail, hbound]

theorem holdPath_reach (s : State) (e : Nat) (d : SolveDesc) : SameReach s (s.holdPath e d) := reach_of_fld rfl rfl rfl fun _ _ _ => rfl

theorem setFld_reach {f : Fld} {i : Nat} (hf : f.ty = 5 ∧ f.off < 4096 ∧ f.lo < 32) (hi : i < 16) (s : State) (v : Nat) :
    SameReach s (s.setFld f i v) := by
  refine reach_of_fld rfl rfl rfl fun g j hg => State.fld_setFld_other _ _ ?_
  unfold Fld.key
  omega

theorem countEv_reach {f : Fld} {i : Nat} (hf : f.ty = 5 ∧ f.off < 4096 ∧ f.lo < 32) (hi : i < 16) (s : State) (n b : Nat) :
    SameReach s (s.countEv f i n b) := by
  unfold State.countEv
  split
  · exact Accessed.refl.reach
  · exact (setFld_reach hf hi s _).trans Accessed.refl.raise.reach

theorem solvEcc_reach (he : e < 16) (s : State) (x : Ecc) : SameReach s (s.solvEcc e x) :=
  (countEv_reach (by decide) he s _ _).trans (countEv_reach (by decide) he _ _ _)

/-! ### The record -/

/-- The memory after a write of one block. -/
theorem solvWrite_mem {part : Nat} {b : List Byte} (ha : a % 64 = 0) (hb : b.length = 64) (s : State) (e : Nat) :
    (s.solvWrite e part a b).mem =
      if s.check (some part) true a = 0 ∧ regionOf a ≠ .page ∧ regionOf a ≠ .host then memWrite s.mem (s.place a) b else s.mem := by
  have hreach := (solvCount_accessed s e part a 64 true).reach
  rw [State.solvWrite, State.writeMem, State.writeBy, hb, pieces_of_block ha, List.foldl_cons, List.foldl_nil, hreach.check, Nat.add_zero,
    List.drop_zero, List.take_of_length_le hb.le]
  unfold State.storeBlock
  by_cases hcheck : s.check (some part) true a = 0
  · by_cases hpage : regionOf a = .page
    · simp [hcheck, hpage, hreach.mem]
    · by_cases hhost : regionOf a = .host
      · simp [hcheck, hhost, hreach.mem]
      · simp [hcheck, hpage, hhost, hreach.mem, hreach.place]
  · simp [hcheck, hreach.mem]

/-- The record of a descriptor written. -/
def State.putRecord (s : State) (e : Nat) (d : SolveDesc) (o : SolveOut) : State :=
  if d.record = 0 ∨ d.record % 64 ≠ 0 then s else s.solvWrite e (s.solvPart e) d.record (o.bytes d.seq)

theorem putRecord_recorded {d : SolveDesc} {o : SolveOut} (h : SameReach s t) (hpart : t.solvPart e = s.solvPart e)
    (hu : d.done = 0 → u.mem = (t.putRecord e d o).mem) : Claims.recorded (s.solvPart e) d o s u := by
  intro hdone halign
  rw [hu hdone]
  by_cases hzero : d.record = 0
  · rw [State.putRecord, if_pos (.inl hzero), h.mem]
    exact ⟨fun _ => rfl, fun _ _ => rfl, fun hne => absurd hzero hne⟩
  · rw [State.putRecord, if_neg (by omega), solvWrite_mem halign (o.length_bytes _), hpart, h.mem, h.place, h.check]
    refine ⟨fun h0 => absurd h0 hzero, fun x hx => ?_, fun _ hwf hhost hpage hacs => ?_⟩
    · split
      · exact memGet_memWrite_of_outside (by rwa [SolveOut.length_bytes])
      · rfl
    · have hsorted : Tab.sorted s.mem = true := (Bool.and_eq_true_iff.1 hwf).1
      have hread := memRead_memWrite (bs := o.bytes d.seq) (a := s.place d.record) hsorted
      rw [SolveOut.length_bytes] at hread
      rw [if_pos ⟨check_of_checkAll_block halign hacs, hpage, hhost⟩, hread]

end Sys2Proof.Machine

/-! ## The end of a descriptor (R251, R253, R254, R271, R272, Table 9.12) -/

namespace Sys2Proof.Machine
open Sys2Proof Sys2Proof.Claims

variable {s t : State} {e ns : Nat} {d : SolveDesc} {o : SolveOut}

/-! ### The paths given back (R254) -/

theorem foldl_cores_only {α : Type} {g : State → α → State} (hg : ∀ t x, g t x = { t with cores := (g t x).cores }) (l : List α) (s : State) :
    l.foldl g s = { s with cores := (l.foldl g s).cores } := by
  induction l generalizing s with
  | nil => rfl
  | cons x l ih =>
    rw [List.foldl_cons]
    exact (ih _).trans (congrArg (fun t => { t with cores := (l.foldl g (g s x)).cores }) (hg s x))

/-- Only the cores change where paths are given back. -/
theorem releasePath_eq (s : State) (e : Nat) : s.releasePath e = { s with cores := (s.releasePath e).cores } := by
  refine foldl_cores_only (fun t k => ?_) s.cores s
  split
  · rfl
  · rfl

/-- While the entries `l` of the cores are still to come, the engine holds a path of those alone. -/
theorem mvpHolder_foldl_release {l : Tab CoreState} (h : ∀ c, (s.core c).mvpHolder = some e → ∃ k ∈ l, k.1 = c ∧ k.2.mvpHolder = some e)
    (c : Nat) : ((l.foldl (fun t k => if k.2.mvpHolder = some e then t.setCore k.1 { t.core k.1 with mvpHolder := none } else t) s).core
      c).mvpHolder ≠ some e := by
  induction l generalizing s with
  | nil =>
    intro hc
    obtain ⟨k, hk, -⟩ := h c hc
    exact List.not_mem_nil hk
  | cons y l ih =>
    refine ih fun c hc => ?_
    dsimp only at hc
    split at hc
    next hy =>
      by_cases hcy : c = y.1
      · rw [hcy, State.core_setCore_same] at hc
        cases hc
      · rw [State.core_setCore_other _ _ hcy] at hc
        obtain ⟨k, hk, hkc, hholds⟩ := h c hc
        rcases List.mem_cons.1 hk with rfl | hk
        · exact absurd hkc.symm hcy
        · exact ⟨k, hk, hkc, hholds⟩
    next hy =>
      obtain ⟨k, hk, hkc, hholds⟩ := h c hc
      rcases List.mem_cons.1 hk with rfl | hk
      · exact absurd hholds hy
      · exact ⟨k, hk, hkc, hholds⟩

theorem mvpHolder_releasePath (s : State) (e c : Nat) : ((s.releasePath e).core c).mvpHolder ≠ some e := by
  refine mvpHolder_foldl_release (fun c hc => ?_) c
  unfold State.core Tab.get at hc
  cases hget : Tab.get? s.cores c with
  | none =>
    rw [hget] at hc
    cases hc
  | some x =>
    rw [hget] at hc
    exact ⟨(c, x), Tab.mem_of_get? hget, rfl, hc⟩

/-! ### The steps of the end -/

/-- The DONE signal given. -/
def State.signalDone (s : State) (e part : Nat) (d : SolveDesc) : State :=
  if d.done = 0 then s
  else (s.issueOp (.solver e) { op := 3, destDev := s.ownDev, destAddr := d.done, length := 8, op0 := 1 } (some part) [] []).1

/-- The completion code counted, with its event and, where it is asked for, the vote. -/
def State.countCode (s : State) (e : Nat) (d : SolveDesc) (o : SolveOut) : State :=
  if o.code = codeConverged then s.addSat F.SOLVER_CONV_CNT e 1
  else if o.code = codeIterLimit then s.addSat F.SOLVER_ITERLIM_CNT e 1
  else if o.code = codeDeadline then
    let t := s.countEv F.SOLVER_DEADLINE_CNT e 1 Ev.SOLVER_DEADLINE
    if d.dlLate then t.cause 0 else t
  else s.countEv F.SOLVER_FAIL_CNT e 1 Ev.SOLVER_SOLV_FAIL

/-- Regularised pivots and iterations counted. -/
def State.countWork (s : State) (e : Nat) (o : SolveOut) : State :=
  (if o.pivotReg then s.countEv F.SOLVER_REG_CNT e 1 Ev.SOLVER_PIVOT_REG else s).addWrap F.SOLVER_ITER_SUM e o.iters

/-- What else a descriptor that was bad or met poison raises. -/
def State.noteBad (s : State) (e next : Nat) (o : SolveOut) : State :=
  if o.code = codeBadDesc then s.countErr 5 e 0x80 next 0 else if o.poison then s.poisoned 5 e else s

/-- The counters of a descriptor's end, one after the other. -/
def State.endCounted (s : State) (e : Nat) (d : SolveDesc) (o : SolveOut) : State :=
  ((((s.putRecord e d o).signalDone e (s.solvPart e) d).addWrap F.SOLVER_DONE_CNT e 1).countCode e d o).countWork e o

theorem solveEnd_eq (s : State) (e ns : Nat) (d : SolveDesc) (o : SolveOut) : s.solveEnd e ns d o =
    ((((s.endCounted e d o).setFld F.SOLVER_LAST_NS e (ns - (s.solver e).startNs)).noteBad e (s.solver e).next o).releasePath e).setSolver e
      { s.solver e with next := (s.solver e).next + 1, startNs := ns, waiting := false } := rfl

theorem putRecord_working (s : State) (e : Nat) (d : SolveDesc) (o : SolveOut) : Working e s (s.putRecord e d o) := .both .refl Working.refl.solvWrite

/-- A DONE signal goes to this device: it is listed, and nothing leaves on a link. -/
theorem signalDone_working (s : State) (e part : Nat) (d : SolveDesc) : Working e s (s.signalDone e part d) := by
  refine .both .refl ?_
  unfold State.issueOp
  dsimp only
  rw [if_pos (.inl rfl)]
  exact Working.refl.upd (by rfl)

theorem countWork_working (s : State) (e : Nat) (o : SolveOut) : Working e s (s.countWork e o) :=
  (Working.both (Working.refl.countEv (by decide)) .refl).addWrap (by decide)

theorem noteBad_working (s : State) (e next : Nat) (o : SolveOut) : Working e s (s.noteBad e next o) :=
  .both Working.refl.countErr (.both Working.refl.poisoned .refl)

/-- The record and the signal: what comes before the counters. -/
theorem reported_working (s : State) (e : Nat) (d : SolveDesc) (o : SolveOut) :
    Working e s ((s.putRecord e d o).signalDone e (s.solvPart e) d) :=
  (putRecord_working s e d o).trans (signalDone_working _ e _ d)

theorem fld_addSat_place {f g : Fld} (hty : g.ty = f.ty) (h : g.apart f = true) (s : State) (i n : Nat) : (s.addSat f i n).fld g i = s.fld g i :=
  fld_setFld_place hty h s i _

theorem fld_addWrap_place {f g : Fld} (hty : g.ty = f.ty) (h : g.apart f = true) (s : State) (i n : Nat) : (s.addWrap f i n).fld g i = s.fld g i :=
  fld_setFld_place hty h s i _

/-- Counting the code leaves every field but the counters of codes. -/
theorem fld_countCode {g : Fld} (hty : g.ty = 5) (hlog : g.offLog = true)
    (h : ∀ f ∈ [F.SOLVER_CONV_CNT, F.SOLVER_ITERLIM_CNT, F.SOLVER_DEADLINE_CNT, F.SOLVER_FAIL_CNT], g.apart f = true)
    (s : State) (e : Nat) (d : SolveDesc) (o : SolveOut) : (s.countCode e d o).fld g e = s.fld g e := by
  unfold State.countCode
  split
  · exact fld_addSat_place hty (h _ (by simp)) ..
  split
  · exact fld_addSat_place hty (h _ (by simp)) ..
  split
  · have hcount := fld_countEv_other hlog (Fld.key_ne hty (h F.SOLVER_DEADLINE_CNT (by simp)) e) s 1 Ev.SOLVER_DEADLINE
    dsimp only
    split
    · exact (cause_fld ..).trans hcount
    · exact hcount
  · exact fld_countEv_other hlog (Fld.key_ne hty (h _ (by simp)) e) ..

/-- Counting work leaves every field but the counters of pivots and iterations. -/
theorem fld_countWork {g : Fld} (hty : g.ty = 5) (hlog : g.offLog = true)
    (h : ∀ f ∈ [F.SOLVER_REG_CNT, F.SOLVER_ITER_SUM], g.apart f = true) (s : State) (e : Nat) (o : SolveOut) :
    (s.countWork e o).fld g e = s.fld g e := by
  refine (fld_addWrap_place hty (h _ (by simp)) ..).trans ?_
  split
  · exact fld_countEv_other hlog (Fld.key_ne hty (h _ (by simp)) e) ..
  · rfl

theorem endCounted_doneCnt (he : e < 16) (s : State) (d : SolveDesc) (o : SolveOut) :
    (s.endCounted e d o).fld F.SOLVER_DONE_CNT e = (s.fld F.SOLVER_DONE_CNT e + 1) % 2 ^ F.SOLVER_DONE_CNT.w := by
  have hkey : solveKey (F.SOLVER_DONE_CNT.key e) := solveKey_of_solver (by decide) he
  unfold State.endCounted
  rw [(countWork_working ..).fld_eq hkey, fld_countCode rfl rfl (by decide), State.addWrap, State.fld_setFld_same,
    (reported_working s e d o).fld_eq hkey]

/-- A counter that the end of a descriptor rests on goes up by `n`, and stops at its greatest value. -/
theorem countEv_counts_of_solveKey {f : Fld} {i : Nat} (hf : solveKey (f.key i)) (s : State) (n b : Nat) :
    Counts f i n s (s.countEv f i n b) := by
  intro hlt
  unfold State.countEv
  split
  next h => omega
  next h =>
    rw [(Working.refl (e := 0)).raise.fld_eq hf, State.addSat, State.fld_setFld_same, satAdd]
    exact Nat.mod_eq_of_lt (by omega)

/-- A descriptor that ends at its deadline counts in DEADLINE_CNT (R269). -/
theorem endCounted_deadlineCnt (he : e < 16) (ho : o.code = codeDeadline) (s : State) (d : SolveDesc) :
    Counts F.SOLVER_DEADLINE_CNT e 1 s (s.endCounted e d o) := by
  have hkey : solveKey (F.SOLVER_DEADLINE_CNT.key e) := solveKey_of_solver (by decide) he
  set r := ((s.putRecord e d o).signalDone e (s.solvPart e) d).addWrap F.SOLVER_DONE_CNT e 1 with hr
  have hbefore : r.fld F.SOLVER_DEADLINE_CNT e = s.fld F.SOLVER_DEADLINE_CNT e := by
    rw [hr, fld_addWrap_place (f := F.SOLVER_DONE_CNT) (g := F.SOLVER_DEADLINE_CNT) rfl rfl, (reported_working s e d o).fld_eq hkey]
  have hcode : (r.countCode e d o).fld F.SOLVER_DEADLINE_CNT e =
      (r.countEv F.SOLVER_DEADLINE_CNT e 1 Ev.SOLVER_DEADLINE).fld F.SOLVER_DEADLINE_CNT e := by
    unfold State.countCode
    rw [ho, if_neg (by decide), if_neg (by decide), if_pos rfl]
    dsimp only
    split
    · exact cause_fld ..
    · rfl
  refine counts_congr (countEv_counts_of_solveKey hkey r 1 Ev.SOLVER_DEADLINE) hbefore.symm ?_
  exact ((countWork_working _ e o).fld_eq hkey).trans hcode

/-- What the end of a descriptor leaves of the engine, its counters and the paths, for one that stood in the table as `s` has it (R251, R254). -/
def solveEnded (e ns : Nat) (s t : State) : Prop :=
  (t.solver e).next = (s.solver e).next + 1 ∧ (t.solver e).waiting = false ∧
    t.fld F.SOLVER_DONE_CNT e = (s.fld F.SOLVER_DONE_CNT e + 1) % 2 ^ F.SOLVER_DONE_CNT.w ∧
    t.fld F.SOLVER_LAST_NS e = (ns - (s.solver e).startNs) % 2 ^ F.SOLVER_LAST_NS.w ∧ ∀ c, (t.core c).mvpHolder ≠ some e

/-- After the counters, only the engine's place and the cores change besides what is raised. -/
theorem fld_solveEnd (s : State) (e ns : Nat) (d : SolveDesc) (o : SolveOut) (f : Fld) (i : Nat) : (s.solveEnd e ns d o).fld f i =
    (((s.endCounted e d o).setFld F.SOLVER_LAST_NS e (ns - (s.solver e).startNs)).noteBad e (s.solver e).next o).fld f i := by
  rw [solveEnd_eq, releasePath_eq]
  rfl

theorem solveEnd_ended (he : e < 16) (h : Working e s t) (ns : Nat) (d : SolveDesc) (o : SolveOut) :
    solveEnded e ns s (t.solveEnd e ns d o) := by
  have hkey {f : Fld} (hf : f ∈ [F.SOLVER_SOLV_CTL, F.SOLVER_DONE_CNT, F.SOLVER_DEADLINE_CNT, F.SOLVER_LAST_NS]) := solveKey_of_solver hf he
  have hsolver : (t.solveEnd e ns d o).solver e = { t.solver e with next := (t.solver e).next + 1, startNs := ns, waiting := false } := by
    rw [solveEnd_eq, State.solver_setSolver_same]
  refine ⟨?_, ?_, ?_, ?_, fun c => ?_⟩
  · rw [hsolver, h.next]
  · rw [hsolver]
  · rw [fld_solveEnd, (noteBad_working ..).fld_eq (hkey (by decide)),
      fld_setFld_place (f := F.SOLVER_LAST_NS) (g := F.SOLVER_DONE_CNT) rfl rfl, endCounted_doneCnt he, h.fld_eq (hkey (by decide))]
  · rw [fld_solveEnd, (noteBad_working ..).fld_eq (hkey (by decide)), State.fld_setFld_same, h.startNs]
  · rw [solveEnd_eq]
    exact mvpHolder_releasePath _ e c

theorem solveEnd_deadlineCnt (he : e < 16) (h : Working e s t) (ns : Nat) (d : SolveDesc) :
    Counts F.SOLVER_DEADLINE_CNT e 1 s (t.solveEnd e ns d { code := codeDeadline }) := by
  have hkey : solveKey (F.SOLVER_DEADLINE_CNT.key e) := solveKey_of_solver (by decide) he
  refine counts_congr (endCounted_deadlineCnt (o := { code := codeDeadline }) he rfl t d) (h.fld_eq hkey).symm ?_
  rw [fld_solveEnd, (noteBad_working ..).fld_eq hkey,
    fld_setFld_place (f := F.SOLVER_LAST_NS) (g := F.SOLVER_DEADLINE_CNT) rfl rfl]

/-- A bad descriptor that writes no record and gives no signal is the page's first error: code 0x80 (R256). -/
theorem solveEnd_badDesc (h0 : s.fld (F.ERR_CNT 5) e = 0) (hrecord : d.record = 0) (hdone : d.done = 0) (ns : Nat) :
    (s.solveEnd e ns d { code := codeBadDesc }).fld (F.ERR_INFO_CODE 5) e = 0x80 := by
  have hcount : ((s.endCounted e d { code := codeBadDesc }).setFld F.SOLVER_LAST_NS e (ns - (s.solver e).startNs)).fld (F.ERR_CNT 5) e = 0 := by
    rw [fld_setFld_place (f := F.SOLVER_LAST_NS) (g := F.ERR_CNT 5) rfl rfl, State.endCounted, fld_countWork rfl rfl (by decide),
      fld_countCode rfl rfl (by decide), fld_addWrap_place (f := F.SOLVER_DONE_CNT) (g := F.ERR_CNT 5) rfl rfl, State.signalDone, if_pos hdone,
      State.putRecord, if_pos (.inl hrecord), h0]
  have hregs := errRegs_countErr_of_zero hcount 0x80 (s.solver e).next 0
  simp only [State.errRegs, Prod.mk.injEq] at hregs
  obtain ⟨-, -, -, hcode, -⟩ := hregs
  rw [fld_solveEnd, State.noteBad, if_pos rfl]
  exact hcode

/-! ### The record of a descriptor's end -/

theorem Noted.mem (h : Noted s t) : t.mem = s.mem := (congrArg State.mem h :)

theorem cause_mem (s : State) (b : Nat) : (s.cause b).mem = s.mem := by
  unfold State.cause
  split
  · rfl
  · rfl

theorem countCode_mem (s : State) (e : Nat) (d : SolveDesc) (o : SolveOut) : (s.countCode e d o).mem = s.mem := by
  unfold State.countCode
  split
  · rfl
  split
  · rfl
  split
  · dsimp only
    split
    · exact (cause_mem ..).trans Noted.refl.countEv.mem
    · exact Noted.refl.countEv.mem
  · exact Noted.refl.countEv.mem

theorem countWork_mem (s : State) (e : Nat) (o : SolveOut) : (s.countWork e o).mem = s.mem :=
  (Noted.both Noted.refl.countEv .refl).mem

theorem noteBad_mem (s : State) (e next : Nat) (o : SolveOut) : (s.noteBad e next o).mem = s.mem := by
  unfold State.noteBad
  split
  · exact Noted.refl.countErr.mem
  split
  · exact (cause_mem ..).trans Noted.refl.raise.mem
  · rfl

/-- Where no signal is asked for, the record alone is written. -/
theorem solveEnd_mem (hdone : d.done = 0) (s : State) (e ns : Nat) (o : SolveOut) : (s.solveEnd e ns d o).mem = (s.putRecord e d o).mem := by
  have hcounted : (s.endCounted e d o).mem = (s.putRecord e d o).mem := by
    rw [State.endCounted, countWork_mem, countCode_mem, State.addWrap_mem, State.signalDone, if_pos hdone]
  calc (s.solveEnd e ns d o).mem
      = (((s.endCounted e d o).setFld F.SOLVER_LAST_NS e (ns - (s.solver e).startNs)).noteBad e (s.solver e).next o).mem := by
        rw [solveEnd_eq]
        exact releasePath_mem _ e
    _ = (s.endCounted e d o).mem := noteBad_mem ..
    _ = (s.putRecord e d o).mem := hcounted

theorem solveEnd_recorded (he : e < 16) (hw : Working e s t) (hr : SameReach s t) (ns : Nat) (d : SolveDesc) (o : SolveOut) :
    Claims.recorded (s.solvPart e) d o s (t.solveEnd e ns d o) :=
  putRecord_recorded hr (hw.solvPart_eq he) fun hdone => solveEnd_mem hdone t e ns o

end Sys2Proof.Machine

/-! ## Solve descriptors (R251, R253, R254, R256, R269, R272, R275, Table 9.9) -/

namespace Sys2Proof.Machine
open Sys2Proof Sys2Proof.Claims

variable {s t : State} {e ns kind : Nat} {b : List Byte} {x : Ecc}

/-! ### Kept while the descriptor has only been read -/

/-- Reads leave what the end of a descriptor rests on. -/
theorem solvCount_working (s : State) (e i part a n : Nat) (write : Bool) :
    Working e s (s.solvCount i part a n write) :=
  Working.refl.solvCount

/-- A descriptor's run with its inputs read and the storage errors counted, before its method (R252, R254, R275). -/
def State.inputsRead (s : State) (e : Nat) (d : SolveDesc) (ins : List (Nat × Nat)) (x : Ecc) : State :=
  (ins.foldl (fun t r => t.solvCount e (s.solvPart e) r.1 r.2 false) (s.holdPath e d)).solvEcc e x

theorem inputsRead_working (s : State) (e : Nat) (d : SolveDesc) (ins : List (Nat × Nat)) (x : Ecc) : Working e s (s.inputsRead e d ins x) :=
  (Working.refl.holdPath.foldl fun _ _ => Working.solvCount).solvEcc

theorem inputsRead_reach (he : e < 16) (s : State) (d : SolveDesc) (ins : List (Nat × Nat)) (x : Ecc) : SameReach s (s.inputsRead e d ins x) := by
  have hread : Accessed (s.holdPath e d) (ins.foldl (fun t r => t.solvCount e (s.solvPart e) r.1 r.2 false) (s.holdPath e d)) :=
    Accessed.refl.foldl fun t r ht => ht.trans (solvCount_accessed t ..)
  exact ((holdPath_reach s e d).trans hread.reach).trans (solvEcc_reach he _ x)

/-! ### Every method ends its descriptor -/

section

variable (he : e < 16)
include he

theorem adjRun_ended (hw : Working e s t) (d : SolveDesc) (key : List Byte) (cls : List RowClass) (size : Nat) :
    solveEnded e ns s (t.adjRun e ns d key cls size) := by
  unfold State.adjRun
  extract_lets part vals area me it f adj
  split
  · exact solveEnd_ended he hw ..
  · exact solveEnd_ended he hw.storeFactor.solvWrite ..

theorem linRun_ended (hw : Working e s t) (d : SolveDesc) (key : List Byte) (size : Nat) : solveEnded e ns s (t.linRun e ns d key size) :=
  solveEnd_ended he (.both hw.solvWrite.solvWrite hw.solvWrite) ..

theorem qpOutputs_ended (hw : Working e s t) (d : SolveDesc) (key : List Byte) (cls : List RowClass) (size : Nat) (xbar : List Val) (q : QpData)
    (r : QpEnd) : solveEnded e ns s (t.qpOutputs e ns d key cls size xbar q r) := by
  unfold State.qpOutputs
  extract_lets part o done saved keep factor s0 s1 s2 adj runs s3
  have h0 : Working e s s0 := by
    simp only [s0]
    split
    · exact hw.storeFactor
    · exact hw
  have h1 : Working e s s1 := .both h0.solvWrite.solvWrite h0
  have h2 : Working e s s2 := h1.solvWrite
  have h3 : Working e s s3 := .both h2.solvWrite h2
  exact solveEnd_ended he h3 ..

theorem qpRun_ended (hw : Working e s t) (d : SolveDesc) (key : List Byte) (cls : List RowClass) (size : Nat) :
    solveEnded e ns s (t.qpRun e ns d key cls size) := by
  unfold State.qpRun
  extract_lets part vals q a start xbar area cold it p
  split
  · exact solveEnd_ended he hw ..
  split
  · exact solveEnd_ended he hw ..
  split
  · exact solveEnd_ended he hw ..
  · exact qpOutputs_ended he hw ..

/-- A descriptor that runs comes to its end (R251, R254). -/
theorem solveRun_ended (hw : Working e s t) (b : List Byte) (x : Ecc) : solveEnded e ns s (t.solveRun e ns b x) := by
  unfold State.solveRun
  extract_lets d part cls size ins data poison key s1
  have h1 : Working e s s1 := hw.trans (inputsRead_working t e d ins x)
  split
  · exact solveEnd_ended he h1 ..
  split
  · exact adjRun_ended he h1 ..
  · exact linRun_ended he h1 ..
  · exact linRun_ended he h1 ..
  · exact qpRun_ended he h1 ..

end

/-! ### What a solve command does -/

/-- The next descriptor has been read. -/
def State.nextRead (s : State) (e : Nat) : State := s.solvCount e (s.solvPart e) (s.nextAt e) 256 false

/-- The word that a descriptor waits on has been read. -/
def State.waitRead (s : State) (e : Nat) (d : SolveDesc) : State := s.solvCount e (s.solvPart e) d.wait (if d.wait = 0 then 0 else 8) false

/-- What a descriptor reads when it runs. -/
def State.runInputs (s : State) (e : Nat) (d : SolveDesc) : List (Nat × Nat) :=
  s.solvInputs d (workBytes d (liveRows (s.solvRows (s.solvPart e) d)))

theorem nextRead_working (s : State) (e : Nat) : Working e s (s.nextRead e) := solvCount_working ..
theorem nextRead_accessed (s : State) (e : Nat) : Accessed s (s.nextRead e) := solvCount_accessed ..

theorem waitRead_working (s : State) (e : Nat) (d : SolveDesc) : Working e s ((s.nextRead e).waitRead e d) :=
  (nextRead_working s e).trans (solvCount_working ..)

theorem waitRead_accessed (s : State) (e : Nat) (d : SolveDesc) : Accessed s ((s.nextRead e).waitRead e d) :=
  (nextRead_accessed s e).trans (solvCount_accessed ..)

theorem solveCmd_of_idle (h : s.solvBusy e = false) (ns kind : Nat) (x : Ecc) : s.solveCmd e ns kind x = s := by simp [State.solveCmd, h]

section

variable {d : SolveDesc} (hbusy : s.solvBusy e = true) (hready : s.accWaits false (s.nextAt e) 256 = false) (hd : solveDescOf (s.nextDesc e) = d)
include hbusy hready hd

/-- The engine's next descriptor may be read. -/
theorem solveCmd_of_readable (ns kind : Nat) (x : Ecc) : s.solveCmd e ns kind x =
    if d.kind ≠ kind ∧ d.kind ≤ 4 then s
    else if s.nextPoison e then (s.nextRead e).solveEnd e ns d { code := codePoisoned, poison := true }
    else if (s.nextRead e).deadlineNs d < ns then (s.nextRead e).solveEnd e ns d { code := codeDeadline }
    else (s.nextRead e).whenReadable d.early fun t => t.solveBegin e ns (s.nextDesc e) x := by
  subst hd
  have hread : ∀ r ∈ [(s.nextAt e, 256)], s.accWaits false r.1 r.2 = false := fun r hr => by rw [List.mem_singleton.1 hr, hready]
  unfold State.solveCmd
  rw [hbusy, if_neg (by decide), whenReadable_of_ready hread]
  rfl

theorem solveCmd_of_otherKind (h : d.kind ≠ kind) (h4 : d.kind ≤ 4) : s.solveCmd e ns kind x = s := by
  rw [solveCmd_of_readable hbusy hready hd, if_pos ⟨h, h4⟩]

variable (hkind : d.kind = kind)
include hkind

theorem solveCmd_of_poison (hpoison : s.nextPoison e = true) :
    s.solveCmd e ns kind x = (s.nextRead e).solveEnd e ns d { code := codePoisoned, poison := true } := by
  rw [solveCmd_of_readable hbusy hready hd, if_neg fun h => h.1 hkind, if_pos hpoison]

variable (hclean : s.nextPoison e = false)
include hclean

/-- A descriptor that the engine reaches after its deadline instant (R269). -/
theorem solveCmd_of_late (hlate : (s.nextRead e).deadlineNs d < ns) :
    s.solveCmd e ns kind x = (s.nextRead e).solveEnd e ns d { code := codeDeadline } := by
  rw [solveCmd_of_readable hbusy hready hd, if_neg fun h => h.1 hkind, hclean, if_neg (by decide), if_pos hlate]

/-- A descriptor in time, what is read before it runs being readable. -/
theorem solveCmd_of_inTime (htime : ns ≤ (s.nextRead e).deadlineNs d) (hearly : ∀ r ∈ d.early, (s.nextRead e).accWaits false r.1 r.2 = false) :
    s.solveCmd e ns kind x = (s.nextRead e).solveBegin e ns (s.nextDesc e) x := by
  rw [solveCmd_of_readable hbusy hready hd, if_neg fun h => h.1 hkind, hclean, if_neg (by decide), if_neg (Nat.not_lt.2 htime),
    whenReadable_of_ready hearly]

end

theorem solveBegin_of_bad (h : s.descBad e b = true) (ns : Nat) (x : Ecc) :
    s.solveBegin e ns b x = s.solveEnd e ns (solveDescOf b) { code := codeBadDesc } := if_pos h

section

variable {d : SolveDesc} {v : State} (hd : solveDescOf b = d) (hv : s.waitRead e d = v) (hgood : s.descBad e b = false)
  (hclean : v.solvWaitPoison e d = false)
include hd hv hgood hclean

/-- A valid descriptor without poison in the word that it waits on: its wait, its path, its run (R253, R254). -/
theorem solveBegin_of_good (ns : Nat) (x : Ecc) : s.solveBegin e ns b x =
    if !v.solvWaitMet e d then v.setSolver e { v.solver e with waiting := true }
    else if !v.pathFree e d then v
    else v.whenReadable (v.runInputs e d) fun t => t.solveRun e ns b x := by
  subst hd hv
  have hpart : (s.waitRead e (solveDescOf b)).solvPart e = s.solvPart e := (solvCount_accessed ..).fld_eq (by decide) e
  unfold State.solveBegin
  rw [hgood, if_neg (by decide)]
  refine (if_neg (ne_true_of_eq_false hclean)).trans ?_
  unfold State.runInputs
  rw [hpart]
  rfl

theorem solveBegin_of_waiting (hmet : v.solvWaitMet e d = false) (ns : Nat) (x : Ecc) :
    s.solveBegin e ns b x = v.setSolver e { v.solver e with waiting := true } := by
  rw [solveBegin_of_good hd hv hgood hclean, hmet, if_pos (by decide)]

variable (hmet : v.solvWaitMet e d = true)
include hmet

theorem solveBegin_of_pathTaken (hpath : v.pathFree e d = false) (ns : Nat) (x : Ecc) : s.solveBegin e ns b x = v := by
  rw [solveBegin_of_good hd hv hgood hclean, hmet, hpath, if_neg (by decide), if_pos (by decide)]

theorem solveBegin_of_ready (hpath : v.pathFree e d = true) (hins : ∀ r ∈ v.runInputs e d, v.accWaits false r.1 r.2 = false) (ns : Nat)
    (x : Ecc) : s.solveBegin e ns b x = v.solveRun e ns b x := by
  rw [solveBegin_of_good hd hv hgood hclean, hmet, hpath, if_neg (by decide), if_neg (by decide), whenReadable_of_ready hins]

end

/-- Poison in the inputs, or an uncorrectable error of the engine store, ends a descriptor without a result (R275). -/
theorem solveRun_of_poison
    (h : 0 < x.uncorr ∨ ∃ r ∈ s.runInputs e (solveDescOf b), (s.readMem (some (s.solvPart e)) r.1 r.2).poison ≠ []) :
    s.solveRun e ns b x =
      (s.inputsRead e (solveDescOf b) (s.runInputs e (solveDescOf b)) x).solveEnd e ns (solveDescOf b) { code := codePoisoned, poison := true } := by
  refine if_pos ?_
  rw [Bool.or_eq_true, List.any_map, List.any_eq_true, decide_eq_true_eq]
  refine h.symm.imp_left fun ⟨r, hr, hpoison⟩ => ⟨r, hr, ?_⟩
  simpa [List.isEmpty_iff] using hpoison

/-! ### SOLVE_DEADLINE and SOLVE_WAIT_RELEASE -/

theorem solveDeadline_of_reached {e : Fin 16} (hbusy : s.solvBusy e.val = true) (h : s.deadlineNs (solveDescOf (s.nextDesc e.val)) ≤ ns) :
    Does (.solveDeadline e ns) s (s.solveEnd e.val ns (solveDescOf (s.nextDesc e.val)) { code := codeDeadline }) := by
  refine congrArg Host.Outcome.next (if_pos ?_)
  rw [hbusy, decide_eq_true h]
  rfl

theorem solveDeadline_of_not {e : Fin 16} (h : s.solvBusy e.val = false ∨ ns < s.deadlineNs (solveDescOf (s.nextDesc e.val))) :
    Does (.solveDeadline e ns) s s := by
  refine congrArg Host.Outcome.next (if_neg ?_)
  rw [Bool.and_eq_true, decide_eq_true_eq]
  rintro ⟨hbusy, hle⟩
  rcases h with hidle | hlt
  · rw [hidle] at hbusy
    cases hbusy
  · omega

/-- The descriptor that waited starts, and has its path (R253, R254). -/
theorem solveWaitRelease_of_met {e : Fin 16} (hwaiting : (s.solver e.val).waiting = true) (hbusy : s.solvBusy e.val = true)
    (hmet : s.solvWaitMet e.val (solveDescOf (s.nextDesc e.val)) = true) (hpath : s.pathFree e.val (solveDescOf (s.nextDesc e.val)) = true) :
    Does (.solveWaitRelease e ns) s
      ((s.setSolver e.val { s.solver e.val with waiting := false, startNs := ns }).holdPath e.val (solveDescOf (s.nextDesc e.val))) := by
  refine congrArg Host.Outcome.next (if_pos ?_)
  rw [hwaiting, hbusy, hmet, hpath]
  rfl

theorem holdPath_solver (s : State) (e i : Nat) (d : SolveDesc) : (s.holdPath e d).solver i = s.solver i := rfl

theorem mvpHolder_holdPath (s : State) (e : Nat) (d : SolveDesc) : ((s.holdPath e d).core (d.core e)).mvpHolder = some e := by
  rw [State.holdPath, State.core_setCore_same]

theorem solveWaitRelease_of_not {e : Fin 16} (h : (s.solver e.val).waiting = false ∨
    s.solvWaitMet e.val (solveDescOf (s.nextDesc e.val)) = false ∨ s.pathFree e.val (solveDescOf (s.nextDesc e.val)) = false) :
    Does (.solveWaitRelease e ns) s s := by
  refine congrArg Host.Outcome.next (if_neg ?_)
  rcases h with h | h | h <;> simp [h]

/-! ### The statement -/

/-- Each solve command runs the next descriptor where it is of the command's kind. -/
theorem exec_solveCmd (e : Fin 16) (ns : Nat) (x : Ecc) (s : State) :
    ∀ k ∈ [(Instr.qp e ns x, 0), (.qpAdj e ns x, 1), (.adj e ns x, 2), (.linSym e ns x, 3), (.linGen e ns x, 4)],
      exec k.1 s = .next (s.solveCmd e.val ns k.2 x) := by
  simp only [List.forall_mem_cons, List.not_mem_nil, false_implies, implies_true, and_true]
  exact ⟨rfl, rfl, rfl, rfl, rfl⟩

/-- Settles O32: each branch of a solve command is an equation of the state after it; what only reads leaves what a descriptor's end rests on, and
every method comes to that end. -/
theorem solverDescriptorsEnd : Obligations.SolverDescriptorsEnd := by
  intro e ns x s b d m part u v ins ends
  have he : e.val < 16 := e.isLt
  have hu : Working e.val s u := nextRead_working s e.val
  have hv : Working e.val s v := waitRead_working s e.val d
  have hur : SameReach s u := (nextRead_accessed s e.val).reach
  have hvr : SameReach s v := (waitRead_accessed s e.val d).reach
  refine ⟨fun k hk => ?_, fun hbusy hreached => ?_, solveDeadline_of_not, fun hwaiting hbusy hmet hpath => ?_, solveWaitRelease_of_not⟩
  · have hexec := exec_solveCmd e ns x s k hk
    refine ⟨fun hidle => hexec.trans (congrArg _ (solveCmd_of_idle hidle ..)), fun hbusy hready => ⟨fun hother h4 => ?_, fun hkind hpoison => ?_,
      fun hkind hclean => ⟨fun hlate => ?_, fun htime hearly => ?_⟩⟩⟩
    · exact hexec.trans (congrArg _ (solveCmd_of_otherKind hbusy hready rfl hother h4))
    · exact ⟨_, hexec.trans (congrArg _ (solveCmd_of_poison hbusy hready rfl hkind hpoison)), solveEnd_ended he hu ns d _,
        solveEnd_recorded he hu hur ns d _⟩
    · exact ⟨_, hexec.trans (congrArg _ (solveCmd_of_late hbusy hready rfl hkind hclean hlate)), solveEnd_ended he hu ns d _,
        solveEnd_recorded he hu hur ns d _, solveEnd_deadlineCnt he hu ns d⟩
    · have hbegin : exec k.1 s = .next (u.solveBegin e.val ns b x) :=
        hexec.trans (congrArg _ (solveCmd_of_inTime hbusy hready rfl hkind hclean htime hearly))
      refine ⟨fun hbad => ?_, fun hgood hword => ⟨fun hwait => ?_, fun hmet htaken => ?_, fun hmet hpath hins => ?_⟩⟩
      · exact ⟨_, hbegin.trans (congrArg _ (solveBegin_of_bad hbad ..)), solveEnd_ended he hu ns d _, solveEnd_recorded he hu hur ns d _,
          fun h0 hrecord hdone => solveEnd_badDesc h0 hrecord hdone ns⟩
      · exact hbegin.trans (congrArg _ (solveBegin_of_waiting rfl rfl hgood hword hwait ..))
      · exact hbegin.trans (congrArg _ (solveBegin_of_pathTaken rfl rfl hgood hword hmet htaken ..))
      · refine ⟨v.solveRun e.val ns b x, hbegin.trans (congrArg _ (solveBegin_of_ready rfl rfl hgood hword hmet hpath hins ..)),
          solveRun_ended he hv b x, fun hpoison => ?_⟩
        have hpart : v.solvPart e.val = part := hv.solvPart_eq he
        have hrun : v.solveRun e.val ns b x = (v.inputsRead e.val d ins x).solveEnd e.val ns d { code := codePoisoned, poison := true } :=
          solveRun_of_poison (by rw [hpart]; exact hpoison)
        rw [hrun]
        exact solveEnd_recorded he (hv.trans (inputsRead_working ..)) (hvr.trans (inputsRead_reach he ..)) ns d _
  · exact ⟨_, solveDeadline_of_reached hbusy hreached, solveEnd_ended he .refl ns d _, solveEnd_recorded he .refl Accessed.refl.reach ns d _,
      solveEnd_deadlineCnt he .refl ns d⟩
  · refine ⟨_, solveWaitRelease_of_met hwaiting hbusy hmet hpath, ?_, ?_, ?_, mvpHolder_holdPath .., rfl⟩ <;>
      rw [holdPath_solver, State.solver_setSolver_same]

end Sys2Proof.Machine

/-! ## The cellar and the host (R293, R302 to R304) -/

namespace Sys2Proof.Machine
open Sys2Proof Sys2Proof.Claims

variable {s t : State} {die : Fin 8} {line : BitVec 48} {h d l : Nat}

theorem State.fld_addWrap_same (s : State) (f : Fld) (i n : Nat) : (s.addWrap f i n).fld f i = (s.fld f i + n) % 2 ^ f.w :=
  State.fld_setFld_same ..

theorem State.evictBuf_setEvict_same (s : State) (d : Nat) (l : List EvictEntry) : (s.setEvict d l).evictBuf d = l := Tab.get_set_same ..

theorem State.filterOf_setFilter_same (s : State) (d : Nat) (l : List (Nat × Bool)) : (s.setFilter d l).filterOf d = l := Tab.get_set_same ..

/-! ### DIRTY_EVICT (R293, R302) -/

section

variable (hhalf : halfOf die.val line.toNat = some h)
include hhalf

/-- A dirty host half goes to the eviction buffer, while there is room. -/
theorem dirtyEvict_of_room {e : Nat × CacheLine} (hm : ((s.hostLines h).find? fun e => e.2.half h == .m) = some e)
    (hroom : (s.evictBuf die.val).length < 64) :
    Does (.dirtyEvict die line) s
      ((((s.setHalf e.1 e.2 h .i).setEvict die.val (s.evictBuf die.val ++ [{ half := h, data := s.halfData h }])).addWrap
        F.CELLAR_WB_CNT die.val 1).emit (.dirtyEvict line.toNat)) := by
  show execDirtyEvict die line s = _
  simp only [execDirtyEvict, hhalf, hm, hroom, if_true]

/-- Without a dirty half, or without room, nothing is evicted. -/
theorem dirtyEvict_of_blocked
    (hno : ((s.hostLines h).find? fun e => e.2.half h == .m) = none ∨ 64 ≤ (s.evictBuf die.val).length) :
    Does (.dirtyEvict die line) s s := by
  show execDirtyEvict die line s = _
  simp only [execDirtyEvict, hhalf]
  split
  next hm =>
    rcases hno with hno | hfull
    · cases hno.symm.trans hm
    · rw [if_neg (Nat.not_lt.2 hfull)]
  next => rfl

end

/-- A line of DRAM leaves the cache of its home die, counted where it was dirty (R293). -/
theorem dirtyEvict_of_dram (hreg : regionOf line.toNat ≠ .host) (hhome : homeDie line.toNat = die.val) :
    Does (.dirtyEvict die line) s
      (({ s with cellar := { s.cellar with lines := s.cellar.lines.filter fun e => !(e.1 / 8 == line.toNat / 128) } }).addWrap F.CELLAR_WB_CNT die.val
        (s.cellar.lines.filter fun (e : Nat × CacheLine) => e.1 / 8 == line.toNat / 128 && e.2.dirty).length) := by
  have hhalf : halfOf die.val line.toNat = none := if_neg fun hc => hreg hc.1
  show execDirtyEvict die line s = _
  simp only [execDirtyEvict, hhalf, hreg, hhome, ne_eq, not_true_eq_false, or_self, if_false]

theorem dirtyEvict_dram_gives (hreg : regionOf line.toNat ≠ .host) (hhome : homeDie line.toNat = die.val) :
    Gives (.dirtyEvict die line) s fun t =>
      (∀ e ∈ t.cellar.lines, e.1 / 8 ≠ line.toNat / 128) ∧
        (∀ e ∈ s.cellar.lines, e.1 / 8 ≠ line.toNat / 128 → e ∈ t.cellar.lines) ∧
        t.fld F.CELLAR_WB_CNT die.val = (s.fld F.CELLAR_WB_CNT die.val +
          (s.cellar.lines.filter fun e => e.1 / 8 == line.toNat / 128 && e.2.dirty).length) % 2 ^ F.CELLAR_WB_CNT.w ∧ t.mem = s.mem := by
  refine ⟨_, dirtyEvict_of_dram hreg hhome, fun e he => ?_, fun e he hne => ?_, State.fld_addWrap_same .., rfl⟩
  · have hkept := (List.mem_filter.1 he).2
    simpa using hkept
  · exact List.mem_filter.2 ⟨he, by simpa using hne⟩

/-! ### The answer to a DirtyEvict (R303) -/

theorem goAnswer_of_none (h : ((s.evictBuf d).find? fun x => x.half == l / 64) = none) (pull : Bool) : s.goAnswer d l pull = s := by
  simp only [State.goAnswer, h]

theorem goAnswer_of_some {y : EvictEntry} (h : ((s.evictBuf d).find? fun x => x.half == l / 64) = some y) (pull : Bool) :
    s.goAnswer d l pull =
      if pull then (s.setEvict d ((s.evictBuf d).filter fun x => x.half != y.half)).emit (.hostData l y.forwarded y.data)
      else s.setEvict d ((s.evictBuf d).filter fun x => x.half != y.half) := by
  simp only [State.goAnswer, h]

/-! ### HOST_SNOOP (R303) -/

/-- The snoop has been counted on the die; the outputs and the host are as they were. -/
def Snooped (d : Nat) (s t : State) : Prop :=
  t.sent = s.sent ∧ t.host = s.host ∧ t.fld F.CELLAR_HSNP_CNT d = (s.fld F.CELLAR_HSNP_CNT d + 1) % 2 ^ F.CELLAR_HSNP_CNT.w

/-- The state in which a snoop is judged. -/
def State.snoopSeen (s : State) (d : Nat) : State := s.addWrap F.CELLAR_HSNP_CNT d 1

theorem snoopSeen_snooped (s : State) (d : Nat) : Snooped d s (s.snoopSeen d) := ⟨rfl, rfl, State.fld_addWrap_same ..⟩

/-- The buffer's entry forwards its data, and EVB_FWD counts it. -/
def State.snoopForward (s : State) (d h : Nat) : State :=
  (s.setEvict d ((s.evictBuf d).map fun x => if x.half = h then { x with forwarded := true } else x)).addSat F.CELLAR_EVB_FWD d 1

theorem Snooped.forward (hs : Snooped d s t) (h : Nat) : Snooped d s (t.snoopForward d h) := by
  obtain ⟨hsent, hhost, hcnt⟩ := hs
  refine ⟨hsent, hhost, ?_⟩
  exact (fld_addSat_place (f := F.CELLAR_EVB_FWD) (g := F.CELLAR_HSNP_CNT) rfl rfl ..).trans hcnt

theorem forwarded_of_snoopForward {y : EvictEntry} (hy : y ∈ (s.snoopForward d h).evictBuf d) (hhalf : y.half = h) : y.forwarded = true := by
  have hbuf : (s.snoopForward d h).evictBuf d = (s.evictBuf d).map fun x => if x.half = h then { x with forwarded := true } else x :=
    State.evictBuf_setEvict_same ..
  rw [hbuf, List.mem_map] at hy
  obtain ⟨x, -, rfl⟩ := hy
  split
  · rfl
  next hne => rw [if_neg hne] at hhalf; exact absurd hhalf hne

/-- Every cached line of a half takes the state `x` there. -/
def State.setHalves (s : State) (l : List (Nat × CacheLine)) (h : Nat) (x : Mesi) : State := l.foldl (fun t y => t.setHalf y.1 y.2 h x) s

theorem Snooped.setHalves (hs : Snooped d s t) (l : List (Nat × CacheLine)) (h : Nat) (x : Mesi) : Snooped d s (t.setHalves l h x) := by
  induction l generalizing t with
  | nil => exact hs
  | cons y l ih => exact ih (t := t.setHalf y.1 y.2 h x) hs

theorem Snooped.answers {c : Instr} {code : Nat} {data : List Byte} (hs : Snooped d s t)
    (hexec : Does c s (t.emit (.snoopAnswer l code data))) : Gives c s fun u =>
      u.sent = .snoopAnswer l code data :: s.sent ∧ u.host = s.host ∧
        u.fld F.CELLAR_HSNP_CNT d = (s.fld F.CELLAR_HSNP_CNT d + 1) % 2 ^ F.CELLAR_HSNP_CNT.w := by
  obtain ⟨hsent, hhost, hcnt⟩ := hs
  exact ⟨_, hexec, congrArg _ hsent, hhost, hcnt⟩

theorem hostSnoop_of_foreign (hhalf : halfOf die.val line.toNat = none) (inv : Bool) :
    Does (.hostSnoop die line inv) s ((s.snoopSeen die.val).emit (.snoopAnswer line.toNat 0 [])) := by
  show execHostSnoop die line inv s = _
  simp only [execHostSnoop, hhalf, State.snoopSeen]

section

variable (hhalf : halfOf die.val line.toNat = some h)
include hhalf

theorem hostSnoop_of_buffered {e : EvictEntry} (he : ((s.evictBuf die.val).find? fun x => x.half == h) = some e) (inv : Bool) :
    Does (.hostSnoop die line inv) s (((s.snoopSeen die.val).snoopForward die.val h).emit (.snoopAnswer line.toNat 1 e.data)) := by
  have hseen : (((s.addWrap F.CELLAR_HSNP_CNT die.val 1).evictBuf die.val).find? fun x => x.half == h) = some e := he
  show execHostSnoop die line inv s = _
  simp only [execHostSnoop, hhalf, hseen, State.snoopSeen, State.snoopForward]

variable (hnone : ((s.evictBuf die.val).find? fun x => x.half == h) = none)
include hnone

theorem hostSnoop_of_absent (hlines : s.hostLines h = []) (inv : Bool) :
    Does (.hostSnoop die line inv) s ((s.snoopSeen die.val).emit (.snoopAnswer line.toNat 0 [])) := by
  have hseen : (((s.addWrap F.CELLAR_HSNP_CNT die.val 1).evictBuf die.val).find? fun x => x.half == h) = none := hnone
  have hseenLines : (s.addWrap F.CELLAR_HSNP_CNT die.val 1).hostLines h = [] := hlines
  show execHostSnoop die line inv s = _
  simp only [execHostSnoop, hhalf, hseen, hseenLines, State.snoopSeen]

/-- A cached half is answered by its state `x`: M where some partition's line holds it so, else that of the first line. -/
theorem hostSnoop_of_cached {e : Nat × CacheLine} {rest : List (Nat × CacheLine)} {x : Mesi} (hlines : s.hostLines h = e :: rest)
    (hx : (if (e :: rest).any fun y => y.2.half h == .m then .m else e.2.half h) = x) (inv : Bool) :
    Does (.hostSnoop die line inv) s (((s.snoopSeen die.val).setHalves (e :: rest) h (if inv then .i else .s)).emit
      (.snoopAnswer line.toNat (snoopCode inv x) (if x = .m then s.halfData h else []))) := by
  have hseen : (((s.addWrap F.CELLAR_HSNP_CNT die.val 1).evictBuf die.val).find? fun x => x.half == h) = none := hnone
  have hseenLines : (s.addWrap F.CELLAR_HSNP_CNT die.val 1).hostLines h = e :: rest := hlines
  subst hx
  show execHostSnoop die line inv s = _
  simp only [execHostSnoop, hhalf, hseen, hseenLines]
  rfl

theorem hostSnoop_of_modified (hm : ((s.hostLines h).any fun e => e.2.half h == .m) = true) (inv : Bool) :
    Does (.hostSnoop die line inv) s (((s.snoopSeen die.val).setHalves (s.hostLines h) h (if inv then .i else .s)).emit
      (.snoopAnswer line.toNat (if inv then 1 else 4) (s.halfData h))) := by
  cases hlines : s.hostLines h with
  | nil => simp [hlines] at hm
  | cons e rest => exact hostSnoop_of_cached hhalf hnone hlines (if_pos (hlines ▸ hm)) inv

/-- A cached half that is not modified is E or S: the answer carries no data. -/
theorem hostSnoop_of_clean (hlines : s.hostLines h ≠ []) (hm : ((s.hostLines h).any fun e => e.2.half h == .m) = false) (inv : Bool) :
    Does (.hostSnoop die line inv) s (((s.snoopSeen die.val).setHalves (s.hostLines h) h (if inv then .i else .s)).emit
      (.snoopAnswer line.toNat (if inv then 2 else 3) [])) := by
  obtain ⟨e, rest, hcons⟩ := List.exists_cons_of_ne_nil hlines
  have he : e ∈ s.hostLines h := hcons ▸ List.mem_cons_self
  have hvalid : e.2.half h ≠ .i := bne_iff_ne.1 (Bool.and_eq_true_iff.1 (List.mem_filter.1 he).2).2
  have hclean : e.2.half h ≠ .m := by simpa using List.any_eq_false.1 hm e he
  have hexec := hostSnoop_of_cached hhalf hnone hcons (if_neg (Bool.eq_false_iff.1 (hcons ▸ hm))) inv
  rw [← hcons] at hexec
  cases hx : e.2.half h with
  | i => exact absurd hx hvalid
  | s | e => rwa [hx] at hexec
  | m => exact absurd hx hclean

end

/-! ### BISNP_RESPONSE (R304) -/

/-- The host has given up a line: the data it held in M is stored, the line or its M leaves the snoop filter, and no BISnp is on its way. -/
def State.givenUp (s : State) (d h : Nat) (data : List Byte) (inv : Bool) : State :=
  let f := s.filterOf d
  let s1 := if f.any fun e => e.1 == h && e.2 then s.storeBlock (h * 64) (padTo 64 data) false else s
  let s2 := s1.setFilter d (if inv then f.filter fun e => e.1 != h else f.map fun e => if e.1 = h then (h, false) else e)
  { s2 with cellar := { s2.cellar with asked := s2.cellar.asked.filter fun e => e.1 != h } }

section

variable {data : List Byte} {inv : Bool} {e : Nat × Bool}

theorem givenUp_key_ne_of_mem_asked (he : e ∈ (s.givenUp d h data inv).cellar.asked) : e.1 ≠ h := bne_iff_ne.1 (List.mem_filter.1 he).2

theorem givenUp_filterOf (s : State) (d h : Nat) (data : List Byte) (inv : Bool) : (s.givenUp d h data inv).filterOf d =
    if inv then (s.filterOf d).filter fun e => e.1 != h else (s.filterOf d).map fun e => if e.1 = h then (h, false) else e :=
  State.filterOf_setFilter_same ..

theorem givenUp_mem (s : State) (d h : Nat) (data : List Byte) (inv : Bool) : (s.givenUp d h data inv).mem =
    (if (s.filterOf d).any fun e => e.1 == h && e.2 then s.storeBlock (h * 64) (padTo 64 data) false else s).mem := rfl

theorem givenUp_key_ne_of_mem_filterOf (he : e ∈ (s.givenUp d h data true).filterOf d) : e.1 ≠ h := by
  rw [givenUp_filterOf, if_pos rfl] at he
  exact bne_iff_ne.1 (List.mem_filter.1 he).2

theorem givenUp_not_modified_of_mem_filterOf (he : e ∈ (s.givenUp d h data false).filterOf d) (hkey : e.1 = h) : e.2 = false := by
  rw [givenUp_filterOf, if_neg (by decide), List.mem_map] at he
  obtain ⟨x, -, rfl⟩ := he
  split
  · rfl
  next hne => rw [if_neg hne] at hkey; exact absurd hkey hne

end

theorem bisnpResponse_of_asked (hhome : homeDie (line.toNat / 64 * 64) = die.val)
    (hasked : s.cellar.asked.contains (line.toNat / 64, true) = true ∨ s.cellar.asked.contains (line.toNat / 64, false) = true)
    (data : List Byte) :
    Does (.bisnpResponse die line data) s
      (s.givenUp die.val (line.toNat / 64) data (s.cellar.asked.contains (line.toNat / 64, true))).drainAll := by
  refine if_neg ?_
  rintro (hne | ⟨hinv, hshared⟩)
  · exact hne hhome
  · rcases hasked with htrue | htrue
    · cases hinv.symm.trans htrue
    · cases hshared.symm.trans htrue

/-- An answer that the die has not asked for changes nothing. -/
theorem bisnpResponse_of_unasked {data : List Byte} (hno : homeDie (line.toNat / 64 * 64) ≠ die.val ∨
    (s.cellar.asked.contains (line.toNat / 64, true) = false ∧ s.cellar.asked.contains (line.toNat / 64, false) = false)) :
    Does (.bisnpResponse die line data) s s := if_pos hno

/-! ### The statement -/

theorem dirtyEvict_room_gives (hhalf : halfOf die.val line.toNat = some h) {e : Nat × CacheLine}
    (hm : ((s.hostLines h).find? fun e => e.2.half h == .m) = some e) (hroom : (s.evictBuf die.val).length < 64) :
    Gives (.dirtyEvict die line) s fun t =>
      t.evictBuf die.val = s.evictBuf die.val ++ [{ half := h, data := s.halfData h }] ∧ t.sent = .dirtyEvict line.toNat :: s.sent ∧
        t.fld F.CELLAR_WB_CNT die.val = (s.fld F.CELLAR_WB_CNT die.val + 1) % 2 ^ F.CELLAR_WB_CNT.w ∧ t.host = s.host :=
  ⟨_, dirtyEvict_of_room hhalf hm hroom, State.evictBuf_setEvict_same .., rfl, State.fld_addWrap_same .., rfl⟩

/-- Settles O33: each command's case is an equation of the state after it; the clauses read that state. -/
theorem hostCoherence : Obligations.HostCoherence := by
  refine ⟨fun die line s h hhalf => ⟨fun e hm hroom => dirtyEvict_room_gives hhalf hm hroom, dirtyEvict_of_blocked hhalf⟩,
    fun die line s => dirtyEvict_dram_gives, fun die line s => ?_, fun die line inv s => ?_, fun die line data s => ?_⟩
  · refine ⟨fun hnone => ⟨?_, ?_⟩, fun y hy => ⟨s.goAnswer die.val line.toNat true, s.goAnswer die.val line.toNat false, rfl, rfl, ?_⟩⟩
    · exact congrArg (fun t : State => Host.Outcome.next t.drainAll) (goAnswer_of_none hnone true)
    · exact congrArg (fun t : State => Host.Outcome.next t.drainAll) (goAnswer_of_none hnone false)
    · rw [goAnswer_of_some hy, goAnswer_of_some hy, if_pos rfl, if_neg (by decide)]
      exact ⟨State.evictBuf_setEvict_same .., rfl, rfl, rfl, rfl, rfl⟩
  · have hseen := snoopSeen_snooped s die.val
    refine ⟨fun hhalf => hseen.answers (hostSnoop_of_foreign hhalf inv), fun h hhalf => ⟨fun e he => ?_, fun hnone => ?_⟩⟩
    · have hexec := hostSnoop_of_buffered hhalf he inv
      exact ⟨(hseen.forward h).answers hexec, _, hexec, fun y hy => forwarded_of_snoopForward hy⟩
    · exact ⟨fun habsent => hseen.answers (hostSnoop_of_absent hhalf hnone habsent inv),
        fun hm => (hseen.setHalves ..).answers (hostSnoop_of_modified hhalf hnone hm inv),
        fun hcached hm => (hseen.setHalves ..).answers (hostSnoop_of_clean hhalf hnone hcached hm inv)⟩
  · refine ⟨fun hhome hasked => ⟨s.givenUp die.val (line.toNat / 64) data _, bisnpResponse_of_asked hhome hasked data,
      fun _ => givenUp_key_ne_of_mem_asked, fun hinv => ?_, fun hinv => ?_, fun hdirty => ?_, fun hclean => ?_⟩, bisnpResponse_of_unasked⟩
    · rw [hinv]
      exact fun _ => givenUp_key_ne_of_mem_filterOf
    · rw [hinv]
      exact fun _ => givenUp_not_modified_of_mem_filterOf
    · rw [givenUp_mem, if_pos hdirty]
    · rw [givenUp_mem, if_neg (ne_true_of_eq_false hclean)]

end Sys2Proof.Machine

/-! ## Requests to DRAM and patrol scrub (R284 to R289) -/

namespace Sys2Proof.Machine
open Sys2Proof Sys2Proof.Claims

variable {s t : State} {k p : Nat} {r : DramReq} {wait : Bool}

/-- A counter that saturates goes up by `n`. -/
theorem addSat_counts (s : State) (f : Fld) (i n : Nat) : Counts f i n s (s.addSat f i n) := by
  intro hlt
  rw [State.addSat, State.fld_setFld_same, satAdd]
  exact Nat.mod_eq_of_lt (by omega)

/-! ### Regulators (R286 to R289) -/

theorem State.stack_setStack_same (s : State) (k : Nat) (x : StackState) : (s.setStack k x).stack k = x := Tab.get_set_same ..

/-- A request that is issued counts its bytes, and takes nothing. -/
theorem stack_stackIssued (s : State) (k : Nat) (r : DramReq) : (s.stackIssued k r).stack k =
    { s.stack k with
      rd := (s.stack k).rd + (if r.write then 0 else r.bytes), wr := (s.stack k).wr + (if r.write then r.bytes else 0) } :=
  State.stack_setStack_same ..

theorem ordinary_of_unregulated (h : s.fld (F.STACK_REG_RATE.nth p) k = 1024) : s.ordinary k p r wait = (s.stackIssued k r, true) := if_pos h

/-- A partition without tokens waits, where nothing lets it pass; its first wait is counted (R287). -/
theorem ordinary_of_waiting (hrate : s.fld (F.STACK_REG_RATE.nth p) k ≠ 1024) (htokens : s.tokens k p ≤ 0)
    (hconserve : s.flag F.STACK_STK_CTL_WORK_CONSERVE k = false) (hfirst : p ∉ (s.stack k).waited) :
    s.ordinary k p r wait =
      ((s.setStack k { s.stack k with waited := insertNat (s.stack k).waited p }).addSat (F.STACK_REG_WAIT.nth p) k 1, false) := by
  have hheld : ¬(0 < s.tokens k p ∨ (s.flag F.STACK_STK_CTL_WORK_CONSERVE k = true ∧ wait = false)) := by
    rintro (hpos | ⟨hon, -⟩)
    · omega
    · cases hconserve.symm.trans hon
  refine (if_neg hrate).trans ((if_neg hheld).trans (if_neg ?_))
  rwa [List.contains_iff_mem]

section

variable {k : Fin 16} {ns : Nat}

/-- Every write goes through the regulator of its partition. -/
theorem dramRequestIssue_of_write (hw : r.write = true) :
    Does (.dramRequestIssue k ns r wait) s ((s.refill k.val ns).ordinary k.val r.part.val r wait).1 := by
  show execDramRequestIssue k ns r wait s = _
  simp only [execDramRequestIssue, hw, true_or, if_true]

/-- A sequencer read takes 25 times its bytes from the privileged bucket, while that holds some (R289). -/
theorem dramRequestIssue_of_privileged (hw : r.write = false) (hcls : r.cls = 1) (hpriv : 0 < ((s.refill k.val ns).stack k.val).priv) :
    Does (.dramRequestIssue k ns r wait) s (((s.refill k.val ns).setStack k.val
      { (s.refill k.val ns).stack k.val with priv := ((s.refill k.val ns).stack k.val).priv - 25 * r.bytes }).stackIssued k.val r) := by
  show execDramRequestIssue k ns r wait s = _
  simp [execDramRequestIssue, hw, hcls, hpriv]

theorem dramRequestIssue_unregulated_gives (hw : r.write = true) (hrate : s.fld (F.STACK_REG_RATE.nth r.part.val) k.val = 1024) :
    Gives (.dramRequestIssue k ns r wait) s fun t =>
      (t.stack k.val).wr = ((s.refill k.val ns).stack k.val).wr + r.bytes ∧ (t.stack k.val).rd = ((s.refill k.val ns).stack k.val).rd ∧
        t.regs = s.regs ∧ t.mem = s.mem := by
  have hissued : ((s.refill k.val ns).ordinary k.val r.part.val r wait).1 = (s.refill k.val ns).stackIssued k.val r :=
    congrArg Prod.fst (ordinary_of_unregulated (s := s.refill k.val ns) hrate)
  refine ⟨_, (dramRequestIssue_of_write hw).trans (congrArg _ hissued), ?_, ?_, rfl, rfl⟩ <;> rw [stack_stackIssued, hw] <;> rfl

theorem dramRequestIssue_privileged_gives (hw : r.write = false) (hcls : r.cls = 1)
    (hpriv : 0 < ((s.refill k.val ns).stack k.val).priv) : Gives (.dramRequestIssue k ns r wait) s fun t =>
      (t.stack k.val).rd = ((s.refill k.val ns).stack k.val).rd + r.bytes ∧
        (t.stack k.val).priv = ((s.refill k.val ns).stack k.val).priv - 25 * r.bytes ∧
        (t.stack k.val).tokens = ((s.refill k.val ns).stack k.val).tokens ∧ t.regs = s.regs ∧ t.mem = s.mem := by
  refine ⟨_, dramRequestIssue_of_privileged hw hcls hpriv, ?_, ?_, ?_, rfl, rfl⟩
  · rw [stack_stackIssued, State.stack_setStack_same, hw]
    rfl
  · rw [stack_stackIssued, State.stack_setStack_same]
  · rw [stack_stackIssued, State.stack_setStack_same]

theorem dramRequestIssue_waiting_gives (hw : r.write = true) (hrate : s.fld (F.STACK_REG_RATE.nth r.part.val) k.val ≠ 1024)
    (htokens : (s.refill k.val ns).tokens k.val r.part.val ≤ 0) (hconserve : s.flag F.STACK_STK_CTL_WORK_CONSERVE k.val = false)
    (hfirst : r.part.val ∉ ((s.refill k.val ns).stack k.val).waited) : Gives (.dramRequestIssue k ns r wait) s fun t =>
      (t.stack k.val).wr = ((s.refill k.val ns).stack k.val).wr ∧ (t.stack k.val).rd = ((s.refill k.val ns).stack k.val).rd ∧
        r.part.val ∈ (t.stack k.val).waited ∧ Counts (F.STACK_REG_WAIT.nth r.part.val) k.val 1 s t := by
  set u := s.refill k.val ns
  have hwaits : (u.ordinary k.val r.part.val r wait).1 = _ := congrArg Prod.fst (ordinary_of_waiting hrate htokens hconserve hfirst)
  have hstack : (((u.setStack k.val { u.stack k.val with waited := insertNat (u.stack k.val).waited r.part.val }).addSat
      (F.STACK_REG_WAIT.nth r.part.val) k.val 1).stack k.val) =
        { u.stack k.val with waited := insertNat (u.stack k.val).waited r.part.val } := State.stack_setStack_same ..
  refine ⟨_, (dramRequestIssue_of_write hw).trans (congrArg _ hwaits), ?_, ?_, ?_, ?_⟩
  · rw [hstack]
  · rw [hstack]
  · rw [hstack]
    exact mem_insertNat ..
  · exact counts_congr (addSat_counts _ _ _ _) rfl rfl

end

/-! ### Patrol scrub (R284, R285) -/

theorem Noted.poison (h : Noted s t) : t.poison = s.poison := (congrArg State.poison h :)
theorem Noted.stackAddr {a : Nat} (h : Noted s t) : Noted s (t.stackAddr k a) := .both h h

/-- A block read by scrub: the progress is shown, corrected errors are counted, and so is a pass that begins again. -/
def State.scrubbed (s : State) (k corr pct : Nat) : State :=
  ((if pct < s.fld F.STACK_STK_STAT_SCRUB_POS k then s.addWrap F.STACK_SCRUB_PASSES k 1 else s).setFld
    F.STACK_STK_STAT_SCRUB_POS k pct).countEv F.STACK_CE_CNT k corr Ev.STACK_DRAM_CORR

theorem scrubbed_noted (s : State) (k corr pct : Nat) : Noted s (s.scrubbed k corr pct) := by
  have hpass : Noted s (if pct < s.fld F.STACK_STK_STAT_SCRUB_POS k then s.addWrap F.STACK_SCRUB_PASSES k 1 else s) :=
    .both (Noted.refl (s := s)).setFld .refl
  exact hpass.setFld.countEv

/-- Of the fields of its page, the start of a pass writes SCRUB_PASSES and SCRUB_POS. -/
theorem fld_scrubStart {g : Fld} (hty : g.ty = 4) (hpasses : g.apart F.STACK_SCRUB_PASSES = true)
    (hpos : g.apart F.STACK_STK_STAT_SCRUB_POS = true) (s : State) (k pct : Nat) :
    ((if pct < s.fld F.STACK_STK_STAT_SCRUB_POS k then s.addWrap F.STACK_SCRUB_PASSES k 1 else s).setFld
      F.STACK_STK_STAT_SCRUB_POS k pct).fld g k = s.fld g k := by
  rw [fld_setFld_place hty hpos]
  split
  · exact fld_addWrap_place hty hpasses ..
  · rfl

/-- A counter with an event leaves the other fields of its page that no event writes. -/
theorem fld_countEv_place {f g : Fld} (hty : g.ty = f.ty) (h : g.apart f = true) (hlog : g.offLog = true) (s : State) (i n b : Nat) :
    (s.countEv f i n b).fld g i = s.fld g i :=
  fld_countEv_other hlog (Fld.key_ne hty h i) s n b

theorem scrubbed_pos (s : State) (k corr pct : Nat) :
    (s.scrubbed k corr pct).fld F.STACK_STK_STAT_SCRUB_POS k = pct % 2 ^ F.STACK_STK_STAT_SCRUB_POS.w := by
  rw [State.scrubbed, fld_countEv_place (f := F.STACK_CE_CNT) (g := F.STACK_STK_STAT_SCRUB_POS) rfl rfl rfl, State.fld_setFld_same]

theorem scrubbed_ceCnt (s : State) (k corr pct : Nat) : Counts F.STACK_CE_CNT k corr s (s.scrubbed k corr pct) :=
  counts_congr (countEv_counts_of_offLog rfl _ k corr _) (fld_scrubStart rfl rfl rfl s k pct).symm rfl

theorem scrubbed_ueCnt (s : State) (k corr pct : Nat) : (s.scrubbed k corr pct).fld F.STACK_UE_CNT k = s.fld F.STACK_UE_CNT k := by
  rw [State.scrubbed, fld_countEv_place (f := F.STACK_CE_CNT) (g := F.STACK_UE_CNT) rfl rfl rfl, fld_scrubStart rfl rfl rfl]

/-- The address of an uncorrectable error goes to UE_ADDR alone. -/
theorem fld_stackAddr {g : Fld} (hty : g.ty = 4)
    (h : ∀ f ∈ [F.STACK_UE_ADDR_LO, F.STACK_UE_ADDR_HI_ADDR, F.STACK_UE_ADDR_HI_VALID], g.apart f = true) (s : State) (k a : Nat) :
    (s.stackAddr k a).fld g k = s.fld g k := by
  unfold State.stackAddr
  split
  · rfl
  · rw [fld_setFld_place hty (h _ (by simp)), fld_setFld_place hty (h _ (by simp)), fld_setFld_place hty (h _ (by simp))]

/-- An uncorrectable block reported. -/
def State.scrubReport (s : State) (k a : Nat) : State := ((s.stackAddr k a).addSat F.STACK_UE_CNT k 1).raise 4 k Ev.STACK_SCRUB_UNCORR

theorem scrubReport_noted (s : State) (k a : Nat) : Noted s (s.scrubReport k a) := Noted.refl.stackAddr.setFld.raise

theorem fld_scrubReport {g : Fld} (hty : g.ty = 4) (hlog : g.offLog = true)
    (h : ∀ f ∈ [F.STACK_UE_ADDR_LO, F.STACK_UE_ADDR_HI_ADDR, F.STACK_UE_ADDR_HI_VALID], g.apart f = true)
    (hcnt : g.apart F.STACK_UE_CNT = true) (s : State) (k a : Nat) : (s.scrubReport k a).fld g k = s.fld g k :=
  (Logged.refl.raise.fld_eq hlog k).trans ((fld_addSat_place hty hcnt ..).trans (fld_stackAddr hty h ..))

theorem scrubReport_ueCnt (s : State) (k a : Nat) : Counts F.STACK_UE_CNT k 1 s (s.scrubReport k a) :=
  counts_congr (addSat_counts (s.stackAddr k a) _ _ _) (fld_stackAddr rfl (by decide) ..).symm (Logged.refl.raise.fld_eq rfl k)

section

variable {k : Fin 16} {a : BitVec 48} {x : Ecc} {pct : Nat}

theorem scrubRead_of_off (h : s.flag F.STACK_STK_CTL_SCRUB_EN k.val = false ∨ regionOf a.toNat ≠ .dram k.val) :
    Does (.scrubRead k a x pct) s s := if_pos h

variable (hon : s.flag F.STACK_STK_CTL_SCRUB_EN k.val = true) (hreg : regionOf a.toNat = .dram k.val)
include hon hreg

theorem scrubRead_of_on : Does (.scrubRead k a x pct) s
    (if x.uncorr = 0 then s.scrubbed k.val x.corr pct
     else { (s.scrubbed k.val x.corr pct).scrubReport k.val a.toNat with
       poison := insertNat ((s.scrubbed k.val x.corr pct).scrubReport k.val a.toNat).poison (a.toNat / 64) }) := by
  show execScrubRead k a x pct s = _
  simp only [execScrubRead, hon, hreg, ne_eq, not_true_eq_false, Bool.true_eq_false, or_self, if_false]
  split <;> rfl

theorem scrubRead_gives : Gives (.scrubRead k a x pct) s fun t =>
    t.fld F.STACK_STK_STAT_SCRUB_POS k.val = pct % 2 ^ F.STACK_STK_STAT_SCRUB_POS.w ∧ t.mem = s.mem ∧
      Counts F.STACK_CE_CNT k.val x.corr s t ∧ (0 < x.uncorr → a.toNat / 64 ∈ t.poison ∧ Counts F.STACK_UE_CNT k.val 1 s t) ∧
      (x.uncorr = 0 → t.poison = s.poison) := by
  refine ⟨_, scrubRead_of_on hon hreg, ?_⟩
  have hread := scrubbed_noted s k.val x.corr pct
  split
  next hclean =>
    exact ⟨scrubbed_pos .., hread.mem, scrubbed_ceCnt _ _ _ _, fun hpos => absurd hclean (Nat.ne_of_gt hpos), fun _ => hread.poison⟩
  next hbad =>
    refine ⟨(fld_scrubReport rfl rfl (by decide) rfl ..).trans (scrubbed_pos ..), (hread.trans (scrubReport_noted ..)).mem,
      counts_congr (scrubbed_ceCnt _ _ _ _) rfl (fld_scrubReport rfl rfl (by decide) rfl ..),
      fun _ => ⟨mem_insertNat .., counts_congr (scrubReport_ueCnt _ _ _) (scrubbed_ueCnt ..).symm rfl⟩, fun h => absurd h hbad⟩

end

theorem dramRequestsAndScrub : Claims.DramRequestsAndScrub :=
  ⟨fun _ _ _ _ _ => ⟨dramRequestIssue_unregulated_gives, dramRequestIssue_privileged_gives, dramRequestIssue_waiting_gives⟩,
    fun _ _ _ _ _ => ⟨scrubRead_of_off, scrubRead_gives⟩⟩

end Sys2Proof.Machine

/-! ## Flushes of the cellar (R299, R300) -/

namespace Sys2Proof.Machine
open Sys2Proof Sys2Proof.Claims

variable {s t : State} {die : Fin 8} {d : Nat}

theorem Logged.cellar (h : Logged s t) : t.cellar = s.cellar := (congrArg State.cellar h.rest :)

/-! ### Lines written back -/

theorem not_dirty_of_mem_writeBack {e : Nat × CacheLine} (he : e ∈ (s.writeBack d fun _ => true).cellar.lines)
    (hhome : homeDie (e.1 / 8 * 128) = d) : e.2.dirty = false := by
  obtain ⟨x, -, rfl⟩ := List.mem_map.1 he
  split
  · rfl
  next hkept =>
    rw [if_neg hkept] at hhome
    simpa [hhome] using hkept

theorem mem_writeBack_of_elsewhere {f : Nat → Bool} {e : Nat × CacheLine} (he : e ∈ s.cellar.lines) (hhome : homeDie (e.1 / 8 * 128) ≠ d) :
    e ∈ (s.writeBack d f).cellar.lines :=
  List.mem_map.2 ⟨e, he, if_neg (by simp [hhome])⟩

theorem writeBack_wbCnt (s : State) (d : Nat) : (s.writeBack d fun _ => true).fld F.CELLAR_WB_CNT d = (s.fld F.CELLAR_WB_CNT d +
    (s.cellar.lines.filter fun e => e.2.dirty && homeDie (e.1 / 8 * 128) == d).length) % 2 ^ F.CELLAR_WB_CNT.w := by
  simp only [State.writeBack, State.fld_addWrap_same, Bool.and_true]
  rfl

/-! ### FLUSH and FLUSH_DONE (R300) -/

theorem flush_gives {ag : Agent} (h : mayWrite ag 3 die.val s) : Gives (.flush ag die) s fun t =>
    t.fld F.CELLAR_CACHE_CTL die.val = 1 ∧ die.val ∈ t.cellar.flushAll ∧ t.cellar.lines = s.cellar.lines :=
  gives_of_pageAct rfl h ⟨State.fld_setFld_same .., mem_insertNat .., rfl⟩

/-- The device once a die's flush has ended, before the event. -/
def State.flushEnded (s : State) (d : Nat) : State :=
  (State.writeBack { s with cellar := { s.cellar with flushAll := s.cellar.flushAll.filter (· != d) } } d fun _ => true).setFld
    F.CELLAR_CACHE_CTL d 0

theorem flushDone_of_running (h : die.val ∈ s.cellar.flushAll) :
    Does (.flushDone die) s ((s.flushEnded die.val).raise 3 die.val Ev.CELLAR_FLUSH_DONE) :=
  if_pos (List.contains_iff_mem.2 h)

theorem flushDone_of_idle (h : die.val ∉ s.cellar.flushAll) : Does (.flushDone die) s s :=
  if_neg fun hc => h (List.contains_iff_mem.1 hc)

theorem flushEnded_wbCnt (s : State) (d : Nat) : (s.flushEnded d).fld F.CELLAR_WB_CNT d = (s.fld F.CELLAR_WB_CNT d +
    (s.cellar.lines.filter fun e => e.2.dirty && homeDie (e.1 / 8 * 128) == d).length) % 2 ^ F.CELLAR_WB_CNT.w := by
  rw [State.flushEnded, fld_setFld_place (f := F.CELLAR_CACHE_CTL) (g := F.CELLAR_WB_CNT) rfl rfl, writeBack_wbCnt]
  rfl

theorem flushDone_gives (h : die.val ∈ s.cellar.flushAll) : Gives (.flushDone die) s fun t =>
    die.val ∉ t.cellar.flushAll ∧ t.fld F.CELLAR_CACHE_CTL die.val = 0 ∧
      (∀ e ∈ t.cellar.lines, homeDie (e.1 / 8 * 128) = die.val → e.2.dirty = false) ∧
      (∀ e ∈ s.cellar.lines, homeDie (e.1 / 8 * 128) ≠ die.val → e ∈ t.cellar.lines) ∧
      t.fld F.CELLAR_WB_CNT die.val = (s.fld F.CELLAR_WB_CNT die.val +
        (s.cellar.lines.filter fun e => e.2.dirty && homeDie (e.1 / 8 * 128) == die.val).length) % 2 ^ F.CELLAR_WB_CNT.w ∧
      bitOf (t.fld (F.EVT_STAT 3) die.val) Ev.CELLAR_FLUSH_DONE = true ∧ t.mem = s.mem := by
  have hlog : Logged (s.flushEnded die.val) ((s.flushEnded die.val).raise 3 die.val Ev.CELLAR_FLUSH_DONE) := Logged.refl.raise
  refine ⟨_, flushDone_of_running h, ?_⟩
  beta_reduce
  rw [hlog.cellar]
  refine ⟨fun hmem => ?_, (hlog.fld_eq rfl _).trans (State.fld_setFld_same ..), fun _ => not_dirty_of_mem_writeBack,
    fun _ he hhome => ?_, (hlog.fld_eq rfl _).trans (flushEnded_wbCnt ..), bitOf_raise (by decide) rfl, hlog.mem⟩
  · exact bne_iff_ne.1 (List.mem_filter.1 hmem).2 rfl
  · exact mem_writeBack_of_elsewhere (f := fun _ => true) he hhome

/-! ### GRANULE_FLUSH_COMPLETE (R299) -/

section

variable {g : Fin 6}

theorem granule_raise (s : State) (ty i b n : Nat) : (s.raise ty i b).granule n = s.granule n := by
  rw [State.granule, Logged.refl.raise.cellar, State.granule]

/-- The granule whose flush completes: cache mode writes its partition's lines back. -/
theorem granuleFlushComplete_of_running (hrun : (s.granule (6 * die.val + g.val)).flushing = true)
    (hopen : (s.granule (6 * die.val + g.val)).flushed = false) :
    Does (.granuleFlushComplete die g) s
      (((if (s.granule (6 * die.val + g.val)).mode = 0 then s.writeBack die.val fun p => s.granPart (6 * die.val + g.val) == some p else s).setGranule
        (6 * die.val + g.val) { s.granule (6 * die.val + g.val) with flushed := true }).raise 3 die.val Ev.CELLAR_FLUSH_DONE) :=
  if_pos ⟨hrun, hopen⟩

theorem granuleFlushComplete_of_ended
    (h : (s.granule (6 * die.val + g.val)).flushing = false ∨ (s.granule (6 * die.val + g.val)).flushed = true) :
    Does (.granuleFlushComplete die g) s s := by
  refine if_neg ?_
  rintro ⟨hrun, hopen⟩
  rcases h with h | h
  · cases h.symm.trans hrun
  · cases h.symm.trans hopen

theorem granuleFlushComplete_gives (hrun : (s.granule (6 * die.val + g.val)).flushing = true)
    (hopen : (s.granule (6 * die.val + g.val)).flushed = false) : Gives (.granuleFlushComplete die g) s fun t =>
      (t.granule (6 * die.val + g.val)).flushed = true ∧ (t.granule (6 * die.val + g.val)).flushing = true ∧
        (t.granule (6 * die.val + g.val)).mode = (s.granule (6 * die.val + g.val)).mode ∧
        bitOf (t.fld (F.EVT_STAT 3) die.val) Ev.CELLAR_FLUSH_DONE = true := by
  refine ⟨_, granuleFlushComplete_of_running hrun hopen, ?_⟩
  beta_reduce
  rw [granule_raise, State.granule_setGranule_same]
  exact ⟨rfl, hrun, rfl, bitOf_raise (by decide) rfl⟩

end

theorem cellarFlushes : Claims.CellarFlushes := fun _ _ _ =>
  ⟨flush_gives, flushDone_gives, flushDone_of_idle, fun _ => ⟨granuleFlushComplete_gives, granuleFlushComplete_of_ended⟩⟩

/-- Settles O34: a case of each command is an equation of the state after it; counters stand apart, and an event leaves all but its bit. -/
theorem cellarAndDramService : Obligations.CellarAndDramService := ⟨dramRequestsAndScrub, cellarFlushes⟩

end Sys2Proof.Machine

/-! ## What writes leave, and what they rest on (R282, R304)

A write that no partition bounds changes what the memories hold and nothing else. What it stores rests on the memory, on where a byte is held and on
what may be written; the slices of the update unit have no part in that. -/

namespace Sys2Proof.Machine
open Sys2Proof Sys2Proof.Claims

variable {s₀ s t u : State}

/-- What may be written without a partition rests on registers and granules. -/
theorem check_write_congr (hregs : t.regs = s.regs) (hgran : t.cellar.granules = s.cellar.granules) (a : Nat) :
    t.check none true a = s.check none true a := by
  have hfld : t.fld = s.fld := by
    funext f i
    exact State.fld_congr hregs f i
  simp only [State.check, if_true]
  unfold State.checkMap State.granule State.landingSlice State.hwinOf State.flag State.fldPair
  rw [hgran, hfld]

/-- From `s` to `t` only what the memories hold has changed. -/
def Stored (s t : State) : Prop := { t with mem := s.mem, poison := s.poison, host := s.host } = s

namespace Stored

theorem refl : Stored s s := rfl
theorem trans (h : Stored s t) (h' : Stored t u) : Stored s u :=
  (congrArg (fun v => { v with mem := s.mem, poison := s.poison, host := s.host }) h' :).trans h

theorem upd (h : Stored s t) : t.upd = s.upd := (congrArg State.upd h :)
theorem audit (h : Stored s t) : t.audit = s.audit := (congrArg State.audit h :)
theorem regs (h : Stored s t) : t.regs = s.regs := (congrArg State.regs h :)
theorem place_eq (h : Stored s t) (a : Nat) : t.place a = s.place a := (congrArg (fun v => v.place a) h :)
theorem check_eq (h : Stored s t) (a : Nat) : t.check none true a = s.check none true a :=
  check_write_congr h.regs (congrArg (fun v => v.cellar.granules) h :) a
theorem fld_eq (h : Stored s t) (f : Fld) (i : Nat) : t.fld f i = s.fld f i := State.fld_congr h.regs f i
theorem slice_eq (h : Stored s t) (c : Nat) : t.slice c = s.slice c := (congrArg (fun v => v.slice c) h :)

theorem foldl {α : Type} {g : State → α → State} {l : List α} (h : Stored s₀ s) (hg : ∀ t x, Stored t (g t x)) : Stored s₀ (l.foldl g s) := by
  induction l generalizing s with
  | nil => exact h
  | cons x l ih => exact ih (h.trans (hg s x))

theorem storeBlock (s : State) (a : Nat) (bytes : List Byte) (pz : Bool) : Stored s (s.storeBlock a bytes pz) := by
  unfold State.storeBlock
  split
  · rfl
  · split <;> rfl

theorem writeMem (s : State) (who : Option Nat) (a : Nat) (bytes : List Byte) (pz : List Nat) (coll : Bool) :
    Stored s (s.writeMem who a bytes pz coll) := by
  refine refl.foldl fun t x => ?_
  split
  · exact storeBlock ..
  · exact refl

theorem setLedger (s : State) (c b : Nat) (l : Ledger) : Stored s (s.setLedger c b l) := writeMem ..

end Stored

/-- What a write without a partition rests on is the same in both states. -/
structure SameHome (s t : State) : Prop where
  mem : t.mem = s.mem
  place : ∀ a, t.place a = s.place a
  check : ∀ a, t.check none true a = s.check none true a

theorem SameView.home (h : SameView s t) : SameHome s t := ⟨h.mem, h.place_eq, fun a => h.check_none_eq true a false⟩

namespace SameHome

theorem trans (h : SameHome s t) (h' : SameHome t u) : SameHome s u :=
  ⟨h'.mem.trans h.mem, fun a => (h'.place a).trans (h.place a), fun a => (h'.check a).trans (h.check a)⟩

theorem setSlice (s : State) (c : Nat) (x : SliceState) : SameHome s (s.setSlice c x) := ⟨rfl, fun _ => rfl, check_write_congr rfl rfl⟩

theorem storeBlock (h : SameHome s t) (a : Nat) (bytes : List Byte) (pz : Bool) : SameHome (s.storeBlock a bytes pz) (t.storeBlock a bytes pz) := by
  have hs := Stored.storeBlock s a bytes pz
  have ht := Stored.storeBlock t a bytes pz
  refine ⟨?_, fun b => (ht.place_eq b).trans ((h.place b).trans (hs.place_eq b).symm), fun b =>
    (ht.check_eq b).trans ((h.check b).trans (hs.check_eq b).symm)⟩
  unfold State.storeBlock
  split
  · exact h.mem
  · split
    · exact h.mem
    · rw [h.mem, h.place]

theorem foldl {α : Type} {g g' : State → α → State} {l : List α} (h : SameHome s t)
    (hg : ∀ s t x, SameHome s t → SameHome (g s x) (g' t x)) : SameHome (l.foldl g s) (l.foldl g' t) := by
  induction l generalizing s t with
  | nil => exact h
  | cons x l ih => exact ih (hg s t x h)

theorem writeMem (h : SameHome s t) (a : Nat) (bytes : List Byte) (pz : List Nat) :
    SameHome (s.writeMem none a bytes pz) (t.writeMem none a bytes pz) := by
  unfold State.writeMem State.writeBy
  simp only [h.check]
  refine h.foldl fun s' t' x h' => ?_
  split
  · exact h'.storeBlock ..
  · exact h'

end SameHome

/-! ### What the update unit reads of its tables -/

theorem unitCount_accessed (s : State) (c : Nat) (write : Bool) (l : List (Nat × Nat)) : Accessed s (s.unitCount c write l) :=
  Accessed.refl.foldl fun _ _ h => .both h h.accessDone

theorem Accessed.upd (h : Accessed s t) : t.upd = s.upd := h.view.fences
theorem Accessed.slice_eq (h : Accessed s t) (c : Nat) : t.slice c = s.slice c := by rw [State.slice, h.upd, State.slice]

theorem Noted.upd (h : Noted s t) : t.upd = s.upd := (congrArg State.upd h :)
theorem Noted.slice_eq (h : Noted s t) (c : Nat) : t.slice c = s.slice c := by rw [State.slice, h.upd, State.slice]

/-- What is counted for a slice's accesses rests on no slice. -/
theorem SameHome.unitCount_setSlice (s : State) (c d : Nat) (x : SliceState) (write : Bool) (l : List (Nat × Nat)) :
    SameHome (s.unitCount c write l) ((s.setSlice d x).unitCount c write l) :=
  ((unitCount_accessed s c write l).view.symm.home.trans (.setSlice s d x)).trans (unitCount_accessed ..).view.home

/-- From `s` to `t` the host has at most been asked for lines (R304). -/
def Asked (s t : State) : Prop := Noted s { t with cellar := s.cellar }

namespace Asked

theorem refl : Asked s s := Noted.refl
theorem mem (h : Asked s t) : t.mem = s.mem := (congrArg State.mem h :)
theorem slice_eq (h : Asked s t) (c : Nat) : t.slice c = s.slice c := (congrArg (fun v => v.slice c) h :)

theorem foldl {α : Type} {g : State → α → State} {l : List α} (h : Asked s₀ s) (hg : ∀ t x, Asked s₀ t → Asked s₀ (g t x)) :
    Asked s₀ (l.foldl g s) := by
  induction l generalizing s with
  | nil => exact h
  | cons x l ih => exact ih (hg s x h)

theorem backSnoop {half : Nat} {inv : Bool} (h : Asked s₀ s) : Asked s₀ (s.backSnoop half inv) := by
  unfold State.backSnoop
  split
  · exact h
  · exact h

theorem askHost {write : Bool} {a n : Nat} (h : Asked s₀ s) : Asked s₀ (s.askHost write a n) := h.foldl fun _ _ => backSnoop

theorem unitAsk (s : State) (l w : List (Nat × Nat)) : Asked s (s.unitAsk l w).1 := by
  unfold State.unitAsk
  split
  · exact (refl.foldl fun _ _ => askHost).foldl fun _ _ => askHost
  · exact refl

end Asked

/-- A unit that need not wait for any of its writes goes on. -/
theorem whenWritable_of_ready {l : List (Nat × Nat)} (h : ∀ r ∈ l, s.accWaits true r.1 r.2 = false) (f : State → State) :
    s.whenWritable l f = f s := by
  refine if_neg fun hany => ?_
  obtain ⟨r, hr, hwaits⟩ := List.any_eq_true.1 hany
  rw [h r hr] at hwaits
  exact Bool.false_ne_true hwaits

end Sys2Proof.Machine

/-! ## The judgement of chunks (R315, R320, R321, Table 11.6) -/

namespace Sys2Proof.Machine
open Sys2Proof Sys2Proof.Claims

variable {s t : State} {c : Nat} {h : HeldChunk}

/-! ### When a chunk is judged -/

/-- The state in which a chunk is judged: the slice has read its tables. -/
def State.chunkTables (s : State) (c : Nat) (k : Chunk) : State := s.unitCount c false (s.tableReads c k.block.toNat k.step.toNat)

theorem chunkTables_accessed (s : State) (c : Nat) (k : Chunk) : Accessed s (s.chunkTables c k) := unitCount_accessed ..

theorem judgeNow_of_readable (hj : judgesNow c h.chunk s) :
    s.judgeNow c h = (s.chunkTables c h.chunk).judge c h := if_pos hj

theorem judgeNow_of_waiting (hj : ¬judgesNow c h.chunk s) : s.judgeNow c h =
    ((s.unitAsk (s.tableReads c h.chunk.block.toNat h.chunk.step.toNat) [(s.ledgerAddr c h.chunk.block.toNat, 16)]).1, true) := if_neg hj

/-! ### What the judgement comes to -/

/-- A slice that is not enabled rejects every chunk (Table 11.11). -/
theorem judge_of_disabled (hen : s.flag F.UPDATE_UPD_CTL_ENABLE c = false) :
    s.judge c h = (s.chunkReject c updBadBlock h.chunk h.agent, false) := by
  simp [State.judge, hen]

theorem judge_of_noBlock (hd : s.blockDesc c h.chunk.block.toNat = none) : s.judge c h = (s.chunkReject c updBadBlock h.chunk h.agent, false) := by
  simp [State.judge, hd]

section

variable {d : BlockDesc} (hen : s.flag F.UPDATE_UPD_CTL_ENABLE c = true) (hd : s.blockDesc c h.chunk.block.toNat = some d)
include hen hd

theorem judge_of_readOnly (hro : s.blockRo d = true) : s.judge c h = (s.chunkReject c updRoBlock h.chunk h.agent, false) := by
  simp [State.judge, hen, hd, hro]

variable (hro : s.blockRo d = false) (hprog : (s.program c d.prog).isSome = true)
include hro hprog

/-- A chunk of a later step opens its closed block, where a block may be opened; it has skipped steps unless its step is the next one. -/
theorem judge_of_later (hst : (s.ledger c h.chunk.block.toNat).state = 1)
    (hfollows : follows32 h.chunk.step.toNat (s.ledger c h.chunk.block.toNat).step = true)
    (hstep : (s.stepDesc c h.chunk.step.toNat).isSome = true) (hclosed : Tab.get? (s.slice c).blocks h.chunk.block.toNat = none)
    (hroom : (s.slice c).blocks.length < s.fld F.UPDATE_UPD_CTL_OPEN_MAX c) : s.judge c h =
      (s.openChunk c h.chunk (h.chunk.step.toNat != ((s.ledger c h.chunk.block.toNat).step + 1) % 2 ^ 32), false) := by
  have hprog' : s.program c d.prog ≠ none := Option.isSome_iff_ne_none.1 hprog
  have hstep' : s.stepDesc c h.chunk.step.toNat ≠ none := Option.isSome_iff_ne_none.1 hstep
  simp [State.judge, hen, hd, hro, hprog', hst, hfollows, hstep', hclosed, hroom]

/-- A chunk of a step that its closed block has applied is a duplicate. -/
theorem judge_of_applied (hst : (s.ledger c h.chunk.block.toNat).state = 1)
    (hfollows : follows32 h.chunk.step.toNat (s.ledger c h.chunk.block.toNat).step = false) : s.judge c h = (s.chunkDup c h, false) := by
  have hprog' : s.program c d.prog ≠ none := Option.isSome_iff_ne_none.1 hprog
  simp [State.judge, hen, hd, hro, hprog', hst, hfollows]

/-- A chunk of a block under repair, or of a step after the one that its block is open at, stays held. -/
theorem judge_of_notYet (hst : (s.ledger c h.chunk.block.toNat).state = 3 ∨ ((s.ledger c h.chunk.block.toNat).state = 2 ∧
      h.chunk.step.toNat ≠ (s.ledger c h.chunk.block.toNat).step ∧
      precedes32 h.chunk.step.toNat (s.ledger c h.chunk.block.toNat).step = false)) : s.judge c h = (s, true) := by
  have hprog' : s.program c d.prog ≠ none := Option.isSome_iff_ne_none.1 hprog
  rcases hst with hrepair | ⟨hopen, hother, hnot⟩
  · simp [State.judge, hen, hd, hro, hprog', hrepair]
  · simp [State.judge, hen, hd, hro, hprog', hopen, hother, hnot]

end

/-! ### A chunk rejected, a duplicate, a block opened -/

section

variable (s : State) (c code : Nat) (k : Chunk) (agent : Nat)

theorem chunkReject_noted : Noted s (s.chunkReject c code k agent) := Noted.refl.countErr.countEv

theorem chunkReject_counts : Counts F.UPDATE_UPD_REJECT c 1 s (s.chunkReject c code k agent) :=
  counts_congr (countEv_counts_of_offLog rfl (s.updErr c code k.block.toNat k.step.toNat agent) c 1 Ev.UPDATE_CHUNK_REJECT)
    (Accessed.refl.countErr.fld_eq (by decide) c).symm rfl

/-- The first error of a slice's page tells its code and the block. -/
theorem updErr_described (b st : Nat) (h0 : s.fld (F.ERR_CNT 6) c = 0) :
    (s.updErr c code b st agent).fld (F.ERR_INFO_CODE 6) c = code % 2 ^ 8 ∧ (s.updErr c code b st agent).fld (F.ERR_FIRST 6) c = b % 2 ^ 32 := by
  have hregs := errRegs_countErr_of_zero h0 code (b % 2 ^ 32 + st % 65536 * 2 ^ 32) agent
  simp only [State.errRegs, Prod.mk.injEq] at hregs
  obtain ⟨-, hfirst, -, hcode, -⟩ := hregs
  refine ⟨hcode, hfirst.trans ?_⟩
  omega

theorem chunkReject_described (h0 : s.fld (F.ERR_CNT 6) c = 0) :
    (s.chunkReject c code k agent).fld (F.ERR_INFO_CODE 6) c = code % 2 ^ 8 ∧
      (s.chunkReject c code k agent).fld (F.ERR_FIRST 6) c = k.block.toNat := by
  obtain ⟨hcode, hfirst⟩ := updErr_described s c code agent k.block.toNat k.step.toNat h0
  have hother {g : Fld} (hty : g.ty = 6) (hlog : g.offLog = true) (hg : g.apart F.UPDATE_UPD_REJECT = true) :=
    fld_countEv_place (f := F.UPDATE_UPD_REJECT) hty hg hlog (s.updErr c code k.block.toNat k.step.toNat agent) c 1 Ev.UPDATE_CHUNK_REJECT
  exact ⟨(hother rfl rfl rfl).trans hcode, (hother rfl rfl rfl).trans (hfirst.trans (Nat.mod_eq_of_lt k.block.isLt))⟩

/-- A closed block opened by a chunk: the slice's entry, and the ledger (Table 11.6). -/
def State.opened (s : State) (c : Nat) (k : Chunk) : State :=
  (s.setSlice c { s.slice c with
    blocks := Tab.set (s.slice c).blocks k.block.toNat { step := k.step.toNat, origin := k.origin.toNat, chunk := k } }).setLedger c
    k.block.toNat ⟨k.step.toNat, 2, k.origin.toNat % 2 ^ 32⟩

theorem opened_blocks : Tab.get? ((s.opened c k).slice c).blocks k.block.toNat =
    some { step := k.step.toNat, origin := k.origin.toNat, chunk := k } := by
  rw [State.opened, (Stored.setLedger ..).slice_eq, State.slice_setSlice_same, Tab.get?_set_same]

theorem opened_fld (f : Fld) (i : Nat) : (s.opened c k).fld f i = s.fld f i := (Stored.setLedger ..).fld_eq f i

/-- What the ledger's entry becomes rests on no slice. -/
theorem opened_mem : (s.opened c k).mem = (s.setLedger c k.block.toNat ⟨k.step.toNat, 2, k.origin.toNat % 2 ^ 32⟩).mem :=
  ((SameHome.setSlice s c _).writeMem ..).mem

end

theorem openChunk_of_closed {k : Chunk} (hclosed : Tab.get? (s.slice c).blocks k.block.toNat = none) (gap : Bool) : s.openChunk c k gap =
    if gap then (s.opened c k).countEv F.UPDATE_UPD_GAP c 1 Ev.UPDATE_UPD_GAP else s.opened c k := by
  simp only [State.openChunk, hclosed]
  rfl

/-! ### CHUNK_ARRIVAL -/

section

variable {n : Fin 8} {k : Chunk}

theorem chunkArrival_of_badFormat (hf : chunkFmtOk k.fmt.toNat = false) : Does (.chunkArrival n k) s s :=
  congrArg Host.Outcome.next (if_neg (ne_true_of_eq_false hf))

variable (hf : chunkFmtOk k.fmt.toNat = true)
include hf

theorem chunkArrival_eq : Does (.chunkArrival n k) s (s.chunkArrive n.val { chunk := k }) := congrArg Host.Outcome.next (if_pos hf)

theorem chunkArrival_of_poison (hp : k.poison = true) : Does (.chunkArrival n k) s (s.poisoned 6 n.val) :=
  (chunkArrival_eq hf).trans (congrArg Host.Outcome.next (if_pos hp))

variable (hp : k.poison = false)
include hp

/-- A chunk that its judgement does not hold. -/
theorem chunkArrival_of_judged (hr : s.judgeNow n.val { chunk := k } = (t, false)) : Does (.chunkArrival n k) s t := by
  refine (chunkArrival_eq hf).trans (congrArg Host.Outcome.next ?_)
  simp [State.chunkArrive, hp, hr]

/-- A chunk that its judgement holds joins the input buffer. -/
theorem chunkArrival_of_held (hr : s.judgeNow n.val { chunk := k } = (t, true)) :
    Does (.chunkArrival n k) s (t.setSlice n.val { t.slice n.val with held := (t.slice n.val).held ++ [{ chunk := k }] }) := by
  refine (chunkArrival_eq hf).trans (congrArg Host.Outcome.next ?_)
  simp [State.chunkArrive, hp, hr]

/-- A chunk whose judgement has to wait is held. -/
theorem chunkArrival_waiting_gives (hj : ¬judgesNow n.val k s) : Gives (.chunkArrival n k) s fun t =>
    (t.slice n.val).held = (s.slice n.val).held ++ [{ chunk := k }] ∧ t.mem = s.mem := by
  refine ⟨_, chunkArrival_of_held hf hp (judgeNow_of_waiting hj), ?_, (Asked.unitAsk ..).mem⟩
  rw [State.slice_setSlice_same, (Asked.unitAsk ..).slice_eq]

variable (hj : judgesNow n.val k s)
include hj

theorem chunkArrival_rejected_gives {code : Nat} (hr : (s.chunkTables n.val k).judge n.val { chunk := k } =
      ((s.chunkTables n.val k).chunkReject n.val code k (HeldChunk.agent { chunk := k }), false)) :
    Gives (.chunkArrival n k) s fun t => Counts F.UPDATE_UPD_REJECT n.val 1 (s.chunkTables n.val k) t ∧ t.mem = s.mem ∧
      (t.slice n.val).held = (s.slice n.val).held ∧ ((s.chunkTables n.val k).fld (F.ERR_CNT 6) n.val = 0 →
        t.fld (F.ERR_INFO_CODE 6) n.val = code % 2 ^ 8 ∧ t.fld (F.ERR_FIRST 6) n.val = k.block.toNat) := by
  have hread := chunkTables_accessed s n.val k
  have hrejected := chunkReject_noted (s.chunkTables n.val k) n.val code k (HeldChunk.agent { chunk := k })
  refine ⟨_, chunkArrival_of_judged hf hp ((judgeNow_of_readable hj).trans hr), chunkReject_counts _ _ _ _ _, hrejected.mem.trans hread.mem, ?_,
    chunkReject_described _ _ _ _ _⟩
  rw [hrejected.slice_eq, hread.slice_eq]

/-- A chunk that opens its closed block; one that skips steps counts in UPD_GAP. -/
theorem chunkArrival_opens_gives {next : Nat} (hclosed : Tab.get? (s.slice n.val).blocks k.block.toNat = none)
    (hr : (s.chunkTables n.val k).judge n.val { chunk := k } =
      ((s.chunkTables n.val k).openChunk n.val k (k.step.toNat != next), false)) :
    Gives (.chunkArrival n k) s fun t =>
      Tab.get? (t.slice n.val).blocks k.block.toNat = some { step := k.step.toNat, origin := k.origin.toNat, chunk := k } ∧
        t.mem = ((s.chunkTables n.val k).setLedger n.val k.block.toNat ⟨k.step.toNat, 2, k.origin.toNat % 2 ^ 32⟩).mem ∧
        (k.step.toNat = next → t.fld F.UPDATE_UPD_GAP n.val = s.fld F.UPDATE_UPD_GAP n.val) ∧
        (k.step.toNat ≠ next → Counts F.UPDATE_UPD_GAP n.val 1 s t) := by
  have hread := chunkTables_accessed s n.val k
  have hgap : ((s.chunkTables n.val k).opened n.val k).fld F.UPDATE_UPD_GAP n.val = s.fld F.UPDATE_UPD_GAP n.val :=
    (opened_fld ..).trans (hread.fld_eq (by decide) _)
  rw [openChunk_of_closed (by rwa [hread.slice_eq])] at hr
  have hdoes := chunkArrival_of_judged hf hp ((judgeNow_of_readable hj).trans hr)
  by_cases hnext : k.step.toNat = next
  · rw [if_neg (by simpa using hnext)] at hdoes
    exact ⟨_, hdoes, opened_blocks .., opened_mem .., fun _ => hgap, fun hne => absurd hnext hne⟩
  · rw [if_pos (bne_iff_ne.2 hnext)] at hdoes
    have hcount : Noted _ (((s.chunkTables n.val k).opened n.val k).countEv F.UPDATE_UPD_GAP n.val 1 Ev.UPDATE_UPD_GAP) := Noted.refl.countEv
    refine ⟨_, hdoes, ?_, hcount.mem.trans (opened_mem ..), fun h => absurd h hnext, fun _ => ?_⟩
    · rw [hcount.slice_eq]
      exact opened_blocks ..
    · exact counts_congr (countEv_counts_of_offLog rfl _ n.val 1 Ev.UPDATE_UPD_GAP) hgap.symm rfl

/-- A duplicate is counted, and that is all. -/
theorem chunkArrival_duplicate_gives
    (hr : (s.chunkTables n.val k).judge n.val { chunk := k } = ((s.chunkTables n.val k).chunkDup n.val { chunk := k }, false)) :
    Gives (.chunkArrival n k) s fun t => Counts F.UPDATE_UPD_DUP n.val 1 s t ∧ t.mem = s.mem ∧ t.upd = s.upd := by
  have hread := chunkTables_accessed s n.val k
  refine ⟨_, chunkArrival_of_judged hf hp ((judgeNow_of_readable hj).trans hr), ?_, hread.mem, hread.upd⟩
  exact counts_congr (addSat_counts (s.chunkTables n.val k) F.UPDATE_UPD_DUP n.val 1) (hread.fld_eq (by decide) _).symm rfl

theorem chunkArrival_held_gives (hr : (s.chunkTables n.val k).judge n.val { chunk := k } = (s.chunkTables n.val k, true)) :
    Gives (.chunkArrival n k) s fun t => (t.slice n.val).held = (s.slice n.val).held ++ [{ chunk := k }] ∧ t.mem = s.mem ∧
      t.regs = (s.chunkTables n.val k).regs := by
  have hread := chunkTables_accessed s n.val k
  refine ⟨_, chunkArrival_of_held hf hp ((judgeNow_of_readable hj).trans hr), ?_, hread.mem, rfl⟩
  rw [State.slice_setSlice_same, hread.slice_eq]

end

/-! ### HELD_CHUNK_JUDGE -/

section

variable {n : Fin 8} {g : HeldChunk} {before rest : List HeldChunk}

theorem heldChunkJudge_eq (n : Fin 8) (s : State) : Does (.heldChunkJudge n) s (s.judgeHeld n.val [] (s.slice n.val).held).creditsBack := rfl

/-- A chunk that need not stay leaves the buffer. -/
theorem judgeHeld_of_leaving (hr : (s.judgeNow c h).2 = false) : s.judgeHeld c before (h :: rest) =
    (s.judgeNow c h).1.setSlice c { (s.judgeNow c h).1.slice c with held := before ++ rest } :=
  if_neg (ne_true_of_eq_false hr)

/-- A chunk that has to stay is passed by. -/
theorem judgeHeld_of_staying (hr : (s.judgeNow c h).2 = true) :
    s.judgeHeld c before (h :: rest) = (s.judgeNow c h).1.judgeHeld c (before ++ [h]) rest := if_pos hr

theorem heldChunkJudge_empty (hh : (s.slice n.val).held = []) : Does (.heldChunkJudge n) s s.creditsBack := by
  have hdoes := heldChunkJudge_eq n s
  rw [hh] at hdoes
  exact hdoes

theorem heldChunkJudge_first (hh : (s.slice n.val).held = h :: rest) (hr : (s.judgeNow n.val h).2 = false) :
    ∃ u : State, Does (.heldChunkJudge n) s u.creditsBack ∧ (u.slice n.val).held = rest ∧ u.mem = (s.judgeNow n.val h).1.mem ∧
      u.regs = (s.judgeNow n.val h).1.regs := by
  have hdoes := heldChunkJudge_eq n s
  rw [hh, judgeHeld_of_leaving hr] at hdoes
  refine ⟨_, hdoes, ?_, State.setSlice_mem .., State.setSlice_regs ..⟩
  rw [State.slice_setSlice_same, List.nil_append]

theorem heldChunkJudge_second (hh : (s.slice n.val).held = h :: g :: rest) (hr : (s.judgeNow n.val h).2 = true)
    (hg : ((s.judgeNow n.val h).1.judgeNow n.val g).2 = false) :
    ∃ u : State, Does (.heldChunkJudge n) s u.creditsBack ∧ (u.slice n.val).held = h :: rest ∧
      u.mem = ((s.judgeNow n.val h).1.judgeNow n.val g).1.mem ∧ u.regs = ((s.judgeNow n.val h).1.judgeNow n.val g).1.regs := by
  have hdoes := heldChunkJudge_eq n s
  rw [hh, judgeHeld_of_staying hr, judgeHeld_of_leaving hg] at hdoes
  refine ⟨_, hdoes, ?_, State.setSlice_mem .., State.setSlice_regs ..⟩
  rw [State.slice_setSlice_same, List.nil_append, List.singleton_append]

end

/-! ### The statement -/

theorem chunkJudgement : Claims.ChunkJudgement := by
  refine ⟨fun n k s => ?_, fun n s => ⟨heldChunkJudge_empty, fun _ _ => heldChunkJudge_first, fun _ _ _ hh hr => heldChunkJudge_second hh hr⟩⟩
  refine ⟨chunkArrival_of_badFormat, chunkArrival_of_poison, fun hf hp => ⟨chunkArrival_waiting_gives hf hp, fun hj => ⟨fun hno => ?_, ?_⟩⟩⟩
  · have hr := hno.elim (judge_of_disabled (h := { chunk := k })) (judge_of_noBlock (h := { chunk := k }))
    obtain ⟨t, hdoes, hcount, hmem, hheld, hinfo⟩ := chunkArrival_rejected_gives hf hp hj hr
    exact ⟨t, hdoes, hcount, hmem, hheld, hinfo⟩
  · refine fun hen d hd => ⟨fun hro => ?_, fun hro hprog => ⟨fun hst hfollows hstep hclosed hroom => ?_, fun hst hfollows => ?_, fun hst => ?_⟩⟩
    · have hr := judge_of_readOnly (h := { chunk := k }) hen hd hro
      obtain ⟨t, hdoes, hcount, hmem, -, hinfo⟩ := chunkArrival_rejected_gives hf hp hj hr
      exact ⟨t, hdoes, hcount, hmem, fun h0 => (hinfo h0).1⟩
    · have hslice := (chunkTables_accessed s n.val k).slice_eq n.val
      refine chunkArrival_opens_gives hf hp hj hclosed (judge_of_later (h := { chunk := k }) hen hd hro hprog hst hfollows hstep ?_ ?_)
      · exact (congrArg (fun x => Tab.get? x.blocks k.block.toNat) hslice).trans hclosed
      · exact lt_of_eq_of_lt (congrArg (fun x => x.blocks.length) hslice) hroom
    · exact chunkArrival_duplicate_gives hf hp hj (judge_of_applied (h := { chunk := k }) hen hd hro hprog hst hfollows)
    · exact chunkArrival_held_gives hf hp hj (judge_of_notYet (h := { chunk := k }) hen hd hro hprog hst)

end Sys2Proof.Machine

/-! ## The groups of an update (R322 to R324) -/

namespace Sys2Proof.Machine
open Sys2Proof Sys2Proof.Claims

variable {s t : State} {c b : Nat} {n : Fin 8} {blk : Word} {g : Fin 256} {o f : OpenBlock} {d : BlockDesc} {r : GroupRun}

/-- A step of a group that meets no storage error changes nothing by it. -/
theorem updEcc_none (s : State) (c b : Nat) : s.updEcc c b {} = s := by simp [State.updEcc, State.countEv]

theorem get?_blocks_setBlock (s : State) (c b : Nat) (o : OpenBlock) : Tab.get? ((s.setBlock c b o).slice c).blocks b = some o := by
  rw [State.setBlock, State.slice_setSlice_same, Tab.get?_set_same]

/-- A run that is found by its group is that group's. -/
theorem group_of_find {p : GroupRun → Bool} {l : List GroupRun} {k : Nat} (h : l.find? (fun q => q.group == k && p q) = some r) : r.group = k := by
  have hp : (r.group == k && p r) = true := List.find?_some (p := fun q => q.group == k && p q) h
  exact beq_iff_eq.1 (Bool.and_eq_true_iff.1 hp).1

/-! ### GROUP_APPLY (R322, steps 1 and 2) -/

section

variable (ho : Tab.get? (s.slice n.val).blocks blk.toNat = some o) (hd : s.blockDesc n.val blk.toNat = some d)
include ho hd

/-- A group that is done, or of whose block a committed group has steps left, does not start. -/
theorem groupApply_of_busy (h : g.val ∈ o.done ∨ ∃ q ∈ o.runs, q.committed = true) (e : UpdEcc) : Does (.groupApply n blk ⟨g, e⟩) s s := by
  have hbusy : (o.done.contains g.val || o.runs.any (·.committed)) = true := by
    rw [Bool.or_eq_true, List.contains_iff_mem, List.any_eq_true]
    exact h
  show execGroupApply n blk ⟨g, e⟩ s = _
  simp only [execGroupApply, ho, hd, hbusy, Bool.true_or, if_true]

/-- A group that may start, and need not wait for what it reads. -/
theorem groupApply_of_ready (hdone : g.val ∉ o.done) (hruns : ∀ q ∈ o.runs, q.committed = false) (hg : g.val < d.groups)
    (hrep : s.repairing n.val blk.toNat = false) (hst : (s.ledger n.val blk.toNat).state = 2)
    (hwait : ∀ x ∈ s.groupReads n.val blk.toNat d o (256 * g.val) (min 256 (d.elems - 256 * g.val)), s.accWaits false x.1 x.2 = false) :
    Does (.groupApply n blk ⟨g, {}⟩) s ((s.unitCount n.val false
      (s.groupReads n.val blk.toNat d o (256 * g.val) (min 256 (d.elems - 256 * g.val)))).groupStart n.val blk.toNat g.val d o) := by
  have hfree : o.done.contains g.val = false := by simpa using hdone
  have hclean : o.runs.any (·.committed) = false := by simpa using hruns
  show execGroupApply n blk ⟨g, {}⟩ s = _
  simp only [execGroupApply, ho, hd, hfree, hclean, hrep, hst, decide_eq_false (Nat.not_le.2 hg), bne_self_eq_false, Bool.or_self,
    Bool.false_eq_true, if_false, ne_eq, not_true_eq_false, whenReadable_of_ready hwait, updEcc_none]

end

/-- The state in which a group's run is held in the slice. -/
theorem groupStart_of_run {g : Nat} (hpoison : s.groupPoison d (256 * g) (min 256 (d.elems - 256 * g)) = false)
    (hr : s.groupRun c d o b g = some r) : s.groupStart c b g d o =
      (s.setBlock c b { o with runs := o.runs.filter (·.group != g) ++ [r] }).countEv F.UPDATE_UPD_NONFIN c r.nonfin Ev.UPDATE_UPD_NONFIN := by
  simp only [State.groupStart, hpoison, hr, Bool.false_eq_true, if_false]

/-- A run that is held leaves the memory as it was. -/
theorem groupStart_holds {g : Nat} (hpoison : s.groupPoison d (256 * g) (min 256 (d.elems - 256 * g)) = false)
    (hr : s.groupRun c d o b g = some r) :
    Tab.get? ((s.groupStart c b g d o).slice c).blocks b = some { o with runs := o.runs.filter (·.group != g) ++ [r] } ∧
      (s.groupStart c b g d o).mem = s.mem := by
  rw [groupStart_of_run hpoison hr]
  have hcount : Noted _ ((s.setBlock c b { o with runs := o.runs.filter (·.group != g) ++ [r] }).countEv F.UPDATE_UPD_NONFIN c r.nonfin
    Ev.UPDATE_UPD_NONFIN) := Noted.refl.countEv
  rw [hcount.slice_eq, hcount.mem]
  exact ⟨get?_blocks_setBlock .., rfl⟩

/-! ### GROUP_COMMIT (R322, steps 3 and 4) -/

/-- The block with a run's redo entry written. -/
def OpenBlock.commit (o : OpenBlock) (r : GroupRun) : OpenBlock :=
  { o with runs := o.runs.map fun q => if q.group = r.group then { q with committed := true } else q }

/-- The outputs of a run at their home addresses. -/
def State.writeHome (s : State) (r : GroupRun) : State := r.writes.foldl (fun t w => t.writeMem none w.1 w.2) s

theorem writeHome_stored (s : State) (r : GroupRun) : Stored s (s.writeHome r) := Stored.refl.foldl fun _ _ => Stored.writeMem ..

theorem SameHome.writeHome (h : SameHome s t) (r : GroupRun) : SameHome (s.writeHome r) (t.writeHome r) :=
  h.foldl fun _ _ _ h' => h'.writeMem ..

theorem committed_of_mem_commit {q : GroupRun} (hq : q ∈ (o.commit r).runs) (hgroup : q.group = r.group) : q.committed = true := by
  obtain ⟨p, -, rfl⟩ := List.mem_map.1 hq
  split
  · rfl
  next hne => rw [if_neg hne] at hgroup; exact absurd hgroup hne

/-- A run is committed: its redo entry is written, and its outputs go home. -/
def State.commitRun (s : State) (c b : Nat) (o : OpenBlock) (r : GroupRun) : State :=
  (((s.setBlock c b (o.commit r)).unitCount c true r.ranges).writeHome r).addWrap F.UPDATE_UPD_GROUPS c 1

theorem groupCommit_of_ready (ho : Tab.get? (s.slice n.val).blocks blk.toNat = some o)
    (hr : o.runs.find? (fun q => q.group == g.val && !q.committed) = some r) (hredo : (s.slice n.val).redoUsed < 512)
    (hro : s.rangesShared r.ranges = false) (hwait : ∀ w ∈ r.ranges, s.accWaits true w.1 w.2 = false) :
    Does (.groupCommit n blk g {}) s (s.commitRun n.val blk.toNat o r) := by
  have hgo : ¬(512 ≤ (s.slice n.val).redoUsed ∨ s.rangesShared r.ranges = true) := by
    rintro (hfull | hshared)
    · omega
    · rw [hro] at hshared
      cases hshared
  show execGroupCommit n blk g {} s = _
  simp only [execGroupCommit, ho, hr, if_neg hgo, whenWritable_of_ready hwait, updEcc_none]
  rfl

theorem commitRun_mem (s : State) (c b : Nat) (o : OpenBlock) (r : GroupRun) :
    (s.commitRun c b o r).mem = ((s.unitCount c true r.ranges).writeHome r).mem :=
  ((SameHome.unitCount_setSlice s c c _ true r.ranges).writeHome r).mem

theorem commitRun_blocks (s : State) (c b : Nat) (o : OpenBlock) (r : GroupRun) :
    Tab.get? ((s.commitRun c b o r).slice c).blocks b = some (o.commit r) := by
  have hslice : (s.commitRun c b o r).slice c = (s.setBlock c b (o.commit r)).slice c :=
    ((writeHome_stored ..).slice_eq c).trans ((unitCount_accessed ..).slice_eq c)
  rw [hslice, get?_blocks_setBlock]

theorem commitRun_groups (s : State) (c b : Nat) (o : OpenBlock) (r : GroupRun) :
    (s.commitRun c b o r).fld F.UPDATE_UPD_GROUPS c = (s.fld F.UPDATE_UPD_GROUPS c + 1) % 2 ^ F.UPDATE_UPD_GROUPS.w := by
  have hbefore : (((s.setBlock c b (o.commit r)).unitCount c true r.ranges).writeHome r).fld F.UPDATE_UPD_GROUPS c =
      s.fld F.UPDATE_UPD_GROUPS c := ((writeHome_stored ..).fld_eq ..).trans ((unitCount_accessed ..).fld_eq (by decide) c)
  rw [State.commitRun, State.fld_addWrap_same, hbefore]

/-! ### GROUP_DONE (R322, step 5) and the close of a block (R324) -/

theorem groupDone_eq (ho : Tab.get? (s.slice n.val).blocks blk.toNat = some o) (hd : s.blockDesc n.val blk.toNat = some d)
    (hr : o.runs.find? (fun q => q.group == g.val && q.committed) = some r) :
    Does (.groupDone n blk ⟨g, {}⟩) s (s.groupDone n.val blk.toNat d (o.finish r)) := by
  show execGroupDone n blk ⟨g, {}⟩ s = _
  simp only [execGroupDone, ho, hd, hr, updEcc_none]

theorem groupDone_of_open (h : o.done.length < d.groups) : s.groupDone c b d o = s.setBlock c b o := if_neg (Nat.not_le.2 h)

theorem groupDone_of_waiting (h : d.groups ≤ o.done.length) (hnow : (s.unitAsk (s.closeReads c d o) (s.closeWrites c b d)).2 = false) :
    s.groupDone c b d o = (s.unitAsk (s.closeReads c d o) (s.closeWrites c b d)).1 :=
  (if_pos h).trans (if_neg (ne_true_of_eq_false hnow))

/-- The state in which a block closes: what that reads and writes has been counted. -/
def State.closeCounted (s : State) (c b : Nat) (d : BlockDesc) (o : OpenBlock) : State :=
  (s.unitCount c false (s.closeReads c d o)).unitCount c true (s.closeWrites c b d)

theorem closeCounted_accessed (s : State) (c b : Nat) (d : BlockDesc) (o : OpenBlock) : Accessed s (s.closeCounted c b d o) :=
  (unitCount_accessed ..).trans (unitCount_accessed ..)

theorem groupDone_of_last (h : d.groups ≤ o.done.length) (hnow : (s.unitAsk (s.closeReads c d o) (s.closeWrites c b d)).2 = true) :
    s.groupDone c b d o = (s.closeCounted c b d o).closeBlock c b d o :=
  (if_pos h).trans (if_pos hnow)

/-- What is left to do once the ledger says that a block is closed: it leaves the slice, waits for its leaf of the audit tree, and counts. -/
def State.closed (s : State) (c b : Nat) : State :=
  let t := s.addWrap F.UPDATE_UPD_CLOSED c 1
  let u := t.setSlice c { t.slice c with blocks := Tab.del (t.slice c).blocks b, taskBlocks := (t.slice c).taskLeft b }
  { u with audit := { u.audit with dirty := insertNat u.audit.dirty b } }

theorem closed_blocks (s : State) (c b : Nat) : Tab.get? ((s.closed c b).slice c).blocks b = none := by
  have hslice : (s.closed c b).slice c =
      { s.slice c with blocks := Tab.del (s.slice c).blocks b, taskBlocks := (s.slice c).taskLeft b } := State.slice_setSlice_same ..
  rw [hslice, Tab.get?_del_same]

theorem closed_dirty (s : State) (c b : Nat) : b ∈ (s.closed c b).audit.dirty := mem_insertNat ..
theorem closed_mem (s : State) (c b : Nat) : (s.closed c b).mem = s.mem := rfl
theorem closed_count (s : State) (c b : Nat) :
    (s.closed c b).fld F.UPDATE_UPD_CLOSED c = (s.fld F.UPDATE_UPD_CLOSED c + 1) % 2 ^ F.UPDATE_UPD_CLOSED.w := State.fld_addWrap_same ..

/-- The ledger's entry is the last that the close of a block writes. -/
theorem closeBlock_eq (s : State) (c b : Nat) (d : BlockDesc) (o : OpenBlock) : ∃ u : State, Stored s u ∧
    s.closeBlock c b d o = (u.setLedger c b ⟨o.step, 1, o.origin % 2 ^ 32⟩).closed c b := by
  unfold State.closeBlock
  extract_lets head old news s1 dig s2 x s3
  have hscale : Stored s s1 := .writeMem ..
  clear_value dig s1
  exact ⟨s1.writeMem none (s1.digAddr c b) dig, hscale.trans (.writeMem ..), rfl⟩

theorem closeBlock_closed (s : State) (c b : Nat) (d : BlockDesc) (o : OpenBlock) : let t := s.closeBlock c b d o
    Tab.get? (t.slice c).blocks b = none ∧ b ∈ t.audit.dirty ∧ (∃ u : State, t.mem = (u.setLedger c b ⟨o.step, 1, o.origin % 2 ^ 32⟩).mem) ∧
      t.fld F.UPDATE_UPD_CLOSED c = (s.fld F.UPDATE_UPD_CLOSED c + 1) % 2 ^ F.UPDATE_UPD_CLOSED.w := by
  obtain ⟨u, hu, heq⟩ := closeBlock_eq s c b d o
  rw [heq]
  refine ⟨closed_blocks .., closed_dirty .., ⟨u, closed_mem ..⟩, ?_⟩
  rw [closed_count, (hu.trans (.setLedger ..)).fld_eq]

/-! ### The statement -/

theorem updateGroups : Claims.UpdateGroups := by
  intro n blk g s o d c b ho hd
  refine ⟨fun hdone hruns hg hrep hst hwait hpoison r hr => ?_, groupApply_of_busy ho hd, fun r hr hredo hro hwait => ?_, fun r hr => ?_⟩
  · obtain ⟨hblocks, hmem⟩ := groupStart_holds hpoison hr
    exact ⟨_, groupApply_of_ready ho hd hdone hruns hg hrep hst hwait, hblocks, hmem.trans (unitCount_accessed ..).mem⟩
  · have hgroup : r.group = g.val := group_of_find hr
    refine ⟨_, groupCommit_of_ready ho hr hredo hro hwait, commitRun_mem .., ⟨_, commitRun_blocks .., rfl, fun q hq hqg => ?_⟩, commitRun_groups ..⟩
    exact committed_of_mem_commit hq (hqg.trans hgroup.symm)
  · have hdoes := groupDone_eq ho hd hr
    have hgroup : r.group = g.val := group_of_find hr
    refine ⟨fun hopen => ?_, fun hlast hnow => ?_, fun hlast hnow => ?_⟩
    · rw [groupDone_of_open hopen] at hdoes
      exact ⟨_, hdoes, get?_blocks_setBlock .., hgroup ▸ mem_insertNat .., rfl, rfl⟩
    · rw [groupDone_of_waiting hlast hnow] at hdoes
      have hasked := Asked.unitAsk s (s.closeReads n.val d (o.finish r)) (s.closeWrites n.val blk.toNat d)
      refine ⟨_, hdoes, ?_, hasked.mem⟩
      rw [hasked.slice_eq]
      exact ho
    · rw [groupDone_of_last hlast hnow] at hdoes
      obtain ⟨hblocks, hdirty, hmem, hcount⟩ := closeBlock_closed (s.closeCounted n.val blk.toNat d (o.finish r)) n.val blk.toNat d (o.finish r)
      rw [(closeCounted_accessed ..).fld_eq (by decide)] at hcount
      exact ⟨_, hdoes, hblocks, hdirty, hmem, hcount⟩

/-- Settles O35: a chunk's judgement and a group's step are each an equation of the state after it; what reads the tables only counts, and what is
written rests on no slice. -/
theorem updateChunks : Obligations.UpdateChunks := ⟨chunkJudgement, updateGroups⟩

end Sys2Proof.Machine

/-! ## What the tables of the update unit show

A slice reads its tables without a partition. What it finds rests on what the memories hold, on registers, granules and fences; its own state and
the heddles have no part in it. -/

namespace Sys2Proof.Machine
open Sys2Proof Sys2Proof.Claims

variable {s t : State}

/-- A read without a partition gives the same in both states. -/
theorem readMem_congr (hmem : t.mem = s.mem) (hpoison : t.poison = s.poison) (hhost : t.host = s.host) (hfences : t.upd.fences = s.upd.fences)
    (hgran : t.cellar.granules = s.cellar.granules) (hregs : t.regs = s.regs) (a n : Nat) : t.readMem none a n = s.readMem none a n := by
  have hfld : t.fld = s.fld := by
    funext f i
    exact State.fld_congr hregs f i
  have hbound (a : Nat) : t.boundGran a = s.boundGran a := by
    unfold State.boundGran
    rw [hgran]
  have hplace (a : Nat) : t.place a = s.place a := by
    unfold State.place
    rw [hbound]
  have hhwin (a : Nat) : t.hwinOf none a = s.hwinOf none a := by
    unfold State.hwinOf State.flag
    rw [hfld]
  have hmap (a : Nat) : t.checkMap none false a = s.checkMap none false a := by
    unfold State.checkMap State.granule
    rw [hgran, hhwin]
  have hland (a : Nat) : t.landingSlice a 1 = s.landingSlice a 1 := by
    unfold State.landingSlice State.fldPair
    rw [hfld]
  have hunavail (a : Nat) : t.unavailAt a = s.unavailAt a := by
    simp only [State.unavailAt, State.ledgerUnavail, State.fldPair, hfences, hmem, hplace, hfld]
  have hcheck (a : Nat) : t.check none false a = s.check none false a := by
    unfold State.check
    rw [hmap, hland, hunavail, hbound]
  have hbytes (a n : Nat) : t.blockBytes a n = s.blockBytes a n := by
    unfold State.blockBytes
    rw [hmem, hhost, hplace]
  have hblock (a : Nat) : t.blockPoison a = s.blockPoison a := by
    unfold State.blockPoison
    rw [hpoison, hhost, hplace]
  unfold State.readMem State.checkAll
  simp only [hcheck, hbytes, hblock]

/-- Both states show the same tables. -/
structure SameTables (s t : State) : Prop where
  regs : t.regs = s.regs
  reads : ∀ a n, t.readMem none a n = s.readMem none a n

namespace SameTables

theorem setSlice (s : State) (c : Nat) (x : SliceState) : SameTables s (s.setSlice c x) := ⟨rfl, readMem_congr rfl rfl rfl rfl rfl rfl⟩
theorem setHeddle (s : State) (h : Nat) (x : Heddle) : SameTables s (s.setHeddle h x) := ⟨rfl, readMem_congr rfl rfl rfl rfl rfl rfl⟩

theorem fld_eq (h : SameTables s t) : t.fld = s.fld := by
  funext f i
  exact State.fld_congr h.regs f i

theorem btAddr_eq (h : SameTables s t) (c b : Nat) : t.btAddr c b = s.btAddr c b := by
  unfold State.btAddr State.updBase State.fldPair
  rw [h.fld_eq]

theorem ledgerAddr_eq (h : SameTables s t) (c b : Nat) : t.ledgerAddr c b = s.ledgerAddr c b := by
  unfold State.ledgerAddr State.updBase State.fldPair
  rw [h.fld_eq]

theorem blockDesc_eq (h : SameTables s t) (c b : Nat) : t.blockDesc c b = s.blockDesc c b := by
  unfold State.blockDesc State.unitRead State.rangesOwned State.dramRange State.rangeHas State.flag
  rw [h.reads, h.btAddr_eq, h.fld_eq]

theorem ledger_eq (h : SameTables s t) (c b : Nat) : t.ledger c b = s.ledger c b := by
  unfold State.ledger State.unitRead
  rw [h.reads, h.ledgerAddr_eq]

end SameTables

/-- What an access waits for rests on the fences and on what the host holds. -/
theorem accWaits_congr (hfences : t.upd.fences = s.upd.fences) (hcellar : t.cellar = s.cellar) (write : Bool) (a n : Nat) :
    t.accWaits write a n = s.accWaits write a n := by
  unfold State.accWaits State.evictHeld State.fenceWaits State.hostHeld
  rw [hfences, hcellar]

end Sys2Proof.Machine

/-! ## Messages of a repair (R331, R345, R349, R352)

A message that is next in order on its repair context is applied as it arrives: what is left to say of it is the effect of `State.repairLand`. -/

namespace Sys2Proof.Machine
open Sys2Proof Sys2Proof.Claims

variable {s t : State} {dev : BitVec 16} {hid : Nat} {seq : Word} {m : RepairMsg}

theorem Tab.set_set {α : Type} (m : Tab α) (k : Nat) (v w : α) : Tab.set (Tab.set m k v) k w = Tab.set m k w := by
  induction m with
  | nil => simp [Tab.set]
  | cons x m ih =>
    obtain ⟨k', v'⟩ := x
    by_cases hk : k' = k
    · simp [Tab.set, hk]
    · by_cases hlt : k < k'
      · simp [Tab.set, hk, hlt]
      · simp [Tab.set, hk, hlt, ih]

theorem State.setHeddle_setHeddle (s : State) (h : Nat) (x y : Heddle) : (s.setHeddle h x).setHeddle h y = s.setHeddle h y := by
  simp only [State.setHeddle, Tab.set_set]

theorem Heddle.ctxOf_setCtx (x : Heddle) (h : Nat) (rep : Bool) (c : SeqCtx) : (x.setCtx h rep c).ctxOf h rep = c := by
  unfold Heddle.setCtx Heddle.ctxOf
  cases rep && permanent h <;> rfl

theorem Heddle.setCtx_setCtx (x : Heddle) (h : Nat) (rep : Bool) (c c' : SeqCtx) : (x.setCtx h rep c).setCtx h rep c' = x.setCtx h rep c' := by
  unfold Heddle.setCtx
  cases rep && permanent h <;> rfl

/-! ### A context with one operation, next in order -/

/-- An operation that need not wait, alone in its context and next in order, is applied; its credits go back (R352). -/
theorem drainCtx_of_only {h q op : Nat} {rep : Bool} {a : Arrival} {x : Heddle} {c : SeqCtx}
    (hx : s.heddle h = x.setCtx h rep { c with ahead := [(q, a, op)] }) (hq : c.recvNext = q) (hw : s.opWaits op a = false) (fuel : Nat) :
    State.drainCtx (fuel + 1) s h rep =
      State.drainCtx fuel (((s.setHeddle h (x.setCtx h rep { c with recvNext := (q + opCount op a) % 2 ^ 32, ahead := [] })).landOp op a
        (peerPart a rep) (peerAccess a rep)).returnCredits h rep q (arrivalFlits op a) a.coll) h rep := by
  subst hq
  simp [State.drainCtx, hx, Heddle.ctxOf_setCtx, Heddle.setCtx_setCtx, hw]

/-- What an operation waits for rests on no heddle. -/
theorem opWaits_setHeddle (s : State) (h : Nat) (x : Heddle) (op : Nat) (a : Arrival) : (s.setHeddle h x).opWaits op a = s.opWaits op a := by
  have htables := SameTables.setHeddle s h x
  have hreads (m : RepairMsg) : (s.setHeddle h x).repairReads m = s.repairReads m := by
    cases m with
    | request c b target => simp only [State.repairReads, htables.btAddr_eq, htables.ledgerAddr_eq]
    | state | refusal => rfl
  have hwrites (m : RepairMsg) : (s.setHeddle h x).repairWrites m = s.repairWrites m := by
    cases m with
    | state c =>
      unfold State.repairWrites State.slice
      simp only [State.setHeddle_upd, htables.blockDesc_eq]
    | request | refusal => rfl
  have hranges : (s.setHeddle h x).opRanges op a = s.opRanges op a := by
    unfold State.opRanges
    cases a.repairMsg with
    | some m => simp only [hreads, hwrites]
    | none => rfl
  unfold State.opWaits
  simp only [hranges, accWaits_congr (t := s.setHeddle h x) (s := s) rfl rfl]

theorem signedOf_wrapInt_self (n : Nat) : signedOf 32 (wrapInt 32 ((n : Int) - n)) = 0 := by
  rw [Int.sub_self]
  decide

/-- An operation of a repair from the heddle's peer that is next in order in an empty context. -/
theorem judgeOp_of_next (hn : nextMsg dev hid seq m s) : s.judgeOp 7 (msgArrival dev hid seq m) dev.toNat hid seq.toNat none =
    State.drainCtx 1024 ((((taken dev hid seq m s).landOp 7 (msgArrival dev hid seq m) none ⟨0x0C, none, none⟩)).returnCredits hid true seq.toNat
      (arrivalFlits 7 (msgArrival dev hid seq m)) false) hid true := by
  obtain ⟨hfenced, hst, hsession, hpeer, huse, hnext, hahead, hwait⟩ := hn
  have hheddle : ¬((s.heddle hid).st ≠ .threaded ∨ (s.heddle hid).session = true ∨ (s.heddle hid).peer ≠ dev.toNat ∨
      (permanent hid = false ∧ (s.heddle hid).repairUse ≠ true)) := by
    rcases huse with huse | huse <;> simp [hst, hsession, hpeer, huse]
  have hgo := drainCtx_of_only (s := s.setHeddle hid ((s.heddle hid).setCtx hid true
    { (s.heddle hid).ctxOf hid true with ahead := [(seq.toNat, msgArrival dev hid seq m, 7)] })) (State.heddle_setHeddle_same ..) hnext
    ((opWaits_setHeddle ..).trans hwait) 1024
  rw [State.setHeddle_setHeddle, ← hnext] at hgo
  unfold State.judgeOp
  dsimp only
  rw [hfenced, if_neg Bool.false_ne_true, Option.isNone_none, if_neg hheddle, Option.any_none, if_neg Bool.false_ne_true, ← hnext,
    signedOf_wrapInt_self, if_neg (by omega), hahead, if_pos ⟨le_rfl, by omega, rfl⟩, List.nil_append]
  exact hgo

/-- A message that is next in order is applied, acknowledged, and its credits go back. -/
theorem arriveRepair_of_next (hn : nextMsg dev hid seq m s) : s.arriveRepair ⟨dev, hid, seq⟩ m =
    settled dev hid seq m ((taken dev hid seq m s).repairLand dev.toNat hid m) :=
  congrArg State.drainAll (judgeOp_of_next hn)

end Sys2Proof.Machine

/-! ## Repair requests and the replica's answer (R315, R329 to R331, Table 11.9) -/

namespace Sys2Proof.Machine
open Sys2Proof Sys2Proof.Claims

variable {s₀ s t : State} {c b agent : Nat} {d : BlockDesc} {r : Repair}

/-! ### What leaves for other devices changes no slice -/

theorem Sent.upd (h : Sent s t) : t.upd = s.upd := (congrArg State.upd h :)

namespace Sent

theorem sendMsg {dest : Nat} {m : Msg} (h : Sent s₀ s) : Sent s₀ (s.sendMsg dest m) := h.trans (ofFlown (Flown.ofNoted .refl).sendFlits)

theorem beginThread {h peer part : Nat} {repairUse : Bool} (hs : Sent s₀ s) : Sent s₀ (s.beginThread h peer part repairUse) := by
  unfold State.beginThread
  dsimp only
  split
  · exact sendMsg hs.setFab
  · exact hs.setFab

theorem beginRelease {h : Nat} (hs : Sent s₀ s) : Sent s₀ (s.beginRelease h) := by
  unfold State.beginRelease
  dsimp only
  split
  · exact sendMsg hs.setFab
  · exact hs

end Sent

theorem slice_setRepair (s : State) (c : Nat) (x : Option Repair) : (s.setRepair c x).slice c = { s.slice c with repair := x } :=
  State.slice_setSlice_same ..

theorem fences_setRepair (s : State) (c : Nat) (x : Option Repair) : (s.setRepair c x).upd.fences = s.upd.fences := rfl

theorem slice_of_upd (h : t.upd = s.upd) (c : Nat) : t.slice c = s.slice c := by rw [State.slice, h, State.slice]

/-- A block's ranges fenced: whether for good, and which. -/
def State.fence (s : State) (b : Nat) (f : Bool × List (Nat × Nat)) : State := { s with upd := { s.upd with fences := Tab.set s.upd.fences b f } }

theorem slice_fence (s : State) (b : Nat) (f : Bool × List (Nat × Nat)) (c : Nat) : (s.fence b f).slice c = s.slice c := rfl

theorem setRepair_upd (h : t.upd = s.upd) (c : Nat) (x : Option Repair) : (t.setRepair c x).upd = (s.setRepair c x).upd := by
  unfold State.setRepair State.setSlice State.slice
  rw [h]

/-- Asking a replica notes in the slice what has been sent and over which heddle, and changes nothing else of the update unit. -/
theorem askReplica_upd (s : State) (c : Nat) (d : BlockDesc) (r : Repair) (dev : Nat) :
    ∃ r' : Repair, r'.block = r.block ∧ r'.replica = r.replica ∧ r'.verified = r.verified ∧
      (s.askReplica c d r dev).upd = (s.setRepair c (some r')).upd := by
  unfold State.askReplica
  split
  · split
    · exact ⟨{ r with sent := true }, rfl, rfl, rfl, Sent.refl.issueOp.upd⟩
    · exact ⟨r, rfl, rfl, rfl, rfl⟩
  next hh =>
    split
    · split
      · exact ⟨{ r with heddle := some _ }, rfl, rfl, rfl, setRepair_upd Sent.refl.beginThread.upd ..⟩
      · exact ⟨r, rfl, rfl, rfl, rfl⟩
    · exact ⟨r, rfl, rfl, rfl, rfl⟩

/-! ### A request queued, a repair begun (R329, R330) -/

theorem repairAsk_of_foreign (hb : b % 8 ≠ c) : s.repairAsk c b agent = s.updErr c updNoBlock b 0 agent := if_pos hb

theorem repairAsk_of_block (hb : b % 8 = c) (hd : s.blockDesc c b = some d) : s.repairAsk c b agent = (s.queueRepair c b agent).repairStart c := by
  simp [State.repairAsk, hb, hd]

theorem queueRepair_of_new (hqueue : ∀ q ∈ (s.slice c).queue, q.1 ≠ b) (hrepair : ∀ r, (s.slice c).repair = some r → r.block ≠ b)
    (hroom : (s.slice c).queue.length < 16) :
    s.queueRepair c b agent = s.setSlice c { s.slice c with queue := (s.slice c).queue ++ [(b, agent)] } := by
  have hjoin : ((s.slice c).queue.any (fun q => q.1 == b) || (s.slice c).repair.any fun r => r.block == b) = false := by
    rw [Bool.or_eq_false_iff, List.any_eq_false]
    refine ⟨fun q hq => by simpa using hqueue q hq, ?_⟩
    cases hr : (s.slice c).repair with
    | none => rfl
    | some r => simpa using hrepair r hr
  simp only [State.queueRepair, hjoin, Bool.false_eq_true, if_false, if_neg (Nat.not_le.2 hroom)]

theorem repairStart_of_running (h : (s.slice c).repair = some r) : s.repairStart c = s := if_pos (by rw [h, Option.isSome_some])

theorem repairStart_of_idle (h : (s.slice c).repair = none) : s.repairStart c = s.repairRun c (s.slice c).queue := by
  simp [State.repairStart, h]

/-- The repair of a block as it begins. -/
def State.newRepair (s : State) (c b agent : Nat) : Repair :=
  { block := b, target := if (s.ledger c b).state = 0 then 0 else (s.ledger c b).step, agent := agent }

theorem repairRun_of_block {k dev : Nat} {rest : List (Nat × Nat)} {l : List (Nat × Nat)} (hd : s.blockDesc c b = some d)
    (hlist : d.replicaList = (k, dev) :: l) : s.repairRun c ((b, agent) :: rest) =
      (s.repairBegin c (s.newRepair c b agent) d rest).askReplica c d { s.newRepair c b agent with replica := k } dev := by
  rw [State.repairRun]
  simp only [hd, hlist]
  rfl

/-- A repair begins with its slice, the block's ledger entry and the fence, one after the other. -/
theorem repairBegin_eq (s : State) (c : Nat) (r : Repair) (d : BlockDesc) (rest : List (Nat × Nat)) : ∃ x : SliceState, x.queue = rest ∧
    s.repairBegin c r d rest =
      ((s.setSlice c x).setLedger c r.block ⟨r.target, 3, (s.ledger c r.block).origin⟩).fence r.block (false, d.ranges) :=
  ⟨_, rfl, rfl⟩

theorem repairBegin_queue (s : State) (c : Nat) (r : Repair) (d : BlockDesc) (rest : List (Nat × Nat)) :
    ((s.repairBegin c r d rest).slice c).queue = rest := by
  obtain ⟨x, hqueue, heq⟩ := repairBegin_eq s c r d rest
  rw [heq, slice_fence, (Stored.setLedger ..).slice_eq, State.slice_setSlice_same, hqueue]

theorem repairBegin_fence (s : State) (c : Nat) (r : Repair) (d : BlockDesc) (rest : List (Nat × Nat)) :
    Tab.get? (s.repairBegin c r d rest).upd.fences r.block = some (false, d.ranges) := Tab.get?_set_same ..

/-- The block's repair runs on slice `c` and asks replica `k`; its ranges are fenced and no other request is queued. -/
def repairBegun (c b k : Nat) (ranges : List (Nat × Nat)) (t : State) : Prop :=
  (∃ r, (t.slice c).repair = some r ∧ r.block = b ∧ r.replica = k ∧ r.verified = false) ∧
    Tab.get? t.upd.fences b = some (false, ranges) ∧ (t.slice c).queue = []

theorem askReplica_begun {ranges : List (Nat × Nat)} (hqueue : (s.slice c).queue = []) (hfence : Tab.get? s.upd.fences r.block = some (false, ranges))
    (hverified : r.verified = false) (d : BlockDesc) (dev : Nat) : repairBegun c r.block r.replica ranges (s.askReplica c d r dev) := by
  obtain ⟨r', hblock, hreplica, hverified', hupd⟩ := askReplica_upd s c d r dev
  have hslice : (s.askReplica c d r dev).slice c = { s.slice c with repair := some r' } := (slice_of_upd hupd c).trans (slice_setRepair ..)
  refine ⟨⟨r', congrArg SliceState.repair hslice, hblock, hreplica, hverified'.trans hverified⟩, ?_, (congrArg SliceState.queue hslice).trans hqueue⟩
  rw [hupd, fences_setRepair, hfence]

/-- A repair that begins: the first replica is being asked, the block's ranges are fenced. -/
theorem repairRun_begins {k dev : Nat} {l : List (Nat × Nat)} (hd : s.blockDesc c b = some d) (hlist : d.replicaList = (k, dev) :: l) :
    repairBegun c b k d.ranges (s.repairRun c [(b, agent)]) := by
  rw [repairRun_of_block hd hlist]
  exact askReplica_begun (r := { s.newRepair c b agent with replica := k }) (repairBegin_queue ..)
    (repairBegin_fence s c (s.newRepair c b agent) d []) rfl d dev

section

variable {ag : Agent} {n : Fin 8} {blk : Word}

theorem repairReq_gives {p : State → Prop} (hw : mayWrite ag 6 n.val s) (hp : p (s.repairAsk n.val blk.toNat (s.accessOf ag).code)) :
    Gives (.repairReq ag n blk) s p :=
  gives_of_pageAct rfl hw hp

/-- A block of another slice is an error of the page: code 0x82 (R315). -/
theorem repairAsk_foreign_counts (hb : b % 8 ≠ c) : let t := s.repairAsk c b agent
    t.upd = s.upd ∧ t.mem = s.mem ∧ (s.fld (F.ERR_CNT 6) c = 0 → t.fld (F.ERR_INFO_CODE 6) c = 0x82) := by
  rw [repairAsk_of_foreign hb]
  have hcount : Noted s (s.updErr c updNoBlock b 0 agent) := Noted.refl.countErr
  exact ⟨hcount.upd, hcount.mem, fun h0 => (updErr_described s c updNoBlock agent b 0 h0).1⟩

variable (hb : b % 8 = c) (hd : s.blockDesc c b = some d)
include hb hd

/-- Behind a repair that runs a request is queued. -/
theorem repairAsk_of_running (hr : (s.slice c).repair = some r) (hne : r.block ≠ b) (hqueue : ∀ q ∈ (s.slice c).queue, q.1 ≠ b)
    (hroom : (s.slice c).queue.length < 16) :
    s.repairAsk c b agent = s.setSlice c { s.slice c with queue := (s.slice c).queue ++ [(b, agent)] } := by
  have hother : ∀ r', (s.slice c).repair = some r' → r'.block ≠ b := fun r' hr' => Option.some.inj (hr.symm.trans hr') ▸ hne
  rw [repairAsk_of_block hb hd, queueRepair_of_new hqueue hother hroom]
  exact repairStart_of_running (by rw [State.slice_setSlice_same, hr])

/-- Where no repair runs and none is queued, the block's repair begins. -/
theorem repairAsk_of_idle {k dev : Nat} {l : List (Nat × Nat)} (hr : (s.slice c).repair = none) (hqueue : (s.slice c).queue = [])
    (hlist : d.replicaList = (k, dev) :: l) : repairBegun c b k d.ranges (s.repairAsk c b agent) := by
  have hnew : s.queueRepair c b agent = s.setSlice c { s.slice c with queue := [(b, agent)] } := by
    rw [queueRepair_of_new (by simp [hqueue]) (by simp [hr]) (by simp [hqueue]), hqueue, List.nil_append]
  rw [repairAsk_of_block hb hd, hnew, repairStart_of_idle (by rw [State.slice_setSlice_same, hr]), State.slice_setSlice_same]
  exact repairRun_begins (((SameTables.setSlice s c _).blockDesc_eq c b).trans hd) hlist

end

/-! ### REPAIR_REQUEST (Table 11.9, step 4) -/

section

variable {dev : BitVec 16} {hid : Nat} {seq : Word}

theorem taken_tables (dev : BitVec 16) (hid : Nat) (seq : Word) (m : RepairMsg) (s : State) : SameTables s (taken dev hid seq m s) :=
  SameTables.setHeddle ..

theorem taken_slice (dev : BitVec 16) (hid : Nat) (seq : Word) (m : RepairMsg) (s : State) (c : Nat) :
    (taken dev hid seq m s).slice c = s.slice c := rfl

/-- A request for a block without a valid descriptor, or whose ledger entry forbids an answer, is refused. -/
theorem repairRequested_of_refused {dev target : Nat} (h : s.blockDesc c b = none ∨ (s.ledger c b).noAnswer = true) :
    s.repairRequested c hid dev b target = s.repairRefuse c hid dev b := by
  refine if_pos ?_
  rw [Bool.or_eq_true, Option.isNone_iff_eq_none]
  exact h

theorem repairRequested_of_kept {dev target : Nat} (hd : (s.blockDesc c b).isSome = true) (hl : (s.ledger c b).noAnswer = false) :
    s.repairRequested c hid dev b target = s.setSlice c { s.slice c with
      answering := ((s.slice c).answering.filter fun e => !(e.1 == dev && e.2.1 == b)) ++ [(dev, b, target, hid)] } := by
  refine if_neg ?_
  rw [Bool.or_eq_true, Option.isNone_iff_eq_none, ← Option.not_isSome_iff_eq_none]
  rintro (h | h)
  · exact h hd
  · cases hl.symm.trans h

section

variable {n : Fin 8} {blk target : Word} (hn : nextMsg dev hid seq (.request n blk target) s)
include hn

theorem repairRequest_eq : Does (.repairRequest n ⟨dev, hid, seq⟩ blk target) s (settled dev hid seq (.request n blk target)
    ((taken dev hid seq (.request n blk target) s).repairRequested n.val hid dev.toNat blk.toNat target.toNat)) :=
  congrArg Host.Outcome.next (arriveRepair_of_next hn)

theorem repairRequest_refused (h : s.blockDesc n.val blk.toNat = none ∨ (s.ledger n.val blk.toNat).noAnswer = true) :
    Does (.repairRequest n ⟨dev, hid, seq⟩ blk target) s (settled dev hid seq (.request n blk target)
      ((taken dev hid seq (.request n blk target) s).repairRefuse n.val hid dev.toNat blk.toNat)) := by
  have htables := taken_tables dev hid seq (.request n blk target) s
  have hdoes := repairRequest_eq hn
  rwa [repairRequested_of_refused (by rwa [htables.blockDesc_eq, htables.ledger_eq])] at hdoes

theorem repairRequest_kept (hd : (s.blockDesc n.val blk.toNat).isSome = true) (hl : (s.ledger n.val blk.toNat).noAnswer = false) :
    ∃ u : State, Does (.repairRequest n ⟨dev, hid, seq⟩ blk target) s (settled dev hid seq (.request n blk target) u) ∧
      (dev.toNat, blk.toNat, target.toNat, hid) ∈ (u.slice n.val).answering ∧ u.mem = s.mem ∧ u.regs = s.regs := by
  have htables := taken_tables dev hid seq (.request n blk target) s
  have hdoes := repairRequest_eq hn
  rw [repairRequested_of_kept (by rwa [htables.blockDesc_eq]) (by rwa [htables.ledger_eq])] at hdoes
  refine ⟨_, hdoes, ?_, rfl, rfl⟩
  rw [State.slice_setSlice_same]
  exact List.mem_append_right _ (List.mem_singleton_self _)

end

end

/-! ### REPAIR_ANSWER (Table 11.9, steps 4 and 5) -/

/-- The request is no longer kept. -/
def State.answered (s : State) (c : Nat) (e : Nat × Nat × Nat × Nat) : State :=
  s.setSlice c { s.slice c with answering := (s.slice c).answering.filter fun y => y != e }

/-- What the replica's state is read from, besides the tables. -/
def State.stateRanges (s : State) (c b : Nat) (d : BlockDesc) : List (Nat × Nat) := (s.digAddr c b, 32) :: d.ranges

section

variable {e : Nat × Nat × Nat × Nat}

theorem repairAnswerTo_of_refused (h : s.blockDesc c e.2.1 = none ∨ (s.ledger c e.2.1).noAnswer = true) :
    s.repairAnswerTo c e.1 e.2.1 e.2.2.1 e.2.2.2 = (s.answered c e).repairRefuse c e.2.2.2 e.1 e.2.1 := by
  cases hd : s.blockDesc c e.2.1 with
  | none =>
    simp only [State.repairAnswerTo, hd]
    rfl
  | some d =>
    have hno := h.resolve_left (by simp [hd])
    simp only [State.repairAnswerTo, hd, hno, if_true]
    rfl

/-- A closed block at the target step or above is sent, once it can be read. -/
theorem repairAnswerTo_of_closed (hd : s.blockDesc c e.2.1 = some d) (hst : (s.ledger c e.2.1).state = 1)
    (htarget : precedes32 (s.ledger c e.2.1).step e.2.2.1 = false)
    (hready : ∀ x ∈ s.stateRanges c e.2.1 d, s.accWaits false x.1 x.2 = false) :
    s.repairAnswerTo c e.1 e.2.1 e.2.2.1 e.2.2.2 =
      ((s.answered c e).unitCount c false (s.stateRanges c e.2.1 d)).sendState c e.2.2.2 e.1 e.2.1 (s.repairBytes c e.2.1 d) := by
  have hno : (s.ledger c e.2.1).noAnswer = false := by simp [Ledger.noAnswer, hst]
  simp only [State.repairAnswerTo, hd, hno, hst, htarget, Bool.false_eq_true, if_false, and_self, if_true]
  exact whenReadable_of_ready hready _

theorem repairAnswerTo_of_open (hd : s.blockDesc c e.2.1 = some d) (hst : (s.ledger c e.2.1).state = 2) :
    s.repairAnswerTo c e.1 e.2.1 e.2.2.1 e.2.2.2 = s := by
  have hno : (s.ledger c e.2.1).noAnswer = false := by simp [Ledger.noAnswer, hst]
  have hopen : ¬((s.ledger c e.2.1).state = 1 ∧ precedes32 (s.ledger c e.2.1).step e.2.2.1 = false) := by simp [hst]
  simp only [State.repairAnswerTo, hd, hno, Bool.false_eq_true, if_false, if_neg hopen]

/-- A kept request whose tables can be read is answered. -/
theorem repairAnswer_of_kept {n : Fin 8} {dev : BitVec 16} {blk : Word}
    (he : (s.slice n.val).answering.find? (fun y => y.1 == dev.toNat && y.2.1 == blk.toNat) = some e)
    (hready : ∀ x ∈ [(s.btAddr n.val blk.toNat, 64), (s.ledgerAddr n.val blk.toNat, 16)], s.accWaits false x.1 x.2 = false) :
    e.1 = dev.toNat ∧ e.2.1 = blk.toNat ∧ Does (.repairAnswer n dev blk) s (s.repairAnswerTo n.val e.1 e.2.1 e.2.2.1 e.2.2.2) := by
  have hkey : (e.1 == dev.toNat && e.2.1 == blk.toNat) = true :=
    List.find?_some (p := fun y : Nat × Nat × Nat × Nat => y.1 == dev.toNat && y.2.1 == blk.toNat) he
  obtain ⟨hdev, hblk⟩ := Bool.and_eq_true_iff.1 hkey
  refine ⟨beq_iff_eq.1 hdev, beq_iff_eq.1 hblk, ?_⟩
  rw [← beq_iff_eq.1 hblk] at hready
  show execRepairAnswer n dev blk s = _
  simp only [execRepairAnswer, he]
  exact congrArg Host.Outcome.next (whenReadable_of_ready hready _)

end

/-! ### The statement -/

theorem repairRequests : Claims.RepairRequests := by
  refine ⟨fun ag n blk s hw => ⟨fun hb => repairReq_gives hw (repairAsk_foreign_counts hb), fun d hb hd => ⟨fun r hr hne hqueue hroom => ?_,
    fun k dev l hr hqueue hlist => repairReq_gives hw (repairAsk_of_idle hb hd hr hqueue hlist)⟩⟩,
    fun n dev hid seq blk target s hn => ⟨repairRequest_refused hn, repairRequest_kept hn⟩, fun n dev blk s e he hready => ?_⟩
  · refine repairReq_gives hw ?_
    rw [repairAsk_of_running hb hd hr hne hqueue hroom]
    exact ⟨State.slice_setSlice_same .., rfl⟩
  · obtain ⟨hdev, hblk, hdoes⟩ := repairAnswer_of_kept he hready
    rw [← hblk, ← hdev]
    refine ⟨fun hno => ?_, fun d hd => ⟨fun hst htarget hranges => ?_, fun hst => ?_⟩⟩
    · rwa [repairAnswerTo_of_refused hno] at hdoes
    · rwa [repairAnswerTo_of_closed hd hst htarget hranges] at hdoes
    · rwa [repairAnswerTo_of_open hd hst] at hdoes

end Sys2Proof.Machine

/-! ## The end of a repair (R330, R332, Table 11.9) -/

namespace Sys2Proof.Machine
open Sys2Proof Sys2Proof.Claims

variable {s t : State} {c : Nat} {d : BlockDesc} {r : Repair} {f : Fld} {i : Nat}

/-! ### What leaves on a link counts in two registers: TX_FLITS and NO_ROUTE -/

/-- The fields begin at different bits of a page, whatever page each stands on. -/
def Fld.elsewhere (f g : Fld) : Bool :=
  decide (f.off < 4096) && decide (f.lo < 32) && decide (g.off < 4096) && decide (g.lo < 32) && (f.off != g.off || f.lo != g.lo)

theorem Fld.key_ne_of_elsewhere {g : Fld} (h : f.elsewhere g = true) (i j : Nat) : f.key i ≠ g.key j := by
  simp only [Fld.elsewhere, Bool.and_eq_true, Bool.or_eq_true, decide_eq_true_eq, bne_iff_ne] at h
  unfold Fld.key
  omega

/-- A field that neither events nor flits write. -/
def Fld.offSend (f : Fld) : Bool := f.offLog && f.elsewhere F.LINK_TX_FLITS && f.elsewhere F.HEDDLE_NO_ROUTE

theorem fld_foldl {α : Type} {g : State → α → State} (hg : ∀ t x, (g t x).fld f i = t.fld f i) (l : List α) (s : State) :
    (l.foldl g s).fld f i = s.fld f i := by
  induction l generalizing s with
  | nil => rfl
  | cons x l ih => exact (ih _).trans (hg s x)

section

variable (hf : f.offSend = true)
include hf

theorem fld_sendFlits (s : State) (dest seq vc n : Nat) (x : FlitLoad) (m : Msg) (i : Nat) : (s.sendFlits dest seq vc n x m).fld f i = s.fld f i := by
  obtain ⟨⟨hlog, htx⟩, hroute⟩ : (f.offLog = true ∧ f.elsewhere F.LINK_TX_FLITS = true) ∧ f.elsewhere F.HEDDLE_NO_ROUTE = true := by
    simpa only [Fld.offSend, Bool.and_eq_true] using hf
  unfold State.sendFlits
  split
  · rfl
  · split
    · exact fld_countEv_other hlog (Fld.key_ne_of_elsewhere hroute i 0) ..
    · refine fld_foldl (fun t k => ?_) _ s
      exact State.fld_setFld_other _ _ (Fld.key_ne_of_elsewhere htx i _)

theorem fld_beginRelease (s : State) (h i : Nat) : (s.beginRelease h).fld f i = s.fld f i := by
  unfold State.beginRelease
  dsimp only
  split
  · exact fld_sendFlits hf ..
  · rfl

theorem fld_repairRelease (s : State) (r : Repair) (i : Nat) : (s.repairRelease r).fld f i = s.fld f i := by
  unfold State.repairRelease
  split
  · exact fld_beginRelease hf ..
  · rfl

end

theorem repairRelease_sent (s : State) (r : Repair) : Sent s (s.repairRelease r) := by
  unfold State.repairRelease
  split
  · exact (Sent.refl (s := s)).setFab.beginRelease
  · exact Sent.refl

theorem Sent.audit (h : Sent s t) : t.audit = s.audit := (congrArg State.audit h :)

/-! ### What the registers show of a repair that has ended -/

/-- A repair that has ended is counted and shown. -/
def State.repairCounted (s : State) (g : Fld) (c ev block result ns : Nat) : State := (s.countEv g c 1 ev).repairShow c block result ns

theorem repairCounted_noted (s : State) (g : Fld) (c ev block result ns : Nat) : Noted s (s.repairCounted g c ev block result ns) :=
  (Noted.refl (s := s)).countEv.setFld.setFld.setFld

theorem fld_repairCounted_result (s : State) (g : Fld) (c ev block result ns : Nat) :
    (s.repairCounted g c ev block result ns).fld F.UPDATE_REPAIR_STAT_RESULT c = result % 4 := by
  rw [State.repairCounted, State.repairShow, fld_setFld_place (f := F.UPDATE_REPAIR_NS) (g := F.UPDATE_REPAIR_STAT_RESULT) rfl rfl,
    fld_setFld_place (f := F.UPDATE_REPAIR_BLOCK) (g := F.UPDATE_REPAIR_STAT_RESULT) rfl rfl, State.fld_setFld_same]
  rfl

/-- The counter of a page 6 that stands apart from what is shown counts one. -/
theorem repairCounted_counts {g : Fld} (hty : g.ty = 6) (hlog : g.offLog = true) (hresult : g.apart F.UPDATE_REPAIR_STAT_RESULT = true)
    (hblock : g.apart F.UPDATE_REPAIR_BLOCK = true) (hns : g.apart F.UPDATE_REPAIR_NS = true) (s : State) (c ev block result ns : Nat) :
    Counts g c 1 s (s.repairCounted g c ev block result ns) := by
  refine counts_congr (countEv_counts_of_offLog hlog s c 1 ev) rfl ?_
  rw [State.repairCounted, State.repairShow, fld_setFld_place hty hns, fld_setFld_place hty hblock, fld_setFld_place hty hresult]

theorem repairRec_logged (s : State) (c block result idx dev ns : Nat) : Logged s (s.repairRec c block result idx dev ns) := Logged.refl.bookPush

/-! ### No replica remains (R332) -/

/-- A block without a replica: its repair is over and its ledger entry written, then its ranges are fenced for good, and that is counted, shown
and recorded. -/
theorem unavailable_eq (s : State) (c : Nat) (r : Repair) (ranges : List (Nat × Nat)) (dev ns : Nat) : ∃ v : State,
    v.upd = (s.setRepair c none).upd ∧ v.regs = s.regs ∧ s.unavailable c r ranges dev ns =
      ((v.fence r.block (true, ranges)).repairCounted F.UPDATE_UNAVAIL_CNT c Ev.UPDATE_WEIGHTS_UNAVAILABLE r.block 2 ns).repairRec
        c r.block 2 r.replica dev ns :=
  ⟨_, (Stored.setLedger ..).upd, (Stored.setLedger ..).regs, rfl⟩

theorem unavailable_upd (s : State) (c : Nat) (r : Repair) (ranges : List (Nat × Nat)) (dev ns : Nat) : ∃ v : State,
    v.upd = (s.setRepair c none).upd ∧ (s.unavailable c r ranges dev ns).upd = (v.fence r.block (true, ranges)).upd := by
  obtain ⟨v, hupd, -, heq⟩ := unavailable_eq s c r ranges dev ns
  refine ⟨v, hupd, ?_⟩
  rw [heq, (repairRec_logged ..).upd, (repairCounted_noted ..).upd]

theorem unavailable_fence (s : State) (c : Nat) (r : Repair) (ranges : List (Nat × Nat)) (dev ns : Nat) :
    Tab.get? (s.unavailable c r ranges dev ns).upd.fences r.block = some (true, ranges) := by
  obtain ⟨v, -, hfence⟩ := unavailable_upd s c r ranges dev ns
  rw [hfence]
  exact Tab.get?_set_same ..

theorem unavailable_slice (s : State) (c : Nat) (r : Repair) (ranges : List (Nat × Nat)) (dev ns : Nat) :
    (s.unavailable c r ranges dev ns).slice c = { s.slice c with repair := none } := by
  obtain ⟨v, hupd, hfence⟩ := unavailable_upd s c r ranges dev ns
  rw [slice_of_upd hfence, slice_fence, slice_of_upd hupd, slice_setRepair]

theorem unavailable_counts (s : State) (c : Nat) (r : Repair) (ranges : List (Nat × Nat)) (dev ns : Nat) :
    Counts F.UPDATE_UNAVAIL_CNT c 1 s (s.unavailable c r ranges dev ns) := by
  obtain ⟨v, -, hregs, heq⟩ := unavailable_eq s c r ranges dev ns
  have hcount := repairCounted_counts (g := F.UPDATE_UNAVAIL_CNT) rfl rfl rfl rfl rfl (v.fence r.block (true, ranges)) c
    Ev.UPDATE_WEIGHTS_UNAVAILABLE r.block 2 ns
  refine counts_congr hcount (State.fld_congr hregs.symm ..) ?_
  rw [heq, (repairRec_logged ..).fld_eq rfl]

theorem unavailable_result (s : State) (c : Nat) (r : Repair) (ranges : List (Nat × Nat)) (dev ns : Nat) :
    (s.unavailable c r ranges dev ns).fld F.UPDATE_REPAIR_STAT_RESULT c = 2 := by
  obtain ⟨v, -, -, heq⟩ := unavailable_eq s c r ranges dev ns
  rw [heq, (repairRec_logged ..).fld_eq rfl, fld_repairCounted_result]

/-- With no replica after the one asked, the block is unavailable. -/
theorem repairPass_of_last {ns : Nat} (hd : s.blockDesc c r.block = some d) (hlast : d.replicaList.filter (fun x => decide (r.replica < x.1)) = []) :
    s.repairPass c r ns =
      ((s.repairRelease r).unavailable c r d.ranges (d.replicas.getD r.replica 0xFFFF) ns).repairStart c := by
  simp only [State.repairPass, hd, hlast]

/-- With no request queued, no repair begins. -/
theorem repairStart_of_empty (hr : (s.slice c).repair = none) (hqueue : (s.slice c).queue = []) :
    ((s.repairStart c).slice c).repair = none ∧ (s.repairStart c).upd.fences = s.upd.fences ∧ (s.repairStart c).regs = s.regs := by
  rw [repairStart_of_idle hr, hqueue, State.repairRun]
  exact ⟨by rw [State.slice_setSlice_same, hr], rfl, State.setSlice_regs ..⟩

theorem repairPass_unavailable {ns : Nat} (hd : s.blockDesc c r.block = some d)
    (hlast : d.replicaList.filter (fun x => decide (r.replica < x.1)) = []) (hqueue : (s.slice c).queue = []) :
    Tab.get? (s.repairPass c r ns).upd.fences r.block = some (true, d.ranges) ∧ ((s.repairPass c r ns).slice c).repair = none ∧
      Counts F.UPDATE_UNAVAIL_CNT c 1 s (s.repairPass c r ns) ∧ (s.repairPass c r ns).fld F.UPDATE_REPAIR_STAT_RESULT c = 2 := by
  rw [repairPass_of_last hd hlast]
  have hsent := repairRelease_sent s r
  have hfld := fld_repairRelease (f := F.UPDATE_UNAVAIL_CNT) rfl s r c
  generalize s.repairRelease r = v at *
  generalize d.replicas.getD r.replica 0xFFFF = dev
  have hslice := unavailable_slice v c r d.ranges dev ns
  have hqueue' : (v.slice c).queue = [] := (congrArg SliceState.queue (slice_of_upd hsent.upd c)).trans hqueue
  obtain ⟨hrepair, hfences, hregs⟩ := repairStart_of_empty (congrArg SliceState.repair hslice) ((congrArg SliceState.queue hslice).trans hqueue')
  refine ⟨?_, hrepair, counts_congr (unavailable_counts v c r d.ranges dev ns) hfld.symm (State.fld_congr hregs ..), ?_⟩
  · rw [hfences, unavailable_fence]
  · rw [State.fld_congr hregs, unavailable_result]

/-! ### What a replica answers (R330, Table 11.9, steps 6 and 7) -/

section

variable {dev : Nat} (hr : (s.slice c).repair = some r) (hv : r.verified = false) (hd : s.blockDesc c r.block = some d)
  (hsent : r.sent = true) (hdev : d.replicas.getD r.replica 0xFFFF = dev)
include hr hv hd hsent hdev

/-- The repair waits for the replica that it asked. -/
theorem repairFrom_of_asked : s.repairFrom c dev = some (r, some d) := by
  simp only [State.repairFrom, hr, hv, hd, hsent, Option.elim_some, hdev, beq_self_eq_true, Bool.not_false, Bool.and_self, if_true]

theorem repairRefused_of_asked (ns : Nat) : s.repairRefused c dev ns = s.repairPass c r ns := by
  simp only [State.repairRefused, repairFrom_of_asked hr hv hd hsent hdev]

variable {step origin ns : Nat} {state scales digest : List Byte} {arrays : List (List Byte)} (hsplit : d.splitState state = some arrays)
include hsplit

theorem repairLanded_of_bad (hbad : d.stateDigest r.block step arrays scales ≠ digest) :
    s.repairLanded c dev step origin state scales digest ns = s.repairPass c r ns := by
  simp only [State.repairLanded, repairFrom_of_asked hr hv hd hsent hdev, hsplit, hbad, and_false, if_false]

/-- A state whose digest matches is written in full blocks; the repair then waits for the end of its writes. -/
theorem repairLanded_of_good (hscales : scales.length = 8 * d.rows) (htarget : precedes32 step r.target = false)
    (hgood : d.stateDigest r.block step arrays scales = digest) : s.repairLanded c dev step origin state scales digest ns =
      (((d.ranges.map (·.1)).zip (arrays ++ [scales])).foldl (fun u w => u.writeFull w.1 w.2) (s.unitCount c true d.ranges)).setRepair c
        (some { r with verified := true, step := step, origin := origin, digest := digest }) := by
  simp only [State.repairLanded, repairFrom_of_asked hr hv hd hsent hdev, hsplit, hscales, htarget, hgood, and_self, if_true]

end

section

variable {n : Fin 8} {dev : BitVec 16} {hid ns : Nat} {seq step origin : Word} {state scales digest : List Byte}
  (hr : (s.slice n.val).repair = some r) (hv : r.verified = false) (hd : s.blockDesc n.val r.block = some d) (hsent : r.sent = true)
  (hdev : d.replicas.getD r.replica 0xFFFF = dev.toNat)
include hr hv hd hsent hdev

/-- The replica's refusal passes it over. -/
theorem repairRefusal_passes (hn : nextMsg dev hid seq (.refusal n ns) s) : Does (.repairRefusal n ⟨⟨dev, hid, seq⟩, ns⟩) s
    (settled dev hid seq (.refusal n ns) ((taken dev hid seq (.refusal n ns) s).repairPass n.val r ns)) := by
  have hd' := ((taken_tables dev hid seq (.refusal n ns) s).blockDesc_eq n.val r.block).trans hd
  have hpass := repairRefused_of_asked (s := taken dev hid seq (.refusal n ns) s) ((congrArg SliceState.repair (taken_slice ..)).trans hr) hv hd'
    hsent hdev ns
  rw [← hpass]
  exact congrArg Host.Outcome.next (arriveRepair_of_next hn)

variable {arrays : List (List Byte)} (hsplit : d.splitState state = some arrays) (hn : nextMsg dev hid seq (.state n step origin state scales digest ns) s)
include hsplit hn

theorem repairState_passes (hbad : d.stateDigest r.block step.toNat arrays scales ≠ digest) :
    Does (.repairState n ⟨⟨dev, hid, seq⟩, ns⟩ step origin state scales digest) s (settled dev hid seq (.state n step origin state scales digest ns)
      ((taken dev hid seq (.state n step origin state scales digest ns) s).repairPass n.val r ns)) := by
  have hd' := ((taken_tables dev hid seq (.state n step origin state scales digest ns) s).blockDesc_eq n.val r.block).trans hd
  have hpass := repairLanded_of_bad (s := taken dev hid seq (.state n step origin state scales digest ns) s) (origin := origin.toNat) (ns := ns)
    ((congrArg SliceState.repair (taken_slice ..)).trans hr) hv hd' hsent hdev hsplit hbad
  rw [← hpass]
  exact congrArg Host.Outcome.next (arriveRepair_of_next hn)

theorem repairState_writes (hscales : scales.length = 8 * d.rows) (htarget : precedes32 step.toNat r.target = false)
    (hgood : d.stateDigest r.block step.toNat arrays scales = digest) : ∃ v : State,
    Does (.repairState n ⟨⟨dev, hid, seq⟩, ns⟩ step origin state scales digest) s
      (settled dev hid seq (.state n step origin state scales digest ns) v) ∧
    (v.slice n.val).repair = some { r with verified := true, step := step.toNat, origin := origin.toNat, digest := digest } ∧
    v.mem = (((d.ranges.map (·.1)).zip (arrays ++ [scales])).foldl (fun u w => u.writeFull w.1 w.2)
      ((taken dev hid seq (.state n step origin state scales digest ns) s).unitCount n.val true d.ranges)).mem := by
  have hd' := ((taken_tables dev hid seq (.state n step origin state scales digest ns) s).blockDesc_eq n.val r.block).trans hd
  have hland := repairLanded_of_good (s := taken dev hid seq (.state n step origin state scales digest ns) s) (origin := origin.toNat) (ns := ns)
    ((congrArg SliceState.repair (taken_slice ..)).trans hr) hv hd' hsent hdev hsplit hscales htarget hgood
  refine ⟨_, congrArg Host.Outcome.next (arriveRepair_of_next hn), ?_, ?_⟩
  · rw [State.repairLand, hland, slice_setRepair]
  · rw [State.repairLand, hland, State.setRepair, State.setSlice_mem]

end

/-! ### REPAIR_TIMEOUT and REPAIR_WRITE_DONE (R330, Table 11.9, steps 7 and 8) -/

section

variable {n : Fin 8} {ns : Nat} (hr : (s.slice n.val).repair = some r)
include hr

theorem repairTimeout_passes (hv : r.verified = false) : Does (.repairTimeout n ns) s (s.repairPass n.val r ns).drainAll := by
  show execRepairTimeout n ns s = _
  simp only [execRepairTimeout, hr, hv, Bool.false_eq_true, if_false]

theorem repairTimeout_of_verified (hv : r.verified = true) : Does (.repairTimeout n ns) s s := by
  show execRepairTimeout n ns s = _
  simp only [execRepairTimeout, hr, hv, if_true]

theorem repairWriteDone_of_unverified (hv : r.verified = false) : Does (.repairWriteDone n ns) s s := by
  show execRepairWriteDone n ns s = _
  simp only [execRepairWriteDone, hr, hv, if_true]

theorem repairWriteDone_ends (hv : r.verified = true)
    (hready : ∀ q ∈ [(s.digAddr n.val r.block, 32), (s.ledgerAddr n.val r.block, 16)], s.accWaits true q.1 q.2 = false) :
    Does (.repairWriteDone n ns) s (s.repairEnd n.val r ns) := by
  show execRepairWriteDone n ns s = _
  simp only [execRepairWriteDone, hr, hv, Bool.true_eq_false, if_false]
  exact congrArg Host.Outcome.next (whenWritable_of_ready hready _)

end

/-- Digest and ledger of the repaired block are written. -/
def State.repairWritten (s : State) (c : Nat) (r : Repair) : State :=
  ((s.unitCount c true [(s.digAddr c r.block, 32)]).writeMem none (s.digAddr c r.block) r.digest).setLedger c r.block ⟨r.step, 1, r.origin⟩

/-- The slice's repair is over, and the block is open no longer. -/
def State.repairLeft (s : State) (c b : Nat) : State :=
  s.setSlice c { s.slice c with blocks := Tab.del (s.slice c).blocks b, taskBlocks := (s.slice c).taskLeft b, repair := none }

/-- The fences of a block are lifted; the audit unit has it to digest again. -/
def State.unfence (s : State) (b : Nat) : State :=
  { s with
    upd := { s.upd with fences := Tab.del s.upd.fences b }
    audit := { s.audit with dirty := insertNat s.audit.dirty b } }

/-- The repaired block is closed, with all that is counted, shown and recorded of it. -/
def State.repairDone (s : State) (c : Nat) (r : Repair) (dev ns : Nat) : State :=
  (((s.repairCounted F.UPDATE_REPAIR_OK c Ev.UPDATE_REPAIR_DONE r.block 1 ns).setFld F.UPDATE_REPAIR_STAT_REPLICA c r.replica).repairRec
    c r.block 1 r.replica dev ns).repairRelease r

theorem repairEnd_eq (s : State) (c : Nat) (r : Repair) (ns : Nat) : ∃ dev, s.repairEnd c r ns =
    ((((s.repairWritten c r).repairLeft c r.block).unfence r.block).repairDone c r dev ns).drainAll.repairStart c :=
  ⟨_, rfl⟩

/-- What is left of the end of a repair counts, shows, records and sends. -/
theorem repairDone_sent (s : State) (c : Nat) (r : Repair) (dev ns : Nat) : Sent s (s.repairDone c r dev ns) :=
  (Sent.ofFlown (.ofNoted (((repairCounted_noted s ..).setFld).trans (repairRec_logged ..).noted))).trans (repairRelease_sent ..)

theorem repairDone_counts (s : State) (c : Nat) (r : Repair) (dev ns : Nat) : Counts F.UPDATE_REPAIR_OK c 1 s (s.repairDone c r dev ns) := by
  refine counts_congr (repairCounted_counts (g := F.UPDATE_REPAIR_OK) rfl rfl rfl rfl rfl s c Ev.UPDATE_REPAIR_DONE r.block 1 ns) rfl ?_
  rw [State.repairDone, fld_repairRelease rfl, (repairRec_logged ..).fld_eq rfl,
    fld_setFld_place (f := F.UPDATE_REPAIR_STAT_REPLICA) (g := F.UPDATE_REPAIR_OK) rfl rfl]

theorem repairDone_result (s : State) (c : Nat) (r : Repair) (dev ns : Nat) : (s.repairDone c r dev ns).fld F.UPDATE_REPAIR_STAT_RESULT c = 1 := by
  rw [State.repairDone, fld_repairRelease rfl, (repairRec_logged ..).fld_eq rfl,
    fld_setFld_place (f := F.UPDATE_REPAIR_STAT_REPLICA) (g := F.UPDATE_REPAIR_STAT_RESULT) rfl rfl, fld_repairCounted_result]

theorem repairLeft_fld (s : State) (c b : Nat) (f : Fld) (i : Nat) : ((s.repairLeft c b).unfence b).fld f i = s.fld f i := rfl
theorem repairLeft_mem (s : State) (c b : Nat) : ((s.repairLeft c b).unfence b).mem = s.mem := rfl

theorem repairLeft_fences (s : State) (c b : Nat) : Tab.get? ((s.repairLeft c b).unfence b).upd.fences b = none := Tab.get?_del_same ..
theorem repairLeft_dirty (s : State) (c b : Nat) : b ∈ ((s.repairLeft c b).unfence b).audit.dirty := mem_insertNat ..

theorem repairLeft_slice (s : State) (c b : Nat) : (((s.repairLeft c b).unfence b).slice c).repair = none ∧
    Tab.get? (((s.repairLeft c b).unfence b).slice c).blocks b = none := by
  have hslice : ((s.repairLeft c b).unfence b).slice c = (s.repairLeft c b).slice c := rfl
  rw [hslice, State.repairLeft, State.slice_setSlice_same]
  exact ⟨rfl, Tab.get?_del_same ..⟩

/-- What was written at the end of a repair leaves the registers as they were but for the accesses counted. -/
theorem repairWritten_fld (s : State) (c : Nat) (r : Repair) (i : Nat) :
    (s.repairWritten c r).fld F.UPDATE_REPAIR_OK i = s.fld F.UPDATE_REPAIR_OK i := by
  rw [State.repairWritten, (Stored.setLedger ..).fld_eq, (Stored.writeMem ..).fld_eq, (unitCount_accessed ..).fld_eq (by decide)]

/-! ### The statement -/

theorem repairEnds {ns : Nat} (s : State) (c : Nat) (r : Repair) : ∃ u : State, s.repairEnd c r ns = u.drainAll.repairStart c ∧
    (u.slice c).repair = none ∧ Tab.get? u.upd.fences r.block = none ∧ Tab.get? (u.slice c).blocks r.block = none ∧
    Counts F.UPDATE_REPAIR_OK c 1 s u ∧ u.fld F.UPDATE_REPAIR_STAT_RESULT c = 1 ∧ r.block ∈ u.audit.dirty ∧
    u.mem = (s.repairWritten c r).mem := by
  obtain ⟨dev, hend⟩ := repairEnd_eq s c r ns
  have hfld := repairWritten_fld s c r c
  generalize s.repairWritten c r = v at *
  obtain ⟨hrepair, hblock⟩ := repairLeft_slice v c r.block
  have hcounts := repairDone_counts ((v.repairLeft c r.block).unfence r.block) c r dev ns
  have hresult := repairDone_result ((v.repairLeft c r.block).unfence r.block) c r dev ns
  have hsent := repairDone_sent ((v.repairLeft c r.block).unfence r.block) c r dev ns
  have hslice := slice_of_upd hsent.upd c
  refine ⟨_, hend, ?_, ?_, ?_, counts_congr hcounts (hfld.symm.trans (repairLeft_fld ..).symm) rfl, hresult, ?_, hsent.mem.trans (repairLeft_mem ..)⟩
  · rw [hslice, hrepair]
  · rw [hsent.upd, repairLeft_fences]
  · rw [hslice, hblock]
  · rw [hsent.audit]
    exact repairLeft_dirty ..

theorem repairCompletes : Claims.RepairCompletes := by
  refine ⟨fun n dev hid seq step origin state scales digest ns s r d hr hv hd => ⟨fun hsent hdev => ⟨fun hn =>
    ⟨fun arrays hsplit hscales htarget hgood => repairState_writes hr hv hd hsent hdev hsplit hn hscales htarget hgood,
      fun arrays hsplit hbad => repairState_passes hr hv hd hsent hdev hsplit hn hbad⟩, repairRefusal_passes hr hv hd hsent hdev⟩,
    repairTimeout_passes hr hv, repairPass_unavailable hd⟩,
    fun n ns s r hr => ⟨repairWriteDone_of_unverified hr, repairTimeout_of_verified hr, fun hv hready => ?_⟩⟩
  obtain ⟨u, hend, hu⟩ := repairEnds (ns := ns) s n.val r
  exact ⟨u, (repairWriteDone_ends hr hv hready).trans (congrArg Host.Outcome.next hend), hu⟩

/-- Settles O36: a repair's messages are applied as they arrive (`arriveRepair_of_next`), and each phase of the repair is followed through the
slice, the fences, the ledger and the registers that it writes. -/
theorem repairProtocol : Obligations.RepairProtocol := ⟨repairRequests, repairCompletes⟩

end Sys2Proof.Machine
